-- ==== Sys2Proof/Word.lean ====
section
/-! DEFINITION. The words of the hub: bytes, 64-bit words, and the one shape of a finite map. -/

namespace Sys2Proof

/-- One byte of memory or of a packet (R7: memory is little-endian). -/
abbrev Byte := BitVec 8

/-- A 64-bit word: a counter, an index register, a register of the Lania window. -/
abbrev U64 := BitVec 64

/-- A 48-bit offset or operand A of a request header (R28). -/
abbrev U48 := BitVec 48

/-- A finite map by number: pairs with strictly rising keys (the canonical form is `FMap.Wf`). -/
abbrev FMap (α : Type) := List (Nat × α)

end Sys2Proof
end

