-- ==== Sys2Proof/Machine/Maps.lean ====
section
/-! DEFINITION. Finite maps in canonical form: look up, set and erase over pairs with strictly rising keys. -/

namespace Sys2Proof.FMap

variable {α : Type}

/-- The entry at a key, if there is one. -/
def find (m : FMap α) (k : Nat) : Option α :=
  match m with
  | [] => none
  | (k', v) :: r => if k' = k then some v else find r k

/-- The entry at a key, or the value an unlisted key has. -/
def getD (m : FMap α) (k : Nat) (d : α) : α := (find m k).getD d

/-- Put a value at a key, keeping the keys strictly rising. -/
def set (m : FMap α) (k : Nat) (v : α) : FMap α :=
  match m with
  | [] => [(k, v)]
  | (k', v') :: r =>
    if k < k' then (k, v) :: (k', v') :: r
    else if k = k' then (k, v) :: r
    else (k', v') :: set r k v

/-- Remove a key. -/
def erase (m : FMap α) (k : Nat) : FMap α := m.filter fun kv => kv.1 != k

/-- Whether the keys rise strictly: the canonical form. -/
abbrev Wf (m : FMap α) : Prop := (m.map Prod.fst).Pairwise (· < ·)

/-- Apply a function to every value. -/
def mapV (f : Nat → α → α) (m : FMap α) : FMap α := m.map fun kv => (kv.1, f kv.1 kv.2)

/-- Keep the entries that meet a test. -/
def keep (p : Nat → α → Bool) (m : FMap α) : FMap α := m.filter fun kv => p kv.1 kv.2

/-- Put a value at a key, or drop the key when the value is the unlisted one: the canonical form of a byte memory. -/
def put [DecidableEq α] (d : α) (m : FMap α) (k : Nat) (v : α) : FMap α :=
  if v = d then erase m k else set m k v

end Sys2Proof.FMap

namespace Sys2Proof

/-- Replace element `i` of a list, if there is one. -/
def listSet {α : Type} (l : List α) (i : Nat) (v : α) : List α :=
  match l, i with
  | [], _ => []
  | _ :: r, 0 => v :: r
  | x :: r, i + 1 => x :: listSet r i v

/-- Update the first element that meets a test. -/
def updFirst {α : Type} (p : α → Bool) (f : α → α) (l : List α) : List α :=
  match l with
  | [] => []
  | x :: r => if p x then f x :: r else x :: updFirst p f r

/-- Remove the first element that meets a test. -/
def dropFirst {α : Type} (p : α → Bool) (l : List α) : List α :=
  match l with
  | [] => []
  | x :: r => if p x then r else x :: dropFirst p r

/-- Fold a state transformer over a list, first element first. -/
def forAll {α σ : Type} (l : List α) (f : α → σ → σ) (s : σ) : σ := l.foldl (fun s a => f a s) s

end Sys2Proof
end

