-- ==== Sys2Proof/Syntax.lean ====
section
/-! DEFINITION. The commands of the hub: one constructor for each row of spec/opcode_table.json, with the operands a command
arrives with. Each constructor's docstring names its row and the rule that describes it. -/

namespace Sys2Proof

/-- Where a request enters the hub (R29, R264): a port (end point or uplink), a thread of a core, the Lania host,
the management agent, or one of the units behind node 0xC0. -/
inductive Ingress where
  | port (p : Nat)
  | core (c t : Nat)
  | host
  | mgmt
  /-- The hub's own units behind node 0xC0: the collective unit and the synchronisation unit. -/
  | unit
  deriving DecidableEq, Repr

/-- The fields of a request header (R28, Table 2-3), reserved bits left out (R30 ignores them). -/
structure Header where
  /-- PLOT tag, W0 [11:8]; set by the hub on an end-point port (R29). -/
  plot : Nat := 0
  /-- SOW, W0 [13:12]: 0 unicast, 1 row, 2 column, 3 reserved. -/
  sow : Nat := 0
  /-- SOWIX, W0 [17:14]. -/
  sowix : Nat := 0
  /-- LEN, W0 [29:18]. -/
  len : Nat := 0
  /-- TAG, W1 [15:0]. -/
  tag : Nat := 0
  /-- CTX, W1 [31:16]. -/
  ctx : Nat := 0
  /-- DST node, W2 [15:0]. -/
  dst : Nat := 0
  /-- SRC node, W2 [31:16]; set by the hub on an end-point port (R29). -/
  src : Nat := 0
  /-- OPA, operand A. -/
  opa : U48 := 0
  /-- OPB, W4 [31:16]. -/
  opb : Nat := 0
  /-- OPC, W5. -/
  opc : Nat := 0
  deriving DecidableEq, Repr

/-- A request as it stands at the hub: where it came from, its opcode, header and payload (R28, R31). -/
structure Req where
  /-- Where it entered. -/
  via : Ingress := .mgmt
  /-- OPCODE (Table 2-5). -/
  op : Nat := 0
  /-- The header. -/
  h : Header := {}
  /-- The payload bytes. -/
  data : List Byte := []
  deriving DecidableEq, Repr

/-- A reply packet (R32, Table 2-9). -/
structure Reply where
  /-- OPCODE: RD_DATA 0xC0, ATOM_DATA 0xC1, ACK 0xC8 or SOW_ACK 0xC9. -/
  op : Nat := 0xC8
  /-- PLOT of the request. -/
  plot : Nat := 0
  /-- STATUS (Table 2-11). -/
  status : Nat := 0
  /-- LEN: payload bytes. -/
  len : Nat := 0
  /-- TAG, echoed. -/
  tag : Nat := 0
  /-- CTX, echoed. -/
  ctx : Nat := 0
  /-- DST: the request's SRC. -/
  dst : Nat := 0
  /-- SRC: the request's DST as written. -/
  src : Nat := 0
  /-- DETAIL (Table 2-12). -/
  detail : Nat := 0
  /-- The payload. -/
  data : List Byte := []
  deriving DecidableEq, Repr

/-- A Gycia packet as a frame carries it: a request (opcode, header, payload) or a reply. -/
inductive Packet where
  | request (op : Nat) (h : Header) (data : List Byte)
  | reply (r : Reply)
  deriving DecidableEq, Repr

/-- A cell the Gleaner's walk finds on no list, with what it last held (R84, R85). -/
structure LostCell where
  /-- 0 request network, 1 reply network. -/
  net : Nat
  /-- Tile 0-127, headland 128-143, or the plot when `spill` is set. -/
  tile : Nat
  /-- Whether the cell lies in a spill share. -/
  spill : Bool
  /-- Cell index. -/
  cell : Nat
  /-- Class the cell last held: 0 MEM, 1 SIG, 2 MSG, 3 RED, 4 DATA, 5 ACK. -/
  cls : Nat
  /-- The transaction when the cell is the first of a frame: its packet. -/
  first : Option Packet
  deriving DecidableEq, Repr

/-- A digest pass that has read its last block, or a block that fails (R299): the region, the blocks of which the first reading alone
differed from the check value, and the block of which both readings did. -/
structure DigestPass where
  /-- Region. -/
  region : Nat
  /-- Blocks whose second reading matched (R279). -/
  transient : List Nat
  /-- The block whose second reading differed too. -/
  bad : Option Nat
  deriving DecidableEq, Repr

/-- The two ways a version command arrives (R132): a message with its request, or POOL_VERSION_CMD naming a node. -/
inductive VerSource where
  | msg (via : Ingress) (h : Header)
  | reg (node : Nat)
  deriving DecidableEq, Repr

/-- The two ways a watch command arrives (Table 10-1): a message with its request, or SYNC_WATCH_CMD. -/
inductive WatchSource where
  | msg (via : Ingress) (h : Header)
  | reg
  deriving DecidableEq, Repr

/-- An issued descriptor of a core: its thread and its order of issue there. -/
structure Issued where
  /-- Thread. -/
  thread : Nat
  /-- Order of issue in the thread. -/
  seq : Nat
  deriving DecidableEq, Repr

/-- What a transfer unit under replay belongs to (R271). -/
inductive ReplayOf where
  | packet (via : Ingress) (p : Packet)
  | descriptor (core : Nat) (d : Issued)
  deriving DecidableEq, Repr

/-- A word of a metadata array (Table 11-1). -/
inductive MetaWord where
  /-- Chip-cache tag of a pool line. -/
  | chipTag (line : Nat)
  /-- Snoop filter entry of a pool line. -/
  | snoop (line : Nat)
  /-- A counter and its grant count. -/
  | counter (c : Nat)
  /-- A watch. -/
  | watch (w : Nat)
  /-- Gate entry of a source for a destination. -/
  | gate (src dst : Nat)
  /-- On-chip extent entry. -/
  | extent (x : Nat)
  /-- On-chip frame map entry of a frame. -/
  | frame (f : Nat)
  deriving DecidableEq, Repr

/-- A word the array sweep finds (R272, R273, Table 11-1). -/
inductive SweepWord where
  /-- Corrected in place. -/
  | corrected (array index : Nat)
  /-- Uncorrectable in a cell of a frame of a flow, by its place from the head. -/
  | cell (index ingress egress cls place : Nat)
  /-- Uncorrectable in a cell of a frame of a port's egress stage, by its place. -/
  | stageCell (index port place : Nat)
  /-- Uncorrectable in a cell of a frame of a headland tile's entry buffer, by its place. -/
  | entryCell (index tile place : Nat)
  /-- Uncorrectable in a chip-cache line. -/
  | chipLine (index line : Nat)
  /-- Uncorrectable in a core data-cache line. -/
  | coreLine (index core pline : Nat)
  /-- Uncorrectable in a scratchpad word of 8 bytes. -/
  | scratch (index core word : Nat)
  /-- Uncorrectable in one copy, or in both, of a metadata array. -/
  | metadata (array index : Nat) (word : MetaWord) (both : Bool)
  /-- A translation cache entry with bad parity: a core, or 64 for the hub cache. -/
  | tlb (index core ctx page : Nat)
  deriving DecidableEq, Repr

/-- What the partner hub writes in the tier 3 pair record (R308): its serial with a signed public key and chain in a free slot (step 3), its
serial with the wrapped secret and a cleared transfer area (steps 2 and 5), or the wrapped secret in the transfer area of this hub's slot,
with the X448 public key it was wrapped for (step 4). -/
inductive PairWrite where
  | partnerSlot (serial : List Byte) (pub : List Byte) (chain : List Byte)
  | partnerHolds (serial : List Byte) (wrapped : List Byte)
  | transfer (wrapped : List Byte) (pub : List Byte)
  deriving DecidableEq, Repr

/-- An ADP message from a manager as it arrives (R369, Table 15-2), with what the receiver can tell of its tag and source. -/
structure AdpMsg where
  /-- Whether the datagram's source address is link-local (R368). -/
  linkLocal : Bool := true
  /-- Low 64 bits of the source address (Table 15-12). -/
  src : Nat := 0
  /-- VERSION. -/
  version : Nat := 1
  /-- Whether a reserved header bit is set, or the TYPE is a reserved one (R369). -/
  reserved : Bool := false
  /-- Whether the KMAC256 tag verifies under the session's manager-to-hub key (R373). -/
  tagOk : Bool := true
  /-- LAST. -/
  last : Bool := false
  /-- SESSION. -/
  session : Nat := 0
  /-- SEQ. -/
  seq : Nat := 0
  /-- INDEX. -/
  index : Nat := 0
  /-- SUB. -/
  sub : Nat := 0
  /-- OFFSET. -/
  off : Nat := 0
  /-- The body. -/
  body : List Byte := []
  deriving DecidableEq, Repr

/-- What fails a known-answer test twice (R399, Table 16-6). -/
inductive KatFail where
  /-- Tensor engine i of a logical core. -/
  | te (core i : Nat)
  | ve (core : Nat)
  | me (core : Nat)
  | sequencer (core : Nat)
  /-- The spare core of a cluster. -/
  | spare (cluster : Nat)
  | portTile (p : Nat)
  | headland
  /-- A central-services unit or a chip-cache way. -/
  | central
  deriving DecidableEq, Repr

/-- A device found on a CXL port: its serial number, capacity in bytes, and whether it reports a loss of power (R362, R363). -/
structure CxlDev where
  /-- Device Serial Number, 8 bytes. -/
  serial : List Byte
  /-- Capacity in bytes. -/
  capacity : Nat
  /-- Whether it reports a loss of power since the hub first saw it. -/
  powerLoss : Bool
  deriving DecidableEq, Repr

/-- A block as a receiving lane sees it (R327, R328): its header bit and, of a control block, byte 0 of its payload. -/
inductive Block where
  /-- Header bit 0. -/
  | data
  /-- Header bit 1, with the type. -/
  | control (type : Nat)
  /-- No block: a codeword ends here (R327), with the symbols corrected in it, or uncorrectable. -/
  | codeword (corrected : Option Nat)
  deriving DecidableEq, Repr

/-- What the tier 3 device's metadata keeps of an extent (R133, R146, R443): LATEST, the live published versions, the frames that hold
copies of its pages, and, when the partner hands the extent over, the data it wrote. -/
structure DevTable where
  /-- LATEST. -/
  latest : Nat := 0
  /-- Numbers of the live published versions, oldest first. -/
  versions : List Nat := []
  /-- Copies: frame, page, version. -/
  copies : List (Nat × Nat × Nat) := []
  /-- Data of the extent, by physical address. -/
  data : List (Nat × List Byte) := []
  /-- The check store of the extent's blocks: BCVs by physical address / 4,096 (R276). -/
  bcvs : List (Nat × Nat) := []
  /-- Rotation count of the extent (R307). -/
  rot : Nat := 0
  /-- Generation tags of its frames; a frame without one is CLEAR (R306, R307). -/
  tags : List (Nat × Nat) := []
  deriving DecidableEq, Repr

/-- A run over a chunk (R235, R292): how many runs of its arithmetic in a row come out wrong, and, should the first core's VE be judged,
whether it passes its known answers. -/
structure ChunkRun where
  upsets : Nat := 0
  vePasses : Bool := true
  deriving DecidableEq, Repr

/-- What a read of a block from its tier gives (R278): the 4,096 bytes, and the words that ECC corrected or could not correct: line,
number, and whether uncorrectable (R141, R142). -/
structure FillRead where
  bytes : List Byte
  ecc : List (Nat × Nat × Bool) := []
  deriving DecidableEq, Repr

/-- What a frame comes in on: the port, the blocks that have come on each of its lanes up to the frame's last (R327-R329), and of its
header (Table 13-4) KIND, KEYPHASE and COUNTER. -/
structure Light where
  port : Nat
  blocks : List (Nat × List Block) := []
  kind : Nat := 0
  phase : Bool := false
  counter : Nat := 0
  deriving DecidableEq, Repr

/-- A sequenced frame as it comes in (R336, R338): its SEQ, whether its CRC and codewords are good, and whether its tag verifies. -/
structure FrameIn where
  light : Light
  seq : Nat
  intact : Bool := true
  tagOk : Bool := true
  deriving DecidableEq, Repr

/-- A lane circuit in training (R333): it gains CDR lock, or its equaliser has converged as well. -/
structure LaneLock where
  circuit : Nat
  eq : Bool := true
  deriving DecidableEq, Repr

/-- What a lane's codewords show (R333): 16 good ones in a row, the 16th with a LANEID block that names the sender's port, its lane number and
its codeword counter; or 8 uncorrectable ones in a row. -/
inductive LaneWords where
  | locked (lane counter : Nat)
  | lost
  deriving DecidableEq, Repr

/-- A device's answer to a request for a block (R364): whether it confirms (false: it reports the block held by the partner), and, of an
extent the partner held, the version table that came with it. -/
structure DevAnswer where
  confirmed : Bool
  table : Option DevTable := none
  deriving DecidableEq, Repr

/-- What a REG access carries (R353). -/
inductive RegData where
  /-- A write, with its value. -/
  | write (v : U64)
  /-- A read. -/
  | read
  deriving DecidableEq, Repr

/-- What a host data access over Lania is (R353, Table 14-2). -/
inductive HostData where
  /-- A DMA read. -/
  | read
  /-- A DMA write. -/
  | write
  /-- A DBL read of the fault queue's ring, at a byte offset in it. -/
  | faultRing
  /-- A DBL read of the nomination ring, at a byte offset in it. -/
  | nomRing
  deriving DecidableEq, Repr

/-- A command: a row of the opcode table with its operands. -/
inductive Instr where
  /-- READ (R33): the request arrives with its header. -/
  | read (via : Ingress) (h : Header) (data : List Byte)
  /-- WRITE (R33). -/
  | write (via : Ingress) (h : Header) (data : List Byte)
  /-- WRITE_MASKED (R38). -/
  | writeMasked (via : Ingress) (h : Header) (data : List Byte)
  /-- ATOM_SWAP (R36). -/
  | atomSwap (via : Ingress) (h : Header) (data : List Byte)
  /-- ATOM_CAS (R36). -/
  | atomCas (via : Ingress) (h : Header) (data : List Byte)
  /-- ATOM_ADD (R36). -/
  | atomAdd (via : Ingress) (h : Header) (data : List Byte)
  /-- ATOM_MIN (R36). -/
  | atomMin (via : Ingress) (h : Header) (data : List Byte)
  /-- ATOM_MAX (R36). -/
  | atomMax (via : Ingress) (h : Header) (data : List Byte)
  /-- ATOM_AND (R36). -/
  | atomAnd (via : Ingress) (h : Header) (data : List Byte)
  /-- ATOM_OR (R36). -/
  | atomOr (via : Ingress) (h : Header) (data : List Byte)
  /-- ATOM_XOR (R36). -/
  | atomXor (via : Ingress) (h : Header) (data : List Byte)
  /-- SIG_ADD (R252). -/
  | sigAdd (via : Ingress) (h : Header) (data : List Byte)
  /-- SIG_MAX (R252). -/
  | sigMax (via : Ingress) (h : Header) (data : List Byte)
  /-- MSG_SEND (R207). -/
  | msgSend (via : Ingress) (h : Header) (data : List Byte)
  /-- COLL_NOTICE (R248). -/
  | collNotice (via : Ingress) (h : Header) (data : List Byte)
  /-- RED_ADD (R37). -/
  | redAdd (via : Ingress) (h : Header) (data : List Byte)
  /-- RED_MIN (R37). -/
  | redMin (via : Ingress) (h : Header) (data : List Byte)
  /-- RED_MAX (R37). -/
  | redMax (via : Ingress) (h : Header) (data : List Byte)
  /-- RED_COLL (R233). -/
  | redColl (via : Ingress) (h : Header) (data : List Byte)
  /-- SOWING (R39): a request of any opcode with SOW not 00. -/
  | sowing (via : Ingress) (op : Nat) (h : Header) (data : List Byte)
  /-- RD_DATA (R47): a reply arrives on a port. -/
  | rdData (p : Nat) (r : Reply)
  /-- ATOM_DATA (R47). -/
  | atomData (p : Nat) (r : Reply)
  /-- ACK (R47). -/
  | ack (p : Nat) (r : Reply)
  /-- FORWARD_TIMEOUT (R47): the record of a requester and tag on an egress port. -/
  | forwardTimeout (p src tag : Nat)
  /-- SIG_GATE_RELEASE (R46): the gate of a (source, destination) pair. -/
  | sigGateRelease (src dst : Nat)
  /-- FRAME_FORWARD (R64): the head frame of the flow (ingress tile, egress, class). -/
  | frameForward (ingress egress cls : Nat)
  /-- SPILL_ENTRY (R79): the per-cycle test for one (ingress tile, class). -/
  | spillEntry (ingress cls : Nat)
  /-- SPILL_READBACK (R80): the flow, and whether the frame read back passes its integrity check (R83). -/
  | spillReadback (ingress egress cls : Nat) (intact : Bool)
  /-- GLEANER_AUDIT (R84): the cells the walk finds unaccounted. -/
  | gleanerAudit (found : List LostCell)
  /-- EGRESS_FRAME_TRANSMIT (R66): the oldest frame in a port's egress stage. -/
  | egressFrameTransmit (p : Nat)
  /-- CTX_CREATE (R90): XLT_CTX_CMD with OP create. -/
  | ctxCreate (ctx : Nat) (fail : Bool)
  /-- CTX_DESTROY (R90). -/
  | ctxDestroy (ctx : Nat)
  /-- CTX_SLOT_FREED (R90). -/
  | ctxSlotFreed (ctx : Nat)
  /-- GEN_PUBLISH (R99): a write of XLT_GEN_PUBLISH. -/
  | genPublish (gen : U64)
  /-- WALK_COMPLETE (R101): the oldest walk in progress for a core's context and page. -/
  | walkComplete (core ctx page : Nat)
  /-- FAULT_RECORD_WRITE (R105). -/
  | faultRecordWrite (entry : Nat)
  /-- FAULT_DEFERRED_RECORD (R108): the oldest fault that waits for room. -/
  | faultDeferredRecord
  /-- FAULT_DOORBELL_REPEAT (R107). -/
  | faultDoorbellRepeat
  /-- FQ_CONSUME (R107): a write of XLT_FQ_CONS. -/
  | fqConsume (v : Nat)
  /-- FAULT_RESOLVE_RETRY (R109). -/
  | faultResolveRetry (entry : Nat)
  /-- FAULT_RESOLVE_FAIL (R109). -/
  | faultResolveFail (entry status : Nat)
  /-- FAULT_EXPIRED (R110). -/
  | faultExpired (entry : Nat)
  /-- SHOOT_CMD (R113): a write of XLT_SHOOT_CMD with the page count. -/
  | shootCmd (pages : Nat)
  /-- EPOCH_ADVANCE (R114). -/
  | epochAdvance
  /-- SHOOT_COMPLETE (R114). -/
  | shootComplete
  /-- EXTENT_ASSIGN (R126): the fields of Table 5-6; `dict` tells the dictionary path from POOL_EXTENT_CMD. -/
  | extentAssign (dict : Bool) (ext plot owner grantAll grantList role : Nat) (versioned : Bool)
  /-- EXTENT_REVOKE (R127). -/
  | extentRevoke (dict : Bool) (ext : Nat)
  /-- EXTENT_REGRANT (R126). -/
  | extentRegrant (dict : Bool) (ext grantAll grantList : Nat)
  /-- EXTENT_RELEASE (R146). -/
  | extentRelease (dict : Bool) (ext : Nat)
  /-- EXTENT_ADOPT (R146): ADOPT without FORCE. -/
  | extentAdopt (dict : Bool) (ext plot owner grantAll grantList role : Nat) (versioned : Bool)
  /-- EXTENT_ADOPT_FORCE (R147). -/
  | extentAdoptForce (dict : Bool) (ext plot owner grantAll grantList role : Nat) (versioned : Bool)
  /-- DRAIN_TIMEOUT (R127). -/
  | drainTimeout (ext : Nat)
  /-- DRAIN_COMPLETE (R127). -/
  | drainComplete (ext : Nat)
  /-- SCRUB_DONE (R128). -/
  | scrubDone (ext : Nat)
  /-- TIER_TIMEOUT (R129): the oldest access that waits on a CXL port. -/
  | tierTimeout (q : Nat)
  /-- VERSION_OPEN (R132): by message (with the request) or by POOL_VERSION_CMD (with NODE). -/
  | versionOpen (src : VerSource) (ext : Nat) (version : Nat)
  /-- VERSION_CLOSE (R132). -/
  | versionClose (src : VerSource) (ext : Nat) (version : Nat)
  /-- VERSION_PUBLISH (R133). -/
  | versionPublish (src : VerSource) (ext : Nat) (version : Nat)
  /-- VERSION_RETIRE (R135). -/
  | versionRetire (src : VerSource) (ext : Nat) (version : Nat)
  /-- PUBLISH_COMPLETE (R133). -/
  | publishComplete (ext : Nat)
  /-- COPY_ON_WRITE_DONE (R134). -/
  | copyOnWriteDone (ext page : Nat)
  /-- DECAY_PERIOD_END (R138). -/
  | decayPeriodEnd
  /-- NOM_CONSUME (R139): a write of POOL_NOM_CONS. -/
  | nomConsume (v : Nat)
  /-- MIGRATE_CMD (R140): a write of POOL_MIGRATE_CMD with HOME clear. -/
  | migrateCmd (ext page : Nat)
  /-- MIGRATE_HOME (R140): with HOME set. -/
  | migrateHome (ext page : Nat)
  /-- MIGRATE_DONE (R140). -/
  | migrateDone
  /-- PATROL_READ (R141): the lines read, each with its corrected words and whether it is uncorrectable. -/
  | patrolRead (lines : List (Nat × Nat × Bool))
  /-- FRAME_RETIRE_DONE (R142). -/
  | frameRetireDone (frame : Nat)
  /-- CXL_PORT_LOST (R145). -/
  | cxlPortLost (q : Nat)
  /-- RD_SHARED (R356): a coherent read of a line by its physical address. -/
  | rdShared (line : Nat)
  /-- RD_OWN (R356). -/
  | rdOwn (line : Nat)
  /-- WR_BACK (R356). -/
  | wrBack (line : Nat) (data : List Byte)
  /-- CLEAN_EVICT (R356). -/
  | cleanEvict (line : Nat)
  /-- SNOOP_RESPONSE (R163): the line, and the data when the host wrote it back. -/
  | snoopResponse (line : Nat) (data : Option (List Byte))
  /-- SNOOP_TIMEOUT (R164). -/
  | snoopTimeout (line : Nat)
  /-- FILTER_WALK_DONE (R166). -/
  | filterWalkDone
  /-- ORPHAN_ADOPT (R168). -/
  | orphanAdopt (ext line : Nat)
  /-- ORPHAN_WRITE (R168). -/
  | orphanWrite (ext line : Nat) (data : List Byte)
  /-- NOP (R213): the descriptor at the thread's place in its program issues. -/
  | nop (core thread : Nat)
  /-- HALT (R213). -/
  | halt (core thread : Nat)
  /-- JUMP (R213). -/
  | jump (core thread : Nat)
  /-- LOOP (R213). -/
  | loop (core thread : Nat)
  /-- BRST (R213). -/
  | brst (core thread : Nat)
  /-- BRX (R213). -/
  | brx (core thread : Nat)
  /-- XOP (R213). -/
  | xop (core thread : Nat)
  /-- LDX (R213). -/
  | ldx (core thread : Nat)
  /-- FENCE (R155). -/
  | fence (core thread : Nat)
  /-- WAIT (R262). -/
  | wait (core thread : Nat)
  /-- SIGNAL (R213). -/
  | signal (core thread : Nat)
  /-- CLRST (R213). -/
  | clrst (core thread : Nat)
  /-- REPORT (R213). -/
  | report (core thread : Nat)
  /-- STREAM (R205). -/
  | stream (core thread : Nat)
  /-- RECV (R207). -/
  | recv (core thread : Nat)
  /-- ATOM (R157). -/
  | atom (core thread : Nat)
  /-- SIGMAX (R213). -/
  | sigmaxDesc (core thread : Nat)
  /-- INVAL (R158). -/
  | inval (core thread : Nat)
  /-- WBACK (R158). -/
  | wback (core thread : Nat)
  /-- COPY (R216). -/
  | copy (core thread : Nat)
  /-- GATHER (R216). -/
  | gather (core thread : Nat)
  /-- SCATTER (R216). -/
  | scatter (core thread : Nat)
  /-- SOW (R213). -/
  | sow (core thread : Nat)
  /-- SEND (R213). -/
  | send (core thread : Nat)
  /-- FILL (R213). -/
  | fill (core thread : Nat)
  /-- DOT (R214); `upset`: a hardware upset makes its automatic check fail (R285). -/
  | dot (core thread : Nat) (upset : Bool)
  /-- REDUCE (R213); `upset`: a hardware upset makes its automatic check fail (R285). -/
  | reduce (core thread : Nat) (upset : Bool)
  /-- EWISE (R213). -/
  | ewise (core thread : Nat)
  /-- SCALE (R213). -/
  | scale (core thread : Nat)
  /-- QUANT (R190); `upset`: a hardware upset makes its automatic check fail (R285). -/
  | quant (core thread : Nat) (upset : Bool)
  /-- DEQUANT (R176). -/
  | dequant (core thread : Nat)
  /-- SMAXP (R215); `upset`: a hardware upset makes its automatic check fail (R285). -/
  | smaxp (core thread : Nat) (upset : Bool)
  /-- TOPK (R213); `upset`: a hardware upset makes its automatic check fail (R285). -/
  | topk (core thread : Nat) (upset : Bool)
  /-- ACCADD (R185); `upset`: a hardware upset makes its automatic check fail (R285). -/
  | accadd (core thread : Nat) (upset : Bool)
  /-- DECODE (R179); `upset`: a hardware upset makes its automatic check fail (R285). -/
  | decodeDesc (core thread : Nat) (upset : Bool)
  /-- CAST (R192). -/
  | cast (core thread : Nat)
  /-- BCHECK (R281). -/
  | bcheck (core thread : Nat)
  /-- RCHECK (R213). -/
  | rcheck (core thread : Nat)
  /-- LCHECK (R284). -/
  | lcheck (core thread : Nat)
  /-- DIGEST (R298). -/
  | digest (core thread : Nat)
  /-- REMOTE_LINE_ARRIVAL (R203): the reply to the request with this tag that a thread's descriptor made. -/
  | remoteLineArrival (core thread tag status : Nat) (data : List Byte)
  /-- CORE_LOAD (R218): FUR_CMD LOAD. -/
  | coreLoad (core : Nat)
  /-- LOAD_COMPLETE (R218). -/
  | loadComplete (core : Nat)
  /-- CORE_START (R217): the thread mask and context. -/
  | coreStart (core mask ctx : Nat)
  /-- CORE_STOP (R217). -/
  | coreStop (core mask : Nat)
  /-- CORE_UNLOAD (R217). -/
  | coreUnload (core : Nat)
  /-- PROBE_RESET (R198). -/
  | probeReset (mask : Nat)
  /-- GROUP_DEFINE (R226): the definition image, written to the selected group. -/
  | groupDefine (image : List Byte)
  /-- GROUP_UNDEFINE (R224): an image with MEMBERS 0, written to the selected group. -/
  | groupUndefine (image : List Byte)
  /-- GROUP_ABORT (R246): through GroupAbort on the selected group, or COLL_ABORT_CMD naming the group. -/
  | groupAbort (reg : Option Nat) (seq : Nat)
  /-- COLL_DESCRIPTOR_POST (R229): a descriptor handed over from slot `slot` of local member `k` of a group. -/
  | collDescriptorPost (group k slot : Nat) (desc : List Byte)
  /-- ALL_REDUCE (R228): the group whose next sequence starts. -/
  | allReduce (group : Nat)
  /-- REDUCE_SCATTER (R228). -/
  | reduceScatter (group : Nat)
  /-- ALL_GATHER (R228). -/
  | allGather (group : Nat)
  /-- BROADCAST (R228). -/
  | broadcast (group : Nat)
  /-- COLL_REDUCE (R228). -/
  | collReduce (group : Nat)
  /-- ALL_TO_ALL (R228). -/
  | allToAll (group : Nat)
  /-- BARRIER (R228). -/
  | barrier (group : Nat)
  /-- CHUNK_READY (R235): the chunk, and the run over it. -/
  | chunkReady (group chunk : Nat) (run : ChunkRun)
  /-- CHUNK_WRITTEN (R236). -/
  | chunkWritten (group chunk : Nat)
  /-- COLLECTIVE_SIGNAL (R237): the member whose completion record has been answered. -/
  | collectiveSignal (group seq member : Nat)
  /-- XCH_SIGNATURE (R239): the payload of an exchange message and the hub it comes from. -/
  | xchSignature (hub : Nat) (payload : List Byte)
  /-- XCH_PARTIAL (R240). -/
  | xchPartial (hub : Nat) (payload : List Byte)
  /-- XCH_RESULT (R240). -/
  | xchResult (hub : Nat) (payload : List Byte)
  /-- XCH_DATA (R240). -/
  | xchData (hub : Nat) (payload : List Byte)
  /-- XCH_NOTICE (R248). -/
  | xchNotice (hub : Nat) (payload : List Byte)
  /-- XCH_ABORT (R242). -/
  | xchAbort (hub : Nat) (payload : List Byte)
  /-- XCH_DONE (R240). -/
  | xchDone (hub : Nat) (payload : List Byte)
  /-- SETTLE_TIME_EXPIRY (R242). -/
  | settleTimeExpiry (group seq : Nat)
  /-- DEADLINE_CHECK (R247). -/
  | deadlineCheck
  /-- WATCH_ARM (R256): the 32 bytes of Table 10-2, with OP ARM. -/
  | watchArm (src : WatchSource) (cmd : List Byte)
  /-- WATCH_DISARM (R257). -/
  | watchDisarm (src : WatchSource) (cmd : List Byte)
  /-- WATCH_FIRING (R259): up to four firings. -/
  | watchFiring
  /-- FIRING_RETRY (R267): the oldest refused firing message. -/
  | firingRetry
  /-- FIRING_RETRY_TIMEOUT (R267). -/
  | firingRetryTimeout
  /-- UNIT_REPLAY (R271): path, unit number, what it belongs to, and whether it now arrives clean. -/
  | unitReplay (path unit : Nat) (of_ : ReplayOf) (clean : Bool)
  /-- ARRAY_SWEEP (R273): the words the sweep corrects or finds uncorrectable. -/
  | arraySweep (words : List SweepWord)
  /-- BLOCK_FILL_COMPLETE (R278): the block number and what was read from its tier. -/
  | blockFillComplete (blk : Nat) (reading : FillRead)
  /-- BLOCK_REREAD_COMPLETE (R279): the second reading. -/
  | blockRereadComplete (blk : Nat) (reading : List Byte)
  /-- CHECK_REPEAT_DONE (R288): the descriptor whose failed operation was repeated; whether the engine was sound this time. -/
  | checkRepeatDone (core : Nat) (d : Issued) (sound : Bool)
  /-- JUDGEMENT_DONE (R288): the descriptor whose engine was judged; whether the judge passes. -/
  | judgementDone (core : Nat) (d : Issued) (passes : Bool)
  /-- TILTH_LOAD (R294): CHK_TILTH_CMD LOAD. -/
  | tilthLoad
  /-- TILTH_IMAGE (R294): the image written through the dictionary. -/
  | tilthImage (image : List Byte)
  /-- TILTH_RUN (R295). -/
  | tilthRun
  /-- TILTH_SCHEDULE (R295). -/
  | tilthSchedule
  /-- TILTH_TEST_DONE (R296): a core (0-63) or 64 + port tile, the test and whether it passed. -/
  | tilthTestDone (target test : Nat) (passed : Bool)
  /-- DIGEST_NOW (R299): DigestNow on the selected region. -/
  | digestNow
  /-- DIGEST_INTERVAL (R299). -/
  | digestInterval (region : Nat)
  /-- DIGEST_PASS_DONE (R299). -/
  | digestPassDone (pass : DigestPass)
  /-- PLOT_CREATE (R312): by the dictionary, or by KEY_PLOT_CMD. -/
  | plotCreate (dict : Bool) (plot : Nat)
  /-- PLOT_ACTIVATE (R312). -/
  | plotActivate (dict : Bool) (plot : Nat)
  /-- PLOT_ROTATE (R315). -/
  | plotRotate (dict : Bool) (plot : Nat)
  /-- PLOT_RETIREOLD (R317). -/
  | plotRetireold (dict : Bool) (plot : Nat) (force : Bool)
  /-- PLOT_FENCE (R320). -/
  | plotFence (dict : Bool) (plot : Nat)
  /-- PLOT_LIFT (R320). -/
  | plotLift (dict : Bool) (plot : Nat)
  /-- PLOT_REMOVE (R319). -/
  | plotRemove (dict : Bool) (plot : Nat)
  /-- PLOT_REMOVE_DRAINED (R319). -/
  | plotRemoveDrained (plot : Nat)
  /-- ROTATION_COMPLETE (R316). -/
  | rotationComplete (plot : Nat)
  /-- TIER3_PAIR_RESET (R308). -/
  | tier3PairReset
  /-- KEYX_FRAME (R309): port, far end's certificate chain, signed public key, signature, and whether the far end is a hub. -/
  | keyxFrame (p : FrameIn) (chain pub sig : List Byte) (hub : Bool)
  /-- LINK_REKEY (R310). -/
  | linkRekey (p : Nat)
  /-- ATTEST_REQUEST (R321): by AttestGo, or by KEY_ATTEST_CMD with its plot. -/
  | attestRequest (reg : Option Nat)
  /-- TENANT_SESSION_EXPIRY (R322): the tenant session key of a report number. -/
  | tenantSessionExpiry (report : Nat)
  /-- DEBUG_TOKEN (R323): by DebugToken with its bytes, or by KEY_DEBUG_CMD with context and offset. -/
  | debugToken (dict : Option (List Byte)) (ctx off : Nat)
  /-- ATTEST_REPORT_SIGNED (R321): on the dictionary path or the register path. -/
  | attestReportSigned (dict : Bool)
  /-- REENCRYPT_FRAME_DONE (R315): the frame. -/
  | reencryptFrameDone (frame : Nat)
  /-- PAIR_RECORD_SLOT_WRITTEN (R308). -/
  | pairRecordSlotWritten (w : PairWrite)
  /-- PORT_ENABLE (R332): by PortCommand, or by PORT_CMD. -/
  | portEnable (dict : Bool) (p : Nat)
  /-- PORT_DISABLE (R332). -/
  | portDisable (dict : Bool) (p : Nat)
  /-- PORT_DORMANT (R335). -/
  | portDormant (dict : Bool) (p : Nat)
  /-- PORT_WAKE (R335). -/
  | portWake (dict : Bool) (p : Nat)
  /-- PORT_HOLD (R332). -/
  | portHold (dict : Bool) (p : Nat)
  /-- PORT_RELEASE (R332). -/
  | portRelease (dict : Bool) (p : Nat)
  /-- LIGHT_DETECTED (R331): on every lane of the port. -/
  | lightDetected (p : Nat)
  /-- LANE_CONVERGED (R333): engine, and a circuit with what it has gained. -/
  | laneConverged (e : Nat) (j : LaneLock)
  /-- LANE_ALOCK (R333): engine, circuit and what its codewords show. -/
  | laneAlock (e j : Nat) (lane : LaneWords)
  /-- PORT_SLIP_CMD (R334): the circuit mask. -/
  | portSlipCmd (e mask : Nat)
  /-- TRAINING_TIMEOUT (R331). -/
  | trainingTimeout (p : Nat)
  /-- IDENT_FRAME (R347): the 64-byte body. -/
  | identFrame (p : FrameIn) (body : List Byte)
  /-- IDENT_RESEND (R347). -/
  | identResend (p : Nat)
  /-- PLAN_WAIT_TIMEOUT (R347). -/
  | planWaitTimeout (p : Nat)
  /-- DORMANT_FRAME (R335). -/
  | dormantFrame (p : FrameIn)
  /-- DORMANT_SETTLE (R335). -/
  | dormantSettle (p : Nat)
  /-- DORMANT_TIMEOUT (R335). -/
  | dormantTimeout (p : Nat)
  /-- WAKE_SEQUENCE_DONE (R335). -/
  | wakeSequenceDone (p : Nat)
  /-- GYCIA_FRAME (R337): SEQ, header PLOT, whether CRC and codewords are good, whether the tag verifies, and the packets. -/
  | gyciaFrame (p : Light) (seq plot : Nat) (intact tagOk : Bool) (packets : List Packet)
  /-- LINK_FRAME (R339, Table 13-6): ACKSEQ, NAK, the freed cells by class (MEM, SIG, MSG, RED) and RXLOCK. -/
  | linkFrame (p : Light) (ackSeq : Nat) (nak : Bool) (mem sig msg red rxlock : Nat)
  /-- LINK_FRAME_TIMER (R339). -/
  | linkFrameTimer (p : Nat)
  /-- ACK_STALL_TIMEOUT (R341). -/
  | ackStallTimeout (p : Nat)
  /-- RETRAIN_COMPLETE (R341). -/
  | retrainComplete (p : Nat)
  /-- RETRAIN_TIMEOUT (R341). -/
  | retrainTimeout (p : Nat)
  /-- LANE_FAILURE (R342): engine, circuit, and whether its receiver lost lock. -/
  | laneFailure (e j : Nat) (rxLost : Bool)
  /-- SPARE_JOINED (R344): engine and spare circuit. -/
  | spareJoined (e j : Nat)
  /-- PORT_LOST (R345): the lanes that still hold signal. -/
  | portLost (p lanes : Nat)
  /-- EYE_SCAN_POINT (R346): PORT_EYE_CMD with START. -/
  | eyeScanPoint (e lanes phase volt eye dwell : Nat)
  /-- EYE_POINT_DONE (R346): circuits with their disagreements. -/
  | eyePointDone (e : Nat) (results : List (Nat × Nat))
  /-- EYE_SCAN_PERIOD (R346): for each lane (port, lane) scanned: worst eye, its width and height. -/
  | eyeScanPeriod (results : List (Nat × Nat × Nat × Nat × Nat))
  /-- OPT_HEALTH_POLL (R343): engine; per position received power, back-reflection, transmit power; the laser inputs. -/
  | optHealthPoll (e : Nat) (lanes : List (Int × Int × Int)) (lasers : List Int)
  /-- LASER_INPUT_LOSS (R326): engine, fibre and power. -/
  | laserInputLoss (e f : Nat) (power : Int)
  /-- LANE_RELOCK (R344): engine and circuit. -/
  | laneRelock (e j : Nat)
  /-- REG_WRITE (R354): a REG access at a window offset, with its size in bytes: a write with its value, or a read (log entry 57). -/
  | regWrite (off size : Nat) (v : RegData)
  /-- LANIA_DMA (R353): a host DMA request: context, offset, bytes asked (a read) or data (a write); or the host's DBL read of a ring. -/
  | laniaDma (kind : HostData) (ctx : Nat) (off : U48) (len : Nat) (data : List Byte)
  /-- LANIA_LANE_FAIL (R352). -/
  | laniaLaneFail (lane : Nat)
  /-- LANIA_LINK_LOST (R352). -/
  | laniaLinkLost
  /-- LANIA_LINK_TRAINED (R359). -/
  | laniaLinkTrained
  /-- DOORBELL_WRITE (R355): the oldest waiting doorbell. -/
  | doorbellWrite
  /-- DBQ_CONSUME (R355): a write of DBQ_RING_CONS. -/
  | dbqConsume (v : Nat)
  /-- DBQ_HEARTBEAT (R357). -/
  | dbqHeartbeat (v : U64)
  /-- HEARTBEAT_TIMEOUT (R358). -/
  | heartbeatTimeout
  /-- CXL_RETRAIN (R363): the port, and the device found when it trains. -/
  | cxlRetrain (q : Nat) (found : Option CxlDev)
  /-- DEVICE_CAPACITY_EVENT (R364): the extent and the device's answer. -/
  | deviceCapacityEvent (ext : Nat) (answer : DevAnswer)
  /-- CAPACITY_REMOVED (R365). -/
  | capacityRemoved (ext : Nat)
  /-- ADP_READ (R377). -/
  | adpRead (m : AdpMsg)
  /-- ADP_WRITE (R377). -/
  | adpWrite (m : AdpMsg)
  /-- ADP_READ_BLOCK (R381). -/
  | adpReadBlock (m : AdpMsg)
  /-- ADP_WRITE_BLOCK (R381). -/
  | adpWriteBlock (m : AdpMsg)
  /-- EVENT_ACK (R383): the manager's response to an EVENT: session, SEQ, whether its tag verifies. -/
  | eventAck (session seq : Nat) (tagOk : Bool)
  /-- EVENT_RESEND (R383). -/
  | eventResend (session : Nat)
  /-- ADP_HEARTBEAT (R374). -/
  | adpHeartbeat (m : AdpMsg)
  /-- SESSION_OPEN (R372). -/
  | sessionOpen (m : AdpMsg)
  /-- SESSION_CLOSE (R374): by the peer, or by the hub when `own` is set. -/
  | sessionClose (own : Bool) (m : AdpMsg)
  /-- PRESESSION_HEARTBEAT (R374). -/
  | presessionHeartbeat
  /-- SESSION_HEARTBEAT_TIMER (R374). -/
  | sessionHeartbeatTimer (session : Nat)
  /-- ADP_SESSION_TIMEOUT (R374). -/
  | adpSessionTimeout (session : Nat)
  /-- BLOCK_TRANSFER_TIMEOUT (R381): of a session, or of the mailbox. -/
  | blockTransferTimeout (session : Option Nat)
  /-- SESSION_OPEN_PARTS_EXPIRY (R372). -/
  | sessionOpenPartsExpiry (nonce : List Byte) (seq : Nat)
  /-- PLCA_FALLBACK (R367). -/
  | plcaFallback
  /-- PLCA_BEACON (R367). -/
  | plcaBeacon
  /-- NEIGHBOUR_DISCOVERY (R368): the target address, and whether it is a duplicate address detection probe. -/
  | neighbourDiscovery (target : List Byte) (dad : Bool)
  /-- MB_READ (R384): a write of DICT_MB_CMD with OP 1. -/
  | mbRead
  /-- MB_WRITE (R384): OP 2 with LEN. -/
  | mbWrite (len : Nat)
  /-- MB_READ_BLOCK (R384): OP 3 with LEN and OFFSET. -/
  | mbReadBlock (len off : Nat)
  /-- MB_WRITE_BLOCK (R384): OP 4 with LAST, LEN and OFFSET. -/
  | mbWriteBlock (last : Bool) (len off : Nat)
  /-- POWER_GOOD_RISE (R390). -/
  | powerGoodRise
  /-- POWER_GOOD_FALL (R456). -/
  | powerGoodFall
  /-- RESET_N_ASSERT (R456). -/
  | resetNAssert
  /-- RESET_N_RELEASE (R390). -/
  | resetNRelease
  /-- PLL_LOCK (R414). -/
  | pllLock
  /-- PLL_LOCK_TIMEOUT (R414). -/
  | pllLockTimeout
  /-- PLL_LOCK_LOST (R414). -/
  | pllLockLost
  /-- ISLAND_READY (R401): whether the fuse map passes its check. -/
  | islandReady (fuseOk : Bool)
  /-- BOOT_LOAD (R393). -/
  | bootLoad
  /-- BOOT_MEASURE (R394). -/
  | bootMeasure
  /-- BOOT_CLOCK (R391). -/
  | bootClock
  /-- BOOT_POWER (R397): the device found on each CXL port that trains. -/
  | bootPower (cxl : List (Option CxlDev))
  /-- POWER_STAGE_TIMEOUT (R397): a domain of Table 16-5 misses regulation. -/
  | powerStageTimeout (domain : Nat)
  /-- BOOT_TRAIN (R398): the pseudo-channels, as 32 x stack + channel, and the stacks that fail training twice. -/
  | bootTrain (badPcs badStacks : List Nat)
  /-- BOOT_VERIFY (R399): what fails its known-answer test twice. -/
  | bootVerify (fails : List KatFail)
  /-- BOOT_SERVE (R391). -/
  | bootServe
  /-- BOOT_RESTART (R407). -/
  | bootRestart
  /-- BOOT_COMMAND_COMPLETE (R391). -/
  | bootCommandComplete
  /-- RESET_CORE (R404): through `ResetCommand`, or RST_CMD. -/
  | resetCore (dict : Bool) (core : Nat)
  /-- CORE_RESET_DONE (R404). -/
  | coreResetDone (core : Nat)
  /-- RESET_CLUSTER (R405). -/
  | resetCluster (dict : Bool) (cluster : Nat)
  /-- CLUSTER_RESET_DONE (R405): the known-answer tests that failed twice. -/
  | clusterResetDone (cluster : Nat) (fails : List KatFail)
  /-- RESET_PLOT (R406). -/
  | resetPlot (dict : Bool) (plot : Nat)
  /-- RESET_DEVICE (R407): its TARGET. -/
  | resetDevice (dict : Bool) (target : Nat)
  /-- RESET_DEVICE_DRAIN (R407): RST_CMD with DRAIN. -/
  | resetDeviceDrain (target : Nat)
  /-- HBM_RETRAIN_START (R409): stack and pseudo-channel. -/
  | hbmRetrainStart (stack pc : Nat)
  /-- HBM_RETRAIN_STEP (R409): the stack; whether the step fails. -/
  | hbmRetrainStep (stack : Nat) (fails : Bool)
  /-- WATCHDOG_EXPIRY (R412). -/
  | watchdogExpiry
  /-- MGMT_RESTART_DONE (R412). -/
  | mgmtRestartDone
  /-- CAP_ALERT_ASSERT (R423). -/
  | capAlertAssert
  /-- CAP_ALERT_RELEASE (R424). -/
  | capAlertRelease
  /-- POWER_SAMPLE (R422): the 36 domains' power and the island's, in W. -/
  | powerSample (watts : List Nat) (island : Nat)
  /-- POWER_PLAN_DONE (R424). -/
  | powerPlanDone
  /-- TEMP_SAMPLE (R427): the 40 sensors, in 0.01 degrees. -/
  | tempSample (temps : List Int)
  /-- THERMAL_CAP_STEP (R428). -/
  | thermalCapStep
  /-- THERMAL_TRIP (R430): the sensor. -/
  | thermalTrip (sensor : Nat)
  /-- CLUSTER_POWER_ON_DONE (R417): the known-answer tests that failed twice. -/
  | clusterPowerOnDone (cluster : Nat) (fails : List KatFail)
  /-- CLUSTER_POWER_OFF (R417). -/
  | clusterPowerOff (cluster : Nat)
  /-- TIME_EXCHANGE (R433). -/
  | timeExchange
  /-- TIME_REQUEST (R433): the node it comes from and its payload. -/
  | timeRequest (src : Nat) (data : List Byte)
  /-- TIME_REPLY (R433): the payload. -/
  | timeReply (data : List Byte)
  /-- TIME_SET (R433): a write of TimeSet. -/
  | timeSet (v : U64)
  /-- HBM_STACK_LOST (R445): the stack and cause (0 regulation, 1 controller). -/
  | hbmStackLost (stack cause : Nat)
  /-- TRAY_UNSEATED (R458). -/
  | trayUnseated
  /-- TRAY_SEATED (R458). -/
  | traySeated
  /-- BOARD_WAKE (R459). -/
  | boardWake
  /-- RAIL_OUT_OF_RANGE (R454): the rail, its voltage in mV and the duration in microseconds. -/
  | railOutOfRange (rail mv us : Nat)
  deriving DecidableEq, Repr

end Sys2Proof
end

