-- ==== Sys2Proof/Decode.lean ====
section
/-! DEFINITION. Decoding a word of the opcode table. -/

namespace Sys2Proof

/-- The command a table word spells. The opcode table of this hardware gives no row any bits (every row's list of fields is
empty): a command is an event or a message with operands, so no word spells one (log entry 15). -/
def decodeTableWord (_nbits _w : Nat) : Option Instr := none

end Sys2Proof
end

