-- ==== Sys2Proof/Machine/Bytes.lean ====
section
/-! DEFINITION. Bytes and bits: little-endian packing, bit fields, byte memories. -/

namespace Sys2Proof

/-- The little-endian number of a byte string (R7). -/
def leNat : List Byte → Nat
  | [] => 0
  | b :: r => b.toNat + 256 * leNat r

/-- The little-endian bytes of a number, `n` of them (R7). -/
def natLe : Nat → Nat → List Byte
  | 0, _ => []
  | n + 1, v => BitVec.ofNat 8 v :: natLe n (v / 256)

/-- Bits [hi:lo] of a number (R7). -/
def bits (v hi lo : Nat) : Nat := v / 2 ^ lo % 2 ^ (hi + 1 - lo)

/-- Bit i of a number. -/
def bitOf (v i : Nat) : Bool := v / 2 ^ i % 2 == 1

/-- A one-bit field as a number. -/
def b2n (b : Bool) : Nat := if b then 1 else 0

/-- The first `n` bytes of a string, zero-filled when it is shorter. -/
def takePad (n : Nat) (l : List Byte) : List Byte := (l ++ List.replicate n 0).take n

/-- The bytes of a byte string from a place, zero-filled. -/
def slice (l : List Byte) (off n : Nat) : List Byte := takePad n (l.drop off)

/-- The little-endian field of `n` bytes at a place of a byte string. -/
def fieldAt (l : List Byte) (off n : Nat) : Nat := leNat (slice l off n)

/-- A byte memory: a canonical list of cells in which an unlisted byte reads as zero (log entry 4). -/
abbrev Mem := FMap Byte

/-- The byte at an address. -/
def Mem.byte (m : Mem) (a : Nat) : Byte := FMap.getD m a 0

/-- The `n` bytes from an address. -/
def Mem.read (m : Mem) (a : Nat) : Nat → List Byte
  | 0 => []
  | n + 1 => Mem.byte m a :: Mem.read m (a + 1) n

/-- Store bytes from an address. -/
def Mem.write (m : Mem) (a : Nat) : List Byte → Mem
  | [] => m
  | b :: r => Mem.write (FMap.put 0 m a b) (a + 1) r

/-- Zero every byte of an address range (only listed cells need to go). -/
def Mem.zero (m : Mem) (lo n : Nat) : Mem := FMap.keep (fun k _ => !(decide (lo ≤ k) && decide (k < lo + n))) m

/-- Copy a byte range onto another place. -/
def Mem.copy (m : Mem) (src dst n : Nat) : Mem :=
  let z := Mem.zero m dst n
  (FMap.keep (fun k _ => decide (src ≤ k) && decide (k < src + n)) m).foldl
    (fun acc kv => FMap.put 0 acc (kv.1 - src + dst) kv.2) z

/-- The canonical form of a byte memory: strictly rising keys and no cell equal to what an unlisted byte reads as. -/
abbrev Mem.Wf (m : Mem) : Prop := FMap.Wf m ∧ ∀ kv ∈ m, kv.2 ≠ 0

/-- Ceiling division. -/
def ceilDiv (a b : Nat) : Nat := (a + b - 1) / b

/-- The two's complement reading of a 16-bit or 32-bit field. -/
def signed (w v : Nat) : Int := if v % 2 ^ w < 2 ^ (w - 1) then (v % 2 ^ w : Int) else (v % 2 ^ w : Int) - 2 ^ w

/-- The two's complement bits of an integer. -/
def unsigned (w : Nat) (i : Int) : Nat := (i % 2 ^ w).toNat

end Sys2Proof
end

