-- ==== Sys2Proof/Machine/Flags.lean ====
section
/-! DEFINITION. The flags of arithmetic: the arithmetic report of an operation (R196, Table 7-10). -/

namespace Sys2Proof

/-- The arithmetic report (Table 7-10). -/
structure ArithReport where
  /-- SAT. -/
  sat : Nat := 0
  /-- CLIP. -/
  clip : Nat := 0
  /-- LOW. -/
  low : Nat := 0
  /-- INVALID. -/
  invalid : Nat := 0
  /-- SCOVF. -/
  scovf : Nat := 0
  /-- SCUNF. -/
  scunf : Nat := 0
  /-- OVF. -/
  ovf : Bool := false
  /-- PROBED. -/
  probed : Bool := false
  deriving DecidableEq, Repr

/-- Two reports added, in full (R196). -/
def ArithReport.add (a b : ArithReport) : ArithReport :=
  { sat := a.sat + b.sat, clip := a.clip + b.clip, low := a.low + b.low, invalid := a.invalid + b.invalid,
    scovf := a.scovf + b.scovf, scunf := a.scunf + b.scunf, ovf := a.ovf || b.ovf, probed := a.probed || b.probed }

/-- A report with each count saturated at 0xFFFF (R196, R212). -/
def ArithReport.cap (r : ArithReport) : ArithReport :=
  { r with sat := min 0xFFFF r.sat, clip := min 0xFFFF r.clip, low := min 0xFFFF r.low, invalid := min 0xFFFF r.invalid,
           scovf := min 0xFFFF r.scovf, scunf := min 0xFFFF r.scunf }

/-- The 16 bytes of a report (Table 7-10). -/
def ArithReport.image (r : ArithReport) : List Byte :=
  natLe 2 (min 0xFFFF r.sat) ++ natLe 2 (min 0xFFFF r.clip) ++ natLe 2 (min 0xFFFF r.low) ++
  natLe 2 (min 0xFFFF r.invalid) ++ natLe 2 (min 0xFFFF r.scovf) ++ natLe 2 (min 0xFFFF r.scunf) ++
  natLe 4 (b2n r.ovf + 2 * b2n r.probed)

/-- A report read from its 16 bytes. -/
def ArithReport.ofImage (l : List Byte) : ArithReport :=
  { sat := fieldAt l 0 2, clip := fieldAt l 2 2, low := fieldAt l 4 2, invalid := fieldAt l 6 2,
    scovf := fieldAt l 8 2, scunf := fieldAt l 10 2, ovf := bitOf (fieldAt l 12 4) 0, probed := bitOf (fieldAt l 12 4) 1 }

end Sys2Proof
end

