-- ==== Sys2Proof/Machine/Arith.lean ====
section
/-! DEFINITION. Number formats and exact arithmetic (07_arithmetic.md): element values, rounding, the exact
accumulator, block-scaled encodes, IEEE values of BF16, FP16 and FP32. -/

namespace Sys2Proof.Arith

/-- 2 to an integer power. -/
def pow2 (e : Int) : ℚ := if 0 ≤ e then (2 ^ e.toNat : ℚ) else 1 / (2 ^ (-e).toNat : ℚ)

/-- floor(log2 x) of a positive rational. -/
def flog2 (x : ℚ) : Int :=
  let g : Int := (Nat.log2 x.num.natAbs : Int) - (Nat.log2 x.den : Int)
  if x < pow2 g then g - 1 else g

/-- Rounding modes (R189). -/
inductive Rnd where
  | rne
  | rtz
  /-- Stochastic, with the 32 random bits of R193. -/
  | sr (u : Nat)
  deriving DecidableEq, Repr

/-- The 64-bit mixer of R193. -/
def mix64 (z : U64) : U64 :=
  let z1 := (z ^^^ (z >>> 30)) * 0xBF58476D1CE4E5B9#64
  let z2 := (z1 ^^^ (z1 >>> 27)) * 0x94D049BB133111EB#64
  z2 ^^^ (z2 >>> 31)

/-- sr_bits(key, index) of R193. -/
def srBits (key index : U64) : Nat := ((mix64 (key + mix64 (index + 0x9E3779B97F4A7C15#64))) >>> 32).toNat

/-- The rounding of one element under a mode field (R189): 0 RNE, 1 RTZ, 2 SR with its key and index. -/
def rndOf (mode : Nat) (key index : U64) : Rnd :=
  if mode = 1 then .rtz else if mode = 2 then .sr (srBits key index) else .rne

/-- Round a non-negative multiple count to an integer under a mode (R189, R193). -/
def roundUnits (r : Rnd) (x : ℚ) : Nat :=
  let lo := (⌊x⌋).toNat
  let f := x - lo
  match r with
  | .rne => if f < 1/2 then lo else if 1/2 < f then lo + 1 else if lo % 2 = 0 then lo else lo + 1
  | .rtz => lo
  | .sr u => if u < (⌊f * 4294967296⌋).toNat then lo + 1 else lo

/-- Round a magnitude to a floating-point grid of `w` mantissa bits and least exponent `emin`, the exponent unbounded above. -/
def roundMag (w : Nat) (emin : Int) (r : Rnd) (x : ℚ) : ℚ :=
  if x ≤ 0 then 0 else
  let ulp := pow2 (max emin (flog2 x) - w)
  roundUnits r (x / ulp) * ulp

/-- An IEEE value: NaN, an infinity, or a signed magnitude (R173; the sign of zero is kept). -/
inductive FV where
  | nan
  | inf (neg : Bool)
  | num (neg : Bool) (mag : ℚ)
  deriving DecidableEq, Repr

/-- The value of a binary format with `eb` exponent and `mb` mantissa bits (R173). -/
def fpDec (eb mb b : Nat) : FV :=
  let neg := bitOf b (eb + mb)
  let e := b / 2 ^ mb % 2 ^ eb
  let m := b % 2 ^ mb
  let bias : Int := 2 ^ (eb - 1) - 1
  if e = 2 ^ eb - 1 then (if m = 0 then .inf neg else .nan)
  else if e = 0 then .num neg (m * pow2 (1 - bias - mb))
  else .num neg ((2 ^ mb + m) * pow2 ((e : Int) - bias - mb))

/-- The code of a magnitude already on the grid of a binary format. -/
def fpCode (eb mb : Nat) (x : ℚ) : Nat :=
  let bias : Int := 2 ^ (eb - 1) - 1
  if x ≤ 0 then 0 else
  let e := flog2 x
  if e < 1 - bias then (x / pow2 (1 - bias - mb)).floor.toNat
  else (e + bias).toNat * 2 ^ mb + ((x / pow2 (e - mb)).floor.toNat - 2 ^ mb)

/-- The largest finite magnitude of a binary format. -/
def fpMax (eb mb : Nat) : ℚ := (2 ^ (mb + 1) - 1 : ℚ) * pow2 ((2 ^ (eb - 1) - 1 : Int) - mb)

/-- The quiet NaN of a binary format (R173). -/
def fpNan (eb mb : Nat) : Nat := (2 ^ eb - 1) * 2 ^ mb + 2 ^ (mb - 1)

/-- Encode a value in a binary format, rounding once; the flag says whether it was beyond the largest finite (Table 7-9). -/
def fpEnc (eb mb : Nat) (r : Rnd) (v : FV) : Nat × Bool :=
  let sgn (n : Bool) := b2n n * 2 ^ (eb + mb)
  let bias : Int := 2 ^ (eb - 1) - 1
  match v with
  | .nan => (fpNan eb mb, false)
  | .inf n => (sgn n + (2 ^ eb - 1) * 2 ^ mb, false)
  | .num n x =>
    let y := roundMag mb (1 - bias) r x
    let beyond := match r with
      | .rne => decide (fpMax eb mb < y)
      | _ => decide (fpMax eb mb < x)
    if beyond then
      match r with
      | .rne => (sgn n + (2 ^ eb - 1) * 2 ^ mb, true)
      | _ => (sgn n + ((2 ^ eb - 1) * 2 ^ mb - 1), true)
    else (sgn n + fpCode eb mb y, false)

/-- FP32 value of its bits. -/
def f32 (b : Nat) : FV := fpDec 8 23 b
/-- FP32 bits, rounded to nearest even. -/
def toF32 (v : FV) : Nat := (fpEnc 8 23 .rne v).1
/-- BF16 value of its bits. -/
def bf16 (b : Nat) : FV := fpDec 8 7 b
/-- BF16 bits, rounded to nearest even. -/
def toBf16 (v : FV) : Nat := (fpEnc 8 7 .rne v).1

/-- The signed rational of a finite value. -/
def FV.q : FV → ℚ
  | .num n x => if n then -x else x
  | _ => 0

/-- A value from a signed rational; zero takes the sign given. -/
def ofQ (zneg : Bool) (x : ℚ) : FV := if x = 0 then .num zneg 0 else .num (decide (x < 0)) |x|

/-- Exact sum, with the IEEE rules for infinities, NaN and the sign of zero under RNE (R35). -/
def fvAdd (a b : FV) : FV :=
  match a, b with
  | .nan, _ => .nan
  | _, .nan => .nan
  | .inf m, .inf n => if m = n then .inf m else .nan
  | .inf m, .num _ _ => .inf m
  | .num _ _, .inf n => .inf n
  | .num m x, .num n y =>
    if x = 0 ∧ y = 0 then .num (m && n) 0 else ofQ false (FV.q (.num m x) + FV.q (.num n y))

/-- Negation. -/
def fvNeg : FV → FV
  | .nan => .nan
  | .inf n => .inf (!n)
  | .num n x => .num (!n) x

/-- Exact product, with the IEEE rules. -/
def fvMul (a b : FV) : FV :=
  match a, b with
  | .nan, _ => .nan
  | _, .nan => .nan
  | .inf m, .inf n => .inf (m != n)
  | .inf m, .num n y => if y = 0 then .nan else .inf (m != n)
  | .num m x, .inf n => if x = 0 then .nan else .inf (m != n)
  | .num m x, .num n y => .num (m != n) (x * y)

/-- Exact quotient by a finite nonzero value; division by zero or by a non-finite value follows IEEE 754. -/
def fvDiv (a b : FV) : FV :=
  match a, b with
  | .nan, _ => .nan
  | _, .nan => .nan
  | .inf _, .inf _ => .nan
  | .inf m, .num n _ => .inf (m != n)
  | .num m _, .inf n => .num (m != n) 0
  | .num m x, .num n y => if y = 0 then (if x = 0 then .nan else .inf (m != n)) else .num (m != n) (x / y)

/-- Whether a orders below b: -0 below +0 (R35). -/
def fvLt (a b : FV) : Bool :=
  match a, b with
  | .inf true, .inf true => false
  | .inf true, _ => true
  | _, .inf true => false
  | .inf false, _ => false
  | _, .inf false => true
  | .num m x, .num n y =>
    let p := FV.q (.num m x); let q := FV.q (.num n y)
    decide (p < q) || (decide (p = q) && m && !n)
  | _, _ => false

/-- Minimum: a NaN loses to a number, two NaNs give the quiet NaN (R35). -/
def fvMin (a b : FV) : FV :=
  match a, b with
  | .nan, y => y
  | x, .nan => x
  | x, y => if fvLt y x then y else x

/-- Maximum (R35). -/
def fvMax (a b : FV) : FV :=
  match a, b with
  | .nan, y => y
  | x, .nan => x
  | x, y => if fvLt x y then y else x

/-- A value rounded to FP32, and whether it was beyond the largest finite magnitude (R189, R192). -/
def f32Round (r : Rnd) (v : FV) : FV × Bool :=
  let p := fpEnc 8 23 r v
  (f32 p.1, p.2)
/-- FP32 addition of bits (R35). -/
def f32Add (a b : Nat) : Nat := toF32 (fvAdd (f32 a) (f32 b))
/-- FP32 multiplication of bits. -/
def f32Mul (a b : Nat) : Nat := toF32 (fvMul (f32 a) (f32 b))

/-! Narrow elements (R170 to R177). -/

/-- Bits of an element code (Table 7-2). -/
def elemBits (e : Nat) : Nat :=
  match e with
  | 0 => 4 | 1 => 6 | 2 => 6 | 3 => 8 | 4 => 8 | 5 => 4 | 6 => 2 | 7 => 2 | 8 => 8 | 9 => 16 | 10 => 16 | 11 => 32 | _ => 0

/-- Whether an element is narrow (R169). -/
def isNarrow (e : Nat) : Bool := decide (e ≤ 8)

/-- ELEM of a tensor format byte. -/
def elemOf (tfmt : Nat) : Nat := tfmt % 16
/-- SCALE of a tensor format byte: 0 none, 1 EB32, 2 MX. -/
def scaleOf (tfmt : Nat) : Nat := tfmt / 16 % 4

/-- Whether Table 7-2 permits the element and scale of a format byte (R169); the reserved bits [7:6] are ignored (R10). -/
def tfmtOk (tfmt : Nat) : Bool :=
  match scaleOf tfmt with
  | 0 => decide (elemOf tfmt ≤ 11) && decide (elemOf tfmt ≠ 8)
  | 1 => [0, 1, 2, 5].contains (elemOf tfmt)
  | 2 => [0, 1, 2, 3, 4, 8].contains (elemOf tfmt)
  | _ => false

/-- lsb exponent q of a narrow element (Table 7-3). -/
def elemQ (e : Nat) : Int :=
  match e with
  | 0 => -1 | 1 => -3 | 2 => -4 | 3 => -9 | 4 => -16 | 8 => -6 | _ => 0

/-- Largest significand M of a narrow element (Table 7-3). -/
def elemM (e : Nat) : Nat :=
  match e with
  | 0 => 12 | 1 => 60 | 2 => 448 | 3 => 229376 | 4 => 3758096384 | 5 => 8 | 6 => 2 | 7 => 1 | 8 => 128 | _ => 0

/-- A narrow element: an integer significand times 2^q, an infinity, or NaN (invalid). -/
inductive Elem where
  | fin (m : Int)
  | inf (neg : Bool)
  | nan
  deriving DecidableEq, Repr

/-- Significand magnitude of a floating-point code without sign: exponent bits `eb`, mantissa bits `w` (R171). -/
def floatSig (eb w code : Nat) : Nat :=
  let e := code / 2 ^ w % 2 ^ eb
  let m := code % 2 ^ w
  if e = 0 then m else (2 ^ w + m) * 2 ^ (e - 1)

/-- The element a code stands for (R171, R172, Table 7-3). -/
def elemDec (e code : Nat) : Elem :=
  let sg (n : Bool) (m : Nat) : Elem := .fin (if n then -(m : Int) else m)
  match e with
  | 0 => sg (bitOf code 3) (floatSig 2 1 code)
  | 1 => sg (bitOf code 5) (floatSig 2 3 code)
  | 2 => sg (bitOf code 5) (floatSig 3 2 code)
  | 3 => if code % 128 = 127 then .nan else sg (bitOf code 7) (floatSig 4 3 code)
  | 4 => if code % 128 = 124 then .inf (bitOf code 7) else if 124 < code % 128 then .nan
         else sg (bitOf code 7) (floatSig 5 2 code)
  | 5 => .fin (signed 4 code)
  | 6 => .fin (signed 2 code)
  | 7 => if code % 4 = 2 then .nan else .fin (signed 2 code)
  | 8 => .fin (signed 8 code)
  | _ => .nan

/-- Element `i` of a packed little-endian element array (R170). -/
def elemCode (e : Nat) (l : List Byte) (i : Nat) : Nat :=
  let b := elemBits e
  let bit := i * b
  fieldAt l (bit / 8) ((b + 7) / 8 + 1) / 2 ^ (bit % 8) % 2 ^ b

/-- Pack element codes (R170). -/
def packNat (b : Nat) : List Nat → Nat
  | [] => 0
  | c :: r => c % 2 ^ b + 2 ^ b * packNat b r

/-- The bytes of a row of element codes (R170). -/
def packElems (e : Nat) (cs : List Nat) : List Byte :=
  natLe (ceilDiv (cs.length * elemBits e) 8) (packNat (elemBits e) cs)

/-- The numerator and binary exponent of a block scale byte; none for the invalid 0xFF (R174, R175). -/
def blockScale (sc code : Nat) : Option (Nat × Int) :=
  match sc with
  | 1 => if code = 255 then none else some (4 + code % 4, (code / 4 : Int) - 33)
  | 2 => if code = 255 then none else some (1, (code : Int) - 127)
  | _ => some (1, 0)

/-! The exact accumulator (R180 to R187). -/

/-- An exact accumulator: A, the anchor H and the sticky flags (Table 7-8). -/
structure Acc where
  a : Int := 0
  h : Int := 0
  nan : Bool := false
  pinf : Bool := false
  ninf : Bool := false
  clip : Bool := false
  low : Bool := false
  ovf : Bool := false
  deriving DecidableEq, Repr

/-- Whether a sum lies outside the range of A (R180). -/
def Acc.over (x : Acc) : Bool := decide (signed 224 (unsigned 224 x.a) ≠ x.a)
/-- Keep A in its 224 bits: wrap, and set OVF when it did not fit (R180). -/
def Acc.fit (x : Acc) : Acc := { x with a := signed 224 (unsigned 224 x.a), ovf := x.ovf || x.over }

/-- The term m × 2^e as an integer multiple of 2^(H-191), with whether it clips and whether it loses bits (R183). -/
def alignTerm (h : Int) (m e : Int) : Int × Bool × Bool :=
  let mag := m.natAbs
  let s := e - (h - 191)
  let sg (n : Nat) : Int := if m < 0 then -(n : Int) else n
  let big : Bool := if 0 ≤ s then decide (2 ^ 191 ≤ mag * 2 ^ s.toNat) else decide (2 ^ 191 ≤ mag / 2 ^ (-s).toNat)
  if big then (sg (2 ^ 191 - 1), true, false)
  else if 0 ≤ s then (sg (mag * 2 ^ s.toNat), false, false)
  else (sg (mag / 2 ^ (-s).toNat), false, decide (mag % 2 ^ (-s).toNat ≠ 0))

/-- Add a term; the counts of clipped and truncated terms, and an overflow, go to the report (R180, R183). -/
def Acc.addTerm (x : Acc) (m e : Int) (rep : ArithReport) : Acc × ArithReport :=
  let (t, c, l) := alignTerm x.h m e
  let y := { x with a := x.a + t, clip := x.clip || c, low := x.low || l }
  (y.fit, rep.add { clip := b2n c, low := b2n l, ovf := y.over })

/-- Add two accumulators, re-anchoring the lower one (R185); the report has an overflow of this addition, an OVF that the operands
carry is ORed into the sum only (R180). -/
def Acc.add (x y : Acc) (rep : ArithReport) : Acc × ArithReport :=
  let h := max x.h y.h
  let sh (z : Acc) : Int × Bool :=
    let d := (h - z.h).toNat
    let q := (z.a.natAbs / 2 ^ d : Nat)
    (if z.a < 0 then -(q : Int) else q, decide (z.a.natAbs % 2 ^ d ≠ 0))
  let (ax, lx) := sh x
  let (ay, ly) := sh y
  let l := lx || ly
  let z : Acc := { a := ax + ay, h := h, nan := x.nan || y.nan, pinf := x.pinf || y.pinf, ninf := x.ninf || y.ninf,
                   clip := x.clip || y.clip, low := x.low || y.low || l, ovf := x.ovf || y.ovf }
  (z.fit, rep.add { low := b2n l, ovf := z.over })

/-- The 32-byte image (Table 7-8). -/
def Acc.image (x : Acc) : List Byte :=
  natLe 28 (unsigned 224 x.a) ++ natLe 2 (unsigned 16 x.h) ++
  natLe 2 (b2n x.nan + 2 * b2n x.pinf + 4 * b2n x.ninf + 8 * b2n x.clip + 16 * b2n x.low + 32 * b2n x.ovf)

/-- An accumulator read from its image (Table 7-8). -/
def Acc.ofImage (l : List Byte) : Acc :=
  let f := fieldAt l 30 2
  { a := signed 224 (fieldAt l 0 28), h := signed 16 (fieldAt l 28 2), nan := bitOf f 0, pinf := bitOf f 1,
    ninf := bitOf f 2, clip := bitOf f 3, low := bitOf f 4, ovf := bitOf f 5 }

/-- An exact output value before its one rounding: NaN, an infinity, or a rational (R188, R189). -/
inductive XV where
  | nan
  | inf (neg : Bool)
  | fin (q : ℚ)
  deriving DecidableEq, Repr

/-- The value of an accumulator times a rational factor (R180, R184, R188): NAN, PINF with NINF and OVF give NaN, and so
does an infinity times a tensor scale of zero. -/
def Acc.value (x : Acc) (k : ℚ) : XV :=
  if x.nan || x.ovf || (x.pinf && x.ninf) then .nan
  else if x.pinf || x.ninf then (if k = 0 then .nan else .inf (x.ninf != decide (k < 0)))
  else .fin (x.a * pow2 (x.h - 191) * k)

/-- An exact value as an IEEE value: zero is +0 (R188). -/
def XV.fv : XV → FV
  | .nan => .nan
  | .inf n => .inf n
  | .fin q => ofQ false q

/-! Encoding (R188 to R193). -/

/-- Mantissa bits, least exponent and largest finite magnitude of a floating-point narrow element. -/
def floatParams (e : Nat) : Option (Nat × Int × ℚ) :=
  match e with
  | 0 => some (1, 0, 6)
  | 1 => some (3, 0, 15/2)
  | 2 => some (2, -2, 28)
  | 3 => some (3, -6, 448)
  | 4 => some (2, -14, 57344)
  | _ => none

/-- The largest magnitude an encode may produce: symmetric for the integer formats (R189, R190). -/
def encMax (e : Nat) : ℚ :=
  match floatParams e with
  | some (_, _, m) => m
  | none => if e = 5 then 7 else if e = 8 then 127/64 else 1

/-- Round a magnitude to the grid of a narrow element, its exponent unbounded above. -/
def narrowRound (e : Nat) (r : Rnd) (x : ℚ) : ℚ :=
  match floatParams e with
  | some (w, emin, _) => roundMag w emin r x
  | none => roundUnits r (x / pow2 (elemQ e)) * pow2 (elemQ e)

/-- The code of a signed magnitude on the grid of a narrow element; a format with a sign bit keeps it at a magnitude of zero. -/
def narrowCode (e : Nat) (neg : Bool) (x : ℚ) : Nat :=
  let fl (eb w : Nat) (bias : Int) : Nat :=
    let mag : Nat := if x ≤ 0 then 0 else
      let g := flog2 x
      if g < 1 - bias then (x / pow2 (1 - bias - w)).floor.toNat
      else (g + bias).toNat * 2 ^ w + ((x / pow2 (g - w)).floor.toNat - 2 ^ w)
    (if neg then 2 ^ (eb + w) else 0) + mag
  match e with
  | 0 => fl 2 1 1
  | 1 => fl 2 3 1
  | 2 => fl 3 2 3
  | 3 => fl 4 3 7
  | 4 => fl 5 2 15
  | _ =>
    let k := (x / pow2 (elemQ e)).floor.toNat
    unsigned (elemBits e) (if neg then -(k : Int) else k)

/-- Encode one value plainly in a narrow element (Table 7-9): the code, and what the report counts. The sign is the value's own,
so an exact zero is +0 where the value says so (R188) and a selected -0 stays (R195). -/
def encPlain (e : Nat) (r : Rnd) (v : FV) : Nat × ArithReport :=
  match v with
  | .nan => (if e = 3 ∨ e = 4 then 0x7F else 0, { invalid := 1 })
  | .inf n =>
    if e = 4 then ((if n then 0x80 else 0) + 0x7C, {})
    else (narrowCode e n (encMax e), { sat := 1 })
  | .num n x =>
    let y := narrowRound e r x
    let beyond := match r with
      | .rne => decide (encMax e < y)
      | _ => decide (encMax e < x)
    if beyond then (narrowCode e n (encMax e), { sat := 1 })
    else (narrowCode e n y, {})

/-- The value of a UE6M2 code (R174). -/
def ue6m2 (c : Nat) : ℚ := (4 + (c % 4 : Nat) : ℚ) * pow2 ((c / 4 : Int) - 33)

/-- The largest magnitude of a block's finite values. -/
def amax (vs : List FV) : ℚ :=
  vs.foldl (fun m v => match v with | .num _ x => max m x | _ => m) 0

/-- Whether a block holds a NaN or an infinity. -/
def anyBad (vs : List FV) : Bool :=
  vs.any fun v => match v with | .num _ _ => false | _ => true

/-- The EB32 scale of a block and whether it overflows (R190). -/
def eb32Scale (emax a : ℚ) : Nat × Bool :=
  if a = 0 then (0, false) else
  match (List.range 255).find? (fun c => decide (a ≤ emax * ue6m2 c)) with
  | some c => (c, false)
  | none => (0xFE, true)

/-- emax_e of an MX encode (R191). -/
def mxEmaxE (e : Nat) : Int :=
  match e with | 0 => 2 | 1 => 2 | 2 => 4 | 3 => 8 | 4 => 15 | _ => 0

/-- The MX scale code of a block, and whether it was clamped above or below (R191). -/
def mxScale (e : Nat) (a : ℚ) : Nat × Bool × Bool :=
  if a = 0 then (0, false, false) else
  let x := flog2 a - mxEmaxE e + 127
  if 0xFE < x then (0xFE, true, false) else if x < 0 then (0, false, true) else (x.toNat, false, false)

/-- One element of a block: its code, whether it saturated, and whether it rounded to zero. -/
structure BlockElem where
  code : Nat := 0
  sat : Nat := 0
  zero : Bool := true
  deriving DecidableEq, Repr

/-- Round one value of a block at a scale, saturating at the element's largest magnitude (R190, R191). -/
def encScaled (e : Nat) (emax s : ℚ) (r : Rnd) (v : FV) : BlockElem :=
  match v with
  | .num n x =>
    let y := narrowRound e r (x / s)
    if emax < y ∨ (emax < x / s ∧ r ≠ .rne) then { code := narrowCode e n emax, sat := 1, zero := false }
    else { code := narrowCode e n y, zero := decide (y = 0) }
  | _ => {}

/-- What an encoded block yields: codes, scale byte and report (R190, R191). -/
def blockOut (es : List BlockElem) (c : Nat) (over_ under_ : Bool) : List Nat × Nat × ArithReport :=
  (es.map BlockElem.code, c,
    { sat := (es.map BlockElem.sat).foldl (· + ·) 0, scovf := b2n over_, scunf := b2n (under_ && es.all BlockElem.zero) })

/-- Encode a block of values with its scale byte (R189 to R191); each value comes with its rounding. -/
def encBlock (e sc : Nat) (vs : List (FV × Rnd)) : List Nat × Nat × ArithReport :=
  let xs := vs.map Prod.fst
  if anyBad xs then (vs.map fun _ => 0, 0xFF, { invalid := 1 }) else
  let a := amax xs
  let emax := encMax e
  let run (s : ℚ) := vs.map fun p => encScaled e emax s p.2 p.1
  if sc = 1 then
    let (c, hi) := eb32Scale emax a
    blockOut (run (ue6m2 c)) c hi (decide (a ≠ 0))
  else
    let (c, hi, lo) := mxScale e a
    blockOut (run (pow2 ((c : Int) - 127))) c hi lo

/-- Encode one value in a wide element (Table 7-9): bits and report. -/
def encWide (e : Nat) (r : Rnd) (v : FV) : Nat × ArithReport :=
  let eb := if e = 10 then 5 else 8
  let mb := if e = 9 then 7 else if e = 10 then 10 else 23
  let p := fpEnc eb mb r v
  let rep : ArithReport := if v = .nan then { invalid := 1 } else { sat := b2n p.2 }
  (p.1, rep)

/-- The value of a wide element's bits (R173). -/
def wideDec (e b : Nat) : FV :=
  if e = 9 then bf16 b else if e = 10 then fpDec 5 10 b else f32 b

/-- The exact value of a narrow element under its block scale, without the tensor scale (R176). -/
def narrowValue (e : Nat) (code : Nat) (scale : Option (Nat × Int)) : XV :=
  match scale, elemDec e code with
  | none, _ => .nan
  | some _, .nan => .nan
  | some _, .inf n => .inf n
  | some (num, x), .fin m => .fin (m * num * pow2 (elemQ e + x))

/-! Integer and floating arithmetic of atomics and reductions (R34, R35). -/

/-- Width in bytes of a Gycia format type (Table 2-6); 0 for a reserved one. -/
def fmtWidth (t : Nat) : Nat :=
  match t with
  | 0 => 4 | 1 => 4 | 2 => 8 | 3 => 8 | 4 => 4 | 5 => 2 | 6 => 16 | _ => 0

/-- Addition in a Gycia format (R35). -/
def fmtAdd (t a b : Nat) : Nat :=
  match t with
  | 4 => toF32 (fvAdd (f32 a) (f32 b))
  | 5 => toBf16 (f32 (toF32 (fvAdd (bf16 a) (bf16 b))))
  | _ => (a + b) % 2 ^ (8 * fmtWidth t)

/-- Whether a is below b in a Gycia integer format. -/
def fmtLt (t a b : Nat) : Bool :=
  if t = 1 ∨ t = 3 then decide (signed (8 * fmtWidth t) a < signed (8 * fmtWidth t) b) else decide (a < b)

/-- Minimum in a Gycia format (R35). -/
def fmtMin (t a b : Nat) : Nat :=
  match t with
  | 4 => toF32 (fvMin (f32 a) (f32 b))
  | 5 => toBf16 (fvMin (bf16 a) (bf16 b))
  | _ => if fmtLt t b a then b else a

/-- Maximum in a Gycia format (R35). -/
def fmtMax (t a b : Nat) : Nat :=
  match t with
  | 4 => toF32 (fvMax (f32 a) (f32 b))
  | 5 => toBf16 (fvMax (bf16 a) (bf16 b))
  | _ => if fmtLt t a b then b else a

end Sys2Proof.Arith
end

