-- ==== Sys2Proof/Machine/Check.lean ====
section
/-! DEFINITION. The block check value (R274, R275) and the residue arithmetic behind it. -/

namespace Sys2Proof.Machine

open Sys2Proof.Arith

/-! Arithmetic of the block check value (R274). -/

/-- p = 2^61 - 1. -/
abbrev bcvP : Nat := 2 ^ 61 - 1
/-- g = 0x1_0000_0007. -/
abbrev bcvG : Nat := 0x100000007

/-- The words of a byte string, 32 bits each, little-endian. -/
def words32 : Nat → List Byte → List Nat
  | 0, _ => []
  | n + 1, l => leNat (l.take 4) :: words32 n (l.drop 4)

/-- BCV of a block, by Horner's rule from the last word down (R274). -/
def bcvWords : List Nat → Nat
  | [] => 0
  | w :: r => (bcvWords r + w) * bcvG % bcvP

/-- BCV of a byte string read as one block, zero-filled to 4,096 bytes (R274). -/
def bcv (l : List Byte) : Nat := bcvWords (words32 1024 (takePad 4096 l))

/-- The BCVs of a byte string taken as consecutive blocks of 4,096 bytes, the last one zero-filled (R274). -/
def bcvs : Nat → List Byte → List Nat
  | 0, _ => []
  | n + 1, l => bcv (l.take 4096) :: bcvs n (l.drop 4096)

/-- Number of 4,096-byte blocks of a byte count. -/
def blocksOf (n : Nat) : Nat := ceilDiv n 4096

/-- The linear check (R282, R284): the sums of the residues of two lists of accumulators agree, and so do their flags, ORed. -/
def linearOk (terms img : List Acc) : Bool :=
  (terms.map Acc.a).sum % (bcvP : Int) == (img.map Acc.a).sum % (bcvP : Int) &&
    terms.any Acc.nan == img.any Acc.nan && terms.any Acc.pinf == img.any Acc.pinf && terms.any Acc.ninf == img.any Acc.ninf

end Sys2Proof.Machine
end

