-- ==== Sys2Proof/Config.lean ====
section
/-! DEFINITION. What the part or the manual leaves open: fused values, cryptographic functions and free values.
Every constant here has no body, so nothing can be proved of its value. -/

namespace Sys2Proof.Config

/-- SerialNumber 0x1018.04, 16 bytes, fused (R376; log entry 8). -/
opaque serialNumber : List Byte
/-- MacAddress 0x1100.01, 6 bytes, fused (log entry 8). -/
opaque macAddress : List Byte
/-- FuseMapRevision 0x1018.05 (log entry 8). -/
opaque fuseMapRevision : Nat
/-- IdentityPublicKey 0x9010.01, 57 bytes (log entry 8). -/
opaque identityPublicKey : List Byte
/-- CertificateChain 0x9010.02 (log entry 8). -/
opaque certificateChain : List Byte
/-- DdfDigest 0x1019.01, 64 bytes, fixed per stepping and not given by the manual (log entry 8). -/
opaque ddfDigest : List Byte
/-- BootRomDigest 0x2000.05, 64 bytes, fixed per stepping and not given by the manual (log entry 8). -/
opaque bootRomDigest : List Byte
/-- Whether spare core of cluster `k` is left at manufacture (CoreSparesLeft, log entry 8). -/
opaque coreSpareFused : Nat → Bool
/-- Spare frames that the reserve of a CXL device of a capacity in bytes holds: the manual gives no number (log entry 8). -/
opaque cxlSpareFrames : Nat → Nat
/-- Spare lane circuits left in engine `e` at manufacture, at least one (R3; log entry 8). -/
opaque opticalSparesFused : Nat → Nat
/-- Elveth's Tilth-signing key, in the fuse map (R294; log entry 8). -/
opaque tilthKey : List Byte
/-- Elveth's firmware-signing key, in the fuse map (R394; log entry 8). -/
opaque firmwareKey : List Byte
/-- Elveth's debug key, in the fuse map (R323; log entry 8). -/
opaque debugKey : List Byte
/-- Elveth's device root, an Ed448 public key that ships with the DDF (R304; log entry 8). -/
opaque deviceRoot : List Byte

/-- SHAKE256 of a byte string, with the number of output bytes (R298, R394; log entry 6). -/
opaque shake256 : List Byte → Nat → List Byte
/-- Ed448 verification: public key, message, signature (R302; log entry 6). -/
opaque ed448Verify : List Byte → List Byte → List Byte → Bool
/-- Ed448 signature by the identity key over a message (R321; log entry 6). -/
opaque ed448Sign : List Byte → List Byte
/-- The derivation root RS_KEY, 32 bytes, in the fuse map (R302; log entry 8). -/
opaque rootKey : List Byte
/-- The X448 public key of a private key, and the shared secret of a private and a public key (R309, R321, R372; log entry 6). -/
opaque x448Public : List Byte → List Byte
opaque x448 : List Byte → List Byte → List Byte
/-- KMAC256 of a message under a key (R372, R373; log entry 6). -/
opaque kmac : List Byte → List Byte → List Byte
/-- The Ed448 public key in the leaf of a certificate chain (R309; log entry 6). -/
opaque chainKey : List Byte → List Byte
/-- Whether the certificate chain in a KEYX body verifies to one of the trust anchors given (R309; log entry 6). -/
opaque chainVerifies : List (List Byte) → List Byte → Bool
/-- AES key wrap of a secret under a key, and its inverse, which fails on what that key did not wrap (R307; log entry 6). -/
opaque keyWrap : List Byte → List Byte → List Byte
opaque keyUnwrap : List Byte → List Byte → Option (List Byte)
/-- AES-256-GCM under a 32-byte key, a 12-byte nonce and additional authenticated data: the ciphertext, then the 16-byte tag (R310; log
entry 6). -/
opaque aesGcm : List Byte → List Byte → List Byte → List Byte → List Byte
/-- The parity bits of RS(544,514) over 10-bit symbols for the bits of 20 blocks (R327; log entry 56). -/
opaque rsParity : List Bool → List Bool
/-- AES-256-XTS of a line under a 64-byte key and a tweak (R305; log entry 6). -/
opaque aesXts : List Byte → Nat → List Byte → List Byte

/-- A fresh random byte string of a length, one for each draw number (R302 nonces and challenges; log entry 7). -/
opaque random : Nat → Nat → List Byte
/-- The PAYLOAD bytes of an event log entry: its code and its fields, laid out as the DDF gives (log entry 14). -/
opaque eventPayload : Nat → List Nat → List Byte
/-- A fresh free 64-bit value, one for each draw number: a value the manual leaves open (log entry 7). -/
opaque freeWord : Nat → BitVec 64
/-- The uplink chosen for a (source, destination) node pair among `n` candidates of a loaded plan (R43; log entry 9). -/
opaque uplinkChoice : Nat → Nat → Nat → Nat
/-- The index of the entry a full cache set evicts, one for each draw number (R102, R122; log entry 11). -/
opaque victim : Nat → Nat
/-- The exponential of an FP32 value as the vector engine returns it, where that is within 2 ulp (R215; log entry 13). -/
opaque expFp32 : BitVec 32 → BitVec 32

/-- Which powered headland tile a row sowing of node 0xC0, 0xC1 or 0xC2 issues from, by the number of its gather record (R74; log entry 32). -/
opaque sowColumn : Nat → Nat

end Sys2Proof.Config
end

