-- ==== Sys2Proof/Machine/State.lean ====
section
/-! DEFINITION. The state of the hub: every register, table, queue, buffer, memory, mode and pin the manual gives it, as plain
data. Field defaults are the reset values (R386, R469). -/

namespace Sys2Proof.Machine

/-- Reasons a run stops with a fault. No meaning of this model stops so: every command has an effect, a refusal status of
the manual's own, or none. The one constructor exists because a closed type of reasons is asked for; nothing raises it (safe). -/
inductive Fault where
  /-- Raised by no meaning (safe). -/
  | none
  deriving DecidableEq, Repr

/-- Reasons a command is refused by the model. -/
inductive Refusal where
  /-- The command has no meaning yet; raised by its arm of `exec` alone (safe: the model stops). -/
  | notModelled (mnemonic : String)
  deriving DecidableEq, Repr

/-- A request frame that waits in the switch core, with the gather record of a sowing copy (R71, R76). -/
structure Frame where
  /-- The request the frame carries. -/
  req : Req
  /-- Cells it occupies (R27). -/
  cells : Nat
  /-- The gather record of a sowing copy. -/
  gather : Option Nat
  /-- Whether it holds cells of its ingress tile: until it leaves the tile, or has been written to spill (R75, R80). -/
  onChip : Bool := true
  /-- Rotation count of its plot when it was written to spill (R315, R316); 0 on chip. -/
  rot : Nat := 0
  /-- Whether a sowing copy holds cells of the sowing reserve in the tiles it passes (R75). -/
  reserve : Bool := false
  deriving DecidableEq, Repr

/-- A flow: the frames sharing one ingress tile, one egress and one class (R71, R80). -/
structure Flow where
  /-- Ingress tile 0-127, or headland 128-143. -/
  ingress : Nat
  /-- Egress port; 256 + LEP for a node of the hub, whose headland entry the frames wait for (R62, R70); 128 for requests that wait at
  the head of their ingress for a gather record or for the gate (R76, R264). -/
  egress : Nat
  /-- Class: 0 MEM, 1 SIG, 2 MSG, 3 RED. -/
  cls : Nat
  /-- Frames on chip, oldest first. -/
  queue : List Frame := []
  /-- Whether the flow is in spill (R79-R81). -/
  spilled : Bool := false
  /-- Frames in the spill queue, oldest first. -/
  spill : List Frame := []
  deriving DecidableEq, Repr

/-- A forward record (R47): a request that left by an egress port and has had no reply. -/
structure FwdRec where
  /-- The request as forwarded. -/
  req : Req
  /-- DeviceTime when it was forwarded. -/
  since : Nat
  /-- The gather record that collects a sowing copy's answer (R76). -/
  gather : Option Nat
  deriving DecidableEq, Repr

/-- A gather record (R41, R76): the outcomes of one sowing's copies. -/
structure Gather where
  /-- Record identifier. -/
  ident : Nat
  /-- Ingress tile that holds it. -/
  tile : Nat
  /-- The sowing request. -/
  req : Req
  /-- Copies sent. -/
  sent : Nat
  /-- Copies not yet answered. -/
  open_ : Nat
  /-- Copies failed. -/
  failed : Nat := 0
  /-- Lowest failing port. -/
  lowPort : Nat := 0
  /-- Status of the lowest failing port. -/
  lowStatus : Nat := 0
  deriving DecidableEq, Repr

/-- A gate entry (R46, R264): a source node's unanswered modifying MEM requests to a destination, and the SIG requests it holds. -/
structure GateEntry where
  /-- Source node. -/
  src : Nat
  /-- Destination node. -/
  dst : Nat
  /-- Unanswered WRITE, WRITE_MASKED and atomic requests. -/
  count : Nat
  deriving DecidableEq, Repr

/-- A SIG request held at the gate (R46, R265). -/
structure HeldSig where
  /-- The request, already past the hub's refusals. -/
  req : Req
  /-- The gather record of a sowing copy. -/
  gather : Option Nat
  deriving DecidableEq, Repr

/-- A reply in the reply network (R68): the tile whose reply cells it holds, port tile or headland tile. -/
structure NetReply where
  /-- Tile 0-143 where it entered. -/
  tile : Nat
  /-- The reply. -/
  rep : Reply
  /-- Whether a forward or gather record had a cell reserved for it (R68, R84). -/
  reserved : Bool := false
  deriving DecidableEq, Repr

/-- A request that an internal node keeps until its headland issue buffer has room (R66, R70). -/
structure KeptReq where
  /-- Headland tile 128-143. -/
  tile : Nat
  /-- Egress port. -/
  egress : Nat
  /-- The frame. -/
  frame : Frame
  deriving DecidableEq, Repr

/-- The uplink picked for a pair of nodes in a plot, for as long as the plan is loaded (R43). -/
structure PairUplink where
  /-- Plot. -/
  plot : Nat
  /-- Source node. -/
  src : Nat
  /-- Destination node. -/
  dst : Nat
  /-- The uplink's port. -/
  port : Nat
  deriving DecidableEq, Repr

/-- The switch core (R62-R89), the forward records (R47) and the signal gate (R46). -/
structure Switch where
  /-- Flows that hold a frame or are in spill (R71); reset none. -/
  flows : List Flow := []
  /-- Frames in each egress stage, by egress port, oldest first, each with the ingress tile its space returns to (R66); reset empty. -/
  stage : FMap (List (Nat × Frame)) := []
  /-- Forward records by egress port (R47); reset none. -/
  records : FMap (List FwdRec) := []
  /-- Gather records (R76); reset none. -/
  gathers : List Gather := []
  /-- Next gather identifier (the model's own numbering, log entry 12); reset 0. -/
  nextGather : Nat := 0
  /-- Gate entries with a non-zero count (R264); reset none. -/
  gate : List GateEntry := []
  /-- Shared gate counts of the sources whose entries are all taken (R264), by source node; reset none. -/
  gateShared : FMap Nat := []
  /-- Held SIG requests, oldest first (R46); reset none. -/
  heldSigs : List HeldSig := []
  /-- Frames of other classes served since the last SIG frame at each egress (R71); reset none: SIG is served first. -/
  sigBypass : FMap Nat := []
  /-- Ingress served last, by 4 x egress + class (R71: round robin); reset none: ingress 0 is first. -/
  servedLast : FMap Nat := []
  /-- Class whose turn it is among MEM, RED and MSG and the cells it has left, by egress (R71); reset none: MEM is first. -/
  share : FMap (Nat × Nat) := []
  /-- Frames in each headland tile's entry buffer, by tile, oldest first, until their node takes them (R62, R66, R70); reset empty. -/
  entry : FMap (List Frame) := []
  /-- Requests that internal nodes keep until their headland issue buffer has room, oldest first (R66, R70); reset none. -/
  issueKept : List KeptReq := []
  /-- Replies in each port's reply egress stage, at most 2 frames a class, oldest first (R65); reset empty. -/
  replyStage : FMap (List NetReply) := []
  /-- Replies in the reply cells of their tiles, by egress port, oldest first (R65, R68); reset empty. -/
  replyWait : FMap (List NetReply) := []
  /-- Replies that internal nodes keep until the reply issue buffer of their headland tile has room, by egress port (R68); reset none. -/
  replyKept : FMap (List NetReply) := []
  /-- Class of the reply granted last at an egress where replies wait, 0 DATA, 1 ACK (R71); reset none: DATA is first. -/
  replyTurn : FMap Nat := []
  /-- Tile served last among those with replies, by 2 x egress + class (R71: round robin); reset none: tile 0 is first. -/
  replyServed : FMap Nat := []
  /-- Uplinks picked for pairs of nodes under the plan that is loaded (R43); reset none. -/
  pairs : List PairUplink := []
  /-- Cells not accounted in the last audit (R84); reset none. -/
  unaccounted : List LostCell := []
  /-- DeviceTime of the last audit (R84); reset 0. -/
  lastAudit : Nat := 0
  /-- SWC_GLEANER_STATUS.LASTRECLAIMS, 16 bits (R88); reset 0. -/
  lastReclaims : Nat := 0
  /-- SWC_GLEANER_STATUS.SUSPECTS, 8 bits (R88); reset 0. -/
  suspects : Nat := 0
  /-- Tiles with SWC_TILE_STATUS.SUSPECT set (R86), by network and tile; reset none. -/
  suspectTiles : List (Nat × Nat) := []
  /-- Consecutive audits with a reclaim, by 256 x network + tile (R86); reset 0. -/
  reclaimStreak : FMap Nat := []
  /-- Plots whose full share has already been reported in this Gleaner period (R79), with refusals counted; reset none. -/
  shareRefusals : FMap Nat := []
  deriving DecidableEq, Repr

/-- A context slot (R90-R92). -/
structure Ctx where
  /-- Level 4 table address (XLT_CTX_ROOT at the create). -/
  root : Nat
  /-- Policy FAIL (true) or FAULT (R92). -/
  fail : Bool
  /-- Destroyed and waiting for its accesses to be answered (R90, R115). -/
  draining : Bool := false
  deriving DecidableEq, Repr

/-- A translation cache entry (R102): context, page base, page size exponent and the leaf. -/
structure Tlb where
  /-- Context. -/
  ctx : Nat
  /-- Page base: offset divided by 2^16. -/
  page : Nat
  /-- Page size exponent: 16, 21 or 30. -/
  size : Nat
  /-- The leaf entry. -/
  leaf : U64
  deriving DecidableEq, Repr

/-- A fault waiter (Table 4-5): core, thread, engine. -/
structure Waiter where
  /-- Core 0-63. -/
  core : Nat
  /-- Thread 0-15. -/
  thread : Nat
  /-- Engine 0-3 TE, 4 VE, 5 ME, 6 sequencer. -/
  engine : Nat
  deriving DecidableEq, Repr

/-- The kinds of fault (Table 4-5). -/
inductive FaultKind where
  | notMapped
  | withdrawn
  | rights
  deriving DecidableEq, Repr

/-- An outstanding fault (R104, R105). -/
structure FaultEntry where
  /-- Context. -/
  ctx : Nat
  /-- 64 KiB page: offset bits [47:16]. -/
  page : Nat
  /-- Kind. -/
  kind : FaultKind
  /-- Whether a waiter needs the WR right. -/
  needWr : Bool
  /-- Waiters in the order they joined. -/
  waiters : List Waiter
  /-- Translation epoch when the entry opened. -/
  epoch : Nat
  /-- DeviceTime when the entry opened. -/
  since : Nat
  /-- Whether its record has been written. -/
  recorded : Bool := false
  deriving DecidableEq, Repr

/-- A walk in progress (R101): a prefetch walk of a core. -/
structure Walk where
  /-- Core whose cache the leaf goes to. -/
  core : Nat
  /-- Context. -/
  ctx : Nat
  /-- 64 KiB page. -/
  page : Nat
  /-- Translation epoch at its start. -/
  epoch : Nat
  deriving DecidableEq, Repr

/-- A shoot-down command queued for the next epoch (R113). -/
structure Shoot where
  /-- Context. -/
  ctx : Nat
  /-- First 64 KiB page. -/
  page : Nat
  /-- Pages. -/
  count : Nat
  /-- Epoch assigned. -/
  epoch : Nat
  deriving DecidableEq, Repr

/-- Why an accepted pool access waits (R134, R142, R163, R278). -/
inductive WaitFor where
  /-- A snoop of the line; true when it invalidates (R163). -/
  | snoop (line : Nat) (inv : Bool)
  /-- The copy of a page for a published version (R134). -/
  | copyPage (ext page : Nat)
  /-- The retirement copy of a frame (R142). -/
  | frameCopy (frame : Nat)
  /-- The fill of a tensor block from its tier (R278, R279, R129). -/
  | block (blk : Nat)
  deriving DecidableEq, Repr

/-- The translation unit (R90-R116). -/
structure Xlt where
  /-- Context slots by identifier, at most 4,096 (R90); reset none active. -/
  ctxs : FMap Ctx := []
  /-- XLT_CTX_ROOT, bits [47:12] (R116); reset 0. -/
  ctxRoot : Nat := 0
  /-- XLT_CTX_RESULT.STATUS, 8 bits (R116); reset 0 (R469). -/
  ctxStatus : Nat := 0
  /-- XLT_CTX_RESULT.DONE (R116); reset 1 (R469). -/
  ctxDone : Bool := true
  /-- The context whose destroy command completes with DONE, while it drains (R116, R469); reset none. -/
  ctxLast : Option Nat := none
  /-- XLT_GEN_ACK and MirrorGenerationAck, 64 bits (R99); reset 0. -/
  genAck : U64 := 0
  /-- XLT_SHOOT_RANGE: context, 16 bits (R116); reset 0. -/
  shootCtx : Nat := 0
  /-- XLT_SHOOT_RANGE: first page, 32 bits (R116); reset 0. -/
  shootPage : Nat := 0
  /-- XLT_SHOOT_RESULT.STATUS, 8 bits (R113); reset 0 (R469). -/
  shootStatus : Nat := 0
  /-- XLT_SHOOT_RESULT epoch assigned, 32 bits (R113); reset 0. -/
  shootEpoch : Nat := 0
  /-- XLT_SHOOT_STATUS: latest epoch whose shoot-downs are complete, 32 bits (R114); reset 0. -/
  shootDone : Nat := 0
  /-- Shoot-down commands that wait for the next advance, at most 64 (R113); reset none. -/
  shootQueue : List Shoot := []
  /-- Shoot-downs that took effect and wait for the in-flight counts (R114); reset none. -/
  shootOpen : List Shoot := []
  /-- DeviceTime of the last advance (R113); reset 0. -/
  lastAdvance : Nat := 0
  /-- Translation epoch 0x5030.01, 32 bits (R112); reset 0. -/
  epoch : Nat := 0
  /-- Hub translation cache, at most 262,144 entries (R102); reset empty. -/
  hubTlb : List Tlb := []
  /-- Core translation caches, at most 2,048 entries each, by core (R102); reset empty. -/
  coreTlb : FMap (List Tlb) := []
  /-- Prefetch walks (R101, R103): the first 256 are in progress, the others wait (R102); reset none. -/
  walks : List Walk := []
  /-- Generations published and not yet acknowledged, oldest first, while the walker cannot see every Lania write (R99); reset none. -/
  genWaits : List U64 := []
  /-- Fault resolves written while a generation is not acknowledged, oldest first: entry, and the status of a FAIL (R99, R109); reset
  none. -/
  resolves : List (Nat × Option Nat) := []
  /-- Requests whose translation waits, each with the epoch it began under: for what a table line waits for (R163, R278), or, with none,
  while the epoch wraps (R115); reset none. -/
  stalled : List (Req × Nat × Option WaitFor) := []
  /-- Whether the full flush of an epoch wrap waits for the in-flight counts (R115); reset no. -/
  wrapping : Bool := false
  /-- Outstanding-fault table, by entry 0-4,095 (R104); reset empty. -/
  faults : FMap FaultEntry := []
  /-- Faults that wait for room, oldest first (R108); reset none. -/
  deferred : List FaultEntry := []
  /-- Whether a fault has waited for room in this Gleaner period (R108); reset no. -/
  deferSeen : Bool := false
  /-- CCLK cycles of this Gleaner period in which a fault waited for room (R108); reset 0. -/
  deferCycles : Nat := 0
  /-- XLT_FQ_BASE.ENABLE (R116); reset 0. -/
  fqEnable : Bool := false
  /-- XLT_FQ_BASE ring address, bits [47:18] (R116); reset 0. -/
  fqBase : Nat := 0
  /-- XLT_FQ_PROD next slot, 12 bits (R107); reset 0. -/
  fqProd : Nat := 0
  /-- PHASE of the next record written (R107); reset 1, the first pass. -/
  fqPhase : Bool := true
  /-- XLT_FQ_PROD.PHASE: PHASE of the last record written (R107; log entry 16); reset 0. -/
  fqLast : Bool := false
  /-- XLT_FQ_CONS next slot to consume, 12 bits (R107); reset 0. -/
  fqCons : Nat := 0
  /-- Unconsumed records, 0-4,096 (R107); reset 0. -/
  fqCount : Nat := 0
  /-- DeviceTime of the last FAULT doorbell (R107); reset 0. -/
  fqRung : Nat := 0
  /-- XLT_FAULT_RESULT.STATUS, 8 bits (R109); reset 0 (R469). -/
  faultStatus : Nat := 0
  deriving DecidableEq, Repr

/-- STATE of an extent descriptor (Table 5-4). -/
inductive ExtState where
  | free
  | assigned
  | draining
  | scrubbing
  deriving DecidableEq, Repr

/-- A live published version with its openers (R132, R135). -/
structure Version where
  /-- Version number, 48 bits. -/
  num : Nat
  /-- Openers, by node. -/
  openers : List Nat
  deriving DecidableEq, Repr

/-- An extent descriptor and what the pool keeps of the extent (R123, Table 5-4). -/
structure Extent where
  /-- STATE. -/
  state : ExtState := .free
  /-- LOCAL of a tier 3 extent: this hub holds it (R146). -/
  held : Bool := false
  /-- LOST (R145). -/
  lost : Bool := false
  /-- PLOT, 0xF none. -/
  plot : Nat := 15
  /-- ROLE: 0 DATA, 1 RESERVE, 2 SERVICE. -/
  role : Nat := 0
  /-- VERSIONED. -/
  versioned : Bool := false
  /-- OWNER, local end-point number. -/
  owner : Nat := 0
  /-- GRANTALL. -/
  grantAll : Nat := 0
  /-- GRANTLIST. -/
  grantList : Nat := 0
  /-- LATEST. -/
  latest : Nat := 0
  /-- Live published versions (LIVE is their slots). -/
  versions : List Version := []
  /-- Pages written since the last PUBLISH, which need no further copy (R134). -/
  written : List Nat := []
  /-- DeviceTime of the REVOKE or RELEASE that drains it (R127). -/
  drainSince : Nat := 0
  /-- Whether the drain is of a RELEASE (R127, R146). -/
  releasing : Bool := false
  /-- Whether DrainTimeout has been acted on (R127). -/
  drainExpired : Bool := false
  /-- PUBLISHes accepted and not yet acknowledged: source and version (R133). -/
  publishing : List (VerSource × Nat) := []
  deriving DecidableEq, Repr

/-- What a frame of an assigned extent holds when it is not what its extent's role gives it (R125). -/
inductive FrameUse where
  /-- FREE, or a home frame held unused for a migrated page (R140). -/
  | free
  /-- WORKING for page i of extent X. -/
  | working (ext page : Nat)
  /-- COPY of page i of X as it was in version v. -/
  | copy (ext page version : Nat)
  deriving DecidableEq, Repr

/-- Why a line is lost (R142, R317, R278). -/
inductive LineLoss where
  | dataLost
  | keyRetired
  deriving DecidableEq, Repr

/-- The descriptor that waits for an access an engine has issued to the pool (R112, R202): core, thread, order of issue, and the number
of the access in the descriptor. -/
structure EngRef where
  /-- Core. -/
  core : Nat
  /-- Thread. -/
  thread : Nat
  /-- Order of issue of the descriptor. -/
  seq : Nat
  /-- Number of the access. -/
  ident : Nat
  deriving DecidableEq, Repr

/-- An accepted access that has not been applied (R127 INFLIGHT). -/
structure PoolWait where
  /-- The request. -/
  req : Req
  /-- Its physical address. -/
  pa : Nat
  /-- What it waits for. -/
  what : WaitFor
  /-- DeviceTime since which it waits. -/
  since : Nat
  /-- Translation epoch it was issued under (R112). -/
  epoch : Nat
  /-- LATEST of the extent when the access was accepted (R133, R134). -/
  latest : Nat := 0
  /-- The version whose copy must be made before the access is applied (R134). -/
  copy : Option Nat := none
  /-- The version it reads through a view, if it does (R130). -/
  view : Option Nat := none
  /-- The operation of a unit of the hub that it belongs to, and its place in it. -/
  unit : Option (Nat × Nat) := none
  /-- The descriptors that wait for it, when an engine issued it: one read serves every thread of a core that misses on its line (R202). -/
  eng : List EngRef := []
  deriving DecidableEq, Repr

/-- A piece of a unit's own access to the pool (R44, R127): asked for once, and answered when the memory has answered it. -/
structure UnitPiece where
  /-- The operation: core 0-63's load, 64 a Tilth image, 65 and 66 an attestation's source and destination, 67 a debug token, 70 a fault
  record, 71 a nomination record. -/
  key : Nat
  /-- Its place: the offset, or what the record says. -/
  off : Nat
  /-- While its translation waits, the epoch its walk began under, or none within an epoch's wrap (R101, R115). -/
  walk : Option (Option Nat) := none
  /-- Its answer: status and data. -/
  ans : Option (Nat × List Byte) := none
  deriving DecidableEq, Repr

/-- A register command of the hub whose lines of plot 0 memory are still to be read or written. -/
inductive HubCmd where
  /-- LOAD of CHK_TILTH_CMD (R294). -/
  | tilth
  /-- KEY_ATTEST_CMD for a plot (R321). -/
  | attest (plot : Nat)
  /-- A signed report that is written to its destination (R321). -/
  | report
  /-- KEY_DEBUG_CMD (R323). -/
  | debug (ctx off : Nat)
  deriving DecidableEq, Repr

/-- A migration in the Harrow's queue (R140). -/
structure Migration where
  /-- Extent. -/
  ext : Nat
  /-- Page. -/
  page : Nat
  /-- Target frame number. -/
  target : Nat
  /-- Return to the home frame. -/
  home : Bool
  deriving DecidableEq, Repr

/-- The memory pool (R117-R148). -/
structure Pool where
  /-- Extent descriptors that differ from the free one, by number (R123); reset Table 5-4. -/
  exts : FMap Extent := []
  /-- Written grant lists 1-1,023: 64 entries of (node, right) (R125); reset unwritten. -/
  grants : FMap (List (Nat × Nat)) := []
  /-- Frame map exceptions, by frame number (R125); reset none. -/
  frames : FMap FrameUse := []
  /-- Lost lines, by line number (R142, R317); reset none. -/
  lostLines : FMap LineLoss := []
  /-- Frames redirected to a spare (R142), by frame number, with the spare's index in its tier; reset none. -/
  redirected : FMap Nat := []
  /-- Frames whose retirement copy is in progress, each with the stack that failed it (R142, R143); reset none. -/
  retiring : FMap Nat := []
  /-- Spares used, by tier pool: channel set 0-31, or 32 + CXL device (R121, R142); reset 0. -/
  sparesUsed : FMap Nat := []
  /-- Frames retired, by 8 x channel set + stack (R143); reset 0. -/
  retiredFrames : FMap Nat := []
  /-- Pseudo-channels retired in service, as 8 x channel set + stack (R143); reset none. -/
  retiredPcs : List Nat := []
  /-- ChannelSetState 0x6010, 0 in service, 1 RETIRING, 2 RETIRED (R143); reset 0. -/
  setState : FMap Nat := []
  /-- Corrected errors in this decay period, by frame (R141); reset 0. -/
  corrected : FMap Nat := []
  /-- Page access counters, 16 bits, by 4,096 x extent + page (R138); reset 0. -/
  access : FMap Nat := []
  /-- Pages whose counter was above DemoteThreshold at the last period end (R139); reset none. -/
  busyPages : List Nat := []
  /-- DATA extents that were assigned at the last period end (R139); reset none. -/
  agedExts : List Nat := []
  /-- DeviceTime at which the decay period began (R138); reset 0. -/
  decaySince : Nat := 0
  /-- Chip-cache presence, by set: (line, plot) in each used way (R122); reset empty. -/
  chip : FMap (List (Nat × Nat)) := []
  /-- Lines of the chip cache that are dirty, newer than their tier, each with the copy the tier holds (R122, R277); reset none. -/
  dirty : FMap (List Byte) := []
  /-- The check store (R276): the BCV kept of each tensor block, by physical address / 4,096; 0, that of a block of zeros, when unlisted;
  reset none. -/
  bcvs : FMap Nat := []
  /-- Pieces of the units' own accesses that are not over; reset none. -/
  pieces : List UnitPiece := []
  /-- Register commands of the hub that wait for their lines (R294, R321, R323); reset none. -/
  hubCmds : List HubCmd := []
  /-- Accepted accesses that wait (R127); reset none. -/
  waiting : List PoolWait := []
  /-- Block fills in progress, by block number (physical address / 4,096), with the DeviceTime of their start (R278); reset none. -/
  fills : FMap Nat := []
  /-- Migrations queued, oldest first (R140); reset none. -/
  migrations : List Migration := []
  /-- POOL_EXTENT_RESULT.STATUS, 8 bits (R126); reset 0. -/
  extStatus : Nat := 0
  /-- DeviceTime of the last extent command (R126: 20,000 per second), if any; reset none. -/
  extLast : Option Nat := none
  /-- POOL_VERSION_ARG, 48 bits (R132); reset 0. -/
  verArg : Nat := 0
  /-- POOL_VERSION_RESULT.STATUS, 8 bits (R132); reset 0. -/
  verStatus : Nat := 0
  /-- POOL_MIGRATE_TARGET, bits [47:16] (R140); reset 0. -/
  migTarget : Nat := 0
  /-- POOL_MIGRATE_RESULT.STATUS, 8 bits (R140); reset 0. -/
  migStatus : Nat := 0
  /-- POOL_MIGRATE_RESULT.DONE (R140); reset 1 (R469). -/
  migDone : Bool := true
  /-- POOL_NOM_BASE.ENABLE (R139); reset 0. -/
  nomEnable : Bool := false
  /-- POOL_NOM_BASE ring address, bits [47:14] (R139); reset 0. -/
  nomBase : Nat := 0
  /-- POOL_NOM_PROD next slot, 10 bits (R139); reset 0. -/
  nomProd : Nat := 0
  /-- PHASE of the next nomination record (R139); reset 1. -/
  nomPhase : Bool := true
  /-- POOL_NOM_PROD.PHASE (R139; log entry 16); reset 0. -/
  nomLast : Bool := false
  /-- POOL_NOM_CONS, 10 bits (R139); reset 0. -/
  nomCons : Nat := 0
  /-- Unconsumed nomination records, 0-1,024 (R139); reset 0. -/
  nomCount : Nat := 0
  /-- Nominations whose record waits for a snoop of its line of the ring: plot, page key, kind and count (R139, R163); reset none. -/
  nomWaiting : List (Nat × Nat × Nat × Nat) := []
  /-- Stack interfaces lost, 0-7 (R445); reset none. -/
  lostStacks : List Nat := []
  deriving DecidableEq, Repr

/-- States of a snoop filter entry (Table 6-4). -/
inductive SnoopSt where
  | shared
  | exclusive
  | modified
  /-- ORPHANED, with WASM: whether the entry was M at the loss. -/
  | orphaned (wasM : Bool)
  deriving DecidableEq, Repr

/-- A snoop filter entry (R163, R165). -/
structure Snoop where
  /-- Its state. -/
  st : SnoopSt
  /-- Order of filling, for back-invalidation (R165). -/
  order : Nat
  deriving DecidableEq, Repr

/-- A coherent read of the host that is not answered (R353, R356). -/
structure HostWait where
  /-- Line wanted. -/
  line : Nat
  /-- RdOwn rather than RdShared. -/
  own : Bool
  /-- Line being back-invalidated for it (R165). -/
  victim : Option Nat
  /-- What it waits for at the pool. -/
  what : Option WaitFor
  /-- DeviceTime at which the pool accepted it; none while it waits its turn in its class (R353). -/
  since : Option Nat
  deriving DecidableEq, Repr

/-- The coherence and ordering unit (R163-R168). -/
structure Coh where
  /-- Snoop filter entries, at most 2,097,152, by line number (R163); reset all I. -/
  filter : FMap Snoop := []
  /-- Next filling order (R165; the model's own numbering); reset 0. -/
  nextOrder : Nat := 0
  /-- Snoops sent and not answered: line, invalidating, DeviceTime (R163, R164); reset none. -/
  snoops : List (Nat × Bool × Nat) := []
  /-- Coherent reads of the host that are not answered, at most 512, in issue order (R353); reset none. -/
  hostWaits : List HostWait := []
  /-- DeviceTime at which the walk of R166 began, while it runs; reset none. -/
  walkSince : Option Nat := none
  /-- Lines orphaned so far by the running walk (R166); reset 0. -/
  orphanedNow : Nat := 0
  /-- S entries freed so far by the running walk (R166); reset 0. -/
  freedNow : Nat := 0
  deriving DecidableEq, Repr

/-- A descriptor (R210, Table 8-5). -/
structure Desc where
  /-- OPCODE. -/
  op : Nat
  /-- TE. -/
  te : Nat
  /-- RND. -/
  rnd : Nat
  /-- SUB. -/
  sub : Nat
  /-- DEP bits. -/
  dep : Nat
  /-- OPA halfword. -/
  opa : Nat
  /-- OPB halfword. -/
  opb : Nat
  /-- OPD halfword. -/
  opd : Nat
  /-- OPC halfword. -/
  opc : Nat
  /-- IMM. -/
  imm : Nat
  /-- CONT. -/
  cont : Bool
  /-- IMM2. -/
  imm2 : Nat
  /-- IMM3. -/
  imm3 : Nat
  /-- IMM64. -/
  imm64 : U64
  deriving DecidableEq, Repr

/-- A tensor record (R208, Table 8-4). -/
structure Tensor where
  /-- BASE. -/
  base : Nat
  /-- LOCAL. -/
  local_ : Bool
  /-- PERTHREAD. -/
  perThread : Bool
  /-- TFMT. -/
  tfmt : Nat
  /-- ROWS. -/
  rows : Nat
  /-- COLS. -/
  cols : Nat
  /-- NODE. -/
  node : Nat
  /-- ROWSTRIDE. -/
  stride : Nat
  /-- STEP. -/
  step : Nat
  /-- TSCALE, FP32 bits. -/
  tscale : Nat
  /-- SOFF, signed. -/
  soff : Int
  deriving DecidableEq, Repr

/-- A receive queue declaration (R206). -/
structure QueueDecl where
  /-- QUEUE 0-7. -/
  num : Nat
  /-- RINGOFF. -/
  off : Nat
  /-- SLOTBYTES. -/
  slotBytes : Nat
  /-- SLOTS. -/
  slots : Nat
  deriving DecidableEq, Repr

/-- A loaded program (R204, Table 8-2). -/
structure Prog where
  /-- THREADS. -/
  threads : Nat
  /-- TES. -/
  tes : Nat
  /-- VE. -/
  ve : Bool
  /-- ME. -/
  me : Bool
  /-- WATCHES, the hub numbers taken, in order (R255). -/
  watches : List Nat
  /-- DATABYTES. -/
  dataBytes : Nat
  /-- TLBYTES. -/
  tlBytes : Nat
  /-- ENTRY. -/
  entry : Nat
  /-- Code region pages (R201). -/
  codePages : Nat
  /-- Stream declarations: TILEBYTES and STRIDE (R205). -/
  streams : List (Nat × Int)
  /-- Queue declarations. -/
  queues : List QueueDecl
  /-- Tensor records. -/
  tensors : List Tensor
  /-- Descriptors. -/
  descs : List Desc
  deriving DecidableEq, Repr

/-- What an issued descriptor that is not complete waits for (R154, R203). -/
inductive IncWait where
  /-- A fault is outstanding on an access to this 64 KiB page of the thread's context (R104). -/
  | fault (page : Nat)
  /-- Replies to requests it sent (R202). -/
  | replies
  /-- Accesses it has issued to the pool, or is still to issue (R112, R202). -/
  | pool
  /-- A translation that waits, with the epoch its walk began under (R101): for what a table line waits for (R163, R278), or, with none,
  while the epoch wraps (R115). -/
  | walk (what : Option WaitFor) (epoch : Nat)
  /-- A firing of its watch (R262). -/
  | wake
  /-- A filled slot of the queue (R207). -/
  | slot (queue : Nat)
  /-- A repetition of its operation after a failed check (R288). -/
  | repeat_
  /-- The judge of R288. -/
  | judge
  /-- An earlier descriptor of its engine in the thread, or for a FENCE every earlier one (R153, R155). -/
  | turn
  deriving DecidableEq, Repr

/-- An access of a descriptor that has been issued to the pool and could not be applied at once (R112): translated once, it is in
flight until the memory answers it. -/
structure PoolLine where
  /-- Number of the access. -/
  ident : Nat
  /-- Offset in the thread's context. -/
  off : Nat
  /-- Whether it was translated for a write. -/
  wr : Bool
  /-- Its physical address. -/
  pa : Nat
  /-- Translation epoch it was issued under (R112). -/
  epoch : Nat
  /-- The line of the descriptor whose outcome its answer is (R216); none for a line that is read or filled. -/
  line : Option Nat := none
  /-- Its answer: status and data. -/
  ans : Option (Nat × List Byte) := none
  /-- Whether the answer has been taken: the core's cache filled, or the line's outcome counted. -/
  taken : Bool := false
  /-- Whether a shoot-down has named its page since it was translated (R114): its line is not kept in the core's cache. -/
  shot : Bool := false
  /-- Whether a store of its descriptor has been made in its line. -/
  stored : Bool := false
  deriving DecidableEq, Repr

/-- A store of one piece of a line that a descriptor has still to make (R154, R216). -/
structure StoreRec where
  /-- Its line number in the descriptor. -/
  line : Nat
  /-- Node; none: the core's own scratchpad. -/
  node : Option Nat
  /-- Offset. -/
  off : Nat
  /-- Bytes from the offset, none where a byte is left as it is. -/
  data : List (Option Byte)
  deriving DecidableEq, Repr

/-- An issued descriptor that is not complete, with the index registers read at issue (R209). -/
structure Inc where
  /-- Order of issue in the thread. -/
  seq : Nat
  /-- Index of the descriptor. -/
  idx : Nat
  /-- Index registers X1-X15 at issue. -/
  xs : List U64
  /-- What it waits for. -/
  wait : IncWait
  /-- ProbeInterval of its plot when it issued (R197). -/
  probe : Nat := 0
  /-- Whether its writes have been made or issued, so that only answers are outstanding. -/
  wrote : Bool := false
  /-- Requests it has sent and that are not answered: tag, line number in the descriptor, node, offset (R202). -/
  asked : List (Nat × Nat × Nat × Nat) := []
  /-- Requests that wait for a line slot (R202), each with its line number, oldest first. -/
  todo : List (Nat × Req) := []
  /-- Remote lines that have arrived for it: node, line offset, status, data. -/
  lines : List (Nat × Nat × Nat × List Byte) := []
  /-- Its accesses at the pool that could not be applied when they were issued (R112, R202). -/
  pool : List PoolLine := []
  /-- Stores it has still to make, in line order (R216). -/
  rest : List StoreRec := []
  /-- The cache lines an INVAL or WBACK names, fixed when it issues: context and virtual line (R158). -/
  range : List (Nat × Nat) := []
  /-- Lines answered OK (R216). -/
  done : Nat := 0
  /-- Lines failed. -/
  failed : Nat := 0
  /-- Lowest-numbered failing line so far. -/
  low : Nat := 0
  /-- Its status. -/
  status : Nat := 0
  /-- Its arithmetic report, once it has run. -/
  rep : ArithReport := {}
  /-- How far the repetition of a failed check has come (R288): 0 the first run, 1 the repetition, 2 the judge has decided. -/
  tries : Nat := 0
  /-- Whether an upset of the engine spoils its first run (R283). -/
  upset : Bool := false
  /-- What the repetition or the judge found: the engine sound, or the judge passing (R288). -/
  sound : Bool := false
  /-- The tensor engine it runs on in place of its own, when it is repeated to judge that one (Table 11-3). -/
  te : Option Nat := none
  /-- Order of issue among the threads of its core (R207). -/
  order : Nat := 0
  /-- Pages whose fault was resolved as FAIL, with the status (R109). -/
  refused : List (Nat × Nat) := []
  deriving DecidableEq, Repr

/-- A thread of a core (R199, R203, Table 8-7). -/
structure Thread where
  /-- Whether the thread runs (started and not halted). -/
  running : Bool := false
  /-- HALTED: reads 1 until the thread is started. -/
  halted : Bool := true
  /-- Next descriptor. -/
  pc : Nat := 0
  /-- X1-X15. -/
  xs : List U64 := List.replicate 15 0
  /-- STATUS. -/
  status : Nat := 0
  /-- DESC. -/
  desc : Nat := 0
  /-- LINESDONE. -/
  linesDone : Nat := 0
  /-- LINESFAILED. -/
  linesFailed : Nat := 0
  /-- REPORT. -/
  report : ArithReport := {}
  /-- TIME. -/
  time : Nat := 0
  /-- Context the thread runs in. -/
  ctx : Nat := 0
  /-- Descriptors issued since the start. -/
  seq : Nat := 0
  /-- Issued descriptors that are not complete, oldest first. -/
  incs : List Inc := []
  /-- The 32 descriptors issued last, newest first: order of issue, index and index registers read (R211, R287). -/
  recent : List (Nat × Nat × List U64) := []
  /-- Whether the thread issues nothing more and halts once its descriptors are complete (R212, R217). -/
  ending : Bool := false
  /-- Armed streams: number, base, tile count, and the tiles that have been accessed (R205, R103). -/
  streams : List (Nat × Nat × Nat × List Nat) := []
  /-- The slot the thread holds CLAIMED: queue and slot (R207). -/
  claimed : Option (Nat × Nat) := none
  /-- Next tag of the thread's requests (the model's own numbering). -/
  nextTag : Nat := 0
  deriving DecidableEq, Repr

/-- States of a core (Table 8-8). -/
inductive CoreSt where
  | empty
  | loaded
  | running
  | out
  deriving DecidableEq, Repr

/-- A data-cache line (R156, R112). -/
structure CLine where
  /-- Context of its virtual tag. -/
  ctx : Nat
  /-- Virtual tag: offset divided by 128. -/
  vline : Nat
  /-- Physical line: physical address divided by 128. -/
  pline : Nat
  /-- 128 bytes. -/
  data : List Byte
  /-- Dirty. -/
  dirty : Bool
  /-- The translation epoch it is in flight under while dirty: that of the first store since it was last clean (R112). -/
  epoch : Nat
  deriving DecidableEq, Repr

/-- State of a receive slot that is not FREE (R207): FILLED with its order of filling, or CLAIMED. -/
inductive SlotSt where
  | filled (order : Nat)
  | claimed
  deriving DecidableEq, Repr

/-- A Furrow core (R199, R217, Table 8-10). -/
structure Core where
  /-- State (Table 8-8). -/
  st : CoreSt := .empty
  /-- Tensor engines retired in the field, bits 3-0 (R219). -/
  teRetired : Nat := 0
  /-- VE works. -/
  ve : Bool := true
  /-- ME works. -/
  me : Bool := true
  /-- Sequencer works. -/
  seqOk : Bool := true
  /-- SPARE in use (R220). -/
  spare : Bool := false
  /-- The loaded program. -/
  prog : Option Prog := none
  /-- The image bytes of the program, for its digest and code region. -/
  image : List Byte := []
  /-- FUR_LOAD_SRC context, 16 bits. -/
  srcCtx : Nat := 0
  /-- FUR_LOAD_SRC offset, 48 bits. -/
  srcOff : Nat := 0
  /-- FUR_LOAD_LEN, 20 bits. -/
  loadLen : Nat := 0
  /-- FUR_RESULT.STATUS. -/
  resStatus : Nat := 0
  /-- FUR_RESULT reason. -/
  resReason : Nat := 0
  /-- FUR_RESULT index. -/
  resIndex : Nat := 0
  /-- FUR_RESULT.DONE. -/
  resDone : Bool := true
  /-- A LOAD in progress (R218). -/
  loading : Bool := false
  /-- FUR_DIGEST and ProgramDigest, 64 bytes. -/
  digest : List Byte := List.replicate 64 0
  /-- Threads 0-15. -/
  threads : FMap Thread := []
  /-- Receive slots that are not FREE, by 1,024 x queue + slot (R207). -/
  slots : FMap SlotSt := []
  /-- Next order of filling (the model's own numbering). -/
  nextFill : Nat := 0
  /-- Data cache (R156). -/
  cache : List CLine := []
  /-- Next order of issue among its threads (the model's own numbering). -/
  issued : Nat := 0
  /-- Thread that issued last (R203). -/
  lastThread : Nat := 0
  /-- A CORE reset is in progress (R404). -/
  resetting : Bool := false
  deriving DecidableEq, Repr

/-- Probe statistics of a plot (R198). -/
structure ProbeStat where
  /-- Blocks probed, 64 bits. -/
  blocks : Nat := 0
  /-- Largest relative error, FP32 bits. -/
  largest : Nat := 0
  /-- Mean relative error, FP32 bits. -/
  mean : Nat := 0
  deriving DecidableEq, Repr

/-- The compute complex (R199-R223) and the probe (R197). -/
structure Furrow where
  /-- Cores 0-63 (R199); reset EMPTY with every engine (Table 8-11: CoreState 0, CoreEngines 0x1C). -/
  cores : FMap Core := []
  /-- ProbeStatistics 0x7062, by plot (R198); reset 0. -/
  probes : FMap ProbeStat := []
  deriving DecidableEq, Repr

/-- States of a watch (R255). -/
inductive WatchSt where
  | free
  | reserved
  | armed
  deriving DecidableEq, Repr

/-- Modes of a watch (R260). -/
inductive WatchMode where
  | once
  | claim
  | rearm
  deriving DecidableEq, Repr

/-- Actions of a watch (R259). -/
inductive WatchAct where
  | msg
  | doorbell
  | wake
  deriving DecidableEq, Repr

/-- A watch (R256, Table 10-6). -/
structure Watch where
  /-- STATE. -/
  st : WatchSt := .free
  /-- MODE. -/
  mode : WatchMode := .once
  /-- ACTION. -/
  act : WatchAct := .msg
  /-- COUNTER. -/
  ctr : Nat := 0
  /-- Threshold T. -/
  thr : Nat := 0
  /-- Step k for REARM. -/
  step : Nat := 0
  /-- OWNER: the node that armed or reserved it. -/
  owner : Nat := 0
  /-- Node that receives the firing message. -/
  tnode : Nat := 0
  /-- Its receive queue. -/
  tqueue : Nat := 0
  /-- TAG, delivered as IMM. -/
  tag : Nat := 0
  /-- PENDING firings (R262). -/
  pending : Nat := 0
  /-- Order of arming. -/
  order : Nat := 0
  /-- Whether a program reserved it: then its core (R255). -/
  core : Option Nat := none
  /-- The thread a WAKE watch wakes. -/
  thread : Nat := 0
  deriving DecidableEq, Repr

/-- A firing message refused by its target, resent until it is taken or dropped (R267). -/
structure Retry where
  /-- Watch. -/
  watch : Nat
  /-- Counter. -/
  ctr : Nat
  /-- Target node. -/
  tnode : Nat
  /-- Target queue. -/
  tqueue : Nat
  /-- IMM. -/
  tag : Nat
  /-- Plot. -/
  plot : Nat
  /-- Payload. -/
  data : List Byte
  /-- Whether it carries a CLAIM grant. -/
  claim : Bool
  /-- DeviceTime of the first refusal, once it has been refused. -/
  since : Option Nat := none
  /-- DeviceTime of the last sending. -/
  sent : Nat
  deriving DecidableEq, Repr

/-- The synchronisation unit (R251-R269). -/
structure Sync where
  /-- Counters, 64 bits each, by number 0-65,535 (R251); reset 0. -/
  ctrs : FMap U64 := []
  /-- Grant counts G, 64 bits each (R260); reset 0. -/
  grants : FMap Nat := []
  /-- Watches, by number 0-16,383 (R255); reset FREE. -/
  watches : FMap Watch := []
  /-- Next order of arming (R259; the model's own numbering); reset 0. -/
  nextOrder : Nat := 0
  /-- Counters with an update or an arming whose watches have not been examined, oldest first (R259); reset none. -/
  touched : List Nat := []
  /-- Firing messages to be resent (R267); reset none. -/
  retries : List Retry := []
  /-- SYNC_CTR_SELECT, 16 bits (R269); reset 0. -/
  ctrSelect : Nat := 0
  /-- SYNC_WATCH_CMD, 32 bytes (R269); reset 0. -/
  watchCmd : List Byte := List.replicate 32 0
  /-- SYNC_WATCH_RESULT.STATUS, 8 bits (R257); reset 0 (R469). -/
  watchStatus : Nat := 0
  deriving DecidableEq, Repr

/-- A member of a group (Table 9-2). -/
structure Member where
  /-- NODE. -/
  node : Nat
  /-- CCTX. -/
  cctx : Nat
  /-- CNODE. -/
  cnode : Nat
  /-- CSLOTS. -/
  cslots : Nat
  /-- COFF. -/
  coff : Nat
  /-- SIGOFF. -/
  sigoff : Nat
  deriving DecidableEq, Repr

/-- A cause of abort (R241, R242). -/
structure Cause where
  /-- STATUS. -/
  status : Nat
  /-- NAMED, 0x7FF when none. -/
  named : Nat
  /-- REASON. -/
  reason : Nat
  /-- HUBLEVEL. -/
  hubLevel : Bool
  /-- DeviceTime at which its hub found it. -/
  time : Nat
  /-- Canonical index of the hub that found it. -/
  hub : Nat
  deriving DecidableEq, Repr

/-- An exchange body received (R238 to R240). -/
structure XBody where
  /-- KIND. -/
  kind : Nat
  /-- Canonical index of the sending hub. -/
  hub : Nat
  /-- CHUNK. -/
  chunk : Nat
  /-- SLICE, or the member index of DATA. -/
  slice : Nat
  /-- OFFSET. -/
  off : Nat
  /-- The body. -/
  data : List Byte
  deriving DecidableEq, Repr

/-- How far a member's completion has come (R237). -/
inductive Finish where
  /-- The completion record has been issued. -/
  | record
  /-- The record has been answered; the signal is to be issued. -/
  | recorded
  /-- The signal has been issued. -/
  | signalled
  /-- The signal has been answered. -/
  | done
  deriving DecidableEq, Repr

/-- A sequence of a group that is held, executing or aborted (R229 to R244). -/
structure CSeq where
  /-- Sequence number. -/
  seq : Nat
  /-- The fixed signature, words W3 to W0 (16 bytes), once fixed. -/
  sig : Option (List Byte) := none
  /-- Members that have posted it, whatever became of the descriptor (Table 9-5). -/
  made : List Nat := []
  /-- Descriptors held, in the order of their arrival: member index and its 128 bytes. -/
  posts : List (Nat × List Byte) := []
  /-- Order of the first descriptor among all groups. -/
  order : Nat := 0
  /-- Whether it is executing. -/
  exec : Bool := false
  /-- DeviceTime of its start. -/
  start : Nat := 0
  /-- The parts of the plot's staging area that are reserved for it: offset and bytes of each (R234). -/
  area : List (Nat × Nat) := []
  /-- Contribution bytes that the staging area holds, by offset in the reservation (R234). -/
  stage : FMap Byte := []
  /-- What each local member's result has received, for its check area, by member x 2^32 + chunk: element place, element bytes, scale
  bytes (R232). -/
  pieces : FMap (List (Nat × List Byte × List Byte)) := []
  /-- ProbeInterval of its plot when it started (R197). -/
  probe : Nat := 0
  /-- DeviceTime of the last two arrivals and the last member, by stage (R249): stage, last member, last time, previous time. -/
  arrivals : List (Nat × Nat × Nat × Nat) := []
  /-- DeviceTime at which each chunk entered the window. -/
  entered : FMap Nat := []
  /-- Chunks whose results are being written: twice the result writes not yet answered, and 1 more once one has failed. -/
  writing : FMap Nat := []
  /-- Chunks written. -/
  written : List Nat := []
  /-- Chunks whose own exchange bodies have been sent, with the DeviceTime (R247). -/
  sent : FMap Nat := []
  /-- Exchange bodies received. -/
  bodies : List XBody := []
  /-- Encoded slices of this hub's chunks, by chunk: element bytes, scale bytes, report. -/
  slices : FMap (List Byte × List Byte) := []
  /-- Hubs whose SIGNATURE has arrived, with it. -/
  sigs : List (Nat × List Byte) := []
  /-- Hubs whose DONE has arrived (canonical index). -/
  dones : List Nat := []
  /-- The arithmetic report so far. -/
  report : ArithReport := {}
  /-- Deadline factors of members (R248). -/
  factors : FMap Nat := []
  /-- Exchange-step factors of hubs (R248). -/
  hubFactors : FMap Nat := []
  /-- Whether compute has been throttled while it executed, so that its deadlines are four times as long (R421). -/
  slow : Bool := false
  /-- The deciding cause, once it aborts. -/
  cause : Option Cause := none
  /-- DeviceTime at which this hub first knew of a cause. -/
  known : Nat := 0
  /-- Whether this hub found the cause itself. -/
  own : Bool := false
  /-- Completion of each local member, once it completes or ends. -/
  finish : FMap Finish := []
  deriving DecidableEq, Repr

/-- A collective group (R224 to R230). -/
structure Group where
  /-- The definition image. -/
  image : List Byte
  /-- PLOT. -/
  plot : Nat
  /-- Members in canonical order. -/
  members : List Member
  /-- DEPTH. -/
  depth : Nat
  /-- EXCH: ring. -/
  ring : Bool
  /-- ANCHOR. -/
  anchor : Int
  /-- CHUNKLOG. -/
  chunkLog : Nat
  /-- WINDOW. -/
  window : Nat
  /-- DEADLINE, µs. -/
  deadline : Nat
  /-- QEXT. -/
  qext : Nat
  /-- QOFF. -/
  qoff : Nat
  /-- COLLCORES. -/
  cores : Nat
  /-- NEXT, 32 bits. -/
  next : Nat := 0
  /-- GroupDefDigest, 8 bytes. -/
  digest : List Byte
  /-- Sequences held, executing or ending. -/
  seqs : List CSeq := []
  /-- The 256 latest arrival records, oldest first (R249). -/
  records : List (List Byte) := []
  /-- DeviceTime of the last start (R230). -/
  lastStart : Option Nat := none
  deriving DecidableEq, Repr

/-- A request of a unit behind node 0xC0 that awaits its reply, by what it was for. -/
inductive UnitOp where
  /-- A result write of a chunk to a member (R236). -/
  | result (group seq chunk member : Nat)
  /-- A completion record (R237). -/
  | record (group seq member : Nat)
  /-- A completion signal (R237). -/
  | signal (group seq member : Nat)
  /-- The completion record of a refused descriptor (Table 9-5). -/
  | refusal
  /-- An exchange message between hubs, whose answer is not acted on (R238). -/
  | exchange
  /-- A firing message (R259). -/
  | firing (r : Retry)
  deriving DecidableEq, Repr

/-- A request of a unit behind node 0xC0 that has been answered and not yet acted on. -/
structure UnitAnswer where
  /-- What it was for. -/
  op : UnitOp
  /-- STATUS. -/
  status : Nat
  /-- DETAIL. -/
  detail : Nat
  /-- DeviceTime of the answer. -/
  time : Nat
  deriving DecidableEq, Repr

/-- The collective unit (R224-R250). -/
structure Coll where
  /-- Groups defined, by number 0-4,095 (R224); reset UNDEFINED. -/
  groups : FMap Group := []
  /-- Next order of first descriptors (R230; the model's own numbering); reset 0. -/
  nextOrder : Nat := 0
  /-- Requests of the units behind node 0xC0 that await a reply, by tag; reset none. -/
  unitOps : FMap UnitOp := []
  /-- Those answered and not yet acted on, oldest first (the model's own, log entry 12); reset none. -/
  answers : List UnitAnswer := []
  /-- Requests the units behind node 0xC0 have issued and that have not yet entered, oldest first (the model's own, log entry
  12); reset none. -/
  outbox : List Req := []
  /-- Next tag of those requests (the model's own numbering, log entry 12); reset 0. -/
  nextTag : Nat := 0
  /-- COLL_ABORT_RESULT.STATUS, 8 bits (R246); reset 0 (R469). -/
  abortStatus : Nat := 0
  /-- Staging bytes reserved, by plot (R234); reset 0. -/
  reserved : FMap Nat := []
  deriving DecidableEq, Repr

/-- A Tilth test record (Table 11-5). -/
structure TilthTest where
  /-- TARGET: 1 TE, 2 VE, 3 ME, 4 sequencer, 5 switch tile. -/
  target : Nat
  /-- SHORT: also suited to bring-up (R399). -/
  short : Bool
  /-- PROGOFF and PROGLEN: the program image, or a tile's pattern. -/
  prog : Nat × Nat
  /-- INOFF and INLEN: the input data. -/
  input : Nat × Nat
  /-- EXPOFF and NEXP: the expected check values. -/
  expect : Nat × Nat
  /-- MAXTIME, µs. -/
  maxTime : Nat
  deriving DecidableEq, Repr

/-- A loaded Tilth set (R293, R294). -/
structure TilthSet where
  /-- SETID. -/
  setId : Nat
  /-- SEQUENCE. -/
  seq : Nat
  /-- TilthSetDigest, 64 bytes. -/
  digest : List Byte
  /-- Tests. -/
  tests : List TilthTest
  /-- The image, as the Tilth store holds it (R294). -/
  image : List Byte
  deriving DecidableEq, Repr

/-- A Tilth test that runs (R295): target core or 64 + tile, next test, and whether it has failed once. -/
structure TilthRun where
  /-- Core 0-63, or 64 + port tile. -/
  target : Nat
  /-- Test index. -/
  test : Nat
  /-- The tensor engine a TE test runs on; 0 for the other tests. -/
  te : Nat := 0
  /-- DeviceTime at which the test began. -/
  since : Nat
  /-- Whether this is the rerun after a failure (R296). -/
  again : Bool := false
  deriving DecidableEq, Repr

/-- A digest region and its last result (R297, R299). -/
structure DigestRegion where
  /-- FIRST. -/
  first : Nat := 0
  /-- COUNT. -/
  count : Nat := 0
  /-- ENABLE. -/
  enable : Bool := false
  /-- INTERVAL, s. -/
  interval : Nat := 0
  /-- PASS. -/
  pass : Nat := 0
  /-- A pass is running. -/
  running : Bool := false
  /-- Whether a pass has begun since the region was written (R297). -/
  begun : Bool := false
  /-- A write was accepted to the region since the pass began. -/
  changed : Bool := false
  /-- One of its extents was revoked since the pass began. -/
  gone : Bool := false
  /-- A block failed R279 since the pass began. -/
  failed : Bool := false
  /-- DeviceTime of the first read of the pass. -/
  start : Nat := 0
  /-- DigestResult, 96 bytes (Table 11-8). -/
  result : List Byte := List.replicate 96 0
  deriving DecidableEq, Repr

/-- The integrity unit (R270-R301). -/
structure Chk where
  /-- Transfer units under replay, with the replays made, by 2^32 x path + unit (R271); reset none. -/
  replays : FMap Nat := []
  /-- DeviceTime of the last sweep (R273); reset 0. -/
  lastSweep : Nat := 0
  /-- Scratchpad words that stay bad until written in full, as 2^18 x core + word (Table 11-1); reset none. -/
  badWords : List Nat := []
  /-- Metadata words both copies of which have failed (Table 11-1): accesses that read one fail. -/
  badMeta : List MetaWord := []
  /-- Blocks whose first reading differed and that are being read again (R279); reset none. -/
  rereads : List Nat := []
  /-- Transients of this day, by 8 x core + engine (0-3 TE, 4 VE, 5 ME, 6 sequencer) (R290); reset 0. -/
  transients : FMap Nat := []
  /-- The day of device time they are counted in (R290); reset 0. -/
  day : Nat := 0
  /-- The Tilth set loaded (R294); reset none. -/
  tilth : Option TilthSet := none
  /-- CHK_TILTH_SRC context, 16 bits; reset 0. -/
  srcCtx : Nat := 0
  /-- CHK_TILTH_SRC offset, 48 bits; reset 0. -/
  srcOff : Nat := 0
  /-- CHK_TILTH_LEN, 24 bits; reset 0. -/
  tilthLen : Nat := 0
  /-- CHK_TILTH_RESULT.STATUS; reset 0 (R469). -/
  tilthStatus : Nat := 0
  /-- CHK_TILTH_RESULT reason; reset 0. -/
  tilthReason : Nat := 0
  /-- CHK_TILTH_RESULT.DONE; reset 1 (R469). -/
  tilthDone : Bool := true
  /-- TilthLastRun 0xA032, by core, ns; reset 0. -/
  coreRun : FMap Nat := []
  /-- TilthTileLastRun 0xA033, by tile, ns; reset 0. -/
  tileRun : FMap Nat := []
  /-- Tests that run (R295); reset none. -/
  runs : List TilthRun := []
  /-- Digest regions 0-255 (R297); reset zero. -/
  regions : FMap DigestRegion := []
  deriving DecidableEq, Repr

/-- Plot states (R312). -/
inductive PlotSt where
  | empty
  | forming
  | active
  | hedged
  | removing
  deriving DecidableEq, Repr

/-- A plot (R312 to R320). -/
structure Plot where
  /-- PlotState. -/
  st : PlotSt := .empty
  /-- Rotation count, 64 bits. -/
  rot : Nat := 0
  /-- A rotation is in progress. -/
  rotating : Bool := false
  /-- DeviceTime of the REMOVE. -/
  since : Nat := 0
  /-- Requests failed at DrainTimeout during the REMOVE. -/
  drainFails : Nat := 0
  deriving DecidableEq, Repr

/-- A link key of a port (R309, R310). -/
structure LinkKey where
  /-- Link generation g. -/
  gen : Nat := 0
  /-- KEYPHASE. -/
  phase : Bool := false
  /-- Whether the current key is held. -/
  ready : Bool := false
  /-- Whether a rekey is in progress. -/
  rekey : Bool := false
  /-- The current key: 32 bytes hub-to-far, then 32 bytes far-to-hub (R309). -/
  key : List Byte := []
  /-- The key of g + 1 while the far end may not hold it yet (R310). -/
  next : Option (List Byte) := none
  /-- The key of the old phase, kept until its frames have left the replay buffers (R310); empty when there is none. -/
  oldKey : List Byte := []
  /-- Frames still in the replay buffers under the old phase. -/
  oldFrames : Nat := 0
  /-- Hub-to-far frame counter, 64 bits. -/
  txCount : Nat := 0
  /-- Far-to-hub frame counter, 64 bits: one above the highest COUNTER accepted under the far end's phase (R310). -/
  rxCount : Nat := 0
  /-- KEYPHASE of the last sequenced frame accepted from the far end (R310). -/
  farPhase : Bool := false
  /-- DeviceTime of the last (re)key. -/
  since : Nat := 0
  /-- DeviceTime of each tag failure in the last 1 ms (R311). -/
  tagFails : List Nat := []
  deriving DecidableEq, Repr

/-- An attestation request in progress (R321). -/
structure Attest where
  /-- Plot asked for. -/
  plot : Nat
  /-- Nonce, 64 bytes. -/
  nonce : List Byte
  /-- Peer key, 56 bytes. -/
  peer : List Byte
  /-- Request number q. -/
  num : Nat
  deriving DecidableEq, Repr

/-- A tenant session key (R322). -/
structure TenantKey where
  /-- Report number. -/
  num : Nat
  /-- Plot. -/
  plot : Nat
  /-- Nonce of the report. -/
  nonce : List Byte
  /-- K, 32 bytes (R321). -/
  key : List Byte
  /-- DeviceTime of the report. -/
  since : Nat
  deriving DecidableEq, Repr

/-- A transfer area of the tier 3 pair record with the reserved lines that follow (R308). -/
inductive PairArea where
  /-- Cleared. -/
  | empty
  /-- What a hub without a slot of its own asks with: its signed X448 public key (170 bytes) and its certificate chain (step 3). -/
  | ask (pub chain : List Byte)
  /-- What a holding hub gives: the wrapped secret (40 bytes), and its X448 public key (step 4). -/
  | grant (wrapped pub : List Byte)
  deriving DecidableEq, Repr
/-- A slot of the tier 3 pair record (Table 12-3). -/
structure PairSlot where
  /-- Hub serial, 16 bytes; empty: the slot is free. -/
  serial : List Byte := []
  /-- Wrapped PS, 40 bytes; empty: none. -/
  wrapped : List Byte := []
  /-- Transfer area. -/
  area : PairArea := .empty
  deriving DecidableEq, Repr
/-- The tier 3 pair record (Table 12-3). -/
structure PairRec where
  /-- PAIRCOUNT, 32 bits. -/
  count : Nat := 0
  /-- SLOT0. -/
  slot0 : PairSlot := {}
  /-- SLOT1. -/
  slot1 : PairSlot := {}
  deriving DecidableEq, Repr

/-- The key and isolation unit (R302-R324). -/
structure Key where
  /-- Plots 0-8 (R312); reset plot 0 ACTIVE with rotation count 1, plots 1-8 EMPTY. -/
  plots : FMap Plot := [(0, { st := .active, rot := 1 })]
  /-- Generation tags of the frames that are not CLEAR, 16 bits (R306); reset none (every frame CLEAR). -/
  frameGen : FMap Nat := []
  /-- Extent rotations of tier 3 extents (R307, R315); reset 0. -/
  extRot : FMap Nat := []
  /-- The tier 3 pair record in the device's reserved capacity (R307, Table 12-3); reset empty (log entry 4). -/
  pair : PairRec := {}
  /-- The pair secret PS, 32 bytes, as this hub has unwrapped or created it (R307); reset empty. -/
  pairSecret : List Byte := []
  /-- The X448 private key of this hub's request for the pair secret, 56 bytes (R308, steps 3 and 5); reset empty. -/
  pairPriv : List Byte := []
  /-- Tier3PairState 0x9031.01: 0 none, 1 paired, 2 waiting for partner, 3 failed; reset 0. -/
  pairState : Nat := 0
  /-- Link keys by port (R309); reset none. -/
  links : FMap LinkKey := []
  /-- KEY_PLOT_RESULT.STATUS; reset 0 (R469). -/
  plotStatus : Nat := 0
  /-- KEY_PLOT_RESULT.DONE; reset 1 (R469). -/
  plotDone : Bool := true
  /-- KEY_ATTEST_SRC context and offset; reset 0. -/
  attSrcCtx : Nat := 0
  /-- KEY_ATTEST_SRC offset; reset 0. -/
  attSrcOff : Nat := 0
  /-- KEY_ATTEST_DST context; reset 0. -/
  attDstCtx : Nat := 0
  /-- KEY_ATTEST_DST offset; reset 0. -/
  attDstOff : Nat := 0
  /-- KEY_ATTEST_RESULT.STATUS; reset 0 (R469). -/
  attStatus : Nat := 0
  /-- KEY_ATTEST_RESULT.DONE; reset 1 (R469). -/
  attDone : Bool := true
  /-- KEY_ATTEST_RESULT.LEN; reset 0. -/
  attLen : Nat := 0
  /-- Request in progress on the dictionary path; reset none. -/
  attDict : Option Attest := none
  /-- Request in progress on the register path; reset none. -/
  attReg : Option Attest := none
  /-- AttestNonce as written, 64 bytes; reset empty. -/
  attNonce : List Byte := []
  /-- AttestPeerKey as written, 56 bytes; reset empty. -/
  attPeer : List Byte := []
  /-- AttestReport 0x9300.05; reset empty. -/
  report : List Byte := []
  /-- Reports made since the start, q of Table 12-1; reset 0. -/
  attCount : Nat := 0
  /-- Tenant session keys, oldest first, at most 16 (R322); reset none. -/
  tenants : List TenantKey := []
  /-- DebugState 0x9400.01; reset 0. -/
  debug : Bool := false
  /-- Draw number of this start: N and DebugChallenge 0x9400.02 are the fresh values of this draw (log entry 7); reset 0. -/
  start : Nat := 0
  /-- KEY_DEBUG_RESULT.STATUS; reset 0 (R469). -/
  debugStatus : Nat := 0
  deriving DecidableEq, Repr

/-- Port states (Table 13-3). -/
inductive PortSt where
  | down
  | training
  | aligning
  | identifying
  | active
  | degraded
  | dormant
  | fallow
  deriving DecidableEq, Repr

/-- PortState code (Table 13-3). -/
def PortSt.code : PortSt → Nat
  | .down => 0
  | .training => 1
  | .aligning => 2
  | .identifying => 3
  | .active => 4
  | .degraded => 5
  | .dormant => 6
  | .fallow => 7

/-- What the hub sends in a sequenced link frame (R336, R338). -/
inductive LinkItem where
  | request (r : Req)
  | reply (r : Reply)
  /-- An IDENT with its 64-byte body (Table 13-10). -/
  | ident (body : List Byte)
  /-- Part of a KEYX exchange: the hub's X448 public key, its signature and its certificate chain, 2,304 bytes a frame (R309). -/
  | keyx (part : List Byte)
  | dormant
  deriving DecidableEq, Repr

/-- A sequenced frame in a replay buffer (R338), kept as it was encrypted: with the key phase and the frame counter it was sent under (R310). -/
structure SentFrame where
  /-- SEQ, 12 bits. -/
  seq : Nat
  /-- Bytes it takes. -/
  bytes : Nat
  /-- What it carries. -/
  item : LinkItem
  /-- KEYPHASE. -/
  phase : Bool := false
  /-- COUNTER. -/
  counter : Nat := 0
  deriving DecidableEq, Repr

/-- Credits by request class, in cells (R55, R56, R66). -/
structure Credits where
  /-- MEM. -/
  mem : Nat := 0
  /-- SIG. -/
  sig : Nat := 0
  /-- MSG. -/
  msg : Nat := 0
  /-- RED. -/
  red : Nat := 0
  deriving DecidableEq, Repr

/-- A port (R331 to R349). -/
structure Port where
  /-- PortState. -/
  st : PortSt := .down
  /-- Enabled: trains when light returns (R345). -/
  enabled : Bool := false
  /-- PortFallowReason. -/
  reason : Nat := 0
  /-- PortPeerIdentity, 64 bytes, kept when the port becomes ACTIVE. -/
  peer : List Byte := []
  /-- The last IDENT received, while it is compared. -/
  ident : List Byte := []
  /-- Whether the link-key exchange of this identification has succeeded (R309). -/
  keyed : Bool := false
  /-- DeviceTime since which the port waits on PLANID, and whether PORT_PLAN_WAIT has been raised (R347). -/
  planWait : Option Nat := none
  /-- Whether PORT_PLAN_WAIT has been raised for this wait. -/
  planRaised : Bool := false
  /-- DeviceTime of the last IDENT sent. -/
  identSent : Nat := 0
  /-- DeviceTime of entering TRAINING (R331). -/
  trainSince : Nat := 0
  /-- Returns to TRAINING so far (R331). -/
  returns : Nat := 0
  /-- DeviceTime of the DORMANT command, while records drain (R335). -/
  dormantSince : Option Nat := none
  /-- Whether the lanes have been powered down after DORMANT. -/
  settled : Bool := false
  /-- Whether the far end's DORMANT frame has arrived. -/
  farDormant : Bool := false
  /-- Whether power shedding holds the port DORMANT (R425). -/
  shed : Bool := false
  /-- Whether the port is held FALLOW from the moment it reaches IDENTIFYING, its tile having failed its known answers (Table 16-6). -/
  katHeld : Bool := false
  /-- Whether a wake sequence runs (R335). -/
  waking : Bool := false
  /-- A link retrain in progress: its start and cause, 0 NAK limit, 1 acknowledgement stall (R341). -/
  retrain : Option (Nat × Nat) := none
  /-- Consecutive NAKs of one SEQ (R341). -/
  naks : Nat := 0
  /-- SEQ of the last frame sent, 12 bits (R338). -/
  txSeq : Nat := 0
  /-- ACKSEQ: last of our SEQ the far end accepted. -/
  ackSeq : Nat := 0
  /-- DeviceTime at which ackSeq last advanced or the replay buffer was last empty (R341). -/
  ackTime : Nat := 0
  /-- SEQ of the last frame accepted from the far end. -/
  rxSeq : Nat := 0
  /-- Whether a NAK is outstanding toward the far end (R338). -/
  nakSent : Bool := false
  /-- LINK frames sent with NAK for the SEQ that is missing (R341). -/
  naksOut : Nat := 0
  /-- Replay buffer: frames sent and not acknowledged, oldest first (R338). -/
  replay : List SentFrame := []
  /-- Items that wait for room in the replay buffer or for the end of a retrain, oldest first (R338, R341). -/
  held : List LinkItem := []
  /-- Request cells freed since ACTIVE, sent in LINK frames (R339). -/
  freed : Credits := {}
  /-- What the last LINK frame sent said of them (R339). -/
  freedSent : Credits := {}
  /-- Cells the far end has freed since ACTIVE, as last received (R339). -/
  farFreed : Credits := {}
  /-- RXLOCK of the last LINK frame received (Table 13-6). -/
  farLock : Nat := 0
  /-- DeviceTime since which RXLOCK has shown each lane unlocked (R342). -/
  farDark : FMap Nat := []
  /-- DeviceTime of each uncorrectable codeword of the last 1 ms, by lane (R342). -/
  badCodes : FMap (List Nat) := []
  /-- Credits the hub holds toward the far end (R56). -/
  credits : Credits := {}
  /-- DeviceTime of the last LINK frame sent (R339). -/
  linkSent : Nat := 0
  /-- Lanes dealt blocks, by lane number (R327). -/
  dealt : List Nat := []
  /-- Blocks of frames dealt since the link came up (R327). -/
  blockNo : Nat := 0
  /-- Block slots of each lane since the link came up, in eighths: a KCLK cycle of 2 ns has 25 (R327, R329). -/
  slots : Nat := 0
  /-- The elastic buffer of each receiving lane, oldest block first (R329). -/
  elastic : FMap (List Block) := []
  /-- PortEyeSummary: per lane width, height, eye (R346). -/
  eyes : FMap (Nat × Nat × Nat) := []
  deriving DecidableEq, Repr

/-- Lane circuit states (Table 13-2). -/
inductive LaneSt where
  | off
  | dormant
  | training
  | active
  | idleFill
  deriving DecidableEq, Repr

/-- A lane circuit (R325, Table 13-13). -/
structure Lane where
  /-- STATE. -/
  st : LaneSt := .off
  /-- CDR. -/
  cdr : Bool := false
  /-- EQDONE. -/
  eq : Bool := false
  /-- ALOCK. -/
  alock : Bool := false
  /-- RETIRED. -/
  retired : Bool := false
  /-- POSITION, 0x3F none. -/
  pos : Nat := 0x3F
  /-- LANE found in LANEID. -/
  lane : Nat := 0
  /-- SLIP, modulo 5,440. -/
  slip : Nat := 0
  /-- How far the lane's codeword counter lags DeviceTime in codewords, modulo 256, for the deskew (R333). -/
  skew : Nat := 0
  /-- Whether the lane failed and is not dealt blocks (R342). -/
  failed : Bool := false
  /-- The circuit whose place this spare is joining (R344). -/
  joining : Option Nat := none
  deriving DecidableEq, Repr

/-- Optical measures of one position and their levels, 0 GOOD, 1 WARN, 2 ALARM, 3 LOS (Table 13-12). -/
structure Opt where
  /-- Received power, 0.01 dBm. -/
  rx : Int := 0
  /-- Back-reflection, 0.01 dB. -/
  refl : Int := 0
  /-- Transmit power, 0.01 dBm. -/
  tx : Int := 0
  /-- Level of the received power. -/
  rxLevel : Nat := 0
  /-- Level of the back-reflection. -/
  reflLevel : Nat := 0
  /-- Level of the transmit power. -/
  txLevel : Nat := 0
  deriving DecidableEq, Repr

/-- The fields of PORT_EYE_CMD (Table 13-14). -/
structure EyeCmd where
  /-- LANES. -/
  lanes : Nat := 0
  /-- PHASE. -/
  phase : Nat := 0
  /-- VOLT. -/
  volt : Nat := 64
  /-- EYE. -/
  eye : Nat := 0
  /-- DWELL. -/
  dwell : Nat := 24
  deriving DecidableEq, Repr

/-- An eye point in progress (R346): circuits, phase, voltage, eye, dwell and DeviceTime of its start. -/
structure EyeRun where
  /-- Lane mask. -/
  mask : Nat
  /-- Phase. -/
  phase : Nat
  /-- Voltage. -/
  volt : Nat
  /-- Eye. -/
  eye : Nat
  /-- Dwell. -/
  dwell : Nat
  /-- DeviceTime of the start. -/
  start : Nat
  deriving DecidableEq, Repr

/-- The port complex (R325-R351). -/
structure Ports where
  /-- Ports 0-127 (R331); reset DOWN. -/
  ports : FMap Port := []
  /-- Lane circuits that differ from their reset, by 34 x engine + circuit (R325); reset Table 13-13. -/
  lanes : FMap Lane := []
  /-- Optical measures by 32 x engine + position (R343); reset 0. -/
  opts : FMap Opt := []
  /-- Laser inputs by 2 x engine + fibre: power and level (R326); reset 0. -/
  lasers : FMap (Int × Nat) := []
  /-- PORT_CMD_RESULT.STATUS by engine (R332); reset 0 (R469). -/
  cmdStatus : FMap Nat := []
  /-- Eye points in progress, by engine: circuits, phase, voltage, eye, dwell, start (R346); reset none. -/
  eyeRun : FMap EyeRun := []
  /-- PORT_EYE_DONE by engine (R346); reset 0. -/
  eyeDone : FMap Nat := []
  /-- PORT_EYE_RESULT by 34 x engine + circuit, 40 bits (R346); reset 0. -/
  eyeResult : FMap Nat := []
  /-- DeviceTime of the last periodic eye scan (R346); reset 0. -/
  eyeScanned : Nat := 0
  /-- Slips that the firmware's align agent has made since each group's search began (R334); reset 0. -/
  slips : FMap Nat := []
  /-- DeviceTime of its last slip, by group (R334); reset 0. -/
  slipAt : FMap Nat := []
  /-- PORT_EYE_CMD by engine (Table 13-14); reset VOLT 64 and DWELL 24, the other fields 0. -/
  eyeCmd : FMap EyeCmd := []
  /-- DeviceTime of the last optical poll, by engine (R343); reset 0. -/
  optPolled : FMap Nat := []
  deriving DecidableEq, Repr

/-- A doorbell (Table 14-5): TYPE, the instance it stands for (the watch of a WATCH doorbell, else 0), ARG and TIME. -/
structure Doorbell where
  /-- TYPE. -/
  kind : Nat
  /-- The watch of a WATCH doorbell; 0 for every other type. -/
  key : Nat
  /-- ARG. -/
  arg : Nat
  /-- TIME. -/
  time : Nat
  deriving DecidableEq, Repr

/-- Companion states (`CompanionState`). -/
inductive CompSt where
  | absent
  | attached
  | lost
  deriving DecidableEq, Repr

/-- The Lania interface and its doorbells (R352-R359). -/
structure Lania where
  /-- Whether the link is trained (R352); reset down until LANIA_LINK_TRAINED. -/
  up : Bool := false
  /-- Whether the link has trained in this start (R358); reset no. -/
  trained : Bool := false
  /-- LaniaWidth 0x2040.03 (R352); reset 16. -/
  width : Nat := 16
  /-- Lanes that have lost lock since the link last trained at 16 lanes (R352); reset none. -/
  badLanes : List Nat := []
  /-- CompanionState 0x2040.02; reset 0. -/
  comp : CompSt := .absent
  /-- DeviceTime of the last heartbeat of this start, once one has been written (R357); reset none. -/
  beat : Option Nat := none
  /-- The value last written to DBQ_HEARTBEAT, 64 bits; reset 0. -/
  beatValue : U64 := 0
  /-- DeviceTime of the loss (R358); reset 0. -/
  lostSince : Nat := 0
  /-- DBQ_RING_BASE.ENABLE; reset 0. -/
  enable : Bool := false
  /-- DBQ_RING_BASE address, bits [63:14]; reset 0. -/
  base : Nat := 0
  /-- DBQ_RING_PROD next slot, 10 bits; reset 0. -/
  prod : Nat := 0
  /-- PHASE of the next record (R355); reset 1. -/
  phase : Bool := true
  /-- DBQ_RING_PROD.PHASE: PHASE of the last record written (log entry 16); reset 0. -/
  last : Bool := false
  /-- DBQ_RING_CONS, 10 bits; reset 0. -/
  cons : Nat := 0
  /-- Type and instance of the unconsumed records, oldest first (R355); reset none. -/
  unread : List (Nat × Nat) := []
  /-- Doorbells that wait on chip, in the order their entries were made (R355); reset none. -/
  waiting : List Doorbell := []
  /-- DMA requests of the host that are not over, at most 1,024, in issue order: the pieces of each that have not entered the hub (R353);
  reset none. -/
  dmas : List (List Req) := []
  deriving DecidableEq, Repr

/-- A CXL port (R360-R363). -/
structure CxlPort where
  /-- CxlPortState 0x6400: 0 down, 1 in service, 2 held out; reset 0. -/
  st : Nat := 0
  /-- CxlDeviceSerial 0x6401, 8 bytes; reset zero. -/
  serial : List Byte := List.replicate 8 0
  /-- Capacity in bytes the device reported (R121, R362); reset 0. -/
  capacity : Nat := 0
  /-- Whether the port has been lost and not come back (R145); reset no. -/
  lost : Bool := false
  /-- DeviceTime of the last retraining (R363); reset 0. -/
  tried : Nat := 0
  deriving DecidableEq, Repr

/-- A dynamic-capacity exchange in progress at the tier 3 device (R364). -/
structure CapOp where
  /-- Extent. -/
  ext : Nat
  /-- 0 ADOPT, 1 ADOPT with FORCE, 2 RELEASE. -/
  kind : Nat
  /-- PLOT, OWNER, GRANTALL, GRANTLIST, ROLE of an ADOPT. -/
  plot : Nat := 0
  /-- OWNER. -/
  owner : Nat := 0
  /-- GRANTALL. -/
  grantAll : Nat := 0
  /-- GRANTLIST. -/
  grantList : Nat := 0
  /-- ROLE. -/
  role : Nat := 0
  /-- VERSIONED. -/
  versioned : Bool := false
  deriving DecidableEq, Repr

/-- The CXL ports and the tier 3 device (R360-R365). -/
structure Cxl where
  /-- Ports 0-3; reset down. -/
  ports : FMap CxlPort := []
  /-- Whether tier 3 is held out of service because the serials of ports 2 and 3 differ (R362); reset no. -/
  split : Bool := false
  /-- Dynamic-capacity exchanges in progress (R364); reset none. -/
  ops : List CapOp := []
  /-- Tier 3 extents whose capacity the device holds for this hub's own heads (R443, R444); reset none. -/
  owned : List Nat := []
  /-- The version tables the device's metadata keeps of tier 3 extents this hub does not hold (R443); reset none. -/
  kept : FMap DevTable := []
  deriving DecidableEq, Repr

/-- An ADP response or a message the hub sends (R369, Table 15-2). -/
structure AdpResp where
  /-- TYPE (Table 15-3). -/
  typ : Nat
  /-- RESPONSE. -/
  response : Bool := true
  /-- SESSION. -/
  session : Nat
  /-- SEQ. -/
  seq : Nat
  /-- RESULT (Table 15-5). -/
  result : Nat := 0
  /-- LAST. -/
  last : Bool := false
  /-- INDEX. -/
  index : Nat := 0
  /-- SUB. -/
  sub : Nat := 0
  /-- OFFSET. -/
  off : Nat := 0
  /-- Whether it carries a KMAC256 tag (R369, R372, R373). -/
  tagged : Bool := true
  /-- The body. -/
  body : List Byte := []
  deriving DecidableEq, Repr

/-- A snapshot of a DOMAIN value that READ_BLOCK serves (R381). -/
structure Snapshot where
  /-- Index. -/
  index : Nat
  /-- Sub-index. -/
  sub : Nat
  /-- The value. -/
  data : List Byte
  /-- DeviceTime of the last READ_BLOCK. -/
  since : Nat
  deriving DecidableEq, Repr

/-- A WRITE_BLOCK transfer in progress (R381). -/
structure WriteBuf where
  /-- Index. -/
  index : Nat
  /-- Sub-index. -/
  sub : Nat
  /-- Bytes collected. -/
  data : List Byte
  /-- DeviceTime of the last block. -/
  since : Nat
  deriving DecidableEq, Repr

/-- A surface's own selectors and block transfers: a session's or the mailbox's (R380, R381, R384). -/
structure Surface where
  /-- Selector values by 256 x index + sub-index; unlisted: the object's default. -/
  sel : FMap Nat := []
  /-- Snapshots, one per object at most (R381). -/
  snaps : List Snapshot := []
  /-- Write transfer. -/
  buf : Option WriteBuf := none
  deriving DecidableEq, Repr

/-- An ADP session (R370-R374). -/
structure Session where
  /-- SESSION number. -/
  num : Nat
  /-- The plot and report of a TENANT session; none: a MANAGER session. -/
  tenant : Option (Nat × Nat) := none
  /-- EVENTS. -/
  events : Bool := false
  /-- The session key, 64 bytes (R372). -/
  key : List Byte := []
  /-- The highest SEQ accepted. -/
  lastSeq : Nat := 0
  /-- Kept responses, newest first, at most 32, by SEQ. -/
  kept : List (Nat × AdpResp) := []
  /-- Its selectors and block transfers. -/
  surf : Surface := {}
  /-- DeviceTime of the last authenticated message. -/
  heard : Nat := 0
  /-- DeviceTime of the hub's last HEARTBEAT. -/
  beat : Nat := 0
  /-- SEQ of the hub's last request in this session. -/
  hubSeq : Nat := 0
  /-- LOGSEQ of the last entry delivered. -/
  delivered : Nat := 0
  /-- The EVENT not yet acknowledged: SEQ, first and last LOGSEQ, DeviceTime of sending. -/
  event : Option (Nat × Nat × Nat × Nat) := none
  deriving DecidableEq, Repr

/-- The kept parts of a SESSION_OPEN response (R372). -/
structure KeptOpen where
  /-- Manager nonce. -/
  nonce : List Byte
  /-- SEQ. -/
  seq : Nat
  /-- The parts. -/
  parts : List AdpResp
  /-- DeviceTime of the response. -/
  since : Nat
  deriving DecidableEq, Repr

/-- An event log entry (Table 15-7); the payload is kept as its list of fields (log entry 14). -/
structure LogEntry where
  /-- LOGSEQ. -/
  seq : Nat
  /-- TIME. -/
  time : Nat
  /-- CODE. -/
  code : Nat
  /-- PAYLOAD fields. -/
  payload : List Nat
  deriving DecidableEq, Repr

/-- The object dictionary, the management segment, the event log and the mailbox (R366-R389). -/
structure Dict where
  /-- Numeric RW and RWG values that differ from their defaults, by 256 x index + sub-index (R386); reset the defaults. -/
  od : FMap Nat := []
  /-- DOMAIN and RECORD RW values as written, by 256 x index + sub-index (R386); reset the defaults. -/
  odBytes : FMap (List Byte) := []
  /-- U64 counter objects 0xCxxx, by 256 x index + sub-index (R87); reset 0. -/
  counters : FMap Nat := []
  /-- Sessions, oldest first (R372); reset none. -/
  sessions : List Session := []
  /-- The last session number given (R372); reset 0. -/
  lastSession : Nat := 0
  /-- Kept SESSION_OPEN responses (R372); reset none. -/
  keptOpens : List KeptOpen := []
  /-- DeviceTime of the last pre-session HEARTBEAT (R374); reset 0. -/
  preBeat : Nat := 0
  /-- Authentication failures since ADP_AUTH_FAILED was last raised (R373); reset 0. -/
  authFails : Nat := 0
  /-- DeviceTime of the last ADP_AUTH_FAILED (R373); reset none. -/
  authRaised : Option Nat := none
  /-- Whether a BEACON has been seen within the last 100 ms (R367); reset no. -/
  beacon : Bool := false
  /-- DeviceTime of the last BEACON (R367); reset 0. -/
  beaconTime : Nat := 0
  /-- The event log, newest first, at most 65,536 entries (R382); reset empty. -/
  log : List LogEntry := []
  /-- LogSequence 0xD000.01 (R382); reset 0. -/
  logSeq : Nat := 0
  /-- LogAckSequence 0xD000.02 (R383); reset 0. -/
  logAck : Nat := 0
  /-- LogLost 0xD000.03 (R383); reset 0. -/
  logLost : Nat := 0
  /-- DeviceTime of the last LOG_LOSS (R383); reset none. -/
  lossRaised : Option Nat := none
  /-- Entries lost since the last LOG_LOSS (R383); reset 0. -/
  lossCount : Nat := 0
  /-- Events held while the management core restarts, oldest first, at most 1,024: time, code, payload (R300); reset none. -/
  holding : List (Nat × Nat × List Nat) := []
  /-- DICT_MB_INDEX, 24 bits (R384); reset 0. -/
  mbIndex : Nat := 0
  /-- DICT_MB_RESULT ADP result, 16 bits; reset 0 (R469). -/
  mbResult : Nat := 0
  /-- DICT_MB_RESULT.DONE; reset 1 (R469). -/
  mbDone : Bool := true
  /-- DICT_MB_RESULT.LAST; reset 0. -/
  mbLast : Bool := false
  /-- DICT_MB_RESULT LEN returned, 13 bits; reset 0. -/
  mbLen : Nat := 0
  /-- DICT_MB_SEQ, 32 bits; reset 0. -/
  mbSeq : Nat := 0
  /-- DICT_MB_DATA, 4,096 bytes; reset zero (log entry 5). -/
  mbData : List Byte := List.replicate 4096 0
  /-- The mailbox's selectors and block transfers (R384); reset the defaults. -/
  mb : Surface := {}
  /-- A mailbox command held while the management core restarts: OP, LAST, LEN, OFFSET (Table 16-12); reset none. -/
  mbHeld : Option (Nat × Bool × Nat × Nat) := none
  /-- DICT_MIRROR_REFUSAL: ADP result, 16 bits (R385); reset 0. -/
  mirResult : Nat := 0
  /-- DICT_MIRROR_REFUSAL: window offset, 26 bits (R385); reset 0. -/
  mirOff : Nat := 0
  deriving DecidableEq, Repr

/-- Device states (Table 16-1); `starting` is the time between a reset and ISLAND, while the boot ROM reads the fuse map. -/
inductive DevSt where
  | off
  | starting
  | island
  | loaded
  | measured
  | clocked
  | powered
  | trained
  | verified
  | service
  | recovery
  | faulted
  deriving DecidableEq, Repr

/-- DeviceState code (Table 16-1); OFF and the time before ISLAND have none. -/
def DevSt.code : DevSt → Nat
  | .off => 0
  | .starting => 0
  | .island => 1
  | .loaded => 2
  | .measured => 3
  | .clocked => 4
  | .powered => 5
  | .trained => 6
  | .verified => 7
  | .service => 8
  | .recovery => 9
  | .faulted => 10

/-- A boot command in progress (R391): its code, and the outcome it will report when it completes. -/
structure BootRun where
  /-- Command code (Table 16-2). -/
  cmd : Nat
  /-- State the command reaches. -/
  next : DevSt
  /-- STATUS. -/
  status : Nat := 0
  /-- DETAIL. -/
  detail : Nat := 0
  deriving DecidableEq, Repr

/-- A reset that runs (R403): CORE, CLUSTER, PLOT, or a DEVICE reset that drains. -/
inductive RstRun where
  /-- A core reset; `hub` when the hub issued it, and whether an engine failure caused it (R220). -/
  | core (c : Nat) (hub failed : Bool)
  | cluster (k : Nat)
  | plot (n : Nat)
  | device
  deriving DecidableEq, Repr

/-- The boot, reset and retraining state (R390-R413) and the board pins (R455). -/
structure Boot where
  /-- DeviceState 0x2000.01; reset ISLAND (log entry 3). -/
  st : DevSt := .island
  /-- DeviceFaultCause 0x2000.0B; reset 0. -/
  cause : Nat := 0
  /-- The boot command in progress; BOOT_STATE.BUSY is its presence; reset none. -/
  run : Option BootRun := none
  /-- BOOT_RESULT.STATUS; reset 0 (R469). -/
  resStatus : Nat := 0
  /-- BOOT_RESULT.DETAIL; reset 0. -/
  resDetail : Nat := 0
  /-- BOOT_RESULT.DONE; reset 1 (R469). -/
  resDone : Bool := true
  /-- BOOT_IMG_LEN, 27 bits; reset 0 (log entry 5). -/
  imgLen : Nat := 0
  /-- Image bytes that LOAD took from BOOT_IMG_LEN (R393); reset 0. -/
  imgBytes : Nat := 0
  /-- BOOT_POWER_MASK, 36 bits; reset all 36 domains (R396). -/
  mask : Nat := 0xFFFFFFFFF
  /-- FirmwareDigest 0x2000.06 and BOOT_FW_DIGEST, 64 bytes; reset zero. -/
  digest : List Byte := List.replicate 64 0
  /-- FirmwareSequence 0x2000.07, 32 bits; reset 0. -/
  fwSeq : Nat := 0
  /-- The image store, 64 MiB, by byte offset (R392); reset cleared (R407). -/
  image : FMap Byte := []
  /-- SHAKE256 of the MGMT section taken at MEASURE (R412); reset empty. -/
  mgmtDigest : List Byte := []
  /-- Offset and length of the MGMT section (R412); reset none. -/
  mgmtSect : Option (Nat × Nat) := none
  /-- PoweredDomains 0x2000.09, 36 bits (R396); reset 0. -/
  powered : Nat := 0
  /-- Domains that have missed regulation once in their stage (R397); reset none. -/
  retried : List Nat := []
  /-- Domains that have failed twice in POWER (Table 16-5); reset none. -/
  failedDomains : List Nat := []
  /-- RST_RESULT.STATUS; reset 0 (R469). -/
  rstStatus : Nat := 0
  /-- RST_RESULT.DONE; reset 1 (R469). -/
  rstDone : Bool := true
  /-- The reset that runs (R403); reset none. -/
  rst : Option RstRun := none
  /-- DeviceTime at which the running reset began (Table 16-16); reset 0. -/
  rstSince : Nat := 0
  /-- `ResetReplyDiscards` when the running reset began (Table 16-16); reset 0. -/
  rstBase : Nat := 0
  /-- Hub-issued core resets that wait for the running one, oldest first: core, engine failure (R403); reset none. -/
  rstQueue : List (Nat × Bool) := []
  /-- Clusters whose spare core has been taken or has failed its known answers: CoreSparesLeft 0x2000.0A is the fuse map's
  less these (R220, R399; log entry 8); reset none. -/
  sparesGone : List Nat := []
  /-- The HBM retraining of each stack in progress, by stack: pseudo-channel, steps done, whether it has failed once (R409); reset none. -/
  retrain : FMap (Nat × Nat × Bool) := []
  /-- DeviceTime and stack temperature at each pseudo-channel's last training, by 32 x stack + channel (R409); reset 0. -/
  trained : FMap (Nat × Int) := []
  /-- Whether the management core restarts (R412); reset no. -/
  mgmtDown : Bool := false
  /-- DeviceTime at which the restart began (R412); reset 0. -/
  mgmtSince : Nat := 0
  /-- Whether only the boot ROM's agent runs because the image is damaged (R412); reset no. -/
  damaged : Bool := false
  /-- RESTARTED of the pre-session HEARTBEAT (R375); reset 0. -/
  restarted : Bool := false
  /-- ManagementRestarts 0x2000.04 (R375); reset 0. -/
  restarts : Nat := 0
  /-- PWR_GOOD, high at reset (log entry 3). -/
  pwrGood : Bool := true
  /-- RESET_N is high (log entry 3). -/
  resetN : Bool := true
  /-- CAP_ALERT_N is asserted (low); reset no: BoardSignals default 0. -/
  capAlert : Bool := false
  /-- TRAY_PRESENT_N is low: the tray is seated (R458); reset no: BoardSignals default 0. -/
  tray : Bool := false
  /-- WAKE is high (R459); reset no. -/
  wake : Bool := false
  /-- FAULT_N is driven low (R455); reset no. -/
  fault : Bool := false
  /-- The root PLL is locked (R414); at reset it is (log entry 3). -/
  pll : Bool := true
  /-- RailVoltage 0xB201, mV, by rail 0-10; reset 0. -/
  rails : FMap Nat := []
  deriving DecidableEq, Repr

/-- Power, throttle, temperature and the time base (R414-R435). -/
structure Power where
  /-- ThrottleDivider D (R419); reset 2. -/
  div : Nat := 2
  /-- ThrottleDuty d (R419); reset 16. -/
  duty : Nat := 16
  /-- The clamp of R423 holds; reset no. -/
  clampAlert : Bool := false
  /-- The clamp of R429 holds; reset no. -/
  clampHot : Bool := false
  /-- The Harrow's background work is paused (R423); reset no. -/
  paused : Bool := false
  /-- Port groups shed, in the order they were shed, each with the watts it saved (R425); reset none. -/
  shed : List (Nat × Nat) := []
  /-- DomainPower 0xB011.02, W, by domain bit; reset 0. -/
  domain : FMap Nat := []
  /-- MeasuredPower 0xB011.01, W; reset 0. -/
  measured : Nat := 0
  /-- The thermal cap while one is in force, W (R428); reset none. -/
  thermalCap : Option Nat := none
  /-- DeviceTime of the last step of the thermal cap (R428); reset 0. -/
  thermalStep : Nat := 0
  /-- DeviceTime since which measured power has been at least 5 % below the effective cap (R420); reset none. -/
  belowSince : Option Nat := none
  /-- DeviceTime of the latest change that calls for a plan (R424); reset none. -/
  planSince : Option Nat := none
  /-- A throttle the plan calls for and that waits to be raised (R420); reset none. -/
  raiseTo : Option (Nat × Nat) := none
  /-- JunctionTemperature 0xB111, 0.01 degrees, by sensor 0-39; reset 0. -/
  temps : FMap Int := []
  /-- DeviceTime of the last temperature sample (R427); reset 0. -/
  tempTime : Nat := 0
  /-- DeviceTime since which a sensor has read 110 degrees or more, by sensor (R430); reset none. -/
  hotSince : FMap Nat := []
  /-- Clusters that have powered on for a plot and run their known answers (R417); reset none. -/
  testing : List Nat := []
  /-- DeviceTime since which a powered cluster has had no core in a plot, by cluster (R417); reset none. -/
  idleSince : FMap Nat := []
  deriving DecidableEq, Repr

/-- The time base (R432-R434). -/
structure Time where
  /-- DeviceTime 0x2000.02, ns, 64 bits; reset 0. -/
  now : Nat := 0
  /-- Rate correction, in units of 1/1,000 ppm (R433); reset 0. -/
  rate : Int := 0
  /-- Part of a nanosecond carried by the rate correction, in 10^-9 ns (R433); reset 0. -/
  frac : Int := 0
  /-- TimeOffset 0xB120.05, ns (R433); reset 0. -/
  offset : Int := 0
  /-- TimeLocked 0xB120.06; reset FALSE. -/
  locked : Bool := false
  /-- Consecutive exchanges with an offset of 10 ns or less (R434); reset 0. -/
  good : Nat := 0
  /-- Exchanges missed in a row (R434); reset 0. -/
  missed : Nat := 0
  /-- DeviceTime at which the last exchange began (R433: once per millisecond); reset none. -/
  last : Option Nat := none
  /-- The exchange in progress: sequence number and t1 (R433); reset none. -/
  exch : Option (Nat × Nat) := none
  /-- Sequence number of the last request (R433); reset 0. -/
  seq : Nat := 0
  deriving DecidableEq, Repr

/-- What the block sends to the outside (the model's own trace, log entry 12). -/
inductive Output where
  /-- A sequenced link frame on a port (R338), and the number of its first block in the port's dealing (R327). -/
  | link (p : Nat) (f : SentFrame) (first : Nat)
  /-- A FILLER block on a lane of a port (R329). -/
  | filler (p lane : Nat)
  /-- A LINK frame on a port: ACKSEQ, NAK and the freed cells (R339), and the key phase and frame counter it is sent under (R310). -/
  | linkFrame (p ackSeq : Nat) (nak : Bool) (freed : Credits) (rxlock : Nat) (phase : Bool) (counter : Nat)
  /-- A reply or result handed to an ingress that is not a port: a core's thread, the host or a unit (R32). -/
  | reply (via : Ingress) (r : Reply)
  /-- The answer to a REG write (R353, R354): STATUS. -/
  | regAck (status : Nat)
  /-- The answer of a REG read (R354). -/
  | regRead (status : Nat) (v : Nat)
  /-- The answer of a host DBL read of a ring (R353). -/
  | dbl (status : Nat) (data : List Byte)
  /-- The answer to a host DMA request (R392): STATUS and data. -/
  | dma (status : Nat) (data : List Byte)
  /-- The answer to a host's coherent request (R356): the line, STATUS and data. -/
  | coh (line status : Nat) (data : List Byte)
  /-- A snoop sent to the host (R163): the line; SnpInv rather than SnpData. -/
  | snoop (line : Nat) (inv : Bool)
  /-- A doorbell record written into companion memory (R355): address and its 16 bytes. -/
  | doorbell (addr : Nat) (record : List Byte)
  /-- An ADP message on the management segment (R369). -/
  | adp (m : AdpResp)
  /-- An ICMPv6 neighbour advertisement for the hub's address (R368). -/
  | neighbour (addr : List Byte)
  /-- A write into the tier 3 pair record for the partner hub (R308). -/
  | pairRecord (data : List Byte)
  deriving DecidableEq, Repr

/-- The state of the TLN-7200 as a block: every unit's registers, tables, queues and memories, the free-value counter of
the model, the trace of what it sends, and the commands that wait. -/
structure State where
  /-- Switch core, forward records, signal gate (chapters 2 and 3). -/
  sw : Switch := {}
  /-- Translation (chapter 4). -/
  xlt : Xlt := {}
  /-- The pool (chapter 5). -/
  pool : Pool := {}
  /-- Coherence (chapter 6). -/
  coh : Coh := {}
  /-- Furrow cores (chapters 7 and 8). -/
  fur : Furrow := {}
  /-- Collectives (chapter 9). -/
  coll : Coll := {}
  /-- Counters and watches (chapter 10). -/
  sync : Sync := {}
  /-- Integrity (chapter 11). -/
  chk : Chk := {}
  /-- Keys and plots (chapter 12). -/
  key : Key := {}
  /-- Ports and optics (chapter 13). -/
  ports : Ports := {}
  /-- Lania and doorbells (chapter 14). -/
  lania : Lania := {}
  /-- CXL ports and dynamic capacity (chapter 14). -/
  cxl : Cxl := {}
  /-- Dictionary, sessions, log, mailbox (chapter 15). -/
  dict : Dict := {}
  /-- Boot, reset and pins (chapters 16 and 19). -/
  boot : Boot := {}
  /-- Power and temperature (chapter 17). -/
  power : Power := {}
  /-- The time base (chapter 17). -/
  time : Time := {}
  /-- Pool memory by physical address (Table 5-2); an unlisted byte reads 0 (log entry 4). -/
  mem : FMap Byte := []
  /-- Scratchpads, by 2^21 x core + offset (R201); an unlisted byte reads 0 (log entry 4). -/
  spad : FMap Byte := []
  /-- What the block has sent, newest first (the model's own, log entry 12); reset nothing. -/
  out : List Output := []
  /-- Counter that the free values of Config are applied to (the model's own, log entry 7); reset 1. -/
  free : Nat := 1
  /-- Commands that wait, first in, first out (the model's own); reset none. -/
  pending : List Instr := []
  deriving DecidableEq, Repr

/-- The block right after reset: ISLAND has been entered, PWR_GOOD and RESET_N are high, and every register, table and
queue holds the value its field names (R386, R469; log entries 3 and 5). -/
def State.reset : State := {}

end Sys2Proof.Machine
end

