-- ==== Sys2Proof/Machine/Ops.lean ====
section
/-! DEFINITION. The named operations every unit uses: status and result codes, objects of the dictionary as settings, node
numbers and plots, power domains, counters, events and the log, doorbells, and the trace of what the block sends. -/

namespace Sys2Proof.Machine

/-! Completion status codes (R51, Table 2-11). -/

abbrev St.ok : Nat := 0x00
abbrev St.portLost : Nat := 0x10
abbrev St.unreachable : Nat := 0x11
abbrev St.timeout : Nat := 0x12
abbrev St.scope : Nat := 0x13
abbrev St.malformed : Nat := 0x14
abbrev St.translation : Nat := 0x20
abbrev St.protection : Nat := 0x21
abbrev St.withdrawn : Nat := 0x22
abbrev St.revoked : Nat := 0x30
abbrev St.dataLost : Nat := 0x31
abbrev St.orphaned : Nat := 0x32
abbrev St.versionGone : Nat := 0x33
abbrev St.plotRemoved : Nat := 0x40
abbrev St.keyRetired : Nat := 0x41
abbrev St.mismatch : Nat := 0x50
abbrev St.aborted : Nat := 0x51
abbrev St.late : Nat := 0x52
abbrev St.coreReset : Nat := 0x60
abbrev St.state : Nat := 0x61
abbrev St.loadRefused : Nat := 0x62
abbrev St.check : Nat := 0x70
abbrev St.internal : Nat := 0x7F

/-! ADP result codes (R377, Table 15-5). -/

abbrev Adp.ok : Nat := 0x0000
abbrev Adp.noObject : Nat := 0x0101
abbrev Adp.noSub : Nat := 0x0102
abbrev Adp.readOnly : Nat := 0x0201
abbrev Adp.writeOnly : Nat := 0x0202
abbrev Adp.badType : Nat := 0x0301
abbrev Adp.range : Nat := 0x0302
abbrev Adp.state : Nat := 0x0401
abbrev Adp.auth : Nat := 0x0501
abbrev Adp.busy : Nat := 0x0601

/-! Updates of one unit of the state. -/

def State.onSw (f : Switch → Switch) (s : State) : State := { s with sw := f s.sw }
def State.onXlt (f : Xlt → Xlt) (s : State) : State := { s with xlt := f s.xlt }
def State.onPool (f : Pool → Pool) (s : State) : State := { s with pool := f s.pool }
def State.onCoh (f : Coh → Coh) (s : State) : State := { s with coh := f s.coh }
def State.onFur (f : Furrow → Furrow) (s : State) : State := { s with fur := f s.fur }
def State.onColl (f : Coll → Coll) (s : State) : State := { s with coll := f s.coll }
def State.onSync (f : Sync → Sync) (s : State) : State := { s with sync := f s.sync }
def State.onChk (f : Chk → Chk) (s : State) : State := { s with chk := f s.chk }
def State.onKey (f : Key → Key) (s : State) : State := { s with key := f s.key }
def State.onPorts (f : Ports → Ports) (s : State) : State := { s with ports := f s.ports }
def State.onLania (f : Lania → Lania) (s : State) : State := { s with lania := f s.lania }
def State.onCxl (f : Cxl → Cxl) (s : State) : State := { s with cxl := f s.cxl }
def State.onDict (f : Dict → Dict) (s : State) : State := { s with dict := f s.dict }
def State.onBoot (f : Boot → Boot) (s : State) : State := { s with boot := f s.boot }
def State.onPower (f : Power → Power) (s : State) : State := { s with power := f s.power }
def State.onTime (f : Time → Time) (s : State) : State := { s with time := f s.time }

/-- DeviceTime (R432). -/
def State.now (s : State) : Nat := s.time.now

/-- Send something out of the block (log entry 12). -/
def emit (o : Output) (s : State) : State := { s with out := o :: s.out }

/-- A free value: the next draw of Config's free words (log entry 7). -/
def State.draw (s : State) : U64 := Config.freeWord s.free
/-- The draw has been used. -/
def State.drawn (s : State) : State := { s with free := s.free + 1 }

/-! Settings: the numeric objects of the dictionary, by 256 x index + sub-index, with the default of the object's table. -/

/-- A numeric RW or RWG object's value (R386). -/
def cfg (key dflt : Nat) (s : State) : Nat := s.dict.od.getD key dflt

/-- HubIdentifier 0x2001.01, 0xFFFF unassigned (Table 1-2). -/
def hubIdObj (s : State) : Nat := cfg 0x200101 0xFFFF s
/-- PlaneIdentifier 0x2001.02, 0xFF unassigned (Table 1-2). -/
def planeObj (s : State) : Nat := cfg 0x200102 0xFF s
/-- The hub's own ID: 0xFF until HubIdentifier is assigned (R19). -/
def hubId (s : State) : Nat := if hubIdObj s = 0xFFFF then 0xFF else hubIdObj s % 256
/-- The node number of a local end point of this hub (R16). -/
def nodeOf (s : State) (lep : Nat) : Nat := 256 * hubId s + lep
/-- The HUB field of a node number (R16). -/
def hubOf (node : Nat) : Nat := node / 256
/-- The LEP field of a node number (R16). -/
def lepOf (node : Nat) : Nat := node % 256

/-- Whether pair (2k, 2k + 1) of a port is bonded (R15). -/
def bonded (s : State) (p : Nat) : Bool := cfg (0x310100 + p / 2 + 1) 0 s == 1
/-- The odd port of a bonded pair: not a destination (R15). -/
def oddOfBond (s : State) (p : Nat) : Bool := bonded s p && p % 2 == 1
/-- The port that names a pair: the even one of a bonded pair (R15). -/
def portName (s : State) (p : Nat) : Nat := if oddOfBond s p then p - 1 else p
/-- PortPlot of a port, 0xFF none (Table 1-2). -/
def portPlot (s : State) (p : Nat) : Nat := cfg (0x310000 + p + 1) 0xFF s

/-- A port (R331). -/
def State.port (s : State) (p : Nat) : Port := s.ports.ports.getD p {}
/-- Update a port. -/
def State.onPort (p : Nat) (f : Port → Port) (s : State) : State :=
  s.onPorts fun x => { x with ports := x.ports.set p (f (x.ports.getD p {})) }
/-- ACTIVE or DEGRADED (R18). -/
def PortSt.serves : PortSt → Bool
  | .active => true
  | .degraded => true
  | _ => false
/-- Whether a port is ACTIVE or DEGRADED (R18). -/
def portServes (s : State) (p : Nat) : Bool := (s.port p).st.serves

/-- A plot (R312). -/
def State.plot (s : State) (n : Nat) : Plot := s.key.plots.getD n {}
/-- Update a plot. -/
def State.onPlot (n : Nat) (f : Plot → Plot) (s : State) : State :=
  s.onKey fun k => { k with plots := k.plots.set n (f (k.plots.getD n {})) }
/-- PlotCores of plot n (R313). -/
def plotCores (s : State) (n : Nat) : Nat := cfg (0x911000 + n + 1) 0 s
/-- PlotWays of plot n (R313, R314). -/
def plotWays (s : State) (n : Nat) : Nat := cfg (0x911100 + n + 1) (if n = 0 then 3 else 0) s
/-- PlotChannelSets of plot n (R313, R314). -/
def plotSets (s : State) (n : Nat) : Nat := cfg (0x911200 + n + 1) (if n = 0 then 3 else 0) s
/-- The plots (R312). -/
def plotNums : List Nat := List.range 9
/-- The plot that owns a core (R24, R313). -/
def corePlot (s : State) (c : Nat) : Option Nat := plotNums.find? fun n => bitOf (plotCores s n) c
/-- The plot that owns a channel set (R313). -/
def setPlot (s : State) (k : Nat) : Option Nat := plotNums.find? fun n => bitOf (plotSets s n) k
/-- The logical cores of a plot (R313). -/
def coresOf (s : State) (n : Nat) : List Nat := (List.range 64).filter fun c => bitOf (plotCores s n) c

/-- A core (R199). -/
def State.core (s : State) (c : Nat) : Core := s.fur.cores.getD c {}
/-- Update a core. -/
def State.onCore (c : Nat) (f : Core → Core) (s : State) : State :=
  s.onFur fun x => { x with cores := x.cores.set c (f (x.cores.getD c {})) }
/-- A thread of a core (R199). -/
def Core.thread (c : Core) (t : Nat) : Thread := c.threads.getD t {}
/-- A thread of a core. -/
def State.thread (s : State) (c t : Nat) : Thread := (s.core c).thread t
/-- Update a thread. -/
def State.onThread (c t : Nat) (f : Thread → Thread) (s : State) : State :=
  s.onCore c fun x => { x with threads := x.threads.set t (f (x.thread t)) }

/-- Whether a power domain of Table 16-5 is on (R396). -/
def domainOn (s : State) (d : Nat) : Bool := bitOf s.boot.powered d
/-- Whether the central-services domain is on (Table 17-2). -/
def csOn (s : State) : Bool := domainOn s 35
/-- Whether the domain of a core's cluster is on: cluster c / 8 at mask bit 18 (Table 16-5, R200). -/
def coreOn (s : State) (c : Nat) : Bool := domainOn s (18 + c / 8)
/-- Whether the device is in SERVICE (Table 16-1). -/
def inService (s : State) : Bool := s.boot.st == .service
/-- Whether the management firmware does not run: its core restarts, or only the boot ROM's agent runs (R412). -/
def firmwareDown (s : State) : Bool := s.boot.mgmtDown || s.boot.damaged
/-- ISLAND, LOADED, MEASURED, CLOCKED or POWERED: the gate of a pre-service object (R379). -/
def preService (s : State) : Bool :=
  match s.boot.st with
  | .island => true
  | .loaded => true
  | .measured => true
  | .clocked => true
  | .powered => true
  | _ => false
/-- TRAINED, VERIFIED or SERVICE. -/
def trainedUp (s : State) : Bool :=
  match s.boot.st with
  | .trained => true
  | .verified => true
  | .service => true
  | _ => false

/-! Counters of the dictionary: 64 bits, by 256 x index + sub-index (R87). -/

/-- Add to a counter object. -/
def bump (key n : Nat) (s : State) : State :=
  s.onDict fun d => { d with counters := d.counters.set key (d.counters.getD key 0 + n) }
/-- A counter object's value. -/
def counter (s : State) (key : Nat) : Nat := s.dict.counters.getD key 0

/-! Events and the log (R382, R383, R300). -/

/-- Append an entry to the log; an unacknowledged entry that falls out of the ring is lost and counted (R382, R383). -/
def logAppend (time code : Nat) (payload : List Nat) (s : State) : State :=
  s.onDict fun d =>
    let full := decide (65536 ≤ d.log.length)
    let lost := if full && decide (d.logAck < d.logSeq + 1 - 65536) then 1 else 0
    { d with
      log := ({ seq := d.logSeq + 1, time, code, payload } :: d.log).take 65536
      logSeq := d.logSeq + 1
      logLost := d.logLost + lost
      lossCount := d.lossCount + lost }

/-- The 64 bytes of a log entry (Table 15-7). -/
def LogEntry.image (e : LogEntry) : List Byte :=
  let p := Config.eventPayload e.code e.payload
  natLe 8 e.seq ++ natLe 8 e.time ++ natLe 2 e.code ++ natLe 1 (min 40 p.length) ++ natLe 1 0 ++ natLe 4 0 ++ takePad 40 p

/-- The entries of the log with LOGSEQ at or above `start`, oldest first, at most `n` (R383). -/
def logFrom (d : Dict) (start n : Nat) : List LogEntry :=
  ((d.log.filter fun e => decide (start ≤ e.seq)).reverse).take n

/-- Send the EVENT of a session that covers the next entries, when none is unacknowledged and entries remain (R383). -/
def deliverOne (now : Nat) (d : Dict) (x : Session) : Session × List Output :=
  match x.events, x.event with
  | true, none =>
    match logFrom d (x.delivered + 1) 20 with
    | [] => (x, [])
    | e :: es =>
      let last := ((e :: es).getLast?.getD e).seq
      ({ x with event := some (x.hubSeq + 1, e.seq, last, now), hubSeq := x.hubSeq + 1, delivered := last },
        [.adp { typ := 5, response := false, session := x.num, seq := x.hubSeq + 1,
                body := ((e :: es).map LogEntry.image).flatten }])
  | _, _ => (x, [])

/-- Deliver the log to every MANAGER session opened with EVENTS (R383). -/
def deliver (s : State) : State :=
  let r := s.dict.sessions.map (deliverOne s.now s.dict)
  { s with
    dict := { s.dict with sessions := r.map Prod.fst }
    out := (r.map Prod.snd).flatten.reverse ++ s.out }

/-- LOG_LOSS, once per 100 ms in which an entry is lost (R383). -/
def lossEvent (s : State) : State :=
  if s.dict.lossCount = 0 then s
  else if (match s.dict.lossRaised with | none => true | some t => decide (t + 100000000 ≤ s.now)) then
    let n := s.dict.lossCount
    let s := s.onDict fun d => { d with lossCount := 0, lossRaised := some s.now }
    logAppend s.now 0xD101 [n, s.dict.logLost] s
  else s

/-- Raise an event (R382): it is written to the log and delivered, or held while the management core restarts (R300). -/
def raise (code : Nat) (payload : List Nat) (s : State) : State :=
  if s.boot.mgmtDown then
    s.onDict fun d =>
      if d.holding.length < 1024 then { d with holding := d.holding ++ [(s.now, code, payload)] }
      else { d with logLost := d.logLost + 1, lossCount := d.lossCount + 1 }
  else deliver (lossEvent (logAppend s.now code payload s))

/-! Doorbells (R355). -/

/-- The 16 bytes of a doorbell record (Table 14-5). -/
def Doorbell.image (b : Doorbell) (phase : Bool) : List Byte :=
  natLe 4 (b.kind + 2 ^ 31 * b2n phase) ++ natLe 4 b.arg ++ natLe 8 b.time

/-- Write a doorbell record at the ring's next slot (R355, R107). -/
def doorbellPut (b : Doorbell) (s : State) : State :=
  let l := s.lania
  let b := { b with time := s.now }
  emit (.doorbell (2 ^ 14 * l.base + 16 * l.prod) (b.image l.phase)) (s.onLania fun l =>
    { l with
      unread := l.unread ++ [(b.kind, b.key)]
      last := l.phase
      phase := if l.prod = 1023 then !l.phase else l.phase
      prod := (l.prod + 1) % 1024 })

/-- Whether the doorbell ring is enabled and has room (R355). -/
def doorbellRoom (s : State) : Bool := s.lania.enable && decide (s.lania.unread.length < 1024)

/-- Ring a doorbell (R355): not written when it would duplicate an unconsumed record; merged into an entry that waits;
written at once when the ring is enabled, has room and none waits; else it waits. -/
def ringDoorbell (kind key arg : Nat) (s : State) : State :=
  if s.lania.unread.any (· == (kind, key)) then bump 0xC40D03 1 s
  else if s.lania.waiting.any (fun b => b.kind == kind && b.key == key) then
    bump 0xC40D03 1 (s.onLania fun l => { l with
      waiting := updFirst (fun b => b.kind == kind && b.key == key) (fun b => { b with arg, time := s.now }) l.waiting })
  else if doorbellRoom s && s.lania.waiting.isEmpty then doorbellPut { kind, key, arg, time := s.now } s
  else s.onLania fun l => { l with waiting := l.waiting ++ [{ kind, key, arg, time := s.now }] }

/-- Write the waiting doorbells, oldest first, while the ring has room (R355). -/
def doorbellDrain (s : State) : State :=
  match s.lania.waiting with
  | [] => s
  | b :: r => if doorbellRoom s then doorbellPut b (s.onLania fun l => { l with waiting := r }) else s

/-! Ring indices shared by the fault, nomination and doorbell rings (R107). -/

/-- How many records a write of a CONS register consumes: position `c`, written `v`, ring size `n`, unconsumed `u`; none when
the write is ignored (R107). -/
def consumed (c v n u : Nat) : Option Nat :=
  let k := if v = c then (if u = n then n else 0) else (v + n - c) % n
  if u < k then none else some k

/-- Answer a REG write (R353): a status of Table 2-11. -/
def regAck (status : Nat) (s : State) : State := emit (.regAck status) s

/-- A REG write of an always-on block: answered while the Lania link is up (R354); else it has no effect. -/
def viaReg (f : State → State) (s : State) : State := if s.lania.up then f s else s

/-- A REG write of a block whose power domain must be on: FAIL_STATE when it is off (R354). -/
def viaRegIn (on : Bool) (f : State → State) (s : State) : State :=
  if s.lania.up then (if on then f s else regAck St.state s) else s

/-- Whether at least a period has passed since a moment (R432). -/
def elapsed (s : State) (since period : Nat) : Bool := decide (since + period ≤ s.now)

end Sys2Proof.Machine
end

