-- ==== Sys2Proof/Machine/Encode.lean ====
section
/-! DEFINITION. Reading and writing tensors of a format: elements with their scales, contributions to an exact accumulation, the one
rounding at the output, and the shadow-precision probe (R169-R177, R179, R182-R184, R188-R198). -/

namespace Sys2Proof.Machine

open Sys2Proof.Arith

/-! Reading (R170-R177). -/

/-- Whether a format byte has a block scale. -/
def scaled (tfmt : Nat) : Bool := scaleOf tfmt != 0
/-- The scale of the block of element i: its byte in the scale array, or 1 without a block scale (R174-R177). -/
def scaleAt (tfmt : Nat) (scales : List Byte) (i : Nat) : Option (Nat × Int) :=
  if scaled tfmt then blockScale (scaleOf tfmt) (scales.getD (i / 32) 0).toNat else some (1, 0)
/-- The value of element i without its tensor scale, with the sign of a zero kept (R171-R175). -/
def elemFV (tfmt : Nat) (elems scales : List Byte) (i : Nat) : FV :=
  let e := elemOf tfmt
  let c := elemCode e elems i
  if isNarrow e then
    match narrowValue e c (scaleAt tfmt scales i) with
    | .fin q => if q = 0 then .num (decide (e ≤ 4) && bitOf c (elemBits e - 1)) 0 else ofQ false q
    | .inf n => .inf n
    | .nan => .nan
  else wideDec e c
/-- The value of element i under an FP32 tensor scale, exact (R176): a scale that is no number makes it invalid. -/
def elemVal (tfmt tscale : Nat) (elems scales : List Byte) (i : Nat) : FV :=
  match f32 tscale with
  | .num n x => fvMul (elemFV tfmt elems scales i) (.num n x)
  | _ => .nan

/-! A contribution to an exact accumulation (R179, R182-R184). -/

/-- The 24-bit significand and exponent of a finite FP32 value; none for an infinity or a NaN. -/
def f32Sig (b : Nat) : Option (Int × Int) :=
  let e := b / 2 ^ 23 % 256
  let m := b % 2 ^ 23
  if e = 255 then none
  else
    let k : Nat := if e = 0 then m else 2 ^ 23 + m
    some (if bitOf b 31 then -(k : Int) else k, ((max e 1 : Nat) : Int) - 150)

/-- Add one narrow contribution element under its tensor scale (R179, R184). -/
def accElem (x : Acc) (tfmt tscale : Nat) (elems scales : List Byte) (i : Nat) (rep : ArithReport) : Acc × ArithReport :=
  let e := elemOf tfmt
  match f32Sig tscale, scaleAt tfmt scales i, elemDec e (elemCode e elems i) with
  | some (ts, te), some (num, be), .fin m => Acc.addTerm x (m * num * ts) (elemQ e + be + te) rep
  | some (ts, _), some _, .inf n =>
    if ts = 0 then ({ x with nan := true }, rep)
    else if n != decide (ts < 0) then ({ x with ninf := true }, rep)
    else ({ x with pinf := true }, rep)
  | _, _, _ => ({ x with nan := true }, rep)

/-! Writing (R188-R193). -/

/-- What an encode produces: the element codes, the block scales, the report and the probed blocks' relative errors. -/
structure Enc where
  /-- Element codes, in order. -/
  codes : List Nat := []
  /-- Block scale codes, in order. -/
  scales : List Nat := []
  /-- The report. -/
  rep : ArithReport := {}
  /-- Index and relative error of each probed block (R197). -/
  probes : List (Nat × ℚ) := []

/-- Join two encodes, the first one's elements first. -/
def Enc.join (a b : Enc) : Enc :=
  { codes := a.codes ++ b.codes, scales := a.scales ++ b.scales, rep := a.rep.add b.rep, probes := a.probes ++ b.probes }

/-- Encode one value without a block scale (Table 7-9). -/
def encOne (e : Nat) (r : Rnd) (v : FV) : Nat × ArithReport := if isNarrow e then encPlain e r v else encWide e r v

/-- Encode one block under a format's scale type, or plainly (R189-R191). -/
def encVals (e sc : Nat) (vs : List (FV × Rnd)) : List Nat × Option Nat × ArithReport :=
  if sc = 0 then
    let l := vs.map fun p => encOne e p.2 p.1
    (l.map Prod.fst, none, (l.map Prod.snd).foldl ArithReport.add {})
  else
    let r := encBlock e sc vs
    (r.1, some r.2.1, r.2.2)

/-- The finite values a narrow block stands for. -/
def blockVals (e sc : Nat) (codes : List Nat) (scale : Option Nat) : List (Option ℚ) :=
  let k := match scale with
    | some c => blockScale sc c
    | none => some (1, 0)
  codes.map fun c => match narrowValue e c k with
    | .fin q => some q
    | _ => none

/-- Relative error of a probed block (R197): max |q4 - q8| / max |q8| over the elements that are numbers, 0 when every q8 is zero. -/
def probeErr (q4 q8 : List (Option ℚ)) : ℚ :=
  let d := (q4.zip q8).foldl (fun m p => match p with
    | (some a, some b) => max m |a - b|
    | _ => m) 0
  let m := q8.foldl (fun m q => match q with
    | some b => max m |b|
    | none => m) 0
  if m = 0 then 0 else d / m

/-- Whether block b of an encode to FP4 or INT4 is probed at an interval N under a key (R197). -/
def probed (e n : Nat) (key : U64) (b : Nat) : Bool :=
  (e == 0 || e == 5) && n != 0 && (b + key.toNat % n) % n == 0

/-- Encode a block's exact values, with the probe: the values carry the rounding of their index (R193, R197). -/
def encProbed (tfmt n : Nat) (key : U64) (b : Nat) (vs : List (FV × Rnd)) : Enc :=
  let e := elemOf tfmt
  let sc := scaleOf tfmt
  let r := encVals e sc vs
  let pr := probed e n key b
  let q := encVals 3 sc vs
  { codes := r.1, scales := r.2.1.toList, rep := r.2.2.add { probed := pr },
    probes := if pr then [(b, probeErr (blockVals e sc r.1 r.2.1) (blockVals 3 sc q.1 q.2.1))] else [] }

/-- Encode values, block by block of 32 from block `b`; element j of the output has index `idx + j` (R177, R193). A short last
block of a block-scaled format is encoded as if its missing elements were zero (R232). -/
def encodeBlocks (tfmt mode n : Nat) (key : U64) : Nat → Nat → Nat → List FV → Enc
  | 0, _, _, _ => {}
  | fuel + 1, b, idx, vs =>
    if vs.isEmpty then {}
    else
      let blk := vs.take 32
      let full := if scaled tfmt then blk ++ List.replicate (32 - blk.length) (.num false 0) else blk
      let r := encProbed tfmt n key b (full.zipIdx.map fun p => (p.1, rndOf mode key (BitVec.ofNat 64 (idx + p.2))))
      Enc.join { r with codes := r.codes.take blk.length } (encodeBlocks tfmt mode n key fuel (b + 1) (idx + 32) (vs.drop 32))

/-- Encode a list of exact values in a format under a rounding mode and key, the first block with number `b` in the operation's output
(R197), the first value at index `idx` (R189-R193). -/
def encodeAll (tfmt mode n : Nat) (key : U64) (b idx : Nat) (vs : List FV) : Enc :=
  encodeBlocks tfmt mode n key (vs.length / 32 + 1) b idx vs
/-- The elements of FP32 arithmetic that went beyond the largest finite magnitude and whose encode counts no SAT of its own (R189, R196).
In a block-scaled result an infinity makes its block INVALID instead. -/
def lateSat (tfmt mode : Nat) (key : U64) (idx : Nat) (vs : List (FV × Bool)) : Nat :=
  if scaled tfmt then 0
  else (vs.zipIdx.filter fun p => p.1.2 && p.1.1 != .nan &&
    (encOne (elemOf tfmt) (rndOf mode key (BitVec.ofNat 64 (idx + p.2))) p.1.1).2.sat == 0).length
/-- Encode results of FP32 arithmetic, each with whether it overflowed (R189, R192, R196). -/
def encodeLate (tfmt mode n : Nat) (key : U64) (b idx : Nat) (vs : List (FV × Bool)) : Enc :=
  let e := encodeAll tfmt mode n key b idx (vs.map Prod.fst)
  { e with rep := e.rep.add { sat := lateSat tfmt mode key idx vs } }

/-- Packed element bytes of an encode (R170). -/
def Enc.elemBytes (tfmt : Nat) (x : Enc) : List Byte := packElems (elemOf tfmt) x.codes
/-- Scale bytes of an encode (R177). -/
def Enc.scaleBytes (x : Enc) : List Byte := x.scales.map (BitVec.ofNat 8)

/-! The report's counters and the probe's statistics (R196, R198). -/

/-- ProbeInterval of plot n (Table 7-11). -/
def probeInterval (s : State) (n : Nat) : Nat := cfg (0x706000 + n + 1) 0 s

/-- Who an operation belongs to: its plot, its core or 0xFF for the collective unit, its core or collective group, and the descriptor or
sequence (Table 7-12). -/
structure Who where
  /-- Plot. -/
  plot : Nat
  /-- Core, or 0xFF. -/
  core : Nat
  /-- Core, or collective group (Table 7-12, ACC_OVERFLOW). -/
  unit : Nat
  /-- Descriptor index, or group sequence. -/
  num : Nat

/-- Add a report to the counters of Table 7-12; an overflowed accumulator is counted and reported. -/
def countReport (w : Who) (r : ArithReport) (s : State) : State :=
  let s := bump 0xC40701 r.sat (bump 0xC40702 r.clip (bump 0xC40703 r.low (bump 0xC40704 r.invalid
    (bump 0xC40705 r.scovf (bump 0xC40706 r.scunf s)))))
  if r.ovf then raise 0x7102 [w.plot, w.unit, w.num] (bump 0xC40709 1 s) else s

/-- Add a probed block to its plot's statistics; an error above the threshold is counted and reported (R198). -/
def probeOne (w : Who) (tfmt : Nat) (b : Nat × ℚ) (s : State) : State :=
  let code := toF32 (ofQ false b.2)
  let p := s.fur.probes.getD w.plot {}
  let mean := (FV.q (f32 p.mean) * p.blocks + b.2) / (p.blocks + 1)
  let stat : ProbeStat :=
    { blocks := p.blocks + 1, largest := if FV.q (f32 p.largest) < FV.q (f32 code) then code else p.largest,
      mean := toF32 (ofQ false mean) }
  let s := bump 0xC40707 1 (s.onFur fun f => { f with probes := f.probes.set w.plot stat })
  if FV.q (f32 (cfg 0x706101 0x3E800000 s)) < b.2 then
    raise 0x7101 [w.plot, w.core, tfmt, b.1, code] (bump 0xC40708 1 s) else s

/-- Account for an encode: its report and its probed blocks (R196, R198). -/
def account (w : Who) (tfmt : Nat) (x : Enc) (s : State) : State :=
  forAll x.probes (probeOne w tfmt) (countReport w x.rep s)

end Sys2Proof.Machine
end

