-- ==== Sys2Proof/Machine/FurEval.lean ====
section
/-! DEFINITION. The results of the arithmetic and integrity opcodes as functions of the bytes they read (R176, R178-R196, R208, R213-R215,
R274, R281-R286, R298). -/

namespace Sys2Proof.Machine

open Sys2Proof.Arith

/-! Operands (R208, R209). -/

/-- SLOT of an operand. -/
def opdSlot (h : Nat) : Nat := h % 64
/-- USE of an operand. -/
def opdUse (h : Nat) : Bool := bitOf h 7
/-- IX of an operand. -/
def opdIx (h : Nat) : Nat := bits h 11 8
/-- NREG of an operand. -/
def opdNreg (h : Nat) : Nat := bits h 15 12
/-- An index register as read at issue; X0 reads zero (R209). -/
def xreg (xs : List U64) (i : Nat) : U64 := if i = 0 then 0 else xs.getD (i - 1) 0

/-- A tile in memory: the record of an operand with its address resolved (R209). -/
structure Tile where
  /-- Node; none: the core's scratchpad. -/
  node : Option Nat
  /-- Address of row 0. -/
  off : Nat
  /-- The record's base, from which the scale array is found. -/
  base : Nat
  /-- ROWS. -/
  rows : Nat
  /-- COLS. -/
  cols : Nat
  /-- ROWSTRIDE. -/
  stride : Nat
  /-- TFMT. -/
  tfmt : Nat
  /-- TSCALE. -/
  tscale : Nat
  /-- SOFF. -/
  soff : Int
  deriving DecidableEq, Repr

/-- Address of row r. -/
def Tile.row (t : Tile) (r : Nat) : Nat := (t.off + r * t.stride) % 2 ^ 48
/-- Packed element bytes of a row (R170). -/
def Tile.rowBytes (t : Tile) : Nat := ceilDiv (t.cols * elemBits (elemOf t.tfmt)) 8
/-- Scale bytes of a row. -/
def Tile.scaleCount (t : Tile) : Nat := if scaled t.tfmt then t.cols / 32 else 0
/-- Address of the scales of row r (R208). -/
def Tile.scaleRow (t : Tile) (r : Nat) : Nat :=
  let b : Int := ((32 * elemBits (elemOf t.tfmt) / 8 : Nat) : Int)
  (((t.base : Int) + t.soff + ((t.row r : Int) - t.base) / b) % 2 ^ 48).toNat

/-- A byte range: node, offset and length. -/
abbrev Span := Option Nat × Nat × Nat

/-- The ranges of a tile's elements and scales, row by row: elements then scales of each row. -/
def Tile.spans (t : Tile) : List Span :=
  (List.range t.rows).flatMap fun r => [(t.node, t.row r, t.rowBytes), (t.node, t.scaleRow r, t.scaleCount)]
/-- The ranges of a tile of accumulator images, 32 bytes each, row by row (R187). -/
def Tile.imageSpans (t : Tile) : List Span := (List.range t.rows).map fun r => (t.node, t.row r, 32 * t.cols)

/-- What was read of a tile: element and scale bytes of each row, in the order of its ranges. -/
structure TData where
  /-- The tile. -/
  t : Tile
  /-- The bytes of its ranges. -/
  bytes : List (List Byte)

/-- Element bytes of row r. -/
def TData.elems (d : TData) (r : Nat) : List Byte := d.bytes.getD (2 * r) []
/-- Scale bytes of row r. -/
def TData.scales (d : TData) (r : Nat) : List Byte := d.bytes.getD (2 * r + 1) []
/-- The exact value of an element (R176). -/
def TData.val (d : TData) (r c : Nat) : FV := elemVal d.t.tfmt d.t.tscale (d.elems r) (d.scales r) c
/-- The value of an element as FP32 under a rounding, and whether it was beyond the largest finite magnitude (R189, R192). -/
def TData.val32 (d : TData) (rnd : Rnd) (r c : Nat) : FV × Bool := f32Round rnd (d.val r c)
/-- A step of FP32 arithmetic on operands that carry whether they overflowed (R189, R192). -/
def late2 (f : FV → FV → FV × Bool) (x y : FV × Bool) : FV × Bool :=
  let z := f x.1 y.1
  (z.1, x.2 || y.2 || z.2)
/-- Image c of row r of a tile of images. -/
def imageAt (rows : List (List Byte)) (r c : Nat) : Acc := Acc.ofImage (slice (rows.getD r []) (32 * c) 32)

/-- What an operation yields: its stores, its report, what it encoded, the registers it writes, and whether its check fails. -/
structure Out where
  /-- Stores: node, offset, bytes. -/
  writes : List (Option Nat × Nat × List Byte) := []
  /-- Arithmetic report. -/
  rep : ArithReport := {}
  /-- Encodes made, with their format (R196, R198). -/
  encs : List (Nat × Enc) := []
  /-- Index registers written. -/
  regs : List (Nat × U64) := []
  /-- Whether an automatic check or a check descriptor fails on this data, or an accumulator overflowed (R288). -/
  fails : Bool := false
  /-- Its status when it is not OK. -/
  status : Nat := 0

/-- Rounding mode, seed key and probe interval of an operation. -/
structure Mode where
  /-- RND. -/
  rnd : Nat := 0
  /-- IMM64, the seed key. -/
  key : U64 := 0
  /-- ProbeInterval of the plot. -/
  probe : Nat := 0

/-- The rounding of the element at an output index (R189, R193). -/
def Mode.at_ (m : Mode) (idx : Nat) : Rnd := rndOf m.rnd m.key (BitVec.ofNat 64 idx)
/-- Encode one row of results of a destination tile and store it, each with whether its FP32 arithmetic overflowed (R189-R193). -/
def encLate (m : Mode) (t : Tile) (r : Nat) (vs : List (FV × Bool)) : Out :=
  let e := encodeLate t.tfmt m.rnd m.probe m.key (r * ceilDiv t.cols 32) (r * t.cols) vs
  { writes := [(t.node, t.row r, e.elemBytes t.tfmt), (t.node, t.scaleRow r, e.scaleBytes)], rep := e.rep, encs := [(t.tfmt, e)] }
/-- Encode one row of exact results of a destination tile and store it. -/
def encRow (m : Mode) (t : Tile) (r : Nat) (vs : List FV) : Out := encLate m t r (vs.map fun v => (v, false))

/-- Join outputs. -/
def Out.join (a b : Out) : Out :=
  { writes := a.writes ++ b.writes, rep := a.rep.add b.rep, encs := a.encs ++ b.encs, regs := a.regs ++ b.regs,
    fails := a.fails || b.fails, status := if a.status = 0 then b.status else a.status }
/-- Join a list of outputs. -/
def joinOuts (l : List Out) : Out := l.foldl Out.join {}
/-- Encode the rows of a destination tile. -/
def encRows (m : Mode) (t : Tile) (f : Nat → Nat → FV) : Out :=
  joinOuts ((List.range t.rows).map fun r => encRow m t r ((List.range t.cols).map (f r)))
/-- A value divided by a destination's tensor scale, exactly (R176; log entry 17). -/
def outScale (t : Tile) (v : FV) : FV := fvDiv v (f32 t.tscale)
/-- An exact-path value divided by a destination's tensor scale: an exact zero is +0 (R188). -/
def outExact (t : Tile) (v : FV) : FV :=
  match outScale t v with
  | .num n x => .num (n && x != 0) x
  | y => y
/-- An FP32 result divided by a destination's tensor scale, with its overflow flag. -/
def outLate (t : Tile) (v : FV × Bool) : FV × Bool := (outScale t v.1, v.2)

/-! DOT (R179-R188, R194, R214). -/

/-- ceil(log2 x) for x of at least 2. -/
def clog2 (x : Nat) : Nat := Nat.log2 (x - 1) + 1
/-- P of Table 7-7: the width bound of an operand pair. -/
def widthP (fa fb : Nat) : Nat :=
  let k (f : Nat) : Nat := if scaleOf f = 1 then 7 else 1
  clog2 (32 * elemM (elemOf fa) * elemM (elemOf fb) * (k fa * k fb) + 1)

/-- Element code of operand B for output column n and inner index k: transposed with BT clear. -/
def dotB (bt : Bool) (b : TData) (n k : Nat) : Nat :=
  if bt then elemCode (elemOf b.t.tfmt) (b.elems k) n else elemCode (elemOf b.t.tfmt) (b.elems n) k
/-- Value of operand B. -/
def dotBVal (bt : Bool) (b : TData) (n k : Nat) : FV := wideDec (elemOf b.t.tfmt) (dotB bt b n k)
/-- Block scale of operand B; with BT set it has none (R214). -/
def dotBScale (bt : Bool) (b : TData) (n kb : Nat) : Option (Nat × Int) :=
  if bt then some (1, 0) else scaleAt b.t.tfmt (b.scales n) (32 * kb)

/-- The largest sum of scale exponents among the blocks covered (R181). DESIGN CHOICE (log entry 58): a block with the invalid scale 0xFF
has no exponent and is left out, and the sum is 0 when no block has valid scales. -/
def sigmaMax (bt : Bool) (a b : TData) (n : Nat) : Int :=
  let ss := (List.range a.t.rows).flatMap fun m => (List.range n).flatMap fun j => (List.range (ceilDiv a.t.cols 32)).filterMap fun kb =>
    match scaleAt a.t.tfmt (a.scales m) (32 * kb), dotBScale bt b j kb with
    | some x, some y => some (x.2 + y.2)
    | _, _ => none
  match ss with
  | [] => 0
  | x :: r => r.foldl max x

/-- A block partial (R179): the sum of products of significands, with the flags of R184. -/
def blockPartial (ps : List (Elem × Elem)) : Int × Bool × Bool × Bool :=
  ps.foldl (fun z p =>
    match p with
    | (.fin x, .fin y) => (z.1 + x * y, z.2)
    | (.inf s, .fin y) => if y = 0 then (z.1, true, z.2.2) else if s != decide (y < 0) then (z.1, z.2.1, z.2.2.1, true) else (z.1, z.2.1, true, z.2.2.2)
    | (.fin x, .inf s) => if x = 0 then (z.1, true, z.2.2) else if s != decide (x < 0) then (z.1, z.2.1, z.2.2.1, true) else (z.1, z.2.1, true, z.2.2.2)
    | (.inf s, .inf r) => if s != r then (z.1, z.2.1, z.2.2.1, true) else (z.1, z.2.1, true, z.2.2.2)
    | _ => (z.1, true, z.2.2)) (0, false, false, false)

/-- The accumulator of one output element on the exact path (R179-R184). -/
def dotAcc (bt : Bool) (a b : TData) (h : Int) (m n : Nat) : Acc × ArithReport :=
  let ea := elemOf a.t.tfmt
  let eb := elemOf b.t.tfmt
  (List.range (ceilDiv a.t.cols 32)).foldl (fun (z : Acc × ArithReport) kb =>
    let js := (List.range (min 32 (a.t.cols - 32 * kb))).map fun i => 32 * kb + i
    let p := blockPartial (js.map fun k => (elemDec ea (elemCode ea (a.elems m) k), elemDec eb (dotB bt b n k)))
    match scaleAt a.t.tfmt (a.scales m) (32 * kb), dotBScale bt b n kb with
    | some x, some y =>
      let r := Acc.addTerm z.1 (p.1 * x.1 * y.1) (elemQ ea + elemQ eb + x.2 + y.2) z.2
      ({ r.1 with nan := r.1.nan || p.2.1, pinf := r.1.pinf || p.2.2.1, ninf := r.1.ninf || p.2.2.2 }, r.2)
    | _, _ => ({ z.1 with nan := true }, z.2)) ({ h }, {})

/-- The product of two tensor scales; none when either is no finite number (R184, R188). -/
def scaleProduct (a b : Nat) : Option ℚ :=
  match f32 a, f32 b with
  | .num n x, .num m y => some (FV.q (.num n x) * FV.q (.num m y))
  | _, _ => none

/-- One output element on the wide path, as an FP32 accumulator, and whether an addition overflowed (R194). -/
def dotWide (bt : Bool) (a b : TData) (m n : Nat) : FV × Bool :=
  (List.range (ceilDiv a.t.cols 32)).foldl (fun (acc : FV × Bool) kb =>
    let js := (List.range (min 32 (a.t.cols - 32 * kb))).map fun i => 32 * kb + i
    let sum := js.foldl (fun z k => fvAdd z (fvMul (wideDec (elemOf a.t.tfmt) (elemCode (elemOf a.t.tfmt) (a.elems m) k)) (dotBVal bt b n k)))
      (.num false 0)
    let x := f32Round .rne sum
    let y := f32Round .rne (fvAdd acc.1 x.1)
    (y.1, acc.2 || x.2 || y.2)) (.num false 0, false)

/-- A row of accumulator images as it is stored, with the reports of the additions that made them; an overflow among those fails the
check (R180, R288). -/
def imageRow (d : Tile) (r : Nat) (xs : List (Acc × ArithReport)) : Out :=
  let rep := (xs.map Prod.snd).foldl ArithReport.add {}
  { writes := [(d.node, d.row r, (xs.map fun x => x.1.image).flatten)], rep, fails := rep.ovf }
/-- DOT (R214): operands A and B, D's former bytes, and D. -/
def evalDot (m : Mode) (sub : Nat) (a b : TData) (old : List (List Byte)) (d : Tile) : Out :=
  let bt := bitOf sub 0
  let narrow := isNarrow (elemOf a.t.tfmt)
  let h : Int := sigmaMax bt a b d.cols + elemQ (elemOf a.t.tfmt) + elemQ (elemOf b.t.tfmt) + widthP a.t.tfmt b.t.tfmt
  let ts := scaleProduct a.t.tscale b.t.tscale
  let poison (x : Acc) : Acc := if ts.isNone then { x with nan := true } else x
  if bitOf sub 2 then
    joinOuts ((List.range d.rows).map fun r => imageRow d r ((List.range d.cols).map fun c =>
      let x := dotAcc bt a b h r c
      Acc.add (imageAt old r c) (poison x.1) x.2))
  else
    let value (r c : Nat) : (FV × Bool) × ArithReport :=
      if narrow then
        let x := dotAcc bt a b h r c
        (((Acc.value (poison x.1) (ts.getD 1)).fv, false), x.2)
      else (match ts with
        | some _ =>
          let x := dotWide bt a b r c
          (fvMul x.1 (fvMul (f32 a.t.tscale) (f32 b.t.tscale)), x.2)
        | none => (.nan, false), {})
    joinOuts ((List.range d.rows).map fun r =>
      let vs := (List.range d.cols).map (value r)
      let prev (c : Nat) : FV × Bool := (f32 (fieldAt (old.getD (2 * r) []) (4 * c) 4), false)
      let once (c : Nat) (v : FV × Bool) : FV × Bool :=
        let x := f32Round (m.at_ (r * d.cols + c)) v.1
        late2 (fun a b => f32Round .rne (fvAdd a b)) (prev c) (x.1, v.2 || x.2)
      let o := if bitOf sub 1 then encLate { m with rnd := 0 } d r (vs.zipIdx.map fun p => once p.2 p.1.1)
        else encLate m d r (vs.map Prod.fst)
      let rep := (vs.map Prod.snd).foldl ArithReport.add o.rep
      { o with rep, fails := rep.ovf })

/-! Vector engine (R176, R185, R188-R192, R213, R215). -/

/-- An integer as an FP32 value. -/
def intFV (n : Nat) : FV := .num false n

/-- The place of the largest (`big`) or smallest element of a row; ties go to the lower place, a NaN loses to a number. -/
def bestAt (big : Bool) (vs : List FV) : Nat :=
  let better (x y : FV) : Bool := match x, y with
    | .nan, _ => false
    | _, .nan => true
    | x, y => if big then fvLt y x else fvLt x y
  (vs.zipIdx.foldl (fun (b : FV × Nat) p => if better p.1 b.1 then p else b) (vs.headD .nan, 0)).2

/-- Whether a value bounds every element of a row and is one of them (R286, Table 11-2, REDUCE). A NaN bounds nothing and is bounded by
everything (DEDUCED; log entry 13). -/
def boundsRow (big : Bool) (x : FV) (vs : List FV) : Bool :=
  vs.contains x && vs.all fun v => if big then !fvLt x v else !fvLt v x
/-- REDUCE along each row (Table 8-6): 0 sum, 1 max, 2 min, 3 argmax. The sum is formed in ascending order of the columns; the others are
checked by Table 11-2. -/
def evalReduce (m : Mode) (sub : Nat) (a : TData) (d : Tile) : Out :=
  joinOuts ((List.range d.rows).map fun r =>
    let rnd := m.at_ (r * d.cols)
    let vs := (List.range a.t.cols).map (a.val32 rnd r)
    if sub = 0 then
      encLate m d r [outLate d (vs.foldl (late2 fun x v => f32Round rnd (fvAdd x v)) (.num false 0, false))]
    else
      let k := bestAt (sub != 2) (vs.map Prod.fst)
      let best := vs.getD k (.nan, false)
      let o := encLate m d r [outLate d (if sub = 3 then (intFV k, false) else best)]
      { o with fails := !boundsRow (sub != 2) best.1 (vs.map Prod.fst) })

/-- EWISE (Table 8-6): 0 add, 1 sub, 2 mul, 3 max, 4 min, in FP32 under the operation's mode (R192). -/
def evalEwise (m : Mode) (sub : Nat) (a b : TData) (d : Tile) : Out :=
  joinOuts ((List.range d.rows).map fun r => encLate m d r ((List.range d.cols).map fun c =>
    let rnd := m.at_ (r * d.cols + c)
    let x := a.val32 rnd r c
    let y := b.val32 rnd r c
    outLate d (if sub = 0 then late2 (fun x y => f32Round rnd (fvAdd x y)) x y
      else if sub = 1 then late2 (fun x y => f32Round rnd (fvAdd x (fvNeg y))) x y
      else if sub = 2 then late2 (fun x y => f32Round rnd (fvMul x y)) x y
      else
        let z := if sub = 3 then fvMax x.1 y.1 else fvMin x.1 y.1
        (z, (x.2 && z == x.1) || (y.2 && z == y.1)))))
/-- SCALE (Table 8-6): by B[0,0], in FP32 under the operation's mode (R192). -/
def evalScale (m : Mode) (a b : TData) (d : Tile) : Out :=
  joinOuts ((List.range d.rows).map fun r => encLate m d r ((List.range d.cols).map fun c =>
    let rnd := m.at_ (r * d.cols + c)
    outLate d (late2 (fun x y => f32Round rnd (fvMul x y)) (a.val32 rnd r c) (b.val32 rnd 0 0))))
/-- DEQUANT and CAST, and what QUANT encodes of FP32 values: the exact value, rounded once (R176, R188-R192). A narrow input is on the
exact path. -/
def castVal (a : TData) (d : Tile) (r c : Nat) : FV :=
  if isNarrow (elemOf a.t.tfmt) then outExact d (a.val r c) else outScale d (a.val r c)
/-- DEQUANT and CAST. -/
def evalCast (m : Mode) (a : TData) (d : Tile) : Out := encRows m d (castVal a d)

/-- The step of a narrow element at a magnitude: the distance between its neighbouring values (Table 11-2, QUANT). -/
def narrowStep (e : Nat) (x : ℚ) : ℚ :=
  match floatParams e with
  | some (w, emin, _) => pow2 (max emin (if x ≤ 0 then emin else flog2 x) - w)
  | none => pow2 (elemQ e)
/-- Whether an element decodes, under its block's scale, to within one step of the value that was encoded (Table 11-2, QUANT). An element
that took an outcome of Table 7-9 holds what R189 gives it and no value near its own: it passes (DEDUCED; log entry 13). -/
def stepOk (e : Nat) (scale : Nat × Int) (v : FV) (code : Nat) : Bool :=
  match v with
  | .num n x =>
    let s := (scale.1 : ℚ) * pow2 scale.2
    decide (encMax e * s < x) ||
      match narrowValue e code (some scale) with
      | .fin q => decide (|q - FV.q (.num n x)| ≤ narrowStep e (x / s) * s)
      | _ => false
  | _ => true
/-- The check of one block of a QUANT result (Table 11-2): its scale is the one R190 or R191 picks, and its elements are near. -/
def quantBlockOk (tfmt : Nat) (vs : List FV) (codes : List Nat) (scale : Nat) : Bool :=
  let e := elemOf tfmt
  let near (k : Nat × Int) : Bool := (vs.zip codes).all fun p => stepOk e k p.1 p.2
  if scaleOf tfmt = 0 then near (1, 0)
  else if anyBad vs then scale == 0xFF
  else
    (scale == if scaleOf tfmt = 1 then (eb32Scale (encMax e) (amax vs)).1 else (mxScale e (amax vs)).1) &&
      match blockScale (scaleOf tfmt) scale with
      | some k => near k
      | none => false
/-- QUANT: rows of exact values encoded, each checked by Table 11-2 (R286). -/
def quantRows (m : Mode) (d : Tile) (f : Nat → Nat → FV) : Out :=
  joinOuts ((List.range d.rows).map fun r =>
    let vs := (List.range d.cols).map (f r)
    let o := encRow m d r vs
    { o with fails := !o.encs.all fun e => (List.range (ceilDiv d.cols 32)).all fun b =>
        quantBlockOk d.tfmt ((vs.drop (32 * b)).take 32) ((e.2.codes.drop (32 * b)).take 32) (e.2.scales.getD b 0) })
/-- QUANT of FP32 values (R188-R191). -/
def evalQuant (m : Mode) (a : TData) (d : Tile) : Out := quantRows m d (castVal a d)
/-- QUANT of accumulator images (R188). An OVF that an image carries gives its element the outcome of Table 7-9. -/
def evalQuantImages (m : Mode) (rows : List (List Byte)) (d : Tile) : Out :=
  quantRows m d fun r c => outExact d (Acc.value (imageAt rows r c) 1).fv

/-- exp of a non-negative rational not above 128 as a multiple of 2^-160, its error below one part in 2^140: 40 terms of the series at
a 256th of the operand, squared eight times. -/
def expFixed (q : ℚ) : Nat :=
  let one : Nat := 2 ^ 160
  let t : Nat := (q * 2 ^ 152).floor.toNat
  let z := (List.range 40).foldl (fun (z : Nat × Nat) k => (z.1 + z.2, z.2 * t / one / (k + 1))) (0, one)
  (List.range 8).foldl (fun x _ => x * x / one) z.1
/-- exp of a rational, its error below one part in 2^140; 0 below exp(-128), and none above exp(128). -/
def expRat (q : ℚ) : Option ℚ :=
  if 128 < q then none
  else if 0 ≤ q then some ((expFixed q : ℚ) / 2 ^ 160)
  else if q < -128 then some 0
  else some (2 ^ 160 / (expFixed (-q) : ℚ))
/-- Whether an FP32 value lies within 2 ulp of exp(q), approximated by e (R215). The exponential of a value not above 0 is not above 1
(DEDUCED from the first and third checks of SMAXP in Table 11-2, which a working VE passes; log entry 13). -/
def expOk (q e : ℚ) (v : FV) : Bool :=
  match v with
  | .num n x => (!n || x == 0) && decide (|x - e| ≤ 2 * pow2 (max (-126) (flog2 e) - 23) + e / 2 ^ 100) && (decide (0 < q) || decide (x ≤ 1))
  | .inf n => !n && decide (fpMax 8 23 - 2 * pow2 104 ≤ e)
  | .nan => false
/-- The exponential of a finite FP32 value as the VE returns it: an open value within 2 ulp (R215; log entry 13). A value of the open
function that is not within 2 ulp is replaced by the rounded exponential. -/
def expNear (q : ℚ) (bits : BitVec 32) : FV :=
  match expRat q with
  | none => .inf false
  | some e =>
    let v := f32 (Config.expFp32 bits).toNat
    if expOk q e v then v else (f32Round .rne (.num false e)).1
/-- The exponential as the VE returns it (R215). -/
def expOf (v : FV) : FV :=
  match v with
  | .nan => .nan
  | .inf true => .num false 0
  | .inf false => .inf false
  | x => expNear (FV.q x) (BitVec.ofNat 32 (toF32 x))

/-- Whether a value is a number from 0 to 1. -/
def inUnit (v : FV) : Bool :=
  match v with
  | .num n x => (!n || x == 0) && decide (x ≤ 1)
  | _ => false
/-- SMAXP (R215): scores A, output B, state C, probabilities D; `valid` counts the entries used. The check is that of Table 11-2. -/
def evalSmaxp (m : Mode) (a b c : TData) (d : Tile) (valid : Nat) : Out :=
  joinOuts ((List.range a.t.rows).map fun r =>
    let at_ (t : Tile) (j : Nat) : Rnd := m.at_ (r * t.cols + j)
    let s := (List.range (min valid a.t.cols)).map fun j => a.val32 (at_ d j) r j
    let l := c.val32 (at_ c.t 1) r 1
    let empty := match l.1 with
      | .num _ x => x == 0
      | _ => false
    let m0 := c.val32 (at_ c.t 0) r 0
    let start : FV × Bool := if empty then (.inf true, false) else m0
    let m1 := s.foldl (fun x v => (fvMax x.1 v.1, if x.1 == fvMax x.1 v.1 then x.2 else v.2)) start
    let k := if empty then .num false 0 else expOf (f32Round (at_ c.t 0) (fvAdd m0.1 (fvNeg m1.1))).1
    let ps := (List.range d.cols).map fun j =>
      if j < s.length then outScale d (expOf (f32Round (at_ d j) (fvAdd (s.getD j (.nan, false)).1 (fvNeg m1.1))).1) else .num false 0
    let p := encRow m d r ps
    let enc := match p.writes with
      | (_, _, e) :: (_, _, sc) :: _ => (e, sc)
      | _ => ([], [])
    let ra := at_ c.t 1
    let vals := (List.range d.cols).map fun j => f32Round ra (elemVal d.tfmt d.tscale enc.1 enc.2 j)
    let sum := vals.foldl (late2 fun x v => f32Round ra (fvAdd x v)) (.num false 0, false)
    let kl := late2 (fun x y => f32Round ra (fvMul x y)) (k, false) l
    let l1 := late2 (fun x y => f32Round ra (fvAdd x y)) kl sum
    let o := encLate m b.t r ((List.range b.t.cols).map fun j =>
      outLate b.t (late2 (fun x y => f32Round (at_ b.t j) (fvMul x y)) (k, false) (b.val32 (at_ b.t j) r j)))
    let st := encLate m c.t r [outLate c.t m1, outLate c.t l1]
    let good := vals.all (fun v => inUnit v.1) && inUnit k && s.all (fun x => !fvLt m1.1 x.1) && (empty || !fvLt m1.1 m0.1) &&
      !fvLt l1.1 (fvMul (fvMul k l.1) (.num false (1 - 1 / 2 ^ 22))) && l1.1 != .nan
    joinOuts [p, o, st, { fails := !good }])

/-- Put an element into a list in falling order, after its equals; a NaN comes last (TOPK). -/
def insertDesc (p : (FV × Bool) × Nat) : List ((FV × Bool) × Nat) → List ((FV × Bool) × Nat)
  | [] => [p]
  | q :: r =>
    let before := match p.1.1, q.1.1 with
      | .nan, _ => false
      | _, .nan => true
      | x, y => fvLt y x
    if before then p :: q :: r else q :: insertDesc p r
/-- Whether values never rise along a list (Table 11-2, TOPK). -/
def neverRises : List FV → Bool
  | x :: y :: l => !fvLt x y && neverRises (y :: l)
  | _ => true
/-- TOPK (Table 8-6): the k largest of each row and their indices, ties to the lower index; checked by Table 11-2. An operand beyond FP32
is rounded under the operation's mode at its own position in A (DESIGN CHOICE; log entry 58). -/
def evalTopk (m : Mode) (a : TData) (d c : Tile) (k : Nat) : Out :=
  joinOuts ((List.range a.t.rows).map fun r =>
    let vs := (List.range a.t.cols).map fun j => a.val32 (m.at_ (r * a.t.cols + j)) r j
    let top := ((vs.zipIdx).foldl (fun l p => insertDesc p l) []).take k
    let good := neverRises (top.map fun p => p.1.1) && top.all fun p => vs[p.2]? == some p.1
    joinOuts [encLate m d r (top.map fun p => outLate d p.1), encRow m c r (top.map fun p => outScale c (intFV p.2)),
      { fails := !good }])

/-- ACCADD (R185): D = A + B, accumulator images. -/
def evalAccadd (a b : List (List Byte)) (d : Tile) : Out :=
  joinOuts ((List.range d.rows).map fun r => imageRow d r ((List.range d.cols).map fun c => Acc.add (imageAt a r c) (imageAt b r c) {}))

/-- The rows of contributions that a row of D sums: its own, or every row when D has one row (R179, R284). -/
def decodeRows (a : TData) (d : Tile) (r : Nat) : List Nat := if d.rows = 1 then List.range a.t.rows else [r]
/-- DECODE (R179, R182): contributions become accumulator images under an anchor. -/
def evalDecode (a : TData) (d : Tile) (anchor : Int) : Out :=
  joinOuts ((List.range d.rows).map fun r => imageRow d r ((List.range d.cols).map fun c =>
    (decodeRows a d r).foldl (fun (z : Acc × ArithReport) i =>
      accElem z.1 a.t.tfmt a.t.tscale (a.elems i) (a.scales i) c z.2) ({ h := anchor }, {})))

/-! Integrity (R281-R284, R298). -/

/-- BCHECK (R281): SUB 1 writes the check values of A's bytes to an array at a signed offset, SUB 0 compares. -/
def evalBcheck (gen : Bool) (a : Tile) (data : List Byte) (array : List Byte) (at_ : Nat) : Out :=
  let want := ((bcvs (blocksOf data.length) data).map (natLe 8)).flatten
  if gen then { writes := [(a.node, at_, want)] } else { fails := want != array }
/-- RCHECK (Table 8-6): an element outside its bounds or not finite. -/
def evalRcheck (a : TData) (lo hi : Nat) : Out :=
  { fails := (List.range a.t.rows).any fun r => (List.range a.t.cols).any fun c =>
      match a.val r c with
      | .num n x => fvLt (.num n x) (f32 lo) || fvLt (f32 hi) (.num n x)
      | _ => true }
/-- LCHECK (R282, R284): the residues and flags of the terms against those of D's images, block by block of 32. -/
def evalLcheck (a : TData) (d : List (List Byte)) : Out :=
  { fails := (List.range (ceilDiv a.t.cols 32)).any fun kb =>
      let cs := (List.range (min 32 (a.t.cols - 32 * kb))).map fun i => 32 * kb + i
      let img := cs.map (imageAt d 0)
      let h := (img.headD {}).h
      let terms := cs.flatMap fun c => (List.range a.t.rows).map fun r =>
        (accElem { h } a.t.tfmt a.t.tscale (a.elems r) (a.scales r) c {}).1
      !linearOk terms img }
/-- The digest of a byte string's blocks (R298): SHAKE256 over the block count and the check values, 64 bytes. -/
def digestOf (data : List Byte) : List Byte :=
  let l := bcvs (blocksOf data.length) data
  takePad 64 (Config.shake256 (natLe 8 l.length ++ (l.map (natLe 8)).flatten) 64)

end Sys2Proof.Machine
end

