-- ==== Sys2Proof/Machine/Operands.lean ====
section
/-! DEFINITION. Every operand form of a request: its opcode and class, formats, sizes and alignment (R25, R30, R33-R38), the
results of atomics and reductions (R35-R37), and the reply a request gets (R26, R32). -/

namespace Sys2Proof.Machine

open Sys2Proof.Arith

/-! Opcodes (Table 2-5). -/

abbrev Op.read : Nat := 0x01
abbrev Op.write : Nat := 0x20
abbrev Op.writeMasked : Nat := 0x21
abbrev Op.atomSwap : Nat := 0x40
abbrev Op.atomCas : Nat := 0x41
abbrev Op.atomAdd : Nat := 0x42
abbrev Op.atomMin : Nat := 0x43
abbrev Op.atomMax : Nat := 0x44
abbrev Op.atomAnd : Nat := 0x45
abbrev Op.atomOr : Nat := 0x46
abbrev Op.atomXor : Nat := 0x47
abbrev Op.sigAdd : Nat := 0x60
abbrev Op.sigMax : Nat := 0x61
abbrev Op.msgSend : Nat := 0x80
abbrev Op.collNotice : Nat := 0x81
abbrev Op.redAdd : Nat := 0xA0
abbrev Op.redMin : Nat := 0xA1
abbrev Op.redMax : Nat := 0xA2
abbrev Op.redColl : Nat := 0xA8
abbrev Op.rdData : Nat := 0xC0
abbrev Op.atomData : Nat := 0xC1
abbrev Op.ack : Nat := 0xC8
abbrev Op.sowAck : Nat := 0xC9

/-- The request opcodes of Table 2-5. -/
def opKnown (op : Nat) : Bool :=
  [0x01, 0x20, 0x21, 0x40, 0x41, 0x42, 0x43, 0x44, 0x45, 0x46, 0x47, 0x60, 0x61, 0x80, 0x81, 0xA0, 0xA1, 0xA2, 0xA8].contains op
/-- The reply opcodes of Table 2-5. -/
def opReply (op : Nat) : Bool := [0xC0, 0xC1, 0xC8, 0xC9].contains op
/-- The class of a request opcode (R25): 0 MEM, 1 SIG, 2 MSG, 3 RED. -/
def opClass (op : Nat) : Nat := if op / 32 < 3 then 0 else op / 32 - 2
/-- Sowable opcodes (Table 2-5). -/
def opSowable (op : Nat) : Bool := [0x20, 0x21, 0x60, 0x80].contains op
/-- The atomics (Table 2-5). -/
def opAtomic (op : Nat) : Bool := decide (0x40 ≤ op) && decide (op ≤ 0x47)
/-- RED_ADD, RED_MIN and RED_MAX. -/
def opReduce (op : Nat) : Bool := decide (0xA0 ≤ op) && decide (op ≤ 0xA2)
/-- MEM requests that modify memory, which the signal gate counts (R46). -/
def opGated (op : Nat) : Bool := op == 0x20 || op == 0x21 || opAtomic op
/-- Whether an access needs the WR right (Table 4-1, check 4). -/
def opWrites (op : Nat) : Bool := op != 0x01

/-- TYPE of a format (Table 2-6). -/
def fmtType (h : Header) : Nat := h.opb % 16
/-- NR of a format (Table 2-6). -/
def fmtNr (h : Header) : Bool := bitOf h.opb 4
/-- Permitted formats (Table 2-7). -/
def fmtOk (op t : Nat) : Bool :=
  if op = 0x40 ∨ op = 0x41 then t == 0 || t == 2 || t == 6
  else if op = 0x42 ∨ op = 0x43 ∨ op = 0x44 then decide (t ≤ 4)
  else if op = 0x45 ∨ op = 0x46 ∨ op = 0x47 then t == 0 || t == 2
  else if opReduce op then t == 1 || t == 3 || t == 4 || t == 5
  else true

/-- LEN permitted (Table 2-8). -/
def lenOk (op : Nat) (h : Header) : Bool :=
  if op = 0x01 ∨ op = 0x20 ∨ op = 0xA8 ∨ opReduce op then h.len == 32 || h.len == 64 || h.len == 128
  else if op = 0x21 then h.len == 128
  else if opAtomic op then h.len == fmtWidth (fmtType h)
  else if op = 0x60 ∨ op = 0x61 then h.len == 8
  else if op = 0x80 then decide (1 ≤ h.len) && decide (h.len ≤ 2048)
  else h.len == 16

/-- Payload bytes that Table 2-8 gives for a LEN; the link's padding of a message is not part of it. -/
def payloadLen (op : Nat) (h : Header) : Nat :=
  if op = 0x01 then 0 else if op = 0x21 then 144 else if op = 0x41 then 2 * h.len else h.len

/-- Alignment of OPA (Table 2-8); a sowing's LEP field is not used (R40), and its copies name memory words. -/
def alignOk (op : Nat) (h : Header) : Bool :=
  if opClass op = 2 then true
  else if opClass op = 1 then (h.sow == 0 && lepOf h.dst == 0xC0) || h.opa.toNat % 8 == 0
  else h.opa.toNat % h.len == 0

/-- The reason of FAIL_MALFORMED (R30, R38, R40), the first in the order of R52; none when the request is well made. -/
def malformed (op : Nat) (h : Header) (data : List Byte) : Option Nat :=
  if opReply op then some 7
  else if !opKnown op then some 1
  else if h.sow = 3 ∨ (h.sow = 1 ∧ 7 < h.sowix) then some 6
  else if h.sow ≠ 0 ∧ !opSowable op then some 5
  else if !fmtOk op (fmtType h) then some 2
  else if !lenOk op h || data.length != payloadLen op h then some 3
  else if !alignOk op h then some 4
  else none

/-- Cells a request frame occupies (R27). -/
def cellsOf (data : List Byte) : Nat := ceilDiv (24 + data.length) 256
/-- Cells a reply frame occupies (R27). -/
def replyCells (r : Reply) : Nat := ceilDiv (16 + r.data.length) 256

/-! Results at a memory (R35-R37). -/

/-- The new value of an atomic (Table 2-5): opcode, TYPE, old value, payload. -/
def atomicNew (op t old : Nat) (data : List Byte) : Nat :=
  let w := fmtWidth t
  let a := fieldAt data 0 w
  if op = 0x40 then a
  else if op = 0x41 then (if old = a then fieldAt data w w else old)
  else if op = 0x42 then fmtAdd t old a
  else if op = 0x43 then fmtMin t old a
  else if op = 0x44 then fmtMax t old a
  else if op = 0x45 then old &&& a
  else if op = 0x46 then old ||| a
  else old ^^^ a

/-- One element of a reduction (R35, R37). -/
def reduceElem (op t old a : Nat) : Nat :=
  if op = 0xA0 then fmtAdd t old a else if op = 0xA1 then fmtMin t old a else fmtMax t old a

/-- Element-wise reduction of a byte string into another, `n` elements of width `w` (R37). -/
def reduceBytes (op t : Nat) (old data : List Byte) : List Byte :=
  let w := fmtWidth t
  ((List.range (old.length / w)).map fun i =>
    natLe w (reduceElem op t (fieldAt old (w * i) w) (fieldAt data (w * i) w))).flatten

/-- Bytes of a WRITE_MASKED: enabled bytes from the payload, the others as they were (Table 2-8). -/
def maskBytes (old data : List Byte) : List Byte :=
  let m := fieldAt data 0 16
  (List.range 128).map fun i => if bitOf m i then data.getD (16 + i) 0 else old.getD i 0

/-- Whether a request writes every byte of its line: a WRITE of 128 bytes, or a WRITE_MASKED with every mask bit set (R142). -/
def fullLine (op : Nat) (h : Header) (data : List Byte) : Bool :=
  (op == 0x20 && h.len == 128) || (op == 0x21 && fieldAt data 0 16 == 2 ^ 128 - 1)

/-- The bytes an access covers: the whole line for WRITE_MASKED, LEN otherwise (R38). -/
def spanOf (op : Nat) (h : Header) : Nat := if op = 0x21 then 128 else h.len

/-- What an access leaves in the bytes it covers, and what its reply carries (R33, R36, R37); a signal
to a memory word adds modulo 2^64, or takes the maximum (R254). -/
def accessBytes (op : Nat) (h : Header) (data old : List Byte) : List Byte × List Byte :=
  if op = 0x01 then (old, old)
  else if op = 0x20 then (data, [])
  else if op = 0x21 then (maskBytes old data, [])
  else if opAtomic op then
    (natLe h.len (atomicNew op (fmtType h) (leNat old) data), if fmtNr h then [] else old)
  else if op = 0x60 then (natLe 8 (leNat old + fieldAt data 0 8), [])
  else if op = 0x61 then (natLe 8 (max (leNat old) (fieldAt data 0 8)), [])
  else (reduceBytes op (fmtType h) old data, [])

/-! A byte range as line accesses (R152, R216). -/

/-- The pieces of a byte range that lie in one line each: offset and bytes. -/
def linePieces : Nat → Nat → List Byte → List (Nat × List Byte)
  | 0, _, _ => []
  | n + 1, off, l =>
    if l.isEmpty then []
    else
      let k := 128 - off % 128
      (off, l.take k) :: linePieces n (off + (l.take k).length) (l.drop k)

/-- The write of a piece of one line (R216): WRITE of LEN 32, 64 or 128 when aligned, else WRITE_MASKED of its line; opcode,
offset, LEN and payload. -/
def pieceWrite (off : Nat) (b : List Byte) : Nat × Nat × Nat × List Byte :=
  let n := b.length
  if (n == 32 || n == 64 || n == 128) && off % n == 0 then (Op.write, off, n, b)
  else
    let o := off % 128
    (Op.writeMasked, off - o, 128,
      natLe 16 ((2 ^ n - 1) * 2 ^ o) ++ List.replicate o 0 ++ b ++ List.replicate (128 - o - n) 0)

/-- Bytes with their places as maximal consecutive runs. -/
def joinRuns : List (Nat × Byte) → List (Nat × List Byte)
  | [] => []
  | (i, b) :: r =>
    match joinRuns r with
    | (j, l) :: t => if j = i + 1 then (i, b :: l) :: t else (i, [b]) :: (j, l) :: t
    | [] => [(i, [b])]

/-- The write of a piece of one line some of whose bytes are left as they are (R216): as `pieceWrite` when none is, else WRITE_MASKED of
its line. -/
def maskedWrite (off : Nat) (b : List (Option Byte)) : Nat × Nat × Nat × List Byte :=
  let d := b.map fun x => x.getD 0
  if b.all Option.isSome then pieceWrite off d
  else
    let o := off % 128
    let mask := (b.zipIdx.filter fun p => p.1.isSome).foldl (fun m p => m + 2 ^ (o + p.2)) 0
    (Op.writeMasked, off - o, 128, natLe 16 mask ++ List.replicate o 0 ++ d ++ List.replicate (128 - o - b.length) 0)
/-- The runs of consecutive bytes in a piece: place of each in the piece, and its bytes. -/
def pieceRuns (b : List (Option Byte)) : List (Nat × List Byte) :=
  joinRuns (b.zipIdx.filterMap fun p => p.1.map fun y => (p.2, y))

/-- Every write that a byte range takes. -/
def rangeWrites (off : Nat) (b : List Byte) : List (Nat × Nat × Nat × List Byte) :=
  (linePieces (b.length / 128 + 2) off b).map fun p => pieceWrite p.1 p.2

/-- QUEUE of a message: OPB bits [15:8] (Table 2-4). -/
def queueOf (h : Header) : Nat := h.opb / 256 % 256

/-! Replies (R26, R32). -/

/-- The fields a reply takes from its request (R32). -/
def replyTo (r : Req) : Reply :=
  { plot := r.h.plot, tag := r.h.tag, ctx := r.h.ctx, dst := r.h.src, src := r.h.dst }
/-- An ACK with a status and DETAIL (R26). -/
def ackOf (r : Req) (status detail : Nat) : Reply := { replyTo r with op := 0xC8, status, detail }
/-- The reply of a request that succeeded with the bytes it returns (R26): DATA class for a READ and for an atomic that
returns its old value. -/
def okReply (r : Req) (data : List Byte) : Reply :=
  if r.op = 0x01 then { replyTo r with op := 0xC0, len := r.h.len, data }
  else if opAtomic r.op ∧ !fmtNr r.h then { replyTo r with op := 0xC1, len := r.h.len, data }
  else ackOf r St.ok 0

end Sys2Proof.Machine
end

