-- ==== Sys2Proof/Machine/Wire.lean ====
section
/-! DEFINITION. What a port puts on its lanes: packets and frames as bytes (R28, R32, R310, R336, Tables 2-3, 2-9 and 13-4), blocks, the
scrambler, the dealing of blocks to lanes and codewords (R327, R328, Table 13-1). -/

namespace Sys2Proof.Machine

/-! Packets. -/

/-- A request packet (Table 2-3): its 24-byte header, and the payload. -/
def reqImage (r : Req) : List Byte :=
  natLe 4 (r.op % 256 + 2 ^ 8 * (r.h.plot % 16) + 2 ^ 12 * (r.h.sow % 4) + 2 ^ 14 * (r.h.sowix % 16) + 2 ^ 18 * (r.h.len % 4096)) ++
    natLe 4 (r.h.tag % 65536 + 2 ^ 16 * (r.h.ctx % 65536)) ++ natLe 4 (r.h.dst % 65536 + 2 ^ 16 * (r.h.src % 65536)) ++
    natLe 6 r.h.opa.toNat ++ natLe 2 r.h.opb ++ natLe 4 r.h.opc ++ r.data
/-- A reply packet (Table 2-9): its 16-byte header, and the payload. -/
def replyImage (r : Reply) : List Byte :=
  natLe 4 (r.op % 256 + 2 ^ 8 * (r.plot % 16) + 2 ^ 12 * (r.status % 256) + 2 ^ 20 * (r.len % 4096)) ++
    natLe 4 (r.tag % 65536 + 2 ^ 16 * (r.ctx % 65536)) ++ natLe 4 (r.dst % 65536 + 2 ^ 16 * (r.src % 65536)) ++ natLe 4 r.detail ++ r.data

/-! Frames (R336). -/

/-- The body of a frame before padding (R337, Table 13-10). -/
def LinkItem.body : LinkItem → List Byte
  | .request r => reqImage r
  | .reply r => replyImage r
  | .ident b => takePad 64 b
  | .keyx b => b
  | .dormant => []
/-- KIND of a frame (Table 13-4). -/
def LinkItem.kind : LinkItem → Nat
  | .request _ => 0
  | .reply _ => 0
  | .ident _ => 2
  | .keyx _ => 3
  | .dormant => 4
/-- PLOT of a frame: that of the packets in a GYCIA frame, 0xF for other kinds (Table 13-4). -/
def LinkItem.plot : LinkItem → Nat
  | .request r => r.h.plot
  | .reply r => r.plot
  | _ => 15
/-- Bytes of a body (R337, R347). -/
def itemBody : LinkItem → Nat
  | .request r => 24 + r.data.length
  | .reply r => 16 + r.data.length
  | .ident _ => 64
  | .keyx b => b.length
  | .dormant => 0
/-- Bytes a frame takes in the replay buffer: header block, body blocks and trailer block of 32 bytes (R336). -/
def itemBytes (i : LinkItem) : Nat := 32 * (2 + ceilDiv (itemBody i) 32)

/-- A FRAME header block (Table 13-4). -/
def frameHeader (kind : Nat) (phase : Bool) (seq plot bytes counter : Nat) : List Byte :=
  natLe 4 (0x55 + 2 ^ 8 * (kind % 16) + 2 ^ 12 * b2n phase + 2 ^ 16 * (seq % 4096) + 2 ^ 28 * (plot % 16)) ++
    natLe 4 (ceilDiv bytes 32 % 128 + 2 ^ 8 * (bytes % 4096)) ++ natLe 8 counter ++ natLe 16 0
/-- A GCM nonce (R310): byte 0 the direction, 0 from the hub and 1 to it; bytes 4-11 the frame counter. -/
def gcmNonce (direction counter : Nat) : List Byte := natLe 1 direction ++ natLe 3 0 ++ natLe 8 counter
/-- One bit of CRC-32C, reflected. -/
def crcBit (c : BitVec 32) : BitVec 32 := if c.getLsbD 0 then (c >>> 1) ^^^ 0x82F63B78#32 else c >>> 1
/-- One byte of CRC-32C. -/
def crcByte (c : BitVec 32) (b : Byte) : BitVec 32 :=
  crcBit (crcBit (crcBit (crcBit (crcBit (crcBit (crcBit (crcBit (c ^^^ b.zeroExtend 32))))))))
/-- CRC-32C (Castagnoli) of bytes (R336). -/
def crc32c (l : List Byte) : BitVec 32 := l.foldl crcByte 0xFFFFFFFF#32 ^^^ 0xFFFFFFFF#32
/-- A frame as its 32-byte blocks hold it (R310, R336): header, padded body and trailer. Under a link key the body is encrypted with the
header as additional authenticated data; before there is one it is plain, with a zero tag (DESIGN CHOICE, log entry 56). -/
def frameBytesOf (key header body : List Byte) (counter : Nat) : List Byte :=
  let plain := takePad (32 * ceilDiv body.length 32) body
  let sealed := if key.isEmpty then plain ++ natLe 16 0 else Config.aesGcm key (gcmNonce 0 counter) header plain
  let cipher := takePad plain.length sealed
  let tag := takePad 16 (sealed.drop plain.length)
  header ++ cipher ++ tag ++ natLe 4 (crc32c (header ++ cipher ++ tag)).toNat ++ natLe 12 0
/-- A sequenced frame as it is sent, and sent again, under the hub-to-far key of its phase (R310, R338). -/
def SentFrame.image (key : List Byte) (f : SentFrame) : List Byte :=
  frameBytesOf (key.take 32) (frameHeader f.item.kind f.phase f.seq f.item.plot (itemBody f.item) f.counter) f.item.body f.counter
/-- The body of a LINK frame (Table 13-6). -/
def linkBody (ack : Nat) (nak : Bool) (freed : Credits) (rxlock : Nat) : List Byte :=
  natLe 4 (ack % 4096 + 2 ^ 12 * b2n nak) ++ natLe 4 freed.mem ++ natLe 4 freed.sig ++ natLe 4 freed.msg ++ natLe 4 freed.red ++
    natLe 4 (rxlock % 256) ++ natLe 8 0

/-! Blocks (R327, R328). -/

/-- A block of 257 bits: the header bit, 1 for a control block, and the 32 payload bytes. -/
abbrev Block257 := Bool × List Byte
/-- The blocks of a frame: the header block is a control block, the others are data blocks. -/
def frameBlocks (image : List Byte) : List Block257 :=
  (List.range (image.length / 32)).map fun i => (i == 0, slice image (32 * i) 32)
/-- FILLER (Table 13-1). -/
def fillerBlock : Block257 := (true, natLe 1 0x1E ++ natLe 31 0)
/-- IDLE (Table 13-1). -/
def idleBlock : Block257 := (true, natLe 1 0x2D ++ natLe 31 0)
/-- LANEID (Table 13-1). -/
def laneidBlock (lane port counter : Nat) : Block257 := (true, natLe 1 0x4B ++ natLe 1 lane ++ natLe 1 port ++ natLe 1 counter ++ natLe 28 0)
/-- WAKE (Table 13-1). -/
def wakeBlock : Block257 := (true, natLe 1 0x78 ++ List.replicate 31 0xA5#8)
/-- The 20 blocks of a codeword in TRAINING and ALIGNING (R333): one LANEID and 19 IDLE. -/
def trainingBlocks (lane port counter : Nat) : List Block257 := laneidBlock lane port counter :: List.replicate 19 idleBlock
/-- The lanes that blocks from number `first` on are dealt to (R327): block i to the (i mod n)-th working lane. -/
def dealBlocks (dealt : List Nat) (first : Nat) (l : List Block257) : List (Nat × Block257) :=
  l.zipIdx.filterMap fun q => (dealt[(first + q.2) % dealt.length]?).map fun lane => (lane, q.1)
/-- The bits of bytes, least significant first (DESIGN CHOICE, log entry 56: the manual gives no bit order on a lane). -/
def bitsOf (l : List Byte) : List Bool := l.flatMap fun b => (List.range 8).map fun i => b.getLsbD i
/-- The self-synchronising scrambler x^58 + x^39 + 1 (R327): its last 58 output bits, newest first, and the scrambled bits. -/
def scramble : List Bool → List Bool → List Bool × List Bool
  | st, [] => (st, [])
  | st, b :: r =>
    let o := Bool.xor b (Bool.xor (st.getD 38 false) (st.getD 57 false))
    let q := scramble ((o :: st).take 58) r
    (q.1, o :: q.2)
/-- Blocks of a lane as bits: header bits stand as they are, payloads are scrambled (R327). -/
def laneBits : List Bool → List Block257 → List Bool × List Bool
  | st, [] => (st, [])
  | st, b :: r =>
    let q := scramble st (bitsOf (takePad 32 b.2))
    let z := laneBits q.1 r
    (z.1, b.1 :: (q.2 ++ z.2))
/-- A codeword of 5,440 bits: 20 blocks of 257 bits, and the parity of RS(544,514) over 10-bit symbols (R327; its field polynomial is
not in the manual: log entry 56). -/
def codewordOf (st : List Bool) (l : List Block257) : List Bool × List Bool :=
  let q := laneBits st (l.take 20)
  (q.1, q.2 ++ Config.rsParity q.2)

end Sys2Proof.Machine
end

