-- ==== Sys2Proof/Machine/Link.lean ====
section
/-! DEFINITION. Sending on a port's link (R336-R339), the answer to a request, the signal gate's count, the gather record of
a sowing, and the release of forward records (R26, R41, R46-R49, R76). -/

namespace Sys2Proof.Machine

/-! The link (R338). -/

/-- Bytes of a replay buffer: 64 KiB, pooled to 128 KiB on a bonded uplink (R338, R340). -/
def replayLimit (s : State) (p : Nat) : Nat := if bonded s p then 131072 else 65536
/-- Whether the sender may frame another item: lanes up and no retrain, fewer than 2,048 frames kept and room for it (R335, R338,
R341). -/
def canFrame (s : State) (p : Nat) (i : LinkItem) : Bool :=
  (s.port p).retrain.isNone && !(s.port p).settled && !(s.port p).waking && decide ((s.port p).replay.length < 2048) &&
    decide (((s.port p).replay.map SentFrame.bytes).sum + itemBytes i ≤ replayLimit s p)

/-- Count a frame sent under a port's link key (R310). -/
def countFrame (p : Nat) (s : State) : State :=
  match s.key.links.find p with
  | some l => s.onKey fun k => { k with links := k.links.set p { l with txCount := l.txCount + 1 } }
  | none => s
/-- An item as the next frame of a port (R310, R338). -/
def nextFrame (s : State) (p : Nat) (i : LinkItem) : SentFrame :=
  let l := (s.key.links.find p).getD {}
  { seq := ((s.port p).txSeq + 1) % 4096, bytes := itemBytes i, item := i, phase := l.phase, counter := l.txCount }
/-- The blocks of a frame are dealt to the port's lanes (R327). -/
def framesDealt (p n : Nat) (s : State) : State := s.onPort p fun x => { x with blockNo := x.blockNo + n }
/-- Send a sequenced frame with the next SEQ and keep it for replay (R338). -/
def frameOut (p : Nat) (i : LinkItem) (s : State) : State :=
  let f := nextFrame s p i
  emit (.link p f (s.port p).blockNo) (framesDealt p (f.bytes / 32) ((countFrame p s).onPort p fun x => { x with
    txSeq := f.seq
    ackTime := if x.replay.isEmpty then s.now else x.ackTime
    replay := x.replay ++ [f] }))

/-- Send an item on a port, or hold it until it can be framed, in order (R338). -/
def linkSend (p : Nat) (i : LinkItem) (s : State) : State :=
  if (s.port p).held.isEmpty && canFrame s p i then frameOut p i s
  else s.onPort p fun x => { x with held := x.held ++ [i] }

/-- Send held items while they can be framed. -/
def heldDrain (p : Nat) : Nat → State → State
  | 0, s => s
  | n + 1, s =>
    match (s.port p).held with
    | [] => s
    | i :: r => if canFrame s p i then heldDrain p n (frameOut p i (s.onPort p fun x => { x with held := r })) else s

/-! The reply network (R65-R68, R70, R71). -/

/-- ServiceQuota of plot n (R70). -/
def serviceQuota (s : State) (n : Nat) : Nat := cfg (0x403000 + n + 1) (if n = 0 then 64 else 56) s
/-- Class of a reply (R25): 0 DATA, 1 ACK. -/
def replyClass (r : Reply) : Nat := if r.op = Op.rdData ∨ r.op = Op.atomData then 0 else 1
/-- The tile where a reply of one of the hub's nodes toward a port enters the reply network (Table 3-1, R63): the headland tile of the core
that answers, or the headland tile of the egress column for the hub's other nodes. -/
def replyTile (p : Nat) (r : Reply) : Nat :=
  let lep := lepOf r.src
  if 0x80 ≤ lep ∧ lep < 0xC0 then 128 + lep % 16 else 128 + p % 16

/-- Replies of a port in one of the reply network's stores. -/
def netReplies (m : FMap (List NetReply)) (p : Nat) : List NetReply := m.getD p []
/-- A store with a port's replies; a port without any is not listed. -/
def putReplies (m : FMap (List NetReply)) (p : Nat) (l : List NetReply) : FMap (List NetReply) := if l.isEmpty then m.erase p else m.set p l
/-- Reply cells that replies of a test hold in the reply buffer of a tile. -/
def replyUsed (s : State) (tile : Nat) (keep : Reply → Bool) : Nat :=
  (s.sw.replyWait.map fun kv => ((kv.2.filter fun y => y.tile == tile && keep y.rep).map fun y => replyCells y.rep).sum).sum
/-- Cells of a headland tile's reply issue buffer (Table 3-2). -/
def replyIssueCap : Nat := 2048
/-- Reply cells of a tile (Table 3-2, R67): a bonded uplink's even tile has those of both, its odd tile none of its own. -/
def replyCap (s : State) (tile : Nat) : Nat :=
  if tile < 128 then (if oddOfBond s tile then 0 else if bonded s tile then 4096 else 2048) else replyIssueCap
/-- Reply cells of a tile in use: held by replies, or reserved by a forward record of the tile's port or by a gather record (R68, R84). -/
def replyTaken (s : State) (tile : Nat) : Nat :=
  replyUsed s tile (fun _ => true) + (s.sw.records.getD tile []).length + (s.sw.gathers.filter fun g => g.tile == tile).length
/-- Whether a reply can enter the reply buffer of its tile (R68, R70): one with a reserved cell always; another within the buffer, and in
a headland issue buffer within its plot's quota. -/
def replyRoom (s : State) (y : NetReply) : Bool :=
  y.reserved || if y.tile < 128 then decide (replyTaken s y.tile + replyCells y.rep ≤ replyCap s y.tile) else
    (decide (replyUsed s y.tile (fun r => r.plot == y.rep.plot) + replyCells y.rep ≤ serviceQuota s y.rep.plot) &&
      decide (replyUsed s y.tile (fun _ => true) + replyCells y.rep ≤ replyIssueCap))
/-- Whether a reply egress stage has room for a reply's class: 2 frames (Table 3-2). -/
def replyStageRoom (s : State) (p : Nat) (r : Reply) : Bool :=
  decide (((netReplies s.sw.replyStage p).filter fun y => replyClass y.rep == replyClass r).length < 2)

/-- Put a reply on the link of a port. -/
def replySend (p : Nat) (r : Reply) (s : State) : State := linkSend p (.reply r) (bump (0xC41300 + p + 1) (replyCells r) s)
/-- Whether a reply can go straight out of a port: nothing waits there before it, the link takes it, and its tile has room for it. -/
def replyIdle (s : State) (p : Nat) (y : NetReply) : Bool :=
  (netReplies s.sw.replyStage p).isEmpty && (netReplies s.sw.replyWait p).isEmpty && (netReplies s.sw.replyKept p).isEmpty &&
    (s.port p).held.isEmpty && canFrame s p (.reply y.rep) && replyRoom s y

/-- How far a reply's tile is from its turn at an egress (R71: round robin). -/
def replyDist (s : State) (p : Nat) (y : NetReply) : Nat :=
  (y.tile + 143 - s.sw.replyServed.getD (2 * p + replyClass y.rep) 143) % 144
/-- The next reply that passes from the reply cells into the egress stage of a port (R71): the tiles take turns within a class, and DATA
and ACK alternate frame by frame, as far as both wait and the stage has room. -/
def replyNext (s : State) (p : Nat) : Option NetReply :=
  let l := (netReplies s.sw.replyWait p).filter fun y => replyStageRoom s p y.rep
  let l := l.filter fun y => l.all fun z => replyClass z.rep != replyClass y.rep || decide (replyDist s p y ≤ replyDist s p z)
  let turn := match s.sw.replyTurn.find p with
    | some 0 => 1
    | _ => 0
  match l.find? fun y => replyClass y.rep == turn with
  | some y => some y
  | none => l.head?
/-- One move in the reply network of a port: a kept reply enters its issue buffer (R68), a waiting one its egress stage (R66), or the
oldest of the stage goes out on the link; none when nothing can move. -/
def replyMove (p : Nat) (s : State) : Option State :=
  match (netReplies s.sw.replyKept p).find? (replyRoom s) with
  | some y => some (s.onSw fun w => { w with
      replyKept := putReplies w.replyKept p ((netReplies w.replyKept p).erase y)
      replyWait := putReplies w.replyWait p (netReplies w.replyWait p ++ [y]) })
  | none =>
    match replyNext s p with
    | some y => some (s.onSw fun w => { w with
        replyWait := putReplies w.replyWait p ((netReplies w.replyWait p).erase y)
        replyStage := putReplies w.replyStage p (netReplies w.replyStage p ++ [y])
        replyServed := w.replyServed.set (2 * p + replyClass y.rep) y.tile
        replyTurn := if ((netReplies w.replyWait p).erase y).isEmpty then w.replyTurn.erase p else w.replyTurn.set p (replyClass y.rep) })
    | none =>
      match netReplies s.sw.replyStage p with
      | [] => none
      | y :: rest =>
        if (s.port p).held.isEmpty && canFrame s p (.reply y.rep) then
          some (replySend p y.rep (s.onSw fun w => { w with replyStage := putReplies w.replyStage p rest }))
        else none
/-- Make at most n moves. -/
def replyMoves (p : Nat) : Nat → State → State
  | 0, s => s
  | n + 1, s =>
    match replyMove p s with
    | some t => replyMoves p n t
    | none => s
/-- Replies of a port that have not been sent. -/
def repliesAt (s : State) (p : Nat) : Nat :=
  (netReplies s.sw.replyStage p).length + (netReplies s.sw.replyWait p).length + (netReplies s.sw.replyKept p).length
/-- Let the replies toward a port move as far as they can. -/
def replyPump (p : Nat) (s : State) : State := replyMoves p (3 * repliesAt s p) s
/-- A reply toward a port enters the reply network (R68). -/
def replyOut (p : Nat) (y : NetReply) (s : State) : State :=
  if replyIdle s p y then replySend p y.rep s
  else replyPump p (s.onSw fun w => { w with replyKept := putReplies w.replyKept p (netReplies w.replyKept p ++ [y]) })

/-- Send every held item that can be framed, and the replies that wait behind them. -/
def linkDrain (p : Nat) (s : State) : State := replyPump p (heldDrain p (s.port p).held.length s)

/-! Replies (R26, R32, R68). -/

/-- Whether a port still carries replies: ACTIVE or DEGRADED, or DORMANT or FALLOW after leaving them (R331). -/
def carriesReplies (s : State) (p : Nat) : Bool :=
  match (s.port p).st with
  | .active => true
  | .degraded => true
  | .dormant => true
  | .fallow => true
  | _ => false

/-- Whether a plot has been removed, so that late replies to it are discarded (R319). -/
def plotGone (s : State) (n : Nat) : Bool := (s.plot n).st == .empty && n != 0 && decide (n < 9)

/-- Where a reply enters the reply network. -/
inductive ReplyEntry where
  /-- At one of the hub's nodes, the reply's SRC. -/
  | node
  /-- In the reply cell that a record reserved in a tile: a forward record in that of its egress port (R68), a gather record in its own. -/
  | record (tile : Nat)
  /-- At the tile of the ingress port that refuses the request. -/
  | ingress
/-- Whether a reply enters at its ingress port. -/
def ReplyEntry.atIngress : ReplyEntry → Bool
  | .ingress => true
  | _ => false

/-- Deliver a reply that enters at a place to where its request came from (R32): discarded and counted when its plot has been removed
(R319), its core is being reset (R404) or its port is lost (R437). A refusal at a port that admits no request yet leaves by it (R331). -/
def deliverFrom (e : ReplyEntry) (via : Ingress) (r : Reply) (s : State) : State :=
  match via with
  | .core c _ =>
    if (s.core c).resetting then bump 0xC40F04 1 s
    else if plotGone s r.plot then bump 0xC40C03 1 s
    else emit (.reply via r) s
  | .port p =>
    if plotGone s r.plot then bump 0xC40C03 1 s
    else if carriesReplies s p || (e.atIngress && (s.port p).st == .identifying) then
      replyOut p (match e with
        | .node => { tile := replyTile p r, rep := r }
        | .record t => { tile := t, rep := r, reserved := true }
        | .ingress => { tile := p, rep := r }) s
    else bump 0xC40504 1 s
  | .unit =>
    match s.coll.unitOps.find r.tag with
    | some u => s.onColl fun c => { c with unitOps := c.unitOps.erase r.tag, answers := c.answers ++ [{ op := u, status := r.status, detail := r.detail, time := s.now }] }
    | none => s
  | .host => if s.lania.comp = .lost then s else emit (.reply via r) s
  | .mgmt => emit (.reply via r) s
/-- Deliver a reply of one of the hub's nodes. -/
def deliverReply (via : Ingress) (r : Reply) (s : State) : State := deliverFrom .node via r s

/-! The signal gate (R46, R264). -/

/-- Whether the gate's entries count a request (R264): those of every ingress but the hub's own units. -/
def gated (r : Req) : Bool := r.via != .unit
/-- Modifying accesses of a core's engines that wait at the pool: its issue point counts them in their own entry (R46, R264). -/
def engWrites (s : State) (src dst : Nat) : Nat :=
  (s.pool.waiting.filter fun v => !gated v.req && opGated v.req.op && v.req.h.src == src && v.req.h.dst == dst).length
/-- Whether a source has a gate entry of its own for a destination. -/
def gateHas (s : State) (src dst : Nat) : Bool := s.sw.gate.any fun g => g.src == src && g.dst == dst
/-- Gate entries in use by a source (R264). -/
def gateUsed (s : State) (src : Nat) : Nat :=
  let pool := nodeOf s 0xC0
  (s.sw.gate.filter fun g => g.src == src).length + b2n (engWrites s src pool != 0 && !gateHas s src pool)

/-- Count a modifying MEM request (R46): in its pair's entry, or in the source's shared entry when all 256 are taken (R264). -/
def gateCount (src dst : Nat) (s : State) : State :=
  if gateHas s src dst then
    s.onSw fun w => { w with gate := updFirst (fun g => g.src == src && g.dst == dst) (fun g => { g with count := g.count + 1 }) w.gate }
  else if gateUsed s src < 256 then s.onSw fun w => { w with gate := w.gate ++ [{ src, dst, count := 1 }] }
  else s.onSw fun w => { w with gateShared := w.gateShared.set src (w.gateShared.getD src 0 + 1) }

/-- A counted request has been answered (R46): its pair's entry falls, else the source's shared entry. -/
def gateAnswered (src dst : Nat) (s : State) : State :=
  if gateHas s src dst then
    s.onSw fun w => { w with
      gate := (updFirst (fun g => g.src == src && g.dst == dst) (fun g => { g with count := g.count - 1 }) w.gate).filter
        fun g => g.count != 0 }
  else s.onSw fun w => { w with
    gateShared := let n := w.gateShared.getD src 0 - 1
      if n = 0 then w.gateShared.erase src else w.gateShared.set src n }

/-- Unanswered modifying requests the gate counts for a pair (R46, R264): its entry, and the source's shared entry when the
pair has none of its own. -/
def gateOpen (s : State) (src dst : Nat) : Nat :=
  let n := engWrites s src dst
  match s.sw.gate.find? (fun g => g.src == src && g.dst == dst) with
  | some g => g.count + n
  | none => if n = 0 then s.sw.gateShared.getD src 0 else n

/-! Gather records (R41, R76). -/

/-- The SOW_ACK of a gather record (R41, Table 2-12). -/
def sowAckOf (g : Gather) : Reply :=
  { replyTo g.req with
    op := 0xC9
    status := if g.failed = 0 then St.ok else g.lowStatus
    detail := g.sent % 256 + g.failed % 256 * 256 + (if g.failed = 0 then 0 else g.lowPort * 65536) }

/-- One copy of a sowing has met its outcome (R41): the record collects it, and the last one produces the SOW_ACK. -/
def gatherOne (ident port status : Nat) (s : State) : State :=
  match s.sw.gathers.find? (fun g => g.ident == ident) with
  | none => s
  | some g =>
    let g := { g with
      open_ := g.open_ - 1
      failed := if status = St.ok then g.failed else g.failed + 1
      lowPort := if status = St.ok then g.lowPort else if g.failed = 0 then port else min g.lowPort port
      lowStatus := if status = St.ok then g.lowStatus
        else if g.failed = 0 then status else if port < g.lowPort then status else g.lowStatus }
    if g.open_ = 0 then
      deliverFrom (.record g.tile) g.req.via (sowAckOf g) (s.onSw fun w => { w with gathers := w.gathers.filter fun x => x.ident != ident })
    else s.onSw fun w => { w with gathers := updFirst (fun x => x.ident == ident) (fun _ => g) w.gathers }

/-! The answer to a request (R26). -/

/-- Answer a request (R26): the gate counts it answered (R46), a sowing copy goes to its gather record (R76), any other reply
to its requester, from where it enters. -/
def answerFrom (e : ReplyEntry) (r : Req) (gather : Option Nat) (rep : Reply) (s : State) : State :=
  let s := if opGated r.op && gated r then gateAnswered r.h.src r.h.dst s else s
  match gather with
  | some g => gatherOne g (lepOf r.h.dst) rep.status s
  | none => deliverFrom e r.via rep s
/-- Answer a request from one of the hub's nodes. -/
def answer (r : Req) (gather : Option Nat) (rep : Reply) (s : State) : State := answerFrom .node r gather rep s

/-- Count the refusals that have a counter of their own. -/
def countRefusal (status : Nat) (s : State) : State :=
  if status = St.malformed then bump 0xC40102 1 s
  else if status = St.scope then bump 0xC40103 1 s
  else if status = St.plotRemoved then bump 0xC40C04 1 s
  else if status = St.keyRetired then bump 0xC40C05 1 s
  else if status = St.orphaned then bump 0xC40603 1 s
  else s

/-- Fail a request that the gate has counted already (R46). -/
def failReq (r : Req) (gather : Option Nat) (status detail : Nat) (s : State) : State :=
  answer r gather (ackOf r status detail) (countRefusal status s)
/-- Fail the request of a forward record at an egress port, which has been dropped (R47, R49). -/
def failRecord (p : Nat) (f : FwdRec) (status detail : Nat) (s : State) : State :=
  answerFrom (.record p) f.req f.gather (ackOf f.req status detail) (countRefusal status s)

/-- Refuse a request before the gate counts it (R470): the reply goes back, nothing else happens. -/
def refuseReq (r : Req) (status detail : Nat) (s : State) : State :=
  deliverFrom .ingress r.via (ackOf r status detail) (countRefusal status s)

/-- DETAIL of a failure raised by this hub with an egress port, 0xFF for none (Table 2-12). -/
def hubDetail (s : State) (egress : Nat) : Nat := hubId s + 256 * egress
/-- DETAIL of a failure that one of the hub's own nodes gives (Table 2-12): of FAIL_MALFORMED this hub's ID with no reason of the table,
which names reasons of a request's header alone. -/
def nodeDetail (s : State) (status : Nat) : Nat :=
  if status = St.malformed then 256 * hubId s
  else if status = St.unreachable ∨ status = St.scope ∨ status = St.timeout ∨ status = St.portLost then hubDetail s 0xFF
  else 0

/-! Forward records (R47-R49). -/

/-- Forward records of an egress port. -/
def State.records (s : State) (p : Nat) : List FwdRec := s.sw.records.getD p []
/-- Whether a record is of a requester and tag. -/
def FwdRec.is (f : FwdRec) (src tag : Nat) : Bool := f.req.h.src == src && f.req.h.tag == tag
/-- Drop a record. -/
def dropRecord (p : Nat) (f : FwdRec) (s : State) : State :=
  s.onSw fun w => { w with records :=
    let l := (w.records.getD p []).erase f
    if l.isEmpty then w.records.erase p else w.records.set p l }
/-- Drop every record of a port. -/
def dropRecords (p : Nat) (s : State) : State := s.onSw fun w => { w with records := w.records.erase p }

end Sys2Proof.Machine
end

