-- ==== Sys2Proof/Machine/SyncOps.lean ====
section
/-! DEFINITION. Counters and watches (R251-R262): ranges of the plots, updates, the watch command, and what the firing of a watch
leaves in it. -/

namespace Sys2Proof.Machine

/-! Ranges (R251, R255). -/

/-- First counter of plot n. -/
def ctrBase (s : State) (n : Nat) : Nat := cfg (0x820100 + n + 1) (if n = 0 then 0xFF00 else 0) s
/-- Counters of plot n. -/
def ctrCount (s : State) (n : Nat) : Nat := cfg (0x820200 + n + 1) (if n = 0 then 256 else 0) s
/-- First watch of plot n. -/
def watchBase (s : State) (n : Nat) : Nat := cfg (0x820300 + n + 1) (if n = 0 then 0x3F00 else 0) s
/-- Watches of plot n. -/
def watchCount (s : State) (n : Nat) : Nat := cfg (0x820400 + n + 1) (if n = 0 then 256 else 0) s
/-- Whether counter c belongs to plot n (R251). -/
def ctrIn (s : State) (n c : Nat) : Bool := decide (ctrBase s n ≤ c) && decide (c < ctrBase s n + ctrCount s n)
/-- Whether watch w belongs to plot n (R255). -/
def watchIn (s : State) (n w : Nat) : Bool := decide (watchBase s n ≤ w) && decide (w < watchBase s n + watchCount s n)
/-- The plot of a watch (R255). -/
def watchPlot (s : State) (w : Nat) : Option Nat := plotNums.find? fun n => watchIn s n w

/-- Whether a node of this hub is a node of plot n (R24): an end point by its port, a core by its owner, nodes 0xC1 and 0xC2
for plot 0. -/
def lepInPlot (s : State) (lep n : Nat) : Bool :=
  if lep < 0x80 then portPlot s lep == n
  else if lep < 0xC0 then corePlot s (lep - 0x80) == some n
  else (lep == 0xC1 || lep == 0xC2) && n == 0

/-! Counters (R251-R253). -/

/-- The value of a counter. -/
def ctrVal (s : State) (c : Nat) : Nat := (s.sync.ctrs.getD c 0).toNat
/-- The watches of a counter are to be examined (R259). -/
def touch (c : Nat) (s : State) : State :=
  if s.sync.touched.contains c then s else s.onSync fun y => { y with touched := y.touched ++ [c] }

/-- Apply a SIG request to hub counters (R252): its status, and the state after it. -/
def sigApply (op : Nat) (h : Header) (data : List Byte) (s : State) : Nat × State :=
  let c := h.opa.toNat
  let k := fieldAt data 0 8
  let v := ctrVal s c
  if 65536 ≤ c then (St.protection, s)
  else if !ctrIn s h.plot c then (St.protection, s)
  else if s.chk.badMeta.contains (.counter c) then (St.internal, s)
  else if op = Op.sigAdd ∧ 2 ^ 64 ≤ v + k then
    (St.state, raise 0x8201 [c, v, k, h.src, h.tag] (bump 0xC40A02 1 s))
  else
    let v' := if op = Op.sigAdd then v + k else max v k
    let s := s.onSync fun y => { y with ctrs := y.ctrs.set c (BitVec.ofNat 64 v') }
    (St.ok, touch c (bump 0xC40A01 1 s))

/-! Watches (R255-R262). -/

/-- A watch. -/
def State.watch (s : State) (w : Nat) : Watch := s.sync.watches.getD w {}
/-- Update a watch. -/
def State.onWatch (w : Nat) (f : Watch → Watch) (s : State) : State :=
  s.onSync fun y => { y with watches := y.watches.set w (f (y.watches.getD w {})) }

/-- A watch leaves the armed set: RESERVED when a program holds it, else FREE (R260). -/
def unarm (w : Nat) (s : State) : State :=
  match (s.watch w).core with
  | some c => s.onWatch w fun x => { st := .reserved, owner := x.owner, core := some c }
  | none => s.onSync fun y => { y with watches := y.watches.erase w }

/-- Arm a watch (R256, R258): its counter's watches are examined. -/
def arm (w : Nat) (x : Watch) (s : State) : State :=
  let s := s.onSync fun y => { y with
    watches := y.watches.set w { x with st := .armed, order := y.nextOrder }
    nextOrder := y.nextOrder + 1 }
  touch x.ctr (bump 0xC40A03 1 s)

/-- Whether a reserved bit of a watch command is set (Table 10-2). -/
def watchReserved (b : List Byte) : Bool :=
  fieldAt b 1 1 != 0 || decide (2 ^ 14 ≤ fieldAt b 4 4) || fieldAt b 30 2 != 0

/-- A watch command (R256, R257) of a requester (its node and plot; `host`: through SYNC_WATCH_CMD): its status, and the state
after it. The conditions of R257 hold for every command, a DISARM and a DOORBELL among them (log entry 42). -/
def watchCommand (host : Bool) (node plot : Nat) (b : List Byte) (s : State) : Nat × State :=
  let w0 := fieldAt b 0 4
  let op := w0 % 16
  let mode := bits w0 5 4
  let act := bits w0 7 6
  let c := bits w0 31 16
  let w := fieldAt b 4 4 % 2 ^ 14
  let step := fieldAt b 16 4
  let tnode := fieldAt b 20 2
  let x := s.watch w
  let doorbell := act == 1
  if (op != 1 && op != 2) || mode == 3 || decide (2 ≤ act) || (mode == 2 && step == 0) || watchReserved b then
    (St.malformed, s)
  else if !ctrIn s plot c || !watchIn s plot w || (doorbell && (plot != 0 || !host)) ||
      (hubOf tnode == hubId s && !lepInPlot s (lepOf tnode) plot) then (St.protection, s)
  else if hubOf tnode != hubId s then (St.scope, s)
  else if s.chk.badMeta.contains (.watch w) then (St.internal, s)
  else if op = 1 then
    if x.st != .free then (St.state, s)
    else
      (St.ok, arm w
        { mode := if mode = 0 then .once else if mode = 1 then .claim else .rearm
          act := if doorbell then .doorbell else .msg
          ctr := c, thr := fieldAt b 8 8, step, owner := node, tnode, tqueue := fieldAt b 22 2, tag := fieldAt b 24 6 } s)
  else
    match x.st with
    | .free => (St.ok, s)
    | .reserved => (St.state, s)
    | .armed => if x.owner = node then (St.ok, unarm w s) else (St.state, s)

/-! The condition of a watch (R260). -/

/-- Whether an armed watch is to fire. -/
def watchDue (s : State) (x : Watch) : Bool :=
  x.st == .armed &&
    match x.mode with
    | .claim => decide (s.sync.grants.getD x.ctr 0 < ctrVal s x.ctr)
    | _ => decide (x.thr ≤ ctrVal s x.ctr)

/-- The order of two watches due on one counter (R259): CLAIM watches by order of arming, then the others by threshold, ties by
order of arming. -/
def watchBefore (x y : Watch) : Bool :=
  if x.mode == .claim && y.mode != .claim then true
  else if x.mode != .claim && y.mode == .claim then false
  else if x.mode == .claim then decide (x.order < y.order)
  else decide (x.thr < y.thr) || (x.thr == y.thr && decide (x.order < y.order))

/-- The watch of a counter that fires next, if one is due; under the Hedge none does (R320). -/
def nextFiring (s : State) (c : Nat) : Option (Nat × Watch) :=
  (s.sync.watches.filter fun kv => kv.2.ctr == c && watchDue s kv.2 &&
      match watchPlot s kv.1 with
      | some n => (s.plot n).st == .active || (s.plot n).st == .forming
      | none => false).foldl
    (fun b kv => match b with
      | none => some kv
      | some a => if watchBefore kv.2 a.2 then some kv else some a) none

/-- The payload of a firing message (Table 10-3). -/
def firingPayload (value met ctr watch : Nat) (last : Bool) : List Byte :=
  natLe 8 value ++ natLe 8 met ++ natLe 2 ctr ++ natLe 2 0 ++ natLe 4 (watch + 2 ^ 14 * b2n last) ++ natLe 8 0

/-- What a firing leaves in its watch and counter (R260): MET, whether it left the watch FREE, and the state after it. -/
def fireLeaves (w : Nat) (x : Watch) (s : State) : Nat × Bool × State :=
  let prog := x.core.isSome
  match x.mode with
  | .once => (x.thr, !prog, unarm w s)
  | .claim =>
    let g := s.sync.grants.getD x.ctr 0 + 1
    (g, !prog, unarm w (s.onSync fun y => { y with grants := y.grants.set x.ctr g }))
  | .rearm =>
    if x.thr + x.step < 2 ^ 64 then (x.thr, false, s.onWatch w fun y => { y with thr := y.thr + y.step })
    else (x.thr, !prog, unarm w s)

/-- A CLAIM grant that was dropped is returned (R267). -/
def grantBack (c : Nat) (s : State) : State :=
  touch c (s.onSync fun y => { y with grants := y.grants.set c (y.grants.getD c 0 - 1) })

end Sys2Proof.Machine
end

