-- ==== Sys2Proof/Machine/TimeOps.lean ====
section
/-! DEFINITION. The time exchange (R433, R434). -/

namespace Sys2Proof.Machine

/-- TimeUpstreamPort 0xB120.02; 0xFF none. -/
def upstreamPort (s : State) : Nat := cfg 0xB12002 0xFF s
/-- Whether this hub is the time source (R433). -/
def timeSource (s : State) : Bool := cfg 0xB12001 0 s == 1

/-- A time message (R433): kind, sequence number, t2 and t3. -/
def timeBody (kind seq t2 t3 : Nat) : List Byte := natLe 4 kind ++ natLe 4 seq ++ natLe 8 t2 ++ natLe 8 t3 ++ List.replicate 8 0

/-- A time message from node 0xC2 to node 0xC2 of a hub. -/
def timeMsg (s : State) (hub : Nat) (body : List Byte) : Req :=
  { via := .mgmt, op := Op.msgSend,
    h := { len := 32, dst := 256 * hub + 0xC2, src := nodeOf s 0xC2, opb := 4 * 256 }, data := body }

/-- A time request arrives at node 0xC2 (R433): the reply carries t2, and t3 is stamped as it leaves. The reply enters through
the outbox of the hub's own units. -/
def timeRequested (src : Nat) (data : List Byte) (s : State) : State :=
  let m := timeMsg s (hubOf src) (timeBody 2 (fieldAt data 4 4) s.now 0)
  s.onColl fun c => { c with outbox := c.outbox ++ [m] }

/-- The rate the hub takes to correct an offset: the manual bounds it by 200 ppm and gives no value, so its size is a free
value, with the sign that reduces the offset (R433; log entry 7). -/
def rateFor (s : State) (offset : Int) : Int :=
  let k : Int := (s.draw.toNat % 200001 : Nat)
  if offset = 0 then 0 else if offset < 0 then -k else k

/-- The hub is no longer locked (R434): cause 0 missed exchanges, 1 offset, 2 upstream port lost. -/
def timeUnlock (cause : Nat) (s : State) : State :=
  if s.time.locked then raise 0xB109 [cause, unsigned 32 s.time.offset] (s.onTime fun t => { t with locked := false, good := 0 })
  else s.onTime fun t => { t with good := 0 }

/-- An offset has been measured (R433, R434). -/
def timeOffset (offset : Int) (s : State) : State :=
  let s := if 10000 < offset then bump 0xC43006 1 (s.onTime fun t => { t with now := t.now + offset.toNat })
    else (s.onTime fun t => { t with rate := rateFor s offset }).drawn
  let s := s.onTime fun t => { t with offset, missed := 0, exch := none }
  if offset.natAbs ≤ 10 then
    let s := s.onTime fun t => { t with good := t.good + 1 }
    if !s.time.locked && decide (8 ≤ s.time.good) then
      raise 0xB108 [upstreamPort s, unsigned 32 offset] (s.onTime fun t => { t with locked := true })
    else s
  else if 40 < offset.natAbs then timeUnlock 1 s
  else s.onTime fun t => { t with good := 0 }

/-- A time reply arrives (R433): stamped t4 on arrival; one that answers no exchange in progress is discarded. -/
def timeReplied (data : List Byte) (s : State) : State :=
  match s.time.exch with
  | none => s
  | some (q, t1) =>
    if fieldAt data 4 4 ≠ q ∨ fieldAt data 0 4 % 16 ≠ 2 then s
    else
      let t2 : Int := (fieldAt data 8 8 : Nat)
      let t3 : Int := (fieldAt data 16 8 : Nat)
      timeOffset (((t2 - (t1 : Nat)) - ((s.now : Nat) - t3)) / 2) s

/-- A time message at node 0xC2, QUEUE 4 (R433). -/
def timeIntake (src : Nat) (data : List Byte) (s : State) : State :=
  if fieldAt data 0 4 % 16 = 1 then timeRequested src data s else timeReplied data s

/-- Begin an exchange (R433): one that is still unanswered counts as missed (R434). t1 is stamped as the request leaves. -/
def timeStart (s : State) : State :=
  let s := if s.time.exch.isSome then
      let s := s.onTime fun t => { t with missed := t.missed + 1, exch := none }
      if 3 ≤ s.time.missed then timeUnlock 0 s else s
    else s
  s.onTime fun t => { t with seq := (t.seq + 1) % 2 ^ 32, exch := some ((t.seq + 1) % 2 ^ 32, t.now) }

/-- Stamp a time message of node 0xC2 as its frame leaves (R433): t1 of a request, t3 of a reply. -/
def timeStamp (r : Req) (s : State) : Req × State :=
  if r.op = Op.msgSend ∧ r.via = .mgmt ∧ r.h.opb / 256 % 256 = 4 ∧ lepOf r.h.dst = 0xC2 then
    if fieldAt r.data 0 4 % 16 = 1 then
      (r, s.onTime fun t => { t with exch := t.exch.map fun e => (e.1, t.now) })
    else ({ r with data := r.data.take 16 ++ natLe 8 s.now ++ r.data.drop 24 }, s)
  else (r, s)

end Sys2Proof.Machine
end

