-- ==== Sys2Proof/Machine/Translate.lean ====
section
/-! DEFINITION. Contexts, the walk of the mirror, the translation caches and the checks at the memory (R90-R102, Table 4-1),
with the geometry of the pool's physical map (R117-R121) and the checks at the pool (Table 5-5). -/

namespace Sys2Proof.Machine

/-! The physical map (Table 5-2, Table 5-3). -/

/-- Bytes of an extent (R120). -/
abbrev extBytes : Nat := 2 ^ 28
/-- Bytes of a frame (R96). -/
abbrev frameBytes : Nat := 2 ^ 16

/-- Base physical address of an extent (Table 5-3); the numbers that are never present have none. -/
def extBase (x : Nat) : Option Nat :=
  if x < 0x940 then some (x / 74 * 2 ^ 35 + x % 74 * extBytes)
  else if x < 0x1000 then none
  else if x < 0x2000 then some (0x020000000000 + (x - 0x1000) * extBytes)
  else if x < 0x3000 then some (0x030000000000 + (x - 0x2000) * extBytes)
  else if x < 0x5000 then some (0x040000000000 + (x - 0x3000) * extBytes)
  else none

/-- Tier of an extent (Table 5-3); 0 for a number that is never present. -/
def extTier (x : Nat) : Nat :=
  if x < 0x940 then 1 else if x < 0x1000 then 0 else if x < 0x3000 then 2 else if x < 0x5000 then 3 else 0

/-- The extent that holds a physical address of Table 5-2; none in a gap or outside the map (R119). -/
def extOf (pa : Nat) : Option Nat :=
  if pa < 0x010000000000 then
    if pa % 2 ^ 35 < 74 * extBytes then some (pa / 2 ^ 35 * 74 + pa % 2 ^ 35 / extBytes) else none
  else if pa < 0x020000000000 then none
  else if pa < 0x030000000000 then some (0x1000 + (pa - 0x020000000000) / extBytes)
  else if pa < 0x040000000000 then some (0x2000 + (pa - 0x030000000000) / extBytes)
  else if pa < 0x060000000000 then some (0x3000 + (pa - 0x040000000000) / extBytes)
  else none

/-- The extent and slot of a version view address (R130). -/
def viewOf (pa : Nat) : Option (Nat × Nat) :=
  if 0x800000000000 ≤ pa ∧ pa < 0xD00000000000 then
    some ((pa - 0x800000000000) / extBytes / 16, (pa - 0x800000000000) / extBytes % 16)
  else none

/-- The channel set of a tier 1 extent (R118). -/
def extSet (x : Nat) : Nat := x / 74
/-- Home frame of page i of an extent (R124). -/
def homeFrame (x i : Nat) : Nat := (extBase x).getD 0 / frameBytes + i

/-- The CXL port of a tier 2 extent. -/
def extCxl (x : Nat) : Nat := if x < 0x2000 then 0 else 1
/-- A CXL port (R360). -/
def State.cxlPort (s : State) (q : Nat) : CxlPort := s.cxl.ports.getD q {}
/-- Capacity of tier 3: the device's, as either head reports it (R362). -/
def tier3Capacity (s : State) : Nat := max (s.cxlPort 2).capacity (s.cxlPort 3).capacity
/-- Whole extents of a device's capacity (R121). -/
def wholeExtents (cap : Nat) : Nat := cap / extBytes
/-- Whole extents of a device held back: the highest ceil(1 % of capacity / 256 MiB) (R121). -/
def reservedExtents (cap : Nat) : Nat := ceilDiv cap (100 * extBytes)
/-- Number of an extent within its device. -/
def extInDevice (x : Nat) : Nat := if x < 0x2000 then x - 0x1000 else if x < 0x3000 then x - 0x2000 else x - 0x3000
/-- Capacity of the device that holds an extent of tier 2 or 3. -/
def extCapacity (s : State) (x : Nat) : Nat := if extTier x = 3 then tier3Capacity s else (s.cxlPort (extCxl x)).capacity

/-- Whether tier 3 is in service at this hub (R308, R362): a head in service, one device, and the pair secret held. -/
def tier3Up (s : State) : Bool :=
  ((s.cxlPort 2).st == 1 || (s.cxlPort 3).st == 1) && !s.cxl.split && s.key.pairState == 1

/-- PRESENT of an extent (R120, R121, R362). -/
def extPresent (s : State) (x : Nat) : Bool :=
  match extTier x with
  | 1 => true
  | 2 => (s.cxlPort (extCxl x)).st != 2 && decide (extInDevice x < wholeExtents (extCapacity s x))
  | 3 => !s.cxl.split && s.key.pairState == 1 && (s.cxlPort 2).st != 2 && decide (extInDevice x < wholeExtents (extCapacity s x))
  | _ => false

/-- Whether an extent is one of a device's reserved ones: PRESENT 1, STATE SCRUBBING, never assigned (R121). -/
def extReserved (s : State) (x : Nat) : Bool :=
  (extTier x == 2 || extTier x == 3) &&
    decide (wholeExtents (extCapacity s x) ≤ extInDevice x + reservedExtents (extCapacity s x)) &&
    decide (extInDevice x < wholeExtents (extCapacity s x))

/-- What the pool keeps of an extent (R123). -/
def State.ext (s : State) (x : Nat) : Extent := s.pool.exts.getD x {}
/-- Update an extent. -/
def State.onExt (x : Nat) (f : Extent → Extent) (s : State) : State :=
  s.onPool fun p => { p with exts := p.exts.set x (f (p.exts.getD x {})) }
/-- LOCAL of an extent (Table 5-4, R146). -/
def extLocal (s : State) (x : Nat) : Bool := extPresent s x && (extTier x != 3 || (s.ext x).held)
/-- LOST of an extent (R145, R363): its CXL port is lost, both of them for tier 3, or it stays LOST after the port's return. -/
def extLost (s : State) (x : Nat) : Bool :=
  match extTier x with
  | 2 => (s.ext x).lost || (s.cxlPort (extCxl x)).lost
  | 3 => (s.ext x).lost || ((s.cxlPort 2).lost && (s.cxlPort 3).lost)
  | _ => false

/-- What a frame of an extent holds (R125): the frame map's exception, or the home page of an assigned DATA extent, or FREE. -/
def frameUse (s : State) (f : Nat) : FrameUse :=
  match s.pool.frames.find f with
  | some u => u
  | none =>
    match extOf (f * frameBytes) with
    | none => .free
    | some x =>
      let e := s.ext x
      if e.state != .free && e.role == 0 then .working x (f * frameBytes % extBytes / frameBytes)
      else .free

/-- The working frame of page i of extent x (R125): a migrated page's frame, or its home frame. -/
def workFrame (s : State) (x i : Nat) : Nat :=
  match s.pool.frames.find? (fun kv => kv.2 == .working x i) with
  | some kv => kv.1
  | none => homeFrame x i

/-- The right a node has on an extent: 0 none, 1 read, 2 read-write (Table 5-5, check 5). Of two entries of a grant list that name the
node, the first counts (DESIGN CHOICE: R125 gives a list one right for a node; log entry 35). -/
def nodeRight (s : State) (e : Extent) (lep : Nat) : Nat :=
  if lep = e.owner then 2
  else
    let l := if e.grantList = 0 then 0 else
      match (s.pool.grants.getD e.grantList []).find? (fun g => g.1 == lep) with
      | some g => g.2
      | none => 0
    max (min 2 e.grantAll) (min 2 l)

/-- Table 5-5 for extent `x` and the frame `f` it holds: the status of the first check that fails, or none. `skip5`: the
command names its node itself (R132). -/
def poolChecks (s : State) (x f plot lep : Nat) (wr skip5 : Bool) : Option Nat :=
  if !(extLocal s x) then some St.protection
  else if extLost s x then some St.dataLost
  else
    match frameUse s f with
    | .working y _ =>
      let e := s.ext y
      if e.role != 0 then some St.protection
      else if e.state == .draining then some St.revoked
      else if e.state != .assigned then some St.protection
      else if e.plot != plot then some St.protection
      else if !skip5 && decide (nodeRight s e lep < if wr then 2 else 1) then some St.protection
      else none
    | _ => some St.protection

/-- Where an access lands once the pool has accepted it. -/
inductive Place where
  /-- A byte of a tier, by its physical address; the version it is read through by a view, if it is. -/
  | at (pa : Nat) (view : Option Nat)
  /-- The status line of an extent, at an offset (R131). -/
  | status (x off : Nat)
  deriving DecidableEq, Repr

/-- The frame that holds page i of extent x as version u shows it: the copy of the smallest live version at or above u that
has one, else the working frame (R134). -/
def viewFrame (s : State) (x i u : Nat) : Nat :=
  let live := (s.ext x).versions.map Version.num
  let cs := s.pool.frames.filterMap fun kv =>
    match kv.2 with
    | .copy y j w => if y = x ∧ j = i ∧ u ≤ w ∧ live.contains w then some (w, kv.1) else none
    | _ => none
  match cs.foldl (fun (b : Option (Nat × Nat)) c => match b with
      | none => some c
      | some d => if c.1 < d.1 then some c else some d) none with
  | some c => c.2
  | none => workFrame s x i

/-- The first check of Table 5-5 for the frame a view read falls in, which may be a copy in another extent. -/
def copyBar (s : State) (f : Nat) : Option Nat :=
  match extOf (f * frameBytes) with
  | none => some St.protection
  | some y => if !(extLocal s y) then some St.protection else if extLost s y then some St.dataLost else none

/-- Where an access to a physical address named by a leaf lands (R119, R130, R131, Table 5-5), or the status it fails with. -/
def poolPlace (s : State) (pa plot node : Nat) (wr : Bool) : Except Nat Place :=
  match viewOf pa with
  | some (x, slot) =>
    if wr then .error St.protection
    else
      match poolChecks s x (workFrame s x (pa % extBytes / frameBytes)) plot (lepOf node) false false with
      | some st => .error st
      | none =>
        if slot = 0 then
          if pa % extBytes < 128 then .ok (.status x (pa % extBytes)) else .error St.protection
        else
          match (s.ext x).versions.find? (fun v => (v.num + 14) % 15 + 1 == slot) with
          | none => .error St.versionGone
          | some v =>
            if v.openers.contains node then
              match copyBar s (viewFrame s x (pa % extBytes / frameBytes) v.num) with
              | some st => .error st
              | none => .ok (.at (viewFrame s x (pa % extBytes / frameBytes) v.num * frameBytes + pa % frameBytes) (some v.num))
            else .error St.versionGone
  | none =>
    match extOf pa with
    | none => .error St.protection
    | some x =>
      match poolChecks s x (pa / frameBytes) plot (lepOf node) wr false with
      | some st => .error st
      | none => .ok (.at pa none)

/-! Coherence with the host (R163-R167). -/

/-- While the walk of R166 runs, an access that meets an entry converts it first. The host moves a line from E to M without telling
the hub (R356), so whether an E entry was M at the loss is a free value (log entry 7). -/
def meetWalk (line : Nat) (s : State) : State :=
  if s.coh.walkSince.isNone then s
  else
    match s.coh.filter.find line with
    | some { st := .shared, .. } =>
      s.onCoh fun c => { c with filter := c.filter.erase line, freedNow := c.freedNow + 1 }
    | some { st := .exclusive, order := o } =>
      (s.onCoh fun c => { c with
        filter := c.filter.set line { st := .orphaned (s.draw.toNat % 2 == 1), order := o }
        orphanedNow := c.orphanedNow + 1 }).drawn
    | some { st := .modified, order := o } =>
      s.onCoh fun c => { c with filter := c.filter.set line { st := .orphaned true, order := o }, orphanedNow := c.orphanedNow + 1 }
    | _ => s

/-- Send a snoop of a line unless one is outstanding (R163, R356); past 256 it waits for one to be answered (Table 14-2). -/
def sendSnoop (line : Nat) (inv : Bool) (s : State) : State :=
  if (s.coh.snoops.any fun q => q.1 == line) || decide (256 ≤ s.coh.snoops.length) then s
  else emit (.snoop line inv) (bump 0xC40601 1 (s.onCoh fun c => { c with snoops := c.snoops ++ [(line, inv, s.now)] }))

/-- The state of a line in the snoop filter (R163). -/
def snoopSt (s : State) (line : Nat) : Option SnoopSt := (s.coh.filter.find line).map Snoop.st

/-- Whether the host holds a line so that the pool copy may be stale (Table 6-4, E and M). -/
def hostOwns (s : State) (line : Nat) : Bool := snoopSt s line == some .exclusive || snoopSt s line == some .modified

/-- Whether a line is ORPHANED (R167). -/
def isOrphaned (s : State) (line : Nat) : Bool :=
  match snoopSt s line with
  | some (.orphaned _) => true
  | _ => false

/-- What an access of the hub's own to a line meets in the snoop filter (Table 6-4): none when it may go on; true when it must wait,
the snoop having been sent; false when the line is ORPHANED. -/
def filterBar (wr : Bool) (line : Nat) (s : State) : Option Bool × State :=
  let s := meetWalk line s
  if isOrphaned s line then (some false, s)
  else if hostOwns s line || (wr && snoopSt s line == some .shared) then (some true, sendSnoop line wr s)
  else (none, s)

/-! Frames, their tensor blocks and the check store (R125, R276, R277, R306). -/

/-- The DATA extent and page a frame holds, as WORKING or as a COPY (R125). -/
def framePage (s : State) (f : Nat) : Option (Nat × Nat) :=
  match frameUse s f with
  | .working x i => some (x, i)
  | .copy x i _ => some (x, i)
  | .free => none
/-- The extent whose data a physical address holds (R125). -/
def paExt (s : State) (pa : Nat) : Option Nat := (framePage s (pa / frameBytes)).map Prod.fst
/-- Whether a frame is CLEAR (R306). -/
def frameClear (s : State) (f : Nat) : Bool := (s.key.frameGen.find f).isNone

/-- The generation new frames of an extent take: the plot's, or the extent's own in tier 3 (R307, R315). -/
def genNow (s : State) (x : Nat) : Nat :=
  if extTier x = 3 then s.key.extRot.getD x 0 % 65536 else (s.plot (s.ext x).plot).rot % 65536
/-- The generation a frame takes at its first write-back: that of the extent it lies in (R305, R307). -/
def frameGenNow (s : State) (f : Nat) : Nat := ((extOf (f * frameBytes)).map (genNow s)).getD 0

/-- What a line of a block adds to the block's BCV (R274, R277). -/
def bcvPart (line : Nat) (data : List Byte) : Nat := bcv (List.replicate (128 * (line % 32)) 0 ++ takePad 128 data)
/-- The stored BCV of a tensor block moves as the tier's copy of a line goes from `old` to `new` (R277). -/
def bcvMove (line : Nat) (old new : List Byte) (s : State) : State :=
  if (framePage s (line / 512)).isNone then s
  else s.onPool fun p => { p with bcvs := p.bcvs.set (line / 32) ((p.bcvs.getD (line / 32) 0 + bcvPart line new + bcvP - bcvPart line old) % bcvP) }
/-- A line as its tier holds it: what a write-back of its dirty copy will replace, zeros for a lost line (R280), or the memory. -/
def tierLine (s : State) (line : Nat) : List Byte :=
  match s.pool.dirty.find line with
  | some d => takePad 128 d
  | none => if (s.pool.lostLines.find line).isSome then List.replicate 128 0 else Mem.read s.mem (line * 128) 128
/-- A line is written to its tier in place of `old`: the BCV of its block moves with it (R277), and a CLEAR frame takes the current
generation (R306). -/
def tierWrite (line : Nat) (old : List Byte) (s : State) : State :=
  let f := line / 512
  let s := bcvMove line old (Mem.read s.mem (line * 128) 128) s
  if (framePage s f).isSome && frameClear s f then s.onKey fun k => { k with frameGen := k.frameGen.set f (frameGenNow s f) } else s
/-- A dirty line is written back to its tier (R122, R277). -/
def writeBack (line : Nat) (s : State) : State :=
  match s.pool.dirty.find line with
  | none => s
  | some old => tierWrite line old (s.onPool fun p => { p with dirty := p.dirty.erase line })

/-! The chip cache: presence and dirtiness of lines by set (R122). -/

/-- The set a line falls in: its number modulo 65,536 (DESIGN CHOICE: R122 gives the sets and not the index; log entry 11). -/
def chipSet (line : Nat) : Nat := line % 65536
/-- Ways of a plot (R313). -/
def plotWayCount (s : State) (n : Nat) : Nat := ((List.range 24).filter fun i => bitOf (plotWays s n) i).length
/-- Whether a line of a plot is in the chip cache (R122). -/
def chipHit (s : State) (line plot : Nat) : Bool := (s.pool.chip.getD (chipSet line) []).contains (line, plot)
/-- A lookup of a line for a plot, counted as a hit or a miss (R122). -/
def chipLookup (line plot : Nat) (s : State) : State := if chipHit s line plot then bump 0xC40401 1 s else bump 0xC40402 1 s
/-- Allocate a line in the plot's ways; a full share evicts a free choice, which is written back to its tier if it is dirty (R122; log
entry 11). -/
def chipAlloc (line plot : Nat) (s : State) : State :=
  if chipHit s line plot || plotWayCount s plot == 0 then s
  else
    let cur := s.pool.chip.getD (chipSet line) []
    let mine := cur.filter fun e => e.2 == plot
    if mine.length < plotWayCount s plot then
      s.onPool fun p => { p with chip := p.chip.set (chipSet line) ((line, plot) :: cur) }
    else
      let out := mine.getD (Config.victim s.free % mine.length) (line, plot)
      ((writeBack out.1 s).onPool fun p => { p with chip := p.chip.set (chipSet line) ((line, plot) :: cur.erase out) }).drawn
/-- A line has been stored to, whose tier held `old`: in the chip cache it is dirty; a write that found no way to allocate in has gone to
its tier (R122, R277). -/
def lineStored (line plot : Nat) (old : List Byte) (s : State) : State :=
  if (s.pool.dirty.find line).isSome then s
  else if chipHit s line plot then s.onPool fun p => { p with dirty := p.dirty.set line old }
  else tierWrite line old s
/-- Drop the lines of a set of physical lines from the chip cache without write-back: what remains is what their tiers hold. -/
def chipDrop (gone : Nat → Bool) (s : State) : State :=
  { (s.onPool fun p => { p with
      chip := p.chip.mapV fun _ l => l.filter fun e => !gone e.1, dirty := p.dirty.keep fun l _ => !gone l }) with
    mem := (s.pool.dirty.filter fun kv => gone kv.1).foldl (fun m kv => Mem.write m (kv.1 * 128) (takePad 128 kv.2)) s.mem }
/-- Write the dirty lines of a set of physical lines back to their tiers, and drop them all from the chip cache. -/
def chipFlush (gone : Nat → Bool) (s : State) : State :=
  chipDrop gone (forAll ((s.pool.dirty.filter fun kv => gone kv.1).map Prod.fst) writeBack s)

/-! Contexts (R90-R92). -/

/-- PlotContextBase of plot n (R91). -/
def ctxBase (s : State) (n : Nat) : Nat := cfg (0x501000 + n + 1) 0 s
/-- PlotContextCount of plot n (R91). -/
def ctxCount (s : State) (n : Nat) : Nat := cfg (0x501100 + n + 1) (if n = 0 then 0x40 else 0) s
/-- The plot whose range holds a context identifier (R91). -/
def ctxPlot (s : State) (c : Nat) : Option Nat :=
  plotNums.find? fun n => decide (ctxBase s n ≤ c) && decide (c < ctxBase s n + ctxCount s n)
/-- Whether a context is active (R90). -/
def ctxLive (s : State) (c : Nat) : Bool :=
  match s.xlt.ctxs.find c with
  | none => false
  | some x => !x.draining
/-- MirrorBase and the end of the mirror region (R98). -/
def mirrorLo (s : State) : Nat := cfg 0x502002 0 s
def mirrorHi (s : State) : Nat := mirrorLo s + cfg 0x502003 0 s

/-! The walk (R94-R98). -/

/-- What a walk of the mirror finds. -/
inductive WalkRes where
  /-- A VALID leaf with its page size exponent. -/
  | leaf (size entry : Nat)
  | invalid
  | withdrawn
  /-- A malformed entry (R97): the level and the entry. -/
  | malformed (level entry : Nat)
  /-- A table line cannot be read yet: the host may hold it modified (R159, R163), earlier accesses to it wait (R44), or its block must be
  filled (R278). -/
  | waits (line : Nat) (what : WaitFor)
  /-- A table line cannot be read: it is ORPHANED (R167) or lost (R142, R145, R445). -/
  | refused (st : Nat)
  deriving DecidableEq, Repr

/-- Offset bit at which a level's index begins (Table 4-2). -/
def lvlShift : Nat → Nat
  | 4 => 39
  | 3 => 30
  | 2 => 21
  | _ => 16
/-- Entries of a level's table (Table 4-2). -/
def lvlEntries : Nat → Nat
  | 1 => 32
  | _ => 512

/-- Whether a leaf entry at a level is malformed (R97). -/
def leafBad (level e : Nat) : Bool :=
  bits e 1 0 == 3 || level == 4 || decide (1 < bits e 11 8) || (bits e 11 8 == 1 && level != 1) ||
    (level == 2 && bits e 20 16 != 0) || (level == 3 && bits e 29 16 != 0)

/-- Whether a non-leaf entry at a level is malformed (R97): the table below lies inside the mirror and is aligned. -/
def nextBad (s : State) (level e : Nat) : Bool :=
  let nxt := bits e 47 8 * 256
  let bytes := 8 * lvlEntries (level - 1)
  bits e 1 0 != 1 || level == 1 || nxt % bytes != 0 || decide (nxt < mirrorLo s) || decide (mirrorHi s < nxt + bytes)

/-- The plot in whose ways a line of the pool is kept: that of the extent whose data it holds, or 0. -/
def linePlot (s : State) (line : Nat) : Nat := ((paExt s (line * 128)).map fun x => (s.ext x).plot).getD 0

/-- What keeps the walker from reading a table line as it stands (R44, R142, R145, R159, R163, R167, R278, R317, R445). -/
def lineBar (s : State) (line : Nat) : Option WalkRes :=
  if isOrphaned s line then some (.refused St.orphaned)
  else if hostOwns s line then some (.waits line (.snoop line false))
  else
    match s.pool.waiting.find? (fun v => v.pa / 128 == line) with
    | some v => some (.waits line v.what)
    | none =>
      if (match extOf (line * 128) with | some x => extLost s x | none => false) then some (.refused St.dataLost)
      else if decide (line * 128 < 0x010000000000) && s.pool.lostStacks.contains (line % 8) then some (.refused St.dataLost)
      else
        match s.pool.lostLines.find line with
        | some .keyRetired => some (.refused St.keyRetired)
        | some .dataLost => some (.refused St.dataLost)
        | none =>
          if (s.pool.retiring.find (line / 512)).isSome then some (.waits line (.frameCopy (line / 512)))
          else if (framePage s (line / 512)).isSome && !chipHit s line (linePlot s line) && !frameClear s (line / 512) &&
              plotWayCount s (linePlot s line) != 0 then some (.waits line (.block (line / 32)))
          else none

/-- Walk from a table at a level (R94-R97). An INVALID entry is not in use, so its other fields are not examined. -/
def walkFrom (s : State) (off : Nat) : Nat → Nat → WalkRes
  | 0, _ => .invalid
  | level + 1, table =>
    let a := table + 8 * (off / 2 ^ lvlShift (level + 1) % lvlEntries (level + 1))
    match lineBar s (a / 128) with
    | some r => r
    | none =>
      let e := leNat (Mem.read s.mem a 8)
      if bits e 1 0 = 0 then .invalid
      else if bitOf e 2 then
        if leafBad (level + 1) e then .malformed (level + 1) e
        else if bits e 1 0 = 2 then .withdrawn
        else .leaf (lvlShift (level + 1)) e
      else if nextBad s (level + 1) e then .malformed (level + 1) e
      else walkFrom s off level (bits e 47 8 * 256)

/-- The table lines a walk reads, in order. -/
def walkLines (s : State) (off : Nat) : Nat → Nat → List Nat
  | 0, _ => []
  | level + 1, table =>
    let a := table + 8 * (off / 2 ^ lvlShift (level + 1) % lvlEntries (level + 1))
    let e := leNat (Mem.read s.mem a 8)
    if (lineBar s (a / 128)).isSome then []
    else if bits e 1 0 = 0 || bitOf e 2 || nextBad s (level + 1) e then [a / 128]
    else a / 128 :: walkLines s off level (bits e 47 8 * 256)

/-- Walk the mirror for an offset of a context with its root (R94). -/
def walk (s : State) (root off : Nat) : WalkRes := walkFrom s off 4 root

/-- The table lines that a walk reads are looked up in the chip cache and allocated there, like any other access to the pool (R122). -/
def walked (root off : Nat) (s : State) : State :=
  forAll (walkLines s off 4 root) (fun l s => chipAlloc l (linePlot s l) (chipLookup l (linePlot s l) s)) s

/-! Translation caches (R102). -/

/-- Whether a cached entry serves a page of a context. -/
def Tlb.serves (e : Tlb) (ctx page : Nat) : Bool :=
  e.ctx == ctx && e.page / 2 ^ (e.size - 16) == page / 2 ^ (e.size - 16)

/-- The set of a translation cache of `sets` sets in which an entry lies: the page number in units of its own size, modulo the sets
(DESIGN CHOICE: R102 gives the ways and not the index; log entry 11). -/
def Tlb.set (sets : Nat) (e : Tlb) : Nat := e.page / 2 ^ (e.size - 16) % sets

/-- Whether the set an entry falls in is full. -/
def tlbFull (sets ways : Nat) (e : Tlb) (l : List Tlb) : Bool := decide (ways ≤ (l.filter fun x => x.set sets == e.set sets).length)

/-- Put an entry into a cache of a number of sets and ways; in a full set a free choice is evicted (R102; log entry 11). -/
def tlbFill (sets ways draw : Nat) (e : Tlb) (l : List Tlb) : List Tlb :=
  let l := l.filter fun x => !(x.serves e.ctx e.page && x.size == e.size)
  let mine := l.filter fun x => x.set sets == e.set sets
  if ways ≤ mine.length then
    match mine[Config.victim draw % mine.length]? with
    | some v => e :: l.erase v
    | none => e :: l
  else e :: l

/-- Fill the hub translation cache: 16,384 sets of 16 ways (R102). -/
def hubFill (e : Tlb) (s : State) : State :=
  let s := if tlbFull 16384 16 e s.xlt.hubTlb then s.drawn else s
  s.onXlt fun x => { x with hubTlb := tlbFill 16384 16 s.free e x.hubTlb }
/-- Fill a core's translation cache: 256 sets of 8 ways (R102). -/
def coreFill (c : Nat) (e : Tlb) (s : State) : State :=
  let s := if tlbFull 256 8 e (s.xlt.coreTlb.getD c []) then s.drawn else s
  s.onXlt fun x => { x with coreTlb := x.coreTlb.set c (tlbFill 256 8 s.free e (x.coreTlb.getD c [])) }

/-- Place a leaf in the hub cache, and in a core's cache when a core asked (R102). -/
def fill (core : Option Nat) (e : Tlb) (s : State) : State :=
  match core with
  | none => hubFill e s
  | some c => coreFill c e (hubFill e s)

/-- Discard every cached entry for a page (R100). -/
def discard (core : Option Nat) (ctx page : Nat) (s : State) : State :=
  s.onXlt fun x => { x with
    hubTlb := x.hubTlb.filter fun e => !e.serves ctx page
    coreTlb := match core with
      | none => x.coreTlb
      | some c => x.coreTlb.set c ((x.coreTlb.getD c []).filter fun e => !e.serves ctx page) }

/-- The cached leaf of a page: the core's cache, then the hub's, whose entry fills the core's (R102). -/
def lookup (core : Option Nat) (ctx page : Nat) (s : State) : Option Tlb × State :=
  let hub (s : State) : Option Tlb × State :=
    match s.xlt.hubTlb.find? (fun e => e.serves ctx page) with
    | some e => (some e, match core with
        | none => s
        | some c => coreFill c e s)
    | none => (none, bump 0xC40301 1 s)
  match core with
  | none => hub s
  | some c =>
    match (s.xlt.coreTlb.getD c []).find? (fun e => e.serves ctx page) with
    | some e => (some e, s)
    | none => hub s

/-! The checks at the memory (Table 4-1). -/

/-- What an access asks of the memory. -/
structure Ask where
  /-- The core whose cache translates it: an engine's access, or a request to that core's scratchpad window (R102). -/
  core : Option Nat
  /-- Issued by a Furrow engine: the only accesses that follow FAULT (R92). -/
  engine : Bool
  /-- Context. -/
  ctx : Nat
  /-- Offset. -/
  off : Nat
  /-- The request's PLOT. -/
  plot : Nat
  /-- The source node. -/
  node : Nat
  /-- Whether it needs the WR right. -/
  wr : Bool
  /-- The destination: the pool, or the scratchpad of a core (Table 4-1, check 5). -/
  dest : Option Nat
  deriving DecidableEq, Repr

/-- What the checks of Table 4-1 answer. -/
inductive Found where
  /-- A place in the pool. -/
  | pool (p : Place)
  /-- An offset in the scratchpad of the destination core. -/
  | spad (off : Nat)
  /-- Refused with a status, no effect. -/
  | fail (st : Nat)
  /-- A fault (R104). -/
  | fault (k : FaultKind)
  /-- The translation waits: for what a table line waits for (R163, R278), or, with none, while the epoch wraps (R115). -/
  | stall (what : Option WaitFor)
  deriving DecidableEq, Repr

/-- Checks 4 to 6 on a VALID leaf. FRAME[47:27] of a scratchpad leaf is not looked at (DESIGN CHOICE: Table 4-4 writes those bits zero,
and R97 does not count a leaf that has others there among the malformed; log entry 51). -/
def leafChecks (s : State) (a : Ask) (faults : Bool) (size e : Nat) : Found :=
  if !(bitOf e (if a.wr then 3 else 4)) then (if faults then .fault .rights else .fail St.protection)
  else
    match a.dest with
    | none =>
      if bits e 11 8 != 0 then .fail St.protection
      else
        match poolPlace s (bits e 47 16 * frameBytes / 2 ^ size * 2 ^ size + a.off % 2 ^ size) a.plot a.node a.wr with
        | .error st => .fail st
        | .ok p => .pool p
    | some c =>
      if bits e 11 8 != 1 || bits e 26 21 != c then .fail St.protection
      else .spad (bits e 20 16 * frameBytes + a.off % frameBytes)

/-- Whether an answer lets the access proceed. -/
def Found.good : Found → Bool
  | .pool _ => true
  | .spad _ => true
  | _ => false

/-- Begin what an access waits for: a snoop goes out (R163), a block fill starts (R278). -/
def beginWait (w : WaitFor) (s : State) : State :=
  match w with
  | .snoop line inv => sendSnoop line inv s
  | .block b =>
    if (s.pool.fills.find b).isSome then s else s.onPool fun p => { p with fills := p.fills.set b s.now }
  | _ => s

/-- A walk that may not read a table line yet (R163, R278): it waits, or, for a line that the walk of R166 orphans, the access fails. -/
def walkBarred (line : Nat) (w : WaitFor) (s : State) : Found × State :=
  let s := meetWalk line s
  if isOrphaned s line then (.fail St.orphaned, s) else (.stall (some w), beginWait w s)

/-- The outcome of a walk under Table 4-1 (checks 3 to 6), with what it leaves: a VALID leaf is cached, a malformed entry
raises XLT_TABLE_ERROR (R97, R100). A demand walk is one with its access: nothing comes between its start and its end, and one that
waits for a table line begins anew (R101; log entry 11). -/
def walkChecks (a : Ask) (faults : Bool) (root : Nat) (s : State) : Found × State :=
  let r := walk s root a.off
  let s := walked root a.off s
  match r with
  | .leaf size e =>
    let s := bump 0xC40302 1 s
    (leafChecks s a faults size e, fill a.core { ctx := a.ctx, page := a.off / frameBytes, size, leaf := BitVec.ofNat 64 e } s)
  | .invalid => (if faults then .fault .notMapped else .fail St.translation, bump 0xC40302 1 s)
  | .withdrawn =>
    let s := bump 0xC40302 1 s
    (if faults then .fault .withdrawn else .fail St.withdrawn, if faults then s else bump 0xC4030A 1 s)
  | .malformed level e => (.fail St.translation, raise 0x5101 [a.ctx, a.off, level, e] (bump 0xC40302 1 s))
  | .waits line w => walkBarred line w s
  | .refused st => (.fail st, s)

/-- Under the Hedge of a plot every request that carries its tag fails (R319, R320). -/
def plotBar (s : State) (n : Nat) : Option Nat :=
  match (s.plot n).st with
  | .removing => some St.plotRemoved
  | .hedged => some St.state
  | _ => none
/-- An engine's access under the Hedge, counted when its plot is being removed (R319). -/
def barCounted (a : Ask) (st : Nat) (s : State) : State :=
  if a.engine && st == St.plotRemoved then bump 0xC40C04 1 s else s
/-- Table 4-1 for an access (R93), which the Hedge of its plot comes before (R320, R470): the caches first; before it refuses or faults, the cached entry is discarded and the mirror
walked once more (R100). While the epoch wraps, new translations wait (R115). -/
def memCheck (a : Ask) (s : State) : Found × State :=
  match plotBar s a.plot, s.xlt.ctxs.find a.ctx with
  | some st, _ => (.fail st, barCounted a st s)
  | none, none => (.fail St.translation, s)
  | none, some c =>
    if c.draining then (.fail St.translation, s)
    else if ctxPlot s a.ctx != some a.plot then (.fail St.protection, s)
    else if s.xlt.wrapping then (.stall none, s)
    else
      let faults := a.engine && !c.fail
      let (hit, s) := lookup a.core a.ctx (a.off / frameBytes) s
      match hit with
      | some e =>
        let r := leafChecks s a faults e.size e.leaf.toNat
        if r.good then (r, s) else walkChecks a faults c.root (discard a.core a.ctx (a.off / frameBytes) s)
      | none => walkChecks a faults c.root s

/-! The extents the hub holds for a plot (R77, R124, R234, R313). -/

/-- SERVICE extents of plot n. -/
def serviceExts (s : State) (n : Nat) : List Nat :=
  (s.pool.exts.filter fun kv => kv.2.role == 2 && kv.2.state == .assigned && kv.2.plot == n).map Prod.fst
/-- Those of its staging area: as many as `CollectiveStaging` says, the lowest-numbered first (DESIGN CHOICE: R234 gives their number and
not which of the plot's SERVICE extents they are; log entry 53). -/
def stagingExts (s : State) (n : Nat) : List Nat := (serviceExts s n).take (cfg (0x811000 + n + 1) (if n = 0 then 1 else 2) s)

end Sys2Proof.Machine
end

