-- ==== Sys2Proof/Machine/Collect.lean ====
section
/-! DEFINITION. The collective unit (R224-R250): groups, descriptors, contributions, chunks, exchange between hubs, results, completion
and abort. The unit's own requests go to its outbox, from where they enter the hub as requests of node 0xC0. -/

namespace Sys2Proof.Machine

open Sys2Proof.Arith

/-! Requests of the units behind node 0xC0. -/

/-- Issue a request of node 0xC0, with what its answer is for (R29). -/
def unitSend (u : UnitOp) (op : Nat) (h : Header) (data : List Byte) (s : State) : State :=
  let t := s.coll.nextTag % 65536
  let r : Req := { via := .unit, op, h := { h with tag := t, src := nodeOf s 0xC0 }, data }
  s.onColl fun c => { c with unitOps := c.unitOps.set t u, nextTag := c.nextTag + 1, outbox := c.outbox ++ [r] }

/-! Groups (R224, R225). -/

/-- A group, if it is defined. -/
def State.group (s : State) (g : Nat) : Option Group := s.coll.groups.find g
/-- Update a group. -/
def State.onGroup (g : Nat) (f : Group → Group) (s : State) : State :=
  match s.coll.groups.find g with
  | none => s
  | some x => s.onColl fun c => { c with groups := c.groups.set g (f x) }
/-- A sequence a group holds. -/
def Group.find (x : Group) (n : Nat) : Option CSeq := x.seqs.find? fun q => q.seq == n
/-- Update a sequence of a group. -/
def State.onSeq (g n : Nat) (f : CSeq → CSeq) (s : State) : State :=
  s.onGroup g fun x => { x with seqs := updFirst (fun q => q.seq == n) f x.seqs }
/-- The hubs of a group in canonical order (R225). -/
def Group.hubs (x : Group) : List Nat :=
  (x.members.map fun m => hubOf m.node).foldl (fun l h => if l.contains h then l else l ++ [h]) []
/-- The place of a hub in canonical order. -/
def Group.hubIx (x : Group) (h : Nat) : Nat := x.hubs.idxOf h
/-- First member of a hub (R238). -/
def Group.firstOf (x : Group) (h : Nat) : Nat := (x.members.map fun m => hubOf m.node).idxOf h
/-- Members with their index. -/
def Group.indexed (x : Group) : List (Nat × Member) := x.members.zipIdx.map fun p => (p.2, p.1)
/-- The local members with their index, in canonical order (R225). -/
def locals (s : State) (x : Group) : List (Nat × Member) := x.indexed.filter fun m => hubOf m.2.node == hubId s
/-- Whether a group lies on several hubs. -/
def Group.multi (x : Group) : Bool := decide (1 < x.hubs.length)
/-- Group state (R226): 0 UNDEFINED, 1 IDLE, 2 ACTIVE, 3 ABORTING. -/
def groupState (s : State) (g : Nat) : Nat :=
  match s.group g with
  | none => 0
  | some x =>
    if x.seqs.any fun q => q.cause.isSome then 3
    else if x.seqs.any fun q => q.exec || !q.posts.isEmpty then 2
    else 1
/-- Collectives executing at this hub (R230). -/
def executing (s : State) : Nat :=
  (s.coll.groups.map fun kv => (kv.2.seqs.filter fun q => q.exec).length).sum

/-! The signature (R228, Table 9-3). -/

/-- OP. -/
def sigOp (b : List Byte) : Nat := bits (fieldAt b 0 4) 15 12
/-- CTFMT. -/
def sigCt (b : List Byte) : Nat := fieldAt b 2 1
/-- RTFMT. -/
def sigRt (b : List Byte) : Nat := fieldAt b 3 1
/-- ELEMS. -/
def sigElems (b : List Byte) : Nat := fieldAt b 8 4
/-- ROOT. -/
def sigRoot (b : List Byte) : Nat := bits (fieldAt b 12 4) 9 0
/-- RND. -/
def sigRnd (b : List Byte) : Nat := bits (fieldAt b 12 4) 11 10
/-- ROP. -/
def sigRop (b : List Byte) : Nat := bits (fieldAt b 12 4) 13 12
/-- RSEXP, signed. -/
def sigExp (b : List Byte) : Int := signed 8 (bits (fieldAt b 12 4) 21 14)
/-- Whether an operation reduces. -/
def opReduces (op : Nat) : Bool := op == 1 || op == 2 || op == 5

/-- A reserved encoding, or a breach of Table 9-4 (R228, R229). -/
def descBad (x : Group) (b : List Byte) : Bool :=
  let op := sigOp b
  let n := sigElems b
  let m := x.members.length
  let ct := sigCt b
  let rt := sigRt b
  if op = 0 ∨ 7 < op then true
  else if op = 7 then ct != 0 || rt != 0 || n != 0 || bits (fieldAt b 12 4) 21 0 != 0
  else
    !tfmtOk ct || !tfmtOk rt || sigRnd b == 3 || sigRop b == 3 || (op == 1 && n == 0) || decide (2 ^ 30 ≤ n) ||
    (!opReduces op && sigRop b != 0) ||
    (if op = 4 ∨ op = 5 then decide (m ≤ sigRoot b) else sigRoot b != 0) ||
    (opReduces op && sigRop b == 0 && [0xA, 6, 8, 7].contains (elemOf ct)) ||
    (op == 2 && n % (32 * m) != 0) ||
    ((op == 3 || op == 4 || op == 6) && ct != rt) ||
    ((op == 3 || op == 6) && (n % 32 != 0 || decide (2 ^ 30 ≤ n * m)))

/-! Chunks (R231, R232). -/

/-- CHUNKBYTES. -/
def Group.chunkBytes (x : Group) : Nat := 2 ^ (16 + x.chunkLog)
/-- CE: elements of a full chunk. -/
def chunkElems (x : Group) (b : List Byte) : Nat :=
  if elemBits (elemOf (sigCt b)) = 0 then 0 else x.chunkBytes * 8 / elemBits (elemOf (sigCt b)) / 1024 * 1024
/-- Elements of a member's contribution (Table 9-4). -/
def contribElems (x : Group) (b : List Byte) : Nat :=
  if sigOp b = 7 then 0 else if sigOp b = 6 then x.members.length * sigElems b else sigElems b
/-- Chunks of a collective. -/
def chunksOf (x : Group) (b : List Byte) : Nat :=
  if chunkElems x b = 0 then 0 else ceilDiv (contribElems x b) (chunkElems x b)
/-- Elements of chunk k. -/
def chunkLen (x : Group) (b : List Byte) (k : Nat) : Nat := min (chunkElems x b) (contribElems x b - k * chunkElems x b)
/-- CHK and CSTRIDE. -/
def Group.cstride (x : Group) : Nat :=
  x.chunkBytes * 17 / 16 + ceilDiv (8 * x.chunkBytes * 17 / 65536) 128 * 128
/-- Element bytes of n elements. -/
def ebOf (fmt n : Nat) : Nat := ceilDiv (n * elemBits (elemOf fmt)) 8
/-- Scale bytes of n elements. -/
def sbOf (fmt n : Nat) : Nat := if scaled fmt then ceilDiv n 32 else 0
/-- The three sections of a chunk image: start and bytes (Table 9-6). -/
def sections (x : Group) (fmt n : Nat) : List (Nat × Nat) :=
  [(0, ebOf fmt n), (x.chunkBytes, sbOf fmt n),
   (x.chunkBytes * 17 / 16, 8 * (blocksOf (ebOf fmt n) + blocksOf (sbOf fmt n)))]
/-- Whether a byte range of a chunk image lies in its expected lines (R232). -/
def expected (x : Group) (fmt n off len : Nat) : Bool :=
  (sections x fmt n).any fun c => decide (c.1 ≤ off) && decide (off + len ≤ c.1 + ceilDiv c.2 128 * 128)
/-- Bytes of the expected lines. -/
def expectedBytes (x : Group) (fmt n : Nat) : Nat := ((sections x fmt n).map fun c => ceilDiv c.2 128 * 128).sum

/-- Whether member m contributes (Table 9-4). -/
def contributes (b : List Byte) (m : Nat) : Bool :=
  if sigOp b = 7 then false else if sigOp b = 4 then m == sigRoot b else true
/-- Whether member m receives results (Table 9-4). -/
def receives (b : List Byte) (m : Nat) : Bool :=
  if sigOp b = 7 then false else if sigOp b = 5 then m == sigRoot b else true

/-! The staging area (R234). -/

/-- The place of a local member among the local members (R225). -/
def localIx (s : State) (x : Group) (m : Nat) : Nat := ((locals s x).map Prod.fst).idxOf m
/-- The offset in a reservation of a byte of chunk k of the local member with index i: the chunks of a window share its places in turn. -/
def stageOff (x : Group) (i k off : Nat) : Nat := (i * x.window + k % x.window) * x.cstride + off
/-- The offset in the staging area of an offset in a reservation. -/
def areaAt : List (Nat × Nat) → Nat → Nat
  | [], o => o
  | (a, n) :: r, o => if o < n then a + o else areaAt r (o - n)
/-- The chip-cache line of an offset in a reservation, through the plot's staging extents. -/
def stageLine (s : State) (x : Group) (q : CSeq) (o : Nat) : Option Nat :=
  let a := areaAt q.area o
  (((stagingExts s x.plot)[a / extBytes]?).bind extBase).map fun b => (b + a % extBytes) / 128
/-- Bytes staged of member m's chunk k at an offset of its image. -/
def stageRead (s : State) (x : Group) (q : CSeq) (m k off n : Nat) : List Byte :=
  (List.range n).map fun i => q.stage.getD (stageOff x (localIx s x m) k (off + i)) 0
/-- Whether member m's expected lines of chunk k have all arrived (R235). -/
def arrived (s : State) (x : Group) (q : CSeq) (b : List Byte) (m k : Nat) : Bool :=
  let lo := stageOff x (localIx s x m) k 0
  decide (expectedBytes x (sigCt b) (chunkLen x b k) ≤
    (q.stage.filter fun kv => decide (lo ≤ kv.1) && decide (kv.1 < lo + x.cstride)).length)
/-- Staged lines pass through the chip-cache ways of their plot (R234). -/
def stagePass (x : Group) (q : CSeq) (os : List Nat) (s : State) : State :=
  forAll (os.filterMap (stageLine s x q)).eraseDups (fun l s => lineStored l x.plot (tierLine s l) (chipAlloc l x.plot s)) s
/-- Staged lines that are consumed leave the chip cache without write-back (R234). -/
def stageDrop (x : Group) (q : CSeq) (os : List Nat) (s : State) : State :=
  let ls := os.filterMap (stageLine s x q)
  if ls.isEmpty then s else chipDrop ls.contains s
/-- What is left of a list of parts without their first n bytes; and those first n bytes. -/
def takeParts : Nat → List (Nat × Nat) → List (Nat × Nat)
  | _, [] => []
  | n, (a, k) :: r => if n = 0 then [] else (a, min n k) :: takeParts (n - k) r
/-- A part in its place among parts in order of address. -/
def insertPart (a : Nat × Nat) : List (Nat × Nat) → List (Nat × Nat)
  | [] => [a]
  | b :: r => if a.1 ≤ b.1 then a :: b :: r else b :: insertPart a r
/-- The parts of an area of n bytes that no reservation of its plot holds, lowest first. -/
def freeParts (n : Nat) (used : List (Nat × Nat)) : List (Nat × Nat) :=
  let u := used.foldr insertPart []
  let r := u.foldl (fun (z : Nat × List (Nat × Nat)) a => (max z.1 (a.1 + a.2), if z.1 < a.1 then z.2 ++ [(z.1, a.1 - z.1)] else z.2)) (0, [])
  if r.1 < n then r.2 ++ [(r.1, n - r.1)] else r.2

/-- Lowest chunk not yet written: the base of the window (R233). -/
def windowBase (x : Group) (q : CSeq) (b : List Byte) : Nat :=
  ((List.range (chunksOf x b)).find? fun k => !q.written.contains k).getD (chunksOf x b)
/-- Whether chunk k lies in the window. -/
def inWindow (x : Group) (q : CSeq) (b : List Byte) (k : Nat) : Bool :=
  decide (windowBase x q b ≤ k) && decide (k < windowBase x q b + x.window) && decide (k < chunksOf x b)

/-! Arrival records (R249). -/

/-- A member has arrived at a stage: 0 the descriptors, k + 1 chunk k. -/
def arriveAt (g n stage m : Nat) (s : State) : State :=
  s.onSeq g n fun q =>
    match q.arrivals.find? fun a => a.1 == stage with
    | none => { q with arrivals := q.arrivals ++ [(stage, m, s.now, s.now)] }
    | some a => { q with arrivals := updFirst (fun y => y.1 == stage) (fun _ => (stage, m, s.now, a.2.2.1)) q.arrivals }

/-- Write the arrival record of a stage into the group's ring of 256 (R249): the member that arrived last and how long after the one before
it; `named` stands for it at a stage at which no local member has arrived (DESIGN CHOICE; log entry 53), and for a hub. -/
def recordStage (g n stage : Nat) (late hubLevel : Bool) (named : Nat) (s : State) : State :=
  s.onGroup g fun x =>
    match x.find n with
    | none => x
    | some q =>
      let a := (q.arrivals.find? fun y => y.1 == stage).getD (stage, named, s.now, s.now)
      let who := if hubLevel then named else a.2.1
      let gap := a.2.2.1 - a.2.2.2
      let r := natLe 4 n ++ natLe 4 (stage % 2 ^ 24 + 2 ^ 24 * b2n late + 2 ^ 25 * b2n hubLevel) ++ natLe 4 (who % 1024) ++
        natLe 4 (min gap (2 ^ 32 - 1))
      { x with records := (x.records ++ [r]).drop (x.records.length - 255) }

/-- Whether a sequence of a group has a cause. -/
def seqEnded (s : State) (g n : Nat) : Bool := ((s.group g).bind fun x => (x.find n).bind CSeq.cause).isSome

/-! Exchange messages (R238, Table 9-8). -/

/-- An exchange message header's bytes. -/
def xchHeader (x : Group) (g kind n chunk slice off factor w5 : Nat) : List Byte :=
  natLe 4 (kind + 16 * g) ++ natLe 4 n ++ natLe 4 chunk ++ natLe 4 (slice % 65536 + 65536 * factor) ++ natLe 4 off ++
  natLe 4 w5 ++ takePad 8 x.digest

/-- Send an exchange message to another hub (R238): MSG_SEND to its node 0xC0, QUEUE 2, IMM zero. -/
def xchSend (x : Group) (hub : Nat) (payload : List Byte) (s : State) : State :=
  bump 0xC40909 1 (unitSend .exchange Op.msgSend
    { plot := x.plot, len := payload.length, dst := 256 * hub + 0xC0, opb := 2 * 256 } payload s)

/-- The other hubs of a group. -/
def others (s : State) (x : Group) : List Nat := x.hubs.filter fun h => h != hubId s
/-- The hub after this one in canonical order: the next of the ring (R240). -/
def ringNext (s : State) (x : Group) : Nat := x.hubs.getD ((x.hubIx (hubId s) + 1) % x.hubs.length) 0

/-- Send bodies of a stream to a hub, each at the offset where those before it end (R238). A sequence that has a cause issues none
(R243). -/
def bodiesOut (x : Group) (g kind n chunk slice hub : Nat) : Nat → List (List Byte) → State → State
  | _, [], s => s
  | off, l :: r, s =>
    if seqEnded s g n then s
    else bodiesOut x g kind n chunk slice hub (off + l.length) r (xchSend x hub (xchHeader x g kind n chunk slice off 0 0 ++ l) s)
/-- A stream in bodies of at most 2,016 bytes (R238); an empty stream is one empty body. -/
def cutBodies : Nat → List Byte → List (List Byte)
  | 0, _ => []
  | n + 1, l => l.take 2016 :: if l.length ≤ 2016 then [] else cutBodies n (l.drop 2016)
/-- Send a stream to a hub from an offset (R238). -/
def streamOut (x : Group) (g kind n chunk slice hub off : Nat) (l : List Byte) (s : State) : State :=
  bodiesOut x g kind n chunk slice hub off (cutBodies (l.length / 2016 + 1) l) s

/-- Send a stream to every other hub, directly, or to the next of the ring (R240). -/
def streamAll (x : Group) (g kind n chunk slice : Nat) (l : List Byte) (s : State) : State :=
  let f (h : Nat) : State → State := streamOut x g kind n chunk slice h 0 l
  if x.ring then f (ringNext s x) s else forAll (others s x) f s

/-! Abort (R241-R244). -/

/-- Whether cause a decides over cause b (R242). -/
def Cause.before (a b : Cause) : Bool := decide (a.time < b.time) || (a.time == b.time && decide (a.hub < b.hub))

/-- The sequence of a group, created when this hub knows nothing of it yet. -/
def ensureSeq (g n : Nat) (s : State) : State :=
  s.onGroup g fun x => if (x.find n).isSome then x else { x with seqs := x.seqs ++ [{ seq := n }] }

/-- W5 of an ABORT (Table 9-8). -/
def causeWord (c : Cause) : Nat := c.status + 256 * c.named + 2 ^ 19 * c.reason + 2 ^ 24 * b2n c.hubLevel

/-- A collective that ends by a cause is counted, by its status (Table 9-14). -/
def countAbort (status : Nat) (s : State) : State :=
  let s := bump 0xC40902 1 s
  if status = St.mismatch then bump 0xC40903 1 s else if status = St.late then bump 0xC40904 1 s else s
/-- This hub finds a cause (R241, R243): the sequence is aborted, ABORT goes to every other hub; a hub that knows of a cause
finds no further one (R242). `tell`: whether ABORT is sent and COLL_ABORTED raised. -/
def abortSeq (g n status named reason : Nat) (hubLevel : Bool) (s : State) : State :=
  let s := ensureSeq g n s
  match s.group g with
  | none => s
  | some x =>
    match x.find n with
    | none => s
    | some q =>
      if q.cause.isSome then s
      else
        let c : Cause := { status, named, reason, hubLevel, time := s.now, hub := x.hubIx (hubId s) }
        let s := s.onSeq g n fun q => { q with cause := some c, known := s.now, own := true }
        let s := countAbort status s
        let s := raise 0x8101 [g, n, status, named, reason, b2n hubLevel, q.written.length] s
        forAll (others s x) (fun h => xchSend x h (xchHeader x g 6 n 0 0 0 0 (causeWord c) ++ natLe 8 c.time)) s

/-- An ABORT arrives (R242, R243): it is the sequence's cause, or takes the place of one it decides over. -/
def abortHeard (g n : Nat) (c : Cause) (s : State) : State :=
  let s := ensureSeq g n s
  match (s.group g).bind fun x => x.find n with
  | none => s
  | some q =>
    match q.cause with
    | none => countAbort c.status (s.onSeq g n fun q => { q with cause := some c, known := s.now })
    | some d => if c.before d then s.onSeq g n fun q => { q with cause := some c } else s

/-! Descriptors (R227-R229, R239). -/

/-- The completion record of a member (Table 9-7). -/
def recordBytes (status named reason : Nat) (hubLevel : Bool) (n done chunks : Nat) (rep : ArithReport) : List Byte :=
  natLe 4 (status + 256 * named + 2 ^ 19 * reason + 2 ^ 24 * b2n hubLevel) ++ natLe 4 n ++ natLe 4 done ++ natLe 4 chunks ++ rep.image

/-- Issue the write of a completion record to a member's ring (R237). -/
def sendRecord (u : UnitOp) (x : Group) (m : Member) (n : Nat) (bytes : List Byte) (s : State) : State :=
  forAll (rangeWrites (m.coff + 32 * (n % m.cslots)) bytes) (fun w => unitSend u w.1
    { plot := x.plot, len := w.2.2.1, ctx := m.cctx, dst := m.cnode, opa := BitVec.ofNat 48 w.2.1 } w.2.2.2) s

/-- The signature is fixed (R229, R239): it goes to every other hub, and is compared with those that have arrived. Of this hub the
first-arriving member is named; which member arrived first at another hub no message says, and its first member stands for it (DESIGN
CHOICE, log entry 53). -/
def compareSigs (g n : Nat) (x : Group) (s : State) : State :=
  match (s.group g).bind fun y => y.find n with
  | none => s
  | some q =>
    let lead := x.hubs.headD 0
    let all := (match q.sig with
      | some b => [(hubId s, b)]
      | none => []) ++ q.sigs
    match all.find? fun p => p.1 == lead with
    | none => s
    | some p =>
      match all.find? fun r => r.2 != p.2 with
      | none => s
      | some r =>
        let named := if r.1 = hubId s then (q.posts.head?.map Prod.fst).getD (x.firstOf r.1) else x.firstOf r.1
        abortSeq g n St.mismatch named 1 true s

/-- Hold a descriptor (Table 9-5, last rows). Of an aborted sequence no exchange body is issued (R243). -/
def holdDesc (g n m : Nat) (x : Group) (desc : List Byte) (s : State) : State :=
  let first := !(((x.find n).map fun q => q.sig.isSome).getD false)
  let s := ensureSeq g n s
  let s := s.onSeq g n fun q => { q with
    posts := q.posts ++ [(m, desc)]
    sig := some (q.sig.getD (desc.take 16))
    order := if first then s.coll.nextOrder else q.order }
  let s := if first then s.onColl fun c => { c with nextOrder := c.nextOrder + 1 } else s
  let s := arriveAt g n 0 m s
  let s := match (s.group g).bind fun y => y.find n with
    | none => s
    | some q => if q.posts.length = (locals s x).length then recordStage g n 0 false false 0 s else s
  let ended := ((x.find n).map fun q => q.cause.isSome).getD false
  if first && !ended then
    compareSigs g n x (forAll (others s x) (fun h => xchSend x h (xchHeader x g 1 n 0 0 0 0 0 ++ desc.take 16)) s)
  else s

/-- A descriptor is handed over from slot `slot` of local member `k` of group g (R229, Table 9-5). -/
def collPost (g k slot : Nat) (desc : List Byte) (s : State) : State :=
  match s.group g with
  | none => s
  | some x =>
    match (locals s x)[k]? with
    | none => s
    | some (m, mem) =>
      let n := fieldAt desc 4 4
      let d := (n + 2 ^ 32 - x.next) % 2 ^ 32
      let q := (x.find n).getD { seq := n }
      let refuse := sendRecord .refusal x mem n (recordBytes St.state 0x7FF 0 false n 0 0 {})
        (raise 0x8102 [g, m, n, x.next] (bump 0xC40906 1 s))
      if 2 ^ 31 ≤ d then bump 0xC40905 1 s
      else if decide (x.depth ≤ d) || n % x.depth != slot || fieldAt desc 0 2 % 4096 != g || q.made.contains m then refuse
      else
      let s := (ensureSeq g n s).onSeq g n fun q => { q with made := q.made ++ [m] }
      if descBad x desc then abortSeq g n St.mismatch m 2 false s
      else
        match q.sig with
        | some b => if b != desc.take 16 then abortSeq g n St.mismatch m 1 false s else holdDesc g n m x desc s
        | none => holdDesc g n m x desc s

/-- The queue slot of a group that a byte of an extent lies in (R227): group, local member and slot. -/
def queueSlot (s : State) (ext off : Nat) : Option (Nat × Nat × Nat) :=
  s.coll.groups.findSome? fun kv =>
    let x := kv.2
    let n := (locals s x).length * x.depth
    if x.qext = ext ∧ x.qoff ≤ off ∧ off < x.qoff + 128 * n then
      some (kv.1, (off - x.qoff) / 128 / x.depth, (off - x.qoff) / 128 % x.depth)
    else none

/-! Contributions (R233) and notices (R248). -/

/-- A RED_COLL reaches the collective unit (R233): its status, and the state after it. -/
def redColl (h : Header) (data : List Byte) (s : State) : Nat × State :=
  let g := h.opb % 4096
  let n := h.opc
  let pos := h.opa.toNat
  match s.group g with
  | none => (St.protection, s)
  | some x =>
    match (locals s x).find? fun m => m.2.node == h.src with
    | none => (St.protection, s)
    | some (m, _) =>
      match x.find n with
      | none => (St.state, bump 0xC40907 1 s)
      | some q =>
        let b := q.sig.getD []
        if q.sig.isSome && !contributes b m then (St.protection, s)
        else if q.cause.isSome then (St.aborted, bump 0xC40908 1 s)
        else
          let k := pos / x.cstride
          let off := pos % x.cstride
          if !q.exec || !inWindow x q b k || (q.writing.find k).isSome || !expected x (sigCt b) (chunkLen x b k) off h.len ||
              (List.range h.len).any (fun i => (q.stage.find (stageOff x (localIx s x m) k (off + i))).isSome) then
            (St.state, bump 0xC40907 1 s)
          else
            let o := stageOff x (localIx s x m) k off
            let s := s.onSeq g n fun q => { q with stage := (data.zipIdx).foldl (fun t p => t.set (o + p.2) p.1) q.stage }
            let s := stagePass x q ((List.range data.length).map fun i => o + i) s
            let s := match (s.group g).bind fun y => y.find n with
              | none => s
              | some q =>
                if arrived s x q b m k then
                  let s := arriveAt g n (k + 1) m s
                  if (locals s x).all fun l => !contributes b l.1 || arrived s x q b l.1 k then
                    recordStage g n (k + 1) false false 0 s else s
                else s
            (St.ok, s)

/-- A THROTTLE notice (R248): its status, and the state after it. Of an aborted sequence no NOTICE body is issued (R243). -/
def throttle (h : Header) (data : List Byte) (s : State) : Nat × State :=
  let g := h.opb % 4096
  let n := h.opc
  let f := bits (fieldAt data 0 4) 7 4
  match s.group g with
  | none => (St.protection, s)
  | some x =>
    match (locals s x).find? fun m => m.2.node == h.src with
    | none => (St.protection, s)
    | some (m, _) =>
      let running := ((x.find n).map fun q => q.exec).getD false
      let ahead := decide ((n + 2 ^ 32 - x.next) % 2 ^ 32 < x.depth)
      if !running && !ahead then (St.state, s)
      else if f < 2 ∨ 4 < f ∨ fieldAt data 0 4 % 16 ≠ 1 then (St.state, s)
      else
        let s := bump 0xC4090A 1 (ensureSeq g n s)
        let s := s.onSeq g n fun q => { q with factors := q.factors.set m (max f (q.factors.getD m 0)) }
        if ((x.find n).map fun q => q.cause.isSome).getD false then (St.ok, s)
        else (St.ok, forAll (others s x) (fun hb => xchSend x hb (xchHeader x g 5 n 0 m 0 f 0)) s)

/-! Start (R230, R234), and the throttle's part in the deadlines (R421). -/

/-- Whether the throttle is below (2, 16) (R419). -/
def throttled (s : State) : Bool := !(s.power.div == 2 && s.power.duty == 16)
/-- The deadlines of a sequence are multiplied by 4 at this hub, and the other hubs are told (R421). -/
def slowSeq (g n : Nat) (s : State) : State :=
  match s.group g with
  | none => s
  | some x =>
    let s := s.onSeq g n fun q => { q with slow := true }
    forAll (others s x) (fun hb => xchSend x hb (xchHeader x g 5 n 0 (x.firstOf (hubId s)) 0 4 0)) s
/-- The throttle has fallen below (2, 16): every collective that executes is slow (R421). -/
def slowAll (s : State) : State :=
  let l := s.coll.groups.flatMap fun kv => (kv.2.seqs.filter fun q => q.exec && q.cause.isNone && !q.slow).map fun q => (kv.1, q.seq)
  forAll l (fun a => slowSeq a.1 a.2) s


/-- The staging area of plot n, in bytes (R234). -/
def stagingBytes (s : State) (n : Nat) : Nat := (stagingExts s n).length * extBytes
/-- What a collective of a group reserves. -/
def reserveBytes (s : State) (x : Group) : Nat := (locals s x).length * x.window * x.cstride
/-- Whether group x's next sequence may start (R230), but for its turn. -/
def startable (s : State) (x : Group) : Bool :=
  match x.find x.next with
  | none => false
  | some q =>
    q.sig.isSome && !q.posts.isEmpty && !q.exec && q.cause.isNone && decide (executing s < 256) &&
    decide (s.coll.reserved.getD x.plot 0 + reserveBytes s x ≤ stagingBytes s x.plot) &&
    (match x.lastStart with
      | none => true
      | some t => decide (t + 500 ≤ s.now)) &&
    (s.plot x.plot).st == .active
/-- Whether group x's next sequence waits to start: a descriptor for it is held, and its plot is at work (R230). -/
def waitsStart (s : State) (x : Group) : Bool :=
  match x.find x.next with
  | none => false
  | some q => q.sig.isSome && !q.posts.isEmpty && !q.exec && q.cause.isNone && (s.plot x.plot).st == .active
/-- Whether group g's next sequence is the first of those that wait to start, in the order of their first descriptors (R230): one that
has no room yet holds back the later ones. -/
def startsNext (s : State) (g : Nat) (op : Nat) : Bool :=
  match s.group g with
  | none => false
  | some x =>
    match x.find x.next with
    | none => false
    | some q => startable s x && sigOp (q.sig.getD []) == op &&
        s.coll.groups.all fun kv => kv.1 == g || !waitsStart s kv.2 ||
          (match kv.2.find kv.2.next with
            | some r => decide (q.order ≤ r.order)
            | none => true)
/-- The parts of a plot's staging area that its collectives hold. -/
def heldParts (s : State) (n : Nat) : List (Nat × Nat) :=
  s.coll.groups.flatMap fun kv => if kv.2.plot = n then (kv.2.seqs.filter CSeq.exec).flatMap CSeq.area else []

/-- Start the next sequence of a group (R230): its window opens and its staging is reserved. -/
def collStart (g op : Nat) (s : State) : State :=
  if !startsNext s g op then s
  else
    match s.group g with
    | none => s
    | some x =>
      let s := s.onSeq g x.next fun q => { q with
        exec := true, start := s.now, probe := probeInterval s x.plot
        area := takeParts (reserveBytes s x) (freeParts (stagingBytes s x.plot) (heldParts s x.plot))
        entered := (List.range x.window).foldl (fun m k => m.set k s.now) q.entered }
      let s := s.onGroup g fun y => { y with lastStart := some s.now }
      let s := s.onColl fun c => { c with reserved := c.reserved.set x.plot (c.reserved.getD x.plot 0 + reserveBytes s x) }
      if throttled s then slowSeq g x.next s else s

/-! The arithmetic of a chunk (R235, R240, R195). -/

/-- Elements of slice j of n in a chunk of `len` elements: first and past the last (R240). -/
def sliceRange (len n j : Nat) : Nat × Nat :=
  let nb := ceilDiv len 32
  (32 * (j * nb / n), min len (32 * ((j + 1) * nb / n)))

/-- A contribution's element and scale bytes of chunk k, as a member at this hub sent them. -/
def localPart (s : State) (x : Group) (q : CSeq) (b : List Byte) (m k : Nat) : List Byte × List Byte :=
  let n := chunkLen x b k
  (stageRead s x q m k 0 (ebOf (sigCt b) n), stageRead s x q m k x.chunkBytes (sbOf (sigCt b) n))

/-- CTSCALE of a member's descriptor. -/
def ctScale (q : CSeq) (m : Nat) : Nat := fieldAt (((q.posts.find? fun p => p.1 == m).map Prod.snd).getD []) 28 4

/-- Whether a reduction runs on exact accumulators: a narrow SUM (R228, R235). -/
def exactSum (b : List Byte) : Bool := isNarrow (elemOf (sigCt b)) && sigRop b == 0

/-- The accumulator of element i over this hub's local contributions, with the report (R179, R182). -/
def accLocal (x : Group) (q : CSeq) (b : List Byte) (parts : List (Nat × List Byte × List Byte)) (i : Nat) :
    Acc × ArithReport :=
  parts.foldl (fun a p => accElem a.1 (sigCt b) (ctScale q p.1) p.2.1 p.2.2 i a.2) ({ h := x.anchor }, {})

/-- The terms of element i that the members contribute, in canonical order: each rounded once to FP32 for a sum (R195), exact for a MIN
or MAX (R35). -/
def wideTerms (b : List Byte) (parts : List (Nat × Nat × List Byte × List Byte)) (i : Nat) : List (FV × Bool) :=
  parts.map fun p =>
    let v := elemVal (sigCt b) p.2.1 p.2.2.1 p.2.2.2 i
    if sigRop b = 0 then f32Round .rne v else (v, false)
/-- A left fold of binary32 additions, and whether a value was beyond the largest finite magnitude (R195, R196). -/
def foldSum (l : List (FV × Bool)) : FV × Bool :=
  match l with
  | [] => (.num false 0, false)
  | v :: r => r.foldl (fun a c =>
      let y := f32Round .rne (fvAdd a.1 c.1)
      (y.1, a.2 || c.2 || y.2)) v
/-- The fold of element i over the members' contributions in canonical order (R195), or their MIN or MAX. -/
def foldWide (b : List Byte) (parts : List (Nat × Nat × List Byte × List Byte)) (i : Nat) : FV × Bool :=
  let vals := wideTerms b parts i
  if sigRop b = 0 then foldSum vals
  else
    match vals with
    | [] => (.num false 0, false)
    | v :: r => r.foldl (fun a c => (if sigRop b = 1 then fvMin a.1 c.1 else fvMax a.1 c.1, false)) v
/-- The plausibility check of a wide sum (R285): the fold in reverse member order agrees with the first within the bound that the sum of
the magnitudes sets, or both are the same infinity, or both NaN. -/
def plausible (terms : List (FV × Bool)) : Bool :=
  let r := (foldSum terms).1
  let v := (foldSum terms.reverse).1
  let mags := (foldSum (terms.map fun c => (match c.1 with
    | .num _ x => .num false x
    | .inf _ => .inf false
    | .nan => .nan, false))).1
  let n : ℚ := terms.length
  match r, v with
  | .num a x, .num c y =>
    match mags with
    | .num _ z => decide (|FV.q (.num a x) - FV.q (.num c y)| ≤ n * z / 2 ^ 22 + n / 2 ^ 148)
    | .inf _ => true
    | .nan => false
  | .inf a, .inf c => a == c
  | .nan, .nan => true
  | _, _ => false
/-- Whether every element of a slice of a wide sum passes its check (R285). -/
def foldsPass (b : List Byte) (parts : List (Nat × Nat × List Byte × List Byte)) (n : Nat) : Bool :=
  sigRop b != 0 || (List.range n).all fun i => plausible (wideTerms b parts i)

/-- The key of a collective result's stochastic rounding and probe (R193). -/
def collKey (g n k : Nat) : U64 := BitVec.ofNat 64 (g % 4096 + 2 ^ 12 * n + 2 ^ 44 * (k % 2 ^ 20))

/-! PARTIAL bodies (Table 9-9). -/

/-- Trailing zeros of a nonzero integer, at most 223. -/
def trailing : Nat → Nat → Nat
  | 0, _ => 0
  | n + 1, v => if v = 0 then n + 1 else if v % 2 = 0 then 1 + trailing n (v / 2) else 0
/-- Smallest number of bytes that hold a list of signed integers. -/
def widthOf (l : List Int) : Nat :=
  ((List.range 29).find? fun w => l.all fun v => if w = 0 then v == 0 else decide (-(2 ^ (8 * w - 1)) ≤ v) && decide (v < 2 ^ (8 * w - 1))).getD 28
/-- The record of a block of 32 accumulators (Table 9-9). -/
def partialRecord (l : List Acc) : List Byte :=
  let l : List Acc := l ++ List.replicate (32 - l.length) { a := 0 }
  let t := (l.map fun a => trailing 223 a.a.natAbs).foldl min 223
  let vs := l.map fun a => a.a / 2 ^ t
  let w := widthOf vs
  let or (f : Acc → Bool) : Nat := b2n (l.any f)
  natLe 1 w ++ natLe 1 t ++
  natLe 1 (or Acc.nan + 2 * or Acc.pinf + 4 * or Acc.ninf + 8 * or Acc.clip + 16 * or Acc.low + 32 * or Acc.ovf) ++ [0] ++
  (vs.map fun v => natLe w (unsigned (8 * w) v)).flatten
/-- The records of consecutive blocks of accumulators. -/
def partialRecords : Nat → List Acc → List (List Byte)
  | 0, _ => []
  | n + 1, l => if l.isEmpty then [] else partialRecord (l.take 32) :: partialRecords n (l.drop 32)
/-- Records packed whole into bodies of at most 2,016 bytes, in order (Table 9-9). -/
def packRecords : List (List Byte) → List (List Byte)
  | [] => []
  | r :: l =>
    match packRecords l with
    | b :: t => if r.length + b.length ≤ 2016 then (r ++ b) :: t else r :: b :: t
    | [] => [r]
/-- Read one record: its 32 accumulators and the rest of the stream. -/
def readRecord (h : Int) (l : List Byte) : Option (List Acc × List Byte) :=
  let w := fieldAt l 0 1
  let t := fieldAt l 1 1
  let f := fieldAt l 2 1
  if l.length < 4 + 32 * w then none
  else some ((List.range 32).map fun i =>
    { a := signed (8 * w) (fieldAt l (4 + i * w) w) * (if w = 0 then 0 else 2 ^ t), h, nan := bitOf f 0, pinf := bitOf f 1,
      ninf := bitOf f 2, clip := bitOf f 3, low := bitOf f 4, ovf := bitOf f 5 }, l.drop (4 + 32 * w))
/-- Read the records of a number of blocks; none while some have not arrived. -/
def readStream (h : Int) : Nat → List Byte → Option (List Acc)
  | 0, _ => some []
  | n + 1, l =>
    match readRecord h l with
    | none => none
    | some (a, r) => (readStream h n r).map fun t => a ++ t

/-- What the FLAGS of the records of a stream add to the report of the slice's owner: a record of another hub whose block clipped, or
lost bits, counts once (DESIGN CHOICE: Table 9-9 brings flags and no counts; log entry 53). -/
def flagReport : Nat → List Byte → ArithReport
  | 0, _ => {}
  | n + 1, l =>
    let f := fieldAt l 2 1
    (flagReport n (l.drop (4 + 32 * fieldAt l 0 1))).add { clip := b2n (bitOf f 3), low := b2n (bitOf f 4), ovf := bitOf f 5 }

/-- The bytes of a stream that have arrived without a gap from its start. -/
def streamOf (bs : List XBody) : Nat → List Byte → List Byte
  | 0, acc => acc
  | n + 1, acc =>
    match bs.find? fun b => b.off == acc.length && !b.data.isEmpty with
    | none => acc
    | some b => streamOf bs n (acc ++ b.data)
/-- The stream of a kind, chunk and slice from a hub (any hub when none is named). -/
def stream (q : CSeq) (kind k slice : Nat) (hub : Option Nat) : List Byte :=
  let bs := q.bodies.filter fun b => b.kind == kind && b.chunk == k && b.slice == slice &&
    match hub with
    | some h => b.hub == h
    | none => true
  streamOf bs bs.length []

/-! Processing a chunk (R235, R240). -/

/-- The first local contribution to chunk k whose block check values do not hold (R235). -/
def badContribution (s : State) (x : Group) (q : CSeq) (b : List Byte) (k : Nat) : Option Nat :=
  let n := chunkLen x b k
  let fmt := sigCt b
  ((locals s x).filter fun m => contributes b m.1).findSome? fun m =>
    let p := localPart s x q b m.1 k
    let chk := stageRead s x q m.1 k (x.chunkBytes * 17 / 16) (8 * (blocksOf (ebOf fmt n) + blocksOf (sbOf fmt n)))
    let want := bcvs (blocksOf (ebOf fmt n)) p.1 ++ bcvs (blocksOf (sbOf fmt n)) p.2
    if (List.range want.length).all fun i => fieldAt chk (8 * i) 8 == want.getD i 0 then none else some m.1

/-- Whether chunk k is ready at this hub but for bodies from other hubs: in the window, executing, not processed, and of every
contributing local member the descriptor and the whole contribution arrived (R235). -/
def chunkHere (s : State) (x : Group) (q : CSeq) (b : List Byte) (k : Nat) : Bool :=
  q.exec && q.cause.isNone && inWindow x q b k && (q.writing.find k).isNone && !q.written.contains k &&
    (locals s x).all fun m => !contributes b m.1 || ((q.posts.any fun p => p.1 == m.1) && arrived s x q b m.1 k)

/-- The COLLCORES cores that can run the library program, lowest first (R235): not in reset or OUT. The lowest runs a chunk, and the next
repeats what failed there (DESIGN CHOICE, log entry 53). -/
def collCores (s : State) (x : Group) : List Nat :=
  (List.range 64).filter fun c => bitOf x.cores c && !(s.core c).resetting && (s.core c).st != .out && coreOn s c
/-- A chunk's check fails for good (R235, R288, R292): the collective aborts with FAIL_CHECK. The check kind given is OP. -/
def collFault (g n named reason op : Nat) (s : State) : State :=
  if seqEnded s g n then s
  else abortSeq g n St.check named reason false (raise 0xA105 [g, n, op, 0] (bump 0xC40B07 1 s))

/-- This hub's accumulators of a slice of elements, with their reports. -/
def accSlice (x : Group) (q : CSeq) (b : List Byte) (parts : List (Nat × List Byte × List Byte)) (r : Nat × Nat) :
    List (Acc × ArithReport) :=
  (List.range (r.2 - r.1)).map fun i => accLocal x q b parts (r.1 + i)
/-- A report is added to that of a sequence (R196, R240). -/
def reported (g n : Nat) (rep : ArithReport) (s : State) : State := s.onSeq g n fun y => { y with report := (y.report.add rep).cap }
/-- The terms of a slice that another hub owns are counted here, where they are clipped or truncated (R183, R196); an overflow fails this
hub's check (Table 7-12), and the partial is not sent. -/
def partCounted (g n : Nat) (b : List Byte) (x : Group) (accs : List (Acc × ArithReport)) (send : State → State) (s : State) : State :=
  let rep := (accs.map Prod.snd).foldl ArithReport.add {}
  let s := countReport { plot := x.plot, core := 0xFF, unit := g, num := n } rep s
  if rep.ovf then collFault g n 0x7FF 2 (sigOp b) (reported g n rep s) else send s

/-- Send accumulators of a slice to a hub as PARTIAL bodies (R240, Table 9-9). -/
def partialOut (x : Group) (g n k j hub : Nat) (accs : List Acc) (s : State) : State :=
  bodiesOut x g 2 n k j hub 0 (packRecords (partialRecords (ceilDiv accs.length 32) accs)) s
/-- The terms that a hub's contributions add to a slice, each as an accumulator of its own (R282). -/
def sliceTerms (x : Group) (q : CSeq) (b : List Byte) (parts : List (Nat × List Byte × List Byte)) (r : Nat × Nat) (i : Nat) :
    List Acc :=
  parts.map fun p => (accElem { h := x.anchor } (sigCt b) (ctScale q p.1) p.2.1 p.2.2 (r.1 + i) {}).1
/-- The linear check of a slice after its PARTIAL bodies have been added, block by block of 32 (R284): the terms of this hub and the
partials against the sums. -/
def sliceLinear (x : Group) (q : CSeq) (b : List Byte) (parts : List (Nat × List Byte × List Byte)) (r : Nat × Nat)
    (partials : List (List Acc)) (accs : List Acc) : Bool :=
  (List.range (ceilDiv accs.length 32)).all fun kb =>
    let is_ := (List.range (min 32 (accs.length - 32 * kb))).map fun i => 32 * kb + i
    linearOk (is_.flatMap fun i => sliceTerms x q b parts r i ++ partials.map fun p => p.getD i { h := x.anchor })
      (is_.map fun i => accs.getD i {})

/-- Send this hub's bodies for chunk k, once (R240): PARTIALs or contributions of slices it does not own, or contributions whole. -/
def sendBodies (g n k : Nat) (x : Group) (q : CSeq) (b : List Byte) (s : State) : State :=
  let len := chunkLen x b k
  let nh := x.hubs.length
  let me := x.hubIx (hubId s)
  let mine := (locals s x).filter fun m => contributes b m.1
  let parts := mine.map fun m => (m.1, localPart s x q b m.1 k)
  let s := s.onSeq g n fun y => { y with sent := y.sent.set k s.now }
  if !opReduces (sigOp b) then
    forAll parts (fun p => streamAll x g 4 n k p.1 (p.2.1 ++ p.2.2)) s
  else if exactSum b then
    if x.ring then s
    else
      forAll ((List.range nh).filter fun j => j != me) (fun j s =>
        let r := sliceRange len nh j
        let accs := accSlice x q b parts r
        if seqEnded s g n then s
        else partCounted g n b x accs (partialOut x g n k j (x.hubs.getD j 0) (accs.map Prod.fst)) s) s
  else
    forAll parts (fun p s => forAll ((List.range nh).filter fun j => j != me) (fun j s =>
      let r := sliceRange len nh j
      let e := slice p.2.1 (r.1 * elemBits (elemOf (sigCt b)) / 8) (ebOf (sigCt b) (r.2 - r.1))
      let c := slice p.2.2 (r.1 / 32) (sbOf (sigCt b) (r.2 - r.1))
      let l := natLe 4 (ctScale q p.1) ++ e ++ c
      streamOut x g 4 n k p.1 (if x.ring then ringNext s x else x.hubs.getD j 0) (if x.ring then j * 2 ^ 26 else 0) l s) s) s

/-- In ring order, pass on the PARTIAL of a slice this hub does not own, with its own contributions added, once the hub before
has sent it; the hub after the owner begins (R240). -/
def ringPartials (g n k : Nat) (x : Group) (q : CSeq) (b : List Byte) (s : State) : State :=
  let len := chunkLen x b k
  let nh := x.hubs.length
  let me := x.hubIx (hubId s)
  let parts := ((locals s x).filter fun m => contributes b m.1).map fun m => (m.1, localPart s x q b m.1 k)
  forAll ((List.range nh).filter fun j => j != me && (q.slices.find (2 ^ 40 + k * 64 + j)).isNone) (fun j s =>
    let r := sliceRange len nh j
    let nb := ceilDiv (r.2 - r.1) 32
    let own := accSlice x q b parts r
    let send (accs : List (Acc × ArithReport)) (s : State) : State :=
      partCounted g n b x accs (partialOut x g n k j (ringNext s x) (accs.map Prod.fst))
        (s.onSeq g n fun y => { y with slices := y.slices.set (2 ^ 40 + k * 64 + j) ([], []) })
    if seqEnded s g n then s
    else if me = (j + 1) % nh then send own s
    else
      match readStream x.anchor nb (stream q 2 k j none) with
      | none => s
      | some prev =>
        let accs := own.zipIdx.map fun p => Acc.add p.1.1 (prev.getD p.2 { h := x.anchor }) p.1.2
        if sliceLinear x q b parts r [prev] (accs.map Prod.fst) then send accs s else collFault g n 0x7FF 2 (sigOp b) s) s

/-- The parts of the members that a wide slice folds, in canonical order, once all have arrived (R195, R240): index, CTSCALE,
element and scale bytes of the slice. -/
def wideParts (s : State) (x : Group) (q : CSeq) (b : List Byte) (k j : Nat) : Option (List (Nat × Nat × List Byte × List Byte)) :=
  let r := sliceRange (chunkLen x b k) x.hubs.length j
  let eb := ebOf (sigCt b) (r.2 - r.1)
  let sb := sbOf (sigCt b) (r.2 - r.1)
  (x.indexed.filter fun m => contributes b m.1).mapM fun m =>
    if hubOf m.2.node = hubId s then
      let p := localPart s x q b m.1 k
      some (m.1, ctScale q m.1, slice p.1 (r.1 * elemBits (elemOf (sigCt b)) / 8) eb, slice p.2 (r.1 / 32) sb)
    else
      let bs := (q.bodies.filter fun y => y.kind == 4 && y.chunk == k && y.slice == m.1 && (!x.ring || y.off / 2 ^ 26 == j)).map
        fun y => { y with off := y.off % 2 ^ 26 }
      let l := streamOf bs bs.length []
      if l.length < 4 + eb + sb then none else some (m.1, fieldAt l 0 4, slice l 4 eb, slice l (4 + eb) sb)

/-- What this hub computes of its slice of a reduction: the values before their one rounding, each with whether its fold overflowed; the
report of its own terms; what the flags of the other hubs' partials add; whether its check passes (R284, R285). -/
structure SliceVals where
  /-- Values, each with whether the fold was beyond the largest finite magnitude. -/
  vals : List (FV × Bool)
  /-- The report of the terms added at this hub. -/
  rep : ArithReport := {}
  /-- What the partials of other hubs report. -/
  far : ArithReport := {}
  /-- Whether the checks of the arithmetic pass. -/
  pass : Bool := true

/-- The exact values of this hub's slice of a reduction, once everything it needs has arrived, with the report of the terms. -/
def sliceValues (s : State) (x : Group) (q : CSeq) (b : List Byte) (k j : Nat) : Option SliceVals :=
  let nh := x.hubs.length
  let r := sliceRange (chunkLen x b k) nh j
  let scale := pow2 (-(sigExp b))
  if exactSum b then
    let parts := ((locals s x).filter fun m => contributes b m.1).map fun m => (m.1, localPart s x q b m.1 k)
    let nb := ceilDiv (r.2 - r.1) 32
    let from_ := if x.ring then (if nh = 1 then [] else [none]) else ((List.range nh).filter fun h => h != j).map some
    let bodies := from_.map fun h => stream q 2 k j h
    match bodies.mapM (readStream x.anchor nb) with
    | none => none
    | some ps =>
      let accs := (accSlice x q b parts r).zipIdx.map fun a =>
        ps.foldl (fun (c : Acc × ArithReport) p => Acc.add c.1 (p.getD a.2 { h := x.anchor }) c.2) a.1
      let rep := (accs.map Prod.snd).foldl ArithReport.add {}
      let far := (bodies.map (flagReport nb)).foldl ArithReport.add {}
      some { vals := accs.map fun a => ((Acc.value a.1 scale).fv, false), rep, far, pass := !rep.ovf && !far.ovf && sliceLinear x q b parts r ps (accs.map Prod.fst) }
  else
    match wideParts s x q b k j with
    | none => none
    | some ps => some {
        vals := (List.range (r.2 - r.1)).map fun i =>
          let v := foldWide b ps i
          (fvMul v.1 (.num false scale), v.2)
        pass := foldsPass b ps (r.2 - r.1) }

/-- The place of a chunk's first block of 32 elements in the operation's output (R197). -/
def firstBlock (x : Group) (b : List Byte) (k : Nat) : Nat := k * chunkElems x b / 32
/-- Encode this hub's slice of chunk k, keep it, and send it to the other hubs (R235, R240); an accumulator overflow or an implausible
fold is a failed check of the arithmetic (R285, Table 7-12), which every repetition fails again. -/
def encodeSlice (g n k j : Nat) (x : Group) (q : CSeq) (b : List Byte) (s : State) : State :=
  if (q.slices.find (k * 64 + j)).isSome then s
  else
    match sliceValues s x q b k j with
    | none => s
    | some v =>
      let r := sliceRange (chunkLen x b k) x.hubs.length j
      let e := encodeLate (sigRt b) (sigRnd b) q.probe (collKey g n k) (firstBlock x b k + r.1 / 32) r.1 v.vals
      let s := account { plot := x.plot, core := 0xFF, unit := g, num := n } (sigRt b) { e with rep := v.rep.add e.rep } s
      let rep := (v.rep.add v.far).add e.rep
      if !v.pass then collFault g n 0x7FF 2 (sigOp b) (reported g n rep s)
      else
        let eb := e.elemBytes (sigRt b)
        let s := reported g n rep (s.onSeq g n fun y => { y with slices := y.slices.set (k * 64 + j) (eb, e.scaleBytes) })
        if x.multi then streamAll x g 3 n k j (rep.image ++ eb ++ e.scaleBytes) s else s

/-- The encoded slices of chunk k, in order, once all are at this hub: element bytes and scale bytes, with the reports of the
slices that came from other hubs. -/
def chunkSlices (s : State) (x : Group) (q : CSeq) (b : List Byte) (k : Nat) : Option (List (List Byte × List Byte × ArithReport)) :=
  let nh := x.hubs.length
  let me := x.hubIx (hubId s)
  (List.range nh).mapM fun j =>
    if j = me then (q.slices.find (k * 64 + j)).map fun p => (p.1, p.2, {})
    else
      let r := sliceRange (chunkLen x b k) nh j
      let eb := ebOf (sigRt b) (r.2 - r.1)
      let sb := sbOf (sigRt b) (r.2 - r.1)
      let l := stream q 3 k j none
      if l.length < 16 + eb + sb then none else some (slice l 16 eb, slice l (16 + eb) sb, ArithReport.ofImage l)

/-- A contributing member's chunk k, local or received whole as DATA (R240). -/
def wholePart (s : State) (x : Group) (q : CSeq) (b : List Byte) (k m : Nat) : Option (List Byte × List Byte) :=
  let n := chunkLen x b k
  if ((locals s x).any fun l => l.1 == m) then some (localPart s x q b m k)
  else
    let l := stream q 4 k m none
    if l.length < ebOf (sigCt b) n + sbOf (sigCt b) n then none
    else some (slice l 0 (ebOf (sigCt b) n), slice l (ebOf (sigCt b) n) (sbOf (sigCt b) n))

/-- The bytes of n packed elements with the bits beyond the last of them zero (R232). -/
def trimElems (fmt n : Nat) (l : List Byte) : List Byte :=
  let bits_ := n * elemBits (elemOf fmt)
  (l.take (bits_ / 8)) ++ (if bits_ % 8 = 0 then [] else ((l.drop (bits_ / 8)).take 1).map fun c => BitVec.ofNat 8 (c.toNat % 2 ^ (bits_ % 8)))
/-- Elements [lo, hi) of a chunk's bytes as a piece at element `dst` of a result: element place, element bytes, scale bytes. -/
def piece (fmt : Nat) (p : List Byte × List Byte) (lo hi dst : Nat) : Option (Nat × List Byte × List Byte) :=
  if hi ≤ lo then none
  else some (dst, trimElems fmt (hi - lo) (slice p.1 (lo * elemBits (elemOf fmt) / 8) (ebOf fmt (hi - lo))), slice p.2 (lo / 32) (sbOf fmt (hi - lo)))

/-- What member m's result receives from chunk k (Table 9-4), once everything is at this hub. -/
def memberPieces (s : State) (x : Group) (q : CSeq) (b : List Byte) (k m : Nat) : Option (List (Nat × List Byte × List Byte)) :=
  let fmt := sigRt b
  let lo := k * chunkElems x b
  let n := chunkLen x b k
  let op := sigOp b
  let e := sigElems b
  if opReduces op then
    match chunkSlices s x q b k with
    | none => none
    | some sl =>
      let p := ((sl.map fun a => a.1).flatten, (sl.map fun a => a.2.1).flatten)
      if op = 2 then
        let w := e / x.members.length
        some (piece fmt p (max (m * w) lo - lo) (min ((m + 1) * w) (lo + n) - lo) (max (m * w) lo - m * w)).toList
      else some (piece fmt p 0 n lo).toList
  else
    ((x.indexed.filter fun j => contributes b j.1).mapM fun j => (wholePart s x q b k j.1).map fun p =>
      if op = 3 then (piece fmt p 0 n (j.1 * e + lo)).toList
      else if op = 4 then (piece fmt p 0 n lo).toList
      else (piece fmt p (max (m * e) lo - lo) (min ((m + 1) * e) (lo + n) - lo) (j.1 * e + (max (m * e) lo - m * e))).toList).map
      List.flatten

/-- Elements of member m's whole result (Table 9-4). -/
def resultElems (x : Group) (b : List Byte) : Nat :=
  if sigOp b = 2 then sigElems b / x.members.length
  else if sigOp b = 3 ∨ sigOp b = 6 then x.members.length * sigElems b
  else sigElems b

/-- The check area of member m's whole result, from what it has received of every chunk (R232, R235). -/
def checkArea (x : Group) (q : CSeq) (b : List Byte) (m : Nat) : List Byte :=
  let fmt := sigRt b
  let ps := ((List.range (chunksOf x b)).map fun k => q.pieces.getD (2 ^ 32 * m + k) []).flatten
  let em := ps.foldl (fun (a : Mem) p => Mem.write a (p.1 * elemBits (elemOf fmt) / 8) p.2.1) []
  let sm := ps.foldl (fun (a : Mem) p => Mem.write a (p.1 / 32) p.2.2) []
  let eb := ebOf fmt (resultElems x b)
  let sb := sbOf fmt (resultElems x b)
  ((bcvs (blocksOf eb) (Mem.read em 0 eb) ++ bcvs (blocksOf sb) (Mem.read sm 0 sb)).map (natLe 8)).flatten

/-- The writes of a member's pieces at its buffer (R232, R236): to byte offsets of its context. -/
def resultWrites (desc : List Byte) (fmt : Nat) (ps : List (Nat × List Byte × List Byte)) (area : List Byte) :
    List (Nat × Nat × Nat × List Byte) :=
  let roff := fieldAt desc 20 6
  let at_ (off : Int) : Nat := ((roff : Int) + off).toNat % 2 ^ 48
  (ps.map fun p => rangeWrites (at_ (p.1 * elemBits (elemOf fmt) / 8 : Nat)) p.2.1 ++
    rangeWrites (at_ (signed 32 (fieldAt desc 32 4) + (p.1 / 32 : Nat))) p.2.2).flatten ++
  rangeWrites (at_ (signed 32 (fieldAt desc 36 4))) area

/-- A result write: opcode, address, bytes covered, data. -/
abbrev ResultWrite := Nat × Nat × Nat × List Byte
/-- The grid row of a local member that is an end point of this hub. -/
def rowOf (m : Member) : Option Nat := if lepOf m.node < 128 then some (lepOf m.node / 16) else none
/-- The lines that reach the receiving members of a grid row by sowing (R236): the members share RCTX and ROFF, and the lines are those
that every one of them receives (DEDUCED: a sowing carries one content to one offset; log entry 41). -/
def sownLines (row : List (List Byte × List ResultWrite)) : List ResultWrite :=
  match row with
  | [] => []
  | (d, ws) :: r =>
    if r.all fun y => slice y.1 16 2 == slice d 16 2 && slice y.1 20 6 == slice d 20 6 then
      ws.filter fun w => r.all fun y => y.2.contains w
    else []
/-- Write chunk k's results to the local members (R236): by WRITE sowings of a row, else by unicast. The check area goes with the last
chunk processed. -/
def writeResults (g n k : Nat) (x : Group) (q : CSeq) (b : List Byte) (s : State) : State :=
  let last := (List.range (chunksOf x b)).all fun i => i == k || (q.writing.find i).isSome || q.written.contains i
  let recv := (locals s x).filter fun m => receives b m.1
  let q := { q with pieces := recv.foldl (fun t m => t.set (2 ^ 32 * m.1 + k) ((memberPieces s x q b k m.1).getD [])) q.pieces }
  let desc (m : Nat) : List Byte := ((q.posts.find? fun p => p.1 == m).map Prod.snd).getD []
  let writes (m : Nat) : List ResultWrite :=
    resultWrites (desc m) (sigRt b) (q.pieces.getD (2 ^ 32 * m + k) []) (if last then checkArea x q b m else [])
  let all : List (Nat × Member × List ResultWrite) := recv.map fun m => (m.1, m.2, writes m.1)
  let rows := (List.range 8).map fun r => all.filter fun a => rowOf a.2.1 == some r
  let sown := rows.map fun row => sownLines (row.map fun a => (desc a.1, a.2.2))
  let hdr (m : Nat) (w : ResultWrite) : Header :=
    { plot := x.plot, len := w.2.2.1, ctx := fieldAt (desc m) 16 2, opa := BitVec.ofNat 48 w.2.1 }
  let jobs : List (Nat × Nat × Header × List Byte) :=
    ((rows.zip sown).zipIdx.map fun r => match r.1.1 with
      | [] => []
      | a :: _ => r.1.2.map fun w => (0x7FF, w.1, { hdr a.1 w with sow := 1, sowix := r.2, dst := nodeOf s 0 }, w.2.2.2)).flatten ++
    (all.map fun a =>
      let by_ := ((rowOf a.2.1).map fun r => sown.getD r []).getD []
      (a.2.2.filter fun w => !by_.contains w).map fun w => (a.1, w.1, { hdr a.1 w with dst := a.2.1.node }, w.2.2.2)).flatten
  let s := s.onSeq g n fun y => { y with writing := y.writing.set k (2 * jobs.length), pieces := q.pieces }
  forAll jobs (fun j => unitSend (.result g n k j.1) j.2.1 j.2.2.1 j.2.2.2) s

/-! Exchange bodies arrive (R238-R242, R248). -/

/-- Forward a body to the next hub of the ring unless that hub is where it came from or, for a slice of a wide reduction, this hub
is where it goes (R240). -/
def ringForward (x : Group) (origin : Nat) (payload : List Byte) (s : State) : State :=
  if x.ring && ringNext s x != origin then xchSend x (ringNext s x) payload s else s

/-- Keep a body of a sequence that is not aborted. -/
def keepBody (g n : Nat) (b : XBody) (s : State) : State :=
  s.onSeq g n fun q => if q.cause.isSome then q else { q with bodies := q.bodies ++ [b] }

/-- An exchange message from a hub (R238): one for a group this hub knows, of a sequence that is not past; a hub that is ahead of this one
may send for any later sequence. -/
def xchIntake (hub : Nat) (payload : List Byte) (s : State) : State :=
  let w0 := fieldAt payload 0 4
  let kind := w0 % 16
  let g := bits w0 15 4
  let n := fieldAt payload 4 4
  let chunk := fieldAt payload 8 4
  let sl := fieldAt payload 12 2
  let factor := fieldAt payload 14 2 % 16
  let off := fieldAt payload 16 4
  let w5 := fieldAt payload 20 4
  let body := payload.drop 32
  match s.group g with
  | none => s
  | some x =>
    if !x.hubs.contains hub || hub == hubId s then s
    else if 2 ^ 31 ≤ (n + 2 ^ 32 - x.next) % 2 ^ 32 then s
    else if slice payload 24 8 != takePad 8 x.digest then abortSeq g n St.mismatch (x.firstOf hub) 3 true s
    else
      let s := ensureSeq g n s
      let ix := x.hubIx hub
      let aborted := match (s.group g).bind fun y => y.find n with
        | some q => q.cause.isSome
        | none => false
      let fwd (origin : Nat) (s : State) : State := if aborted then s else ringForward x origin payload s
      let keep := keepBody g n { kind, hub := ix, chunk, slice := sl, off, data := body }
      let node := (x.members.getD sl { node := 0, cctx := 0, cnode := 0, cslots := 1, coff := 0, sigoff := 0 }).node
      if kind = 1 then
        compareSigs g n x (s.onSeq g n fun q => { q with sigs := q.sigs ++ [(hub, takePad 16 body)] })
      else if kind = 2 then keep s
      else if kind = 3 then fwd (x.hubs.getD sl 0) (keep s)
      else if kind = 4 then
        let wide := match (s.group g).bind fun y => y.find n with
          | some q => opReduces (sigOp (q.sig.getD []))
          | none => false
        if wide && x.ring && off / 2 ^ 26 == x.hubIx (hubId s) then keep s else fwd (hubOf node) (keep s)
      else if kind = 5 then
        s.onSeq g n fun q => { q with hubFactors := q.hubFactors.set ix (max factor (q.hubFactors.getD ix 0)) }
      else if kind = 6 then
        abortHeard g n { status := w5 % 256, named := bits w5 18 8, reason := bits w5 23 19, hubLevel := bitOf w5 24,
                         time := fieldAt body 0 8, hub := ix } s
      else if kind = 7 then
        let from_ := if x.ring then sl else ix
        fwd (x.hubs.getD from_ 0) (s.onSeq g n fun q => { q with dones := from_ :: q.dones })
      else s

/-! Completion (R236, R237, R243). -/

/-- Issue the completion record of every local member (R237, R243). -/
def finishSeq (g n : Nat) (x : Group) (q : CSeq) (s : State) : State :=
  let b := q.sig.getD []
  let chunks := if q.sig.isSome then chunksOf x b else 0
  let bytes := match q.cause with
    | none => recordBytes St.ok 0x7FF 0 false n q.written.length chunks q.report
    | some c => recordBytes c.status c.named c.reason c.hubLevel n (if q.exec then q.written.length else 0) chunks q.report
  forAll (locals s x) (fun m s =>
    sendRecord (.record g n m.1) x m.2 n bytes (s.onSeq g n fun y => { y with finish := y.finish.set m.1 .record })) s

/-- Whether every result write of a sequence has been answered. -/
def writesAnswered (q : CSeq) : Bool := q.writing.all fun kv => decide (kv.2 < 2)

/-- Whether a group's next sequence is to end now: complete (R237), or aborted with its writes answered and, across hubs, the
settle time passed (R242-R244). -/
def endsNow (s : State) (x : Group) (q : CSeq) : Bool :=
  q.seq == x.next && q.finish.isEmpty &&
    match q.cause with
    | some _ => writesAnswered q && (!x.multi || decide (q.known + 4000 ≤ s.now))
    | none => q.exec &&
      let b := q.sig.getD []
      if sigOp b = 7 then
        q.posts.length == (locals s x).length && (x.hubs.all fun h => h == hubId s || q.dones.contains (x.hubIx h))
      else (List.range (chunksOf x b)).all fun k => q.written.contains k

/-- A sequence has ended at every local member: its staging is released and NEXT advances (R230, R243). -/
def closeSeq (g n : Nat) (x : Group) (q : CSeq) (s : State) : State :=
  let s := if q.cause.isNone then bump 0xC40901 1 s else s
  let s := if q.exec then
      stageDrop x q (q.stage.map Prod.fst)
        (s.onColl fun c => { c with reserved := c.reserved.set x.plot (c.reserved.getD x.plot 0 - reserveBytes s x) }) else s
  s.onGroup g fun y => { y with seqs := y.seqs.filter fun r => r.seq != n, next := (y.next + 1) % 2 ^ 32 }

/-- A BARRIER whose local members have all posted tells the other hubs, once (R240). -/
def barrierDone (g : Nat) (x : Group) (q : CSeq) (s : State) : State :=
  if q.exec && q.cause.isNone && sigOp (q.sig.getD []) == 7 && (q.sent.find 0).isNone &&
      q.posts.length == (locals s x).length && x.multi then
    streamAll x g 7 q.seq 0 (x.hubIx (hubId s)) [] (s.onSeq g q.seq fun y => { y with sent := y.sent.set 0 s.now })
  else s

/-- Whether a plot is behind its Hedge: its members get no record (R319, R320). -/
def fenced (s : State) (n : Nat) : Bool := (s.plot n).st == .hedged || (s.plot n).st == .removing
/-- What a group does of its own accord: BARRIER's DONE, the end of its next sequence, and closing it. -/
def groupTurn (g : Nat) (s : State) : State :=
  match s.group g with
  | none => s
  | some x =>
    match x.find x.next with
    | none => s
    | some q =>
      if !q.finish.isEmpty && (q.finish.all fun kv => kv.2 == .done) then closeSeq g q.seq x q s
      else if endsNow s x q then
        if (locals s x).isEmpty || fenced s x.plot then closeSeq g q.seq x q s else finishSeq g q.seq x q s
      else barrierDone g x q s

/-- The answers the collective unit acts on by itself: a signal's ends a member's part (R237); a refusal's record and an exchange
message's answer need nothing. -/
def takeAnswer (a : UnitAnswer) (s : State) : State :=
  match a.op with
  | .signal g n m => s.onSeq g n fun q => { q with finish := q.finish.set m .done }
  | _ => s
/-- Whether an answer is one of those. -/
def selfAnswer (a : UnitAnswer) : Bool :=
  match a.op with
  | .signal _ _ _ => true
  | .refusal => true
  | .exchange => true
  | _ => false

/-- The collective unit settles: it takes the answers it acts on by itself and gives every group its turn. -/
def collSettle (s : State) : State :=
  let mine := s.coll.answers.filter selfAnswer
  let s := forAll mine takeAnswer (s.onColl fun c => { c with answers := c.answers.filter fun a => !selfAnswer a })
  forAll (s.coll.groups.map Prod.fst) groupTurn s

end Sys2Proof.Machine
end

