-- ==== Sys2Proof/Machine/PoolOps.lean ====
section
/-! DEFINITION. An accepted access at the pool: what it waits for, its effect, versions and copies, lost lines, retirement and
block fills (R122, R125, R127, R129, R130-R136, R138, R141-R145, R163-R168, R274-R280, R306, R315, R445). -/

namespace Sys2Proof.Machine

/-! Frames, pages and generations. -/


/-! Writes. -/

/-- Mark the digest regions that hold an extent as changed while a pass runs (R299). -/
def regionsTouched (x : Nat) (s : State) : State :=
  let touch (r : DigestRegion) : DigestRegion :=
    if r.running && decide (r.first ≤ x) && decide (x < r.first + r.count) then { r with changed := true } else r
  s.onChk fun c => { c with regions := c.regions.mapV fun _ => touch }

/-- Store bytes at a physical address. A write accepted after the latest PUBLISH (`mark`) leaves its page without need of a further copy until the next one (R134). -/
def poolStore (mark : Bool) (pa : Nat) (data : List Byte) (s : State) : State :=
  let f := pa / frameBytes
  let s := match framePage s f with
    | none => s
    | some (x, i) =>
      if mark && (s.ext x).versioned && !(s.ext x).written.contains i then
        s.onExt x fun e => { e with written := i :: e.written }
      else s
  { s with mem := Mem.write s.mem pa data }

/-- Whether the host may hold a line of a frame newer than the pool copy (R159, R163). -/
def frameOwned (s : State) (f : Nat) : Bool := s.coh.filter.any fun kv =>
  kv.1 / 512 == f && (kv.2.st == .exclusive || kv.2.st == .modified)

/-- Before the Harrow reads a frame every line the host holds E or M in it is snooped (R163); whether it must wait for them. -/
def frameSnooped (f : Nat) (s : State) : Bool × State :=
  let s := forAll ((s.coh.filter.filter fun kv => kv.1 / 512 == f).map Prod.fst) meetWalk s
  if frameOwned s f then
    (true, forAll ((s.coh.filter.filter fun kv => kv.1 / 512 == f && hostOwns s kv.1).map Prod.fst) (fun l => sendSnoop l false) s)
  else (false, s)

/-- The BCVs a copy of a frame carries (R277): the source's stored values, moved by its dirty lines, whose newest data the copy holds; a
line that is lost in the copy counts as zeros (R280). -/
def copyBcvs (s : State) (src dst : Nat) (orphans : List Nat) : FMap Nat :=
  let lines (b : Nat) : List Nat := (List.range 32).map fun i => 32 * b + i
  let part (z l : Nat) : Nat :=
    let z := match s.pool.dirty.find l with
      | some old => z + bcvPart l (Mem.read s.mem (l * 128) 128) + bcvP - bcvPart l old
      | none => z
    if orphans.contains l then (z + bcvP - bcvPart l (Mem.read s.mem (l * 128) 128)) % bcvP else z % bcvP
  (List.range 16).foldl (fun m i =>
    m.set (dst * 16 + i) ((lines (src * 16 + i)).foldl part (s.pool.bcvs.getD (src * 16 + i) 0))) s.pool.bcvs

/-- Copy a frame through the chip cache with its lost lines and its BCVs (R122, R277); the copy takes the current generation, or stays CLEAR
with its source (R134, R142, R306, R318). An ORPHANED line of the source has no value to copy (R167): it is lost in the copy (DESIGN
CHOICE, log entry 52). -/
def copyFrame (src dst : Nat) (s : State) : State :=
  let orphans := (s.coh.filter.filter fun kv => kv.1 / 512 == src && isOrphaned s kv.1).map Prod.fst
  let s := chipDrop (fun l => l / 512 == dst) s
  let kept := copyBcvs s src dst orphans
  let fresh := s.pool.dirty.any fun kv => kv.1 / 512 == src
  let s := { s with mem := Mem.copy s.mem (src * frameBytes) (dst * frameBytes) frameBytes }
  let s := s.onPool fun p => { p with bcvs := kept }
  let s := s.onKey fun k => { k with frameGen :=
    if (k.frameGen.find src).isNone && !fresh then k.frameGen.erase dst else k.frameGen.set dst (frameGenNow s dst) }
  s.onPool fun p =>
    let clean := p.lostLines.keep fun l _ => l / 512 != dst
    let moved := clean.filter fun kv => kv.1 / 512 == src
    let all := moved.foldl (fun m kv => m.set (dst * 512 + kv.1 % 512) kv.2) clean
    { p with lostLines := orphans.foldl (fun m l => m.set (dst * 512 + l % 512) .dataLost) all }

/-! Lost lines and retirement (R142, R143). -/

/-- Mark a line lost; its copies leave the chip cache, and for block check values it counts as zeros (R142, R280). -/
def markLost (line : Nat) (why : LineLoss) (s : State) : State :=
  let s := chipDrop (fun l => l == line) s
  let s := bcvMove line (tierLine s line) (List.replicate 128 0) s
  s.onPool fun p => { p with lostLines := p.lostLines.set line why }

/-- Spare pool of a frame: its channel set 0-31, or 32 + CXL device (R121, R142). -/
def sparePool (f : Nat) : Nat :=
  match extOf (f * frameBytes) with
  | none => 0
  | some x => if extTier x = 1 then extSet x else if extTier x = 2 then 32 + extCxl x else 34
/-- Spares a pool has at manufacture (R121). -/
def spareTotal (s : State) (k : Nat) : Nat :=
  if k < 32 then 1024 else Config.cxlSpareFrames (if k = 34 then tier3Capacity s else (s.cxlPort (k - 32)).capacity)
/-- Spares left in a pool (R142). -/
def spareLeft (s : State) (k : Nat) : Nat := spareTotal s k - s.pool.sparesUsed.getD k 0

/-- Begin the retirement of a frame, when a spare is left and it is not being retired (R142). -/
def retireFrame (f stack : Nat) (s : State) : State :=
  if (s.pool.retiring.find f).isSome || spareLeft s (sparePool f) == 0 then s
  else s.onPool fun p => { p with retiring := p.retiring.set f stack }

/-! What an access waits for. -/

/-- Whether an access may be applied now. -/
inductive Obst where
  | none
  | fail (st : Nat)
  | wait (w : WaitFor)
  deriving DecidableEq, Repr

/-- The version for which a write must first copy its page: the greatest live version at or below the one current at its
acceptance, when no copy of the page is kept for it (R134). -/
def copyFor (s : State) (x i : Nat) (upTo : Option Nat) : Option Nat :=
  match upTo with
  | none => none
  | some v =>
    let best := ((s.ext x).versions.map Version.num).foldl (fun b n => if n ≤ v then max b n else b) 0
    if best = 0 then none
    else if s.pool.frames.any (fun kv => kv.2 == .copy x i best) then none
    else some best

/-- Whether a page is being copied for a version: some accepted write waits for it (R134). -/
def copying (s : State) (x i : Nat) : Bool := s.pool.waiting.any fun w => w.what == .copyPage x i

/-- Reads of a page through a view wait while it is copied (R134). -/
def viewWaits (w : PoolWait) (s : State) : Bool :=
  w.view.isSome && match framePage s (w.pa / frameBytes) with
    | none => false
    | some (x, i) => copying s x i

/-- The collective queue slot a physical address lies in, found through the frame map (R227). -/
def paSlot (s : State) (pa : Nat) : Option (Nat × Nat × Nat) :=
  match frameUse s (pa / frameBytes) with
  | .working x i => queueSlot s x (i * frameBytes + pa % frameBytes)
  | _ => none

/-- Whether a write to a collective queue slot is one that may not be made there (R227). -/
def slotRefuses (r : Req) (pa : Nat) (s : State) : Bool :=
  opWrites r.op && (paSlot s pa).isSome && !(r.op == Op.write && r.h.len == 128)

/-- Whether a metadata word that an access to a physical address reads has failed in both copies (R272, Table 11-1). -/
def metaLost (s : State) (pa : Nat) : Bool :=
  !s.chk.badMeta.isEmpty && s.chk.badMeta.any fun
    | .chipTag l => l == pa / 128
    | .snoop l => l == pa / 128
    | .frame f => f == pa / frameBytes
    | .extent x => extOf pa == some x || ((framePage s (pa / frameBytes)).map Prod.fst) == some x
    | _ => false

/-- What keeps an accepted access from being applied, in the order it is met: a queue slot that it may not write (R227), a failed metadata
word (R272), the snoop filter (R163, R167), earlier accesses
to the line (R44), its extent's tier (R145), lost lines (R142, R317), a lost stack (R445), retirement (R142), copy on write
(R134), the block's fill (R278); `filled`: the block whose fill has just come. -/
def obstacle (filled : Option Nat) (w : PoolWait) (s : State) : Obst :=
  let line := w.pa / 128
  let wr := opWrites w.req.op
  let full := fullLine w.req.op w.req.h w.req.data
  if slotRefuses w.req w.pa s then .fail St.protection
  else if metaLost s w.pa then .fail St.internal
  else
  match snoopSt s line with
  | some (.orphaned _) => .fail St.orphaned
  | some .exclusive => .wait (.snoop line wr)
  | some .modified => .wait (.snoop line wr)
  | st =>
    if wr && st == some .shared then .wait (.snoop line true)
    else
      match s.pool.waiting.find? (fun v => v.pa / 128 == line) with
      | some v => .wait v.what
      | none =>
        let f := w.pa / frameBytes
        if (match extOf w.pa with | some x => extLost s x | none => false) then .fail St.dataLost
        else if decide (w.pa < 0x010000000000) && s.pool.lostStacks.contains (line % 8) then .fail St.dataLost
        else
          match if full then none else s.pool.lostLines.find line with
          | some .dataLost => .fail St.dataLost
          | some .keyRetired => .fail St.keyRetired
          | none =>
            if (s.pool.retiring.find f).isSome then .wait (.frameCopy f)
            else
              match framePage s f with
              | none => .none
              | some (x, i) =>
                if (copyFor s x i w.copy).isSome || viewWaits w s then .wait (.copyPage x i)
                else if !full && !chipHit s line w.req.h.plot && !frameClear s f && filled != some (w.pa / 4096) then
                  .wait (.block (w.pa / 4096))
                else .none

/-- An accepted access has stored what it stores (R33, R36, R37); a line written in full is no longer lost (R142). -/
def stored (w : PoolWait) (s : State) : State :=
  let r := accessBytes w.req.op w.req.h w.req.data (Mem.read s.mem w.pa (spanOf w.req.op w.req.h))
  let mark := match framePage s (w.pa / frameBytes) with
    | none => false
    | some (x, _) => w.latest == (s.ext x).latest
  let s := if opWrites w.req.op then poolStore mark w.pa r.1 s else s
  if fullLine w.req.op w.req.h w.req.data then
    s.onPool fun p => { p with lostLines := p.lostLines.erase (w.pa / 128) } else s

/-- The effect of an accepted access (R33, R36, R37, R150): what it returns, and the state after it. A descriptor written to a
collective queue slot is handed over before the answer (R227). -/
def effectAccess (w : PoolWait) (s : State) : List Byte × State :=
  let r := accessBytes w.req.op w.req.h w.req.data (Mem.read s.mem w.pa (spanOf w.req.op w.req.h))
  let old := tierLine s (w.pa / 128)
  let s := stored w (chipAlloc (w.pa / 128) w.req.h.plot s)
  let s := if opWrites w.req.op then lineStored (w.pa / 128) w.req.h.plot old s else s
  let s := match if opWrites w.req.op then paSlot s w.pa else none with
    | some (g, k, i) => collPost g k i w.req.data s
    | none => s
  (r.2, s)

/-- The answer to an access an engine issued reaches its descriptor. -/
def engAnswer (status : Nat) (b : List Byte) (e : EngRef) (s : State) : State :=
  s.onThread e.core e.thread fun x => { x with
    incs := updFirst (fun i => i.seq == e.seq) (fun i => { i with
      pool := updFirst (fun l => l.ident == e.ident) (fun l => { l with ans := some (status, b) }) i.pool }) x.incs }

/-- The answer to a piece of a unit's own access. -/
def unitTakes (key off status : Nat) (b : List Byte) (s : State) : State :=
  s.onPool fun p => { p with
    pieces := updFirst (fun u => u.key == key && u.off == off) (fun u => { u with ans := some (status, b) }) p.pieces }

/-- Fail an accepted access: its requester is answered, or the descriptors or the unit that wait for it. -/
def failWait (w : PoolWait) (st : Nat) (s : State) : State :=
  match w.unit with
  | some (k, o) => unitTakes k o st [] (countRefusal st s)
  | none => if w.eng.isEmpty then failReq w.req none st 0 s else forAll w.eng (engAnswer st []) (countRefusal st s)

/-- Apply an accepted access and answer it. -/
def applyAccess (w : PoolWait) (s : State) : State :=
  let r := effectAccess w s
  match w.unit with
  | some (k, o) => unitTakes k o St.ok r.1 r.2
  | none => if w.eng.isEmpty then answer w.req none (okReply w.req r.1) r.2 else forAll w.eng (engAnswer St.ok r.1) r.2

/-- Apply an accepted access, fail it, or let it wait behind those that already do. -/
def attempt (filled : Option Nat) (w : PoolWait) (s : State) : State :=
  let s := meetWalk (w.pa / 128) s
  match obstacle filled w s with
  | .fail st => failWait w st s
  | .wait q => beginWait q (s.onPool fun p => { p with waiting := p.waiting ++ [{ w with what := q }] })
  | .none => applyAccess w s

/-- Try every waiting access again, in its order of arrival (R44). -/
def retryPool (filled : Option Nat) (s : State) : State :=
  let ws := s.pool.waiting
  forAll ws (attempt filled) (s.onPool fun p => { p with waiting := [] })

/-- Fail the waiting accesses that meet a test, with a status. -/
def failWaits (p : PoolWait → Bool) (st : Nat) (s : State) : State :=
  let ws := s.pool.waiting.filter p
  forAll ws (fun w => failWait w st)
    (s.onPool fun q => { q with waiting := q.waiting.filter fun w => !p w })

/-- Count a request that reaches a page (R138). -/
def countAccess (x i : Nat) (s : State) : State :=
  s.onPool fun p => { p with access := p.access.set (4096 * x + i) (min 65535 (p.access.getD (4096 * x + i) 0 + 1)) }

/-- The pool's record of an access it accepts at a physical address (R127, R134). -/
def acceptRec (r : Req) (pa : Nat) (view : Option Nat) (s : State) : PoolWait :=
  let cp := match framePage s (pa / frameBytes) with
    | none => (0, none)
    | some (x, i) =>
      let e := s.ext x
      (e.latest, if opWrites r.op && e.versioned && !e.written.contains i then some e.latest else none)
  { req := r, pa, what := .frameCopy 0, since := s.now, epoch := s.xlt.epoch, latest := cp.1, copy := cp.2, view }

/-- A request that the pool accepts is counted: at its page (R138), and as a hit or a miss of the chip cache (R122); a write changes the
digest regions of its extent (R299). -/
def accepted (r : Req) (pa : Nat) (s : State) : State :=
  let s := match framePage s (pa / frameBytes) with
    | none => s
    | some (x, i) => countAccess x i (if opWrites r.op then regionsTouched x s else s)
  chipLookup (pa / 128) r.h.plot s

/-! The units' own accesses (R44, R127): translated and checked once, and then like any other. -/

/-- The piece of a unit's operation at a place. -/
def State.piece (s : State) (key off : Nat) : Option UnitPiece := s.pool.pieces.find? fun u => u.key == key && u.off == off
/-- A piece is asked for in place of what was known of it. -/
def piecePut (u : UnitPiece) (s : State) : State :=
  s.onPool fun p => { p with pieces := (p.pieces.filter fun v => !(v.key == u.key && v.off == u.off)) ++ [u] }
/-- A unit's operation is over: its pieces go, and answers to what it still waits for reach nothing. -/
def unitDone (key : Nat) (s : State) : State :=
  s.onPool fun p => { p with
    pieces := p.pieces.filter fun u => u.key != key
    waiting := p.waiting.map fun w => if w.unit.any (fun q => q.1 == key) then { w with unit := none } else w }
/-- A request of a unit at the pool, whose answer is a piece of its operation. -/
def unitReq (s : State) (plot node op ctx off len opb : Nat) (data : List Byte) : Req :=
  { via := .unit, op, h := { plot, len, tag := 2 ^ 16, ctx, dst := nodeOf s 0xC0, src := node, opa := BitVec.ofNat 48 off, opb }, data }
/-- The pool accepts a piece of a unit's operation. -/
def unitAccess (key off : Nat) (r : Req) (pa : Nat) (view : Option Nat) (s : State) : State :=
  let s := piecePut { key, off } s
  if slotRefuses r pa s then unitTakes key off St.protection [] s
  else attempt none { acceptRec r pa view s with unit := some (key, off) } (accepted r pa s)

/-- The pool accepts a request at a physical address (R122, R138). -/
def acceptAccess (r : Req) (pa : Nat) (view : Option Nat) (s : State) : State :=
  if slotRefuses r pa s then failReq r none St.protection 0 s
  else attempt none (acceptRec r pa view s) (accepted r pa s)

/-- The 32 bytes of a status line (R131). -/
def statusLine (s : State) (x : Nat) : List Byte :=
  natLe 8 (s.ext x).latest ++
  natLe 4 (((s.ext x).versions.map fun v => 2 ^ ((v.num + 14) % 15)).sum) ++ List.replicate 20 0

/-- A request that has passed Table 4-1 and Table 5-5 reaches its place. -/
def poolReach (r : Req) (p : Place) (s : State) : State :=
  match p with
  | .status x off => answer r none (okReply r (slice (statusLine s x) off r.h.len)) s
  | .at pa view => acceptAccess r pa view s

/-! Versions (R132-R136). -/

/-- Whether a frame holds a copy of a version that is no longer live and that no waiting access reads (R135). -/
def staleCopy (s : State) (f : Nat) (u : FrameUse) : Bool :=
  match u with
  | .copy x _ v => !((s.ext x).versions.any fun w => w.num == v) && !(s.pool.waiting.any fun w => w.pa / frameBytes == f)
  | _ => false

/-- Free the copy frames of versions that are gone once no read of them is in flight (R135). -/
def sweepCopies (s : State) : State :=
  s.onPool fun p => { p with frames := p.frames.keep fun f u => !staleCopy s f u }

/-- Retire a live version (R135): its slot and openers go, each copy passes to the next older live version that has none of
the page, else it is freed; `cause`: 0 slot reuse, 1 copy pressure, and 2 for RETIRE (DESIGN CHOICE: Table 5-14 names the first two causes
of POOL_VERSION_FORCED and gives RETIRE none; log entry 52). -/
def retireVersion (x v cause : Nat) (s : State) : State :=
  match (s.ext x).versions.find? (fun w => w.num == v) with
  | none => s
  | some w =>
    let live := (s.ext x).versions.filter fun u => u.num != v
    let older := live.foldl (fun b u => if u.num < v then max b u.num else b) 0
    let s := s.onExt x fun e => { e with versions := live }
    let s := s.onPool fun p => { p with frames := p.frames.mapV fun _ u =>
      match u with
      | .copy y i n =>
        if y = x ∧ n = v ∧ older ≠ 0 ∧ !(p.frames.any fun kv => kv.2 == .copy x i older) then .copy y i older else u
      | _ => u }
    let s := sweepCopies s
    if w.openers.isEmpty then s
    else raise 0x6109 [x, v, w.openers.length, cause] (bump 0xC40407 1 s)

/-- A FREE frame of an assigned RESERVE extent of a plot in a tier that no queued migration is to take (R140): the lowest of the lowest
extent (DESIGN CHOICE: R134 names the tier and not the frame; log entry 52). -/
def freeReserve (s : State) (plot tier : Nat) : Option Nat :=
  (s.pool.exts.filter fun kv => kv.2.state == .assigned && kv.2.role == 1 && kv.2.plot == plot && extTier kv.1 == tier &&
      extLocal s kv.1 && !extLost s kv.1).findSome? fun kv =>
    ((List.range 4096).map (homeFrame kv.1)).find? fun f =>
      (s.pool.frames.find f).isNone && !(s.pool.migrations.any fun m => m.target == f)
/-- A frame for a copy of a page of extent `x` (R134): tier 3 for a tier 3 extent; else the working frame's tier, then any, in the order
1, 2, 3 (DESIGN CHOICE: R134 gives no order among the other tiers; log entry 52). -/
def copyTarget (s : State) (x i : Nat) : Option Nat :=
  let n := (s.ext x).plot
  if extTier x = 3 then freeReserve s n 3
  else
    let t := match extOf (workFrame s x i * frameBytes) with | some y => extTier y | none => 1
    (freeReserve s n t).orElse fun _ => (freeReserve s n 1).orElse fun _ => (freeReserve s n 2).orElse fun _ => freeReserve s n 3

/-- Retire versions of an extent, oldest first, those without openers before those with, until a copy frame is free or no
live version needs the copy (R136). -/
def copyPressure (x i : Nat) (upTo : Option Nat) : Nat → State → State
  | 0, s => s
  | n + 1, s =>
    if (copyFor s x i upTo).isNone || (copyTarget s x i).isSome then s
    else
      let oldest (l : List Version) : Option Nat := (l.map Version.num).min?
      let vs := (s.ext x).versions
      match (oldest (vs.filter fun v => v.openers.isEmpty)).orElse fun _ => oldest vs with
      | none => s
      | some v => copyPressure x i upTo n (retireVersion x v 1 s)

/-- Make the copy of a page that a write waits for (R134, R136), once the host has answered for the lines it holds (R163). -/
def makeCopy (x i : Nat) (upTo : Option Nat) (s : State) : State :=
  let s := copyPressure x i upTo 16 s
  match copyFor s x i upTo, copyTarget s x i with
  | some v, some f =>
    let src := workFrame s x i
    let q := frameSnooped src s
    if q.1 then q.2
    else
    let s := copyFrame src f q.2
    let s := s.onPool fun p => { p with
      frames := p.frames.set f (.copy x i v)
      waiting := p.waiting.map fun w =>
        if w.view.any (fun u => decide (u ≤ v)) && w.pa / frameBytes == src then { w with pa := f * frameBytes + w.pa % frameBytes } else w }
    bump 0xC40406 1 s
  | _, _ => s

/-! In flight (R127). -/

/-- The host requests that the pool has accepted for an extent and not answered. -/
def hostsAt (s : State) (x : Nat) : List HostWait := s.coh.hostWaits.filter fun w => w.since.isSome && paExt s (w.line * 128) == some x
/-- INFLIGHT of an extent: requests and PUBLISHes accepted and not yet answered (Table 5-4, R127). -/
def inflight (s : State) (x : Nat) : Nat :=
  (s.pool.waiting.filter fun w => paExt s w.pa == some x).length + (hostsAt s x).length + (s.ext x).publishing.length
/-- The host requests accepted for an extent fail with a status (R127, R365). -/
def hostsFail (x st : Nat) (s : State) : State :=
  forAll (hostsAt s x) (fun w => emit (.coh w.line st []))
    (s.onCoh fun c => { c with hostWaits := c.hostWaits.filter fun w => w.since.isNone || paExt s (w.line * 128) != some x })

/-- The version table of an extent as this hub hands it to the device (R133, R146). -/
def devTable (s : State) (x : Nat) : DevTable :=
  { latest := (s.ext x).latest, versions := (s.ext x).versions.map Version.num
    copies := s.pool.frames.filterMap fun kv => match kv.2 with
      | .copy y i v => if y = x then some (kv.1, i, v) else none
      | _ => none
    rot := s.key.extRot.getD x 0
    tags := (s.key.frameGen.filter fun kv => extOf (kv.1 * frameBytes) == some x) }

end Sys2Proof.Machine
end

