-- ==== Sys2Proof/Machine/Versions.lean ====
section
/-! DEFINITION. Version commands (R132-R135, Table 5-8, Table 5-9). -/

namespace Sys2Proof.Machine

/-- The plot of a local node (R24). -/
def nodePlot (s : State) (lep : Nat) : Option Nat :=
  if lep < 0x80 then (if portPlot s lep < 9 then some (portPlot s lep) else none)
  else if lep < 0xC0 then corePlot s (lep - 0x80)
  else if lep == 0xC1 || lep == 0xC2 then some 0
  else none

/-- While the walk of R166 runs, every line of an extent that the host held is converted before the extent is looked at. -/
def meetExt (x : Nat) (s : State) : State :=
  forAll ((s.coh.filter.filter fun kv => paExt s (kv.1 * 128) == some x).map Prod.fst) meetWalk s
/-- Whether an extent's data holds an ORPHANED line (R167): its home range, and the frames its pages lie in. -/
def extOrphaned (s : State) (x : Nat) : Bool :=
  s.coh.filter.any fun kv =>
    match kv.2.st with
    | .orphaned _ => paExt s (kv.1 * 128) == some x || extOf (kv.1 * 128) == some x
    | _ => false

/-- A new published version of an extent (R133): the version that still holds its slot is retired first. -/
def publish (src : VerSource) (x v : Nat) (s : State) : State :=
  let s := if 15 < v then retireVersion x (v - 15) 0 s else s
  s.onExt x fun e => { e with
    latest := v
    versions := e.versions ++ [{ num := v, openers := [] }]
    written := []
    publishing := e.publishing ++ [(src, v)] }

/-- A version command for a node of a plot (R132, Table 5-9), `named` when POOL_VERSION_CMD names the node: its status and the
state after it. A PUBLISH that answers OK has been accepted, and is acknowledged by PUBLISH_COMPLETE. -/
def versionCommand (src : VerSource) (named : Bool) (node plot op x v : Nat) (s : State) : Nat × State :=
  let s := if op = 3 then meetExt x s else s
  let e := s.ext x
  let owner := op == 3 || op == 4
  if op = 0 ∨ 4 < op then (St.state, s)
  else if !e.versioned then (St.state, s)
  else if e.state == .draining then (St.revoked, s)
  else
    match poolChecks s x (workFrame s x 0) plot (lepOf node) false named with
    | some st => (st, s)
    | none =>
      if owner && !named && lepOf node != e.owner then (St.protection, s)
      else if op = 1 then
        if e.versions.any fun w => w.num == v then
          (St.ok, s.onExt x fun e => { e with versions := e.versions.map fun w =>
            if w.num = v && !w.openers.contains node then { w with openers := w.openers ++ [node] } else w })
        else (St.versionGone, s)
      else if op = 2 then
        if v = 0 ∨ e.latest < v then (St.versionGone, s)
        else (St.ok, s.onExt x fun e => { e with versions := e.versions.map fun w =>
          if w.num = v then { w with openers := w.openers.filter fun n => n != node } else w })
      else if op = 3 then
        if v ≠ e.latest + 1 ∨ 2 ^ 48 ≤ v ∨ extOrphaned s x then (St.state, s)
        else (St.ok, publish src x v s)
      else if e.versions.any fun w => w.num == v then (St.ok, retireVersion x v 2 s)
      else (St.versionGone, s)

/-- Whether every write accepted before a PUBLISH of version v has been applied (R133). -/
def publishSettled (s : State) (x v : Nat) : Bool :=
  !(s.pool.waiting.any fun w => opWrites w.req.op && paExt s w.pa == some x && decide (w.latest < v))

/-- The outcome of a version command goes to its message's requester, or to POOL_VERSION_RESULT (R132). -/
def versionOutcome (src : VerSource) (status : Nat) (s : State) : State :=
  match src with
  | .msg via h => deliverReply via (ackOf { via, op := Op.msgSend, h } status 0) s
  | .reg _ => s.onPool fun p => { p with verStatus := status }

/-- Acknowledge the oldest PUBLISH of an extent whose earlier writes have all been applied (R133). -/
def publishAck (x : Nat) (s : State) : State :=
  match (s.ext x).publishing with
  | [] => s
  | (src, v) :: rest =>
    if publishSettled s x v then versionOutcome src St.ok (s.onExt x fun e => { e with publishing := rest }) else s

/-- A version command arrives with its source (R132). -/
def versionArrives (src : VerSource) (named : Bool) (node plot op x v : Nat) (s : State) : State :=
  let r := versionCommand src named node plot op x v s
  if op = 3 ∧ r.1 = St.ok then r.2 else versionOutcome src r.1 r.2

end Sys2Proof.Machine
end

