-- ==== Sys2Proof/Machine/Requests.lean ====
section
/-! DEFINITION. A request at the hub: the fields the hub writes (R29), the hub's own refusals in their order (R470), the signal
gate (R46, R264), the queues of the switch core (R62-R76, R80) and service at the hub's own nodes (R17, R21, R207, R254). -/

namespace Sys2Proof.Machine

/-! Ports as destinations (R15, R18, R39, R347). -/

/-- A port's WiringPlan entry (Table 13-11). -/
def wiring (s : State) (p : Nat) : List Byte := takePad 32 (s.dict.odBytes.getD (0x320000 + p + 1) [])
/-- KIND of a WiringPlan entry: 1 END_POINT, 2 HUB. -/
def wiringKind (s : State) (p : Nat) : Nat := fieldAt (wiring s p) 0 1 % 4
/-- FARHUB of a WiringPlan entry; an entry never written has the reset value. -/
def wiringHub (s : State) (p : Nat) : Nat :=
  if (s.dict.odBytes.find (0x320000 + p + 1)).isNone then 0xFFFF else fieldAt (wiring s p) 2 2
/-- Whether a port carries an end point (R39): not part of a bonded pair, and planned as one. -/
def carriesEndPoint (s : State) (p : Nat) : Bool := !bonded s p && wiringKind s p == 1
/-- Whether a port is an uplink, named by its even port when bonded (R15). -/
def isUplink (s : State) (p : Nat) : Bool := wiringKind s p == 2 && !oddOfBond s p

/-- The uplinks of a plot whose far hub, by the plan, is a hub (R20, R23, R43; log entry 9). -/
def uplinksTo (s : State) (plot hub : Nat) : List Nat :=
  (List.range 128).filter fun p => isUplink s p && portPlot s p == plot && wiringHub s p == hub
/-- The uplink of a pair of nodes: the one picked under the plan that is loaded, as long as the plan gives it toward the destination's
hub; else the one the hub picks now, if the plan reaches that hub (R20, R43, R442; log entry 9). -/
def uplinkFor (s : State) (plot src dst : Nat) : Option Nat :=
  match s.sw.pairs.find? fun y => y.plot == plot && y.src == src && y.dst == dst with
  | some y => if isUplink s y.port && wiringHub s y.port == hubOf dst then some y.port else none
  | none =>
    let l := uplinksTo s plot (hubOf dst)
    l[Config.uplinkChoice src dst l.length % l.length]?
/-- Keep the uplink picked for a pair, for as long as the plan is loaded (R43). -/
def pairPicked (plot src dst p : Nat) (s : State) : State :=
  if (s.sw.pairs.any fun y => y.plot == plot && y.src == src && y.dst == dst) || uplinkFor s plot src dst != some p then s
  else s.onSw fun w => { w with pairs := w.pairs ++ [{ plot, src, dst, port := p }] }

/-- Features that both ends of a port have (R349). -/
def features (s : State) (p : Nat) : Nat := fieldAt (s.port p).peer 32 8 % 64
/-- The reason of FAIL_MALFORMED for a feature the egress peer lacks (R349). -/
def lacksFeature (s : State) (p : Nat) (r : Req) : Option Nat :=
  if r.op = Op.writeMasked ∧ !bitOf (features s p) 0 then some 1
  else if (r.op = Op.atomSwap ∨ r.op = Op.atomCas) ∧ fmtType r.h = 6 ∧ !bitOf (features s p) 1 then some 2
  else if opReduce r.op ∧ fmtType r.h = 5 ∧ !bitOf (features s p) 2 then some 2
  else none

/-! Ingress (R29, R62, R66). -/

/-- SRC and PLOT as the hub writes them (R29). -/
def normalise (s : State) (r : Req) : Req :=
  match r.via with
  | .port p => if isUplink s p then r else { r with h := { r.h with src := nodeOf s p, plot := portPlot s p } }
  | .core c _ => { r with h := { r.h with src := nodeOf s (0x80 + c), plot := (corePlot s c).getD 15 } }
  | .host => { r with h := { r.h with src := nodeOf s 0xC1, plot := 0 } }
  | .mgmt => { r with h := { r.h with src := nodeOf s 0xC2, plot := 0 } }
  | .unit => { r with h := { r.h with src := nodeOf s 0xC0 } }

/-- The tile where a request for an egress enters (Table 3-1): its port's tile, or a headland tile, for node 0xC0, 0xC1 or 0xC2 that of the
egress column (DESIGN CHOICE, log entry 32: R63 gives the headland tile for the replies of these nodes and not for their requests). -/
def ingressTile (r : Req) (egress : Nat) : Nat :=
  match r.via with
  | .port p => p
  | .core c _ => 128 + c % 16
  | _ => 128 + egress % 16

/-- Add cells to a class of a credit count. -/
def Credits.add (c : Credits) (cls n : Nat) : Credits :=
  if cls = 0 then { c with mem := c.mem + n } else if cls = 1 then { c with sig := c.sig + n }
  else if cls = 2 then { c with msg := c.msg + n } else { c with red := c.red + n }
/-- Take cells of a class from a credit count. -/
def Credits.take (c : Credits) (cls n : Nat) : Credits :=
  if cls = 0 then { c with mem := c.mem - n } else if cls = 1 then { c with sig := c.sig - n }
  else if cls = 2 then { c with msg := c.msg - n } else { c with red := c.red - n }
/-- Cells of a class. -/
def Credits.of (c : Credits) (cls : Nat) : Nat :=
  if cls = 0 then c.mem else if cls = 1 then c.sig else if cls = 2 then c.msg else c.red

/-- A request's ingress cells are freed: its port returns their credits (R66). -/
def freeCells (r : Req) (s : State) : State :=
  match r.via with
  | .port p => s.onPort p fun x => { x with freed := x.freed.add (opClass r.op) (cellsOf r.data) }
  | _ => s

/-! Flows (R71, R80). -/

/-- Whether a flow is (ingress, egress, class). -/
def Flow.is (f : Flow) (ingress egress cls : Nat) : Bool := f.ingress == ingress && f.egress == egress && f.cls == cls
/-- A flow, if it holds a frame or is in spill. -/
def State.flow (s : State) (ingress egress cls : Nat) : Option Flow := s.sw.flows.find? fun f => f.is ingress egress cls
/-- Put a flow in place of what it was; one that holds nothing and is not in spill is no flow. -/
def setFlow (f : Flow) (s : State) : State :=
  let same (g : Flow) : Bool := g.is f.ingress f.egress f.cls
  let old := s.sw.flows
  let flows :=
    if f.queue.isEmpty && f.spill.isEmpty && !f.spilled then old.filter fun g => !same g
    else if old.any same then updFirst same (fun _ => f) old
    else old ++ [f]
  s.onSw fun w => { w with flows }

/-- Cells of a plot in its spill share (R77). -/
def spillUsed (s : State) (plot : Nat) : Nat :=
  (s.sw.flows.map fun f => ((f.spill.filter fun x => !x.onChip && x.req.h.plot == plot).map Frame.cells).sum).sum
/-- Cells of plot n's spill share: sixty-fourths of the spill area, in cells of 256 bytes (R77), as far as the SERVICE extents the
plot holds beside its staging reach (R313). -/
def spillShareCells (s : State) (n : Nat) : Nat :=
  min (cfg 0x404001 20 s * 1000000000 * cfg (0x404100 + n + 1) (if n = 0 then 8 else 7) s / 64 / 256)
    (((serviceExts s n).length - (stagingExts s n).length) * 2 ^ 20)
/-- Whether every HBM stack interface is powered and none is lost (Table 16-5, R445): each channel set lies on all eight stacks
(R118). -/
def stacksOn (s : State) : Bool := s.pool.lostStacks.isEmpty && (List.range 8).all fun i => domainOn s (26 + i)
/-- Whether spill is possible (R79, R82): enabled, with central services and the plot's stack interfaces powered. -/
def spillPossible (s : State) : Bool := cfg 0x404002 1 s == 1 && csOn s && stacksOn s

/-- Whether a frame of a spilled flow can be written to the spill area now (R77, R82). -/
def spillTakes (s : State) (x : Frame) : Bool :=
  spillPossible s && decide (spillUsed s x.req.h.plot + x.cells ≤ spillShareCells s x.req.h.plot)
/-- A frame as it lies in the spill area, under its plot's memory key (R77). -/
def spilledFrame (s : State) (x : Frame) : Frame := { x with onChip := false, rot := (s.plot x.req.h.plot).rot, reserve := false }
/-- Count a frame written to spill at an ingress. -/
def countSpilled (ingress : Nat) (x : Frame) (s : State) : State :=
  let s := bump 0xC40202 x.cells s
  if ingress < 128 then bump (0xC41500 + ingress + 1) x.cells s else s

/-- Append a frame to its flow (R71): on chip, or to the spill queue of a flow in spill, whose ingress cells are then freed (R80). A
spilled flow that cannot take it, because spill has become impossible (R82) or its plot's share is full, leaves the frame in its
ingress cells behind the spilled ones (DESIGN CHOICE for a full share, log entry 32: the manual is silent). -/
def enqueue (ingress egress : Nat) (x : Frame) (s : State) : State :=
  let cls := opClass x.req.op
  let f := (s.flow ingress egress cls).getD { ingress, egress, cls }
  if !f.spilled then setFlow { f with queue := f.queue ++ [x] } s
  else if spillTakes s x then
    let s := countSpilled ingress x (setFlow { f with spill := f.spill ++ [spilledFrame s x] } s)
    if x.gather.isNone then freeCells x.req s else s
  else setFlow { f with spill := f.spill ++ [x] } s

/-- Whether some frame of a sowing still holds its ingress cells. -/
def sowHeld (s : State) (ident : Nat) : Bool :=
  (s.sw.flows.any fun f =>
    f.queue.any (fun x => x.gather == some ident) || f.spill.any (fun x => x.gather == some ident && x.onChip)) ||
  s.sw.heldSigs.any fun x => x.gather == some ident

/-- A frame has left its ingress tile: its cells are freed, a sowing's when its last copy has left (R75). -/
def leftIngress (x : Frame) (s : State) : State :=
  if !x.onChip then s
  else
    match x.gather with
    | none => freeCells x.req s
    | some g => if sowHeld s g then s else freeCells x.req s

/-! Service at the hub's own nodes. -/

/-- The codes of Table 2-11. -/
def statusCodes : List Nat :=
  [St.ok, St.portLost, St.unreachable, St.timeout, St.scope, St.malformed, St.translation, St.protection, St.withdrawn, St.revoked,
    St.dataLost, St.orphaned, St.versionGone, St.plotRemoved, St.keyRetired, St.mismatch, St.aborted, St.late, St.coreReset, St.state,
    St.loadRefused, St.check, St.internal]
/-- A free status, one of Table 2-11 (R51): the manual gives a request of this kind no meaning at this node (log entry 7). -/
def freeStatus (r : Req) (s : State) : State :=
  deliverReply r.via (ackOf r (statusCodes.getD (s.draw.toNat % statusCodes.length) St.ok) 0) s.drawn

/-- The bad scratchpad words, as 2^18 x core + word, that a byte range of a core touches (Table 11-1). -/
def badIn (s : State) (c off n : Nat) : Bool :=
  s.chk.badWords.any fun b => b / 2 ^ 18 == c && decide (off / 8 ≤ b % 2 ^ 18) && decide (b % 2 ^ 18 ≤ (off + n - 1) / 8)
/-- Whether an access reads what it covers: all but a WRITE, and a WRITE_MASKED. -/
def opReads (op : Nat) : Bool := op != 0x20 && op != 0x21
/-- Key of a scratchpad byte. -/
abbrev spadKey (c off : Nat) : Nat := 2 ^ 21 * c + off
/-- Store bytes in a core's scratchpad; a bad word written in full is good again (Table 11-1). -/
def spadStore (c off : Nat) (data : List Byte) (s : State) : State :=
  { s with
    spad := Mem.write s.spad (spadKey c off) data
    chk := { s.chk with badWords := s.chk.badWords.filter fun b =>
      !(b / 2 ^ 18 == c && decide (off ≤ b % 2 ^ 18 * 8) && decide (b % 2 ^ 18 * 8 + 8 ≤ off + data.length)) } }
/-- The bytes of a core's scratchpad. -/
def spadRead (s : State) (c off n : Nat) : List Byte := Mem.read s.spad (spadKey c off) n

/-- Whether an offset lies in a core's code region (R201). -/
def inCode (s : State) (c off : Nat) : Bool :=
  match (s.core c).prog with
  | none => false
  | some p => decide (2 ^ 21 ≤ off + 65536 * p.codePages)

/-- Runs of enabled bytes of a WRITE_MASKED: place and byte. -/
def maskRuns (data : List Byte) : List (Nat × Byte) :=
  ((List.range 128).filter fun i => bitOf (fieldAt data 0 16) i).map fun i => (i, data.getD (16 + i) 0)

/-- A request that has passed the checks reaches a core's scratchpad (R36, R37, R201, R254, Table 11-1). -/
def spadReach (c off : Nat) (r : Req) (s : State) : State :=
  if inCode s c off then failReq r none St.protection 0 s
  else if opReads r.op && badIn s c off (spanOf r.op r.h) then failReq r none St.check 0 s
  else
    let x := accessBytes r.op r.h r.data (spadRead s c off (spanOf r.op r.h))
    let s := if !opWrites r.op then s
      else if r.op = Op.writeMasked then forAll (joinRuns (maskRuns r.data)) (fun p => spadStore c (off + p.1) p.2) s
      else spadStore c off x.1 s
    answer r none (okReply r x.2) s

/-- What the memory is asked for by a request (Table 4-1). -/
def askOf (r : Req) (core dest : Option Nat) : Ask :=
  { core, engine := false, ctx := r.h.ctx, off := r.h.opa.toNat, plot := r.h.plot, node := r.h.src, wr := opWrites r.op, dest }

/-- A request whose translation waits (R115, R163, R278). -/
def stallReq (r : Req) (what : Option WaitFor) (s : State) : State :=
  s.onXlt fun x => { x with stalled := x.stalled ++ [(r, x.epoch, what)] }
/-- Whether an earlier request of the source to the same line waits for its translation (R44). -/
def stallAhead (s : State) (r : Req) : Bool := s.xlt.stalled.any fun q =>
  q.1.h.src == r.h.src && q.1.h.dst == r.h.dst && q.1.h.ctx == r.h.ctx && q.1.h.opa.toNat / 128 == r.h.opa.toNat / 128

/-- A memory request at node 0xC0, 0xC1 or 0xC2, or at a core's window (R17, R21, R24). The context's test comes before the plot's
(Table 4-1, checks 1 and 2). -/
def memReach (lep : Nat) (r : Req) (s : State) : State :=
  if stallAhead s r then stallReq r none s else
  match plotBar s r.h.plot with
  | some st => failReq r none st 0 s
  | none =>
  if 0x80 ≤ lep ∧ lep < 0xC0 then
    let c := lep - 0x80
    if (s.core c).resetting then failReq r none St.coreReset 0 s
    else if !ctxLive s r.h.ctx then failReq r none St.translation 0 s
    else if corePlot s c != some r.h.plot then failReq r none St.protection 0 s
    else
      let q := memCheck (askOf r (some c) (some c)) s
      match q.1 with
      | .spad off => spadReach c off r q.2
      | .fail st => failReq r none st 0 q.2
      | .stall l => stallReq r l q.2
      | _ => failReq r none St.protection 0 q.2
  else if !ctxLive s r.h.ctx then failReq r none St.translation 0 s
  else if lep ≠ 0xC0 ∧ r.h.plot ≠ 0 then failReq r none St.protection 0 s
  else
    let q := memCheck (askOf r none none) s
    match q.1 with
    | .pool p => poolReach r p q.2
    | .fail st => failReq r none st 0 q.2
    | .stall l => stallReq r l q.2
    | _ => failReq r none St.protection 0 q.2

/-- Whether what a stalled translation waits for has come. -/
def stallOver (s : State) (what : Option WaitFor) : Bool :=
  match what with
  | none => !s.xlt.wrapping
  | some (.snoop l _) => !(s.coh.snoops.any fun q => q.1 == l)
  | some (.block b) => (s.pool.fills.find b).isNone
  | some (.frameCopy f) => (s.pool.retiring.find f).isNone
  | some (.copyPage x i) => !copying s x i
/-- The requests whose translation waited go on, in order; a walk that waited and finds the epoch advanced has begun again (R101). -/
def stallMoves (s : State) : State :=
  if s.xlt.stalled.isEmpty then s
  else
    let l := s.xlt.stalled
    forAll l (fun q s =>
      if stallOver s q.2.2 && !stallAhead s q.1 then
        memReach (lepOf q.1.h.dst) q.1 (if q.2.2.isSome && q.2.1 != s.xlt.epoch then bump 0xC40303 1 s else s)
      else s.onXlt fun x => { x with stalled := x.stalled ++ [q] }) (s.onXlt fun x => { x with stalled := [] })

/-- Slot states of a core's queue (R207). -/
def slotState (s : State) (c q i : Nat) : Option SlotSt := (s.core c).slots.find (1024 * q + i)
/-- The lowest FREE slot of a queue. -/
def freeSlot (s : State) (c : Nat) (d : QueueDecl) : Option Nat :=
  (List.range d.slots).find? fun i => (slotState s c d.num i).isNone
/-- The 16-byte header of a receive slot (Table 8-3). -/
def slotHeader (r : Req) : List Byte := natLe 4 (r.h.src + 65536 * r.h.len) ++ natLe 4 0 ++ natLe 8 r.h.opa.toNat

/-- A message refused by a core (R207). -/
def coreRefuses (r : Req) (st : Nat) (s : State) : State := deliverReply r.via (ackOf r st 0) (bump 0xC40805 1 s)
/-- A message at a core (R207). -/
def coreMessage (c : Nat) (r : Req) (s : State) : State :=
  let k := s.core c
  if k.resetting then deliverReply r.via (ackOf r St.coreReset 0) s
  else if corePlot s c != some r.h.plot then deliverReply r.via (ackOf r St.protection 0) s
  else
    match k.prog with
    | none => coreRefuses r St.state s
    | some p =>
      match p.queues.find? fun d => d.num == queueOf r.h with
      | none => coreRefuses r St.state s
      | some d =>
        if k.st == .empty || k.st == .out || decide (d.slotBytes - 16 < r.h.len) then coreRefuses r St.state s
        else
          match freeSlot s c d with
          | none => coreRefuses r St.state s
          | some i =>
            let s := spadStore c (d.off + i * d.slotBytes) (slotHeader r ++ r.data) s
            let s := s.onCore c fun x => { x with
              slots := x.slots.set (1024 * d.num + i) (.filled x.nextFill), nextFill := x.nextFill + 1 }
            deliverReply r.via (ackOf r St.ok 0) s

/-- A message at node 0xC0 (R132, R238, R256): QUEUE 1 version commands, 2 collective exchange, 3 watch commands. A payload of the
wrong length, and a reserved KIND of an exchange message (R10, Table 9-8), are refused with FAIL_MALFORMED, reason 0x03 (DESIGN CHOICE
for the reserved KIND, log entry 53: chapter 9 names no status for it). -/
def poolMessage (r : Req) (s : State) : State :=
  let say (st : Nat) : State → State := deliverReply r.via (ackOf r st 0)
  let badPayload (s : State) : State := deliverReply r.via (ackOf r St.malformed (3 + 256 * hubId s)) (bump 0xC40102 1 s)
  if queueOf r.h = 1 then
    if r.h.len ≠ 16 then badPayload s
    else if hubOf r.h.src ≠ hubId s then say St.protection s
    else
      versionArrives (.msg r.via r.h) false r.h.src r.h.plot (fieldAt r.data 0 1 % 16) (fieldAt r.data 2 2)
        (fieldAt r.data 8 6) s
  else if queueOf r.h = 2 then
    if fieldAt r.data 0 1 % 16 = 0 ∨ 7 < fieldAt r.data 0 1 % 16 then badPayload s
    else say St.ok (xchIntake (hubOf r.h.src) r.data s)
  else if queueOf r.h = 3 then
    if r.h.len ≠ 32 then badPayload s
    else if hubOf r.h.src ≠ hubId s then say St.protection s
    else
      let q := watchCommand false r.h.src r.h.plot r.data s
      deliverReply r.via (ackOf r q.1 (nodeDetail s q.1)) (countRefusal q.1 q.2)
  else freeStatus r s

/-- A request is served by one of the hub's own nodes. -/
def serveHere (lep : Nat) (r : Req) (s : State) : State :=
  let coll (q : Nat × State) : State := deliverReply r.via (ackOf r q.1 (nodeDetail s q.1)) (countRefusal q.1 q.2)
  if r.op = Op.redColl then (if lep = 0xC0 then coll (redColl r.h r.data s) else freeStatus r s)
  else if r.op = Op.collNotice then (if lep = 0xC0 then coll (throttle r.h r.data s) else freeStatus r s)
  else if r.op = Op.msgSend then
    if lep = 0xC0 then poolMessage r s
    else if lep < 0xC0 then coreMessage (lep - 0x80) r s
    else if lep = 0xC2 ∧ queueOf r.h = 4 ∧ r.h.plot = 0 then
      deliverReply r.via (ackOf r St.ok 0) (timeIntake r.h.src r.data s)
    else if r.h.plot ≠ 0 then deliverReply r.via (ackOf r St.protection 0) s
    else freeStatus r s
  else if opClass r.op = 1 ∧ lep = 0xC0 then coll (sigApply r.op r.h r.data s)
  else memReach lep r s

/-! The hub's own refusals (R470) and where a request goes. -/

/-- What becomes of a request at the hub. -/
inductive Target where
  /-- Refused: status and DETAIL. -/
  | refuse (st detail : Nat)
  /-- Served by the hub's own node. -/
  | here (lep : Nat)
  /-- Forwarded out of a port. -/
  | egress (p : Nat)
  /-- Copied to the qualifying ports. -/
  | sow
  deriving DecidableEq, Repr

/-- Whether a port admits requests (R331): ACTIVE or DEGRADED. -/
def admits (s : State) (via : Ingress) : Bool :=
  match via with
  | .port p => portServes s p && !oddOfBond s p
  | _ => true
/-- Whether a request came in over an uplink. -/
def overUplink (s : State) (r : Req) : Bool :=
  match r.via with
  | .port p => isUplink s p
  | _ => false
/-- Whether a request came in over an uplink of another plot (R29). -/
def alienUplink (s : State) (r : Req) : Bool :=
  match r.via with
  | .port u => isUplink s u && portPlot s u != r.h.plot
  | _ => false
/-- Whether the power that a local node needs is on, for a request from its ingress (R50, R89); node 0xC2 answers time messages in
the island (R433). -/
def nodeOn (s : State) (r : Req) (lep : Nat) : Bool :=
  if lep < 0xC0 then
    coreOn s (lep - 0x80) && match r.via with
      | .port _ => domainOn s (16 + (lep - 0x80) % 16 / 8)
      | _ => true
  else csOn s || (lep == 0xC2 && r.op == Op.msgSend)

/-- Whether a request from inside the hub can enter the switch core (R89): a core issues through its headland tile, whose half must be
on; the hub's other nodes are attached at every headland tile. -/
def issueOn (s : State) (r : Req) : Bool :=
  match r.via with
  | .core c _ => domainOn s (16 + c % 16 / 8)
  | _ => true

/-- The hub's refusals in the order of R470, and else where the request goes. `r` has been normalised (R29). A core whose headland tile
is off gets FAIL_STATE for a request out of a port (DESIGN CHOICE, log entry 32: R89 names no status for it). -/
def target (s : State) (r : Req) : Target :=
  let h := r.h
  let dhub := hubOf h.dst
  let lep := lepOf h.dst
  let mine := dhub == hubId s
  if (s.plot h.plot).st == .removing then .refuse St.plotRemoved 0
  else if (s.plot h.plot).st == .hedged || !admits s r.via then .refuse St.state 0
  else
    match malformed r.op h r.data with
    | some why => .refuse St.malformed (why + 256 * hubId s)
    | none =>
      if h.sow ≠ 0 then
        if !mine || overUplink s r then .refuse St.scope (hubDetail s 0xFF)
        else if !issueOn s r then .refuse St.state 0
        else .sow
      else if opClass r.op ≠ 2 ∧ (!mine || overUplink s r) then .refuse St.scope (hubDetail s 0xFF)
      else if 0xC3 ≤ lep then .refuse St.unreachable (hubDetail s 0xFF)
      else if !mine then
        match (if r.via = .mgmt ∧ queueOf h = 4 ∧ fieldAt r.data 0 4 % 16 = 1 then
              (if isUplink s (upstreamPort s) && wiringHub s (upstreamPort s) == dhub then some (upstreamPort s) else none)
            else uplinkFor s h.plot h.src h.dst) with
        | none => .refuse St.unreachable (hubDetail s 0xFF)
        | some p =>
          if !portServes s p then .refuse St.unreachable (hubDetail s p)
          else if !issueOn s r then .refuse St.state 0
          else if alienUplink s r || portPlot s p != h.plot then .refuse St.protection 0
          else .egress p
      else if lep < 0x80 then
        if !carriesEndPoint s lep || !portServes s lep then .refuse St.unreachable (hubDetail s lep)
        else
          match lacksFeature s lep r with
          | some why => .refuse St.malformed (why + 256 * hubId s)
          | none =>
            if !issueOn s r then .refuse St.state 0
            else if alienUplink s r || portPlot s lep != h.plot then .refuse St.protection 0
            else .egress lep
      else if !nodeOn s r lep then .refuse St.state 0
      else if alienUplink s r then .refuse St.protection 0
      else .here lep

/-! Waiting at the head of an ingress (R42, R76, R264). -/

/-- The ports a sowing is delivered to (R39). -/
def sowPorts (s : State) (r : Req) : List Nat :=
  ((List.range 128).filter fun p => if r.h.sow = 1 then p / 16 == r.h.sowix else p % 16 == r.h.sowix).filter fun p =>
    carriesEndPoint s p && portPlot s p == r.h.plot && portServes s p

/-- The headland tiles whose switch-core half is on (R89). -/
def headlandOn (s : State) : List Nat := (List.range 16).filter fun c => domainOn s (16 + c / 8)
/-- The tile that holds a sowing's gather record (R74, R76): its port's or core's tile; for the hub's other nodes the headland tile of
the column SOWIX for a column sowing, and for a row sowing a powered one the model leaves free (log entry 32: the manual does not say
which headland tile it issues from; its example names tile 3 for row 2). -/
def sowTile (s : State) (r : Req) : Nat :=
  if r.h.sow = 1 then
    ingressTile r ((headlandOn s).getD (Config.sowColumn s.sw.nextGather % (headlandOn s).length) 0)
  else ingressTile r (r.h.sowix % 16)
/-- The tile of a gather record. -/
def gatherTile (s : State) (ident : Nat) : Nat := ((s.sw.gathers.find? fun g => g.ident == ident).map Gather.tile).getD 0
/-- The tile at whose head a request waits: that of its ingress, one for all egresses of an internal node. -/
def waitTile (r : Req) : Nat := ingressTile r 0

/-- The egresses a request takes: its port, its node, or the ports of a sowing. -/
def egressesOf (s : State) (r : Req) : List Nat :=
  match target s r with
  | .egress p => [p]
  | .here lep => [256 + lep]
  | .sow => sowPorts s r
  | .refuse _ _ => []
/-- Whether two requests come in at one ingress and would share an egress: the later one then waits behind the earlier (R42). -/
def sharesWay (s : State) (a b : Req) : Bool :=
  waitTile a == waitTile b && (egressesOf s a).any fun p => (egressesOf s b).contains p
/-- Whether an earlier request of its ingress and class waits for an egress the request takes too (R42, R44, R45, R76). -/
def blocked (s : State) (r : Req) : Bool :=
  match s.flow (waitTile r) 128 (opClass r.op) with
  | none => false
  | some f => f.queue.any fun x => sharesWay s x.req r

/-! The signal gate (R46, R264, R265). -/

/-- Whether a request reaches a node: it names it, or its sowing copies it there. -/
def reachesNode (s : State) (r : Req) (dst : Nat) : Bool :=
  if r.h.sow = 0 then r.h.dst == dst else (sowPorts s r).any fun p => nodeOf s p == dst
/-- Whether a modifying MEM request of a pair waits at the head of its ingress, not yet counted at the gate. -/
def gateAhead (s : State) (src dst : Nat) : Bool :=
  s.sw.flows.any fun f => f.egress == 128 && f.queue.any fun x => opGated x.req.op && x.req.h.src == src && reachesNode s x.req dst
/-- Whether a SIG request to a destination is held: unanswered modifying requests, or an earlier held one of its pair. -/
def sigHeld (s : State) (r : Req) : Bool :=
  decide (gateOpen s r.h.src r.h.dst ≠ 0) || gateAhead s r.h.src r.h.dst ||
    s.sw.heldSigs.any fun x => x.req.h.src == r.h.src && x.req.h.dst == r.h.dst
/-- Hold a SIG request at the gate; one that the source's shared entry holds is counted (R264). -/
def holdSig (r : Req) (gather : Option Nat) (s : State) : State :=
  let s := bump 0xC40104 1 (s.onSw fun w => { w with heldSigs := w.heldSigs ++ [{ req := r, gather }] })
  if gateHas s r.h.src r.h.dst || engWrites s r.h.src r.h.dst != 0 || s.sw.gateShared.getD r.h.src 0 == 0 then s else bump 0xC40A06 1 s
/-- Whether a MEM request must wait (R264): with it, or with each copy of its sowing, a count of its source, an entry's or the shared one,
would pass 65,535. -/
def gateFull (s : State) (r : Req) : Bool :=
  let n := if r.h.sow = 0 then 1 else max 1 (sowPorts s r).length
  decide (opClass r.op = 0) && gated r &&
    ((s.sw.gate.any fun g => g.src == r.h.src && decide (65535 < g.count + n)) ||
      decide (65535 < s.sw.gateShared.getD r.h.src 0 + n))

/-- Count a modifying MEM request at the gate (R46, R264). -/
def gateTaken (r : Req) (s : State) : State :=
  if opGated r.op && gated r then gateCount r.h.src r.h.dst s else s

/-! Headland buffers and the sowing reserve (R65, R66, R70, R75). -/

/-- Cells that frames hold at an ingress: a sowing's once, however many copies wait (R75). -/
def heldCells (l : List Frame) : Nat :=
  ((l.filter fun x => x.gather.isNone).map Frame.cells).sum +
    ((l.filterMap Frame.gather).eraseDups.map fun g => ((l.find? fun x => x.gather == some g).map Frame.cells).getD 0).sum
/-- Frames of a flow that hold cells of its ingress. -/
def Flow.onChip (f : Flow) : List Frame := f.queue ++ f.spill.filter Frame.onChip
/-- The port tile a held SIG request holds its cells in (R265); an internal node keeps a request that waits at its issue point. -/
def heldTile (x : HeldSig) : Option Nat :=
  match x.req.via with
  | .port p => some p
  | _ => none
/-- A held SIG request as the frame it is. -/
def heldFrame (x : HeldSig) : Frame := { req := x.req, cells := cellsOf x.req.data, gather := x.gather }
/-- The frames that hold cells at an ingress tile: queued on chip, or of a port held at the gate. What waits at the issue point of an
internal node has not entered the headland yet. -/
def tileFrames (s : State) (tile : Nat) : List Frame :=
  ((s.sw.flows.filter fun f => f.ingress == tile && (decide (tile < 128) || f.egress != 128)).flatMap Flow.onChip) ++
    ((s.sw.heldSigs.filter fun x => heldTile x == some tile).map heldFrame)
/-- Whether a headland issue buffer of 512 cells has room for a frame within its plot's quota (R65, R66, R70). -/
def issueRoom (s : State) (tile : Nat) (x : Frame) : Bool :=
  decide (heldCells (tileFrames s tile ++ [x]) ≤ 512) && decide (heldCells ((tileFrames s tile).filter (fun y => y.req.h.plot == x.req.h.plot) ++ [x]) ≤ serviceQuota s x.req.h.plot)

/-- Whether a column or row number lies between two. -/
def amid (a b i : Nat) : Bool := decide (min a b ≤ i) && decide (i ≤ max a b)
/-- The tiles a sowing's copy passes through (R74): a column sowing runs along the ingress row, then the column; a row sowing along the
ingress column, then the row. -/
def sowPath (tile : Nat) (r : Req) (p : Nat) : List Nat :=
  (List.range 144).filter fun t =>
    if r.h.sow = 2 then
      (t / 16 == tile / 16 && amid (tile % 16) (p % 16) (t % 16)) || (t % 16 == p % 16 && amid (tile / 16) (p / 16) (t / 16))
    else
      (t % 16 == tile % 16 && amid (tile / 16) (p / 16) (t / 16)) || (t / 16 == p / 16 && amid (tile % 16) (p % 16) (t % 16))
/-- Frames that hold cells of the sowing reserve in a tile (Table 3-2, R75). -/
def reserveFrames (s : State) (t : Nat) : List Frame :=
  s.sw.flows.flatMap fun f => f.onChip.filter fun x => x.reserve && (sowPath f.ingress x.req f.egress).contains t
/-- Cells of the sowing reserve in use in a tile: the frame of a sowing crosses once, whatever the number of copies. -/
def sowReserveUsed (s : State) (t : Nat) : Nat := heldCells (reserveFrames s t)
/-- Whether the reserve of every tile on a copy's way has cells for it, beside those its sowing holds there already. -/
def sowReserveRoom (s : State) (tile p : Nat) (x : Frame) : Bool :=
  (sowPath tile x.req p).all fun t => decide (heldCells (reserveFrames s t ++ [x]) ≤ 32)

/-- Whether an internal node's earlier frame of the same egress and class is still in another headland tile: a later one keeps behind it
(R42: the ingress of a request issued inside the hub is its node). -/
def nodeAhead (s : State) (tile p : Nat) (x : Frame) : Bool := s.sw.flows.any fun f =>
  decide (128 ≤ f.ingress) && f.ingress != tile && f.egress == p && f.cls == opClass x.req.op &&
    (f.queue ++ f.spill).any fun y => y.req.h.src == x.req.h.src
/-- Whether a kept request is to enter its issue buffer before another: they share a tile and a plot, or a node, an egress and a class. -/
def keptBefore (k x : KeptReq) : Bool :=
  (k.tile == x.tile && k.frame.req.h.plot == x.frame.req.h.plot) ||
    (k.egress == x.egress && opClass k.frame.req.op == opClass x.frame.req.op && k.frame.req.h.src == x.frame.req.h.src)

/-- A frame as it enters a flow: a copy of a sowing takes cells of the reserve where they are free (R75). -/
def withReserve (s : State) (tile p : Nat) (x : Frame) : Frame := { x with reserve := x.gather.isSome && sowReserveRoom s tile p x }
/-- Put a request into the flow of its egress, with its gather record when it is a copy of a sowing, which takes cells of the reserve
where they are free (R71, R75, R76); an internal node keeps what its headland issue buffer has no room for, and what would overtake an
earlier frame of its own (R42, R66, R70). -/
def toFlow (p : Nat) (r : Req) (gather : Option Nat) (tile : Nat) (s : State) : State :=
  let x : Frame := { req := r, cells := cellsOf r.data, gather }
  let k : KeptReq := { tile, egress := p, frame := x }
  if decide (tile < 128) || (issueRoom s tile x && !nodeAhead s tile p x && !(s.sw.issueKept.any fun y => keptBefore y k)) then
    enqueue tile p (withReserve s tile p x) s
  else s.onSw fun w => { w with issueKept := w.issueKept ++ [k] }
/-- The first kept request that can enter its issue buffer now, none that goes before it being kept. -/
def keptNext (s : State) : List KeptReq → List KeptReq → Option KeptReq
  | _, [] => none
  | before, k :: rest =>
    if issueRoom s k.tile k.frame && !nodeAhead s k.tile k.egress k.frame && !(before.any fun y => keptBefore y k) then some k
    else keptNext s (before ++ [k]) rest
/-- The kept requests that their issue buffers have room for now enter it, in order (R42, R66, R70). -/
def issueMoves : Nat → State → State
  | 0, s => s
  | n + 1, s =>
    match keptNext s [] s.sw.issueKept with
    | none => s
    | some k => issueMoves n (enqueue k.tile k.egress (withReserve s k.tile k.egress k.frame) (s.onSw fun w => { w with issueKept := w.issueKept.erase k }))

/-- The headland tile where a request from a port enters toward a node of the hub (Table 3-1); none: it crosses no tile. -/
def entryTile (r : Req) (lep : Nat) : Option Nat :=
  match r.via with
  | .port p => some (if 0x80 ≤ lep ∧ lep < 0xC0 then 128 + lep % 16 else 128 + p % 16)
  | _ => none
/-- Frames in a headland tile's entry buffer. -/
def State.entryAt (s : State) (tile : Nat) : List Frame := s.sw.entry.getD tile []
/-- Cells of an entry buffer that a plot holds. -/
def entryUsed (s : State) (tile plot : Nat) : Nat := (((s.entryAt tile).filter fun x => x.req.h.plot == plot).map Frame.cells).sum
/-- Whether an entry buffer of 512 cells has room for a request within its plot's quota (R66, R70). -/
def entryRoom (s : State) (tile : Nat) (r : Req) : Bool :=
  decide (entryUsed s tile r.h.plot + cellsOf r.data ≤ serviceQuota s r.h.plot) &&
    decide (((s.entryAt tile).map Frame.cells).sum + cellsOf r.data ≤ 512)
/-- Whether the node takes a request now: the pool controller holds at most 65,536 operations (Table 0-1). -/
def nodeTakes (s : State) (r : Req) : Bool :=
  !(decide (0xC0 ≤ lepOf r.h.dst) && (opClass r.op == 0 || opReduce r.op)) || decide (s.pool.waiting.length < 65536)
/-- A request enters a headland entry buffer; its node takes it at once when it can and nothing of the request's class and node waits
there before it. -/
def enterNode (tile lep : Nat) (r : Req) (s : State) : State :=
  if nodeTakes s r && !((s.entryAt tile).any fun x => x.req.h.dst == r.h.dst && opClass x.req.op == opClass r.op) then serveHere lep r s
  else s.onSw fun w => { w with
    entry := w.entry.set tile (w.entry.getD tile [] ++ [{ req := r, cells := cellsOf r.data, gather := none, onChip := false }]) }
/-- The entry buffers' frames that their nodes can take now are served, oldest first. -/
def entryMoves : Nat → State → State
  | 0, s => s
  | n + 1, s =>
    match s.sw.entry.findSome? fun kv => (kv.2.find? fun x => nodeTakes s x.req).map fun x => (kv.1, x) with
    | none => s
    | some (tile, x) =>
      let l := (s.entryAt tile).erase x
      let s := s.onSw fun w => { w with entry := if l.isEmpty then w.entry.erase tile else w.entry.set tile l }
      entryMoves n (match plotBar s x.req.h.plot with
        | some st => failReq x.req none st 0 s
        | none => serveHere (lepOf x.req.h.dst) x.req s)

/-- Every frame that waits in the switch core, but for those held at the gate: in flows, in spill, in headland entries, and kept by the
internal nodes that issue them. -/
def queuedFrames (s : State) : List Frame :=
  (s.sw.flows.flatMap fun f => f.queue ++ f.spill) ++ (s.sw.entry.flatMap fun kv => kv.2) ++ s.sw.issueKept.map KeptReq.frame
/-- The frames that wait at the head of their ingress, not counted by the gate yet (R42, R76, R264). -/
def headFrames (s : State) : List Frame := (s.sw.flows.filter fun f => f.egress == 128).flatMap fun f => f.queue ++ f.spill
/-- The frames that the gate has let in: in flows to an egress or a node, in spill, in headland entries and kept by the internal nodes. -/
def gatedFrames (s : State) : List Frame :=
  ((s.sw.flows.filter fun f => f.egress != 128).flatMap fun f => f.queue ++ f.spill) ++ (s.sw.entry.flatMap fun kv => kv.2) ++
    s.sw.issueKept.map KeptReq.frame
/-- The frames that meet a test leave the switch core, and the held signals among them. -/
def dropFrames (mine : Frame → Bool) (s : State) : State :=
  s.onSw fun w => { w with
    flows := ((w.flows.map fun f => { f with queue := f.queue.filter fun x => !mine x, spill := f.spill.filter fun x => !mine x }).map
      fun f => if f.spill.isEmpty then { f with spilled := false } else f).filter fun f => !(f.queue.isEmpty && !f.spilled)
    heldSigs := w.heldSigs.filter fun x => !mine (heldFrame x)
    entry := (w.entry.mapV fun _ l => l.filter fun x => !mine x).filter fun kv => !kv.2.isEmpty
    issueKept := w.issueKept.filter fun k => !mine k.frame }

/-- A request past the hub's refusals and the gate goes to its node, through a headland entry buffer when it comes from a port, or into
its flow; the uplink of its pair is kept (R43). -/
def dispatch (t : Target) (r : Req) (s : State) : State :=
  match t with
  | .here lep =>
    match entryTile r lep with
    | none => serveHere lep r s
    | some tile =>
      if !(s.sw.flows.any fun f => f.egress == 256 + lep) && entryRoom s tile r then enterNode tile lep r (freeCells r s)
      else enqueue (ingressTile r 0) (256 + lep) { req := r, cells := cellsOf r.data, gather := none } s
  | .egress p =>
    toFlow p r none (ingressTile r p) (if hubOf r.h.dst = hubId s then s else pairPicked r.h.plot r.h.src r.h.dst p s)
  | _ => s

/-! Sowings (R39-R41, R73-R76). -/

/-- One copy of a sowing enters its flow, or is held at the gate, or fails for a missing feature (R41, R46, R76). -/
def sowCopy (ident : Nat) (r : Req) (p : Nat) (s : State) : State :=
  let c : Req := { r with h := { r.h with dst := nodeOf s p } }
  if (lacksFeature s p c).isSome then gatherOne ident p St.malformed s
  else
    let s := bump 0xC40209 1 s
    if opClass r.op = 1 && gated c && sigHeld s c then holdSig c (some ident) s
    else
      toFlow p c (some ident) (gatherTile s ident) (gateTaken c s)

/-- A sowing starts (R39, R40, R76): with no qualifying port it is answered at once; else it takes a gather record. -/
def sowStart (r : Req) (s : State) : State :=
  let ps := sowPorts s r
  let s := bump 0xC40208 1 s
  if ps.isEmpty then
    deliverReply r.via (sowAckOf { ident := 0, tile := 0, req := r, sent := 0, open_ := 0 }) (freeCells r s)
  else
    let n := s.sw.nextGather
    let sent := (ps.filter fun p => (lacksFeature s p r).isNone).length
    let s := s.onSw fun w => { w with
      nextGather := w.nextGather + 1
      gathers := w.gathers ++ [{ ident := n, tile := sowTile s r, req := r, sent, open_ := ps.length }] }
    let s := forAll ps (sowCopy n r) s
    if sowHeld s n then s else freeCells r s

/-- Whether a tile has a gather record free (R76), and a reply cell that it reserves (R84). -/
def gatherRoom (s : State) (tile : Nat) : Bool :=
  decide ((s.sw.gathers.filter fun g => g.tile == tile).length < 64) && decide (replyTaken s tile < replyCap s tile)

/-! A request at the hub. -/

/-- A request whose source is set goes on: refused (R470), waiting behind an earlier one of its way (R42), for a gather record (R76) or
for the gate (R264), held at the gate (R46), or on its way. `first`: it has not waited at the head of its ingress yet. -/
def route (first : Bool) (r : Req) (s : State) : State :=
  let cls := opClass r.op
  let wait : State → State := enqueue (waitTile r) 128 { req := r, cells := cellsOf r.data, gather := none }
  match target s r with
  | .refuse st d =>
    refuseReq r st d (freeCells r (if st = St.protection && !alienUplink s r then bump 0xC4020A 1 s else s))
  | .sow => if (first && blocked s r) || gateFull s r || !gatherRoom s (sowTile s r) then wait s else sowStart r s
  | t =>
    if (first && blocked s r) || gateFull s r then wait s
    else if cls = 1 ∧ s.chk.badMeta.contains (.gate r.h.src r.h.dst) then refuseReq r St.internal 0 (freeCells r s)
    else if cls = 1 ∧ gated r ∧ sigHeld s r then holdSig r none s
    else dispatch t r (gateTaken r s)

/-- Count the cells of a request that comes in on a port (`PortReqCellsIn`). -/
def countCells (r : Req) (s : State) : State :=
  match r.via with
  | .port p => bump (0xC41000 + p + 1) (cellsOf r.data) s
  | _ => s

/-- A request enters the hub (R29, R470). -/
def serve (r : Req) (s : State) : State :=
  let r := normalise s r
  route true r (countCells r s)

end Sys2Proof.Machine
end

