-- ==== Sys2Proof/Machine/SwitchOps.lean ====
section
/-! DEFINITION. Frames in the switch core (R63-R72), replies and timeouts of forwarded requests (R47, R48), release at the signal
gate (R46), spill (R77-R83) and the Gleaner (R84-R86). -/

namespace Sys2Proof.Machine

/-! Replies and timeouts (R47, R48). -/

/-- A reply arrives on a port (R47): the record of its requester, tag and replying node is released and it passes to the requester, or it
is discarded (R48). -/
def replyArrives (p : Nat) (r : Reply) (s : State) : State :=
  if !carriesReplies s p then s
  else
    let s := bump (0xC41200 + p + 1) (replyCells r) s
    match (s.records p).find? fun f => f.is r.dst r.tag && f.req.h.dst == r.src with
    | none => bump 0xC40101 1 s
    | some f => answerFrom (.record p) f.req f.gather r (dropRecord p f s)

/-- ForwardTimeout 0x4020.01, ns (R47). -/
def forwardTimeoutNs (s : State) : Nat := cfg 0x402001 500000 s
/-- A record has had no reply within ForwardTimeout (R47). -/
def recordExpires (p src tag : Nat) (s : State) : State :=
  match (s.records p).find? fun f => f.is src tag with
  | none => s
  | some f =>
    if elapsed s f.since (forwardTimeoutNs s) then
      failRecord p f St.timeout (hubDetail s p) (dropRecord p f s)
    else s

/-! The signal gate (R46, R265). -/

/-- The first held SIG request of a pair goes on, once nothing of the pair is unanswered (R46). -/
def gateRelease (src dst : Nat) (s : State) : State :=
  match s.sw.heldSigs.find? fun x => x.req.h.src == src && x.req.h.dst == dst with
  | none => s
  | some x =>
    if gateOpen s src dst ≠ 0 || gateAhead s src dst then s
    else
      let s := s.onSw fun w => { w with heldSigs := dropFirst (fun y => y.req.h.src == src && y.req.h.dst == dst) w.heldSigs }
      match x.gather with
      | some g =>
        if portServes s (lepOf dst) then
          let s := toFlow (lepOf dst) x.req (some g) (gatherTile s g) s
          if sowHeld s g then s else freeCells x.req s
        else
          let s := gatherOne g (lepOf dst) St.unreachable s
          if sowHeld s g then s else freeCells x.req s
      | none =>
        match target s x.req with
        | .refuse st d => failReq x.req none st d (freeCells x.req s)
        | t => dispatch t x.req s

/-! Arbitration (R64, R66, R71). -/

/-- Room of an egress stage by class, in cells (Table 3-2). -/
def stageCap (cls : Nat) : Nat := if cls = 2 then 18 else 2
/-- Frames in an egress stage. -/
def State.staged (s : State) (p : Nat) : List (Nat × Frame) := s.sw.stage.getD p []
/-- Whether an egress stage has room for a frame's cells in its class (R66). -/
def stageRoom (s : State) (p : Nat) (x : Frame) : Bool :=
  decide ((((s.staged p).filter fun y => opClass y.2.req.op == opClass x.req.op).map fun y => y.2.cells).sum + x.cells ≤
    stageCap (opClass x.req.op))

/-- The frame a flow sends next: its oldest on chip, else the head of its spill queue (R80). -/
def Flow.head (f : Flow) : Option Frame :=
  match f.queue with
  | x :: _ => some x
  | [] => if f.spilled then f.spill.head? else none
/-- Why a frame may not go out of its egress any more: its plot is being removed (R319) or is HEDGED (R320), or the port no longer serves (R18), or its
node refuses it now (R50). -/
def frameBarred (s : State) (p : Nat) (x : Frame) : Option (Nat × Nat) :=
  match plotBar s x.req.h.plot with
  | some st => some (st, 0)
  | none =>
    if 256 ≤ p then
      match target s x.req with
      | .refuse st d => some (st, d)
      | _ => none
    else if !portServes s p then some (St.unreachable, hubDetail s p)
    else none
/-- Whether there is room for a frame beyond its flow: an egress stage, a free forward record with a reply cell to reserve and, for a sowing
copy, the sowing reserve (R47, R66, R68, R75); or a headland entry buffer (R70). -/
def passRoom (s : State) (ingress p : Nat) (x : Frame) : Bool :=
  if 256 ≤ p then
    match entryTile x.req (p - 256) with
    | some tile => entryRoom s tile x.req
    | none => true
  else
    decide ((s.records p).length < 2048) && decide (replyTaken s p < replyCap s p) && stageRoom s p x && (x.gather.isNone || x.reserve || sowReserveRoom s ingress p x)
/-- Whether the head of a flow could pass on. -/
def Flow.ready (f : Flow) (s : State) : Bool :=
  f.egress != 128 &&
    match f.head with
    | none => false
    | some x => (frameBarred s f.egress x).isNone && passRoom s f.ingress f.egress x
/-- Whether a frame of a class can pass to an egress. -/
def classReady (s : State) (p cls : Nat) : Bool := s.sw.flows.any fun f => f.egress == p && f.cls == cls && f.ready s

/-- ClassWeight of MEM, RED and MSG (R71). -/
def classWeight (s : State) (cls : Nat) : Nat :=
  if cls = 0 then cfg 0x401001 4 s else if cls = 3 then cfg 0x401002 4 s else cfg 0x401003 2 s
/-- The class whose turn it is among MEM, RED and MSG (R71): the one being served, while it has cells of its weight left and a frame that
can pass; else the next in the order MEM, RED, MSG. -/
def shareClass (s : State) (p : Nat) : Option Nat :=
  let now := s.sw.share.getD p (2, 0)
  if 0 < now.2 ∧ classReady s p now.1 then some now.1
  else (if now.1 = 0 then [3, 2, 0] else if now.1 = 3 then [2, 0, 3] else [0, 3, 2]).find? (classReady s p)
/-- The class an egress serves next (R71): SIG first and then after every 7 frames of other classes, or when no other can pass. -/
def nextClass (s : State) (p : Nat) : Option Nat :=
  if classReady s p 1 && (decide (7 ≤ s.sw.sigBypass.getD p 7) || (shareClass s p).isNone) then some 1 else shareClass s p
/-- How far an ingress is from its turn at an egress (R71: round robin). -/
def turnDist (s : State) (f : Flow) : Nat := (f.ingress + 143 - s.sw.servedLast.getD (4 * f.egress + f.cls) 143) % 144
/-- Whether an egress grants the head of a flow now (R71). -/
def granted (s : State) (f : Flow) : Bool :=
  f.ready s && nextClass s f.egress == some f.cls &&
    s.sw.flows.all fun g => !(g.egress == f.egress && g.cls == f.cls && g.ready s) || decide (turnDist s f ≤ turnDist s g)
/-- What a grant of x cells leaves in the arbiter of an egress (R71). -/
def served (f : Flow) (x : Frame) (s : State) : State :=
  let p := f.egress
  let now := s.sw.share.getD p (2, 0)
  let left := (if now.1 = f.cls ∧ 0 < now.2 then now.2 else classWeight s f.cls) - x.cells
  s.onSw fun w => { w with
    servedLast := w.servedLast.set (4 * p + f.cls) f.ingress
    sigBypass := w.sigBypass.set p (if f.cls = 1 then 0 else w.sigBypass.getD p 7 + 1)
    share := if f.cls = 1 then w.share else w.share.set p (f.cls, left) }

/-! Forwarding (R64, R66). -/

/-- A frame passes into its egress stage with a forward record (R47, R66). -/
def intoStage (ingress p : Nat) (x : Frame) (s : State) : State :=
  let rec_ : FwdRec := { req := x.req, since := s.now, gather := x.gather }
  s.onSw fun w => { w with
    stage := w.stage.set p (w.stage.getD p [] ++ [(ingress, x)])
    records := w.records.set p (w.records.getD p [] ++ [rec_]) }
/-- A granted frame passes on: into the egress stage of its port, or into the headland entry of its node. -/
def passOn (f : Flow) (x : Frame) (s : State) : State :=
  let s := served f x s
  if 256 ≤ f.egress then
    match entryTile x.req (f.egress - 256) with
    | some tile => enterNode tile (f.egress - 256) x.req s
    | none => serveHere (f.egress - 256) x.req s
  else intoStage f.ingress f.egress x s

/-- Whether a request that waits at the head of its ingress can go: refused now, or with what it waited for. -/
def waitOver (s : State) (x : Frame) : Bool :=
  match target s x.req with
  | .sow => gatherRoom s (sowTile s x.req) && !gateFull s x.req
  | .refuse _ _ => true
  | _ => !gateFull s x.req
/-- The first waiting request that can go without passing an earlier one of its way (R42), with those before and after it. -/
def waitSplit (s : State) : List Frame → List Frame → Option (List Frame × Frame × List Frame)
  | _, [] => none
  | before, x :: rest =>
    if waitOver s x && !(before.any fun y => sharesWay s y.req x.req) then some (before, x, rest) else waitSplit s (before ++ [x]) rest
/-- Requests at the head of an ingress that waited for a gather record or for the gate try again. -/
def headAgain (f : Flow) (s : State) : State :=
  match waitSplit s [] f.queue with
  | none => s
  | some (before, x, rest) => route false x.req (setFlow { f with queue := before ++ rest } s)

/-- A flow after its head has left it: one in spill leaves spill when nothing of it is on chip before its spill queue and no frame is left
in the spill area (R81); frames that spill could not take then queue on chip (R82). -/
def leaveSpill (f : Flow) : Flow :=
  if f.spilled && f.queue.isEmpty && f.spill.all Frame.onChip then { f with queue := f.spill, spill := [], spilled := false } else f

/-- The head frame of a flow leaves its ingress tile once the egress has room for all of it and grants it (R64, R71). -/
def forwardHead (ingress p cls : Nat) (s : State) : State :=
  match s.flow ingress p cls with
  | none => s
  | some f =>
    if p = 128 then headAgain f s
    else
      match f.queue with
      | [] => setFlow (leaveSpill f) s
      | x :: rest =>
        let out (s : State) : State := leftIngress x (setFlow (leaveSpill { f with queue := rest }) s)
        match frameBarred s p x with
        | some (st, d) => failReq x.req x.gather st d (out s)
        | none => if granted s f then passOn f x (out s) else s

/-- The first frame of a stage whose class has credits for it at the far end: classes do not wait for one another (R56, R66, R72). -/
def stageNext (s : State) (p : Nat) : List (Nat × Frame) → Option (Nat × Frame)
  | l => l.find? fun y => decide (y.2.cells ≤ (s.port p).credits.of (opClass y.2.req.op)) &&
      (l.find? fun z => opClass z.2.req.op == opClass y.2.req.op) == some y
/-- The oldest frame of an egress stage, of a class with credits, is sent when the replay buffer allows (R56, R66, R72, R338). -/
def transmit (p : Nat) (s : State) : State :=
  match stageNext s p (s.staged p) with
  | none => s
  | some y =>
    let x := y.2
    let rest := (s.staged p).erase y
    if !(s.port p).held.isEmpty || !canFrame s p (.request x.req) || !portServes s p then s
    else
      let s := s.onSw fun w => { w with stage := if rest.isEmpty then w.stage.erase p else w.stage.set p rest }
      let s := s.onPort p fun y => { y with credits := y.credits.take (opClass x.req.op) x.cells }
      let q := timeStamp x.req s
      linkSend p (.request q.1) (bump (0xC41100 + p + 1) x.cells q.2)

/-! Spill (R79-R83). -/

/-- Cells of a flow's frames that are on chip. -/
def Flow.onChipCells (f : Flow) : Nat := (f.onChip.map Frame.cells).sum
/-- Cells in use by a class at an ingress tile (R75, R79). -/
def ingressCells (s : State) (ingress cls : Nat) : Nat :=
  heldCells ((tileFrames s ingress).filter fun x => opClass x.req.op == cls)
/-- The request credits of a class that a port tile grants (Table 2-2), twice for a bonded uplink (R67). -/
def grantOf (s : State) (p cls : Nat) : Nat :=
  (if bonded s p then 2 else 1) * (if cls = 0 then 768 else if cls = 1 then 128 else if cls = 2 then 640 else 512)
/-- Whether flow f holds more cells than every other flow of its ingress and class; ties go to the lowest egress (R79). -/
def mostCells (s : State) (f : Flow) : Bool :=
  s.sw.flows.all fun g => !(g.ingress == f.ingress && g.cls == f.cls) || g.egress == f.egress || g.egress == 128 ||
    decide (g.onChipCells < f.onChipCells) || (g.onChipCells == f.onChipCells && decide (f.egress < g.egress))

/-- Conditions 1 to 3 of R79 for a flow of plot n. -/
def spillWanted (s : State) (f : Flow) (n : Nat) : Bool :=
  spillPossible s && !f.spilled && f.egress != 128 &&
    decide (cfg 0x404003 75 s * (if f.ingress < 128 then grantOf s f.ingress f.cls else serviceQuota s n) ≤
      100 * ingressCells s f.ingress f.cls) &&
    mostCells s f && decide (cfg 0x404004 128 s ≤ f.onChipCells)

/-- The plot of a flow: that of its frames. -/
def Flow.plot (f : Flow) : Nat := ((f.queue ++ f.spill).map fun x => x.req.h.plot).headD 0

/-- Condition 4 of R79 fails: counted, and reported once in a Gleaner period for a plot whose share is full. -/
def spillRefused (n : Nat) (full : Bool) (s : State) : State :=
  let s := bump 0xC40204 1 s
  if !full then s
  else
    let k := s.sw.shareRefusals.getD n 0 + 1
    let s := s.onSw fun w => { w with shareRefusals := w.shareRefusals.set n k }
    if k = 1 then raise 0x4103 [n, spillUsed s n, k] s else s

/-- The per-cycle test of R79 for an ingress and class. -/
def spillTest (ingress cls : Nat) (s : State) : State :=
  match s.sw.flows.find? fun f => f.ingress == ingress && f.cls == cls && spillWanted s f f.plot with
  | none => s
  | some f =>
    let n := f.plot
    let full := decide (spillShareCells s n < spillUsed s n + 64)
    if full || decide (4096 ≤ (s.sw.flows.filter Flow.spilled).length) then spillRefused n full s
    else bump 0xC40201 1 (setFlow { f with spilled := true } s)

/-- The next frame of a spilled flow is read back once its on-chip frames have left, under the grants of its egress (R71, R80, R83). -/
def spillRead (ingress p cls : Nat) (intact : Bool) (s : State) : State :=
  match s.flow ingress p cls with
  | none => s
  | some f =>
    match f.spill with
    | [] => setFlow (leaveSpill f) s
    | x :: rest =>
      if !f.spilled || !f.queue.isEmpty then s
      else
        let out (s : State) : State :=
          leftIngress x (setFlow (leaveSpill { f with spill := rest }) (if x.onChip then s else bump 0xC40203 x.cells s))
        if !intact && !x.onChip then
          failReq x.req x.gather St.internal 0
            (raise 0x4104 [x.req.h.plot, ingress, p, cls, x.req.h.src, x.req.h.tag] (out s))
        else
          match frameBarred s p x with
          | some (st, d) => failReq x.req x.gather st d (out s)
          | none => if granted s f then passOn f x (out s) else s

/-- The first frame of a spilled flow that still holds its ingress cells, with the frames before and after it. -/
def firstOnChip : List Frame → List Frame → Option (List Frame × Frame × List Frame)
  | _, [] => none
  | before, x :: rest => if x.onChip then some (before, x, rest) else firstOnChip (before ++ [x]) rest
/-- Frames of spilled flows that waited for room in their plot's share are written to spill as far as it reaches now, and their cells
freed (R80, R82). -/
def spillMoves : Nat → State → State
  | 0, s => s
  | n + 1, s =>
    match s.sw.flows.findSome? fun f => if f.spilled then
        (match firstOnChip [] f.spill with
          | some y => if spillTakes s y.2.1 then some (f, y) else none
          | none => none) else none with
    | none => s
    | some (f, before, x, rest) =>
      spillMoves n (leftIngress x (countSpilled f.ingress x (setFlow { f with spill := before ++ spilledFrame s x :: rest } s)))

/-- What goes on in the switch core of itself: requests and replies of internal nodes enter their issue buffers, nodes take what waits in
their entry buffers, and spilled flows' frames are written to spill (R66, R68, R70, R80). -/
def switchMoves (s : State) : State :=
  let s := entryMoves ((s.sw.entry.map fun kv => kv.2.length).sum) (issueMoves s.sw.issueKept.length s)
  let s := forAll (s.sw.replyKept.map Prod.fst) replyPump s
  spillMoves ((s.sw.flows.map fun f => f.spill.length).sum) s

/-! The Gleaner (R84-R86). -/

/-- Where a node's replies go: its port, core, or unit; a node of another hub over its uplink. -/
def viaOf (s : State) (plot node : Nat) : Ingress :=
  if hubOf node ≠ hubId s then
    match uplinkFor s plot (nodeOf s 0xC2) node with
    | some p => .port p
    | none => .unit
  else if lepOf node < 0x80 then .port (lepOf node)
  else if lepOf node < 0xC0 then .core (lepOf node - 0x80) 0
  else if lepOf node = 0xC1 then .host
  else if lepOf node = 0xC2 then .mgmt
  else .unit

/-- The record of a requester and tag on any egress port. -/
def anyRecord (s : State) (src tag : Nat) : Option (Nat × FwdRec) :=
  s.sw.records.findSome? fun kv => (kv.2.find? fun f => f.is src tag).map fun f => (kv.1, f)

/-- Whether a lost cell's transaction never had a forward record: a request's cell in spill or in the tile its source issues through; a
reply's cell in a headland tile. -/
def unrecordedIn (s : State) (c : LostCell) (first : Packet) : Bool :=
  match first with
  | .request _ h _ =>
    c.spill ||
      match viaOf s h.plot h.src with
      | .port p => c.tile == p
      | .core k _ => c.tile == 128 + k % 16
      | _ => decide (128 ≤ c.tile)
  | .reply _ => decide (128 ≤ c.tile)
/-- Answer the transaction of a reclaimed first cell, exactly once (R85): a request by its SRC and TAG, a reply by its DST. A forward record
of it is released; where it had one that has timed out already (not `unrecorded`), nothing further is sent. -/
def answerLost (unrecorded : Bool) (first : Packet) (s : State) : State :=
  match first with
  | .request op h data =>
    match anyRecord s h.src h.tag with
    | some (p, f) => failRecord p f St.internal 0 (dropRecord p f s)
    | none =>
      if unrecorded then
        deliverReply (viaOf s h.plot h.src) (ackOf { via := viaOf s h.plot h.src, op, h, data } St.internal 0) s
      else s
  | .reply r =>
    match anyRecord s r.dst r.tag with
    | some (p, f) => failRecord p f St.internal 0 (dropRecord p f s)
    | none =>
      if unrecorded then deliverReply (viaOf s r.plot r.dst) { r with op := Op.ack, status := St.internal, detail := 0, data := [] } s
      else s

/-- Cells of a tile's buffers in a network (Table 3-2, R67): of the request network a headland tile has an entry and an issue buffer, and
a port tile its egress stage and sowing reserve beside its cell buffer; of the reply network a port tile has its egress stage too. -/
def tileCells (s : State) (net tile : Nat) : Nat :=
  if tile < 128 then (if oddOfBond s tile then 0 else if bonded s tile then 4096 else 2048) + (if net = 0 then 56 else 4)
  else if tile < 144 then (if net = 0 then 1024 else replyIssueCap)
  else 0
/-- Cells of a tile's buffers that frames hold or records reserve (R84). -/
def tileTaken (s : State) (net tile : Nat) : Nat :=
  if net = 0 then
    heldCells (tileFrames s tile) + ((s.entryAt tile).map Frame.cells).sum + ((s.staged tile).map fun y => y.2.cells).sum +
      sowReserveUsed s tile
  else replyTaken s tile + ((netReplies s.sw.replyStage tile).map fun y => replyCells y.rep).sum
/-- Cells of a network's tile, or of a plot's spill share, that are in no use: only those can be missing (R84). -/
def cellsIdle (s : State) (c : LostCell) : Nat :=
  if c.spill then spillShareCells s c.tile - spillUsed s c.tile else tileCells s c.net c.tile - tileTaken s c.net c.tile
/-- Whether a transaction's frame lies in a queue, an egress stage, a headland buffer or the spill area, or is held at the gate. -/
def inSwitch (s : State) (first : Packet) : Bool :=
  match first with
  | .request _ h _ =>
    let same (x : Frame) : Bool := x.req.h.src == h.src && x.req.h.tag == h.tag && x.req.h.dst == h.dst
    (s.sw.flows.any fun f => f.queue.any same || f.spill.any same) || (s.sw.stage.any fun kv => kv.2.any fun y => same y.2) ||
      (s.sw.entry.any fun kv => kv.2.any same) || (s.sw.issueKept.any fun k => same k.frame) ||
      s.sw.heldSigs.any fun y => same (heldFrame y)
  | .reply r =>
    let same (y : NetReply) : Bool := y.rep.dst == r.dst && y.rep.tag == r.tag && y.rep.src == r.src
    (s.sw.replyWait ++ s.sw.replyStage ++ s.sw.replyKept).any fun kv => kv.2.any same
/-- Whether a cell that a walk reports is accounted after all (R84): it is no cell of its tile or share, or its frame is queued, staged,
spilled or in a headland buffer. -/
def accounted (s : State) (c : LostCell) : Bool :=
  decide ((if c.spill then spillShareCells s c.tile else tileCells s c.net c.tile) ≤ c.cell) ||
    match c.first with
    | some p => inSwitch s p
    | none => false
/-- Whether two reports are of cells of one tile or share. -/
def samePlace (a b : LostCell) : Bool := a.net == b.net && a.tile == b.tile && a.spill == b.spill
/-- The cells of a walk's report that are not accounted: of each tile and share at most as many as no frame holds and no record reserves
(R84). -/
def unaccountedOf (s : State) (found : List LostCell) : List LostCell :=
  found.foldl (fun l c =>
    if accounted s c || decide (cellsIdle s c ≤ (l.filter (samePlace c)).length) then l else l ++ [c]) []

/-- Whether two reports are of one cell. -/
def sameCell (a b : LostCell) : Bool := a.net == b.net && a.tile == b.tile && a.spill == b.spill && a.cell == b.cell

/-- Whether the transaction of a reclaimed cell is answered (R85): a forward record of it stands, or it never had one. -/
def lostAnswered (s : State) (c : LostCell) : Bool :=
  match c.first with
  | none => false
  | some (.request op h data) => (anyRecord s h.src h.tag).isSome || unrecordedIn s c (.request op h data)
  | some (.reply r) => (anyRecord s r.dst r.tag).isSome || unrecordedIn s c (.reply r)
/-- Reclaim a cell (R85). -/
def reclaim (c : LostCell) (s : State) : State :=
  let told := b2n (lostAnswered s c)
  let s := if c.net = 0 ∧ c.tile < 128 ∧ c.spill = false then
      s.onPort c.tile fun x => { x with freed := x.freed.add c.cls 1 } else s
  let s := match c.first with
    | some p => answerLost (unrecordedIn s c p) p s
    | none => s
  raise 0x4101 [c.net, c.tile, c.cell, c.cls, told] (bump (if c.spill then 0xC40207 else 0xC40206) 1 s)

/-- Judge a tile after an audit in which n of its cells were reclaimed (R86). -/
def judgeTile (net tile n : Nat) (s : State) : State :=
  let key := 256 * net + tile
  let streak := if n = 0 then 0 else s.sw.reclaimStreak.getD key 0 + 1
  let s := s.onSw fun w => { w with reclaimStreak := w.reclaimStreak.set key streak }
  if cfg 0x405002 16 s < n ∨ 3 ≤ streak then
    let s := s.onSw fun w => { w with
      suspects := if w.suspectTiles.any fun t => t.2 == tile then w.suspects else min 255 (w.suspects + 1)
      suspectTiles := if w.suspectTiles.contains (net, tile) then w.suspectTiles else (net, tile) :: w.suspectTiles }
    raise 0x4102 [net, tile, n, streak] s
  else s

/-- An audit (R84-R86): of the cells that the walk finds on no free list, those not accounted otherwise are remembered, and reclaimed when
two consecutive audits have found them so. -/
def audit (found : List LostCell) (s : State) : State :=
  if !elapsed s s.sw.lastAudit 100000000 then s
  else
    let found := unaccountedOf s found
    let old := s.sw.unaccounted
    let gone := found.filter fun c => old.any (sameCell c)
    let left := found.filter fun c => !(old.any (sameCell c))
    let s := s.onSw fun w => { w with unaccounted := left, lastAudit := s.now, lastReclaims := min 0xFFFF gone.length,
                                      shareRefusals := [] }
    let s := forAll gone reclaim (bump 0xC40205 1 s)
    forAll [0, 1] (fun net s => forAll (List.range 144) (fun t s =>
      let n := (gone.filter fun c => c.net == net && c.tile == t && !c.spill).length
      if n = 0 ∧ s.sw.reclaimStreak.getD (256 * net + t) 0 = 0 then s else judgeTile net t n s) s) s

/-! What the SWC registers show (R88). -/

/-- SWC_TILE_STATUS of a tile (Table 3-10). -/
def tileStatus (s : State) (t : Nat) : Nat :=
  let req := heldCells (tileFrames s t) + ((s.entryAt t).map Frame.cells).sum
  let rep := replyTaken s t
  min 0xFFF req + 2 ^ 12 * min 0xFFF rep + 2 ^ 24 * min 15 (s.sw.flows.filter fun f => f.ingress == t && f.spilled).length +
    2 ^ 28 * b2n (domainOn s (16 + t % 16 / 8)) + 2 ^ 29 * b2n (s.sw.suspectTiles.any fun x => x.2 == t)
/-- SWC_SPILL_STATUS (Table 3-7): spill queues in use. -/
def spillStatus (s : State) : Nat := (s.sw.flows.filter Flow.spilled).length
/-- SWC_GLEANER_STATUS (Table 3-9): an audit runs within the step of its command, so BUSY reads 0 between commands (log entry 21). -/
def gleanerStatus (s : State) : Nat := 2 ^ 8 * s.sw.lastReclaims + 2 ^ 24 * s.sw.suspects

end Sys2Proof.Machine
end

