-- ==== Sys2Proof/Machine/FaultOps.lean ====
section
/-! DEFINITION. Outstanding faults and their queue (R104-R110), and prefetch walks (R101, R103). -/

namespace Sys2Proof.Machine

/-- Whether an entry has a key. -/
def FaultEntry.at (e : FaultEntry) (ctx page : Nat) : Bool := e.ctx == ctx && e.page == page
/-- Add a waiter to an entry (R105). KIND stays that of the fault that opened the entry (DESIGN CHOICE: R105 does not say which KIND stands
when a later waiter meets another; log entry 51). -/
def FaultEntry.join (e : FaultEntry) (w : Waiter) (wr : Bool) : FaultEntry :=
  { e with waiters := if e.waiters.contains w then e.waiters else e.waiters ++ [w], needWr := e.needWr || wr }

/-- The lowest free entry of the outstanding-fault table (R104; DESIGN CHOICE: R104 does not say which free number a new entry takes; log
entry 51). -/
def freeEntry (s : State) : Option Nat := (List.range 4096).find? fun n => (s.xlt.faults.find n).isNone
/-- Whether a fault on a new key can be recorded: the queue is enabled and has a slot for it besides those of entries that are
not recorded yet, and the table has a free entry (R108). -/
def faultRoom (s : State) : Bool :=
  s.xlt.fqEnable && decide (s.xlt.fqCount + (s.xlt.faults.filter fun kv => !kv.2.recorded).length < 4096) &&
    decide (s.xlt.faults.length < 4096)

/-- A GleanerPeriod of 100 ms ends (R108): XLT_FAULT_QUEUE_FULL is raised if a fault waited for room in it, with the faults that still wait
and the CCLK cycles of waiting in the period. -/
def queueFullEvent (s : State) : State :=
  if !s.xlt.deferSeen then s
  else raise 0x5104 [s.xlt.deferred.length, s.xlt.deferCycles]
    (s.onXlt fun x => { x with deferSeen := !x.deferred.isEmpty, deferCycles := 0 })

/-- Open an entry (R104): EPOCH, TIME and the windows of R105 and R110 count from now. -/
def openEntry (e : FaultEntry) (s : State) : State :=
  match freeEntry s with
  | none => s
  | some n => bump 0xC40304 1 (s.onXlt fun x => { x with faults := x.faults.set n { e with epoch := x.epoch, since := s.now } })

/-- A Furrow engine access faults (R104, R105, R108): it joins the entry of its key, opens one, or waits for room. -/
def raiseFault (w : Waiter) (ctx page : Nat) (kind : FaultKind) (wr : Bool) (s : State) : State :=
  match s.xlt.faults.find? fun kv => kv.2.at ctx page with
  | some kv =>
    bump 0xC40305 1 (s.onXlt fun x => { x with faults := x.faults.set kv.1 (kv.2.join w wr) })
  | none =>
    let e : FaultEntry := { ctx, page, kind, needWr := wr, waiters := [w], epoch := s.xlt.epoch, since := s.now }
    if s.xlt.deferred.any fun d => d.at ctx page then
      s.onXlt fun x => { x with deferred := updFirst (fun d => d.at ctx page) (fun d => d.join w wr) x.deferred }
    else if faultRoom s && s.xlt.deferred.isEmpty then openEntry e s
    else
      s.onXlt fun x => { x with deferSeen := true, deferred := x.deferred ++ [e] }

/-- The 64 bytes of a fault record (Table 4-5). -/
def faultRecord (s : State) (n : Nat) (e : FaultEntry) : List Byte :=
  let ws := e.waiters.take 8
  let kind := match e.kind with
    | .notMapped => 0
    | .withdrawn => 1
    | .rights => 2
  natLe 4 (e.ctx + 2 ^ 16 * (ctxPlot s e.ctx).getD 0 + 2 ^ 20 * kind + 2 ^ 22 * b2n e.needWr + 2 ^ 24 * ws.length +
    2 ^ 31 * b2n s.xlt.fqPhase) ++
  natLe 4 e.page ++ natLe 4 n ++ natLe 4 e.epoch ++ natLe 8 e.since ++ natLe 8 0 ++
  takePad 16 ((ws.map fun w => natLe 2 (w.core + 2 ^ 6 * w.thread + 2 ^ 10 * w.engine)).flatten) ++ List.replicate 16 0

/-- The address of the fault queue's next slot. -/
def faultSlot (s : State) : Nat := 2 ^ 18 * s.xlt.fqBase + 64 * s.xlt.fqProd

/-- The place of an entry's record: the entry and the key of its fault. -/
def recordAt (n : Nat) (e : FaultEntry) : Nat := n + 4096 * (e.page + 2 ^ 32 * e.ctx)
/-- The record whose write is in progress: its place, and the answer. -/
def recordBusy (s : State) : Option UnitPiece := s.pool.pieces.find? fun u => u.key == 70

/-- A record has been written to the queue's next slot (R105, R107): its entry is recorded, and a queue that was empty rings the doorbell.
One whose line the memory refuses is not written yet (DESIGN CHOICE for an ORPHANED line: the fault queue never drops a fault; log
entry 52). -/
def recordEnds (s : State) : State :=
  match recordBusy s with
  | some { off := o, ans := some (st, _), .. } =>
    let s := unitDone 70 s
    if st ≠ St.ok then s
    else
      let empty := s.xlt.fqCount == 0
      let s := s.onXlt fun x => { x with
        faults := x.faults.mapV fun n e => if recordAt n e = o then { e with recorded := true } else e
        fqLast := x.fqPhase
        fqPhase := if x.fqProd = 4095 then !x.fqPhase else x.fqPhase
        fqProd := (x.fqProd + 1) % 4096
        fqCount := x.fqCount + 1 }
      if empty then ringDoorbell 1 0 s.xlt.fqProd (s.onXlt fun x => { x with fqRung := s.now }) else s
  | _ => s

/-- Write the record of an entry to the queue's next slot (R105), as an access of plot 0 to the pool like any other (R122, R134, R150,
R163); one record at a time. -/
def writeRecord (n : Nat) (e : FaultEntry) (s : State) : State :=
  if (recordBusy s).isSome then s
  else
    let r := unitReq s 0 (nodeOf s 0xC0) Op.write 0 0 64 0 (faultRecord s n e)
    recordEnds (unitAccess 70 (recordAt n e) r (faultSlot s) none s)

/-! The nomination ring (R139). -/

/-- The address of the nomination ring's next slot. -/
def nomSlot (s : State) : Nat := 2 ^ 14 * s.pool.nomBase + 16 * s.pool.nomProd
/-- Whether the ring has room for a nomination besides those that wait to be written. -/
def nomRoom (s : State) : Bool := s.pool.nomEnable && decide (s.pool.nomCount + s.pool.nomWaiting.length < 1024)

/-- A nomination record (Table 5-10) for the ring's next slot: plot, page key, kind and count. -/
def nomRecord (s : State) (a : Nat × Nat × Nat × Nat) : List Byte :=
  natLe 4 (a.2.1 + 2 ^ 28 * a.2.2.1 + 2 ^ 31 * b2n s.pool.nomPhase) ++ natLe 4 (a.2.2.2 + 2 ^ 16 * a.1) ++ natLe 8 0
/-- A nomination record has been written to the ring's next slot. -/
def nomWritten (s : State) : State :=
  s.onPool fun p => { p with
    nomLast := p.nomPhase
    nomPhase := if p.nomProd = 1023 then !p.nomPhase else p.nomPhase
    nomProd := (p.nomProd + 1) % 1024
    nomCount := p.nomCount + 1 }

/-- Write the nominations that wait, one at a time and in order, as accesses of plot 0 to the pool like any other (R122, R134, R150, R163).
One whose line the memory refuses is dropped and counted (DESIGN CHOICE: R167 gives the write of an ORPHANED line no effect; log
entry 52). -/
def nomWrites : Nat → State → State
  | 0, s => s
  | n + 1, s =>
    match s.pool.nomWaiting with
    | [] => s
    | a :: rest =>
      let s := if (s.piece 71 0).isSome then s
        else unitAccess 71 0 (unitReq s 0 (nodeOf s 0xC0) Op.write 0 0 16 0 (nomRecord s a)) (nomSlot s) none s
      match (s.piece 71 0).bind UnitPiece.ans with
      | none => s
      | some (st, _) =>
        let s := (unitDone 71 s).onPool fun p => { p with nomWaiting := rest }
        nomWrites n (if st = St.ok then nomWritten s else bump 0xC40409 1 s)

/-- The nominations that wait are written as far as they can be, and the MIGRATE doorbell rings for those that were (R139). -/
def nomMoves (s : State) : State :=
  if s.pool.nomWaiting.isEmpty then s
  else
    let t := nomWrites s.pool.nomWaiting.length s
    if t.pool.nomProd = s.pool.nomProd then t else ringDoorbell 3 0 t.pool.nomProd t

/-! Prefetch (R101, R103). -/

/-- Begin the walk of a page for a core's cache, unless it is cached or being walked; past 256 walks it waits its turn (R102). -/
def beginWalk (core ctx page : Nat) (s : State) : State :=
  if ((s.xlt.coreTlb.getD core []).any fun e => e.serves ctx page) ||
      (s.xlt.walks.any fun w => w.core == core && w.ctx == ctx && w.page == page) then s
  else s.onXlt fun x => { x with walks := x.walks ++ [{ core, ctx, page, epoch := x.epoch }] }

/-- Tile k of a declared stream begins here (R205). -/
def tileStart (base : Nat) (stride : Int) (k : Nat) : Nat := ((base : Int) + (k : Int) * stride).toNat % 2 ^ 48

/-- The tiles of a stream an offset may lie in: from the first to the last whose start lies within a tile's length below it. -/
def tileRange (base bytes n : Nat) (stride : Int) (off : Nat) : List Nat :=
  let d := (off : Int) - base
  if stride = 0 then (if n = 0 then [] else [0])
  else
    let p := if 0 < stride then d - (bytes - 1) else -d
    let q := if 0 < stride then d else bytes - 1 - d
    let lo := ((p + stride.natAbs - 1) / stride.natAbs).toNat
    let hi := q / stride.natAbs
    if hi < 0 then [] else (List.range (min n (hi.toNat + 1) - lo)).map fun i => lo + i
/-- The tiles of a stream that an offset lies in. -/
def tilesAt (base bytes n : Nat) (stride : Int) (off : Nat) : List Nat :=
  (tileRange base bytes n stride off).filter fun k => decide (tileStart base stride k ≤ off) && decide (off < tileStart base stride k + bytes)

/-- The first access to tile k of a stream of n tiles walks the pages of tile k + 8, at most 16 and in address order (R103). -/
def prefetchTile (c ctx base bytes n : Nat) (stride : Int) (k : Nat) (s : State) : State :=
  if k + 8 < n then
    let lo := tileStart base stride (k + 8) / frameBytes
    let hi := (tileStart base stride (k + 8) + bytes - 1) / frameBytes
    forAll ((List.range (min 16 (hi + 1 - lo))).map fun i => lo + i) (fun pg => beginWalk c ctx pg) s
  else s

/-- A thread's access at an offset of its context, wherever it is served from: of each armed stream, the tiles it lies in that have not
been accessed since the arming are prefetched for (R103). -/
def prefetch (c t off : Nat) (s : State) : State :=
  let th := s.thread c t
  match (s.core c).prog with
  | none => s
  | some p =>
    forAll th.streams (fun a s =>
      match p.streams[a.1]? with
      | none => s
      | some (bytes, stride) =>
        let ks := (tilesAt a.2.1 bytes a.2.2.1 stride off).filter fun k => !a.2.2.2.contains k
        if ks.isEmpty then s
        else
          let s := s.onThread c t fun x => { x with
            streams := x.streams.map fun b => if b.1 = a.1 then (b.1, b.2.1, b.2.2.1, b.2.2.2 ++ ks) else b }
          forAll ks (prefetchTile c th.ctx a.2.1 bytes a.2.2.1 stride) s) s

end Sys2Proof.Machine
end

