-- ==== Sys2Proof/Machine/FurMem.lean ====
section
/-! DEFINITION. The memory accesses of a Furrow thread (R150-R160, R201, R202): what a piece of one line gives or waits for, the core
data cache, and the making of a store. -/

namespace Sys2Proof.Machine

/-- Who makes an access: core, thread, engine (0-3 TE, 4 VE, 5 ME, 6 sequencer), and the descriptor by its order of issue. -/
structure Who6 where
  /-- Core. -/
  core : Nat
  /-- Thread. -/
  thread : Nat
  /-- Engine. -/
  eng : Nat
  /-- Order of issue of the descriptor. -/
  seq : Nat
  deriving DecidableEq, Repr

/-- A byte range a descriptor touches: the core's own scratchpad (none) or a node, offset and length. -/
structure Rng where
  /-- Node; none: the core's own scratchpad by its local offset. -/
  node : Option Nat
  /-- Offset. -/
  off : Nat
  /-- Bytes. -/
  len : Nat
  deriving DecidableEq, Repr

/-- What a piece of a line gives. -/
inductive LineRes where
  /-- It can proceed; a read gives its bytes. -/
  | good (b : List Byte)
  /-- A fault on a 64 KiB page (R104). -/
  | fault (page : Nat) (k : FaultKind)
  /-- Its translation waits (R115, R163, R278). -/
  | stall (what : Option WaitFor)
  /-- It has been translated, for a write or not, and must wait at the pool: the access to issue for an offset (R112). -/
  | hold (off : Nat) (wr : Bool) (a : PoolWait)
  /-- It has been issued to the pool and is not answered. -/
  | pending
  /-- It fails with a status. -/
  | fail (st : Nat)
  /-- The line of a node must be asked for first (R202). -/
  | need (node off : Nat)
  deriving DecidableEq, Repr

/-- The Tilth run on a core (R295). -/
def testOf (s : State) (c : Nat) : Option TilthRun := s.chk.runs.find? fun r => r.target == c
/-- Whether a core runs a Tilth test, whose program has no context: an access that is not LOCAL fails (R295). -/
def testing (s : State) (c : Nat) : Bool := (testOf s c).isSome
/-- The plot of a core, 15 when it has none. -/
def plotOfCore (s : State) (c : Nat) : Nat := (corePlot s c).getD 15
/-- QueueOrderMode of a core's plot (R160). -/
def queueOrder (s : State) (c : Nat) : Bool := cfg (0x703000 + plotOfCore s c + 1) 0 s == 1
/-- Whether an engine's pool accesses go through the core data cache (R156, R157, R160). -/
def cachedEng (s : State) (w : Who6) : Bool := w.eng != 5 && !queueOrder s w.core

/-- What the memory is asked for by an engine (Table 4-1, R92). -/
def engAsk (s : State) (w : Who6) (off : Nat) (wr : Bool) (dest : Option Nat) : Ask :=
  { core := some w.core, engine := true, ctx := (s.thread w.core w.thread).ctx, off, plot := plotOfCore s w.core,
    node := nodeOf s (0x80 + w.core), wr, dest }

/-- Bytes of the data and thread regions of a core's program (R201). -/
def regionEnd (s : State) (c : Nat) : Nat :=
  match (s.core c).prog with
  | none => 0
  | some p => p.dataBytes + p.threads * p.tlBytes

/-- The core's cache line of a virtual line (R156). -/
def cacheLine (s : State) (c ctx vline : Nat) : Option CLine :=
  (s.core c).cache.find? fun l => l.ctx == ctx && l.vline == vline

/-- A request of an engine at the pool, as the pool sees it. -/
def engReq (s : State) (w : Who6) (op off len : Nat) (opb : Nat) (data : List Byte) : Req :=
  { via := .core w.core w.thread, op,
    h := { plot := plotOfCore s w.core, len, ctx := (s.thread w.core w.thread).ctx, dst := nodeOf s 0xC0,
           src := nodeOf s (0x80 + w.core), opa := BitVec.ofNat 48 off, opb }, data }

/-- An incomplete descriptor of a thread. -/
def State.inc (s : State) (c t seq : Nat) : Option Inc := (s.thread c t).incs.find? fun i => i.seq == seq
/-- Update an incomplete descriptor. -/
def State.onInc (c t seq : Nat) (f : Inc → Inc) (s : State) : State :=
  s.onThread c t fun x => { x with incs := updFirst (fun i => i.seq == seq) f x.incs }

/-- Whether an access issued to the pool is not answered. -/
def PoolLine.open_ (l : PoolLine) : Bool := l.ans.isNone
/-- Line slots a thread holds (R202): requests it has sent, and accesses at the pool, that are not answered. -/
def linesHeld (s : State) (c t : Nat) : Nat :=
  ((s.thread c t).incs.map fun i => i.asked.length + (i.pool.filter PoolLine.open_).length).sum

/-- The access of a descriptor at an offset that has been issued to the pool. -/
def issuedAt (s : State) (w : Who6) (off : Nat) (wr : Bool) : Option PoolLine :=
  match s.inc w.core w.thread w.seq with
  | none => none
  | some i => i.pool.find? fun l => l.off == off && l.wr == wr

/-- An issued access as its descriptor finds it: its data, its failure, or still unanswered. -/
def PoolLine.res (l : PoolLine) : LineRes :=
  match l.ans with
  | none => .pending
  | some (st, b) => if st = St.ok then .good b else .fail st

/-- What an access of an engine for an offset meets at a physical address of the pool: it can be made, must wait there, or fails. -/
def poolMeets (off : Nat) (wr : Bool) (r : Req) (pa : Nat) (view : Option Nat) (s : State) : LineRes × State :=
  let s := meetWalk (pa / 128) s
  let a := acceptRec { r with via := .unit, h := { r.h with tag := 2 ^ 16 } } pa view s
  match obstacle none a s with
  | .none => (.good [], s)
  | .wait q => (.hold off wr { a with what := q }, s)
  | .fail st => (.fail st, s)

/-- The last access that waits at the pool for a line. -/
def lastWait (s : State) (line : Nat) : Option PoolWait := s.pool.waiting.reverse.find? fun v => v.pa / 128 == line

/-- Whether a miss of a core may share a read that another thread of the core has issued for the line (R202). -/
def shares (w : Who6) (a v : PoolWait) : Bool :=
  a.req.op == Op.read && v.req.op == Op.read && !v.eng.isEmpty && v.eng.all (fun e => e.core == w.core) && v.req.h.ctx == a.req.h.ctx

/-- A descriptor issues an access to the pool (R112, R202), when its thread has a line slot for it and, in queue-order mode, nothing
earlier of its queue is unanswered (R160); `line`: the line of the descriptor that its answer completes. -/
def issueLine (w : Who6) (line : Option Nat) (off : Nat) (wr : Bool) (a : PoolWait) (s : State) : State :=
  match s.inc w.core w.thread w.seq with
  | none => s
  | some i =>
    if decide (32 ≤ linesHeld s w.core w.thread) ||
        (queueOrder s w.core && !(i.asked.isEmpty && i.todo.isEmpty && i.pool.all fun l => !l.open_)) then s
    else
      let n := (s.thread w.core w.thread).nextTag
      let ref : EngRef := { core := w.core, thread := w.thread, seq := w.seq, ident := n }
      let l : PoolLine := { ident := n, off, wr, pa := a.pa, epoch := a.epoch, line := line,
                             taken := line.isNone && a.req.op != Op.read }
      let s := s.onThread w.core w.thread fun x => { x with nextTag := x.nextTag + 1 }
      let s := bump 0xC40802 1 (s.onInc w.core w.thread w.seq fun y => { y with pool := y.pool ++ [l] })
      match lastWait s (a.pa / 128) with
      | some v =>
        if cachedEng s w && shares w a v then
          s.onPool fun p => { p with waiting := (updFirst (fun u => u == v) (fun u => { u with eng := u.eng ++ [ref] }) p.waiting.reverse).reverse }
        else attempt none { a with eng := [ref] } (accepted a.req a.pa s)
      | none => attempt none { a with eng := [ref] } (accepted a.req a.pa s)

/-- A fault outcome, unless the companion is lost, when it is resolved at once with FAIL_TRANSLATION (R110). -/
def faultRes (s : State) (off : Nat) (k : FaultKind) : LineRes :=
  if s.lania.comp = .lost then .fail St.translation else .fault (off / frameBytes) k

/-- Read a piece of one pool line (R156, R157): from the core's cache, from an access already issued, or at the pool. -/
def poolRead (w : Who6) (off len : Nat) (s : State) : LineRes × State :=
  let ctx := (s.thread w.core w.thread).ctx
  match if cachedEng s w then cacheLine s w.core ctx (off / 128) else none with
  | some l => (.good (slice l.data (off % 128) len), s)
  | none =>
    match issuedAt s w (off - off % 128) false with
    | some l => (match l.res with
        | .good b => .good (slice b (off % 128) len)
        | r => r, s)
    | none =>
      let q := memCheck (engAsk s w off false none) s
      match q.1 with
      | .pool (.status x o) => (.good (slice (statusLine q.2 x) o len), q.2)
      | .pool (.at pa view) =>
        let m := poolMeets (off - off % 128) false (engReq q.2 w Op.read (off - off % 128) 128 0 []) (pa - pa % 128) view q.2
        match m.1 with
        | .good _ => (.good (Mem.read m.2.mem pa len), m.2)
        | r => (r, m.2)
      | .fault k => (faultRes q.2 off k, q.2)
      | .fail st => (.fail st, q.2)
      | .stall l => (.stall l, q.2)
      | .spad _ => (.fail St.protection, q.2)

/-- Translate an access to the window of another core (R201, R404), in the order of Table 4-1. -/
def windowCheck (w : Who6) (c off : Nat) (wr : Bool) (s : State) : (LineRes × Nat) × State :=
  match plotBar s (plotOfCore s w.core) with
  | some st => ((.fail st, 0), barCounted (engAsk s w off wr (some c)) st s)
  | none =>
  if (s.core c).resetting then ((.fail St.coreReset, 0), s)
  else if !coreOn s c then ((.fail St.state, 0), s)
  else if !ctxLive s (s.thread w.core w.thread).ctx then ((.fail St.translation, 0), s)
  else if corePlot s c != corePlot s w.core then ((.fail St.protection, 0), s)
  else
    let q := memCheck (engAsk s w off wr (some c)) s
    match q.1 with
    | .spad o => ((if inCode q.2 c o then .fail St.protection else .good [], o), q.2)
    | .fault k => ((faultRes q.2 off k, 0), q.2)
    | .fail st => ((.fail st, 0), q.2)
    | .stall l => ((.stall l, 0), q.2)
    | .pool _ => ((.fail St.protection, 0), q.2)

/-- Whether a node is the hub's pool, or one of its cores. -/
def hereCore (s : State) (node : Nat) : Option Nat :=
  if hubOf node = hubId s ∧ 0x80 ≤ lepOf node ∧ lepOf node < 0xC0 then some (lepOf node - 0x80) else none

/-- An access to a node this hub translates reaches the tiles of its thread's streams (R103). -/
def streamsMeet (w : Who6) (n off : Nat) (s : State) : State :=
  if n = nodeOf s 0xC0 ∨ (hereCore s n).isSome then prefetch w.core w.thread off s else s

/-- Read a piece of one line for a descriptor, with the remote lines that have arrived for it. -/
def readPiece (w : Who6) (got : List (Nat × Nat × Nat × List Byte)) (node : Option Nat) (off len : Nat)
    (s : State) : LineRes × State :=
  match node with
  | none =>
    if regionEnd s w.core < off + len then (.fail St.protection, s)
    else if badIn s w.core off len then (.fail St.check, s)
    else (.good (spadRead s w.core off len), s)
  | some n =>
    let s := streamsMeet w n off s
    if n = nodeOf s 0xC0 then poolRead w off len s
    else
      match hereCore s n with
      | some c =>
        let q := windowCheck w c off false s
        match q.1 with
        | (.good _, o) => (if badIn q.2 c o len then .fail St.check else .good (spadRead q.2 c o len), q.2)
        | (r, _) => (r, q.2)
      | none =>
        match got.find? fun g => g.1 == n && g.2.1 == off / 128 * 128 with
        | some g => (if g.2.2.1 = St.ok then .good (slice g.2.2.2 (off % 128) len) else .fail g.2.2.1, s)
        | none => (.need n (off / 128 * 128), s)

/-- Whether a piece covers its line. -/
def wholeLine (b : List (Option Byte)) : Bool := b.length == 128 && b.all Option.isSome
/-- Whether a store of a piece can be made now (R156, R157): into the core's cache, whose line must be there or be filled unless the
piece covers it, or at the pool. -/
def storePool (w : Who6) (off : Nat) (b : List (Option Byte)) (s : State) : LineRes × State :=
  let ctx := (s.thread w.core w.thread).ctx
  let cached := cachedEng s w
  let p := maskedWrite off b
  match issuedAt s w (if cached then off - off % 128 else off) true with
  | some l => (match l.res with
      | .good _ => .good []
      | r => r, s)
  | none =>
    let q := memCheck (engAsk s w off true none) s
    match q.1 with
    | .pool (.at pa view) =>
      if cached then
        if wholeLine b || (cacheLine q.2 w.core ctx (off / 128)).isSome then (.good [], q.2)
        else poolMeets (off - off % 128) true (engReq q.2 w Op.read (off - off % 128) 128 0 []) (pa - pa % 128) view q.2
      else poolMeets off true (engReq q.2 w p.1 p.2.1 p.2.2.1 0 p.2.2.2) (if p.1 = Op.writeMasked then pa - pa % 128 else pa) view q.2
    | .pool (.status _ _) => (.fail St.protection, q.2)
    | .fault k => (faultRes q.2 off k, q.2)
    | .fail st => (.fail st, q.2)
    | .stall l => (.stall l, q.2)
    | .spad _ => (.fail St.protection, q.2)

/-- Whether a store of a piece can be made now (R156, R157). -/
def storePiece (w : Who6) (node : Option Nat) (off : Nat) (b : List (Option Byte)) (s : State) : LineRes × State :=
  match node with
  | none => (if regionEnd s w.core < off + b.length then .fail St.protection else .good [], s)
  | some n =>
    let s := streamsMeet w n off s
    if n = nodeOf s 0xC0 then storePool w off b s
    else
      match hereCore s n with
      | some c =>
        let q := windowCheck w c off true s
        (q.1.1, q.2)
      | none => (.good [], s)

/-! The core data cache (R156). -/

/-- The write of a whole cache line back at the pool, as a request of a unit whose answer nothing waits for. -/
def lineWrite (s : State) (c : Nat) (l : CLine) : PoolWait :=
  let r : Req :=
  { via := .unit, op := Op.write,
    h := { plot := plotOfCore s c, len := 128, tag := 2 ^ 16, ctx := l.ctx, dst := nodeOf s 0xC0, src := nodeOf s (0x80 + c) },
    data := l.data }
  { acceptRec r (l.pline * 128) none s with epoch := l.epoch }
/-- A core writes a line back to the pool, as an access that the page's counter and the chip cache count (R122, R138). -/
def writeOut (c : Nat) (l : CLine) (s : State) : State :=
  let w := lineWrite s c l
  attempt none w (accepted w.req w.pa s)
/-- Drop a line of a core's cache. -/
def cacheDrop (c : Nat) (l : CLine) (s : State) : State :=
  s.onCore c fun x => { x with cache := x.cache.filter fun y => !(y.ctx == l.ctx && y.vline == l.vline) }
/-- Put a line into a core's cache in place of its former copy. -/
def cachePut (c : Nat) (l : CLine) (s : State) : State :=
  s.onCore c fun x => { x with cache := l :: (x.cache.filter fun y => !(y.ctx == l.ctx && y.vline == l.vline)) }
/-- The set of a core's data cache a line falls in: its virtual line number modulo the 512 sets (DESIGN CHOICE: R199 gives the lines and
the ways and not the index; log entry 11). -/
def dataSet (vline : Nat) : Nat := vline % 512
/-- Make room for a line: its set of 512 holds 8; a full set evicts a free choice, a dirty victim being written back
(R156; log entry 11). -/
def cacheRoom (c : Nat) (l : CLine) (s : State) : State :=
  let set := (s.core c).cache.filter fun y => dataSet y.vline == dataSet l.vline && !(y.ctx == l.ctx && y.vline == l.vline)
  if set.length < 8 then s
  else
    match set[Config.victim s.free % set.length]? with
    | none => s
    | some v =>
      let s := (cacheDrop c v s).drawn
      if v.dirty then writeOut c v s else s
/-- A line filled by an access issued after an INVAL or WBACK is no longer one of those it names (R158); `order`: the order of issue of
the descriptor that fills it. -/
def unrange (c ctx vline order : Nat) (s : State) : State :=
  s.onCore c fun k => { k with threads := k.threads.mapV fun _ x => { x with
    incs := x.incs.map fun i =>
      if i.order < order then { i with range := i.range.filter fun q => !(q.1 == ctx && q.2 == vline) } else i } }
/-- The order of issue of the descriptor that makes an access. -/
def orderOf (s : State) (w : Who6) : Nat := ((s.inc w.core w.thread w.seq).map Inc.order).getD 0
/-- Fill a line of a core's cache. -/
def cacheFill (w : Who6) (l : CLine) (s : State) : State :=
  let s := if (cacheLine s w.core l.ctx l.vline).isNone then unrange w.core l.ctx l.vline (orderOf s w) s else s
  cachePut w.core l (cacheRoom w.core l s)

/-- The data of a pool line as the last write accepted to it leaves it: a write-back of the line that still waits, or the memory (R153). -/
def lineNow (s : State) (line : Nat) : List Byte :=
  match (s.pool.waiting.filter fun v => v.pa / 128 == line && fullLine v.req.op v.req.h v.req.data && v.req.op == Op.write).getLast? with
  | some v => takePad 128 v.req.data
  | none => Mem.read s.mem (line * 128) 128
/-- The line of the pool at a virtual line of a thread's context, as a clean cache line. -/
def lineOf (w : Who6) (off pa epoch : Nat) (s : State) : CLine :=
  { ctx := (s.thread w.core w.thread).ctx, vline := off / 128, pline := pa / 128, data := lineNow s (pa / 128), dirty := false, epoch }
/-- Fill a core's cache with a line of the pool, unless a copy is there or an access to the line still waits (R153, R156). -/
def fillLine (w : Who6) (off pa epoch : Nat) (s : State) : State :=
  if (cacheLine s w.core (s.thread w.core w.thread).ctx (off / 128)).isSome || (lastWait s (pa / 128)).isSome then s
  else cacheFill w (lineOf w off pa epoch s) s

/-- Count an engine's access at its page (R138) and bring its line into the chip cache (R122). -/
def countLine (w : Who6) (pa : Nat) (s : State) : State :=
  let r : Req := { via := .unit, op := Op.read, h := { plot := plotOfCore s w.core } }
  chipAlloc (pa / 128) (plotOfCore s w.core) (accepted r pa s)

/-- Whether a node is another core of this hub: its lines are remote, the core's own scratchpad is not (R202). -/
def otherCore (s : State) (w : Who6) (n : Nat) : Bool := (hereCore s n).any fun c => c != w.core
/-- A read that proceeds fills the core's cache (R156) and counts as a remote line (R202). -/
def commitRead (w : Who6) (node : Option Nat) (off : Nat) (s : State) : State :=
  match node with
  | none => s
  | some n =>
    if n ≠ nodeOf s 0xC0 then (if otherCore s w n then bump 0xC40802 1 s else s)
    else if cachedEng s w && (cacheLine s w.core (s.thread w.core w.thread).ctx (off / 128)).isSome then s
    else if (issuedAt s w (off - off % 128) false).isSome then s
    else
      let q := memCheck (engAsk s w off false none) s
      match q.1 with
      | .pool (.at pa _) =>
        let s := bump 0xC40802 1 (countLine w pa q.2)
        if cachedEng s w then fillLine w off pa s.xlt.epoch s else s
      | _ => q.2

/-- A line with a piece stored in it. -/
def stored128 (off : Nat) (b : List (Option Byte)) (data : List Byte) : List Byte :=
  data.take (off % 128) ++ (b.zip (slice data (off % 128) b.length)).map (fun p => p.1.getD p.2) ++ data.drop (off % 128 + b.length)
/-- A descriptor has stored in a line that an access it issued has brought. -/
def storedIn (w : Who6) (ident : Nat) (s : State) : State :=
  s.onInc w.core w.thread w.seq fun i => { i with
    pool := updFirst (fun l => l.ident == ident) (fun l => { l with stored := true }) i.pool }
/-- Store a piece in the core's cache (R154, R156): the line is in flight under the epoch of the first store since it was clean (R112). -/
def cacheStore (w : Who6) (off : Nat) (b : List (Option Byte)) (old : CLine) (epoch : Nat) (s : State) : State :=
  cacheFill w { old with
    data := stored128 off b old.data, dirty := true, epoch := if old.dirty then old.epoch else epoch } s

/-- Make the store of a piece to the pool that can be made (R154, R156, R157). One translated before a shoot-down of its page goes to the
memory at once: its line is not kept (R114). -/
def commitPool (w : Who6) (off : Nat) (b : List (Option Byte)) (s : State) : State :=
  let ctx := (s.thread w.core w.thread).ctx
  match if cachedEng s w then issuedAt s w (off - off % 128) true else none with
  | some l =>
    let data := match l.ans with
      | some (_, d) => if l.stored || l.shot then lineNow s (l.pa / 128) else d
      | none => []
    let old := (cacheLine s w.core ctx (off / 128)).getD
      { ctx, vline := off / 128, pline := l.pa / 128, data, dirty := false, epoch := l.epoch }
    if l.shot then writeOut w.core { old with data := stored128 off b old.data, epoch := l.epoch } s
    else cacheStore w off b old l.epoch (storedIn w l.ident s)
  | none =>
    let q := memCheck (engAsk s w off true none) s
    let s := q.2
    match q.1 with
    | .pool (.at pa view) =>
      if cachedEng s w then
        match cacheLine s w.core ctx (off / 128) with
        | some l => cacheStore w off b l s.xlt.epoch s
        | none =>
          let s := bump 0xC40802 1 (if wholeLine b then s else countLine w pa s)
          cacheStore w off b (lineOf w off pa s.xlt.epoch s) s.xlt.epoch s
      else
        let p := maskedWrite off b
        let pa := if p.1 = Op.writeMasked then pa - pa % 128 else pa
        let r := { engReq s w p.1 p.2.1 p.2.2.1 0 p.2.2.2 with via := .unit }
        (effectAccess (acceptRec r pa view s) (bump 0xC40802 1 (accepted r pa s))).2
    | _ => s

/-- Store a piece in a core's scratchpad. -/
def spadRuns (c off : Nat) (b : List (Option Byte)) (s : State) : State := forAll (pieceRuns b) (fun p => spadStore c (off + p.1) p.2) s
/-- Make the store of a piece that can be made (R154, R156, R157). -/
def commitStore (w : Who6) (node : Option Nat) (off : Nat) (b : List (Option Byte)) (s : State) : State :=
  match node with
  | none => spadRuns w.core off b s
  | some n =>
    if n = nodeOf s 0xC0 then commitPool w off b s
    else
      match hereCore s n with
      | some c =>
        let q := windowCheck w c off true s
        spadRuns c q.1.2 b (if otherCore s w n then bump 0xC40802 1 q.2 else q.2)
      | none => s

end Sys2Proof.Machine
end

