-- ==== Sys2Proof/Machine/FurRun.lean ====
section
/-! DEFINITION. The common course of a descriptor (R199-R212, R216): engines, operands, gathering the lines it reads, parking, the
requests it sends, its stores, its completion, and the halting of its thread. -/

namespace Sys2Proof.Machine

/-! Engines (R199, R219). -/

/-- The tensor engines of a core that work. -/
def workingTes (k : Core) : List Nat := (List.range 4).filter fun i => !bitOf k.teRetired i
/-- The tensor engine that serves logical TE i: i modulo the count (R219). -/
def teOf (k : Core) (i : Nat) : Nat := (workingTes k).getD (i % (workingTes k).length) 0
/-- The engine of a descriptor (Table 8-6): 0-3 TE, 4 VE, 5 ME, 6 sequencer. -/
def engineOf (k : Core) (d : Desc) : Nat :=
  if d.op < 0x20 then 6 else if d.op < 0x30 then 5 else if d.op = 0x30 then teOf k d.te else 4
/-- The register and branch opcodes of the sequencer, which complete when they issue (R211). -/
def opRegister (op : Nat) : Bool :=
  [0x00, 0x01, 0x02, 0x03, 0x04, 0x05, 0x06, 0x0B, 0x0D].contains op

/-! Threads and their descriptors. -/

/-- Set an index register; X0 is discarded (R209). -/
def setX (c t i : Nat) (v : U64) (s : State) : State :=
  if i = 0 then s else s.onThread c t fun x => { x with xs := listSet x.xs (i - 1) v }
/-- What a descriptor works with: its core and thread, its program, itself, and its state as an issued descriptor. -/
structure Job where
  /-- Core. -/
  c : Nat
  /-- Thread. -/
  t : Nat
  /-- The program. -/
  prog : Prog
  /-- The descriptor. -/
  d : Desc
  /-- The issued descriptor. -/
  inc : Inc

/-- The engine a job runs on: its own, or the one that repeats it as a judge (Table 11-3). -/
def Job.engine (s : State) (j : Job) : Nat := j.inc.te.getD (engineOf (s.core j.c) j.d)
/-- The engine accesses of a job. -/
def Job.who (s : State) (j : Job) : Who6 := { core := j.c, thread := j.t, eng := j.engine s, seq := j.inc.seq }
/-- An index register as the job read it (R209). -/
def Job.x (j : Job) (i : Nat) : U64 := xreg j.inc.xs i

/-- The node of a tensor record: 0xC0 and 0x80 + c, as Table 8-4 writes them, are this hub's pool and cores; any other number is a node
number with its HUB field (R16; log entry 18). -/
def recordNode (s : State) (n : Nat) : Nat := if 0x80 ≤ n ∧ n ≤ 0xC0 then nodeOf s n else n

/-- The tile an operand addresses (R208, R209). -/
def Job.tile (s : State) (j : Job) (h : Nat) : Tile :=
  match j.prog.tensors[opdSlot h]? with
  | none => { node := none, off := 0, base := 0, rows := 0, cols := 0, stride := 0, tfmt := 0, tscale := 0, soff := 0 }
  | some r =>
    let base := r.base + if r.local_ && r.perThread then j.prog.dataBytes + j.t * j.prog.tlBytes else 0
    { node := if r.local_ then none
        else if opdNreg h = 0 then some (recordNode s r.node) else some ((j.x (opdNreg h)).toNat % 65536)
      off := (base + (j.x (opdIx h)).toNat * r.step) % 2 ^ 48
      base, rows := r.rows, cols := r.cols, stride := r.stride, tfmt := r.tfmt, tscale := r.tscale, soff := r.soff }

/-- The node a descriptor names: IMM2[15:0], or X[OPA.NREG][15:0] (R213). -/
def Job.node (j : Job) : Nat :=
  if opdNreg j.d.opa = 0 then j.d.imm2 % 65536 else (j.x (opdNreg j.d.opa)).toNat % 65536

/-! Lines read (R152, R202). -/

/-- The pieces of a byte range, each within one line of 128 bytes. -/
def cutLines : Nat → Nat → Nat → List (Nat × Nat)
  | 0, _, _ => []
  | n + 1, off, len =>
    if len = 0 then []
    else
      let k := min len (128 - off % 128)
      (off, k) :: cutLines n ((off + k) % 2 ^ 48) (len - k)
/-- The pieces of a range. -/
def spanCut (p : Span) : List (Nat × Nat) := cutLines (p.2.2 / 128 + 2) p.2.1 p.2.2

/-- The status of an access that is refused before it is issued: one of a Tilth test that is not LOCAL (R295), or one the memory translates
on a page whose fault was resolved as FAIL (R109). -/
def refusedAt (s : State) (j : Job) (node : Option Nat) (off : Nat) : Option Nat :=
  match node with
  | none => none
  | some n =>
    if testing s j.c then some St.protection
    else if n = nodeOf s 0xC0 ∨ (hereCore s n).isSome then
      (j.inc.refused.find? fun q => q.1 == off / frameBytes).map Prod.snd
    else none

/-- Read a piece of a line for a job. -/
def readLine (j : Job) (node : Option Nat) (off len : Nat) (s : State) : LineRes × State :=
  match refusedAt s j node off with
  | some st => (.fail st, s)
  | none => readPiece (j.who s) (j.inc.lines) node off len s

/-- Read the pieces of a range, in order. -/
def readSpan (j : Job) (p : Span) (s : State) : List LineRes × State :=
  (spanCut p).foldl (fun (z : List LineRes × State) q =>
    let r := readLine j p.1 q.1 q.2 z.2
    (z.1 ++ [r.1], r.2)) ([], s)
/-- Read ranges, in order. -/
def readSpans (j : Job) (ps : List Span) (s : State) : List (List LineRes) × State :=
  ps.foldl (fun (z : List (List LineRes) × State) p =>
    let r := readSpan j p z.2
    (z.1 ++ [r.1], r.2)) ([], s)

/-- The bytes of pieces that can be read. -/
def goodBytes (l : List LineRes) : List Byte :=
  (l.map fun r => match r with
    | .good b => b
    | _ => []).flatten
/-- The lines that must be asked for, each once. -/
def needed (l : List LineRes) : List (Nat × Nat) :=
  (l.filterMap fun r => match r with
    | .need n o => some (n, o)
    | _ => none).eraseDups
/-- Whether a piece keeps its descriptor parked. -/
def LineRes.parks : LineRes → Bool
  | .fault _ _ => true
  | .stall _ => true
  | .hold _ _ _ => true
  | .pending => true
  | _ => false
/-- Whether a piece meets a fault, or its translation waits: its access has not been issued. -/
def LineRes.unissued : LineRes → Bool
  | .fault _ _ => true
  | .stall _ => true
  | _ => false
/-- Whether a piece fails. -/
def LineRes.fails : LineRes → Bool
  | .fail _ => true
  | _ => false
/-- The first piece that cannot proceed. -/
def firstBad (l : List LineRes) : Option LineRes := l.find? fun r => match r with
  | .good _ => false
  | _ => true
/-- A line whose pieces are to be taken together: the first that parks it, else its first failure, else its bytes. -/
def joinLine (l : List LineRes) : LineRes :=
  match l.find? LineRes.parks with
  | some r => r
  | none => (firstBad l).getD (.good (goodBytes l))

/-! Completion and halting (R212, R217). -/

/-- The thread record (Table 8-7). -/
def Thread.image (x : Thread) (time : Nat) : List Byte :=
  natLe 4 (x.status + 2 ^ 8 * b2n x.halted + 2 ^ 16 * x.desc) ++ natLe 4 x.linesDone ++ natLe 4 x.linesFailed ++ natLe 4 0 ++
  x.report.image ++ natLe 8 time ++ List.replicate 24 0

/-- Free the slot a thread holds CLAIMED (R207). -/
def unclaim (c t : Nat) (s : State) : State :=
  match (s.thread c t).claimed with
  | none => s
  | some (q, i) =>
    (s.onCore c fun x => { x with slots := x.slots.erase (1024 * q + i) }).onThread c t fun x => { x with claimed := none }

/-- A thread halts (R212): its record is kept, a failure raises FUR_THREAD_FAILED; a core without a running thread is LOADED
(Table 8-8; log entry 19), unless it was EMPTY and ran a Tilth test (R295). -/
def haltThread (c t : Nat) (s : State) : State :=
  let s := (unclaim c t s).onThread c t fun x => { x with running := false, ending := false, halted := true, time := s.now }
  let s := if testing s c || (s.core c).threads.any fun kt => kt.2.running then s else s.onCore c fun x => { x with st := .loaded }
  let x := s.thread c t
  if x.status = St.ok then s else raise 0x7106 [c, t, x.status, x.desc] s

/-- A thread that issues nothing more halts once its descriptors are complete (R212). -/
def haltCheck (c t : Nat) (s : State) : State :=
  let x := s.thread c t
  if x.running && x.ending && x.incs.isEmpty then haltThread c t s else s

/-- A thread takes a status (R212): the first that is not OK is kept, with its descriptor and line counts. -/
def takeStatus (c t idx status done failed : Nat) (cont : Bool) (s : State) : State :=
  if status = St.ok then s
  else s.onThread c t fun x =>
    let x := if x.status = St.ok then { x with status, desc := idx, linesDone := done, linesFailed := failed } else x
    { x with ending := x.ending || !cont }

/-- A descriptor is complete with a status (R154, R212). -/
def finishInc (c t seq status : Nat) (rep : ArithReport) (s : State) : State :=
  match s.inc c t seq, (s.core c).prog with
  | some i, some p =>
    let cont := (p.descs[i.idx]?.map Desc.cont).getD false
    let s := s.onThread c t fun x => { x with incs := x.incs.filter (fun y => y.seq != seq), report := (x.report.add rep).cap }
    haltCheck c t (takeStatus c t i.idx status i.done i.failed cont s)
  | _, _ => s

/-! Parking (R203, R104). -/

/-- A descriptor waits. -/
def park (j : Job) (w : IncWait) (s : State) : State := s.onInc j.c j.t j.inc.seq fun i => { i with wait := w }

/-- Issue the accesses of pieces that must wait at the pool, as far as there are line slots (R112, R202). -/
def issueHolds (j : Job) (l : List LineRes) (s : State) : State :=
  forAll l (fun r s =>
    match r with
    | .hold off wr a => if (issuedAt s (j.who s) off wr).isSome then s else issueLine (j.who s) none off wr a s
    | _ => s) s

/-- A descriptor parks on a piece that faults, whose translation waits, or that waits at the pool. -/
def parkOn (j : Job) (r : LineRes) (wr : Bool) (s : State) : State :=
  match r with
  | .fault page k =>
    raiseFault { core := j.c, thread := j.t, engine := (j.who s).eng } (s.thread j.c j.t).ctx page k wr (park j (.fault page) s)
  | .stall l => park j (.walk l s.xlt.epoch) s
  | _ => park j .pool s

/-- Pieces that cannot all proceed: what waits at the pool is issued, and the descriptor parks on the first that faults or stalls, or at
the pool. -/
def parkAll (j : Job) (l : List LineRes) (wr : Bool) (s : State) : State :=
  parkOn j ((l.find? LineRes.unissued).getD .pending) wr (issueHolds j l s)

/-! Requests (R202). -/

/-- Whether a descriptor may send its next request (R202): a line slot is free, and in queue-order mode nothing earlier of its queue is
unanswered (R160). -/
def maySend (s : State) (c t : Nat) (i : Inc) : Bool :=
  decide (linesHeld s c t < 32) && (!queueOrder s c || (i.asked.isEmpty && i.pool.all fun l => !l.open_))

/-- Give a thread's oldest unsent requests their line slots, at most 32 at a time (R202). -/
def sendTodo (c t : Nat) : Nat → State → State
  | 0, s => s
  | n + 1, s =>
    match (s.thread c t).incs.find? fun i => !i.todo.isEmpty && maySend s c t i with
    | none => s
    | some i =>
      match i.todo with
      | [] => s
      | (line, r) :: rest =>
        let tag := t * 4096 + (s.thread c t).nextTag % 4096
        let r := { r with via := .core c t, h := { r.h with tag } }
        let s := s.onThread c t fun x => { x with nextTag := x.nextTag + 1 }
        let s := s.onInc c t i.seq fun y => { y with
          todo := rest, asked := y.asked ++ [(tag, line, r.h.dst, r.h.opa.toNat)] }
        sendTodo c t n (serve r s)
/-- Send what a thread can. -/
def sendAll (c t : Nat) (s : State) : State := sendTodo c t 32 s

/-- A request of a job to a node in its thread's context. -/
def Job.req (s : State) (j : Job) (node op off len opb : Nat) (data : List Byte) : Req :=
  let r := engReq s (j.who s) op off len opb data
  { r with h := { r.h with dst := node } }

/-- Ask for lines of other memories: a READ of each (R202). -/
def askLines (j : Job) (l : List (Nat × Nat)) (s : State) : State :=
  let rs := l.map fun q => (0, j.req s q.1 Op.read q.2 128 0 [])
  let s := s.onInc j.c j.t j.inc.seq fun i => { i with wait := .replies, todo := i.todo ++ rs }
  sendAll j.c j.t (bump 0xC40802 l.length s)

/-- Issue requests whose answers complete the descriptor. -/
def askAll (j : Job) (rs : List (Nat × Req)) (s : State) : State :=
  let s := s.onInc j.c j.t j.inc.seq fun i => { i with wait := .replies, wrote := true, todo := i.todo ++ rs }
  sendAll j.c j.t s

/-! Stores (R154, R216). -/

/-- A store to one line: what it stores, or why the line cannot be stored. -/
structure Store where
  /-- Node; none: the scratchpad. -/
  node : Option Nat
  /-- Offset. -/
  off : Nat
  /-- The bytes from the offset, none where a byte is left as it is. -/
  data : List (Option Byte)
  /-- What keeps the line from being stored. -/
  bad : Option LineRes := none

/-- Cut a write into stores of one line each. -/
def storesOf (w : Option Nat × Nat × List Byte) : List Store :=
  (linePieces (w.2.2.length / 128 + 2) w.2.1 w.2.2).map fun p => { node := w.1, off := p.1 % 2 ^ 48, data := p.2.map some }

/-- A piece as its whole line of 128 bytes, and the line without the bytes at its ends that are left as they are. -/
def Store.spread (x : Store) : List (Option Byte) :=
  List.replicate (x.off % 128) none ++ x.data ++ List.replicate (128 - x.off % 128 - x.data.length) none
/-- Two stores to one line as one, the second over the first; a line one of whose pieces is bad is bad (R216). -/
def Store.over (x y : Store) : Store :=
  let l := (x.spread.zip y.spread).map fun p => p.2.orElse fun _ => p.1
  { node := x.node, off := x.off - x.off % 128 + (l.takeWhile Option.isNone).length
    data := ((l.dropWhile Option.isNone).reverse.dropWhile Option.isNone).reverse
    bad := x.bad.orElse fun _ => y.bad }
/-- Whether two stores are to one line. -/
def Store.meets (x y : Store) : Bool := x.node == y.node && x.off / 128 == y.off / 128
/-- The stores of a descriptor as one for each destination line, in the order in which the lines are first met (R216). -/
def mergeStores (l : List Store) : List Store :=
  l.foldl (fun z x => if z.any (Store.meets x) then z.map fun y => if y.meets x then y.over x else y else z ++ [x]) []

/-- Whether a store can be made now: what is to be stored, or what keeps it. -/
def probeStore (j : Job) (x : Store) (s : State) : Store × State :=
  if x.bad.isSome then (x, s)
  else
    match refusedAt s j x.node x.off with
    | some st => ({ x with bad := some (.fail st) }, s)
    | none =>
      let q := storePiece (j.who s) x.node x.off x.data s
      match q.1 with
      | .good _ => (x, q.2)
      | r => ({ x with bad := some r }, q.2)
/-- Probe stores in order. -/
def probeStores (j : Job) (l : List Store) (s : State) : List Store × State :=
  l.foldl (fun (z : List Store × State) x =>
    let r := probeStore j x z.2
    (z.1 ++ [r.1], r.2)) ([], s)

/-- A line has an outcome (R216): counted, and the lowest-numbered failing line gives its status. -/
def Inc.outcome (i : Inc) (line st : Nat) : Inc :=
  if st = St.ok then { i with done := i.done + 1 }
  else { i with
    failed := i.failed + 1
    low := if i.failed = 0 then line else min i.low line
    status := if i.failed = 0 ∨ line < i.low then st else i.status }

/-- Whether a node is reached by a request rather than by the engine itself. -/
def farNode (s : State) (node : Option Nat) : Option Nat :=
  match node with
  | none => none
  | some n => if n = nodeOf s 0xC0 ∨ (hereCore s n).isSome then none else some n

/-- A line of a descriptor has an outcome (R216), and is no longer to be stored. -/
def lineDone (j : Job) (line off st : Nat) (s : State) : State :=
  s.onInc j.c j.t j.inc.seq fun i => { i.outcome line st with rest := i.rest.filter fun y => !(y.line == line && y.off == off) }
/-- A store leaves the list of those still to be made: it is sent, or issued to the pool. -/
def storeGone (j : Job) (x : StoreRec) (s : State) : State :=
  s.onInc j.c j.t j.inc.seq fun i => { i with rest := i.rest.filter fun y => !(y.line == x.line && y.off == x.off) }

/-- Try one store that a descriptor has still to make: it is made, sent, issued to the pool, fails, or stays with what keeps it. -/
def storeOne (j : Job) (x : StoreRec) (s : State) : LineRes × State :=
  match refusedAt s j x.node x.off with
  | some st => (.good [], lineDone j x.line x.off st s)
  | none =>
    match farNode s x.node with
    | some n =>
      let p := maskedWrite x.off x.data
      (.good [], bump 0xC40802 1 ((storeGone j x s).onInc j.c j.t j.inc.seq fun i => { i with
        todo := i.todo ++ [(x.line, j.req s n p.1 p.2.1 p.2.2.1 0 p.2.2.2)] }))
    | none =>
      let w := j.who s
      let q := storePiece w x.node x.off x.data s
      match q.1 with
      | .good _ => (.good [], lineDone j x.line x.off St.ok (commitStore w x.node x.off x.data q.2))
      | .fail st => (.good [], lineDone j x.line x.off st q.2)
      | .hold off wr a =>
        if cachedEng q.2 w then (.pending, issueLine w none off wr a q.2)
        else
          let s := issueLine w (some x.line) off wr a q.2
          if (issuedAt s w off wr).isSome then (.pending, storeGone j x s) else (.pending, s)
      | r => (r, q.2)

/-- Whether a descriptor's earlier accesses keep its next store from being tried in queue-order mode (R160). -/
def storeHeld (s : State) (j : Job) : Bool :=
  queueOrder s j.c && match s.inc j.c j.t j.inc.seq with
    | some i => !(i.asked.isEmpty && i.todo.isEmpty && i.pool.all fun l => !l.open_)
    | none => false

/-- Try the stores a descriptor has still to make, in line order; the first fault or stalled translation met. In queue-order mode one
that stays keeps the later ones back (R160). -/
def storeSome (j : Job) : List StoreRec → LineRes → State → LineRes × State
  | [], r, s => (r, s)
  | x :: l, r, s =>
    if storeHeld s j then (r, s)
    else
      let q := storeOne j x s
      let stays := match q.1 with
        | .good _ => false
        | _ => true
      let r := if r.unissued then r else if q.1.unissued then q.1 else r
      if stays && queueOrder s j.c then (r, q.2) else storeSome j l r q.2

/-- The outcomes of a descriptor's lines that the pool has answered are counted (R216). -/
def takeOutcomes (i : Inc) : Inc :=
  let l := i.pool.filter fun l => l.line.isSome && !l.taken && !l.open_
  let i := l.foldl (fun i l => i.outcome (l.line.getD 0) ((l.ans.map Prod.fst).getD St.ok)) i
  { i with pool := i.pool.map fun l => if l.line.isSome && !l.open_ then { l with taken := true } else l }

/-- Whether nothing of a descriptor's stores is outstanding. -/
def Inc.storesDone (i : Inc) : Bool := i.rest.isEmpty && i.todo.isEmpty && i.asked.isEmpty && i.pool.all fun l => !l.open_

/-- A descriptor goes on with the stores it has still to make; once none is outstanding it is complete with the status of the
lowest-numbered failing line (R154, R216). -/
def storeRest (j : Job) (s : State) : State :=
  match s.inc j.c j.t j.inc.seq with
  | none => s
  | some i =>
    let q := storeSome j i.rest .pending s
    let s := q.2.onInc j.c j.t j.inc.seq takeOutcomes
    match s.inc j.c j.t j.inc.seq with
    | none => s
    | some i =>
      if i.storesDone then finishInc j.c j.t i.seq i.status i.rep s
      else
        sendAll j.c j.t (if q.1.unissued then parkOn j q.1 true s
          else park j (if i.rest.isEmpty && i.pool.all (fun l => !l.open_) then .replies else .pool) s)

/-- A descriptor makes its stores, each line for itself (R216): those that have failed already count as failed lines. -/
def makeStores (j : Job) (l : List Store) (rep : ArithReport) (s : State) : State :=
  let rest := (l.zipIdx.filter fun p => p.1.bad.isNone).map fun p =>
    { line := p.2, node := p.1.node, off := p.1.off, data := p.1.data : StoreRec }
  let s := s.onInc j.c j.t j.inc.seq fun i => { i with wrote := true, rep, rest }
  storeRest j (forAll l.zipIdx (fun p s => match p.1.bad with
    | some (.fail st) => s.onInc j.c j.t j.inc.seq fun i => i.outcome p.2 st
    | _ => s) s)

/-- The answer to a request whose outcome counts (R216). -/
def replied (c t seq line status : Nat) (s : State) : State :=
  match s.inc c t seq with
  | none => s
  | some i =>
    let i := i.outcome line status
    let s := s.onInc c t seq fun _ => i
    if i.storesDone then finishInc c t seq i.status i.rep s
    else if i.asked.isEmpty && i.todo.isEmpty && i.wait == .replies then s.onInc c t seq fun y => { y with wait := .pool }
    else s

/-! Answers of the pool (R112, R202). -/

/-- The lines the pool has answered for a descriptor reach its core's cache (R156). -/
def takeFills (w : Who6) (s : State) : State :=
  match s.inc w.core w.thread w.seq with
  | none => s
  | some i =>
    let l := i.pool.filter fun l => l.line.isNone && !l.taken && !l.open_
    let s := s.onInc w.core w.thread w.seq fun i => { i with
      pool := i.pool.map fun l => if l.line.isNone && !l.open_ then { l with taken := true } else l }
    forAll l (fun l s => if cachedEng s w && !l.shot && (l.ans.map Prod.fst) == some St.ok
      then fillLine w l.off l.pa l.epoch s else s) s

end Sys2Proof.Machine
end

