-- ==== Sys2Proof/Machine/FurOps.lean ====
section
/-! DEFINITION. What each opcode that accesses memory or another unit does once issued (R155, R157, R158, R205-R207, R213-R216,
R255-R263, R281-R289). -/

namespace Sys2Proof.Machine

open Sys2Proof.Arith

/-! Arithmetic and integrity opcodes: what they read, and what they yield. -/

/-- Rounding, seed key and probe interval of a job. -/
def Job.mode (j : Job) : Mode := { rnd := j.d.rnd, key := j.d.imm64, probe := j.inc.probe }
/-- All element bytes of a tile, row after row. -/
def rowSpans (t : Tile) : List Span := (List.range t.rows).map fun r => (t.node, t.row r, t.rowBytes)
/-- Address of the check value array of BCHECK: at the signed offset IMM2 from A's address (R281). -/
def bcheckAt (j : Job) (a : Tile) : Nat := (((a.off : Int) + signed 32 j.d.imm2) % 2 ^ 48).toNat

/-- The ranges an arithmetic or integrity opcode reads, and its result as a function of their bytes (Table 8-6). -/
def planOf (s : State) (j : Job) : List Span × (List (List Byte) → Out) :=
  let m := j.mode
  let a := j.tile s j.d.opa
  let b := j.tile s j.d.opb
  let c := j.tile s j.d.opc
  let d := j.tile s j.d.opd
  let na := a.spans.length
  let nb := b.spans.length
  let da (l : List (List Byte)) : TData := { t := a, bytes := l.take na }
  let db (l : List (List Byte)) : TData := { t := b, bytes := (l.drop na).take nb }
  let dc (l : List (List Byte)) : TData := { t := c, bytes := l.drop (na + nb) }
  if j.d.op = 0x30 then
    let old := if bitOf j.d.sub 2 then d.imageSpans else if bitOf j.d.sub 1 then d.spans else []
    (a.spans ++ b.spans ++ old, fun l => evalDot m j.d.sub (da l) (db l) (l.drop (na + nb)) d)
  else if j.d.op = 0x31 then (a.spans, fun l => evalReduce m j.d.sub (da l) d)
  else if j.d.op = 0x32 then (a.spans ++ b.spans, fun l => evalEwise m j.d.sub (da l) (db l) d)
  else if j.d.op = 0x33 then (a.spans ++ b.spans, fun l => evalScale m (da l) (db l) d)
  else if j.d.op = 0x34 then
    if bitOf j.d.sub 0 then (a.imageSpans, fun l => evalQuantImages m l d) else (a.spans, fun l => evalQuant m (da l) d)
  else if j.d.op = 0x35 ∨ j.d.op = 0x3A then (a.spans, fun l => evalCast m (da l) d)
  else if j.d.op = 0x36 then
    let v := if j.d.imm % 16 = 0 then a.cols else (j.x (j.d.imm % 16)).toNat
    (a.spans ++ b.spans ++ c.spans, fun l => evalSmaxp m (da l) (db l) (dc l) d v)
  else if j.d.op = 0x37 then (a.spans, fun l => evalTopk m (da l) d c j.d.imm)
  else if j.d.op = 0x38 then
    (a.imageSpans ++ b.imageSpans, fun l => evalAccadd (l.take a.rows) (l.drop a.rows) d)
  else if j.d.op = 0x39 then (a.spans, fun l => evalDecode (da l) d (signed 16 j.d.imm))
  else if j.d.op = 0x40 then
    let rows := rowSpans a
    let n := a.rows * a.rowBytes
    if j.d.sub = 1 then (rows, fun l => evalBcheck true a l.flatten [] (bcheckAt j a))
    else (rows ++ [(a.node, bcheckAt j a, 8 * blocksOf n)],
      fun l => evalBcheck false a (l.take a.rows).flatten (l.drop a.rows).flatten (bcheckAt j a))
  else if j.d.op = 0x41 then (a.spans, fun l => evalRcheck (da l) j.d.imm2 j.d.imm3)
  else if j.d.op = 0x42 then (a.spans ++ d.imageSpans, fun l => evalLcheck (da l) (l.drop na))
  else (rowSpans a, fun l => { writes := [(d.node, d.off, digestOf l.flatten)] })

/-! Checks (R283, R286-R289, Table 11-3). -/

/-- Whether the hardware checks the result of this execution, so that an upset of the engine shows (R283, Table 11-2). -/
def autoChecked (j : Job) (l : List (List Byte)) (s : State) : Bool :=
  if j.d.op = 0x30 ∨ j.d.op = 0x39 ∨ j.d.op = 0x34 ∨ j.d.op = 0x36 ∨ j.d.op = 0x37 then true
  else if j.d.op = 0x31 then j.d.sub != 0
  else if j.d.op = 0x38 then
    let a := j.tile s j.d.opa
    (List.range a.rows).all fun r => (List.range a.cols).all fun c => (imageAt (l.take a.rows) r c).h == (imageAt (l.drop a.rows) r c).h
  else false
/-- Whether a descriptor is a check descriptor (R287). -/
def opCheck (d : Desc) : Bool := (d.op == 0x40 && d.sub == 0) || d.op == 0x41 || d.op == 0x42

/-- The lowest DEP bit set. -/
def lowestDep (d : Desc) : Option Nat := (List.range 16).find? fun k => bitOf d.dep k
/-- The producer of a check descriptor: order of issue, index and registers (R287). -/
def producerOf (s : State) (j : Job) : Option (Nat × Nat × List U64) :=
  match lowestDep j.d with
  | none => none
  | some k => if j.inc.seq < k + 1 then none else (s.thread j.c j.t).recent.find? fun r => r.1 == j.inc.seq - 1 - k

/-- The ranges a descriptor writes, as far as its operands tell; a SOW writes at end points, and may meet a source there. -/
def destSpans (s : State) (j : Job) : List Span :=
  let a := j.tile s j.d.opa
  let d := j.tile s j.d.opd
  if j.d.op = 0x0C then [(d.node, d.off, 64)]
  else if j.d.op = 0x11 then [(a.node, a.off, fmtWidth (j.d.imm2 % 16))]
  else if j.d.op < 0x20 ∨ j.d.op = 0x24 ∨ opCheck j.d then []
  else if j.d.op = 0x23 then { d with node := a.node }.spans
  else if j.d.op = 0x38 ∨ j.d.op = 0x39 ∨ (j.d.op = 0x30 ∧ bitOf j.d.sub 2) then d.imageSpans
  else if j.d.op = 0x43 then [(d.node, d.off, 64)]
  else if j.d.op = 0x40 then [(a.node, bcheckAt j a, 8 * blocksOf (a.rows * a.rowBytes))]
  else d.spans ++ (if j.d.op = 0x36 then (j.tile s j.d.opb).spans ++ (j.tile s j.d.opc).spans
    else if j.d.op = 0x37 then (j.tile s j.d.opc).spans else [])
/-- The ranges of memory a descriptor reads. -/
def inputSpans (s : State) (j : Job) : List Span :=
  let a := j.tile s j.d.opa
  if j.d.op = 0x07 then [(a.node, a.off, 8)]
  else if j.d.op = 0x11 then [(a.node, a.off, fmtWidth (j.d.imm2 % 16))]
  else if j.d.op < 0x20 ∨ j.d.op = 0x25 then []
  else if j.d.op < 0x30 then a.spans ++ (if j.d.op = 0x21 ∨ j.d.op = 0x22 then (j.tile s j.d.opb).spans else [])
  else (planOf s j).1
/-- Whether two ranges share a byte. -/
def meets (p q : Span) : Bool :=
  p.1 == q.1 && decide (p.2.1 < q.2.1 + q.2.2) && decide (q.2.1 < p.2.1 + p.2.2) && p.2.2 != 0 && q.2.2 != 0
/-- Whether a descriptor reads the register or the counter that it writes: LOOP, an XOP onto one of its operands, SIGNAL and SIGMAX
(R289; log entry 20). -/
def readsOwn (d : Desc) : Bool :=
  d.op == 0x03 || d.op == 0x0A || d.op == 0x12 ||
    (d.op == 0x06 && opdIx d.opd != 0 && ((opdIx d.opd == opdIx d.opa && d.sub != 0) || opdIx d.opd == opdIx d.opb))
/-- Whether a producer can be repeated (R289): it does not read its own destination. -/
def repeatable (s : State) (j : Job) : Bool :=
  !readsOwn j.d && !((inputSpans s j).any fun p => (destSpans s j).any (meets p)) &&
    !(j.d.op == 0x30 && (bitOf j.d.sub 1 || bitOf j.d.sub 2))

/-- The job of a descriptor that has been issued. -/
def jobOf (s : State) (c t : Nat) (i : Inc) : Option Job :=
  match (s.core c).prog with
  | none => none
  | some p => (p.descs[i.idx]?).map fun d => { c, t, prog := p, d, inc := i }
/-- The job that repeats a producer, on a given tensor engine or on its own. -/
def producerJob (s : State) (j : Job) (te : Option Nat) : Option Job :=
  match producerOf s j with
  | none => none
  | some (n, ix, xs) => jobOf s j.c j.t { seq := n, idx := ix, xs, wait := .turn, probe := j.inc.probe, te }

/-- The engine that R288 judges for a descriptor: a check descriptor's is its producer's. -/
def judged (s : State) (j : Job) : Nat :=
  let e (q : Job) : Nat := engineOf (s.core q.c) q.d
  if opCheck j.d then ((producerJob s j none).map e).getD 4 else e j
/-- The kind of a check, as CHK_TRANSIENT and CHK_DATA_FAULT give it: the opcode of the descriptor. -/
def checkKind (j : Job) : Nat := j.d.op

/-- A descriptor ends with FAIL_CHECK (R288, R289). -/
def dataFault (j : Job) (unrepeatable : Bool) (rep : ArithReport) (s : State) : State :=
  let s := raise 0xA105 [j.c, j.inc.idx, checkKind j, b2n unrepeatable] (bump 0xC40B07 1 s)
  finishInc j.c j.t j.inc.seq St.check rep s

/-! Retirement of engines (R219, R220, R288, R290). -/

/-- The hub orders a core reset (R220, R403): it runs in its turn. -/
def orderReset (c : Nat) (s : State) : State :=
  if s.boot.rstQueue.any fun q => q.1 == c then s else s.onBoot fun b => { b with rstQueue := b.rstQueue ++ [(c, true)] }

/-- An engine of a core is retired (R219), or lost, so that the core is reset and replaced (R220). -/
def retireEngine (c e cause : Nat) (s : State) : State :=
  let last := e < 4 && decide ((workingTes (s.core c)).length ≤ 1)
  let s := s.onCore c fun k =>
    if e < 4 then { k with teRetired := k.teRetired ||| 2 ^ e } else if e = 4 then { k with ve := false }
    else if e = 5 then { k with me := false } else { k with seqOk := false }
  let s := raise 0x7103 [c, e, cause] (bump 0xC40807 1 s)
  if last || decide (4 ≤ e) then orderReset c s else s

/-- A transient of an engine is counted in its day of device time; one too many retires it (R290). -/
def countTransient (c e : Nat) (s : State) : State :=
  let day := s.now / 86400000000000
  let s := s.onChk fun k => if k.day = day then k else { k with day, transients := [] }
  let n := s.chk.transients.getD (8 * c + e) 0 + 1
  let s := s.onChk fun k => { k with transients := k.transients.set (8 * c + e) n }
  if cfg 0xA02001 8 s < n then retireEngine c e 4 s else s
/-- A transient of a check (R288). -/
def transient (c e kind idx : Nat) (s : State) : State :=
  countTransient c e (raise 0xA104 [c, e, kind, idx] (bump 0xC40B06 1 s))

/-! Running an arithmetic or integrity descriptor. -/

/-- Who an operation belongs to, for its counters. -/
def Job.owner (s : State) (j : Job) : Who := { plot := plotOfCore s j.c, core := j.c, unit := j.c, num := j.inc.idx }

/-- The lines that ranges touch, each once (R202). -/
def linesOf (ps : List Span) : List (Option Nat × Nat) :=
  (ps.flatMap fun p => (spanCut p).map fun q => (p.1, q.1 - q.1 % 128)).eraseDups
/-- The reads of a descriptor proceed: lines fill the core's cache and are counted. -/
def commitSpans (j : Job) (ps : List Span) (s : State) : State :=
  forAll (linesOf ps) (fun p => commitRead (j.who s) p.1 p.2) s

/-- The counters of a result (R196, R198). -/
def accountOut (w : Who) (o : Out) (s : State) : State :=
  forAll o.encs (fun e => forAll e.2.probes (probeOne w e.1)) (countReport w o.rep s)

/-- A result is stored once no line of it faults (R154): a failing line fails the descriptor; a line that must wait is stored when the
pool has answered. -/
def storeOut (j : Job) (ps : List Span) (o : Out) (s : State) : State :=
  let l := mergeStores (o.writes.flatMap storesOf)
  let q := probeStores j l s
  let ls := q.1.filterMap Store.bad
  match ls.find? LineRes.unissued with
  | some r => parkOn j r true q.2
  | none =>
    match ls.find? LineRes.fails with
    | some (.fail st) => finishInc j.c j.t j.inc.seq st {} q.2
    | _ => makeStores j l o.rep (accountOut (j.owner s) o (commitSpans j ps q.2))

/-- The data of ranges a descriptor needs at once, or the state in which it waits, or the status with which it fails. -/
def gatherSpans (j : Job) (ps : List Span) (s : State) : Except (State) (List (List Byte) × State) :=
  let q := readSpans j ps s
  let ls := q.1.flatten
  if !(needed ls).isEmpty then .error (askLines j (needed ls) (issueHolds j ls q.2))
  else if ls.any LineRes.parks then .error (parkAll j ls false q.2)
  else
    match firstBad ls with
    | some (.fail st) => .error (finishInc j.c j.t j.inc.seq st {} q.2)
    | _ => .ok (q.1.map goodBytes, q.2)

/-- Whether an execution fails its check: a hardware upset of a checked operation, or the data itself. -/
def outFails (j : Job) (l : List (List Byte)) (o : Out) (s : State) : Bool :=
  (j.inc.upset && autoChecked j l s) || o.fails

/-! Repetition and judgement (R288, R289, Table 11-3). -/

/-- The cache lines of a core in a range of a context, by context and virtual line: those it holds, and those that accesses already
issued will fill (R158); none: every line. -/
def rangeKeys (s : State) (c ctx : Nat) (range : Option (Nat × Nat)) : List (Nat × Nat) :=
  let mine (q : Nat × Nat) : Bool := match range with
    | none => true
    | some (off, n) => q.1 == ctx && decide (off / 128 ≤ q.2) && decide (q.2 < off / 128 + n)
  let held := (s.core c).cache.map fun l => (l.ctx, l.vline)
  let coming := (s.core c).threads.flatMap fun kt => kt.2.incs.flatMap fun i =>
    (i.pool.filter PoolLine.open_).map fun l => (kt.2.ctx, l.off / 128)
  ((held ++ coming).filter mine).eraseDups

/-- The range an INVAL or WBACK names, as it stands when the descriptor issues (R158). -/
def flushKeys (s : State) (j : Job) : List (Nat × Nat) :=
  if j.d.op = 0x13 ∨ j.d.op = 0x14 then
    rangeKeys s j.c (s.thread j.c j.t).ctx (if j.d.sub = 1 then none else some ((j.tile s j.d.opa).off, j.d.imm))
  else []

/-- The producer of a check descriptor issues again, on a given tensor engine or on its own. -/
def reissue (j p : Job) (s : State) : State :=
  let s := if p.d.op = 0x10 then unclaim j.c j.t s else s
  s.onThread j.c j.t fun x => { x with incs := { p.inc with range := flushKeys s p } :: x.incs }
/-- A check of a descriptor fails (R288): its thread stays parked while the operation is repeated; a check descriptor's producer
is issued again first, or it fails at once when that cannot be repeated (R289). -/
def checkFails (j : Job) (rep : ArithReport) (s : State) : State :=
  let s := if rep.ovf then raise 0x7102 [plotOfCore s j.c, j.c, j.inc.idx] (bump 0xC40709 1 s) else s
  let s := s.onInc j.c j.t j.inc.seq fun i => { i with upset := false }
  if opCheck j.d then
    match producerJob s j none with
    | none => dataFault j true {} s
    | some p => if repeatable s p then reissue j p (park j .repeat_ s) else dataFault j true {} s
  else park j .repeat_ s

/-- Whether a tensor engine is judged by another of its core (Table 11-3). -/
def judgedByTe (s : State) (c e : Nat) : Bool := decide (e < 4) && decide (1 < (workingTes (s.core c)).length)
/-- The next working tensor engine above one, wrapping at the count (Table 11-3). -/
def nextTe (k : Core) (e : Nat) : Nat := ((workingTes k).find? fun i => decide (e < i)).getD ((workingTes k).headD 0)
/-- A check fails again (R288): the engine is judged; a tensor engine by the next one, on which a check descriptor's producer issues
again. A move engine or a sequencer is not judged. -/
def judgeBegins (j : Job) (ovf : Bool) (s : State) : State :=
  let e := judged s j
  if e = 5 ∨ e = 6 then dataFault j false { ovf } s
  else
    let s := park j .judge s
    if judgedByTe s j.c e && opCheck j.d then
      match producerJob s j (some (nextTe (s.core j.c) e)) with
      | some p => reissue j p s
      | none => s
    else s

/-- The operation has run again on the same engine (R288): it passes, and was transient, or the engine is judged. -/
def repeatEnds (j : Job) (ps : List Span) (o : Out) (s : State) : State :=
  if j.inc.sound && !o.fails then storeOut j ps o (transient j.c (judged s j) (checkKind j) j.inc.idx s) else judgeBegins j o.rep.ovf s
/-- The judge has decided (Table 11-3). -/
def judgeEnds (j : Job) (ps : List Span) (o : Out) (s : State) : State :=
  let e := judged s j
  if judgedByTe s j.c e then
    if j.inc.sound && !o.fails then storeOut j ps o (retireEngine j.c e 1 s) else dataFault j false { ovf := o.rep.ovf } s
  else if j.inc.sound then dataFault j false { ovf := o.rep.ovf } s
  else retireEngine j.c e 1 s

/-- Run an arithmetic or integrity descriptor, for the first time, again, or on the judging engine (R213, R283-R288). -/
def runArith (j : Job) (s : State) : State :=
  let p := planOf s j
  match gatherSpans j p.1 s with
  | .error s' => s'
  | .ok (l, s') =>
    let o := p.2 l
    if j.inc.tries = 0 then (if outFails j l o s' then checkFails j o.rep s' else storeOut j p.1 o s')
    else if j.inc.tries = 1 then repeatEnds j p.1 o s'
    else judgeEnds j p.1 o s'

/-! The move engine (R216). -/

/-- The destination lines of a byte range with the source offset of each: offset, bytes, source offset. -/
def lineCopies (src dst n : Nat) : List (Nat × Nat × Nat) :=
  (cutLines (n / 128 + 2) dst n).map fun q => (q.1, q.2, (src + (q.1 + 2 ^ 48 - dst) % 2 ^ 48) % 2 ^ 48)
/-- The copies of rows: destination row and source row of each. -/
def rowCopies (a d : Tile) (rows : List (Nat × Nat)) : List (Nat × Nat × Nat) :=
  rows.flatMap fun r => lineCopies (a.row r.2) (d.row r.1) a.rowBytes

/-- The store of a piece that was read, or the failure of its source. -/
def lineStore (node : Option Nat) (off : Nat) (r : LineRes) : Store :=
  match r with
  | .good b => { node, off, data := b.map some }
  | r => { node, off, data := [], bad := some r }
/-- Read the sources of copies: a store for each piece of a row in a destination line. -/
def readCopies (j : Job) (a d : Option Nat) (l : List (Nat × Nat × Nat)) (s : State) :
    List LineRes × List Store × State :=
  l.foldl (fun (z : List LineRes × List Store × State) q =>
    let r := readSpan j (a, q.2.2, q.2.1) z.2.2
    (z.1 ++ r.1, z.2.1 ++ [lineStore d q.1 (joinLine r.1)], r.2)) ([], [], s)

/-- Read the sources, then do with the pieces of the destination lines what the opcode does. -/
def withCopies (j : Job) (a d : Tile) (l : List (Nat × Nat × Nat)) (k : List Store → State → State)
    (s : State) : State :=
  let q := readCopies j a.node d.node l s
  if !(needed q.1).isEmpty then askLines j (needed q.1) (issueHolds j q.1 q.2.2)
  else if q.1.any LineRes.parks then parkAll j q.1 false q.2.2
  else k q.2.1 (commitSpans j (l.map fun x => (a.node, x.2.2, x.2.1)) q.2.2)

/-- Store destination lines, each once and with its own outcome (R216). -/
def storeLines (j : Job) (l : List Store) (s : State) : State := makeStores j (mergeStores l) {} s

/-- COPY: row r of A to row r of D. -/
def runCopy (j : Job) (s : State) : State :=
  let a := j.tile s j.d.opa
  let d := j.tile s j.d.opd
  withCopies j a d (rowCopies a d ((List.range a.rows).map fun r => (r, r))) (storeLines j) s

/-- GATHER and SCATTER: the row indices of B are read first. -/
def runIndexed (scatter : Bool) (j : Job) (s : State) : State :=
  let a := j.tile s j.d.opa
  let b := j.tile s j.d.opb
  let d := j.tile s j.d.opd
  match gatherSpans j (rowSpans b) s with
  | .error s' => s'
  | .ok (l, s') =>
    let ix := l.flatten
    let rows := (List.range (if scatter then a.rows else d.rows)).map fun i =>
      let k := fieldAt ix (4 * i) 4
      if scatter then (k, i) else (i, k)
    withCopies j a d (rowCopies a d rows) (storeLines j) (commitSpans j (rowSpans b) s')

/-- FILL: each row of D with the pattern of IMM64, from its start. -/
def runFill (j : Job) (s : State) : State :=
  let d := j.tile s j.d.opd
  let row := ((List.replicate (d.rowBytes / 8 + 1) (natLe 8 j.d.imm64.toNat)).flatten).take d.rowBytes
  storeLines j ((List.range d.rows).flatMap fun r => storesOf (d.node, d.row r, row)) s

/-- SOW: one WRITE sowing per destination line (R39). -/
def runSow (j : Job) (s : State) : State :=
  let a := j.tile s j.d.opa
  let d := j.tile s j.d.opd
  if testing s j.c then finishInc j.c j.t j.inc.seq St.protection {} s
  else
  withCopies j a { d with node := some (nodeOf s 0) } (rowCopies a d ((List.range a.rows).map fun r => (r, r)))
    (fun l s =>
      let l := mergeStores l
      let s := forAll l.zipIdx (fun p s =>
        match p.1.bad with
        | none =>
          let w := maskedWrite p.1.off p.1.data
          let r := j.req s (nodeOf s 0) w.1 w.2.1 w.2.2.1 0 w.2.2.2
          s.onInc j.c j.t j.inc.seq fun i => { i with
            todo := i.todo ++ [(p.2, { r with h := { r.h with sow := j.d.sub, sowix := j.d.imm % 16 } })] }
        | some (.fail st) => s.onInc j.c j.t j.inc.seq fun i => i.outcome p.2 st
        | _ => s) (bump 0xC40802 (l.filter fun x => x.bad.isNone).length s)
      storeRest j (s.onInc j.c j.t j.inc.seq fun i => { i with wrote := true })) s

/-- SEND: the rows of A as one message (R213). -/
def runSend (j : Job) (s : State) : State :=
  let ps := rowSpans (j.tile s j.d.opa)
  match gatherSpans j ps s with
  | .error s' => s'
  | .ok (l, s') =>
    if testing s j.c then finishInc j.c j.t j.inc.seq St.protection {} s'
    else
    let q := if opdIx j.d.opb = 0 then j.d.imm % 65536 else (j.x (opdIx j.d.opb)).toNat % 65536
    let b := l.flatten
    let s' := commitSpans j ps s'
    askAll j [(0, j.req s' j.node Op.msgSend ((j.x (opdIx j.d.opc)).toNat % 2 ^ 48) b.length (q % 256 * 256) b)] s'

/-! The sequencer's accesses. -/

/-- LDX: a word of 8 aligned bytes into an index register. -/
def runLdx (j : Job) (s : State) : State :=
  let a := j.tile s j.d.opa
  if a.off % 8 ≠ 0 then finishInc j.c j.t j.inc.seq St.malformed {} s
  else
    match gatherSpans j [(a.node, a.off, 8)] s with
    | .error s' => s'
    | .ok (l, s') =>
      let s' := setX j.c j.t (opdIx j.d.opd) (BitVec.ofNat 64 (leNat l.flatten)) (commitSpans j [(a.node, a.off, 8)] s')
      finishInc j.c j.t j.inc.seq St.ok {} s'

/-- REPORT: the thread record at D (Table 8-7). -/
def runReport (j : Job) (s : State) : State :=
  let d := j.tile s j.d.opd
  storeOut j [] { writes := [(d.node, d.off, (s.thread j.c j.t).image s.now)] } s

/-- SIGNAL and SIGMAX: a SIG request to a node (R213); one to a core's window meets the memory's checks as an engine's access. -/
def runSignal (op : Nat) (j : Job) (s : State) : State :=
  let n := j.node
  let off := ((j.x (opdIx j.d.opa)).toNat + j.d.imm) % 2 ^ 48
  let go (s : State) : State := askAll j [(0, j.req s n op off 8 0 (natLe 8 j.d.imm64.toNat))] s
  match refusedAt s j (some n) off with
  | some st => finishInc j.c j.t j.inc.seq st {} s
  | none =>
    match hereCore s n with
    | none => go s
    | some c =>
      let q := windowCheck (j.who s) c off true (prefetch j.c j.t off s)
      match q.1.1 with
      | .fault p k => parkOn j (.fault p k) true q.2
      | .stall l => parkOn j (.stall l) true q.2
      | _ => go q.2

/-- The request of an ATOM (R157, R213). -/
def atomReq (s : State) (j : Job) (a : Tile) : Req :=
  let w := fmtWidth (j.d.imm2 % 16)
  let v := natLe w j.d.imm64.toNat
  let data := if j.d.sub = 1 then natLe w (j.x (opdIx j.d.opb)).toNat ++ v else v
  j.req s (a.node.getD (nodeOf s 0xC0)) (0x40 + j.d.sub) a.off w (j.d.imm2 % 256) data

/-- An ATOM is answered with its old value (R36). -/
def atomDone (j : Job) (old : List Byte) (s : State) : State :=
  let s := if bitOf j.d.imm2 4 then s else setX j.c j.t (opdIx j.d.opd) (BitVec.ofNat 64 (leNat old)) s
  finishInc j.c j.t j.inc.seq St.ok {} s

/-- An ATOM on a scratchpad at a local offset. -/
def atomSpad (j : Job) (c off : Nat) (r : Req) (s : State) : State :=
  if badIn s c off r.h.len then finishInc j.c j.t j.inc.seq St.check {} s
  else
    let x := accessBytes r.op r.h r.data (spadRead s c off r.h.len)
    atomDone j x.2 (spadStore c off x.1 s)

/-- An ATOM on the pool (R157): the core writes back and drops its own copy of the line, then issues the access. -/
def atomPool (j : Job) (r : Req) (s : State) : State :=
  let w := j.who s
  let off := r.h.opa.toNat
  match issuedAt s w off true with
  | some l =>
    match l.res with
    | .good old => atomDone j old s
    | .fail st => finishInc j.c j.t j.inc.seq st {} s
    | _ => parkOn j .pending true s
  | none =>
    let s := match cacheLine s w.core (s.thread w.core w.thread).ctx (off / 128) with
      | none => s
      | some l =>
        let s := cacheDrop w.core l s
        if l.dirty then writeOut w.core l s else s
    let m := memCheck (engAsk s w off true none) (prefetch w.core w.thread off s)
    match m.1 with
    | .pool (.at pa view) =>
      let q := poolMeets off true r pa view m.2
      match q.1 with
      | .good _ =>
        let r := { r with via := .unit, h := { r.h with tag := 2 ^ 16 } }
        let e := effectAccess (acceptRec r pa view q.2) (bump 0xC40802 1 (accepted r pa q.2))
        atomDone j e.1 e.2
      | .fail st => finishInc j.c j.t j.inc.seq st {} q.2
      | x => parkAll j [x] true q.2
    | .fault k =>
      match faultRes m.2 off k with
      | .fail st => finishInc j.c j.t j.inc.seq st {} m.2
      | x => parkOn j x true m.2
    | .fail st => finishInc j.c j.t j.inc.seq st {} m.2
    | .stall l => parkOn j (.stall l) true m.2
    | _ => finishInc j.c j.t j.inc.seq St.protection {} m.2

/-- ATOM (R157). -/
def runAtom (j : Job) (s : State) : State :=
  let a := j.tile s j.d.opa
  let r := atomReq s j a
  if a.off % r.h.len ≠ 0 then finishInc j.c j.t j.inc.seq St.malformed {} s
  else
    match refusedAt s j a.node a.off with
    | some st => finishInc j.c j.t j.inc.seq st {} s
    | none =>
      match a.node with
      | none =>
        if regionEnd s j.c < a.off + r.h.len then finishInc j.c j.t j.inc.seq St.protection {} s else atomSpad j j.c a.off r s
      | some n =>
        if n = nodeOf s 0xC0 then atomPool j r s
        else
          match hereCore s n with
          | none => askAll j [(0, r)] (bump 0xC40802 1 s)
          | some c =>
            let q := windowCheck (j.who s) c a.off true (prefetch j.c j.t a.off s)
            match q.1 with
            | (.good _, o) => atomSpad j c o r (if otherCore s (j.who s) n then bump 0xC40802 1 q.2 else q.2)
            | (.fail st, _) => finishInc j.c j.t j.inc.seq st {} q.2
            | (x, _) => parkOn j x true q.2

/-! INVAL and WBACK (R158). -/

/-- A line that an access issued earlier is to fill is not filled when it comes (R158). -/
def cancelFill (c ctx vline : Nat) (s : State) : State :=
  s.onCore c fun k => { k with threads := k.threads.mapV fun _ x =>
    if x.ctx ≠ ctx then x
    else { x with incs := x.incs.map fun i => { i with pool := i.pool.map fun l =>
      if l.line.isNone && l.open_ && l.off / 128 == vline then { l with taken := true } else l } } }

/-- One line of an INVAL or WBACK: a dirty one is written back as an access of the descriptor, then it is dropped, or kept clean. -/
def flushLine (drop : Bool) (j : Job) (q : Nat × Nat) (s : State) : State :=
  match cacheLine s j.c q.1 q.2 with
  | none => if drop then cancelFill j.c q.1 q.2 s else s
  | some l =>
    let s' := if drop then cacheDrop j.c l s else cachePut j.c { l with dirty := false } s
    if !l.dirty then s'
    else
      let n := (s'.thread j.c j.t).nextTag
      let w := lineWrite s' j.c l
      let s' := s'.onThread j.c j.t fun x => { x with nextTag := x.nextTag + 1 }
      let s' := s'.onInc j.c j.t j.inc.seq fun i => { i with pool := i.pool ++
        [{ ident := n, off := 128 * l.vline, wr := true, pa := w.pa, epoch := l.epoch, taken := true }] }
      attempt none { w with eng := [{ core := j.c, thread := j.t, seq := j.inc.seq, ident := n }] } (accepted w.req w.pa s')

/-- An INVAL or WBACK completes once every write-back it caused has been answered, with the first status that failed (R154, R158). -/
def flushDone (j : Job) (s : State) : State :=
  match s.inc j.c j.t j.inc.seq with
  | none => s
  | some i =>
    if i.pool.any PoolLine.open_ then park j .pool s
    else finishInc j.c j.t i.seq (((i.pool.filterMap PoolLine.ans).map Prod.fst).find? (fun st => st != St.ok) |>.getD St.ok) {} s

/-- Write back, and drop or keep clean, the lines named. -/
def flush (drop : Bool) (j : Job) (keys : List (Nat × Nat)) (s : State) : State :=
  flushDone j (forAll keys (flushLine drop j) (s.onInc j.c j.t j.inc.seq fun i => { i with wrote := true }))

/-- INVAL and WBACK. -/
def runFlush (drop : Bool) (j : Job) (s : State) : State := flush drop j j.inc.range s

/-! RECV (R207). -/

/-- The oldest FILLED slot of a queue. -/
def oldestFilled (s : State) (c q : Nat) : Option Nat :=
  let l := (s.core c).slots.filterMap fun kv =>
    match kv.2 with
    | .filled o => if kv.1 / 1024 = q then some (o, kv.1 % 1024) else none
    | .claimed => none
  (l.foldl (fun (b : Option (Nat × Nat)) x => match b with
    | none => some x
    | some y => if x.1 < y.1 then some x else some y) none).map Prod.snd

/-- The queue an incomplete descriptor of a core is to receive from. -/
def recvQueue (p : Prog) (i : Inc) : Option Nat :=
  match p.descs[i.idx]? with
  | some d => if d.op = 0x10 then some (d.imm % 8) else none
  | none => none
/-- Whether no RECV of a queue that a thread of the core issued earlier is still to be served (R207). -/
def recvFirst (s : State) (c q order : Nat) : Bool :=
  match (s.core c).prog with
  | none => true
  | some p => !((s.core c).threads.any fun kt => kt.2.incs.any fun i => recvQueue p i == some q && decide (i.order < order))

/-- RECV: claims the oldest FILLED slot, or waits for one; RECVs of a queue are served in the order in which they were issued (R207). -/
def runRecv (j : Job) (s : State) : State :=
  let n := j.d.imm % 8
  match j.prog.queues.find? fun d => d.num == n with
  | none => finishInc j.c j.t j.inc.seq St.state {} s
  | some q =>
    match if recvFirst s j.c n j.inc.order then oldestFilled s j.c n else none with
    | none => park j (.slot n) s
    | some i =>
      let base := q.off + i * q.slotBytes
      if badIn s j.c base 16 then finishInc j.c j.t j.inc.seq St.check {} s
      else
      let hd := spadRead s j.c base 16
      let s := s.onCore j.c fun x => { x with slots := x.slots.set (1024 * n + i) .claimed }
      let s := s.onThread j.c j.t fun x => { x with claimed := some (n, i) }
      let d := opdIx j.d.opd
      let s := setX j.c j.t d (BitVec.ofNat 64 (base + 16)) s
      let s := setX j.c j.t (d + 1) (BitVec.ofNat 64 (fieldAt hd 8 6)) s
      let s := setX j.c j.t (d + 2) (BitVec.ofNat 64 (fieldAt hd 0 2 + bits (fieldAt hd 2 2) 11 0 * 2 ^ 16)) s
      finishInc j.c j.t j.inc.seq St.ok {} s

/-! WAIT (R255-R263). -/

/-- The invalidate-on-wake range of a WAIT: nothing, every line, or a range (R263). -/
def wakeRange (s : State) (j : Job) : Option (Option (Nat × Nat)) :=
  if j.d.imm3 = 0 ∨ !opdUse j.d.opa then none
  else if 4096 < j.d.imm3 then some none
  else some (some ((j.tile s j.d.opa).off, j.d.imm3))

/-- A WAIT completes: after the invalidation it names (R263). -/
def wakeWait (j : Job) (s : State) : State :=
  match wakeRange s j with
  | none => finishInc j.c j.t j.inc.seq St.ok {} s
  | some r => flush true j (rangeKeys s j.c (s.thread j.c j.t).ctx r) s

/-- WAIT (R255, R256, R258, R260, R262): arms its watch, or consumes a pending firing, or parks. -/
def runWait (j : Job) (s : State) : State :=
    match j.prog.watches[j.d.imm2 % 512]? with
    | none => finishInc j.c j.t j.inc.seq St.state {} s
    | some w =>
      let ctr := j.d.imm % 65536 + (j.x (opdIx j.d.opb)).toNat
      let thr := ((j.x (opdIx j.d.opc)).toNat + j.d.imm64.toNat) % 2 ^ 64
      let step := bits j.d.imm2 31 16
      let x := s.watch w
      let mine := x.thread == j.t
      if s.chk.badMeta.contains (.watch w) then finishInc j.c j.t j.inc.seq St.internal {} s
      else if x.st == .armed && !mine then finishInc j.c j.t j.inc.seq St.state {} s
      else if x.st == .armed && x.mode == .rearm && j.d.sub == 2 then
        if 0 < x.pending then wakeWait j (s.onWatch w fun y => { y with pending := y.pending - 1 })
        else park j .wake s
      else if !ctrIn s (plotOfCore s j.c) ctr then finishInc j.c j.t j.inc.seq St.protection {} s
      else if j.d.sub = 2 ∧ step = 0 then finishInc j.c j.t j.inc.seq St.malformed {} s
      else
        park j .wake (arm w
          { mode := if j.d.sub = 1 then .claim else if j.d.sub = 2 then .rearm else .once
            act := .wake, ctr, thr, step, owner := nodeOf s (0x80 + j.c), core := some j.c, thread := j.t } s)

/-! Dispatch of an issued descriptor. -/

/-- XOP's result (Table 8-6): unsigned, modulo 2^64. -/
def xopValue (d : Desc) (a b : Nat) : Nat :=
  if d.sub = 0 then b
  else if d.sub = 1 then a + b
  else if d.sub = 2 then a + 2 ^ 64 - b
  else if d.sub = 3 then a * b
  else if d.sub = 4 then (if b < 64 then a * 2 ^ b else 0)
  else if d.sub = 5 then (if b < 64 then a / 2 ^ b else 0)
  else if d.sub = 6 then a &&& b
  else if d.sub = 7 then min a b
  else (if d.imm2 < 64 then a / 2 ^ d.imm2 else 0) % (if d.imm3 < 64 then 2 ^ d.imm3 else 2 ^ 64)
/-- STATUS is OK and the report cleared. -/
def clearStatus (c t : Nat) (s : State) : State := s.onThread c t fun x => { x with status := St.ok, report := {} }
/-- A declared stream is armed at a base for a count, in place of its earlier arming (R205). -/
def armStream (c t : Nat) (d : Desc) (base count : U64) (s : State) : State :=
  let a := (d.imm % 8, base.toNat % 2 ^ 48, count.toNat, [])
  s.onThread c t fun x => { x with streams := (x.streams.filter fun b => b.1 != a.1) ++ [a] }
/-- A register descriptor that is the producer of a failing check is repeated with the registers it read (R287, R288): its destination
register, the stream or the status is set again. A branch has no destination besides the thread's place, which has moved on (DESIGN
CHOICE; log entry 20). -/
def repeatReg (j : Job) (s : State) : State :=
  if j.d.op = 0x06 then
    let b := if opdIx j.d.opb = 0 then j.d.imm64 else j.x (opdIx j.d.opb)
    setX j.c j.t (opdIx j.d.opd) (BitVec.ofNat 64 (xopValue j.d (j.x (opdIx j.d.opa)).toNat b.toNat)) s
  else if j.d.op = 0x0B then clearStatus j.c j.t s
  else if j.d.op = 0x0D then armStream j.c j.t j.d (j.x (opdIx j.d.opa)) (j.x (opdIx j.d.opb)) s
  else s

/-- Run an issued descriptor as far as it goes; one whose stores or write-backs have begun goes on with them. -/
def runJob (j : Job) (s : State) : State :=
  let op := j.d.op
  if j.inc.wrote then (if op = 0x09 ∨ op = 0x13 ∨ op = 0x14 then flushDone j s else storeRest j s)
  else if 0x30 ≤ op then runArith j s
  else if op = 0x20 then runCopy j s
  else if op = 0x21 then runIndexed false j s
  else if op = 0x22 then runIndexed true j s
  else if op = 0x23 then runSow j s
  else if op = 0x24 then runSend j s
  else if op = 0x25 then runFill j s
  else if op = 0x07 then runLdx j s
  else if op = 0x08 then finishInc j.c j.t j.inc.seq St.ok {} s
  else if op = 0x09 then runWait j s
  else if op = 0x0A then runSignal Op.sigAdd j s
  else if op = 0x12 then runSignal Op.sigMax j s
  else if op = 0x0C then runReport j s
  else if op = 0x10 then runRecv j s
  else if op = 0x11 then runAtom j s
  else if op = 0x13 then runFlush true j s
  else if op = 0x14 then runFlush false j s
  else finishInc j.c j.t j.inc.seq St.ok {} (repeatReg j s)

/-- Run an issued descriptor of a thread again. -/
def rerun (c t seq : Nat) (s : State) : State :=
  match s.inc c t seq with
  | none => s
  | some i =>
    match jobOf s c t i with
    | none => s
    | some j => runJob j s

end Sys2Proof.Machine
end

