-- ==== Sys2Proof/Machine/FurStep.lean ====
section
/-! DEFINITION. Issue (R203, R209, R211), the sequencer's own opcodes, arrivals, waking, repetition and judgement (R202, R262, R288-R290),
and the resumption of parked descriptors. -/

namespace Sys2Proof.Machine

/-! Issue (R203, R211). -/

/-- Whether a dependency names a descriptor that is not complete. -/
def depHeld (x : Thread) (d : Desc) : Bool :=
  (List.range 16).any fun k => bitOf d.dep k && decide (k + 1 ≤ x.seq) && x.incs.any fun i => i.seq == x.seq - 1 - k
/-- What keeps a thread from issuing while a descriptor of it waits for it (R203, R288). -/
def IncWait.holds : IncWait → Bool
  | .fault _ => true
  | .wake => true
  | .slot _ => true
  | .repeat_ => true
  | .judge => true
  | _ => false
/-- Whether an incomplete descriptor keeps its thread from issuing (R203, R288): by what it waits for, or, a RECV or a WAIT, until it is
complete. -/
def Inc.holds (p : Prog) (i : Inc) : Bool :=
  i.wait.holds || i.tries != 0 || (p.descs[i.idx]?.map Desc.op) == some 0x09 || (p.descs[i.idx]?.map Desc.op) == some 0x10
/-- Whether an incomplete descriptor is a FENCE. -/
def isFence (p : Prog) (i : Inc) : Bool := (p.descs[i.idx]?.map Desc.op) == some 0x08

/-- Whether a core issues at all: not being reset, powered, and RUNNING for a plot neither hedged nor being removed, or EMPTY with a Tilth
test (R295). -/
def coreIssues (s : State) (c : Nat) : Bool :=
  !(s.core c).resetting && coreOn s c &&
    (testing s c || ((s.core c).st == .running &&
      match corePlot s c with
      | none => false
      | some n => (s.plot n).st != .hedged && (s.plot n).st != .removing))

/-- The descriptor a thread is to issue next, when nothing parks the thread (R203). -/
def runnable (s : State) (c t : Nat) : Option (Prog × Desc) :=
  let x := s.thread c t
  match (s.core c).prog with
  | none => none
  | some p =>
    match p.descs[x.pc]? with
    | none => none
    | some d =>
      if coreIssues s c && x.running && !x.ending && decide (x.incs.length < 16) && decide (linesHeld s c t < 32) &&
          !(x.incs.any (Inc.holds p)) && !depHeld x d && (opRegister d.op || !(x.incs.any (isFence p))) then some (p, d)
      else none

/-- How far a thread comes after the one that issued last, in round robin. -/
def rrPlace (s : State) (c t : Nat) : Nat := (t + 15 - (s.core c).lastThread % 16) % 16
/-- Whether a descriptor of a program, or the record of an operand it uses, lies in a bad word of the code region, which holds the image
from the region's start (R201, R204, Table 11-1; log entries 19 and 20). -/
def codeBad (s : State) (c n : Nat) (p : Prog) (d : Desc) : Bool :=
  let at_ := 2 ^ 21 - 65536 * p.codePages
  let records := at_ + 64 + 16 * p.streams.length + 16 * p.queues.length
  badIn s c (records + 32 * p.tensors.length + 32 * n) 32 ||
    [d.opa, d.opb, d.opc, d.opd].any fun h => opdUse h && badIn s c (records + 32 * opdSlot h) 32
/-- The descriptor that the sequencer reads for a thread: it issues from the next ready thread in round robin (R203). -/
def fetched (s : State) (c t : Nat) : Option (Prog × Desc) :=
  if (s.core c).threads.any fun kt => decide (rrPlace s c kt.1 < rrPlace s c t) && (runnable s c kt.1).isSome then none
  else runnable s c t
/-- The descriptor a thread would issue next, when it can be read. -/
def ready (s : State) (c t : Nat) : Option (Prog × Desc) :=
  (fetched s c t).filter fun q => !codeBad s c (s.thread c t).pc q.1 q.2
/-- A thread whose next descriptor cannot be read halts with FAIL_CHECK, once its descriptors are complete (R272, Table 11-1). -/
def unread (c t : Nat) (s : State) : State :=
  match fetched s c t with
  | some q => if codeBad s c (s.thread c t).pc q.1 q.2 then haltCheck c t (takeStatus c t (s.thread c t).pc St.check 0 0 false s) else s
  | none => s

/-- The descriptor issues (R203, R209): the thread's place moves on and the issue is counted. -/
def issued (c t : Nat) (s : State) : State :=
  let s := bump 0xC40801 1 s
  let s := if (s.core c).lastThread = t then s else bump 0xC40803 1 s
  let s := s.onCore c fun k => { k with lastThread := t, issued := k.issued + 1 }
  s.onThread c t fun x => { x with pc := x.pc + 1, seq := x.seq + 1, recent := ((x.seq, x.pc, x.xs) :: x.recent).take 32 }

/-- A register or branch descriptor issues and is complete (R211). -/
def issueReg (op c t : Nat) (f : Desc → State → State) (s : State) : State :=
  match ready s c t with
  | some (_, d) => if d.op = op then f d (issued c t s) else s
  | none => unread c t s

/-- Whether an engine of a core runs its known-answer tests as a judge, and takes no descriptor meanwhile (Table 11-3): the vector
engine, or the only working tensor engine. -/
def engineTested (s : State) (c e : Nat) : Bool :=
  (e == 4 || (decide (e < 4) && decide ((workingTes (s.core c)).length ≤ 1))) &&
    (s.core c).threads.any fun kt => kt.2.incs.any fun i => i.wait == .judge &&
      match jobOf s c kt.1 i with
      | none => false
      | some q => judged s q == e
/-- Whether an issued descriptor must wait for its turn: behind an earlier one of its engine, for a FENCE behind any, or while its engine
is tested. -/
def behind (s : State) (j : Job) : Bool :=
  engineTested s j.c (j.engine s) || (s.thread j.c j.t).incs.any fun i => decide (i.seq < j.inc.seq) &&
    (j.d.op == 0x08 || match jobOf s j.c j.t i with
      | none => false
      | some q => q.engine s == j.engine s)

/-- A descriptor that uses an engine or another unit issues, and runs as far as it goes. -/
def issueOp (op c t : Nat) (upset : Bool) (s : State) : State :=
  match ready s c t with
  | none => unread c t s
  | some (p, d) =>
    if d.op ≠ op then s
    else
      let x := s.thread c t
      let i : Inc := { seq := x.seq, idx := x.pc, xs := x.xs, wait := .turn, probe := probeInterval s (plotOfCore s c),
                        order := (s.core c).issued, upset, te := if op = 0x30 then (testOf s c).map TilthRun.te else none }
      let s := (issued c t s).onThread c t fun y => { y with incs := y.incs ++ [i] }
      let s := if op = 0x10 then unclaim c t s else s
      let i := { i with range := flushKeys s { c, t, prog := p, d, inc := i } }
      let s := s.onInc c t i.seq fun _ => i
      let j : Job := { c, t, prog := p, d, inc := i }
      if behind s j then s else runJob j s

/-! The sequencer's register and branch opcodes (Table 8-6). -/

/-- Set a thread's place. -/
def jumpTo (c t n : Nat) (s : State) : State := s.onThread c t fun x => { x with pc := n }
/-- An index register as it stands; X0 reads zero (R209). -/
def regX (s : State) (c t i : Nat) : U64 := xreg (s.thread c t).xs i
/-- The second operand of XOP and BRX: X[OPB.IX], or IMM64 when that is X0. -/
def secondX (s : State) (c t : Nat) (d : Desc) : U64 := if opdIx d.opb = 0 then d.imm64 else regX s c t (opdIx d.opb)

/-- XOP. -/
def doXop (c t : Nat) (d : Desc) (s : State) : State :=
  setX c t (opdIx d.opd) (BitVec.ofNat 64 (xopValue d (regX s c t (opdIx d.opa)).toNat (secondX s c t d).toNat)) s

/-- BRX's condition (Table 8-6). -/
def brxTaken (d : Desc) (a b : Nat) : Bool :=
  if d.sub = 0 then a == b else if d.sub = 1 then a != b else if d.sub = 2 then decide (a < b) else decide (b ≤ a)
/-- BRX. -/
def doBrx (c t : Nat) (d : Desc) (s : State) : State :=
  if brxTaken d (regX s c t (opdIx d.opa)).toNat (secondX s c t d).toNat then jumpTo c t d.imm s else s
/-- BRST. -/
def doBrst (c t : Nat) (d : Desc) (s : State) : State := if (s.thread c t).status = St.ok then s else jumpTo c t d.imm s
/-- LOOP: X -= 1; jump when X is not 0. -/
def doLoop (c t : Nat) (d : Desc) (s : State) : State :=
  let s := setX c t (opdIx d.opa) (regX s c t (opdIx d.opa) - 1) s
  if regX s c t (opdIx d.opa) = 0 then s else jumpTo c t d.imm s
/-- HALT: the thread issues nothing more, and halts once its descriptors are complete. -/
def doHalt (c t : Nat) (s : State) : State := haltCheck c t (s.onThread c t fun x => { x with ending := true })
/-- CLRST: STATUS is OK and the report cleared. -/
def doClrst (c t : Nat) (s : State) : State := clearStatus c t s
/-- STREAM (R205): arms a declared stream in place of its earlier arming. -/
def doStream (c t : Nat) (d : Desc) (s : State) : State :=
  armStream c t d (regX s c t (opdIx d.opa)) (regX s c t (opdIx d.opb)) s

/-! Resumption of parked descriptors. -/

/-- Every thread with an incomplete descriptor. -/
def busyThreads (s : State) : List (Nat × Nat) :=
  s.fur.cores.flatMap fun kc => (kc.2.threads.filter fun kt => !kt.2.incs.isEmpty).map fun kt => (kc.1, kt.1)

/-- Run the descriptors of a thread whose turn has come. -/
def turns (c t : Nat) : Nat → State → State
  | 0, s => s
  | n + 1, s =>
    match (s.thread c t).incs.find? fun i => i.wait == .turn &&
        match jobOf s c t i with
        | none => false
        | some j => !behind s j with
    | none => s
    | some i => turns c t n (rerun c t i.seq s)

/-- Whether what a descriptor waits for at the pool, or for its translation, has come. -/
def poolOver (s : State) (i : Inc) : Bool :=
  match i.wait with
  | .pool => !(i.pool.any PoolLine.open_)
  | .walk l _ => stallOver s l
  | _ => false
/-- The lines the pool has answered for a thread's descriptors reach its core's cache. -/
def fillTurns (c t : Nat) (s : State) : State :=
  forAll ((s.thread c t).incs.filter fun i => i.pool.any fun l => !l.taken && !l.open_) (fun i s =>
    match jobOf s c t i with
    | some j => takeFills (j.who s) s
    | none => s) s
/-- Whether a descriptor's walk began in an epoch that has passed: it begins again (R101). -/
def walkStale (s : State) (c t seq : Nat) : Bool :=
  match (s.inc c t seq).map Inc.wait with
  | some (.walk (some _) e) => e != s.xlt.epoch
  | _ => false
/-- The descriptors of a thread that waited at the pool go on; a walk that waited and finds the epoch advanced has begun again (R101). -/
def poolTurns (c t : Nat) (s : State) : State :=
  forAll (((s.thread c t).incs.filter (poolOver s)).map Inc.seq)
    (fun n s => rerun c t n (if walkStale s c t n then bump 0xC40303 1 s else s)) s

/-- The thread and order of the RECV of a core that has waited longest on a queue with a FILLED slot (R207). -/
def nextRecv (s : State) (c : Nat) : Option (Nat × Inc) :=
  let l := (s.core c).threads.flatMap fun kt => (kt.2.incs.filter fun i => match i.wait with
    | .slot q => (oldestFilled s c q).isSome && recvFirst s c q i.order
    | _ => false).map fun i => (kt.1, i)
  l.foldl (fun (b : Option (Nat × Inc)) x => match b with
    | none => some x
    | some y => if x.2.order < y.2.order then some x else some y) none
/-- Serve the RECVs of a core that wait, in the order in which they were issued (R207). -/
def recvTurns (c : Nat) : Nat → State → State
  | 0, s => s
  | n + 1, s =>
    match nextRecv s c with
    | none => s
    | some (t, i) => recvTurns c n (rerun c t i.seq s)

/-- The Furrow threads go on as far as what they wait for has come. -/
def furSettle (s : State) : State :=
  let s := forAll (busyThreads s) (fun p => fillTurns p.1 p.2) s
  let s := forAll (busyThreads s) (fun p => poolTurns p.1 p.2) s
  let s := forAll (s.fur.cores.map Prod.fst) (fun c s => recvTurns c 16 s) s
  let s := forAll (busyThreads s) (fun p s => turns p.1 p.2 (s.thread p.1 p.2).incs.length s) s
  forAll (busyThreads s) (fun p => sendAll p.1 p.2) s

/-! Arrivals (R202). -/

/-- The incomplete descriptor of a thread that asked with a tag, and what it asked. -/
def askedBy (s : State) (c t tag : Nat) : Option (Inc × Nat × Nat × Nat) :=
  (s.thread c t).incs.findSome? fun i => (i.asked.find? fun a => a.1 == tag).map fun a => (i, a.2)

/-- An answer comes back to a thread's request: a line for a descriptor that gathers, or the outcome of what it wrote or sent. -/
def lineArrives (c t tag status : Nat) (data : List Byte) (s : State) : State :=
  match askedBy s c t tag with
  | none => s
  | some (i, line, node, off) =>
    let s := s.onInc c t i.seq fun y => { y with asked := y.asked.filter fun a => a.1 != tag }
    let s := if !i.wrote then
        let s := s.onInc c t i.seq fun y => { y with lines := y.lines ++ [(node, off, status, takePad 128 data)] }
        match s.inc c t i.seq with
        | some y => if y.asked.isEmpty && y.todo.isEmpty then rerun c t i.seq s else s
        | none => s
      else
        let s := match jobOf s c t i with
          | some j => if j.d.op = 0x11 ∧ status = St.ok ∧ bitOf j.d.imm2 4 = false then
              setX c t (opdIx j.d.opd) (BitVec.ofNat 64 (leNat (data.take 8))) s else s
          | none => s
        replied c t i.seq line status s
    sendAll c t s

/-! Waking (R259, R262). -/

/-- A WAKE firing reaches its thread (R262): it completes the WAIT parked on the watch, or is kept as pending; lost when 65,535
are pending. -/
def wakeThread (w ctr c t : Nat) (rearm : Bool) (s : State) : State :=
  match (s.thread c t).incs.find? fun i => i.wait == .wake &&
      match jobOf s c t i with
      | some j => j.prog.watches[j.d.imm2 % 512]? == some w
      | none => false with
  | some i =>
    match jobOf s c t i with
    | some j => wakeWait j s
    | none => s
  | none =>
    if !rearm then s
    else if (s.watch w).pending < 65535 then s.onWatch w fun y => { y with pending := y.pending + 1 }
    else raise 0x8202 [w, ctr, 2, nodeOf s (0x80 + c), 2] (bump 0xC40A05 1 s)

/-! Repetition and judgement (R288, Table 11-3). -/

/-- Whether the producer of a check descriptor is being repeated. -/
def producing (s : State) (j : Job) : Bool :=
  opCheck j.d && match producerOf s j with
    | none => false
    | some r => (s.thread j.c j.t).incs.any fun i => i.seq == r.1
/-- A descriptor that waits for a repetition or a judge goes on with what was found, once its producer has run again (R288). -/
def resumeCheck (c t seq : Nat) (w : IncWait) (tries : Nat) (sound : Bool) (s : State) : State :=
  match (s.inc c t seq).filter fun i => i.wait == w with
  | none => s
  | some i =>
    match jobOf s c t i with
    | none => s
    | some j =>
      if producing s j then s
      else rerun c t seq (s.onInc c t seq fun i => { i with wait := .turn, tries, sound })

/-- The operation has been repeated on the same engine (R288). -/
def checkRepeated (c : Nat) (d : Issued) (sound : Bool) (s : State) : State := resumeCheck c d.thread d.seq .repeat_ 1 sound s
/-- The judge has decided (Table 11-3). -/
def judgementDone (c : Nat) (d : Issued) (passes : Bool) (s : State) : State := resumeCheck c d.thread d.seq .judge 2 passes s

end Sys2Proof.Machine
end

