-- ==== Sys2Proof/Machine/HostOps.lean ====
section
/-! DEFINITION. The coherent reads and write-backs of the Lania host at the pool (R163, R165, R356): what they wait for, and how they go on. -/

namespace Sys2Proof.Machine

/-- The host writes a line back (R163, R356), as an access of plot 0 to the pool: its page is copied first when a version needs it (R134),
its page counts it (R138), and the chip cache takes it (R122). The host's own entry is no bar to it, and the accesses that wait for the
line come after it: they wait for this write-back (Table 6-4). -/
def hostStore (line : Nat) (data : List Byte) (s : State) : State :=
  let r : Req := { via := .unit, op := Op.write, h := { len := 128, tag := 2 ^ 16, src := nodeOf s 0xC1, dst := nodeOf s 0xC0 }
                   data := takePad 128 data }
  let e := s.coh.filter.find line
  let ahead := s.pool.waiting
  let s := s.onPool fun p => { p with waiting := [] }
  let s := attempt none (acceptRec r (line * 128) none s)
    (accepted r (line * 128) (s.onCoh fun c => { c with filter := c.filter.erase line }))
  let s := s.onPool fun p => { p with waiting := p.waiting ++ ahead }
  match e with
  | some x => s.onCoh fun c => { c with filter := c.filter.set line x }
  | none => s

/-- Put a line in a state, with the next order of filling. -/
def cohEnter (line : Nat) (st : SnoopSt) (s : State) : State :=
  s.onCoh fun c => { c with filter := c.filter.set line { st, order := c.nextOrder }, nextOrder := c.nextOrder + 1 }

/-- The entry the hub back-invalidates when the filter is full (R165): the least recently filled that is not ORPHANED. -/
def cohVictim (s : State) : Option Nat :=
  let l := s.coh.filter.filter fun kv => match kv.2.st with
    | .orphaned _ => false
    | _ => true
  (l.foldl (fun (b : Option (Nat × Snoop)) kv => match b with
    | none => some kv
    | some x => if kv.2.order < x.2.order then some kv else some x) none).map Prod.fst

/-- The request of the host for a line, as the pool sees it. -/
def hostReq (s : State) : Req := { via := .host, op := Op.read, h := { len := 128, src := nodeOf s 0xC1, dst := nodeOf s 0xC0 } }
/-- The pool's part of a host request (R356, R44, R142, R278): it can be served, a status, or a wait; `filled`: the block whose fill has
just come. -/
def hostPool (filled : Option Nat) (line : Nat) (s : State) : Obst :=
  obstacle filled (acceptRec (hostReq s) (line * 128) none s) (s.onCoh fun c => { c with filter := c.filter.erase line })

/-- The checks of a coherent read (R24, R125, R356): a line outside plot 0 is refused; one that passes is accepted by the pool, and is not
checked again. -/
def hostAccepts (w : HostWait) (s : State) : Option HostWait × State :=
  if w.since.isSome then (some w, s)
  else
    match poolPlace s (w.line * 128) 0 (nodeOf s 0xC1) w.own with
    | .ok (.at _ none) => (some { w with since := some s.now }, accepted (hostReq s) (w.line * 128) s)
    | .error st => (none, emit (.coh w.line st []) s)
    | .ok _ => (none, emit (.coh w.line St.protection []) s)

/-- An accepted coherent read goes as far as it can (R356): an entry S or E, and the data; what it waits for otherwise. A full filter makes
room first (R165); past 256 snoops the room waits for one to be answered (R353). -/
def hostServes (filled : Option Nat) (w : HostWait) (s : State) : Option HostWait × State :=
  let s := meetWalk w.line s
  match snoopSt s w.line with
  | some (.orphaned _) => (none, emit (.coh w.line St.orphaned []) (bump 0xC40603 1 s))
  | known =>
    match hostPool filled w.line s with
    | .fail st => (none, emit (.coh w.line st []) s)
    | .wait q => (some { w with what := some q, victim := none }, beginWait q s)
    | .none =>
      if known.isNone && decide (2097152 ≤ s.coh.filter.length) then
        match if s.coh.snoops.length < 256 then cohVictim s else none with
        | none => (some { w with what := none, victim := none }, s)
        | some v => (some { w with what := none, victim := some v }, sendSnoop v true s)
      else
        (none, emit (.coh w.line St.ok (Mem.read s.mem (w.line * 128) 128))
          (cohEnter w.line (if w.own then .exclusive else .shared) (chipAlloc w.line 0 s)))

/-- Whether a coherent read waits for the back-invalidation of a line that is still outstanding. -/
def victimHolds (s : State) (w : HostWait) : Bool := w.victim.any fun v => (snoopSt s v).isSome

/-- The coherent reads of the host go on in issue order, as far as they can (R353). -/
def hostTurns (filled : Option Nat) : Nat → State → State
  | 0, s => s
  | n + 1, s =>
    match s.coh.hostWaits with
    | [] => s
    | w :: rest =>
      if victimHolds s w then s
      else
        let q := hostAccepts w (s.onCoh fun c => { c with hostWaits := rest })
        match q.1 with
        | none => hostTurns filled n q.2
        | some w =>
          let z := hostServes filled w q.2
          match z.1 with
          | none => hostTurns filled n z.2
          | some w => z.2.onCoh fun c => { c with hostWaits := w :: c.hostWaits }
/-- The coherent reads of the host go on. -/
def hostMoves (filled : Option Nat) (s : State) : State := hostTurns filled s.coh.hostWaits.length s

/-- A coherent read of a line by the host (R353, R356): behind those before it; the host has at most 512 outstanding, and one past them is
not taken (DESIGN CHOICE: Table 14-2 gives the number and not what becomes of one more; log entry 52). -/
def hostRead (own : Bool) (line : Nat) (s : State) : State :=
  if !s.lania.up || decide (512 ≤ s.coh.hostWaits.length) then s
  else hostMoves none (s.onCoh fun c => { c with hostWaits := c.hostWaits ++ [{ line, own, victim := none, what := none, since := none }] })

/-- A line gives its entry up (R163); a back-invalidation is counted (R165), and what waited for the room goes on. -/
def cohLeave (line : Nat) (s : State) : State :=
  let waited := s.coh.hostWaits.any fun w => w.victim == some line
  let s := s.onCoh fun c => { c with filter := c.filter.erase line }
  if waited then hostMoves none (bump 0xC40602 1 s) else s

/-! DMA in issue order (R353). -/

/-- Whether a piece of a DMA request has entered the hub and is not answered. -/
def dmaBusy (s : State) : Bool :=
  (s.pool.waiting.any fun w => w.req.via == .host) || (s.xlt.stalled.any fun q => q.1.via == .host) ||
    (queuedFrames s).any fun x => x.req.via == .host
/-- The pieces of the DMA requests enter the hub as requests of node 0xC1, each once the one before it has been answered (R353). -/
def dmaTurns : Nat → State → State
  | 0, s => s
  | n + 1, s =>
    if dmaBusy s then s
    else
      match s.lania.dmas with
      | [] => s
      | [] :: rest => dmaTurns n (s.onLania fun l => { l with dmas := rest })
      | (r :: rs) :: rest => dmaTurns n (serve r (s.onLania fun l => { l with dmas := rs :: rest }))
/-- The DMA requests go on. -/
def dmaMoves (s : State) : State :=
  if s.lania.dmas.isEmpty then s else dmaTurns (s.lania.dmas.map fun l => l.length + 1).sum s

/-- Whether a Lania write that the hub has received is not yet visible to the walker (R99). -/
def laniaWrites (s : State) : Bool :=
  (s.lania.dmas.any fun l => l.any fun r => opWrites r.op) ||
    (s.pool.waiting.any fun w => opWrites w.req.op && w.req.h.src == nodeOf s 0xC1) ||
    s.xlt.stalled.any fun q => opWrites q.1.op && q.1.h.src == nodeOf s 0xC1

end Sys2Proof.Machine
end

