-- ==== Sys2Proof/Machine/FaultEnds.lean ====
section
/-! DEFINITION. How outstanding faults end (R109, R110): their waiters replay, or complete with a status. -/

namespace Sys2Proof.Machine

/-- The threads that wait on an entry, each once. -/
def FaultEntry.parked (e : FaultEntry) : List (Nat × Nat) := (e.waiters.map fun w => (w.core, w.thread)).eraseDups

/-- The descriptors of a thread that wait for a fault on a page of a context. -/
def faultIncs (s : State) (ctx page : Nat) (w : Nat × Nat) : List Nat :=
  if (s.thread w.1 w.2).ctx ≠ ctx then []
  else ((s.thread w.1 w.2).incs.filter fun i => i.wait == .fault page).map Inc.seq

/-- A descriptor replays its access; one that faults on the page again is counted (R109). -/
def replayInc (w : Nat × Nat) (again : Option Nat) (seq : Nat) (s : State) : State :=
  let s := rerun w.1 w.2 seq s
  match again, s.inc w.1 w.2 seq with
  | some page, some i => if i.wait == .fault page then bump 0xC40306 1 s else s
  | _, _ => s

/-- Every waiter of an entry replays its access (RETRY), or completes with a status (FAIL): the access is refused with it. -/
def faultOver (e : FaultEntry) (fail : Option Nat) (s : State) : State :=
  forAll e.parked (fun w s =>
    forAll (faultIncs s e.ctx e.page w) (fun n s =>
      match fail with
      | none => replayInc w (some e.page) n s
      | some st => replayInc w none n (s.onInc w.1 w.2 n fun i => { i with refused := i.refused ++ [(e.page, st)] })) s) s

/-- An entry of the outstanding-fault table is freed and its waiters go on (R109). -/
def faultEnds (n : Nat) (fail : Option Nat) (s : State) : State :=
  match s.xlt.faults.find n with
  | none => s
  | some e => faultOver e fail (s.onXlt fun x => { x with faults := x.faults.erase n })

/-- A write of XLT_FAULT_RESOLVE takes effect (R109): RETRY, or FAIL with a status. -/
def resolveNow (entry : Nat) (fail : Option Nat) (s : State) : State :=
  let bad := match fail with
    | none => false
    | some st => !(st == St.translation || st == St.protection || st == St.withdrawn)
  if bad || (s.xlt.faults.find entry).isNone then s.onXlt fun x => { x with faultStatus := St.state }
  else faultEnds entry fail (s.onXlt fun x => { x with faultStatus := St.ok })

/-- A published generation is acknowledged (R99). -/
def genTakes (gen : U64) (s : State) : State :=
  if gen.toNat ≤ s.xlt.genAck.toNat then bump 0xC4030B 1 s else s.onXlt fun x => { x with genAck := gen }
/-- The generations that wait are acknowledged once the walker sees every Lania write (R99; DESIGN CHOICE: those received after a publish
too; log entry 51), and the fault resolves written after them take effect. -/
def genMoves (s : State) : State :=
  if s.xlt.genWaits.isEmpty || laniaWrites s then s
  else
    let l := s.xlt.resolves
    let s := forAll s.xlt.genWaits genTakes (s.onXlt fun x => { x with genWaits := [], resolves := [] })
    forAll l (fun q => resolveNow q.1 q.2) s

/-- Faults that meet a test, recorded or waiting for room, are resolved as FAIL with FAIL_TRANSLATION (R110): no XLT_FAULT_EXPIRED is
raised for them (DEDUCED: R110 gives the event to the entry left unresolved, and these are resolved "at once"; log entry 34). -/
def faultsFail (p : FaultEntry → Bool) (s : State) : State :=
  let s := forAll ((s.xlt.faults.filter fun kv => p kv.2).map Prod.fst) (fun n s => faultEnds n (some St.translation) s) s
  let waiting := s.xlt.deferred.filter p
  let s := s.onXlt fun x => { x with deferred := x.deferred.filter fun e => !p e }
  forAll waiting (fun e s => faultOver e (some St.translation) s) s

/-- The oldest fault that waits for room opens its entry (R108). -/
def openDeferred (s : State) : State :=
  match s.xlt.deferred with
  | [] => s
  | e :: rest =>
    if !faultRoom s then s else openEntry e (s.onXlt fun x => { x with deferred := rest })

end Sys2Proof.Machine
end

