-- ==== Sys2Proof/Machine/FurLoad.lean ====
section
/-! DEFINITION. The hub's own reads and writes of pool memory, the loader and its checks (R204-R208, R218, Table 8-9), and the commands of a
core (R217). -/

namespace Sys2Proof.Machine

open Sys2Proof.Arith

/-! A unit's own accesses to the pool through a context. -/

/-- What an access of a unit meets. -/
inductive HubRes where
  | ok (b : List Byte)
  | fail (st : Nat)
  /-- It waits at the pool, or for its translation. -/
  | wait
  deriving DecidableEq, Repr

/-- A piece as its operation finds it. -/
def pieceRes (s : State) (key off : Nat) : HubRes :=
  match (s.piece key off).bind UnitPiece.ans with
  | some (st, b) => if st = St.ok then .ok b else .fail st
  | none => .wait

/-- One line's piece of a unit's access, numbered by the operation: op READ with no data, or WRITE_MASKED or WRITE. It is translated and
checked once, and is then an access at the pool like another (R44, R122, R127, R138); a walk that waited and finds the epoch advanced has
begun again (R101). -/
def hubPiece (key ctx plot node op off len : Nat) (data : List Byte) (s : State) : HubRes × State :=
  let asked := s.piece key off
  if asked.any fun u => u.walk.isNone then (pieceRes s key off, s)
  else
    let stale := asked.any fun u => (u.walk.bind id).any fun e => e != s.xlt.epoch
    let s := if stale then bump 0xC40303 1 s else s
    let r := unitReq s plot node op ctx off len 0 data
    let q := memCheck (askOf r none none) s
    match q.1 with
    | .pool (.at pa view) =>
      let s := unitAccess key off r pa view q.2
      (pieceRes s key off, s)
    | .pool (.status x o) => (if op = Op.read then .ok (slice (statusLine q.2 x) o len) else .fail St.protection, q.2)
    | .fail st => (.fail st, q.2)
    | .stall l => (.wait, piecePut { key, off, walk := some (l.map fun _ => s.xlt.epoch) } q.2)
    | _ => (.fail St.protection, q.2)

/-- An operation that has ended keeps no pieces. -/
def hubEnds (key : Nat) (q : HubRes × State) : HubRes × State :=
  match q.1 with
  | .wait => q
  | r => (r, unitDone key q.2)

/-- Read a range of a context for a unit: its bytes, or the first failure or wait in line order. -/
def hubRead (key ctx plot node off len : Nat) (s : State) : HubRes × State :=
  hubEnds key ((cutLines (len / 128 + 2) off len).foldl (fun (z : HubRes × State) p =>
    match z.1 with
    | .ok b =>
      let r := hubPiece key ctx plot node Op.read p.1 p.2 [] z.2
      (match r.1 with
        | .ok c => .ok (b ++ c)
        | x => x, r.2)
    | _ => z) (.ok [], s))

/-- Write a range of a context for a unit: the first failure or wait in line order; earlier lines have been written. -/
def hubWrite (key ctx plot node off : Nat) (data : List Byte) (s : State) : HubRes × State :=
  hubEnds key ((rangeWrites off data).foldl (fun (z : HubRes × State) p =>
    match z.1 with
    | .ok _ => hubPiece key ctx plot node p.1 p.2.1 p.2.2.1 p.2.2.2 z.2
    | _ => z) (.ok [], s))

/-- A register command that reads or writes plot 0 memory is answered, and goes on by itself while its lines are not there yet. -/
def hubCommand (c : HubCmd) (q : Bool × State) : State :=
  regAck St.ok (if q.1 then q.2 else q.2.onPool fun p => { p with hubCmds := if p.hubCmds.contains c then p.hubCmds else p.hubCmds ++ [c] })

/-! The image (Table 8-2). -/

/-- A program image's header fields. -/
structure Image where
  /-- The bytes. -/
  bytes : List Byte
  /-- NDESC. -/
  nDesc : Nat
  /-- NTENSOR. -/
  nTensor : Nat
  /-- NSTREAM. -/
  nStream : Nat
  /-- NQUEUE. -/
  nQueue : Nat
  /-- THREADS. -/
  threads : Nat
  /-- TES. -/
  tes : Nat
  /-- VE. -/
  ve : Bool
  /-- ME. -/
  me : Bool
  /-- WATCHES. -/
  watches : Nat
  /-- DATABYTES. -/
  dataBytes : Nat
  /-- TLBYTES. -/
  tlBytes : Nat
  /-- CONSTBYTES. -/
  constBytes : Nat
  /-- ENTRY. -/
  entry : Nat

/-- Read a header. -/
def imageOf (b : List Byte) : Image :=
  let w (i : Nat) : Nat := fieldAt b (4 * i) 4
  { bytes := b, nDesc := bits (w 1) 13 0, nTensor := bits (w 1) 22 16, nStream := bits (w 1) 26 23, nQueue := bits (w 1) 30 27,
    threads := bits (w 2) 4 0, tes := bits (w 2) 7 5, ve := bitOf (w 2) 8, me := bitOf (w 2) 9, watches := bits (w 2) 24 16,
    dataBytes := bits (w 3) 21 0, tlBytes := bits (w 4) 17 0, constBytes := bits (w 5) 18 0, entry := bits (w 6) 12 0 }

/-- Offset of the stream declarations. -/
def Image.streamsAt (_ : Image) : Nat := 64
/-- Offset of the queue declarations. -/
def Image.queuesAt (x : Image) : Nat := 64 + 16 * x.nStream
/-- Offset of the tensor records. -/
def Image.tensorsAt (x : Image) : Nat := x.queuesAt + 16 * x.nQueue
/-- Offset of the descriptors. -/
def Image.descsAt (x : Image) : Nat := x.tensorsAt + 32 * x.nTensor
/-- Offset of the constants. -/
def Image.constsAt (x : Image) : Nat := x.descsAt + 32 * x.nDesc
/-- Bytes of the image. -/
def Image.size (x : Image) : Nat := x.constsAt + x.constBytes
/-- Pages of the code region (R201): the image less its constants. -/
def Image.codePages (x : Image) : Nat := ceilDiv x.constsAt 65536

/-- A stream declaration (R205). -/
def streamDecl (l : List Byte) : Nat × Int := (fieldAt l 0 3, signed 32 (fieldAt l 4 4))
/-- A queue declaration (R206). -/
def queueDecl (l : List Byte) : QueueDecl :=
  { num := fieldAt l 0 4 % 8, off := fieldAt l 4 4 % 2 ^ 22, slotBytes := fieldAt l 8 2, slots := fieldAt l 10 2 }
/-- A tensor record (Table 8-4). -/
def tensorRecord (l : List Byte) : Tensor :=
  let b := fieldAt l 0 8
  { base := b % 2 ^ 48, local_ := bitOf b 48, perThread := bitOf b 49, tfmt := fieldAt l 8 1, rows := bits (fieldAt l 10 2) 10 0,
    cols := fieldAt l 12 2, node := fieldAt l 14 2, stride := fieldAt l 16 4, step := fieldAt l 20 4, tscale := fieldAt l 24 4,
    soff := signed 32 (fieldAt l 28 4) }

/-- A descriptor (Table 8-5). -/
def descRecord (l : List Byte) : Desc :=
  let w0 := fieldAt l 0 4
  { op := w0 % 256, te := bits w0 9 8, rnd := bits w0 11 10, sub := bits w0 15 12, dep := bits w0 31 16, opa := fieldAt l 4 2,
    opb := fieldAt l 6 2, opd := fieldAt l 8 2, opc := fieldAt l 10 2, imm := fieldAt l 12 4 % 2 ^ 31, cont := bitOf (fieldAt l 12 4) 31,
    imm2 := fieldAt l 16 4, imm3 := fieldAt l 20 4, imm64 := BitVec.ofNat 64 (fieldAt l 24 8) }

/-- The parts of an image, `n` of `w` bytes from a place. -/
def partsAt (b : List Byte) (at_ w n : Nat) : List (List Byte) := (List.range n).map fun i => slice b (at_ + w * i) w

/-! The checks of Table 8-9. -/

/-- The index of the first item of a list that meets a test. -/
def firstIx {α : Type} (p : α → Bool) (l : List α) : Option Nat :=
  if l.any p then some (l.findIdx p) else none

/-- Reason 0x01: MAGIC, VERSION, and the counts of Table 8-2. -/
def badHeader (x : Image) : Bool :=
  fieldAt x.bytes 0 2 != 0x46A7 || fieldAt x.bytes 2 1 != 1 || x.nDesc == 0 || decide (8192 < x.nDesc) || decide (64 < x.nTensor) ||
    decide (8 < x.nStream) || decide (8 < x.nQueue) || x.threads == 0 || decide (16 < x.threads) || decide (4 < x.tes) ||
    decide (256 < x.watches) || x.dataBytes % 128 != 0 || x.tlBytes % 128 != 0 || decide (131072 < x.tlBytes)

/-- Reason 0x08: a stream declaration. -/
def badStream (l : List Byte) : Bool :=
  fieldAt l 0 3 == 0 || fieldAt l 3 1 != 0 || fieldAt l 8 8 != 0
/-- Reason 0x09: a queue declaration of an image, with those before it. -/
def badQueue (x : Image) (before : List QueueDecl) (l : List Byte) : Bool :=
  let q := queueDecl l
  before.any (fun p => p.num == q.num) || decide (x.dataBytes < q.off + q.slots * q.slotBytes) || q.off % 128 != 0 ||
    q.slotBytes % 128 != 0 || decide (q.slotBytes < 128) || decide (2176 < q.slotBytes) || q.slots == 0 || decide (1024 < q.slots)
/-- The first queue declaration that is refused. -/
def firstBadQueue (x : Image) : Nat → List QueueDecl → List (List Byte) → Option Nat
  | _, _, [] => none
  | i, before, l :: r => if badQueue x before l then some i else firstBadQueue x (i + 1) (queueDecl l :: before) r
/-- Packed bytes of a record's row (R170). -/
def Tensor.rowBytes (t : Tensor) : Nat := ceilDiv (t.cols * elemBits (elemOf t.tfmt)) 8
/-- Reason 0x0A: a tensor record. -/
def badTensor (t : Tensor) : Bool :=
  !tfmtOk t.tfmt || t.rows == 0 || decide (1024 < t.rows) || t.cols == 0 || decide (16384 < t.cols) ||
    (scaled t.tfmt && t.cols % 32 != 0) || (t.perThread && !t.local_) || (!scaled t.tfmt && t.soff != 0)

/-- The operands an opcode requires as tiles (Table 8-6): A, B, D, C. -/
def tileOperands (d : Desc) : List Nat :=
  let a := [d.opa]
  if d.op = 0x07 ∨ d.op = 0x11 ∨ d.op = 0x24 ∨ d.op = 0x40 ∨ d.op = 0x41 then a
  else if d.op = 0x13 ∨ d.op = 0x14 then (if d.sub = 1 then [] else a)
  else if d.op = 0x09 then (if opdUse d.opa then a else [])
  else if d.op = 0x0C ∨ d.op = 0x25 then [d.opd]
  else if d.op = 0x21 ∨ d.op = 0x22 ∨ d.op = 0x30 ∨ d.op = 0x32 ∨ d.op = 0x33 ∨ d.op = 0x38 then [d.opa, d.opb, d.opd]
  else if d.op = 0x36 then [d.opa, d.opb, d.opd, d.opc]
  else if d.op = 0x37 then [d.opa, d.opd, d.opc]
  else if 0x20 ≤ d.op then [d.opa, d.opd]
  else []
/-- The opcodes of Table 8-6 with the values of SUB each defines. -/
def subsOf (op : Nat) : Option Nat :=
  if op ≤ 0x0D then some (if op = 0x05 then 4 else if op = 0x06 then 9 else if op = 0x09 then 3 else 1)
  else if op ≤ 0x0F then none
  else if op ≤ 0x14 then some (if op = 0x11 then 8 else if op = 0x13 ∨ op = 0x14 then 2 else 1)
  else if op < 0x20 then none
  else if op ≤ 0x25 then some (if op = 0x23 then 3 else 1)
  else if op < 0x30 then none
  else if op ≤ 0x3A then some (if op = 0x30 then 8 else if op = 0x31 then 4 else if op = 0x32 then 5 else if op = 0x34 then 2 else 1)
  else if op < 0x40 then none
  else if op ≤ 0x43 then some (if op = 0x40 then 2 else 1)
  else none
/-- Reason 0x0B: a descriptor's opcode, SUB, RND, an operand it uses whose record is not declared, or one it requires and lacks. -/
def badDesc (x : Image) (d : Desc) : Bool :=
  (match subsOf d.op with
    | none => true
    | some n => decide (n ≤ d.sub)) || (d.op == 0x23 && d.sub == 0) || d.rnd == 3 ||
    ([d.opa, d.opb, d.opc, d.opd].any fun h => opdUse h && decide (x.nTensor ≤ opdSlot h)) || (tileOperands d).any fun h => !opdUse h
/-- Reason 0x05: a branch target. -/
def badTarget (x : Image) (d : Desc) : Bool :=
  (d.op == 0x02 || d.op == 0x03 || d.op == 0x04 || d.op == 0x05) && decide (x.nDesc ≤ d.imm)
/-- Reason 0x06: an opcode's engine that is not declared. -/
def badEngine (x : Image) (d : Desc) : Bool :=
  (subsOf d.op).isSome && ((d.op == 0x30 && decide (x.tes ≤ d.te)) || (decide (0x31 ≤ d.op) && !x.ve) || (decide (0x20 ≤ d.op) && decide (d.op < 0x30) && !x.me))

/-- Whether an element code is BF16, FP16 or FP32. -/
def isWide (e : Nat) : Bool := !isNarrow e
/-- Reason 0x0C: shapes and formats (R213-R216, R281). -/
def badShape (ts : List Tensor) (d : Desc) : Bool :=
  let none_ : Tensor := { base := 0, local_ := false, perThread := false, tfmt := 0, rows := 0, cols := 0, node := 0, stride := 0,
                          step := 0, tscale := 0, soff := 0 }
  let tile (h : Nat) : Tensor := ts.getD (opdSlot h) none_
  let a := tile d.opa
  let b := tile d.opb
  let dd := tile d.opd
  let c := tile d.opc
  let ea := elemOf a.tfmt
  let eb := elemOf b.tfmt
  let ed := elemOf dd.tfmt
  let same (p q : Tensor) : Bool := p.rows == q.rows && p.cols == q.cols
  let fp32 (p : Tensor) : Bool := p.tfmt % 64 == 0x0B
  let images := d.op == 0x38 || (d.op == 0x34 && d.sub == 1)
  (match (tileOperands d) with
    | [] => false
    | l => !images && d.op != 0x39 && d.op != 0x42 && !(d.op == 0x30 && bitOf d.sub 2) &&
        l.any fun h => decide ((tile h).stride < (tile h).rowBytes)) ||
  (if d.op = 0x30 then
    let bt := bitOf d.sub 0
    let (n, k) := if bt then (b.cols, b.rows) else (b.rows, b.cols)
    k != a.cols || dd.rows != a.rows || dd.cols != n || decide (1024 < n) || isNarrow ea != isNarrow eb || ea == 11 || eb == 11 ||
      (bt && scaled b.tfmt) || (bitOf d.sub 1 && !bitOf d.sub 2 && !fp32 dd) || (bitOf d.sub 2 && !isNarrow ea)
  else if d.op = 0x20 ∨ d.op = 0x23 then a.rows != dd.rows || a.rowBytes != dd.rowBytes
  else if d.op = 0x21 then a.rowBytes != dd.rowBytes || elemBits eb != 32 || b.rows * b.cols != dd.rows
  else if d.op = 0x22 then a.rowBytes != dd.rowBytes || elemBits eb != 32 || b.rows * b.cols != a.rows
  else if d.op = 0x24 then decide (2048 < a.rows * a.rowBytes)
  else if d.op = 0x31 then a.rows != dd.rows || dd.cols != 1
  else if d.op = 0x32 then !same a b || !same a dd
  else if d.op = 0x33 then !same a dd
  else if d.op = 0x34 then !same a dd || !isNarrow ed || (d.sub == 0 && !fp32 a)
  else if d.op = 0x35 then !same a dd || !isNarrow ea || isNarrow ed
  else if d.op = 0x3A then !same a dd || isNarrow ea || isNarrow ed
  else if d.op = 0x36 then !same a dd || a.rows != b.rows || a.rows != c.rows || c.cols != 2
  else if d.op = 0x37 then
    a.rows != dd.rows || !same c dd || dd.cols != d.imm || d.imm == 0 || decide (256 < d.imm) || decide (a.cols < d.imm) || !fp32 c
  else if d.op = 0x38 then !same a b || !same a dd
  else if d.op = 0x39 then !isNarrow ea || a.cols != dd.cols || (dd.rows != 1 && dd.rows != a.rows)
  else if d.op = 0x40 ∨ d.op = 0x43 then a.stride != a.rowBytes
  else if d.op = 0x42 then !isNarrow ea || a.cols != dd.cols
  else if d.op = 0x10 then decide (13 < opdIx d.opd)
  else if d.op = 0x11 then d.imm2 % 16 == 6 || !fmtOk (0x40 + d.sub) (d.imm2 % 16)
  else if d.op = 0x09 then d.sub == 2 && bits d.imm2 31 16 == 0
  else false)

/-- FREE watches of a plot, lowest first (R255). -/
def freeWatches (s : State) (n : Nat) : List Nat :=
  ((List.range (watchCount s n)).map fun i => watchBase s n + i).filter fun w => (s.watch w).st == .free

/-- The loader's checks of an image for a core (Table 8-9), in the order of their reasons: the reason and index of the first that
fails. -/
def loadCheck (s : State) (c len : Nat) (x : Image) : Option (Nat × Nat) :=
  let k := s.core c
  let descs := (partsAt x.bytes x.descsAt 32 x.nDesc).map descRecord
  let tensors := (partsAt x.bytes x.tensorsAt 32 x.nTensor).map tensorRecord
  if badHeader x then some (1, 0)
  else if len ≠ x.size ∨ 524288 < len then some (2, 0)
  else if 2097152 < x.codePages * 65536 + x.dataBytes + x.threads * x.tlBytes then some (4, 0)
  else if x.nDesc ≤ x.entry then some (5, 0)
  else
    match firstIx (badTarget x) descs with
    | some i => some (5, i)
    | none =>
      if (workingTes k).length < x.tes || (x.ve && !k.ve) || (x.me && !k.me) then some (6, 0)
      else
        match firstIx (badEngine x) descs with
        | some i => some (6, i)
        | none =>
          if (freeWatches s (plotOfCore s c)).length < x.watches then some (7, 0)
          else
            match firstIx badStream (partsAt x.bytes x.streamsAt 16 x.nStream) with
            | some i => some (8, i)
            | none =>
              match firstBadQueue x 0 [] (partsAt x.bytes x.queuesAt 16 x.nQueue) with
              | some i => some (9, i)
              | none =>
                match firstIx badTensor tensors with
                | some i => some (10, i)
                | none =>
                  match firstIx (badDesc x) descs with
                  | some i => some (11, i)
                  | none =>
                    match firstIx (badShape tensors) descs with
                    | some i => some (12, i)
                    | none => if x.dataBytes < x.constBytes then some (13, 0) else none

/-! Commands (R217, R218, Table 8-8). -/

/-- A command's result in FUR_RESULT: DONE stays clear while a LOAD is not complete (R469). -/
def furResult (c status reason index : Nat) (s : State) : State :=
  s.onCore c fun k => { k with resStatus := status, resReason := reason, resIndex := index, resDone := !k.loading }
/-- A LOAD that a reset of its core ends completes with FAIL_CORE_RESET (R469; DEDUCED, log entry 40: no rule names its status). -/
def loadEnds (c : Nat) (s : State) : State :=
  if (s.core c).loading then unitDone c (furResult c St.coreReset 0 0 (s.onCore c fun k => { k with loading := false })) else s

/-- End the Tilth test that runs on a core: its program goes and its scratchpad is zeroed (R295). -/
def tilthEnds (c : Nat) (s : State) : State :=
  if testing s c then
    let s := (s.onChk fun k => { k with runs := k.runs.filter fun r => r.target != c }).onCore c fun k => { k with
      prog := none, threads := [], slots := [] }
    { s with spad := Mem.zero s.spad (spadKey c 0) (2 ^ 21) }
  else s

/-- LOAD is accepted (R218): permitted in EMPTY. -/
def loadStart (c : Nat) (s : State) : State :=
  let k := s.core c
  if k.st != .empty || k.resetting || k.loading then furResult c St.state 0 0 s
  else (tilthEnds c s).onCore c fun k => { k with loading := true, resDone := false }

/-- A load is refused (R218). -/
def loadRefuse (c reason index : Nat) (s : State) : State :=
  furResult c St.loadRefused reason index (bump 0xC40804 1 (s.onCore c fun k => { k with loading := false }))

/-- The program of a checked image, with its watches. -/
def Image.prog (x : Image) (ws : List Nat) : Prog :=
  { threads := x.threads, tes := x.tes, ve := x.ve, me := x.me, watches := ws, dataBytes := x.dataBytes, tlBytes := x.tlBytes,
    entry := x.entry, codePages := x.codePages
    streams := (partsAt x.bytes x.streamsAt 16 x.nStream).map streamDecl
    queues := (partsAt x.bytes x.queuesAt 16 x.nQueue).map queueDecl
    tensors := (partsAt x.bytes x.tensorsAt 32 x.nTensor).map tensorRecord
    descs := (partsAt x.bytes x.descsAt 32 x.nDesc).map descRecord }
/-- The image in a core's scratchpad (R204): less its constants from the start of the code region (DESIGN CHOICE: R201 names the region; log
entry 58), and the constants at data-region offset 0. -/
def imagePlaced (c : Nat) (x : Image) (s : State) : State :=
  spadStore c 0 (slice x.bytes x.constsAt x.constBytes) (spadStore c (2 ^ 21 - 65536 * x.codePages) (x.bytes.take x.constsAt) s)
/-- A checked image is installed (R201, R204, R255). -/
def loadInstall (c : Nat) (x : Image) (s : State) : State :=
  let ws := (freeWatches s (plotOfCore s c)).take x.watches
  let s := forAll ws (fun w s => s.onWatch w fun _ => { st := .reserved, owner := nodeOf s (0x80 + c), core := some c }) s
  let s := (imagePlaced c x s).onCore c fun k => { k with
    st := .loaded, loading := false, prog := some (x.prog ws), image := x.bytes, digest := Config.shake256 x.bytes 64, threads := [], slots := [] }
  furResult c St.ok 0 0 s

/-- The loader has read and checked the image (R218); while a line of it cannot be read yet, nothing happens. -/
def loadDone (c : Nat) (s : State) : State :=
  let k := s.core c
  if !k.loading then s
  else if corePlot s c = none ∨ ctxPlot s k.srcCtx ≠ corePlot s c then loadRefuse c 3 0 s
  else
    let q := hubRead c k.srcCtx (plotOfCore s c) (nodeOf s (0x80 + c)) k.srcOff k.loadLen s
    match q.1 with
    | .wait => q.2
    | .fail st => furResult c st 0 0 (q.2.onCore c fun k => { k with loading := false })
    | .ok b =>
      match loadCheck q.2 c k.loadLen (imageOf b) with
      | some (why, ix) => loadRefuse c why ix q.2
      | none => loadInstall c (imageOf b) q.2

/-- Threads named by a mask. -/
def maskThreads (mask : Nat) : List Nat := (List.range 16).filter fun t => bitOf mask t

/-- START (R217). -/
def coreStart (c mask ctx : Nat) (s : State) : State :=
  let k := s.core c
  match k.prog with
  | none => furResult c St.state 0 0 s
  | some p =>
    if k.resetting || !(k.st == .loaded || k.st == .running) || (maskThreads mask).any fun t => decide (p.threads ≤ t) || (k.thread t).running then
      furResult c St.state 0 0 s
    else if ctxPlot s ctx ≠ corePlot s c then furResult c St.protection 0 0 s
    else
      let s := forAll (maskThreads mask) (fun t s => s.onThread c t fun _ =>
        { running := true, halted := false, pc := p.entry, xs := BitVec.ofNat 64 t :: List.replicate 14 0, ctx }) s
      furResult c St.ok 0 0 (if mask % 65536 = 0 then s else s.onCore c fun k => { k with st := .running })

/-- The armed watches of a thread are released (R217, R262). -/
def releaseWatches (c t : Nat) (s : State) : State :=
  forAll ((s.sync.watches.filter fun kv => kv.2.st == .armed && kv.2.core == some c && kv.2.thread == t).map Prod.fst) unarm s

/-- STOP of a thread (R217, R262, R291): its armed watches are released, also when it has halted. DESC is the thread's place (DESIGN CHOICE:
no descriptor sets this status; log entry 58). What waits for a firing, a message, a repetition or a judge, and a RECV or WAIT that has not had its
turn, ends with FAIL_STATE. -/
def stopThread (c t : Nat) (s : State) : State :=
  let s := releaseWatches c t s
  if !(s.thread c t).running then s
  else
    let s := s.onThread c t fun x => { x with
      ending := true
      desc := if x.status = St.ok then x.pc else x.desc
      status := if x.status = St.ok then St.state else x.status }
    let waits (i : Inc) : Bool := match (s.core c).prog with
      | some p => (p.descs[i.idx]?.map Desc.op) == some 0x09 || (p.descs[i.idx]?.map Desc.op) == some 0x10
      | none => false
    let ends := ((s.thread c t).incs.filter fun i => match i.wait with
      | .turn => waits i
      | .wake => true
      | .slot _ => true
      | .repeat_ => true
      | .judge => true
      | _ => i.tries != 0).map Inc.seq
    haltCheck c t (forAll ends (fun n => finishInc c t n St.state {}) s)

/-- STOP (R217). -/
def coreStop (c mask : Nat) (s : State) : State :=
  if (s.core c).st != .running || (s.core c).resetting then furResult c St.state 0 0 s
  else furResult c St.ok 0 0 (forAll (maskThreads mask) (stopThread c) s)

/-- Discard a core's receive slots, counted (R217, R404). -/
def dropSlots (c : Nat) (s : State) : State :=
  bump 0xC40806 (s.core c).slots.length (s.onCore c fun k => { k with slots := [] })
/-- Return a core's program watches to FREE without firing (R255). -/
def dropWatches (c : Nat) (s : State) : State :=
  s.onSync fun y => { y with watches := y.watches.keep fun _ x => x.core != some c }

/-- UNLOAD (R217). -/
def coreUnload (c : Nat) (s : State) : State :=
  if (s.core c).st != .loaded || (s.core c).resetting then furResult c St.state 0 0 s
  else
    let s := dropWatches c (dropSlots c s)
    furResult c St.ok 0 0 (s.onCore c fun k => { k with st := .empty, prog := none, image := [], threads := [] })

end Sys2Proof.Machine
end

