-- ==== Sys2Proof/Machine/ResetOps.lean ====
section
/-! DEFINITION. Resets of a core, a cluster, a plot and the device (R220, R403-R408), and the end of every data domain (Table 16-1). -/

namespace Sys2Proof.Machine

/-! What a core or a member leaves behind. -/

/-- A node of this hub ceases to be an opener of any version (R135). -/
def openerGone (node : Nat) (s : State) : State :=
  s.onPool fun p => { p with exts := p.exts.mapV fun _ e => { e with
    versions := e.versions.map fun v => { v with openers := v.openers.filter fun n => n != node } } }

/-- Whether a collective of a group is under way: executing, or held with a descriptor (log entry 22). -/
def CSeq.underWay (q : CSeq) : Bool := q.cause.isNone && (q.exec || !q.posts.isEmpty)
/-- Abort the collectives under way of the groups that meet a test (R241, R246). -/
def abortGroups (p : Group → Option Nat) (reason : Nat) (s : State) : State :=
  let l := s.coll.groups.flatMap fun kv =>
    match p kv.2 with
    | none => []
    | some named => (kv.2.seqs.filter CSeq.underWay).map fun q => (kv.1, q.seq, named)
  forAll l (fun a => abortSeq a.1 a.2.1 St.aborted a.2.2 reason false) s
/-- Collectives with a local node as a member abort, naming it (Table 9-10). -/
def memberLost (node : Nat) (s : State) : State :=
  abortGroups (fun x => if x.members.any fun m => m.node == node then some ((x.members.map Member.node).idxOf node) else none) 2 s
/-- Collectives of a plot abort as an abort command does (R246). -/
def abortPlot (n : Nat) (s : State) : State := abortGroups (fun x => if x.plot = n then some 0x7FF else none) 1 s

/-- Remove a core's waiters from fault entries, which stay (R404). -/
def dropWaiters (c : Nat) (s : State) : State :=
  let f (e : FaultEntry) : FaultEntry := { e with waiters := e.waiters.filter fun w => w.core != c }
  s.onXlt fun x => { x with faults := x.faults.mapV (fun _ e => f e), deferred := x.deferred.map f }

/-! A core reset (R404). -/

/-- Items 1 to 5: the core answers FAIL_CORE_RESET, its dirty lines are written back, its threads halt, and what it held elsewhere
goes. -/
def coreDown (c : Nat) (s : State) : State :=
  let s := tilthEnds c s
  let dirty := (s.core c).cache.filter CLine.dirty
  let s := s.onCore c fun k => { k with resetting := true }
  let s := forAll dirty (fun l s => writeOut c l (s.onCore c fun k => { k with
    cache := k.cache.map fun y => if y = l then { y with dirty := false } else y })) s
  let s := s.onPool fun p => { p with
    waiting := p.waiting.map fun w => { w with eng := w.eng.filter fun e => e.core != c } }
  let s := (loadEnds c s).onCore c fun k => { k with
    threads := k.threads.mapV fun _ x => { x with
      running := false, halted := true, incs := [], ending := false, claimed := none, time := if x.running then s.now else x.time } }
  let s := dropWaiters c (dropWatches c (dropSlots c s))
  memberLost (nodeOf s (0x80 + c)) (openerGone (nodeOf s (0x80 + c)) s)

/-- Whether nothing that a node issued is still unanswered (R404). -/
def nodeQuiet (s : State) (node : Nat) : Bool :=
  let mine (r : Req) : Bool := r.h.src == node
  !(s.sw.records.any fun kv => kv.2.any fun f => mine f.req) &&
  !((queuedFrames s).any fun x => mine x.req) &&
  !(s.sw.gathers.any fun g => mine g.req) && !(s.sw.heldSigs.any fun x => mine x.req) &&
  !(s.pool.waiting.any fun w => mine w.req) && !(s.xlt.stalled.any fun q => mine q.1)

/-- Engines of a core after its reset, as FUR_CORE_OUT gives them: [2:0] TEs, [3] VE, [4] ME, [5] SPARE (Table 8-10). -/
def engineBits (k : Core) : Nat := (workingTes k).length + 8 * b2n k.ve + 16 * b2n k.me + 32 * b2n k.spare

/-- Item 6: caches, scratchpad, program and digest are cleared. -/
def coreClear (c : Nat) (s : State) : State :=
  let s := (loadEnds c s).onCore c fun k => { k with
    prog := none, image := [], digest := List.replicate 64 0, threads := [], slots := [], cache := [], resetting := false,
    st := if k.seqOk then .empty else .out }
  let s := s.onXlt fun x => { x with coreTlb := x.coreTlb.erase c, walks := x.walks.filter fun w => w.core != c }
  let s := s.onChk fun k => { k with badWords := k.badWords.filter fun b => b / 2 ^ 18 != c }
  { s with spad := Mem.zero s.spad (spadKey c 0) (2 ^ 21) }

/-- Whether a cluster's spare core may be taken (R220). -/
def spareFree (s : State) (k : Nat) : Bool := Config.coreSpareFused k && !s.boot.sparesGone.contains k

/-- Item 7: after an engine failure the core takes its cluster's spare, or keeps what still works (R220). -/
def coreReplace (c : Nat) (s : State) : State :=
  if spareFree s (c / 8) then
    let s := s.onCore c fun k => { k with teRetired := 0, ve := true, me := true, seqOk := true, spare := true, st := .empty }
    let s := s.onBoot fun b => { b with sparesGone := b.sparesGone ++ [c / 8] }
    (raise 0x7104 [c, c / 8, s.draw.toNat % 72] (bump 0xC40808 1 s)).drawn
  else if (s.core c).seqOk then s
  else raise 0x7105 [c, engineBits (s.core c)] s

/-- A reset has finished: its result, and RESET_DONE with the scope, target, duration and replies discarded (Table 16-16). -/
def resetDone (scope target : Nat) (commanded : Bool) (s : State) : State :=
  let s := raise 0x2114 [scope, target, (s.now - s.boot.rstSince) / 1000, counter s 0xC40F04 - s.boot.rstBase] s
  s.onBoot fun b => { b with
    rst := none, rstStatus := if commanded then St.ok else b.rstStatus, rstDone := b.rstDone || commanded }

/-- A reset begins to run. -/
def resetBegins (r : RstRun) (s : State) : State :=
  s.onBoot fun b => { b with rst := some r, rstSince := s.now, rstBase := counter s 0xC40F04 }

/-- The next queued core reset of the hub's own runs once none does (R403, Table 16-10). -/
def resetTurn (s : State) : State :=
  match s.boot.rst, s.boot.rstQueue with
  | none, (c, failed) :: rest =>
    coreDown c (resetBegins (.core c true failed) (s.onBoot fun b => { b with rstQueue := rest }))
  | _, _ => s

/-- A core's reset finishes once nothing it issued is unanswered (R404). -/
def coreResetEnds (c : Nat) (s : State) : State :=
  if !(s.core c).resetting || !nodeQuiet s (nodeOf s (0x80 + c)) then s
  else
    match s.boot.rst with
    | some (.core d own failed) =>
      if d ≠ c then s
      else
        let s := bump 0xC40F01 1 (coreClear c s)
        resetTurn (resetDone 0 c (!own) (if failed then coreReplace c s else s))
    | some (.plot n) =>
      let s := bump 0xC40F01 1 (coreClear c s)
      if (coresOf s n).any fun d => (s.core d).resetting then s
      else resetTurn (resetDone 2 n true (bump 0xC40F03 1 s))
    | _ => s

/-! A device reset (R407, R443). -/

/-- Whether a physical address lies in tier 3. -/
def inTier3 (pa : Nat) : Bool := decide (0x040000000000 ≤ pa) && decide (pa < 0x060000000000)
/-- The dirty tier 3 lines of the chip cache (R407). -/
def cached3 (s : State) : List Nat := (s.pool.dirty.map Prod.fst).filter fun l => inTier3 (128 * l)
/-- Whether a frame map exception concerns tier 3 alone (R443). -/
def use3 (f : Nat) (u : FrameUse) : Bool :=
  inTier3 (f * frameBytes) && match u with
    | .free => true
    | .working x _ => extTier x == 3
    | .copy x _ _ => extTier x == 3
/-- The pool as a start finds it: what the tier 3 device keeps (R443). -/
def pool3 (p : Pool) : Pool :=
  { frames := p.frames.keep use3
    lostLines := p.lostLines.keep fun l _ => inTier3 (128 * l)
    bcvs := p.bcvs.keep fun b _ => inTier3 (4096 * b)
    redirected := p.redirected.keep fun f _ => inTier3 (f * frameBytes)
    sparesUsed := p.sparesUsed.keep fun k _ => k == 34 }
/-- The keys as a start finds them: the pair record and the metadata of tier 3 (R307, R443), and a fresh draw (R303). -/
def key3 (k : Key) (draw : Nat) : Key :=
  { pair := k.pair
    extRot := k.extRot, frameGen := k.frameGen.keep fun f _ => inTier3 (f * frameBytes), start := draw }
/-- What the tier 3 device keeps of this hub's extents (R443, R444). -/
def device3 (s : State) : Cxl :=
  let held := (s.pool.exts.filter fun kv => extTier kv.1 == 3 && kv.2.held).map fun kv => (kv.1, devTable s kv.1)
  { owned := (held.map Prod.fst) ++ s.cxl.owned.filter fun x => !(held.map Prod.fst).contains x
    kept := held.foldl (fun m a => m.set a.1 a.2) s.cxl.kept }
/-- A device reset (R407): every unit, the island included, returns to reset; tier 3 stays, and the log when `keepLog`. `drained`:
dirty tier 3 lines have been written back; else the tier keeps what it held. -/
def deviceReset (keepLog drained : Bool) (s : State) : State :=
  let s := if drained then forAll (cached3 s) writeBack s else chipDrop (fun l => inTier3 (128 * l)) s
  let mem3 := s.mem.keep fun a _ => inTier3 a
  let d : Dict := if keepLog then { log := s.dict.log, logSeq := s.dict.logSeq, logAck := s.dict.logAck, logLost := s.dict.logLost } else {}
  let b : Boot :=
    { st := .starting, pll := false, pwrGood := s.boot.pwrGood, resetN := s.boot.resetN, capAlert := s.boot.capAlert
      tray := s.boot.tray, wake := s.boot.wake }
  { pool := pool3 s.pool
    key := key3 s.key s.free
    cxl := device3 s
    dict := d
    boot := b
    mem := mem3
    out := s.out
    free := s.free + 1
    pending := s.pending }

/-- Whether some forward record is still held (R47). -/
def recordsLeft (s : State) : Bool := s.sw.records.any fun kv => !kv.2.isEmpty
/-- A device reset that drains runs once no forward record is left (R407). -/
def drainTurn (s : State) : State := if s.boot.rst = some .device ∧ !recordsLeft s then deviceReset true true s else s

/-! Known answers (R399, Table 16-6). -/

/-- Engine i of `EngineRetireMask` (R221): TEs 0-3, bit 4 VE, bit 5 ME. -/
def retireMask (s : State) (c : Nat) : Nat := cfg (0x701100 + c + 1) 0 s
/-- Retire an engine without judgement of the core's life: at the known answers no program runs. -/
def engineOff (c e cause : Nat) (s : State) : State :=
  let had := if e < 4 then !bitOf (s.core c).teRetired e else if e = 4 then (s.core c).ve else if e = 5 then (s.core c).me else (s.core c).seqOk
  if !had then s
  else
    let s := s.onCore c fun k =>
      if e < 4 then { k with teRetired := k.teRetired ||| 2 ^ e } else if e = 4 then { k with ve := false }
      else if e = 5 then { k with me := false } else { k with seqOk := false }
    raise 0x7103 [c, e, cause] (bump 0xC40807 1 s)
/-- Apply `EngineRetireMask` to a core: cause 0x05. -/
def applyMask (c : Nat) (s : State) : State :=
  forAll ((List.range 6).filter fun i => bitOf (retireMask s c) i) (fun i => engineOff c i 5) s
/-- A core that has lost its VE, ME or sequencer, or every TE, at the known answers: spare, or what still works (R220). -/
def katReplace (c : Nat) (s : State) : State :=
  let s := coreReplace c s
  s.onCore c fun k => { k with st := if k.seqOk then (if k.st == .out then .empty else k.st) else .out }

/-- A core whose VE or ME `EngineRetireMask` has taken: spare, or what still works, once the spare cores are tested (R220, R399). -/
def maskReplace (c : Nat) (s : State) : State :=
  let k := s.core c
  if (bitOf (retireMask s c) 4 && !k.ve) || (bitOf (retireMask s c) 5 && !k.me) then katReplace c s else s
/-- A part fails its known-answer test twice (Table 16-6); FAULTED is left to the caller. -/
def katFails (f : KatFail) (s : State) : State :=
  let s := bump 0xC40F06 1 s
  match f with
  | .te c i => engineOff c i 3 s
  | .ve c => katReplace c (engineOff c 4 3 s)
  | .me c => katReplace c (engineOff c 5 3 s)
  | .sequencer c => katReplace c (engineOff c 6 3 s)
  | .spare k => s.onBoot fun b => { b with sparesGone := if b.sparesGone.contains k then b.sparesGone else b.sparesGone ++ [k] }
  | .portTile p =>
    let s := s.onPort p fun x => { x with katHeld := true }
    raise 0x2112 [3, p] s
  | .headland => raise 0x2112 [3, 128] s
  | .central => s

end Sys2Proof.Machine
end

