-- ==== Sys2Proof/Machine/PortOps.lean ====
section
/-! DEFINITION. Ports, lanes and their links: commands and states, training, identity, keys, frames, replay, loss, sparing and
dormancy (R309-R311, R325-R349, R437). -/

namespace Sys2Proof.Machine

/-! Derived keys (R303, Table 12-1). -/

/-- The bytes of an ASCII string. -/
def ascii (t : String) : List Byte := t.toList.map fun c => BitVec.ofNat 8 c.toNat
/-- The start nonce N, 32 bytes: the fresh value of this start (R303; log entry 7). -/
def startNonce (s : State) : List Byte := takePad 32 (Config.random s.key.start 32)
/-- A label of Table 12-1: its first byte is 0x44 once debug is unlocked (R323). -/
def keyLabel (s : State) (t : String) : List Byte := if s.key.debug then 0x44#8 :: (ascii t).drop 1 else ascii t
/-- KDF (R303): SHAKE256 of the root, a label and a context, to a length. -/
def kdf (s : State) (t : String) (context : List Byte) (n : Nat) : List Byte :=
  Config.shake256 (Config.rootKey ++ keyLabel s t ++ context) n
/-- The hub's X448 private key for a port and link generation (R309, Table 12-1). -/
def linkPrivate (s : State) (p gen : Nat) : List Byte := kdf s "LINKEPH1" (startNonce s ++ natLe 1 p ++ natLe 8 gen) 56
/-- Its public key. -/
def linkPublic (s : State) (p gen : Nat) : List Byte := Config.x448Public (linkPrivate s p gen)
/-- The link key of a generation, from the far end's public key and the serial and port number in its IDENT (R309). -/
def linkKey (s : State) (p gen : Nat) (pub : List Byte) : List Byte :=
  let ident := (s.port p).ident
  Config.shake256 (Config.x448 (linkPrivate s p gen) pub ++ takePad 16 Config.serialNumber ++ takePad 16 (ident.take 16) ++ natLe 1 p ++
    natLe 1 (fieldAt ident 16 1) ++ natLe 8 gen) 64

/-! Lanes (R325, Table 13-13). -/

/-- `LaneRetireMask` of engine e (R402). -/
def laneMask (s : State) (e : Nat) : Nat := cfg (0x300300 + e + 1) 0 s
/-- Spare lane circuits that yield recovery left in an engine (R3): at least one of the two. -/
def sparesFused (e : Nat) : Nat := max 1 (min 2 (Config.opticalSparesFused e))
/-- Circuit j of engine e: at reset circuit i drives position i, and a spare that yield recovery used is retired (R325). -/
def State.lane (s : State) (e j : Nat) : Lane :=
  s.ports.lanes.getD (34 * e + j)
    { pos := if j < 32 then j else 0x3F, retired := decide (32 + sparesFused e ≤ j) }
/-- Update a circuit. -/
def State.onLane (e j : Nat) (f : Lane → Lane) (s : State) : State :=
  s.onPorts fun x => { x with lanes := x.lanes.set (34 * e + j) (f (s.lane e j)) }
/-- Lanes a port has: 4, or 8 on a bonded uplink (R327). -/
def laneCount (s : State) (p : Nat) : Nat := if bonded s p then 8 else 4
/-- The fewest lanes a port runs on (R344). -/
def laneMin (s : State) (p : Nat) : Nat := if bonded s p then 6 else 3
/-- The circuit that drives a position of an engine. -/
def circuitAt (s : State) (e pos : Nat) : Option Nat :=
  (List.range 34).find? fun j => (s.lane e j).pos == pos && !(s.lane e j).retired
/-- The circuits of a port, by lane position (R325, R327). -/
def portCircuits (s : State) (p : Nat) : List Nat :=
  (List.range (laneCount s p)).filterMap fun i => circuitAt s (p / 8) (4 * (p % 8) + i)
/-- The circuits of a port whose lanes have not failed. -/
def soundCircuits (s : State) (p : Nat) : List Nat := (portCircuits s p).filter fun j => !(s.lane (p / 8) j).failed
/-- The port a position of an engine belongs to. -/
def portAt (s : State) (e pos : Nat) : Nat := portName s (8 * e + pos / 4)
/-- Put every lane of a port in a state. -/
def setLanes (p : Nat) (st : LaneSt) (s : State) : State :=
  forAll (portCircuits s p) (fun j s => s.onLane (p / 8) j fun x => { x with st := if x.failed then x.st else st }) s
/-- The CDRs of a port's sound circuits lose or gain lock. -/
def setCdr (p : Nat) (on : Bool) (s : State) : State := forAll (soundCircuits s p) (fun j s => s.onLane (p / 8) j fun x => { x with cdr := on }) s
/-- Deal blocks to the sound lanes (R327). -/
def dealLanes (p : Nat) (s : State) : State :=
  s.onPort p fun x => { x with dealt := (soundCircuits s p).map fun j => (s.lane (p / 8) j).pos - 4 * (p % 8) }
/-- Spares left in an engine (`OpticalSparesLeft`, R325). -/
def sparesLeft (s : State) (e : Nat) : Nat :=
  ([32, 33].filter fun j => !(s.lane e j).retired && ((s.lane e j).pos == 0x3F || (s.lane e j).joining.isSome)).length
/-- The spare that is steered next (R325): the lowest not in use, not retired and not named in `LaneRetireMask`. -/
def nextSpare (s : State) (e : Nat) : Option Nat :=
  [32, 33].find? fun j => !(s.lane e j).retired && (s.lane e j).pos == 0x3F && !bitOf (laneMask s e) j
/-- Whether a port's group is powered (R331). -/
def groupOn (s : State) (p : Nat) : Bool := domainOn s (p / 8)

/-! Loss of a port (R345, R437, Table 18-1). -/

/-- Take the frames queued toward a port out of their flows. -/
def flowsTo (s : State) (p : Nat) : List Frame :=
  ((s.sw.flows.filter fun f => f.egress == p).flatMap fun f => f.queue ++ f.spill) ++
    (s.sw.issueKept.filter fun k => k.egress == p).map KeptReq.frame
/-- End every item on a port that is lost: its records and the frames toward it fail with FAIL_PORT_LOST, its end point is no opener
and no member any more, what waited to be sent on it is discarded. -/
def portDrop (p : Nat) (s : State) : State :=
  let records := s.records p
  let s := forAll records (fun r => failRecord p r St.portLost (hubDetail s p)) (dropRecords p s)
  let frames := flowsTo s p
  let gone := repliesAt s p
  let s := s.onSw fun w => { w with
    flows := w.flows.filter (fun f => f.egress != p), stage := w.stage.erase p, issueKept := w.issueKept.filter fun k => k.egress != p
    replyStage := w.replyStage.erase p, replyWait := w.replyWait.erase p, replyKept := w.replyKept.erase p, replyTurn := w.replyTurn.erase p }
  let s := forAll frames (fun x s => failReq x.req x.gather St.portLost (hubDetail s p) (leftIngress x s)) s
  let s := if gone = 0 then s else bump 0xC40504 gone s
  let s := memberLost (nodeOf s p) (openerGone (nodeOf s p) s)
  let s := if upstreamPort s = p then timeUnlock 2 s else s
  s.onKey fun k => { k with links := k.links.erase p }
/-- LINK_RETRAIN, with the time it took in µs. -/
def retrainEvent (p since cause : Nat) (s : State) : State := raise 0x3108 [p, cause, (s.now - since) / 1000] s
/-- A port is DOWN: what it kept of its link goes, and a retrain that ran is over (R341). -/
def portDown (p : Nat) (s : State) : State :=
  let s := match (s.port p).retrain with
    | some (t, cause) => retrainEvent p t cause s
    | none => s
  let s := s.onPort p fun x => { enabled := x.enabled, peer := x.peer, katHeld := x.katHeld, eyes := x.eyes }
  forAll (portCircuits s p) (fun j s => s.onLane (p / 8) j fun x => { x with
    st := if (s.port p).enabled && groupOn s p then .training else .off
    cdr := false, eq := false, alock := false, failed := false, joining := none }) s
/-- A port is lost (R345): cause 0 signal, 1 DISABLE, 2 retrain, 3 drain timeout. -/
def portLost (p cause lanes : Nat) (s : State) : State :=
  raise 0x3101 [p, cause, lanes] (bump 0xC40502 1 (portDown p (portDrop p s)))

/-! FALLOW, identity and activation (R347, R348). -/

/-- Reason of the first of checks 2 to 6 that an identity fails against the WiringPlan entry of a port. -/
def identFails (s : State) (p : Nat) (body : List Byte) : Option Nat :=
  let w := wiring s p
  let kind := wiringKind s p
  let major := fieldAt body 21 1
  if kind = 0 then some 2
  else if !((kind == 1 && fieldAt body 17 1 == 2) || (kind == 2 && fieldAt body 17 1 == 1)) then some 4
  else if major < 2 ∨ 4 < major then some 5
  else if fieldAt body 23 1 ≠ laneCount s p then some 6
  else if fieldAt body 16 1 ≠ fieldAt w 1 1 ∨
      (slice body 0 16 ≠ slice w 4 16 ∧ ¬(kind = 1 ∧ slice w 4 16 = List.replicate 16 0)) ∨
      (kind = 2 ∧ fieldAt body 18 2 ≠ wiringHub s p) then some 3
  else none
/-- Whether an identity passes checks 3 to 6 against a port's entry. -/
def identPasses (s : State) (p : Nat) (body : List Byte) : Bool := (identFails s p body).isNone
/-- PORT_SWAP_PROBABLE for a port that has entered FALLOW with reason MISMATCH (R348). -/
def swapCheck (p : Nat) (s : State) : State :=
  forAll ((List.range 128).filter fun q =>
      q != p && (s.port q).st == .fallow && (s.port q).reason == 3 &&
        identPasses s q (s.port p).ident && identPasses s p (s.port q).ident)
    (fun q s => raise 0x3105 [p, q] (bump 0xC40503 1 s)) s
/-- A port is held FALLOW for a reason; an event only when it enters FALLOW or its reason changes (R347). -/
def portFallow (p reason : Nat) (s : State) : State :=
  let x := s.port p
  if x.st = .fallow ∧ x.reason = reason then s
  else
    let s := s.onPort p fun x => { x with st := .fallow, reason, planWait := none, planRaised := false, dealt := [] }
    let s := raise 0x3104 [p, reason, leNat (x.ident.take 32)] (setLanes p .idleFill s)
    if reason = 3 then swapCheck p s else s
/-- The hub's own IDENT on a port (Table 13-10). -/
def identBody (s : State) (p : Nat) : List Byte :=
  takePad 16 Config.serialNumber ++ natLe 1 p ++ natLe 1 1 ++ natLe 2 (hubIdObj s) ++ natLe 1 (planeObj s) ++ natLe 1 3 ++ natLe 1 0 ++
    natLe 1 (laneCount s p) ++ natLe 8 (cfg 0x320101 0 s) ++ natLe 8 0x3F ++ List.replicate 24 0
/-- Send an IDENT. -/
def sendIdent (p : Nat) (s : State) : State := linkSend p (.ident (identBody s p)) (s.onPort p fun x => { x with identSent := s.now })
/-- Credits the hub holds toward a far end at ACTIVE: a hub's port tile grants those of Table 2-2; an end point those of R56. -/
def firstCredits (s : State) (p : Nat) : Credits :=
  if wiringKind s p = 2 then { mem := grantOf s p 0, sig := grantOf s p 1, msg := grantOf s p 2, red := grantOf s p 3 }
  else { mem := 32, sig := 8, msg := 16, red := 16 }
/-- PORT_DEGRADED for a port that runs without a lane: laid to 0 circuit, 1 fibre or far end. -/
def degradedEvent (p lane laid : Nat) (s : State) : State := raise 0x3102 [p, lane, laid] s
/-- A port whose checks have all passed becomes ACTIVE, or DEGRADED when a lane is missing (R347, R402). -/
def activate (p : Nat) (s : State) : State :=
  let s := s.onPort p fun x => { x with
    st := .active, reason := 0, peer := x.ident, planWait := none, planRaised := false, returns := 0
    freed := {}, freedSent := {}, farFreed := {}, credits := firstCredits s p }
  let s := dealLanes p (setLanes p .active s)
  let full := (List.range (laneCount s p)).filter fun i => !((s.port p).dealt.contains i)
  match full with
  | [] => s
  | i :: _ => degradedEvent p i 0 (s.onPort p fun x => { x with st := .degraded })
/-- The hub's part of a link-key exchange (R309): its X448 public key of a generation, signed with its identity key, and its certificate
chain. -/
def keyxBody (s : State) (p gen : Nat) : List Byte :=
  let pub := takePad 56 (linkPublic s p gen)
  pub ++ takePad 114 (Config.ed448Sign pub) ++ Config.certificateChain
/-- Begin the link-key exchange of a port for a generation (R309): two frames of 2,304 bytes hold the longest chain (DESIGN CHOICE, log
entry 56: the manual lays out no KEYX body). -/
def sendKeyx (p gen : Nat) (s : State) : State :=
  let b := keyxBody s p gen
  linkSend p (.keyx (takePad 2304 (b.drop 2304))) (linkSend p (.keyx (takePad 2304 b)) s)
/-- Compare a port's identity, from check 1 (R347). -/
def compareIdent (p : Nat) (s : State) : State :=
  let x := s.port p
  let own := cfg 0x320101 0 s
  if hubIdObj s = 0xFFFF ∨ planeObj s = 0xFF then s.onPort p fun x => { x with st := .identifying, reason := 0 }
  else if x.ident.isEmpty then s
  else
    match identFails s p x.ident with
    | some r => portFallow p r s
    | none =>
      if wiringKind s p = 2 ∧ fieldAt x.ident 24 8 ≠ own then
        s.onPort p fun x => { x with st := .identifying, reason := 0, planWait := some (x.planWait.getD s.now) }
      else if !x.keyed then
        sendKeyx p 1 (s.onPort p fun x => { x with st := .identifying, reason := 0, planWait := none, planRaised := false })
      else if portPlot s p = 0xFF then portFallow p 7 s
      else activate p s
/-- The comparison is repeated for a port that is IDENTIFYING, or FALLOW with a reason other than HELD (R347). -/
def compareAgain (p : Nat) (s : State) : State :=
  let x := s.port p
  if x.st = .identifying ∨ (x.st = .fallow ∧ x.reason ≠ 1) then compareIdent p s else s
/-- The comparison is repeated for every such port. -/
def compareAll (s : State) : State := forAll (List.range 128) compareAgain s
/-- A port whose lanes are aligned and deskewed enters IDENTIFYING with a fresh link, or FALLOW when its tile is held (R333, R347,
Table 16-6). -/
def portIdentifies (p : Nat) (s : State) : State :=
  let s := setLanes p .idleFill (s.onPort p fun x => { x with
    st := .identifying, ident := [], keyed := false, txSeq := 0, rxSeq := 0, ackSeq := 0, ackTime := s.now, replay := [], held := []
    nakSent := false, naks := 0, naksOut := 0, retrain := none, slots := 0, blockNo := 0, elastic := [], farDark := [], badCodes := [] })
  if (s.port p).katHeld then portFallow p 1 s else sendIdent p s

/-! Lane failure and sparing (R342-R344). -/

/-- Optical measures of a position (R343). -/
def State.opt (s : State) (e pos : Nat) : Opt := s.ports.opts.getD (32 * e + pos) {}
/-- Whether the lane circuit is judged to be at fault (R343). -/
def circuitFault (s : State) (e pos : Nat) (rxLost : Bool) : Bool :=
  let o := s.opt e pos
  (o.txLevel == 2 && decide (o.reflLevel ≤ 1)) || (rxLost && decide (o.rxLevel ≤ 1))
/-- Steer a spare onto the position of a failed circuit (R344), with its coefficients; for a peer that cannot relock a single lane, to be
trained in full (R349). -/
def steerSpare (e j k : Nat) (s : State) : State :=
  let pos := (s.lane e j).pos
  let saved := bitOf (features s (portAt s e pos)) 5
  let s := s.onLane e k fun x => { x with
    st := .training, pos, joining := some j, failed := true, cdr := false, eq := saved, alock := false, slip := 0 }
  s.onLane e j fun x => { x with st := .off, pos := 0x3F }
/-- Ports with a lane at stake: those whose lanes are in use (R345). -/
def PortSt.holds : PortSt → Bool
  | .identifying => true
  | .active => true
  | .degraded => true
  | .fallow => true
  | _ => false
/-- A lane fails (R342): it is dealt nothing; the port runs on with a spare or without, or is lost. -/
def laneFails (e j : Nat) (rxLost : Bool) (s : State) : State :=
  let x := s.lane e j
  let pos := x.pos
  let p := portAt s e pos
  if pos == 0x3F || x.failed || !(s.port p).st.holds then s
  else
    let s := dealLanes p (s.onLane e j fun y => { y with
      st := .training, failed := true, cdr := y.cdr && !rxLost, alock := false })
    let n := (soundCircuits s p).length
    if n < laneMin s p then portLost p 0 n s
    else
      let fault := circuitFault s e pos rxLost
      let s := if (s.port p).st.serves then
          degradedEvent p (pos - 4 * (p % 8)) (b2n (!fault)) (s.onPort p fun y => { y with st := .degraded }) else s
      match nextSpare s e with
      | some k => if fault then steerSpare e j k s else s
      | none => s
/-! Blocks (R327-R329). -/

/-- Whether a control block's type is one of Table 13-1. -/
def knownType (t : Nat) : Bool := [0x1E, 0x2D, 0x4B, 0x55, 0x78].contains t
/-- The blocks among some whose type is unknown. -/
def badBlocks (l : List Block) : Nat :=
  (l.filter fun b => match b with
    | .control t => !knownType t
    | _ => false).length
/-- The circuit that receives a lane of a port, by its fibre. -/
def laneCircuit (s : State) (p lane : Nat) : Option Nat := circuitAt s (p / 8) (4 * (p % 8) + lane)
/-- A lane of a port, by its fibre, fails for a cause that is not in its receiver (R342). -/
def laneDies (p lane : Nat) (s : State) : State :=
  match laneCircuit s p lane with
  | some j => laneFails (p / 8) j false s
  | none => s
/-- Uncorrectable codewords have come on a lane: more than 16 within 1 ms fail it (R342). -/
def codesBad (p lane n : Nat) (s : State) : State :=
  let recent := (List.replicate n s.now ++ ((s.port p).badCodes.getD lane []).filter fun t => decide (s.now < t + 1000000)).take 17
  let s := s.onPort p fun x => { x with badCodes := x.badCodes.set lane recent }
  if 16 < recent.length then laneDies p lane s else s
/-- Count what the decoder of a port found in the codewords among some blocks of a lane (R327, Table 13-15). -/
def countCodewords (p lane : Nat) (l : List Block) (s : State) : State :=
  let found := l.filterMap fun b => match b with
    | .codeword c => some c
    | _ => none
  let good := (found.filterMap id).sum
  let bad := (found.filter Option.isNone).length
  let s := if good = 0 then s else bump (0xC42000 + p + 1) good s
  if bad = 0 then s else codesBad p lane bad (bump (0xC42100 + p + 1) bad s)
/-- Whether an item of a lane is a block and not a FILLER. -/
def Block.kept : Block → Bool
  | .data => true
  | .control t => t != 0x1E
  | .codeword _ => false
/-- A lane's reader takes the n oldest blocks of its elastic buffer, or as many as there are: a control block of an unknown type is
discarded and counted (R328, R329). -/
def laneReads (p lane n : Nat) (s : State) : State :=
  let l := (s.port p).elastic.getD lane []
  if l.isEmpty ∨ n = 0 then s
  else bump (0xC42400 + p + 1) (badBlocks (l.take n)) (s.onPort p fun x => { x with elastic := x.elastic.set lane (l.drop n) })
/-- Blocks arrive on a lane: every FILLER is deleted on entry; those that the 32 places do not hold have been taken by the reader
(R329). -/
def laneFills (p lane : Nat) (l : List Block) (s : State) : State :=
  let b := (s.port p).elastic.getD lane [] ++ l.filter Block.kept
  if b.isEmpty then s else laneReads p lane (b.length - 32) (s.onPort p fun x => { x with elastic := x.elastic.set lane b })
/-- Whether a port's lanes are aligned, so that they carry codewords beyond those of training (Table 13-2). -/
def portLit (s : State) (p : Nat) : Bool :=
  match (s.port p).st with
  | .identifying => true
  | .active => true
  | .degraded => true
  | .fallow => true
  | _ => false
/-- The blocks that have arrived on the lanes of a port. -/
def blocksArrive (p : Nat) (l : List (Nat × List Block)) (s : State) : State :=
  if portLit s p then
    forAll (l.filter fun a => decide (a.1 < laneCount s p)) (fun a s => laneFills p a.1 a.2 (countCodewords p a.1 a.2 s)) s
  else s
/-- A KCLK cycle of a lit port: every lane's reader takes the blocks of its slots, and every 8,192nd slot of each lane the port deals
blocks to carries a FILLER, in the same slot on every lane (R327, R329). -/
def blockCycle (p : Nat) (s : State) : State :=
  let x := s.port p
  let next := x.slots + 25
  let lanes := if x.dealt.isEmpty then List.range (laneCount s p) else x.dealt
  let s := s.onPort p fun y => { y with slots := next }
  let s := forAll (x.elastic.map Prod.fst) (fun l => laneReads p l (next / 8 - x.slots / 8)) s
  if next / 65536 = x.slots / 65536 then s else forAll lanes (fun l => emit (.filler p l)) s

/-! Training (R331, R333, R334). -/

/-- A port begins to train. -/
def portTrains (returns : Nat) (p : Nat) (s : State) : State :=
  let s := s.onPort p fun x => { x with st := .training, enabled := true, trainSince := s.now, returns }
  forAll (portCircuits s p) (fun j s => s.onLane (p / 8) j fun x => { x with
    st := .training, cdr := false, eq := false, alock := false, slip := 0, failed := false, joining := none }) s
/-- A circuit has CDR lock, or a converged equaliser as well; the port aligns once all its circuits have (R333). A spare that joins is
trained alone (R349). -/
def laneConverges (e : Nat) (l : LaneLock) (s : State) : State :=
  let j := l.circuit
  let x := s.lane e j
  let p := portAt s e x.pos
  if x.st != .training || x.pos == 0x3F || (x.joining.isNone && (s.port p).st != .training) then s
  else
    let s := s.onLane e j fun x => { x with cdr := true, eq := x.eq || l.eq }
    if x.joining.isSome then s
    else if (portCircuits s p).all (fun i => (s.lane e i).eq) && decide (laneMin s p ≤ (portCircuits s p).length) then
      s.onPort p fun x => { x with st := .aligning }
    else s
/-- Codewords since DeviceTime 0: one lasts 12.8 ns (R327). -/
def codewordNow (s : State) : Nat := s.now * 5 / 64
/-- Whether the LANEID blocks of a port's lanes name each lane once, so that the hub can order them (R333). -/
def lanesOrdered (s : State) (p : Nat) : Bool :=
  let l := (portCircuits s p).map fun j => (s.lane (p / 8) j).lane
  l.eraseDups.length == l.length && l.all fun i => decide (i < laneCount s p)
/-- Whether the codeword counters of a port's lanes lie within the skew of 8 codewords that it can take out (R333). -/
def lanesDeskew (s : State) (p : Nat) : Bool :=
  let l := (portCircuits s p).map fun j => (s.lane (p / 8) j).skew
  l.any fun a => l.all fun b => decide ((b + 256 - a) % 256 ≤ 8)
/-- A circuit's ALOCK is set, with the lane number and the codeword counter of its LANEID, and the port identifies itself once every lane
has it, in an order and a skew it can mend; or ALOCK clears, and a lane in use fails (R333, R342). -/
def laneLocks (e j : Nat) (w : LaneWords) (s : State) : State :=
  let x := s.lane e j
  let p := portAt s e x.pos
  if x.pos == 0x3F then s
  else
    match w with
    | .lost => laneFails e j false (s.onLane e j fun x => { x with alock := false })
    | .locked lane counter =>
      if x.st != .training || !x.eq || (x.joining.isNone && (s.port p).st != .aligning) then s
      else
        let s := s.onLane e j fun x => { x with
          alock := true, lane := lane % 8, skew := (codewordNow s + 256 - counter % 256) % 256 }
        if x.joining.isNone && ((portCircuits s p).all fun i => (s.lane e i).alock) && lanesOrdered s p && lanesDeskew s p then
          portIdentifies p s
        else s
/-- The step training had reached: 0 CDR, 1 equaliser, 2 alignment. -/
def trainStep (s : State) (p : Nat) : Nat :=
  if (s.port p).st = .aligning then 2 else if (portCircuits s p).all fun j => (s.lane (p / 8) j).cdr then 1 else 0
/-- A port's training has failed: it returns to TRAINING, and is DOWN at the third return (R331). -/
def trainAgain (p : Nat) (s : State) : State :=
  let x := s.port p
  if x.returns < 2 then portTrains (x.returns + 1) p s
  else raise 0x3107 [p, trainStep s p] (portDown p (s.onPort p fun y => { y with enabled := false }))
/-- More than 20 ms in TRAINING or ALIGNING: a return to TRAINING, and DOWN at the third (R331); paused while the management core
restarts (Table 16-12). -/
def trainExpires (p : Nat) (s : State) : State :=
  let x := s.port p
  if firmwareDown s || (x.st != .training && x.st != .aligning) || decide (s.now ≤ x.trainSince + 20000000) then s
  else trainAgain p s
/-- A slip (R334): each named circuit's boundary moves by one bit, and ALOCK, which stood for the boundary left, is clear (DESIGN CHOICE, log
entry 56); the port of a lane that has passed all 5,440 boundaries goes back to TRAINING. -/
def slipCircuits (e mask : Nat) (s : State) : State :=
  let named := (List.range 34).filter fun j => bitOf mask j
  let s := forAll named (fun j s => s.onLane e j fun x => { x with slip := (x.slip + 1) % 5440, alock := false }) s
  let done := (named.filter fun j => (s.lane e j).slip == 0 && (s.lane e j).pos != 0x3F).map fun j =>
    portAt s e (s.lane e j).pos
  forAll (done.eraseDups.filter fun p => (s.port p).st == .aligning) trainAgain s

/-- The lanes in ALIGNING of a group whose ALOCK is clear: M of R334. -/
def searchLanes (s : State) (e : Nat) : List Nat :=
  (List.range 34).filter fun j =>
    (s.lane e j).pos != 0x3F && !(s.lane e j).alock && (s.port (portAt s e (s.lane e j).pos)).st == .aligning
/-- The search of a group is over. -/
def searchEnds (e : Nat) (s : State) : State := s.onPorts fun x => { x with slips := x.slips.erase e, slipAt := x.slipAt.erase e }
/-- The firmware's align agent at a group (R334), while `AlignAgent` is 0: a slip of every lane of M each microsecond, and after 5,440 slips
the ports of the lanes still in M go back to TRAINING. -/
def searchTurn (e : Nat) (s : State) : State :=
  if cfg 0x302001 0 s ≠ 0 || firmwareDown s then s
  else
    let m := searchLanes s e
    let n := s.ports.slips.getD e 0
    if m.isEmpty then searchEnds e s
    else if !elapsed s (s.ports.slipAt.getD e 0) 1000 then s
    else if 5440 ≤ n then forAll ((m.map fun j => portAt s e (s.lane e j).pos).eraseDups) trainAgain (searchEnds e s)
    else slipCircuits e (m.map fun j => 2 ^ j).sum (s.onPorts fun x => { x with
      slips := x.slips.set e (n + 1), slipAt := x.slipAt.set e s.now })
/-- The groups with a search in progress or to begin. -/
def searchGroups (s : State) : List Nat :=
  let ports := (s.ports.ports.filter fun kv => kv.2.st == .aligning).map Prod.fst
  (ports.map (· / 8) ++ s.ports.slips.map Prod.fst).eraseDups

/-! Commands (R332, Table 13-5): an ADP result, and the state after it. -/

/-- Whether a port command may act on a port: not the odd port of a bonded pair (R331), and its group powered. -/
def portCan (s : State) (p : Nat) : Bool := decide (p < 128) && !oddOfBond s p && groupOn s p
/-- A port goes DORMANT (R335). -/
def portSleeps (p : Nat) (s : State) : State :=
  let s := if upstreamPort s = p then timeUnlock 2 s else s
  linkSend p .dormant (s.onPort p fun x => { x with st := .dormant, dormantSince := some s.now, settled := false })
/-- Whether a port can be taken DORMANT: ACTIVE, with a peer that has the feature (R335, R349). -/
def canSleep (s : State) (p : Nat) : Bool := (s.port p).st == .active && bitOf (features s p) 4
/-- Whether power shedding holds a port (R332, R425): it or its group is shed. -/
def shedHolds (s : State) (p : Nat) : Bool := (s.port p).shed || s.power.shed.any fun g => g.1 == p / 8
/-- A port command. -/
def portCommand (p cmd : Nat) (s : State) : Nat × State :=
  let x := s.port p
  if cmd = 0 ∨ 6 < cmd then (Adp.range, s)
  else if !portCan s p then (Adp.state, s)
  else
    match cmd with
    | 1 => if x.st = .down then (Adp.ok, portTrains 0 p s) else (Adp.state, s)
    | 2 =>
      if x.st = .down then (Adp.state, s)
      else
        let n := (soundCircuits s p).length
        let s := s.onPort p fun y => { y with enabled := false }
        (Adp.ok, if x.st.serves then portLost p 1 n s else portDown p (portDrop p s))
    | 3 => if canSleep s p then (Adp.ok, portSleeps p s) else (Adp.state, s)
    | 4 =>
      if x.st = .dormant ∧ shedHolds s p = false then (Adp.ok, s.onPort p fun y => { y with waking := true }) else (Adp.state, s)
    | 5 => if x.st = .identifying ∨ x.st.serves then (Adp.ok, portFallow p 1 s) else (Adp.state, s)
    | _ =>
      if x.st = .fallow then
        let s := s.onPort p fun y => { y with st := .identifying, reason := 0, katHeld := false }
        (Adp.ok, compareIdent p (if x.ident.isEmpty then sendIdent p s else s))
      else (Adp.state, s)
/-- A write of PORT_CMD (R332, Table 13-12): refused with FAIL_STATE where the command is not permitted. -/
def portByReg (p cmd : Nat) (s : State) : State :=
  let r := portCommand p cmd s
  regAck St.ok (r.2.onPorts fun x => { x with
    cmdStatus := x.cmdStatus.set (p / 8) (if r.1 = Adp.ok then St.ok else St.state) })
/-- A port command by either path: `PortCommand`, or PORT_CMD while the group's domain is on (R332, R354). -/
def portComes (dict : Bool) (p cmd : Nat) (s : State) : State :=
  if dict then (portCommand p cmd s).2 else viaRegIn (domainOn s (p / 8)) (portByReg p cmd) s
/-- Light from the far end on every lane of a port (R331, R335, R345). -/
def lightComes (p : Nat) (s : State) : State :=
  let x := s.port p
  if !portCan s p then s
  else if x.st = .down ∧ x.enabled then portTrains 0 p s
  else if x.st = .dormant ∧ x.settled ∧ !shedHolds s p then s.onPort p fun y => { y with waking := true }
  else s

/-! Dormancy (R335) and LINK frames (R339). -/

/-- Whether a port's link carries frames. -/
def linkUp (s : State) (p : Nat) : Bool :=
  match (s.port p).st with
  | .identifying => true
  | .active => true
  | .degraded => true
  | .dormant => !(s.port p).settled
  | .fallow => true
  | _ => false

/-- RXLOCK (Table 13-6): the receive lanes of a port with ALOCK, one bit each, by the lane numbers of their LANEID blocks (R333). -/
def rxLock (s : State) (p : Nat) : Nat :=
  ((List.range (laneCount s p)).map fun i =>
    if (portCircuits s p).any fun j => (s.lane (p / 8) j).alock && (s.lane (p / 8) j).lane == i then 2 ^ i else 0).sum
/-- A retrain of a port's link begins (R341): cause 0 NAK limit, 1 acknowledgement stall. -/
def retrainBegins (p cause : Nat) (s : State) : State :=
  bump (0xC42500 + p + 1) 1 (s.onPort p fun x => { x with retrain := some (s.now, cause), naks := 0, naksOut := 0 })
/-- Cumulative counts as a LINK frame carries them, modulo 2^32 (Table 13-6). -/
def Credits.wrap (c : Credits) : Credits := { mem := c.mem % 2 ^ 32, sig := c.sig % 2 ^ 32, msg := c.msg % 2 ^ 32, red := c.red % 2 ^ 32 }
/-- A LINK frame goes out (R339), of three blocks; the eighth with NAK for one SEQ begins a retrain (R341). -/
def linkFrameOut (p : Nat) (s : State) : State :=
  let x := s.port p
  let l := (s.key.links.find p).getD {}
  let n := if x.nakSent then x.naksOut + 1 else 0
  let s := emit (.linkFrame p x.rxSeq x.nakSent x.freed.wrap (rxLock s p) l.phase l.txCount)
    (framesDealt p 3 ((countFrame p s).onPort p fun y => { y with linkSent := s.now, freedSent := y.freed, naksOut := n }))
  if 8 ≤ n && x.retrain.isNone then retrainBegins p 0 s else s
/-- A LINK frame follows a credit change (R339). -/
def creditTurn (p : Nat) (s : State) : State :=
  if (s.port p).freed != (s.port p).freedSent && linkUp s p then linkFrameOut p s else s
/-- Accept the next SEQ. -/
def acceptSeq (p : Nat) (s : State) : State :=
  linkFrameOut p (s.onPort p fun x => { x with rxSeq := (x.rxSeq + 1) % 4096, nakSent := false })
/-- The lanes of a DORMANT port are powered down once nothing is outstanding. -/
def dormantSettles (p : Nat) (s : State) : State :=
  let x := s.port p
  if x.st != .dormant || x.settled || x.waking || !x.farDormant || !x.replay.isEmpty || !(s.records p).isEmpty then s
  else setCdr p false (setLanes p .dormant (s.onPort p fun y => { y with settled := true, dormantSince := none }))
/-- Records still outstanding 1 ms after DORMANT (R335). -/
def dormantExpires (p : Nat) (s : State) : State :=
  let x := s.port p
  match x.dormantSince with
  | none => s
  | some t =>
    if x.st != .dormant || x.settled || (s.records p).isEmpty || !elapsed s t 1000000 then s
    else portLost p 3 (soundCircuits s p).length s
/-- A new plan is loaded: the uplinks of pairs are picked afresh (R43). -/
def planLoaded (s : State) : State := s.onSw fun w => { w with pairs := [] }
/-- The wake sequence is done (R335): ACTIVE again, with identity, plot and keys unchanged; a port whose plot has gone meanwhile is held
FALLOW, reason NO_PLOT (R23). -/
def portWakes (p : Nat) (s : State) : State :=
  let x := s.port p
  if x.st != .dormant || !x.waking then s
  else
    let s := s.onPort p fun y => { y with
      st := .active, waking := false, settled := false, dormantSince := none, farDormant := false, ackTime := s.now }
    let s := setCdr p true s
    if portPlot s p = 0xFF then portFallow p 7 s else linkDrain p (dealLanes p (setLanes p .active s))

/-! Identification (R347). -/

/-- An IDENT is due again: every 10 µs until the peer's has come, every 1 ms while the plan is awaited. -/
def identAgain (p : Nat) (s : State) : State :=
  let x := s.port p
  let due := if x.planWait.isSome then elapsed s x.identSent 1000000 else x.ident.isEmpty && elapsed s x.identSent 10000
  if x.st = .identifying ∧ due then sendIdent p s else s
/-- 100 ms of waiting on PLANID. -/
def planWaits (p : Nat) (s : State) : State :=
  let x := s.port p
  match x.planWait with
  | none => s
  | some t =>
    if x.st != .identifying || x.planRaised || !elapsed s t 100000000 then s
    else raise 0x3106 [p, fieldAt x.ident 24 8, cfg 0x320101 0 s] (s.onPort p fun y => { y with planRaised := true })

/-! Link keys (R309, R310, R311). -/

/-- The anchors a port's far end is verified against: Elveth's device root for a hub, `LinkTrustAnchor` for an end point. -/
def anchorsFor (s : State) (hub : Bool) : List (List Byte) :=
  if hub then [Config.deviceRoot]
  else ((List.range 4).map fun i => s.dict.odBytes.getD (0x902001 + i) []).filter fun a => !a.isEmpty
/-- A failed authentication (R309, R311): cause 0 chain, 1 anchor missing, 2 tag failures. The link key goes, and the next exchange sets up
generation 1. -/
def authFails (p cause : Nat) (s : State) : State :=
  let s := s.onKey fun k => { k with links := k.links.erase p }
  portFallow p 8 (raise 0x9101 [p, cause] (s.onPort p fun x => { x with keyed := false }))
/-- The old key is zeroised once no frame of its phase is in the hub's replay buffer, nor, a frame of the new phase having come in order, to
come from the far end's (R310; DESIGN CHOICE, log entry 56). -/
def LinkKey.shed (l : LinkKey) : LinkKey := if l.oldFrames = 0 ∧ l.farPhase = l.phase then { l with oldKey := [] } else l
/-- Whether a KEYX exchange of the hub is not acknowledged yet. -/
def keyxOpen (s : State) (p : Nat) : Bool :=
  let is (i : LinkItem) : Bool := match i with
    | .keyx _ => true
    | _ => false
  ((s.port p).replay.any fun f => is f.item) || (s.port p).held.any is
/-- The sender switches KEYPHASE once both ends hold the new key: the far end's exchange has come, and the hub's is acknowledged (R310). -/
def rekeyTurn (p : Nat) (s : State) : State :=
  match s.key.links.find p with
  | none => s
  | some l =>
    match l.next with
    | none => s
    | some k =>
      if keyxOpen s p then s
      else
        let n := (s.port p).replay.length
        let fresh : LinkKey := { l with
          gen := l.gen + 1, key := k, next := none, phase := !l.phase, ready := true, rekey := false, txCount := 0, since := s.now
          oldKey := l.key, oldFrames := n }
        s.onKey fun y => { y with links := y.links.set p fresh.shed }
/-- A KEYX exchange of the far end has been accepted: it sets up the link key of a port that identifies itself, or renews it. -/
def keyxTaken (p : Nat) (chain pub sig : List Byte) (hub : Bool) (s : State) : State :=
  let x := s.port p
  let anchors := anchorsFor s hub
  let good := hub == (wiringKind s p == 2) && Config.chainVerifies anchors chain &&
    Config.ed448Verify (Config.chainKey chain) pub sig
  let first := x.st == .identifying && hubIdObj s != 0xFFFF && planeObj s != 0xFF && !x.ident.isEmpty && (identFails s p x.ident).isNone && x.planWait.isNone && !x.keyed
  if !first && !x.st.serves then s
  else if anchors.isEmpty then authFails p 1 s
  else if !good then authFails p 0 s
  else if first then
    compareIdent p ((s.onKey fun k => { k with links := k.links.set p { gen := 1, key := linkKey s p 1 pub, ready := true, since := s.now } }).onPort p
      fun y => { y with keyed := true })
  else
    let l := (s.key.links.find p).getD {}
    let s := s.onKey fun k => { k with links := k.links.set p { l with rekey := true, next := some (linkKey s p (l.gen + 1) pub) } }
    rekeyTurn p (if l.rekey then s else sendKeyx p (l.gen + 1) s)
/-- A rekey is due (R310): at `LinkRekeyInterval`, or when a frame counter reaches 2^40. -/
def rekeyDue (p : Nat) (s : State) : State :=
  match s.key.links.find p with
  | none => s
  | some l =>
    if !(s.port p).st.serves || l.rekey || !(elapsed s l.since (cfg 0x902101 3600 s * 1000000000) || decide (2 ^ 40 ≤ max l.txCount l.rxCount)) then s
    else sendKeyx p (l.gen + 1) (s.onKey fun k => { k with links := k.links.set p { l with rekey := true } })
/-- A frame whose tag fails (R311): more than 16 within 1 ms hold the port FALLOW. -/
def tagFails (p : Nat) (s : State) : State :=
  let l := (s.key.links.find p).getD {}
  let recent := s.now :: l.tagFails.filter fun t => decide (s.now < t + 1000000)
  let s := bump 0xC40C01 1 (s.onKey fun k => { k with links := k.links.set p { l with tagFails := recent } })
  if 16 < recent.length then authFails p 2 s else s

/-! Frames (R336-R341). -/

/-- Send a NAK that names the last good SEQ (R338). -/
def sendNak (p : Nat) (s : State) : State := linkFrameOut p (s.onPort p fun x => { x with nakSent := true })
/-- A packet of an accepted frame enters the switch. -/
def packetEnters (p : Nat) (k : Packet) (s : State) : State :=
  match k with
  | .request op h data => serve { via := .port p, op, h, data } s
  | .reply r => replyArrives p r s
/-- A packet of a frame refused as a whole: its request is answered FAIL_PROTECTION (R337). DESIGN CHOICE: it counts in
`0xC402.0A PlotRefusals`, which the spec names for egress mismatches only, while a request refused alone under R29 does not (log
entry 32). -/
def packetRefused (p : Nat) (k : Packet) (s : State) : State :=
  match k with
  | .request op h data =>
    let r : Req := normalise s { via := .port p, op, h, data }
    refuseReq r St.protection 0 (freeCells r (bump 0xC4020A 1 s))
  | .reply _ => s
/-- The PLOT of a packet. -/
def Packet.plot : Packet → Nat
  | .request _ h _ => h.plot
  | .reply r => r.plot
/-- Whether the hub holds a far-to-hub key of a key phase (R310): the current one, the next, or the old; before there is a key, frames are
plain. -/
def phaseHeld (s : State) (p : Nat) (phase : Bool) : Bool :=
  match s.key.links.find p with
  | none => true
  | some l => phase == l.phase || l.next.isSome || !l.oldKey.isEmpty
/-- The far-to-hub counter and phase follow a frame that is accepted (R310). -/
def farCounted (f : Light) (s : State) : State :=
  match s.key.links.find f.port with
  | none => s
  | some l =>
    let l := { l with
      rxCount := if f.phase = l.farPhase then max l.rxCount (f.counter + 1) else f.counter + 1
      farPhase := f.phase }
    s.onKey fun k => { k with links := k.links.set f.port l.shed }
/-- A sequenced frame arrives (R336, R338): the next SEQ that passes its checks is accepted, and `k` is what it brings. -/
def frameTaken (f : FrameIn) (k : State → State) (s : State) : State :=
  let p := f.light.port
  let x := s.port p
  if !linkUp s p then s
  else if !f.intact then sendNak p (bump (0xC42200 + p + 1) 1 s)
  else if !(f.tagOk && phaseHeld s p f.light.phase) then sendNak p (tagFails p s)
  else if f.seq % 4096 = (x.rxSeq + 1) % 4096 then k (acceptSeq p (farCounted f.light s))
  else if (x.rxSeq + 4096 - f.seq % 4096) % 4096 < 2048 then s
  else if x.nakSent then s else sendNak p s
/-- The packets of a GYCIA frame that is accepted (R337). A frame of a reserved KIND brings nothing (R10; DESIGN CHOICE, log entry 56: the
chapter names no refusal for it). -/
def packetsTaken (f : Light) (plot : Nat) (packets : List Packet) (s : State) : State :=
  let p := f.port
  if f.kind ≠ 0 then s
  else if isUplink s p && packets.any (fun k => Packet.plot k != plot || plot != portPlot s p) then forAll packets (packetRefused p) s
  else forAll packets (packetEnters p) s
/-- A GYCIA frame arrives (R337, R338). -/
def gyciaArrives (f : FrameIn) (plot : Nat) (packets : List Packet) (s : State) : State := frameTaken f (packetsTaken f.light plot packets) s
/-- The far end's DORMANT frame arrives (R335). -/
def dormantArrives (f : FrameIn) (s : State) : State :=
  frameTaken f (fun s =>
    let x := s.port f.light.port
    if x.st = .dormant ∨ x.st.serves then s.onPort f.light.port fun x => { x with farDormant := true } else s) s
/-- An IDENT arrives (R347). -/
def identArrives (f : FrameIn) (body : List Byte) (s : State) : State :=
  let p := f.light.port
  frameTaken f (fun s =>
    if (s.port p).st = .identifying then compareIdent p (s.onPort p fun x => { x with ident := takePad 64 body }) else s) s
/-- A KEYX exchange arrives (R309). -/
def keyxArrives (f : FrameIn) (chain pub sig : List Byte) (hub : Bool) (s : State) : State :=
  frameTaken f (keyxTaken f.light.port chain pub sig hub) s
/-- The frames of the replay buffer go out again, in order (R338). -/
def replayAll (p : Nat) (s : State) : State :=
  let l := (s.port p).replay
  let s := forAll l (fun f s => emit (.link p f (s.port p).blockNo) (framesDealt p (f.bytes / 32) s)) s
  if l.isEmpty then s else bump (0xC42300 + p + 1) l.length s
/-- Credits returned: the difference of two cumulative counts, modulo 2^32 (R339). -/
def returned (new old : Nat) : Nat := (new + 2 ^ 32 - old % 2 ^ 32) % 2 ^ 32
/-- The frames an ACKSEQ covers leave the replay buffer (R338). -/
def ackFrames (p ack : Nat) (s : State) : State :=
  let x := s.port p
  if x.replay.any fun f => f.seq == ack then
    let rest := (x.replay.dropWhile fun f => f.seq != ack).drop 1
    let n := x.replay.length - rest.length
    let s := s.onPort p fun y => { y with replay := rest, ackSeq := ack, ackTime := s.now, naks := 0 }
    match s.key.links.find p with
    | some l => rekeyTurn p (s.onKey fun k => { k with links := k.links.set p ({ l with oldFrames := l.oldFrames - n } : LinkKey).shed })
    | none => s
  else s
/-- RXLOCK of the far end: since when it shows a lane dealt blocks unlocked (R342). -/
def farDarkSeen (p : Nat) (s : State) : State :=
  s.onPort p fun x => { x with farDark := x.dealt.foldl (fun m i =>
    if bitOf x.farLock i then m.erase i else if (m.find i).isNone then m.set i s.now else m) x.farDark }
/-- A lane that RXLOCK has shown unlocked for 10 µs fails (R342). -/
def farDarkFails (p : Nat) (s : State) : State :=
  forAll ((s.port p).dealt.filter fun i => ((s.port p).farDark.find i).any fun t => elapsed s t 10000)
    (fun i s => laneDies p i (s.onPort p fun x => { x with farDark := x.farDark.erase i })) s
/-- A LINK frame arrives (R339): acknowledgement, credits, and a request for replay. -/
def linkArrives (p ack : Nat) (nak : Bool) (mem sig msg red rxlock : Nat) (s : State) : State :=
  if !linkUp s p then s
  else
    let s := ackFrames p (ack % 4096) s
    let s := s.onPort p fun x => { x with
      credits := { mem := x.credits.mem + returned mem x.farFreed.mem, sig := x.credits.sig + returned sig x.farFreed.sig
                   msg := x.credits.msg + returned msg x.farFreed.msg, red := x.credits.red + returned red x.farFreed.red }
      farFreed := { mem := mem % 2 ^ 32, sig := sig % 2 ^ 32, msg := msg % 2 ^ 32, red := red % 2 ^ 32 }
      farLock := rxlock % 256 }
    let s := farDarkFails p (farDarkSeen p s)
    if nak && (s.port p).retrain.isNone then
      let s := replayAll p (s.onPort p fun x => { x with naks := x.naks + 1 })
      if 8 ≤ (s.port p).naks then retrainBegins p 0 s else linkDrain p s
    else linkDrain p s
/-- A LINK frame is due: at least one per µs (R339). -/
def linkTimer (p : Nat) (s : State) : State :=
  if linkUp s p && elapsed s (s.port p).linkSent 1000 then linkFrameOut p s else s
/-- ACKSEQ has not advanced for 20 µs with frames unacknowledged (R341). -/
def ackStalls (p : Nat) (s : State) : State :=
  let x := s.port p
  if linkUp s p && x.retrain.isNone && !x.replay.isEmpty && elapsed s x.ackTime 20000 then retrainBegins p 1 s else s
/-- A link retrain ends: the port replays everything after ACKSEQ (R341). -/
def retrainEnds (p : Nat) (s : State) : State :=
  match (s.port p).retrain with
  | none => s
  | some (t, cause) =>
    linkDrain p (replayAll p (retrainEvent p t cause (s.onPort p fun x => { x with retrain := none, naks := 0, naksOut := 0, ackTime := s.now })))
/-- A retrain has run out of time (R341, R345). -/
def retrainExpires (p : Nat) (s : State) : State :=
  match (s.port p).retrain with
  | none => s
  | some (t, _) => if elapsed s t (1000 * cfg 0x302002 2000 s) then portLost p 2 (soundCircuits s p).length s else s

/-! Sparing (R344). -/

/-- A DEGRADED port with all its lanes is ACTIVE again (R344). -/
def portMends (p : Nat) (s : State) : State :=
  let s := dealLanes p s
  if (s.port p).st = .degraded ∧ (soundCircuits s p).length = laneCount s p then s.onPort p fun x => { x with st := .active } else s
/-- The state of a sound lane of a port. -/
def laneOf (s : State) (p : Nat) : LaneSt := if (s.port p).st.serves then .active else .idleFill
/-- A spare has relocked on the position it was steered to (R344), for a peer without the feature after a full training of the lane (R349):
the failed circuit is retired. -/
def spareJoins (e k : Nat) (s : State) : State :=
  let x := s.lane e k
  match x.joining with
  | none => s
  | some j =>
    let p := portAt s e x.pos
    if !bitOf (features s p) 5 && !(x.eq && x.alock) then s else
    let s := s.onLane e k fun y => { y with
      st := laneOf s p, joining := none, failed := false, cdr := true, eq := true, alock := true, lane := (s.lane e j).lane }
    let s := s.onLane e j fun y => { y with retired := true, st := .off }
    portMends p (raise 0x3103 [e, j, k, x.pos, sparesLeft s e] (bump 0xC40501 1 s))
/-- A failed lane that was not spared recovers (R344). -/
def laneRelocks (e j : Nat) (s : State) : State :=
  let x := s.lane e j
  let p := portAt s e x.pos
  if !x.failed || x.retired || x.pos == 0x3F || x.joining.isSome then s
  else portMends p (s.onLane e j fun y => { y with failed := false, cdr := true, eq := true, alock := true, st := laneOf s p })
/-- Too few lanes of a port hold signal (R345). -/
def signalLost (p lanes : Nat) (s : State) : State :=
  let x := s.port p
  if laneMin s p ≤ lanes then s
  else if x.st.holds then portLost p 0 lanes s
  else if x.st = .training ∨ x.st = .aligning then portDown p s
  else s

/-! Eye scan (R346). -/

/-- PORT_EYE_CMD holds what is written to it (Table 13-14). -/
def eyeKeeps (e : Nat) (c : EyeCmd) (s : State) : State := s.onPorts fun x => { x with eyeCmd := x.eyeCmd.set e c }
/-- A point begins on the circuits of a mask (Table 13-14): eye 3 and a DWELL outside 16-40 are refused. -/
def eyeBegins (e lanes phase volt eye dwell : Nat) (s : State) : Nat × State :=
  let s := eyeKeeps e { lanes, phase, volt, eye, dwell } s
  if eye = 3 ∨ dwell < 16 ∨ 40 < dwell then (St.malformed, s)
  else
    let mask := lanes % 2 ^ 34
    (St.ok, s.onPorts fun x => { x with
      eyeRun := x.eyeRun.set e { mask, phase := phase % 64, volt := volt % 128, eye := eye % 4, dwell, start := s.now }
      eyeDone := x.eyeDone.set e (x.eyeDone.getD e 0 - (x.eyeDone.getD e 0 &&& mask)) })
/-- The dwell of a point is over: 2^DWELL symbols at 212.5 GBd. -/
def eyeEnds (e : Nat) (results : List (Nat × Nat)) (s : State) : State :=
  match s.ports.eyeRun.find e with
  | none => s
  | some r =>
    if !elapsed s r.start (2 ^ r.dwell * 2 / 425) then s
    else
      let mine := results.filter fun q => decide (q.1 < 34) && bitOf r.mask q.1
      s.onPorts fun x => { x with
        eyeRun := x.eyeRun.erase e
        eyeDone := x.eyeDone.set e (x.eyeDone.getD e 0 ||| r.mask)
        eyeResult := mine.foldl (fun m q => m.set (34 * e + q.1) (q.2 % 2 ^ 40)) x.eyeResult }
/-- A periodic scan of the ACTIVE lanes: port, lane, worst eye, width and height. -/
def eyePeriod (results : List (Nat × Nat × Nat × Nat × Nat)) (s : State) : State :=
  let period := cfg 0x304001 3600 s
  if firmwareDown s ∨ period = 0 ∨ !elapsed s s.ports.eyeScanned (period * 1000000000) then s
  else
    forAll results (fun q s =>
      let (p, lane, eye, width, height) := q
      if !(s.port p).dealt.contains lane then s
      else
        let s := s.onPort p fun x => { x with eyes := x.eyes.set lane (width % 256, height % 256, eye) }
        if width < cfg 0x304002 12 s then raise 0x3109 [p, lane, eye, width, height] s else s)
      (s.onPorts fun x => { x with eyeScanned := s.now })

/-! Optical health (R343, Table 13-7). -/

/-- A signed object's value. -/
def cfgInt (key : Nat) (dflt : Int) (s : State) : Int := signed 32 (cfg key (unsigned 32 dflt) s)
/-- A level with its hysteresis of 0.5 dB: `at_ k m` tells whether level k's threshold is crossed, relaxed by m. -/
def levelOf (at_ : Nat → Int → Bool) (old : Nat) : Nat :=
  let top (m : Int) : Nat := if at_ 3 m then 3 else if at_ 2 m then 2 else if at_ 1 m then 1 else 0
  max (top 0) (min old (top 50))
/-- Received power levels (Table 13-7). -/
def rxAt (s : State) (v : Int) (k : Nat) (m : Int) : Bool :=
  if k = 3 then decide (v < -1500 + m)
  else if k = 2 then decide (v < cfgInt 0x303102 (-800) s + m) || decide (500 - m < v)
  else decide (v < cfgInt 0x303101 (-500) s + m) || decide (300 - m < v)
/-- Back-reflection levels. -/
def reflAt (s : State) (v : Int) (k : Nat) (m : Int) : Bool :=
  if k = 3 then false
  else if k = 2 then decide (cfgInt 0x303104 (-2600) s - m < v) else decide (cfgInt 0x303103 (-3500) s - m < v)
/-- Transmit power levels. -/
def txAt (v : Int) (k : Nat) (m : Int) : Bool :=
  if k = 3 then false else if k = 2 then decide (v < -300 + m) else decide (v < -100 + m)
/-- Laser input levels. -/
def laserAt (v : Int) (k : Nat) (m : Int) : Bool :=
  if k = 3 then false else if k = 2 then decide (v < 1400 + m) else decide (v < 1700 + m)
/-- OPT_HEALTH when a level has changed: measure 0 received, 1 back-reflection, 2 transmit, 3 laser. -/
def healthEvent (e place measure old new : Nat) (v : Int) (s : State) : State :=
  if old = new then s else raise 0x310A [e, place, measure, new, unsigned 16 v] s
/-- The measures of one position: a lane whose received power is below LOS fails (R342). -/
def optMeasure (e pos : Nat) (m : Int × Int × Int) (s : State) : State :=
  let o := s.opt e pos
  let n : Opt := { rx := m.1, refl := m.2.1, tx := m.2.2
                   rxLevel := levelOf (rxAt s m.1) o.rxLevel, reflLevel := levelOf (reflAt s m.2.1) o.reflLevel
                   txLevel := levelOf (txAt m.2.2) o.txLevel }
  let s := s.onPorts fun x => { x with opts := x.opts.set (32 * e + pos) n }
  let s := healthEvent e pos 2 o.txLevel n.txLevel n.tx (healthEvent e pos 1 o.reflLevel n.reflLevel n.refl
    (healthEvent e pos 0 o.rxLevel n.rxLevel n.rx s))
  match if n.rxLevel = 3 then circuitAt s e pos else none with
  | some j => laneFails e j true s
  | none => s
/-- A laser input (R326): a power at ALARM raises OPT_LASER_LOW. -/
def laserMeasure (e f : Nat) (v : Int) (s : State) : State :=
  let old := (s.ports.lasers.getD (2 * e + f) (0, 0)).2
  let new := levelOf (laserAt v) old
  let s := s.onPorts fun x => { x with lasers := x.lasers.set (2 * e + f) (v, new) }
  let s := healthEvent e f 3 old new v s
  if new = 2 ∧ old ≠ 2 then raise 0x310B [e, f, unsigned 16 v] s else s
/-- The poll of an engine's optics, once per 10 ms (R343). -/
def optPoll (e : Nat) (lanes : List (Int × Int × Int)) (lasers : List Int) (s : State) : State :=
  if firmwareDown s || !domainOn s e || !elapsed s (s.ports.optPolled.getD e 0) 10000000 then s
  else
    let s := s.onPorts fun x => { x with optPolled := x.optPolled.set e s.now }
    let s := forAll ((lanes.take 32).zipIdx) (fun q => optMeasure e q.2 q.1) s
    forAll ((lasers.take 2).zipIdx) (fun q => laserMeasure e q.2 q.1) s

/-! Power (R331, R396, R417). -/

/-- A port group goes off (R331): its ports are DOWN; those that carried traffic are lost. -/
def groupOff (e : Nat) (s : State) : State :=
  forAll (List.range 8) (fun k s =>
    let p := 8 * e + k
    if (s.port p).st = .down then s else portDown p (portDrop p s))
    (forAll [32, 33] (fun j s => if (s.lane e j).pos = 0x3F then s.onLane e j fun x => { x with st := .off } else s) s)
/-- The ports of a powered group are enabled and train, at the entry to TRAINED (R398), with `LaneRetireMask` applied (R402). -/
def groupEnable (e : Nat) (s : State) : State :=
  let mask := laneMask s e
  let s := forAll [32, 33] (fun j s => if bitOf mask j then s.onLane e j fun x => { x with retired := true } else s) s
  let s := forAll ((List.range 32).filter fun j => bitOf mask j) (fun j s =>
    let pos := (s.lane e j).pos
    let spare := nextSpare s e
    let s := s.onLane e j fun x => { x with retired := true, st := .off, pos := 0x3F }
    match spare with
    | some k => s.onLane e k fun x => { x with pos }
    | none => s) s
  let s := forAll [32, 33] (fun j s =>
    if (s.lane e j).pos = 0x3F && !(s.lane e j).retired then s.onLane e j fun x => { x with st := .idleFill } else s) s
  forAll (List.range 8) (fun k s => if oddOfBond s (8 * e + k) then s else portTrains 0 (8 * e + k) s) s

/-! What the PORT registers read (Tables 13-12 and 13-13). -/

/-- STATE of PORT_LANE_STATUS (Table 13-13). -/
def LaneSt.code : LaneSt → Nat
  | .off => 0
  | .dormant => 1
  | .training => 2
  | .active => 3
  | .idleFill => 4
/-- PORT_LANE_STATUS of a circuit (Table 13-13). -/
def laneStatus (s : State) (e j : Nat) : Nat :=
  let x := s.lane e j
  x.st.code + 2 ^ 3 * b2n x.cdr + 2 ^ 4 * b2n x.eq + 2 ^ 5 * b2n x.alock + 2 ^ 6 * b2n x.retired + 2 ^ 8 * (x.pos % 64) +
    2 ^ 14 * (x.lane % 8) + 2 ^ 17 * (x.slip % 2 ^ 13)
/-- A mask of the circuits of an engine that satisfy a test. -/
def circuitMask (f : Nat → Bool) : Nat := ((List.range 34).map fun j => if f j then 2 ^ j else 0).sum
/-- PORT_GROUP_STATUS (Table 13-12): a circuit in use drives a position. -/
def groupStatus (s : State) (e : Nat) : Nat :=
  circuitMask (fun j => (s.lane e j).pos != 0x3F && !(s.lane e j).retired) + 2 ^ 34 * (sparesLeft s e % 4) + 2 ^ 36 * b2n (domainOn s e)
/-- PORT_SLIP_STATUS (Table 13-12). -/
def slipStatus (s : State) (e : Nat) : Nat := circuitMask fun j => (s.lane e j).alock
/-- PORT_OPT_LANE of a position (Table 13-12). -/
def optLane (s : State) (e i : Nat) : Nat :=
  let o := s.opt e i
  unsigned 16 o.rx + 2 ^ 16 * unsigned 16 o.refl + 2 ^ 32 * unsigned 16 o.tx + 2 ^ 48 * (o.rxLevel % 4) + 2 ^ 50 * (o.reflLevel % 4) +
    2 ^ 52 * (o.txLevel % 4)
/-- PORT_OPT_LASER of a laser fibre (Table 13-12). -/
def optLaser (s : State) (e f : Nat) : Nat :=
  let o := s.ports.lasers.getD (2 * e + f) (0, 0)
  unsigned 16 o.1 + 2 ^ 16 * (o.2 % 4)
/-- PORT_EYE_RESULT of a circuit (Table 13-12). -/
def eyeResultOf (s : State) (e j : Nat) : Nat := s.ports.eyeResult.getD (34 * e + j) 0
/-- The hub-to-far key of a key phase (R310); empty before there is one. -/
def sendKey (s : State) (p : Nat) (phase : Bool) : List Byte :=
  let l := (s.key.links.find p).getD {}
  if phase = l.phase then l.key else l.oldKey
/-- A sequenced frame as the lanes of its port carry it, from the number of its first block (R310, R327, R336). -/
def frameOnLanes (s : State) (p : Nat) (f : SentFrame) (first : Nat) : List (Nat × Block257) :=
  dealBlocks (s.port p).dealt first (frameBlocks (f.image (sendKey s p f.phase)))
/-- A LINK frame's bytes (R310, R336, R339). -/
def linkImage (s : State) (p ack : Nat) (nak : Bool) (freed : Credits) (rxlock : Nat) (phase : Bool) (counter : Nat) : List Byte :=
  frameBytesOf ((sendKey s p phase).take 32) (frameHeader 1 phase 0 15 32 counter) (linkBody ack nak freed rxlock) counter
/-- `PortState` of a port: the odd port of a bonded pair reads the even port's (R331). -/
def portState (s : State) (p : Nat) : PortSt := (s.port (portName s p)).st

end Sys2Proof.Machine
end

