-- ==== Sys2Proof/Machine/Settle.lean ====
section
/-! DEFINITION. The firing of watches (R259, R260, R267), and what the units do of their own accord once a command has had its effect:
their requests enter the hub, waiting accesses and descriptors go on, collectives take their turn. -/

namespace Sys2Proof.Machine

/-! Firing (R259, R260, R262). -/

/-- The message of a firing (R259): an MSG_SEND of LEN 32 from node 0xC0 with IMM = TAG. -/
def firingSend (r : Retry) (s : State) : State :=
  let r := { r with sent := s.now }
  unitSend (.firing r) Op.msgSend
    { plot := r.plot, len := 32, dst := r.tnode, opa := BitVec.ofNat 48 r.tag, opb := r.tqueue % 256 * 256 } r.data s

/-- Fire a watch of a counter (R259, R260). -/
def fire (w : Nat) (x : Watch) (s : State) : State :=
  let v := ctrVal s x.ctr
  let plot := (watchPlot s w).getD 0
  let q := fireLeaves w x s
  let s := bump 0xC40A04 1 q.2.2
  match x.act with
  | .doorbell => ringDoorbell 4 w w s
  | .wake =>
    match x.core with
    | some c => wakeThread w x.ctr c x.thread (x.mode == .rearm) s
    | none => s
  | .msg =>
    firingSend { watch := w, ctr := x.ctr, tnode := x.tnode, tqueue := x.tqueue, tag := x.tag, plot
                 data := firingPayload v q.1 x.ctr w q.2.1, claim := x.mode == .claim, sent := s.now } s

/-- Fire watches of the counters that have been touched, oldest counter first, at most `n` firings (R259). -/
def fireSome : Nat → State → State
  | 0, s => s
  | n + 1, s =>
    match s.sync.touched.find? fun c => (nextFiring s c).isSome with
    | none => s.onSync fun y => { y with touched := [] }
    | some c =>
      match nextFiring s c with
      | none => s
      | some (w, x) => fireSome n (fire w x s)

/-- A firing is lost (R267): counted, reported, and a CLAIM grant returned. -/
def firingLost (r : Retry) (s : State) : State :=
  let gone := (lepOf r.tnode < 0x80 && !portServes s (lepOf r.tnode) : Bool)
  let s := raise 0x8202 [r.watch, r.ctr, 0, r.tnode, b2n gone] (bump 0xC40A05 1 s)
  if r.claim then grantBack r.ctr s else s

/-- Send the oldest refused firing message again, 1 µs after it was last sent (R267). -/
def firingAgain (s : State) : State :=
  match s.sync.retries with
  | [] => s
  | r :: rest => if elapsed s r.sent 1000 then firingSend r (s.onSync fun y => { y with retries := rest }) else s

/-- Drop the oldest firing message whose time has run out (R267). -/
def firingExpires (s : State) : State :=
  let late (r : Retry) : Bool := match r.since with
    | none => false
    | some t => elapsed s t (1000 * cfg 0x821001 1000 s)
  match s.sync.retries.find? late with
  | none => s
  | some r => firingLost r (s.onSync fun y => { y with retries := dropFirst late y.retries })

/-- The unit takes the answers to firing messages (R267): a refused one is kept to be sent again. -/
def firingAnswers (s : State) : State :=
  let mine (a : UnitAnswer) : Bool := match a.op with
    | .firing _ => true
    | _ => false
  let kept := s.coll.answers.filterMap fun a =>
    match a.op with
    | .firing r => if a.status = St.ok then none else some { r with since := some (r.since.getD a.time) }
    | _ => none
  let s := s.onColl fun c => { c with answers := c.answers.filter fun a => !mine a }
  s.onSync fun y => { y with retries := y.retries ++ kept }

/-! What goes on of itself. -/

/-- The requests of the hub's own units enter the hub (R29). -/
def drainOutbox : Nat → State → State
  | 0, s => s
  | n + 1, s =>
    match s.coll.outbox with
    | [] => s
    | r :: rest => drainOutbox n (serve r (s.onColl fun c => { c with outbox := rest }))

/-- Waiting accesses and descriptors go on as far as they can; `filled`: the block whose fill has just come (R44, R203, R278). Copy frames
whose last read has been answered are freed (R135). -/
def resume (filled : Option Nat) (s : State) : State := sweepCopies (furSettle (nomMoves (recordEnds (genMoves (hostMoves filled (dmaMoves (stallMoves (retryPool filled s))))))))

/-- Once a command has had its effect: a queued core reset begins, waiting accesses and descriptors go on, the units' requests enter
the hub, and the collective and synchronisation units take the answers that have come; a draining device reset may end (R407;
log entry 21). -/
def settle (s : State) : State :=
  let s := switchMoves (resume none (resetTurn s))
  let s := drainOutbox (s.coll.outbox.length + 64) s
  let s := firingAnswers (collSettle s)
  drainTurn (drainOutbox (s.coll.outbox.length + 64) s)

/-- What follows when a step has lost a port (R345, R437): what goes on of itself; a step that loses none leaves nothing to go on. -/
def settleLost (s t : State) : State := if counter t 0xC40502 = counter s 0xC40502 then t else settle t

end Sys2Proof.Machine
end

