-- ==== Sys2Proof/Machine/CompanionOps.lean ====
section
/-! DEFINITION. Loss of the companion (R166, R358) and the snoop filter's dealings with the host (R163-R166, R356). -/

namespace Sys2Proof.Machine

/-- The host's requests that the gate counts and that wait in the hub, at the pool, in translation or in the switch core (R46, R358). -/
def hostCounted (s : State) : List Req :=
  (s.pool.waiting.map PoolWait.req ++ s.xlt.stalled.map Prod.fst ++ (gatedFrames s).map Frame.req).filter fun r =>
    r.via == .host && opGated r.op
/-- Nothing collects the answer to a host request any more: it is collected under a gather number that no record bears (R358). -/
def unanswered (n : Nat) (r : Req) (g : Option Nat) : Option Nat := if r.via == .host then some n else g
/-- The host's requests not yet answered are discarded, the gather records of its sowings with them (R358): the gate counts those that wait
in the hub no more (R46), and the answers to those that have left by a port are for nobody (DEDUCED, log entry 59). -/
def hostDiscarded (s : State) : State :=
  let out := hostCounted s
  let s := (dropFrames (fun x => x.req.via == .host) s).onSw fun w => { w with
    gathers := w.gathers.filter fun g => g.req.via != .host
    nextGather := w.nextGather + 1
    records := w.records.mapV fun _ l => l.map fun f => { f with gather := unanswered w.nextGather f.req f.gather }
    stage := w.stage.mapV fun _ l => l.map fun y => (y.1, { y.2 with gather := unanswered w.nextGather y.2.req y.2.gather }) }
  let s := s.onXlt fun x => { x with stalled := x.stalled.filter fun q => q.1.via != .host }
  let s := s.onPool fun p => { p with waiting := p.waiting.filter fun w => w.req.via != .host }
  forAll out (fun r => gateAnswered r.h.src r.h.dst) s

/-- The companion is lost (R358): cause 0 heartbeat, 1 link, 2 snoop. Host requests are discarded, the rings are disabled, the
filter walk begins, and outstanding faults are resolved. -/
def companionLost (cause : Nat) (s : State) : State :=
  if s.lania.comp = .lost then s
  else
    let since := match s.lania.beat with
      | none => 0
      | some t => (s.now - t) / 1000
    let s := raise 0x2101 [cause, since] (bump 0xC40D04 1 s)
    let s := s.onLania fun l => { l with comp := .lost, lostSince := s.now, enable := false, waiting := [], dmas := [] }
    let s := hostDiscarded s
    let s := s.onXlt fun x => { x with fqEnable := false }
    let s := unitDone 70 (unitDone 71 (s.onPool fun p => { p with
      nomEnable := false, nomWaiting := []
      waiting := p.waiting.filter fun w => !(w.unit.any fun q => q.1 == 70 || q.1 == 71) }))
    let s := s.onCoh fun c => { c with walkSince := some s.now, snoops := [], hostWaits := [] }
    faultsFail (fun _ => true) s

/-- The walk of R166 ends: every entry it has not met yet is converted. -/
def walkFilter (s : State) : State :=
  match s.coh.walkSince with
  | none => s
  | some t =>
    let s := forAll (s.coh.filter.map Prod.fst) meetWalk s
    raise 0x610C [s.coh.orphanedNow, s.coh.freedNow, s.now - t]
      (s.onCoh fun c => { c with walkSince := none, orphanedNow := 0, freedNow := 0 })

/-- The host answers a snoop (R163, R356), with the line's data when it was modified. A victim whose snoop did not invalidate is
snooped again (R165). -/
def snoopAnswered (line : Nat) (data : Option (List Byte)) (s : State) : State :=
  match s.coh.snoops.find? fun q => q.1 == line with
  | none => s
  | some (_, inv, _) =>
    let s := s.onCoh fun c => { c with snoops := dropFirst (fun q => q.1 == line) c.snoops }
    let s := match data with
      | none => s
      | some d => hostStore line d s
    if inv then cohLeave line s
    else
      let s := s.onCoh fun c =>
        match c.filter.find line with
        | none => c
        | some e => { c with filter := c.filter.set line { e with st := .shared } }
      if s.coh.hostWaits.any fun w => w.victim == some line then sendSnoop line true s else s

/-- Whether a line's extent is DRAINING (R127). -/
def lineRevoked (s : State) (line : Nat) : Bool :=
  match paExt s (line * 128) with
  | some x => (s.ext x).state == .draining
  | none => false

/-- The answer to a write-back or an eviction of a line that the host does not hold so: FAIL_PROTECTION or the pool's other refusal for a
line it may not reach (R356), else FAIL_STATE, without effect (DESIGN CHOICE: the manual gives no answer for a plot 0 line without an
entry; log entry 52). -/
def strayStatus (s : State) (line : Nat) : Nat :=
  match poolPlace s (line * 128) 0 (nodeOf s 0xC1) false with
  | .error st => st
  | .ok (.at _ none) => St.state
  | .ok _ => St.protection

/-- The host writes a line back (R356): a write-back that crosses a snoop of the line is taken as the snoop's data; one that reaches a
DRAINING extent fails and has no effect (R127). -/
def hostWriteBack (line : Nat) (data : List Byte) (s : State) : State :=
  if !s.lania.up then s
  else
    let s := meetWalk line s
    match snoopSt s line with
    | some (.orphaned _) => emit (.coh line St.orphaned []) (bump 0xC40603 1 s)
    | some .exclusive | some .modified =>
      let crossed := s.coh.snoops.any fun q => q.1 == line
      let st := if lineRevoked s line then St.revoked else St.ok
      let s := if st = St.ok then hostStore line data s else s
      emit (.coh line st []) (if crossed then s else cohLeave line s)
    | _ => emit (.coh line (strayStatus s line) []) s

/-- The host gives a clean line up (R356). -/
def hostEvicts (line : Nat) (s : State) : State :=
  if !s.lania.up then s
  else
    let s := meetWalk line s
    match snoopSt s line with
    | some (.orphaned _) => emit (.coh line St.orphaned []) (bump 0xC40603 1 s)
    | none => emit (.coh line (strayStatus s line) []) s
    | _ =>
      let s := if (s.coh.snoops.any fun q => q.1 == line) then s else cohLeave line s
      emit (.coh line St.ok []) s

/-- A snoop is not answered within `SnoopTimeout` (R164): loss of the companion. -/
def snoopExpires (line : Nat) (s : State) : State :=
  match s.coh.snoops.find? fun q => q.1 == line with
  | none => s
  | some (_, inv, t) =>
    if !elapsed s t (1000 * cfg 0x631002 20 s) then s
    else
      let x := (extOf (line * 128)).getD 0xFFFF
      companionLost 2 (raise 0x610D [x, (line * 128 - (extBase x).getD 0) / 128, b2n inv, s.now - t] s)

/-- `OrphanResolve` (R168): an ADP result, and the state after it. An extent number that is never present has no ORPHANED line. -/
def orphanResolve (x line : Nat) (data : Option (List Byte)) (s : State) : Nat × State :=
  if !inService s then (Adp.state, s)
  else if 0x4FFF < x then (Adp.range, s)
  else
    match extBase x with
    | none => (Adp.state, s)
    | some base =>
      let l := base / 128 + line
      if 2 ^ 21 ≤ line || !isOrphaned s l then (Adp.state, s)
      else
        let s := s.onCoh fun c => { c with filter := c.filter.erase l }
        let s := match data with
          | none => s
          | some d => hostStore l d s
        (Adp.ok, bump 0xC40604 1 s)

end Sys2Proof.Machine
end

