-- ==== Sys2Proof/Machine/ExtentOps.lean ====
section
/-! DEFINITION. Extent commands and the life of an extent (R126-R128, R146-R148, R364, R365). -/

namespace Sys2Proof.Machine

/-- The register status of an ADP result (R126): OK, FAIL_PROTECTION for a field value, FAIL_STATE for a state. -/
def statusOf (res : Nat) : Nat := if res = Adp.ok then St.ok else if res = Adp.range then St.protection else St.state

/-- Whether an extent command is still being accepted (R126, R364): 20,000 per second, and an ADOPT while the device answers. -/
def extentBusy (s : State) : Bool :=
  (match s.pool.extLast with | none => false | some t => !elapsed s t 50000) || s.cxl.ops.any fun o => o.kind != 2

/-- Whether a grant list has been written (R125); list 0 names none. -/
def grantWritten (s : State) (g : Nat) : Bool := g == 0 || (s.pool.grants.find g).isSome

/-- A field value of ASSIGN or ADOPT that Table 5-7 refuses, or a reserved encoding (R10). -/
def assignBad (s : State) (x plot owner grantAll role : Nat) : Bool :=
  decide (8 < plot) || decide (2 ≤ role) || grantAll == 3 || (extTier x == 1 && setPlot s (extSet x) != some plot) ||
    (if role = 1 then owner != 0xC0 else !lepInPlot s owner plot)

/-- Whether a channel set of a tier 1 extent takes no new data (R143). -/
def setClosed (s : State) (x : Nat) : Bool := extTier x == 1 && s.pool.setState.getD (extSet x) 0 != 0

/-- An ASSIGNED descriptor with the fields of a command (Table 5-6). -/
def assignedExt (plot owner grantAll grantList role : Nat) (versioned : Bool) : Extent :=
  { state := .assigned, plot, role, owner, grantAll, grantList, versioned := versioned && role == 0 }

/-- ASSIGN (Table 5-7): an ADP result, and the state after it. -/
def assignExtent (x plot owner grantAll grantList role : Nat) (versioned : Bool) (s : State) : Nat × State :=
  if 0x5000 ≤ x then (Adp.range, s)
  else if (s.ext x).state != .free || !extPresent s x || !extLocal s x || extReserved s x || setClosed s x then (Adp.state, s)
  else if assignBad s x plot owner grantAll role then (Adp.range, s)
  else (Adp.ok, s.onExt x fun e => { assignedExt plot owner grantAll grantList role versioned with held := e.held })

/-- REGRANT (Table 5-7). -/
def regrantExtent (x grantAll grantList : Nat) (s : State) : Nat × State :=
  if 0x5000 ≤ x then (Adp.range, s)
  else if (s.ext x).state != .assigned || (s.ext x).role != 0 then (Adp.state, s)
  else if grantAll = 3 ∨ !grantWritten s grantList then (Adp.range, s)
  else (Adp.ok, s.onExt x fun e => { e with grantAll, grantList })

/-- Whether a frame of an extent lies in use for another extent's page or copy, or is to take a page that a queued migration moves. -/
def reserveUsed (s : State) (x : Nat) : Bool :=
  (s.pool.frames.any fun kv => kv.2 != .free && extOf (kv.1 * frameBytes) == some x) ||
    s.pool.migrations.any fun m => extOf (m.target * frameBytes) == some x

/-- The dirty lines of an extent in core data caches are written back and dropped (R127). -/
def extentFlush (x : Nat) (s : State) : State :=
  forAll (s.fur.cores.map Prod.fst) (fun c s =>
    let dirty := (s.core c).cache.filter fun l => l.dirty && paExt s (l.pline * 128) == some x
    let s := forAll dirty (writeOut c) s
    s.onCore c fun k => { k with cache := k.cache.filter fun l => !(l.dirty && paExt s (l.pline * 128) == some x) }) s

/-- Digest passes over an extent that is revoked end with GONE (R299). -/
def regionsGone (x : Nat) (s : State) : State :=
  s.onChk fun k => { k with regions := k.regions.mapV fun _ r =>
    if r.first ≤ x ∧ x < r.first + r.count then { r with gone := r.running && !r.failed, enable := false } else r }

/-- An extent drains (R127): queued migrations of it fail, and its dirty lines are written back. -/
def drainExtent (releasing : Bool) (x : Nat) (s : State) : State :=
  let s := extentFlush x s
  let gone := s.pool.migrations.any fun m => m.ext == x
  let s := s.onPool fun p => { p with
    migrations := p.migrations.filter fun m => m.ext != x
    migStatus := if gone then St.revoked else p.migStatus
    migDone := p.migDone || (p.migrations.filter fun m => m.ext != x).isEmpty }
  regionsGone x (s.onExt x fun e => { e with state := .draining, drainSince := s.now, releasing, drainExpired := false })

/-- REVOKE (Table 5-7, R127). -/
def revokeExtent (x : Nat) (s : State) : Nat × State :=
  let e := s.ext x
  if 0x5000 ≤ x then (Adp.range, s)
  else if e.state != .assigned || decide (2 ≤ e.role) || (e.role == 1 && reserveUsed s x) then (Adp.state, s)
  else (Adp.ok, drainExtent false x s)

/-- RELEASE (Table 5-7, R127, R146). -/
def releaseExtent (x : Nat) (s : State) : Nat × State :=
  if 0x5000 ≤ x then (Adp.range, s)
  else if (s.ext x).state != .assigned || extTier x != 3 || decide (2 ≤ (s.ext x).role) then (Adp.state, s)
  else (Adp.ok, drainExtent true x s)

/-! Ownership of tier 3 extents (R146-R148, R364, R443, R444). -/

/-- Whether a frame lies in a tier 3 extent that this hub does not hold. -/
def frameAway (s : State) (f : Nat) : Bool :=
  match extOf (f * frameBytes) with
  | some z => extTier z == 3 && !(s.ext z).held
  | none => false
/-- Whether a copy of a page of an extent, as this hub or the device's version table knows it, lies in a tier 3 RESERVE extent that this
hub does not hold (R148). -/
def copyElsewhere (s : State) (x : Nat) : Bool :=
  (s.pool.frames.any fun kv =>
    match kv.2 with
    | .copy y _ _ => y == x && frameAway s kv.1
    | _ => false) || (s.cxl.kept.getD x {}).copies.any fun c => frameAway s c.1

/-- The copies of an extent's pages are those its version table names (R146). -/
def copiesFrom (x : Nat) (t : DevTable) (m : FMap FrameUse) : FMap FrameUse :=
  t.copies.foldl (fun m c => m.set c.1 (.copy x c.2.1 c.2.2)) (m.keep fun _ u =>
    match u with
    | .copy y _ _ => y != x
    | _ => true)

/-- The device's metadata of an extent, with what the partner wrote to it: it replaces what this hub knew of the extent (R146, R276, R307,
R318). -/
def tableArrives (x : Nat) (t : DevTable) (s : State) : State :=
  let s := s.onCxl fun c => { c with kept := c.kept.set x { t with data := [] } }
  let data := t.data.filter fun d => extOf d.1 == some x && extOf (d.1 + d.2.length - 1) == some x
  let frame (f : Nat) : Bool := extOf (f * frameBytes) == some x
  let s := s.onPool fun p => { p with
    bcvs := (t.bcvs.filter fun b => extOf (b.1 * 4096) == some x).foldl (fun m b => m.set b.1 b.2) p.bcvs }
  let s := s.onKey fun k => { k with
    extRot := k.extRot.set x t.rot
    frameGen := (t.tags.filter fun g => frame g.1).foldl (fun m g => m.set g.1 g.2) (k.frameGen.keep fun f _ => !frame f) }
  { s with mem := data.foldl (fun m d => Mem.write m d.1 d.2) s.mem }

/-- An adopted extent becomes ASSIGNED (R146): with the version table the device keeps of it (R443). -/
def adoptPlain (o : CapOp) (s : State) : State :=
  let kept := s.cxl.kept.getD o.ext {}
  let s := s.onCxl fun c => { c with
    owned := if c.owned.contains o.ext then c.owned else o.ext :: c.owned, kept := c.kept.erase o.ext }
  let s := if o.role = 0 then s.onPool fun p => { p with frames := copiesFrom o.ext kept p.frames } else s
  s.onExt o.ext fun _ => { assignedExt o.plot o.owner o.grantAll o.grantList o.role o.versioned with
    held := true, latest := kept.latest, versions := kept.versions.map fun v => { num := v, openers := [] } }

/-- The copies of the pages of an extent at a version: frame and page. -/
def copiesAt (s : State) (x v : Nat) : List (Nat × Nat) :=
  s.pool.frames.filterMap fun kv => match kv.2 with
    | .copy y i n => if y = x ∧ n = v then some (kv.1, i) else none
    | _ => none

/-- Step 2 of R147: the latest version's copies are written back, older versions and every copy go. -/
def restoreLatest (x : Nat) (s : State) : Nat × State :=
  let l := copiesAt s x (s.ext x).latest
  let s := forAll l (fun q s => copyFrame q.1 (workFrame s x q.2) s) s
  let s := s.onPool fun p => { p with frames := p.frames.keep fun _ u =>
    match u with
    | .copy y _ _ => y != x
    | _ => true }
  (l.length, s.onExt x fun e => { e with versions := e.versions.filter fun v => v.num == e.latest, written := [] })

/-- An ADOPT that the device has confirmed, or that needs no exchange with it (R146, R147, R444). -/
def adoptDone (o : CapOp) (s : State) : State :=
  let s := adoptPlain o s
  let q := if o.kind = 1 ∧ (s.ext o.ext).versioned then restoreLatest o.ext s else (0, s)
  let s := bump 0xC4040B 1 q.2
  raise 0x610B [o.ext, q.1, (s.ext o.ext).latest] s

/-- ADOPT (Table 5-7, R146-R148): with the device's agreement, unless it holds the capacity for this hub already (R444). -/
def adoptExtent (o : CapOp) (s : State) : Nat × State :=
  let x := o.ext
  if 0x5000 ≤ x then (Adp.range, s)
  else if extTier x ≠ 3 ∨ (s.ext x).held ∨ !extPresent s x ∨ extReserved s x ∨ (o.role = 0 ∧ copyElsewhere s x) then (Adp.state, s)
  else if assignBad s x o.plot o.owner o.grantAll o.role then (Adp.range, s)
  else if s.cxl.owned.contains x then (Adp.ok, adoptDone o s)
  else (Adp.ok, s.onCxl fun c => { c with ops := c.ops ++ [o] })

/-! The end of a drain and of a scrub. -/

/-- A channel set that is RETIRING becomes RETIRED once its extents are FREE (R143). -/
def setRetires (k : Nat) (s : State) : State :=
  if s.pool.setState.getD k 0 = 1 ∧ !(s.pool.exts.any fun kv => extTier kv.1 == 1 && extSet kv.1 == k && kv.2.state != .free) then
    s.onPool fun p => { p with setState := p.setState.set k 2 }
  else s

/-- The frames in RESERVE extents that hold an extent's pages or copies. -/
def outFrames (s : State) (x : Nat) : List Nat :=
  s.pool.frames.filterMap fun kv => match kv.2 with
    | .working y _ => if y = x then some kv.1 else none
    | .copy y _ _ => if y = x then some kv.1 else none
    | .free => none

/-- Whether a line lies in an extent's home range or in one of the frames given. -/
def lineIn (x : Nat) (fs : List Nat) (line : Nat) : Bool := extOf (line * 128) == some x || fs.contains (line / 512)

/-- Zero an extent and the frames that hold its pages and copies: they become CLEAR, their lines are lost and orphaned no more, and their
snoop filter entries are freed (R128, R306, R280, R167, R168). -/
def scrubFrames (x : Nat) (s : State) : State :=
  let fs := outFrames s x
  let orphans := s.coh.filter.filter fun kv => lineIn x fs kv.1
  let s := bump 0xC40604 (orphans.filter fun kv => match kv.2.st with
    | .orphaned _ => true
    | _ => false).length s
  let s := s.onCoh fun c => { c with filter := c.filter.keep fun l _ => !lineIn x fs l }
  let s := { s with mem := fs.foldl (fun m f => Mem.zero m (f * frameBytes) frameBytes) (Mem.zero s.mem ((extBase x).getD 0) extBytes) }
  let s := chipDrop (lineIn x fs) s
  let s := s.onPool fun p => { p with bcvs := p.bcvs.keep fun b _ => !lineIn x fs (32 * b) }
  let s := s.onKey fun k => { k with frameGen := k.frameGen.keep fun f _ => !(extOf (f * frameBytes) == some x || fs.contains f) }
  s.onPool fun p => { p with
    lostLines := p.lostLines.keep fun l _ => !lineIn x fs l
    frames := p.frames.keep fun f _ => !(fs.contains f || extOf (f * frameBytes) == some x)
    access := p.access.keep fun k _ => k / 4096 != x
    busyPages := p.busyPages.filter fun k => k / 4096 != x
    agedExts := p.agedExts.filter fun y => y != x }

/-- SCRUB_DONE (R128): not while the extent's device is lost (R145) or background work is paused (R423). -/
def scrubEnds (x : Nat) (s : State) : State :=
  if s.power.paused || (s.ext x).state != .scrubbing || (extTier x == 2 && (s.cxlPort (extCxl x)).st != 1) || (extTier x == 3 && !tier3Up s) then s
  else
    let s := scrubFrames x s
    let s := s.onPool fun p => { p with exts :=
      if (p.exts.getD x {}).held then p.exts.set x { held := true } else p.exts.erase x }
    setRetires (extSet x) (raise 0x6108 [x] s)

/-- The requests of a draining extent not applied within `DrainTimeout` fail (R127). -/
def drainExpires (x : Nat) (s : State) : State :=
  let e := s.ext x
  if e.state != .draining || e.drainExpired || !elapsed s e.drainSince (1000 * cfg 0x602001 1000 s) then s
  else
    let n := inflight s x
    let s := s.onExt x fun e => { e with drainExpired := true, publishing := [] }
    let s := hostsFail x St.revoked (failWaits (fun w => paExt s w.pa == some x) St.revoked s)
    let s := forAll e.publishing (fun q s => versionOutcome q.1 St.revoked s) s
    if n = 0 then s else raise 0x6107 [x, n] (bump 0xC4040A n s)

/-- A tier 3 extent leaves this hub (R146): its chip-cache lines are written back and dropped, and the device keeps its data, check store,
tags and version table (R276, R443). -/
def extentLeaves (x : Nat) (s : State) : State :=
  let s := chipFlush (fun l => extOf (l * 128) == some x) s
  let t := devTable s x
  let s := s.onCxl fun c => { c with owned := c.owned.filter fun y => y != x, kept := c.kept.set x t }
  s.onPool fun p => { p with
    exts := p.exts.erase x, access := p.access.keep fun k _ => k / 4096 != x
    busyPages := p.busyPages.filter fun k => k / 4096 != x, agedExts := p.agedExts.filter fun y => y != x }

/-- DRAIN_COMPLETE (R127): SCRUBBING, or for a RELEASE the capacity goes back to the device (R364). -/
def drainEnds (x : Nat) (s : State) : State :=
  let e := s.ext x
  if e.state != .draining || inflight s x != 0 then s
  else if e.releasing then
    if s.cxl.ops.any fun o => o.ext == x then s
    else s.onCxl fun c => { c with ops := c.ops ++ [{ ext := x, kind := 2 }] }
  else s.onExt x fun e => { e with state := .scrubbing }

/-- The tier 3 device answers an exchange (R364): it confirms, with the version table and data the partner left where it held the extent,
or reports the block held by the partner. A DATA extent whose copies lie elsewhere is not adopted (R148): the device holds its capacity
for this hub, which a later ADOPT takes up (R444). -/
def deviceAnswers (x : Nat) (confirmed : Bool) (table : Option DevTable) (s : State) : State :=
  match s.cxl.ops.find? fun o => o.ext == x with
  | none => s
  | some o =>
    let s := s.onCxl fun c => { c with ops := dropFirst (fun p => p.ext == x) c.ops }
    if o.kind = 2 then (if confirmed then extentLeaves x s else s)
    else if confirmed then
      let s := match table with
        | some t => tableArrives x t s
        | none => s
      if o.role = 0 ∧ copyElsewhere s x then
        (s.onCxl fun c => { c with owned := if c.owned.contains x then c.owned else x :: c.owned }).onPool fun p => { p with extStatus := St.state }
      else adoptDone o s
    else s.onPool fun p => { p with extStatus := St.state }

/-- The device has removed an extent's capacity by force (R365). -/
def capacityTaken (x : Nat) (s : State) : State :=
  if !(s.ext x).held then s
  else
    let n := inflight s x
    let e := s.ext x
    let s := hostsFail x St.revoked (failWaits (fun w => paExt s w.pa == some x) St.revoked s)
    let s := forAll e.publishing (fun q s => versionOutcome q.1 St.revoked s) s
    let s := chipDrop (fun l => paExt s (l * 128) == some x) s
    let s := regionsGone x s
    let t := devTable s x
    let s := s.onCxl fun c => { c with owned := c.owned.filter fun y => y != x, kept := c.kept.set x t }
    raise 0x6110 [x, n] (s.onPool fun p => { p with exts := p.exts.erase x })

/-! The two paths of a command (R126). -/

/-- An extent command by the dictionary, in SERVICE: an ADP result. -/
def extentDict (f : State → Nat × State) (s : State) : Nat × State :=
  if !inService s then (Adp.state, s)
  else
    let q := f s
    if q.1 ≠ Adp.ok then (q.1, s)
    else if extentBusy s then (Adp.busy, s)
    else (Adp.ok, q.2.onPool fun p => { p with extLast := some s.now })

/-- An extent command by POOL_EXTENT_CMD, under the same checks (R126, R385): its status in POOL_EXTENT_RESULT. -/
def extentReg (f : State → Nat × State) (s : State) : State :=
  let q := extentDict f s
  q.2.onPool fun p => { p with extStatus := statusOf q.1 }

/-- An extent command on either path. -/
def extentComes (dict : Bool) (f : State → Nat × State) (s : State) : State :=
  settle (if dict then (extentDict f s).2 else viaRegIn (csOn s) (fun s => regAck St.ok (extentReg f s)) s)

end Sys2Proof.Machine
end

