-- ==== Sys2Proof/Machine/Harrow.lean ====
section
/-! DEFINITION. The Harrow at work (R129, R138-R145): tier time-outs, nominations, migrations, patrol, retirement, and CXL ports lost and
restored (R363). -/

namespace Sys2Proof.Machine

/-! Tier time-outs (R129). -/

/-- The CXL port that serves a physical address: tier 3 is interleaved over ports 2 and 3 at 4 KiB, port 2 with the even pieces (DESIGN
CHOICE: R118 does not say which port takes which; log entry 52), or runs on the one left (R145); 4 for an address of tier 1. -/
def cxlOf (s : State) (pa : Nat) : Nat :=
  match extOf pa with
  | none => 4
  | some x =>
    if extTier x = 2 then extCxl x
    else if extTier x = 3 then
      (if (s.cxlPort 2).lost then 3 else if (s.cxlPort 3).lost then 2 else 2 + pa / 4096 % 2)
    else 4

/-- The oldest access that waits for a fill from a CXL port fails once `DrainTimeout` has passed (R129). -/
def tierExpires (q : Nat) (s : State) : State :=
  let late (b : Nat) : Bool := cxlOf s (b * 4096) == q && match s.pool.fills.find b with
    | none => false
    | some t => elapsed s t (1000 * cfg 0x602001 1000 s)
  let mine (w : PoolWait) : Bool := match w.what with
    | .block b => late b && elapsed s w.since (1000 * cfg 0x602001 1000 s)
    | _ => false
  let hosts (w : HostWait) : Bool := match w.what, w.since with
    | some (.block b), some t => late b && elapsed s t (1000 * cfg 0x602001 1000 s)
    | _, _ => false
  match s.pool.waiting.find? mine with
  | some w =>
    let s := s.onPool fun p => { p with waiting := dropFirst mine p.waiting }
    failWait w St.internal (raise 0x6106 [q, w.pa, w.req.h.src, w.req.h.tag] s)
  | none =>
    match s.coh.hostWaits.find? hosts with
    | some w =>
      let s := s.onCoh fun c => { c with hostWaits := dropFirst hosts c.hostWaits }
      emit (.coh w.line St.internal []) (raise 0x6106 [q, w.line * 128, nodeOf s 0xC1, 0] s)
    | none => s

/-- TIER_TIMEOUT (R129). -/
def execTierTimeout (q : Nat) (s : State) : Host.Outcome State Fault Refusal := .next (settle (tierExpires q s))

/-! Nominations (R138, R139). -/

/-- Tier of the working frame of a page. -/
def workTier (s : State) (x i : Nat) : Nat := ((extOf (workFrame s x i * frameBytes)).map extTier).getD 0
/-- The DATA extents of a plot that are ASSIGNED, tier 3 left out. -/
def dataExts (s : State) (n : Nat) : List Nat :=
  (s.pool.exts.filter fun kv => kv.2.state == .assigned && kv.2.role == 0 && kv.2.plot == n && extTier kv.1 != 3).map Prod.fst
/-- The page keys of a plot's DATA extents whose working frames lie in tier 1. -/
def tier1Pages (s : State) (n : Nat) : List Nat :=
  (dataExts s n).flatMap fun x => ((List.range 4096).filter fun i => workTier s x i == 1).map fun i => 4096 * x + i
/-- FREE frames in the tier 1 RESERVE extents of a plot. -/
def freeTier1 (s : State) (n : Nat) : Nat :=
  let l := (s.pool.exts.filter fun kv => kv.2.state == .assigned && kv.2.role == 1 && kv.2.plot == n && extTier kv.1 == 1).map Prod.fst
  4096 * l.length - (s.pool.frames.filter fun kv => kv.2 != .free && match extOf (kv.1 * frameBytes) with
    | some x => l.contains x
    | none => false).length

/-- Insert a page by its count into a list ordered by `before`. -/
def insertBy (before : Nat → Nat → Bool) (a : Nat × Nat) : List (Nat × Nat) → List (Nat × Nat)
  | [] => [a]
  | b :: l => if before a.2 b.2 then a :: b :: l else b :: insertBy before a l

/-- The nominations of a plot at the end of a period (R139): page key, kind and count; promotions first, and of pages with equal counters
the lower first (DESIGN CHOICE: R139 orders pages by counter alone; log entry 52). -/
def nominations (s : State) (n : Nat) : List (Nat × Nat × Nat) :=
  let count (k : Nat) : Nat := s.pool.access.getD k 0
  let up := (s.pool.access.filter fun kv => decide (cfg 0x603002 2048 s ≤ kv.2) && (dataExts s n).contains (kv.1 / 4096) &&
    workTier s (kv.1 / 4096) (kv.1 % 4096) != 1)
  let down := if freeTier1 s n < cfg 0x603004 256 s then
      (tier1Pages s n).filter fun k => decide (count k ≤ cfg 0x603003 8 s) && s.pool.agedExts.contains (k / 4096) &&
        !s.pool.busyPages.contains k else []
  let up := (up.foldl (fun l a => insertBy (fun x y => decide (y < x)) a l) []).map fun a => (a.1, 0, a.2)
  let down := (down.foldl (fun l k => insertBy (fun x y => decide (x < y)) (k, count k) l) []).map fun a => (a.1, 1, a.2)
  (up ++ down).take (cfg 0x603005 4096 s)

/-- The nominations of one plot: those the ring has no room for are dropped, counted and reported once. -/
def nominatePlot (n : Nat) (s : State) : State :=
  let q := (nominations s n).foldl (fun (q : State × Nat) a =>
    if nomRoom q.1 then (q.1.onPool fun p => { p with nomWaiting := p.nomWaiting ++ [(n, a)] }, q.2) else (q.1, q.2 + 1)) (s, 0)
  if q.2 = 0 then q.1 else raise 0x610A [n, q.2] (bump 0xC40409 q.2 q.1)

/-- The end of a decay period (R138, R139, R141). -/
def decay (s : State) : State :=
  if !elapsed s s.pool.decaySince (1000000 * cfg 0x603001 1000 s) then s
  else
    let s := if cfg 0x603006 1 s = 0 then s else nomMoves (forAll plotNums nominatePlot s)
    s.onPool fun p => { p with
      decaySince := s.now, corrected := []
      busyPages := (p.access.filter fun kv => decide (cfg 0x603003 8 s < kv.2)).map Prod.fst
      agedExts := plotNums.flatMap (dataExts s)
      access := (p.access.mapV fun _ v => v / 2).keep fun _ v => v != 0 }

/-- DECAY_PERIOD_END (R138). -/
def execDecayPeriodEnd (s : State) : Host.Outcome State Fault Refusal := .next (decay s)

/-- A write of a register of the POOL block (Table 5-12). -/
def poolReg (f : State → State) (s : State) : State := viaRegIn (csOn s) (fun s => regAck St.ok (f s)) s

/-- A write of POOL_NOM_CONS (R139, R107). -/
def consumeNoms (v : Nat) (s : State) : State :=
  match consumed s.pool.nomCons (v % 1024) 1024 s.pool.nomCount with
  | none => s
  | some k => s.onPool fun p => { p with nomCons := v % 1024, nomCount := p.nomCount - k }

/-- NOM_CONSUME (R139). -/
def execNomConsume (v : Nat) (s : State) : Host.Outcome State Fault Refusal := .next (poolReg (consumeNoms v) s)

/-! Migrations (R140). -/

/-- Whether the target of a migration is as R140 states: a FREE frame of a RESERVE extent of the plot in another tier, or, with
HOME, the home frame. -/
def migrationTarget (s : State) (x i : Nat) (home : Bool) (f : Nat) : Bool :=
  if home then workFrame s x i != homeFrame x i && !setClosed s x
  else
    match extOf (f * frameBytes) with
    | none => false
    | some y =>
      (s.ext y).state == .assigned && (s.ext y).role == 1 && (s.ext y).plot == (s.ext x).plot && extLocal s y && !extLost s y &&
        (s.pool.frames.find f).isNone && extTier y != workTier s x i && !setClosed s y

/-- Whether an access to a page is in flight. -/
def pageBusy (s : State) (x i : Nat) : Bool :=
  let here (pa : Nat) : Bool := framePage s (pa / frameBytes) == some (x, i)
  (s.pool.waiting.any fun w => here w.pa) ||
    s.fur.cores.any fun kc => kc.2.cache.any fun l => l.dirty && here (l.pline * 128)

/-- While the walk of R166 runs, every line of a page that the host held is converted before the page is looked at. -/
def meetPage (x i : Nat) (s : State) : State :=
  forAll ((s.coh.filter.filter fun kv => kv.1 / 512 == workFrame s x i).map Prod.fst) meetWalk s
/-- Whether a page holds an ORPHANED line (R167). -/
def pageOrphaned (s : State) (x i : Nat) : Bool :=
  s.coh.filter.any fun kv => match kv.2.st with
    | .orphaned _ => kv.1 / 512 == workFrame s x i
    | _ => false

/-- A write of POOL_MIGRATE_CMD (R140). -/
def migrate (x i : Nat) (home : Bool) (s : State) : State :=
  let s := meetPage x i s
  let e := s.ext x
  let f := if home then homeFrame x i else s.pool.migTarget
  if e.state != .assigned || e.role != 0 || extTier x == 3 || decide (4096 ≤ i) || !migrationTarget s x i home f || pageBusy s x i ||
      pageOrphaned s x i || (s.pool.migrations.any fun m => (m.ext == x && m.page == i) || m.target == f) then
    s.onPool fun p => { p with migStatus := St.state, migDone := p.migrations.isEmpty }
  else s.onPool fun p => { p with
    migStatus := St.ok, migDone := false, migrations := p.migrations ++ [{ ext := x, page := i, target := f, home }] }

/-- MIGRATE_CMD (R140). -/
def execMigrateCmd (ext page : Nat) (s : State) : Host.Outcome State Fault Refusal := .next (poolReg (migrate ext page false) s)

/-- MIGRATE_HOME (R140). -/
def execMigrateHome (ext page : Nat) (s : State) : Host.Outcome State Fault Refusal := .next (poolReg (migrate ext page true) s)

/-- A queued migration is refused after all: its target or its page is no longer as R140 and R167 ask. -/
def migrationFails (rest : List Migration) (s : State) : State :=
  s.onPool fun p => { p with migrations := rest, migStatus := St.state, migDone := rest.isEmpty }

/-- The oldest migration is done: the copy is the working frame; the old frame is FREE, or a home frame held unused (R140). It waits while
an access to the page is in flight, and for the lines the host holds (R163); its target has been held for it. -/
def migrationEnds (s : State) : State :=
  if s.power.paused then s
  else
    match s.pool.migrations with
    | [] => s
    | m :: rest =>
      let old := workFrame s m.ext m.page
      let s := meetPage m.ext m.page s
      if pageBusy s m.ext m.page then s
      else if pageOrphaned s m.ext m.page || !migrationTarget s m.ext m.page m.home m.target then migrationFails rest s
      else
      let q := frameSnooped old s
      if q.1 then q.2
      else
      let s := copyFrame old m.target q.2
      let s := s.onPool fun p =>
        let fs := if old = homeFrame m.ext m.page then p.frames.set old .free else p.frames.erase old
        { p with
          frames := if m.home then fs.erase m.target else fs.set m.target (.working m.ext m.page)
          migrations := rest, migStatus := St.ok, migDone := rest.isEmpty }
      bump 0xC40408 1 (chipDrop (fun l => l / 512 == old) s)

/-- MIGRATE_DONE (R140). -/
def execMigrateDone (s : State) : Host.Outcome State Fault Refusal := .next (migrationEnds s)

/-! Patrol and retirement (R141-R143). -/

/-- What a reading of a line of the pool's memory found (R141, R142): corrected words of tier 1 are counted; a tier 1 frame over
`CorrectedLimit`, and any frame with an uncorrectable line, is retired. -/
def eccLine (a : Nat × Nat × Bool) (s : State) : State :=
  let f := a.1 / 512
  match extOf (a.1 * 128) with
  | none => s
  | some x =>
    let fixed := if extTier x = 1 then a.2.1 else 0
    let n := s.pool.corrected.getD f 0 + fixed
    let s := if fixed = 0 then s else bump 0xC40403 fixed (s.onPool fun p => { p with corrected := p.corrected.set f n })
    let s := if a.2.2 then bump 0xC40404 1 (markLost a.1 .dataLost s) else s
    if a.2.2 || decide (cfg 0x605002 16 s < n) then retireFrame f (if extTier x = 1 then a.1 % 8 else 8) s else s
/-- One line of the patrol, which reads tier 1 (R141). -/
def patrolLine (a : Nat × Nat × Bool) (s : State) : State := if 0x010000000000 ≤ a.1 * 128 then s else eccLine a s

/-- PATROL_READ (R141): lines of tier 1 the Harrow has read. -/
def execPatrolRead (lines : List (Nat × Nat × Bool)) (s : State) : Host.Outcome State Fault Refusal :=
  .next (if s.power.paused then s else forAll lines patrolLine s)

/-- Extents of a channel set that are still assigned. -/
def setExtents (s : State) (k : Nat) : Nat :=
  (s.pool.exts.filter fun kv => extTier kv.1 == 1 && extSet kv.1 == k && kv.2.state != .free).length

/-- A pseudo-channel is retired (R143): its channel set closes; a third of a stack is not. -/
def retirePc (k stack : Nat) (s : State) : State :=
  if s.pool.retiredPcs.contains (8 * k + stack) ∨ 2 ≤ (s.pool.retiredPcs.filter fun c => c % 8 == stack).length then s
  else
    let s := s.onPool fun p => { p with retiredPcs := p.retiredPcs ++ [8 * k + stack] }
    if s.pool.setState.getD k 0 ≠ 0 then s
    else
      let s := s.onPool fun p => { p with setState := p.setState.set k 1 }
      setRetires k (raise 0x6103 [k, stack, setExtents s k] s)

/-- Spares left in the tier of a pool of spares: over its channel sets, or its devices (Table 5-14). -/
def tierSpares (s : State) (k : Nat) : Nat :=
  if k < 32 then ((List.range 32).map (spareLeft s)).sum else if k < 34 then spareLeft s 32 + spareLeft s 33 else spareLeft s 34

/-- The copy of a frame under retirement is done (R142): the spare takes its place; spares and the frames of its pseudo-channel are
counted (R143); stack 8 stands for a frame no one stack failed (R279). POOL_SPARES_LOW names the channel set, or for CXL memory the number
of the spare pool: 32 and 33 for ports 0 and 1, 34 for tier 3 (DESIGN CHOICE: Table 5-14 numbers no device; log entry 52). Lines the
host holds are snooped before the frame is read (R163). -/
def retirementEnds (f : Nat) (s : State) : State :=
  match s.pool.retiring.find f with
  | none => s
  | some stack =>
    let z := frameSnooped f s
    if z.1 then z.2
    else
    let s := z.2
    let k := sparePool f
    let used := s.pool.sparesUsed.getD k 0
    let s := s.onPool fun p => { p with
      retiring := p.retiring.erase f, redirected := p.redirected.set f used, sparesUsed := p.sparesUsed.set k (used + 1) }
    let lost := (s.pool.lostLines.filter fun kv => kv.1 / 512 == f).length
    let s := raise 0x6101 [f, lost, tierSpares s k] (bump 0xC40405 1 s)
    let s := if spareLeft s k = 64 then raise 0x6102 [if k < 32 then 1 else if k < 34 then 2 else 3, k, 64] s else s
    if 32 ≤ k ∨ 8 ≤ stack then s
    else
      let n := s.pool.retiredFrames.getD (8 * k + stack) 0 + 1
      let s := s.onPool fun p => { p with retiredFrames := p.retiredFrames.set (8 * k + stack) n }
      if cfg 0x605003 64 s < n then retirePc k stack s else s

/-- FRAME_RETIRE_DONE (R142). -/
def execFrameRetireDone (frame : Nat) (s : State) : Host.Outcome State Fault Refusal := .next (settle (retirementEnds frame s))

/-! CXL ports (R145, R363). -/

/-- Whether an extent lies behind a CXL port: of tier 2 its own, of tier 3 either head. -/
def behindCxl (q x : Nat) : Bool := (extTier x == 2 && extCxl x == q) || (extTier x == 3 && decide (2 ≤ q))
/-- Mark the extents behind a CXL port LOST, or clear the mark. -/
def setLost (q : Nat) (lost : Bool) (s : State) : State :=
  s.onPool fun p => { p with exts := p.exts.mapV fun x e => if behindCxl q x then { e with lost } else e }

/-- A CXL port is lost (R145); with the second head, all of tier 3. -/
def cxlLost (q : Nat) (s : State) : State :=
  if (s.cxlPort q).st ≠ 1 then s
  else
    let n := wholeExtents (s.cxlPort q).capacity
    let s := s.onCxl fun c => { c with ports := c.ports.set q { c.ports.getD q {} with st := 0, lost := true, tried := s.now } }
    if q < 2 then raise 0x6104 [q, n] (setLost q true s)
    else if (s.cxlPort (5 - q)).st = 1 then raise 0x6105 [q, 5 - q] s
    else raise 0x6104 [q, n] (setLost q true s)

/-- CXL_PORT_LOST (R145). -/
def execCxlPortLost (q : Nat) (s : State) : Host.Outcome State Fault Refusal := .next (settle (cxlLost q s))

/-- A retraining of a lost CXL port, every 100 ms (R363). -/
def cxlTrains (q : Nat) (found : Option CxlDev) (s : State) : State :=
  let p := s.cxlPort q
  if !p.lost || p.st == 2 || !elapsed s p.tried 100000000 then s
  else
    let put (x : CxlPort) (s : State) : State := s.onCxl fun c => { c with ports := c.ports.set q x }
    let s := bump 0xC40D06 1 s
    match found with
    | none => put { p with tried := s.now } s
    | some d =>
      if takePad 8 d.serial ≠ p.serial then
        raise 0x610F [q, leNat p.serial, leNat (takePad 8 d.serial)] (put { p with st := 2, tried := s.now } s)
      else
        let lost := (s.cxlPort 2).lost && (s.cxlPort 3).lost
        let s := put { p with st := 1, lost := false, tried := s.now } s
        if d.powerLoss then s
        else raise 0x610E [q, if q < 2 ∨ lost then wholeExtents p.capacity else 0] (setLost q false s)

/-- CXL_RETRAIN (R363). -/
def execCxlRetrain (q : Nat) (found : Option CxlDev) (s : State) : Host.Outcome State Fault Refusal := .next (cxlTrains q found s)

end Sys2Proof.Machine
end

