-- ==== Sys2Proof/Machine/CheckOps.lean ====
section
/-! DEFINITION. The integrity unit: block fills and their check values, replays, the array sweep, Tilth sets and digests
(R270-R301). -/

namespace Sys2Proof.Machine

/-! Block fills (R278, R279). -/

/-- The lines of a tensor block, by place. -/
def blockLines (blk : Nat) : List (Nat × Nat) := (List.range 32).map fun i => (32 * blk + i, i)
/-- Whether a line is in the chip cache for any plot. -/
def chipHolds (s : State) (line : Nat) : Bool := (s.pool.chip.getD (line % 65536) []).any fun e => e.1 == line
/-- A tensor block with its lost lines as zeros (R280); `f` gives the other lines. -/
def blockWith (s : State) (blk : Nat) (f : Nat → Nat → List Byte) : List Byte :=
  (blockLines blk).flatMap fun l =>
    if (s.pool.lostLines.find l.1).isSome then List.replicate 128 0 else f l.1 l.2
/-- The check value kept of a block in its tier's check store (R276, R277). -/
def blockBcv (s : State) (blk : Nat) : Nat := s.pool.bcvs.getD blk 0
/-- Whether a reading of a block from its tier agrees with its stored check value (R278); a line that is lost in the tier counts as zeros
(R280). -/
def readingGood (s : State) (blk : Nat) (reading : List Byte) : Bool :=
  bcv ((blockLines blk).flatMap fun l =>
    if (s.pool.lostLines.find l.1).isSome then List.replicate 128 0 else slice reading (128 * l.2) 128) == blockBcv s blk
/-- Install a verified block: the lines not in the chip cache are taken from the reading (R278). -/
def blockInstall (blk : Nat) (reading : List Byte) (s : State) : State :=
  match paExt s (blk * 4096) with
  | none => s
  | some x =>
    forAll (blockLines blk) (fun l s =>
      if (s.pool.lostLines.find l.1).isSome || chipHolds s l.1 then s
      else chipAlloc l.1 (s.ext x).plot { s with mem := Mem.write s.mem (l.1 * 128) (slice reading (128 * l.2) 128) }) s
/-- A fill has verified: what waited on it goes on (R278). -/
def fillDone (blk : Nat) (reading : List Byte) (s : State) : State :=
  let s := s.onPool fun p => { p with fills := p.fills.erase blk }
  resume (some blk) (blockInstall blk reading (bump 0xC40B04 1 s))
/-- Whether a fill of a block is in progress and its tier can be read. -/
def filling (s : State) (blk : Nat) : Bool :=
  (s.pool.fills.find blk).isSome && !(match extOf (blk * 4096) with | some x => extLost s x | none => true)
/-- CHK_BLOCK_MISMATCH (Table 11-11): outcome 0 TRANSIENT, 1 LOST. -/
def mismatchEvent (blk outcome : Nat) (s : State) : State :=
  let q := (framePage s (blk / 16)).getD (0, 0)
  raise 0xA103 [q.1, q.2, blk % 16, ((extOf (blk * 4096)).map extTier).getD 0, outcome] s
/-- What the memory's own code found in a reading of a block: (line, corrected words, uncorrectable) of its lines (R141, R142). -/
def fillEcc (blk : Nat) (ecc : List (Nat × Nat × Bool)) (s : State) : State :=
  forAll (ecc.filter fun a => a.1 / 32 == blk) eccLine s
/-- The first reading of a fill (R278, R279), with what the memory's own code found in it: a line it could not correct is lost to the
accesses that wait for it (R142). -/
def fillArrives (blk : Nat) (reading : List Byte) (ecc : List (Nat × Nat × Bool)) (s : State) : State :=
  if !filling s blk || s.chk.rereads.contains blk then s
  else
  let s := fillEcc blk ecc s
  if readingGood s blk reading then fillDone blk reading s
  else s.onChk fun c => { c with rereads := c.rereads ++ [blk] }
/-- The digest passes over an extent have met a block that fails (R299). -/
def regionsFail (x : Nat) (s : State) : State :=
  s.onChk fun k => { k with regions := k.regions.mapV fun _ r =>
    if r.running ∧ r.gone = false ∧ r.first ≤ x ∧ x < r.first + r.count then { r with failed := true } else r }
/-- A block whose second reading differs too (R279): its accesses fail, its lines are lost, its frame is retired. -/
def blockLost (blk : Nat) (s : State) : State :=
  let s := s.onPool fun p => { p with fills := p.fills.erase blk }
  let s := failWaits (fun w => w.what == .block blk) St.check s
  let s := forAll (blockLines blk) (fun l s => markLost l.1 .dataLost s) s
  let s := match paExt s (blk * 4096) with
    | some x => regionsFail x s
    | none => s
  retireFrame (blk / 16) 8 (mismatchEvent blk 1 (bump 0xC40B05 1 s))
/-- The second reading of a fill (R279). -/
def rereadArrives (blk : Nat) (reading : List Byte) (s : State) : State :=
  if !filling s blk || !s.chk.rereads.contains blk then s
  else
    let good := readingGood s blk reading
    let s := s.onChk fun c => { c with rereads := c.rereads.erase blk }
    if good then fillDone blk reading (mismatchEvent blk 0 (bump 0xC40B06 1 s)) else blockLost blk s

/-! Replays of a transfer unit (R271). -/

/-- A frame of a request in some flow: the flow and the frame. -/
def frameOf (s : State) (src tag : Nat) : Option (Flow × Frame) :=
  s.sw.flows.findSome? fun f =>
    ((f.queue ++ f.spill).find? fun x => x.req.h.src == src && x.req.h.tag == tag).map fun x => (f, x)
/-- Take a frame out of its flow. -/
def dropFrame (f : Flow) (x : Frame) (s : State) : State :=
  leftIngress x (setFlow { f with queue := f.queue.erase x, spill := f.spill.erase x } s)
/-- Take a request's frame out of an egress stage or a headland entry buffer. -/
def dropHeld (src tag dst : Nat) (s : State) : State :=
  let other (x : Frame) : Bool := !(x.req.h.src == src && x.req.h.tag == tag && x.req.h.dst == dst)
  s.onSw fun w => { w with
    stage := (w.stage.mapV fun _ l => l.filter fun y => other y.2).filter fun kv => !kv.2.isEmpty
    entry := (w.entry.mapV fun _ l => l.filter other).filter fun kv => !kv.2.isEmpty }
/-- A frame is lost inside the hub: its transaction is answered with FAIL_INTERNAL (R83, R85). -/
def packetLost (p : Packet) (s : State) : State :=
  match p with
  | .reply r => answerLost (hubOf r.src == hubId s && decide (0x80 ≤ lepOf r.src)) p s
  | .request _ h _ =>
    match frameOf s h.src h.tag with
    | some (f, x) => failReq x.req x.gather St.internal 0 (dropFrame f x s)
    | none => answerLost true p (dropHeld h.src h.tag h.dst s)
/-- The fields of CHK_REPLAY_FAILED that say what the unit belonged to. -/
def replayFields (s : State) : ReplayOf → List Nat
  | .packet _ (.request _ h _) => [h.src, h.tag]
  | .packet _ (.reply r) => [r.dst, r.tag]
  | .descriptor c d => [c, ((s.inc c d.thread d.seq).map Inc.idx).getD (s.thread c d.thread).pc]
/-- A descriptor whose operand or result path failed completes with FAIL_INTERNAL. -/
def descriptorLost (c : Nat) (d : Issued) (s : State) : State := finishInc c d.thread d.seq St.internal {} s
/-- A transfer unit has been replayed: it arrives clean, is replayed again, or is abandoned after the third replay (R271). -/
def replayed (path unit : Nat) (o : ReplayOf) (clean : Bool) (s : State) : State :=
  let key := 2 ^ 32 * path + unit % 2 ^ 32
  let n := s.chk.replays.getD key 0 + 1
  if clean then bump 0xC40B01 1 (s.onChk fun c => { c with replays := c.replays.erase key })
  else if n < 3 then s.onChk fun c => { c with replays := c.replays.set key n }
  else
    let s := raise 0xA101 ([path, unit] ++ replayFields s o) (s.onChk fun c => { c with replays := c.replays.erase key })
    match o with
    | .packet _ p => packetLost p s
    | .descriptor c d => descriptorLost c d s

/-! The array sweep (R272, R273). -/

/-- An uncorrectable word: counted and reported with the action taken: 0 frame lost, 1 refilled, 2 line lost, 3 word bad, 4 other copy,
5 both copies, 6 entry discarded. -/
def uncorrectable (array index action : Nat) (s : State) : State := raise 0xA102 [array, index, action] (bump 0xC40B03 1 s)
/-- A frame with an uncorrectable word is treated as one lost in spill (R83). -/
def frameLost (ingress egress : Nat) (x : Frame) (s : State) : State :=
  failReq x.req x.gather St.internal 0
    (raise 0x4104 [x.req.h.plot, ingress, egress, opClass x.req.op, x.req.h.src, x.req.h.tag] s)
/-- Drop the forward record of a staged request. -/
def dropRecordOf (p : Nat) (r : Req) (s : State) : State :=
  match (s.records p).find? fun f => f.is r.h.src r.h.tag && f.req.h.dst == r.h.dst with
  | some f => dropRecord p f s
  | none => s
/-- A word that the sweep finds (Table 11-1): arrays 0 cells, 1 chip cache, 2 data caches, 3 scratchpads, 4 translation caches. -/
def sweepWord (w : SweepWord) (s : State) : State :=
  match w with
  | .corrected _ _ => bump 0xC40B02 1 s
  | .cell index ingress egress cls place =>
    let s := uncorrectable 0 index 0 s
    (match s.flow ingress egress cls with
    | none => s
    | some f =>
      match f.queue[place]? with
      | none => s
      | some x => frameLost ingress egress x (dropFrame f x s))
  | .stageCell index port place =>
    (match (s.staged port)[place]? with
    | none => uncorrectable 0 index 0 s
    | some y => frameLost y.1 port y.2 (dropRecordOf port y.2.req ((uncorrectable 0 index 0 s).onSw fun w =>
        let rest := (s.staged port).eraseIdx place
        { w with stage := if rest.isEmpty then w.stage.erase port else w.stage.set port rest })))
  | .entryCell index tile place =>
    (match (s.entryAt tile)[place]? with
    | none => uncorrectable 0 index 0 s
    | some x => frameLost tile (256 + lepOf x.req.h.dst) x ((uncorrectable 0 index 0 s).onSw fun w =>
        let rest := (s.entryAt tile).eraseIdx place
        { w with entry := if rest.isEmpty then w.entry.erase tile else w.entry.set tile rest }))
  | .chipLine index line =>
    if (s.pool.dirty.find line).isSome then markLost line .dataLost (uncorrectable 1 index 2 s) else chipDrop (fun l => l == line) (uncorrectable 1 index 1 s)
  | .coreLine index c pline =>
    let l := (s.core c).cache.find? fun y => y.pline == pline
    let s := s.onCore c fun k => { k with cache := k.cache.filter fun y => y.pline != pline }
    (match l.map CLine.dirty with
    | some true => markLost pline .dataLost (uncorrectable 2 index 2 s)
    | _ => uncorrectable 2 index 1 s)
  | .scratch index c word =>
    uncorrectable 3 index 3 (s.onChk fun k => { k with
      badWords := if k.badWords.contains (2 ^ 18 * c + word % 2 ^ 18) then k.badWords else (2 ^ 18 * c + word % 2 ^ 18) :: k.badWords })
  | .metadata array index word both =>
    let s := uncorrectable array index (if both then 5 else 4) s
    if both && !s.chk.badMeta.contains word then s.onChk fun k => { k with badMeta := k.badMeta ++ [word] } else s
  | .tlb index c ctx page => uncorrectable 4 index 6 (discard (if c < 64 then some c else none) ctx page s)
/-- The sweep, once per `SweepPeriod` of 10 s (R273). -/
def sweep (words : List SweepWord) (s : State) : State :=
  if !elapsed s s.chk.lastSweep 10000000000 then s
  else forAll words sweepWord (s.onChk fun c => { c with lastSweep := s.now })

/-! Tilth sets (R293, R294, Tables 11-4 and 11-5). -/

/-- The record of test i of an image. -/
def tilthRecord (b : List Byte) (i : Nat) : List Byte := slice b (64 + 32 * i) 32
/-- NTEST. -/
def tilthCount (b : List Byte) : Nat := fieldAt b 12 4 % 8192
/-- A test record. -/
def tilthTest (r : List Byte) : TilthTest :=
  { target := fieldAt r 0 1 % 16, short := bitOf (fieldAt r 0 1) 4, prog := (fieldAt r 4 4, fieldAt r 8 4)
    input := (fieldAt r 12 4, fieldAt r 16 4), expect := (fieldAt r 20 4, fieldAt r 24 2), maxTime := fieldAt r 28 4 }
/-- Reason 0x01 for a record: a reserved bit or TARGET, or an offset or length outside the image. -/
def badRecord (len : Nat) (r : List Byte) : Bool :=
  let t := fieldAt r 0 1 % 16
  t == 0 || decide (5 < t) || bits (fieldAt r 0 4) 31 5 != 0 || fieldAt r 26 2 != 0 ||
    decide (len < fieldAt r 4 4 + fieldAt r 8 4) || decide (1048576 < fieldAt r 16 4) ||
    decide (len < fieldAt r 12 4 + fieldAt r 16 4) || fieldAt r 24 2 == 0 || decide (256 < fieldAt r 24 2) ||
    decide (len < fieldAt r 20 4 + 8 * fieldAt r 24 2)
/-- Reason 0x01 of Table 11-6. -/
def badTilth (b : List Byte) : Bool :=
  let n := tilthCount b
  let len := fieldAt b 16 4
  fieldAt b 0 2 != 0x5E71 || fieldAt b 2 1 != 1 || n == 0 || decide (4096 < n) ||
    fieldAt b 3 1 != 0 || bits (fieldAt b 12 4) 31 13 != 0 || (slice b 20 44).any (fun x => x != 0) ||
    decide (len < 64 + 32 * n + 114) || (List.range n).any fun i => badRecord len (tilthRecord b i)
/-- Reason 0x05: a program record that fails the loader's checks of Table 8-9, for a core with every engine and no plot. -/
def badProgram (s : State) (b : List Byte) (r : List Byte) : Bool :=
  fieldAt r 0 1 % 16 != 5 &&
    (loadCheck s 64 (fieldAt r 8 4) (imageOf (slice b (fieldAt r 4 4) (fieldAt r 8 4)))).isSome
/-- The reason for refusing a set of `n` bytes (Table 11-6), the lowest that applies (DEDUCED: the manual gives no order). -/
def tilthReason (s : State) (b : List Byte) : Option Nat :=
  let len := fieldAt b 16 4
  if badTilth b then some 1
  else if !Config.ed448Verify Config.tilthKey (b.take (len - 114)) (slice b (len - 114) 114) then some 2
  else if (match s.chk.tilth with
      | some x => x.setId == fieldAt b 4 4 && decide (fieldAt b 8 4 ≤ x.seq)
      | none => false) then some 3
  else if decide (8388608 < len) || len != b.length then some 4
  else if (List.range (tilthCount b)).any fun i => badProgram s b (tilthRecord b i) then some 5
  else none
/-- An accepted set replaces the one loaded before it (R294). -/
def tilthAccept (b : List Byte) (s : State) : State :=
  let d := Config.shake256 b 64
  let set : TilthSet :=
    { setId := fieldAt b 4 4, seq := fieldAt b 8 4, digest := d, image := b
      tests := (List.range (tilthCount b)).map fun i => tilthTest (tilthRecord b i) }
  raise 0xA106 [set.setId, set.seq, leNat (d.take 16)] (s.onChk fun c => { c with tilth := some set, runs := [] })
/-- A set through the dictionary (R294): an ADP result, and the state after it. -/
def tilthWrite (b : List Byte) (s : State) : Nat × State :=
  if !trainedUp s then (Adp.state, s)
  else
    match tilthReason s b with
    | some r => (Adp.range, s.onChk fun c => { c with tilthReason := r })
    | none => (Adp.ok, tilthAccept b s)
/-- The result of a CHK_TILTH_CMD. -/
def tilthResult (status reason : Nat) (s : State) : State :=
  s.onChk fun c => { c with tilthStatus := status, tilthReason := reason, tilthDone := true }
/-- The image of a LOAD is read from plot 0 memory (R294): whether that is over, and the state after it. -/
def tilthTry (s : State) : Bool × State :=
  let q := hubRead 64 s.chk.srcCtx 0 (nodeOf s 0xC1) s.chk.srcOff s.chk.tilthLen s
  match q.1 with
  | .wait => (false, q.2)
  | .fail st => (true, tilthResult st 0 q.2)
  | .ok b =>
    match tilthReason q.2 b with
    | some r => (true, tilthResult St.loadRefused r q.2)
    | none => (true, tilthResult St.ok 0 (tilthAccept b q.2))
/-- LOAD of CHK_TILTH_CMD (R294). -/
def tilthLoad (s : State) : State :=
  if !trainedUp s then regAck St.ok (tilthResult St.state 0 s)
  else hubCommand .tilth (tilthTry (s.onChk fun c => { c with tilthDone := false }))

/-! Tilth runs (R295, R296). -/

/-- The engine a test runs on, by its kind and tensor engine (Table 11-5). -/
def testEngine (kind te : Nat) : Nat := if kind = 1 then te else kind + 2
/-- The runs of the set on a target: test index and tensor engine, in order. -/
def tilthSteps (s : State) (target : Nat) : List (Nat × Nat) :=
  match s.chk.tilth with
  | none => []
  | some x =>
    x.tests.zipIdx.flatMap fun q =>
      if 64 ≤ target then (if q.1.target = 5 then [(q.2, 0)] else [])
      else
        let k := s.core target
        match q.1.target with
        | 1 => (workingTes k).map fun e => (q.2, e)
        | 2 => if k.ve then [(q.2, 0)] else []
        | 3 => if k.me then [(q.2, 0)] else []
        | 4 => if k.seqOk then [(q.2, 0)] else []
        | _ => []
/-- Whether a target is available (R295): an EMPTY core, or a tile whose port is FALLOW or DOWN, with its power on. -/
def tilthAvailable (s : State) (target : Nat) : Bool :=
  !(s.chk.runs.any fun r => r.target == target) && !(tilthSteps s target).isEmpty &&
  if 64 ≤ target then
    let st := (s.port (target - 64)).st
    domainOn s (16 + (target - 64) / 8 % 2) && (st == .down || st == .fallow)
  else
    let k := s.core target
    coreOn s target && k.st == .empty && !k.loading && !k.resetting
/-- The test of a run, with the image of its set. -/
def tilthOf (s : State) (test : Nat) : Option (List Byte × TilthTest) :=
  s.chk.tilth.bind fun x => (x.tests[test]?).map fun t => (x.image, t)
/-- The program of a core's test is loaded into its scratchpad, zeroed before, with no context; the input is copied to data-region offset 0,
and every thread of the program starts (R295). The core stays EMPTY. -/
def tilthPlace (c test : Nat) (s : State) : State :=
  match if c < 64 then tilthOf s test else none with
  | none => s
  | some (b, t) =>
    let x := imageOf (slice b t.prog.1 t.prog.2)
    let s := imagePlaced c x { s with spad := Mem.zero s.spad (spadKey c 0) (2 ^ 21) }
    let s := (spadStore c 0 (slice b t.input.1 t.input.2) s).onCore c fun k => { k with prog := some (x.prog []), threads := [], slots := [] }
    forAll (List.range x.threads) (fun n s => s.onThread c n fun _ =>
      { running := true, halted := false, pc := x.entry, xs := BitVec.ofNat 64 n :: List.replicate 14 0 }) s
/-- A run of the set begins on a target. -/
def tilthBegin (target : Nat) (s : State) : State :=
  match tilthSteps s target with
  | [] => s
  | (i, e) :: _ =>
    tilthPlace target i (s.onChk fun c => { c with runs := c.runs ++ [{ target, test := i, te := e, since := s.now }] })
/-- RUN of CHK_TILTH_CMD: every available engine, now (Table 11-9); with no set loaded, FAIL_STATE. -/
def tilthRunAll (s : State) : State :=
  if s.chk.tilth.isNone then tilthResult St.state 0 s
  else
    tilthResult St.ok 0 (forAll (List.range 192) (fun t s => if tilthAvailable s t then tilthBegin t s else s) s)
/-- DeviceTime of a target's last run. -/
def tilthLast (s : State) (target : Nat) : Nat :=
  if 64 ≤ target then s.chk.tileRun.getD (target - 64) 0 else s.chk.coreRun.getD target 0
/-- The next scheduled run (R295): the available target whose last run is oldest and a period ago, or that has never run; ties go to
cores before tiles and to lower numbers. -/
def tilthTurn (s : State) : State :=
  let period := cfg 0xA03001 86400 s
  let due := (List.range 192).filter fun t =>
    tilthAvailable s t && (tilthLast s t == 0 || elapsed s (tilthLast s t) (period * 1000000000))
  if period = 0 ∨ firmwareDown s then s
  else
    match due with
    | [] => s
    | t :: l => tilthBegin (l.foldl (fun b u => if tilthLast s u < tilthLast s b then u else b) t) s
/-- The run on a target goes on to its next test, or ends: the time is kept and a core's scratchpad zeroed. -/
def tilthNext (r : TilthRun) (s : State) : State :=
  let later := (tilthSteps s r.target).filter fun q => decide (r.test < q.1) || (q.1 == r.test && decide (r.te < q.2))
  match later with
  | (i, e) :: _ => tilthPlace r.target i (s.onChk fun c => { c with
      runs := c.runs.map fun x => if x.target = r.target then { target := r.target, test := i, te := e, since := s.now } else x })
  | [] =>
    if 64 ≤ r.target then s.onChk fun c => { c with
      runs := c.runs.filter fun x => x.target != r.target, tileRun := c.tileRun.set (r.target - 64) s.now }
    else (tilthEnds r.target s).onChk fun c => { c with coreRun := c.coreRun.set r.target s.now }
/-- A tile whose test has failed twice is reported under R86; the manual does not say for which of its networks (log entry 7). -/
def tileSuspect (t : Nat) (s : State) : State :=
  let net := s.draw.toNat % 2
  let s := (s.onSw fun w => { w with
    suspects := if w.suspectTiles.any fun x => x.2 == t then w.suspects else min 255 (w.suspects + 1)
    suspectTiles := if w.suspectTiles.contains (net, t) then w.suspectTiles else (net, t) :: w.suspectTiles }).drawn
  raise 0x4102 [net, t, 0, 0] s
/-- Whether the blocks at data-region offset 1,048,576 of a core have the check values that a test expects (R295). -/
def tilthMatches (s : State) (c : Nat) (b : List Byte) (t : TilthTest) : Bool :=
  let n := t.expect.2
  (bcvs n (spadRead s c 1048576 (4096 * n))).map (natLe 8) == (List.range n).map fun i => slice b (t.expect.1 + 8 * i) 8
/-- Whether a run passes (R295): within MAXTIME, and on a core every thread has halted and the check values agree; on a tile, where the
manual says no more than that the pattern is looped through it, what the loop found. -/
def tilthPasses (s : State) (r : TilthRun) (passed : Bool) : Bool :=
  match tilthOf s r.test with
  | none => false
  | some (b, t) => decide (s.now - r.since ≤ 1000 * t.maxTime) &&
      if 64 ≤ r.target then passed
      else !((s.core r.target).threads.any fun kt => kt.2.running) && tilthMatches s r.target b t
/-- A test has ended (R296): run once more after a failure; then a transient, or the engine is retired or the tile reported. -/
def tilthTested (target test : Nat) (passed : Bool) (s : State) : State :=
  match s.chk.runs.find? fun r => r.target == target && r.test == test with
  | none => s
  | some r =>
    let e := if 64 ≤ target then 0xFF else testEngine ((tilthOf s test).elim 0 fun q => q.2.target) r.te
    let pass := tilthPasses s r passed
    let s := bump 0xC40B08 1 s
    if pass && !r.again then tilthNext r s
    else if pass then
      let s := raise 0xA107 [target, e, test, 0] s
      tilthNext r (if 64 ≤ target then s else countTransient target e s)
    else if !r.again then tilthPlace target test (s.onChk fun c => { c with
      runs := c.runs.map fun x => if x.target = target then { x with again := true, since := s.now } else x })
    else
      let s := raise 0xA107 [target, e, test, 1] (bump 0xC40B09 1 s)
      tilthNext r (if 64 ≤ target then tileSuspect (target - 64) s else retireEngine target e 2 s)

/-! Digests (R297-R299). -/

/-- The digest region r. -/
def State.region (s : State) (r : Nat) : DigestRegion := s.chk.regions.getD r {}
/-- Update a digest region. -/
def State.onRegion (r : Nat) (f : DigestRegion → DigestRegion) (s : State) : State :=
  s.onChk fun c => { c with regions := c.regions.set r (f (c.regions.getD r {})) }
/-- Whether the extents of a region record are all ASSIGNED DATA extents of one plot that this hub holds (R297). -/
def regionExtents (s : State) (first count : Nat) : Bool :=
  (List.range count).all fun i =>
    let e := s.ext (first + i)
    e.state == .assigned && e.role == 0 && e.plot == (s.ext first).plot && extLocal s (first + i)
/-- A write of `DigestRegion` for a region (Table 11-7): an ADP result, and the state after it. -/
def writeRegion (r : Nat) (b : List Byte) (s : State) : Nat × State :=
  let w := fieldAt b 0 4
  let first := w % 65536
  let count := bits w 24 16
  let interval := fieldAt b 4 4
  if b.length ≠ 8 then (Adp.badType, s)
  else if !inService s then (Adp.state, s)
  else if count = 0 ∨ 256 < count ∨ interval = 0 ∨ 86400 < interval ∨ !regionExtents s first count then (Adp.range, s)
  else (Adp.ok, s.onRegion r fun _ => { first, count, enable := bitOf w 31, interval })
/-- A pass of a region begins. -/
def passBegin (r : Nat) (s : State) : State :=
  s.onRegion r fun x => { x with running := true, begun := true, changed := false, gone := false, failed := false, start := s.now }
/-- Whether some pass is running. -/
def passRuns (s : State) : Bool := s.chk.regions.any fun kv => kv.2.running
/-- `DigestNow` on a region (R299): an ADP result, and the state after it. A region never written has no extents (DEDUCED). -/
def digestNow (r : Nat) (s : State) : Nat × State :=
  if !inService s || passRuns s || (s.region r).count == 0 then (Adp.state, s) else (Adp.ok, passBegin r s)
/-- A pass begins at its interval (R297), while SERVICE lasts and background work is not paused (R423). -/
def digestDue (r : Nat) (s : State) : State :=
  let x := s.region r
  if inService s && x.enable && !x.running && !s.power.paused && !firmwareDown s &&
      (!x.begun || elapsed s x.start (x.interval * 1000000000)) then passBegin r s else s
/-- The check values of a region's blocks, by extent, page and block within the page (R298). -/
def regionBcvs (s : State) (x : DigestRegion) : List Nat :=
  (List.range x.count).flatMap fun i => (List.range 4096).flatMap fun p => (List.range 16).map fun b =>
    blockBcv s (workFrame s (x.first + i) p * 16 + b)
/-- A digest over check values (R298). -/
def digestBcvs (l : List Nat) : List Byte := Config.shake256 (natLe 8 l.length ++ l.flatMap (natLe 8)) 64
/-- The place of a block of a region in the order of its pass: by extent, page and block within the page (R298). -/
def passPlace (s : State) (x : DigestRegion) (blk : Nat) : Option Nat :=
  match framePage s (blk / 16) with
  | some (e, p) => if x.first ≤ e ∧ e < x.first + x.count then some (65536 * (e - x.first) + 16 * p + blk % 16) else none
  | none => none
/-- The verified fills of a pass (R278, R279, R299): a block whose second reading matched was a transient, one whose second reading did not
fails. The blocks that verified are counted; the pass is no miss of the chip cache, and installs nothing in it (DESIGN CHOICE; log
entry 7). -/
def passReads (p : DigestPass) (s : State) : State :=
  let x := s.region p.region
  let mine (blk : Nat) : Bool := (passPlace s x blk).isSome
  let bad := p.bad.filter mine
  let n := (bad.bind (passPlace s x)).getD (65536 * x.count)
  let s := forAll (p.transient.filter mine) (fun blk s => mismatchEvent blk 0 (bump 0xC40B06 1 s)) s
  let s := if x.gone then s else bump 0xC40B04 n s
  match bad with
  | some blk => blockLost blk s
  | none => s
/-- A pass ends (R299, Table 11-8): STATUS 0 OK, 1 CHANGED, 2 FAILED, 3 GONE. The digest of a pass that is not OK, and the blocks
read of one that ended early, are free values (log entry 7). -/
def passEnds (p : DigestPass) (s : State) : State :=
  let r := p.region
  if !(s.region r).running || s.power.paused || firmwareDown s then s
  else
    let s := passReads p s
    let x := s.region r
    let total := 65536 * x.count
    let st := if x.gone then 3 else if x.failed then 2 else if x.changed then 1 else 0
    let d := if st = 0 then digestBcvs (regionBcvs s x) else takePad 64 (Config.random s.free 64)
    let n := if st < 2 then total else s.draw.toNat % (total + 1)
    let image := natLe 8 (x.pass + 1) ++ natLe 8 x.start ++ natLe 8 s.now ++ natLe 4 st ++ natLe 4 n ++ takePad 64 d
    let s := if st = 0 then s else s.drawn
    let s := s.onRegion r fun y => { y with running := false, pass := y.pass + 1, result := image }
    raise 0xA108 [r, x.pass + 1, st, leNat (d.take 16)] (bump 0xC40B0A 1 s)

end Sys2Proof.Machine
end

