-- ==== Sys2Proof/Machine/Translation.lean ====
section
/-! DEFINITION. Contexts, publishes, faults, shoot-downs and the translation epoch (chapter 4). -/

namespace Sys2Proof.Machine

/-- A write of a register of the XLT block (R116): answered, while central services are powered (R354). -/
def xltReg (f : State → State) (s : State) : State := viaRegIn (csOn s) (fun s => regAck St.ok (f s)) s

/-! Contexts (R90, Table 4-8). -/

/-- The outcome of a context command. DONE belongs to the last command that was not refused (R469): a create completes at once, a destroy
once its context has drained, and a refused command leaves DONE as it stands (DESIGN CHOICE: R116 gives one DONE bit and does not say what
commands that overlap leave in it; log entry 51). -/
def ctxResult (status : Nat) (s : State) : State := s.onXlt fun x => { x with ctxStatus := status }
/-- A create has completed. -/
def ctxCreated (s : State) : State := s.onXlt fun x => { x with ctxDone := true, ctxLast := none }

/-- Create a context with XLT_CTX_ROOT (Table 4-8). A command that meets both a FAIL_STATE and a FAIL_PROTECTION case is answered
FAIL_STATE (DESIGN CHOICE: R116 gives the two no order; log entry 51). -/
def createCtx (ctx : Nat) (fail : Bool) (s : State) : State :=
  let root := 2 ^ 12 * s.xlt.ctxRoot
  if (s.xlt.ctxs.find ctx).isSome || decide (4096 ≤ s.xlt.ctxs.length) then ctxResult St.state s
  else if ctxPlot s ctx = none ∨ root < mirrorLo s ∨ mirrorHi s ≤ root then ctxResult St.protection s
  else ctxCreated (ctxResult St.ok (s.onXlt fun x => { x with ctxs := x.ctxs.set ctx { root, fail } }))

/-- Destroy a context (R90, R110): it is no longer active; its faults are resolved. -/
def destroyCtx (ctx : Nat) (s : State) : State :=
  match s.xlt.ctxs.find ctx with
  | none => ctxResult St.state s
  | some c =>
    if c.draining then ctxResult St.state s
    else
      let s := s.onXlt fun x => { x with
        ctxs := x.ctxs.set ctx { c with draining := true }, ctxDone := false, ctxLast := some ctx }
      ctxResult St.ok (faultsFail (fun e => e.ctx == ctx) s)

/-- Whether an access translated in a context is unanswered: waiting at the pool, or a dirty line of a core's cache (R90, R112). -/
def ctxBusy (s : State) (ctx : Nat) : Bool :=
  (s.pool.waiting.any fun w => w.req.h.ctx == ctx) ||
    s.fur.cores.any fun kc => kc.2.cache.any fun l => l.ctx == ctx && l.dirty

/-- A destroyed context's slot is freed once every access translated in it has been answered; what the caches hold of it goes. -/
def freeCtx (ctx : Nat) (s : State) : State :=
  match s.xlt.ctxs.find ctx with
  | none => s
  | some c =>
    if !c.draining || ctxBusy s ctx then s
    else
      let s := s.onXlt fun x => { x with
        ctxs := x.ctxs.erase ctx
        hubTlb := x.hubTlb.filter fun e => e.ctx != ctx
        coreTlb := x.coreTlb.mapV fun _ l => l.filter fun e => e.ctx != ctx
        walks := x.walks.filter fun w => w.ctx != ctx }
      let s := s.onFur fun f => { f with cores := f.cores.mapV fun _ k => { k with cache := k.cache.filter fun l => l.ctx != ctx } }
      if s.xlt.ctxLast = some ctx then s.onXlt fun x => { x with ctxDone := true, ctxLast := none } else s

/-- CTX_CREATE (R90): XLT_CTX_CMD with OP create. -/
def execCtxCreate (ctx : Nat) (fail : Bool) (s : State) : Host.Outcome State Fault Refusal :=
  .next (xltReg (createCtx ctx fail) s)

/-- CTX_DESTROY (R90): XLT_CTX_CMD with OP destroy. -/
def execCtxDestroy (ctx : Nat) (s : State) : Host.Outcome State Fault Refusal :=
  .next (settle (xltReg (destroyCtx ctx) s))

/-- CTX_SLOT_FREED (R90, R115). -/
def execCtxSlotFreed (ctx : Nat) (s : State) : Host.Outcome State Fault Refusal := .next (freeCtx ctx s)

/-! Publishes and walks (R99, R101). -/

/-- Publish a generation (R99): a value not greater than the last is ignored and counted; another is acknowledged once the walker sees
every Lania write received before it. -/
def publishGen (gen : U64) (s : State) : State :=
  if gen.toNat ≤ s.xlt.genAck.toNat then bump 0xC4030B 1 s
  else genMoves (s.onXlt fun x => { x with genWaits := x.genWaits ++ [gen] })

/-- GEN_PUBLISH (R99). -/
def execGenPublish (gen : U64) (s : State) : Host.Outcome State Fault Refusal := .next (settle (xltReg (publishGen gen) s))

/-- The epoch of a walk that takes one of the 256 places of the walker is that of its start (R101, R102). -/
def walksTurn (s : State) : State :=
  s.onXlt fun x => { x with walks := x.walks.zipIdx.map fun q => if q.2 = 255 then { q.1 with epoch := x.epoch } else q.1 }

/-- A prefetch walk of a core ends (R101, R103): its leaf is cached, and a page it finds INVALID,
WITHDRAWN or malformed leaves nothing; one that began in an earlier epoch starts again, and one that meets a table line the host holds
waits for its snoop (R163). New translations wait while the epoch wraps (R115). -/
def walkEnds (core ctx page : Nat) (s : State) : State :=
  let mine (w : Walk) : Bool := w.core == core && w.ctx == ctx && w.page == page
  match (s.xlt.walks.take 256).find? mine with
  | none => s
  | some w =>
    if s.xlt.wrapping then s
    else if w.epoch ≠ s.xlt.epoch then
      bump 0xC40303 1 (s.onXlt fun x => { x with walks := updFirst mine (fun w => { w with epoch := x.epoch }) x.walks })
    else
      match s.xlt.ctxs.find ctx with
      | none => walksTurn (s.onXlt fun x => { x with walks := dropFirst mine x.walks })
      | some c =>
        let ends (s : State) : State := walksTurn (s.onXlt fun x => { x with walks := dropFirst mine x.walks })
        if c.draining then ends s
        else
          match walk s c.root (page * frameBytes) with
          | .leaf size e =>
            fill (some core) { ctx, page, size, leaf := BitVec.ofNat 64 e } (ends (bump 0xC40302 1 (walked c.root (page * frameBytes) s)))
          | .waits line what =>
            let q := walkBarred line what s
            match q.1 with
            | .stall _ => q.2
            | _ => ends (bump 0xC40302 1 q.2)
          | _ => ends (bump 0xC40302 1 (walked c.root (page * frameBytes) s))

/-- WALK_COMPLETE (R101). -/
def execWalkComplete (core ctx page : Nat) (s : State) : Host.Outcome State Fault Refusal := .next (walkEnds core ctx page s)

/-! The fault queue (R105-R110). -/

/-- FAULT_RECORD_WRITE (R105): the record of an entry, `CoalesceWindow` after it opened. -/
def recordFault (entry : Nat) (s : State) : State :=
  match s.xlt.faults.find entry with
  | none => s
  | some e =>
    if e.recorded || !s.xlt.fqEnable || decide (4096 ≤ s.xlt.fqCount) || !elapsed s e.since (cfg 0x504004 200 s) then s
    else writeRecord entry e s

/-- FAULT_RECORD_WRITE (R105). -/
def execFaultRecordWrite (entry : Nat) (s : State) : Host.Outcome State Fault Refusal := .next (recordFault entry s)

/-- FAULT_DEFERRED_RECORD (R108): the oldest fault that waits for room gets its entry. -/
def execFaultDeferredRecord (s : State) : Host.Outcome State Fault Refusal := .next (openDeferred s)

/-- FAULT_DOORBELL_REPEAT (R107): while unconsumed records remain. -/
def execFaultDoorbellRepeat (s : State) : Host.Outcome State Fault Refusal :=
  .next (if s.xlt.fqCount = 0 || !elapsed s s.xlt.fqRung (cfg 0x504002 2000 s) then s
    else ringDoorbell 1 0 s.xlt.fqProd (s.onXlt fun x => { x with fqRung := s.now }))

/-- A write of XLT_FQ_CONS (R107). -/
def consumeFaults (v : Nat) (s : State) : State :=
  match consumed s.xlt.fqCons (v % 4096) 4096 s.xlt.fqCount with
  | none => s
  | some k => s.onXlt fun x => { x with fqCons := v % 4096, fqCount := x.fqCount - k }

/-- FQ_CONSUME (R107). -/
def execFqConsume (v : Nat) (s : State) : Host.Outcome State Fault Refusal := .next (xltReg (consumeFaults v) s)

/-- A write of XLT_FAULT_RESOLVE (R109): it is acted on once the generations published before it are acknowledged (R99). -/
def resolveFault (entry : Nat) (fail : Option Nat) (s : State) : State :=
  if s.xlt.genWaits.isEmpty then resolveNow entry fail s
  else s.onXlt fun x => { x with resolves := x.resolves ++ [(entry, fail)] }

/-- FAULT_RESOLVE_RETRY (R109). -/
def execFaultResolveRetry (entry : Nat) (s : State) : Host.Outcome State Fault Refusal :=
  .next (settle (xltReg (resolveFault entry none) s))

/-- FAULT_RESOLVE_FAIL (R109). -/
def execFaultResolveFail (entry status : Nat) (s : State) : Host.Outcome State Fault Refusal :=
  .next (settle (xltReg (resolveFault entry (some status)) s))

/-- An entry unresolved for `FaultServiceTimeout` is resolved by the hub (R110). -/
def expireFault (entry : Nat) (s : State) : State :=
  match s.xlt.faults.find entry with
  | none => s
  | some e =>
    if !elapsed s e.since (1000000 * cfg 0x504003 1000 s) then s
    else raise 0x5102 [e.ctx, e.page, entry, e.waiters.length] (faultEnds entry (some St.translation) s)

/-- FAULT_EXPIRED (R110). -/
def execFaultExpired (entry : Nat) (s : State) : Host.Outcome State Fault Refusal := .next (settle (expireFault entry s))

/-! Shoot-downs and the epoch (R112-R115). -/

/-- A write of XLT_SHOOT_CMD (R113): the next epoch is assigned; a count of 0 is no command the manual gives (log entry 2). A range past
bit 47 is refused as malformed before the queue and the context are looked at (DESIGN CHOICE: R113 gives no order; log entry 51). -/
def shoot (pages : Nat) (s : State) : State :=
  let x := s.xlt
  let active := match x.ctxs.find x.shootCtx with
    | none => false
    | some c => !c.draining
  if pages = 0 then s
  else if 2 ^ 32 < x.shootPage + pages then s.onXlt fun x => { x with shootStatus := St.malformed }
  else if 64 ≤ x.shootQueue.length || !active || s.lania.comp == .lost then s.onXlt fun x => { x with shootStatus := St.state }
  else
    let e := (x.epoch + 1) % 2 ^ 32
    s.onXlt fun x => { x with
      shootStatus := St.ok, shootEpoch := e
      shootQueue := x.shootQueue ++ [{ ctx := x.shootCtx, page := x.shootPage, count := pages, epoch := e }] }

/-- SHOOT_CMD (R113). -/
def execShootCmd (pages : Nat) (s : State) : Host.Outcome State Fault Refusal := .next (xltReg (shoot pages) s)

/-- Whether a store that a descriptor has translated is still to be made in a line the pool has given it (R112). -/
def storesOpen (i : Inc) (p : Nat → Bool) : Bool :=
  i.pool.any fun l => l.wr && l.line.isNone && p l.epoch && (!i.wrote || i.rest.any fun x => x.off / 128 == l.off / 128)
/-- Whether an access of an epoch that meets a test is in flight (R112): waiting at the pool, a store that has still to be made in a line
that has come, or a dirty line of a core's cache. -/
def inFlight (s : State) (p : Nat → Bool) : Bool :=
  (s.pool.waiting.any fun w => p w.epoch) || s.fur.cores.any fun kc =>
    (kc.2.cache.any fun l => l.dirty && p l.epoch) || kc.2.threads.any fun kt => kt.2.incs.any fun i => storesOpen i p

/-- Whether a range names a 64 KiB page of a context. -/
def Shoot.names (x : Shoot) (ctx page : Nat) : Bool := x.ctx == ctx && decide (x.page ≤ page) && decide (page < x.page + x.count)
/-- Whether a range meets the pages of a cached entry. -/
def Shoot.meets (x : Shoot) (e : Tlb) : Bool :=
  x.ctx == e.ctx && decide (x.page < (e.page / 2 ^ (e.size - 16) + 1) * 2 ^ (e.size - 16)) &&
    decide (e.page / 2 ^ (e.size - 16) * 2 ^ (e.size - 16) < x.page + x.count)

/-- Write back the dirty lines that meet a test from a core's cache, and drop every line that meets it (R114). -/
def cacheShoot (p : CLine → Bool) (c : Nat) (s : State) : State :=
  let dirty := (s.core c).cache.filter fun l => p l && l.dirty
  let s := forAll dirty (writeOut c) s
  s.onCore c fun k => { k with cache := k.cache.filter fun l => !p l }

/-- The accesses of a core in flight to pages that a shoot-down names complete, and what they bring is not kept (R114). -/
def coreShot (named : Nat → Nat → Bool) (c : Nat) (s : State) : State :=
  let mark (ctx : Nat) (l : PoolLine) : PoolLine := if named ctx (l.off / frameBytes) then { l with shot := true } else l
  s.onCore c fun k => { k with threads := k.threads.mapV fun _ x => { x with
    incs := x.incs.map fun i => { i with pool := i.pool.map (mark x.ctx) } } }

/-- The first half of a full flush (R115): new translations wait, and the dirty lines of every core are written back, so that the
in-flight counts can drain. -/
def wrapBegins (s : State) : State :=
  forAll (s.fur.cores.map Prod.fst) (fun c s =>
    forAll ((s.core c).cache.filter CLine.dirty) (fun l s => writeOut c l (cachePut c { l with dirty := false } s)) s)
    (s.onXlt fun x => { x with wrapping := true })

/-- The epoch advances and the queued shoot-downs take effect (R114); at the wrap every translation cache and prefetch is emptied (R115). -/
def advanceNow (s : State) : State :=
  let x := s.xlt
  let next := (x.epoch + 1) % 2 ^ 32
  let wraps := next == 0
  let l := x.shootQueue
  let named (ctx page : Nat) : Bool := l.any fun q => q.names ctx page
  let gone (e : Tlb) : Bool := wraps || l.any fun q => q.meets e
  let s := s.onXlt fun x => { x with
    epoch := next, lastAdvance := s.now, shootQueue := [], shootOpen := x.shootOpen ++ l, wrapping := false
    hubTlb := x.hubTlb.filter fun e => !gone e
    coreTlb := x.coreTlb.mapV fun _ t => t.filter fun e => !gone e
    walks := x.walks.filter fun w => !(wraps || named w.ctx w.page) }
  let s := forAll (s.fur.cores.map Prod.fst) (fun c s =>
    coreShot named c (cacheShoot (fun l => named l.ctx (l.vline * 128 / frameBytes)) c s)) s
  if wraps then
    let s := bump 0xC40309 1 s
    (raise 0x5103 [s.draw.toNat] s).drawn
  else s

/-- The epoch advances (R113-R115) once the interval has passed, no published generation waits (R99), and the in-flight counts permit it; at
the wrap every count must be zero, and new translations wait until they are. -/
def advance (s : State) : State :=
  let x := s.xlt
  let next := (x.epoch + 1) % 2 ^ 32
  if !x.genWaits.isEmpty || x.shootQueue.isEmpty || !(elapsed s x.lastAdvance (1000 * 100) || (x.lastAdvance == 0 && x.epoch == 0)) then s
  else if next = 0 then
    let s := wrapBegins s
    if inFlight s (fun _ => true) then s else advanceNow s
  else if inFlight s (fun e => e == (next + 2 ^ 32 - 32) % 2 ^ 32) then s
  else advanceNow s

/-- EPOCH_ADVANCE (R113, R114). -/
def execEpochAdvance (s : State) : Host.Outcome State Fault Refusal := .next (settle (advance s))

/-- Whether epoch a lies before epoch b, compared modulo 2^32 (R115). -/
def epochBefore (a b : Nat) : Bool := decide (0 < (b + 2 ^ 32 - a) % 2 ^ 32) && decide ((b + 2 ^ 32 - a) % 2 ^ 32 < 2 ^ 31)

/-- The oldest epoch's shoot-downs complete once no access of an earlier epoch is in flight (R114). -/
def shootEnds (s : State) : State :=
  match s.xlt.shootOpen with
  | [] => s
  | q :: _ =>
    if inFlight s (fun e => epochBefore e q.epoch) then s
    else
      let n := (s.xlt.shootOpen.filter fun r => r.epoch == q.epoch).length
      let s := s.onXlt fun x => { x with shootOpen := x.shootOpen.filter (fun r => r.epoch != q.epoch), shootDone := q.epoch }
      ringDoorbell 2 0 q.epoch (bump 0xC40308 n s)

/-- SHOOT_COMPLETE (R114). -/
def execShootComplete (s : State) : Host.Outcome State Fault Refusal := .next (shootEnds s)

end Sys2Proof.Machine
end

