-- ==== Sys2Proof/Machine/KeyOps.lean ====
section
/-! DEFINITION. Plots, their layout and their keys; the pair secret of tier 3; attestation; debug (R302-R324); and the powering of
clusters by plot ownership (R417). -/

namespace Sys2Proof.Machine

/-! Layout (R313, R314, R417). -/

/-- Whether a cluster has a core in a plot. -/
def clusterUsed (s : State) (k : Nat) : Bool := (List.range 8).any fun i => (corePlot s (8 * k + i)).isSome
/-- In SERVICE a cluster that gains a core begins to power on, and one that loses its last core is off 1 ms later (R417). -/
def clusterTurn (k : Nat) (s : State) : State :=
  if !inService s then s
  else if clusterUsed s k then
    let s := s.onPower fun p => { p with idleSince := p.idleSince.erase k }
    if domainOn s (18 + k) || s.power.testing.contains k || !csOn s || s.boot.failedDomains.contains (18 + k) then s else s.onPower fun p => { p with testing := p.testing ++ [k] }
  else if domainOn s (18 + k) && (s.power.idleSince.find k).isNone then
    s.onPower fun p => { p with idleSince := p.idleSince.set k s.now }
  else s
/-- Every cluster follows the layout. -/
def clustersTurn (s : State) : State := forAll (List.range 8) clusterTurn s

/-- The channel sets of a plot that are in service, lowest first. -/
def goodSets (s : State) (n : Nat) : List Nat :=
  (List.range 32).filter fun k => bitOf (plotSets s n) k && s.pool.setState.getD k 0 == 0
/-- The lowest FREE extent of a channel set. -/
def freeExtent (s : State) (k : Nat) : Option Nat :=
  ((List.range 74).map fun i => 74 * k + i).find? fun x => (s.ext x).state == .free
/-- SERVICE extents of a plot in a channel set. -/
def shareIn (s : State) (n k : Nat) : Nat :=
  (s.pool.exts.filter fun kv => kv.2.role == 2 && kv.2.state == .assigned && kv.2.plot == n && decide (kv.1 < 0x940) &&
    extSet kv.1 == k).length
/-- Extents that a plot's spill share and staging take (R77, R234, R313). -/
def shareWanted (s : State) (n : Nat) : Nat :=
  ceilDiv (cfg 0x404001 20 s * 1000000000 * cfg (0x404100 + n + 1) (if n = 0 then 8 else 7) s / 64) extBytes +
    cfg (0x811000 + n + 1) (if n = 0 then 1 else 2) s
/-- The set with the fewest extents of the share, of those with a FREE extent; ties go to the lowest. -/
def nextSet (s : State) (n : Nat) : Option Nat :=
  ((goodSets s n).filter fun k => (freeExtent s k).isSome).foldl (fun (b : Option Nat) k =>
    match b with
    | none => some k
    | some j => if shareIn s n k < shareIn s n j then some k else some j) none
/-- Take one more extent for a share. -/
def takeOne (n : Nat) (s : State) : State :=
  match (nextSet s n).bind (freeExtent s) with
  | none => s
  | some x => s.onExt x fun e => { e with state := .assigned, plot := n, role := 2, owner := 0xC0 }
/-- A plot takes its share afresh (R313): what it held becomes FREE, and the share is spread over its channel sets as far as FREE
extents reach; a set that is being retired may end with the extents it gives back (R143). -/
def takeShare (n : Nat) (s : State) : State :=
  let s := s.onPool fun p => { p with exts := p.exts.keep fun _ e => !(e.role == 2 && e.state == .assigned && e.plot == n) }
  forAll (List.range 32) setRetires (forAll (List.replicate (shareWanted s n) ()) (fun _ s => takeOne n s) s)
/-- Whether a plot holds its share: it has been activated. -/
def holdsShare (s : State) (n : Nat) : Bool := (s.plot n).st == .active || (s.plot n).st == .hedged

/-- The gate of the layout objects (Table 12-11): plots 1-8 FORMING or ACTIVE; plot 0 by the device's state (R314). -/
def layoutGate (s : State) (n : Nat) : Bool :=
  if n = 0 then preService s || inService s else (s.plot n).st == .forming || (s.plot n).st == .active
/-- Whether a mask names a resource that another plot holds. -/
def ownedByOther (s : State) (of_ : State → Nat → Nat) (n v : Nat) : Bool :=
  plotNums.any fun m => m != n && (of_ s m &&& v) != 0
/-- Bits set in a mask. -/
def bitCount (v w : Nat) : Nat := ((List.range w).filter fun i => bitOf v i).length
/-- Bits of a mask. -/
def maskBits (v w : Nat) : List Nat := (List.range w).filter fun i => bitOf v i
/-- A setting of the dictionary takes a value. -/
def setOd (key v : Nat) (s : State) : State := s.onDict fun d => { d with od := d.od.set key v }

/-- A write of `PlotCores` (R313): an ADP result, and the state after it. -/
def writeCores (n v : Nat) (s : State) : Nat × State :=
  if !layoutGate s n || ((maskBits (plotCores s n) 64).any fun c => !bitOf v c && (s.core c).st != .empty) then (Adp.state, s)
  else if ownedByOther s plotCores n v then (Adp.range, s)
  else (Adp.ok, clustersTurn (setOd (0x911000 + n + 1) v s))

/-- Drop a plot's lines of the chip cache beyond its ways: which lines lie in a way that leaves is a free choice (R313; log entry 11). -/
def waysDrop (n : Nat) (s : State) : State :=
  let room := plotWayCount s n
  let left (k : Nat) (l : List (Nat × Nat)) : List (Nat × Nat) :=
    let mine := l.filter fun e => e.2 == n
    let kept := (mine.rotateLeft (Config.victim (s.free + k) % (mine.length + 1))).take room
    l.filter fun e => e.2 != n || kept.contains e
  let chip := s.pool.chip.mapV left
  let out := (s.pool.dirty.map Prod.fst).filter fun l => !((chip.getD (chipSet l) []).any fun e => e.1 == l)
  ((forAll out writeBack s).onPool fun p => { p with chip }).drawn
/-- A write of `PlotWays` (R313, R314). -/
def writeWays (n v : Nat) (s : State) : Nat × State :=
  if !layoutGate s n then (Adp.state, s)
  else if 2 ^ 24 ≤ v ∨ ownedByOther s plotWays n v ∨ (n = 0 ∧ bitCount v 24 < 2) then (Adp.range, s)
  else
    let fewer := maskBits (plotWays s n) 24 |>.any fun i => !bitOf v i
    let s := setOd (0x911100 + n + 1) v s
    (Adp.ok, if fewer then waysDrop n s else s)

/-- Whether a physical range meets a channel set's extents. -/
def rangeInSet (k lo n : Nat) : Bool := decide (lo < k * 2 ^ 35 + 74 * extBytes) && decide (k * 2 ^ 35 < lo + n) && decide (0 < n)
/-- Whether a channel set holds the translation mirror or the fault queue (R314). -/
def holdsMirror (s : State) (k : Nat) : Bool :=
  rangeInSet k (mirrorLo s) (mirrorHi s - mirrorLo s) || (s.xlt.fqEnable && rangeInSet k (2 ^ 18 * s.xlt.fqBase) (2 ^ 18))
/-- Whether a plot has a spilled flow. -/
def spilledFlow (s : State) (n : Nat) : Bool := s.sw.flows.any fun f => f.spilled && f.plot == n
/-- Whether a plot has a collective executing. -/
def collectiveRuns (s : State) (n : Nat) : Bool := s.coll.groups.any fun kv => kv.2.plot == n && kv.2.seqs.any CSeq.exec
/-- Whether the sets `v` of plot n can take its whole share once it has given up what it holds. -/
def shareFits (s : State) (n v : Nat) : Bool :=
  let free := ((List.range 32).filter fun k => bitOf v k && s.pool.setState.getD k 0 == 0).map fun k =>
    (((List.range 74).map fun i => 74 * k + i).filter fun x => (s.ext x).state == .free).length + shareIn s n k
  decide (shareWanted s n ≤ free.sum)
/-- Whether a channel set may not leave a plot (R313, R314), when the plot keeps the sets `v`. -/
def setHeld (s : State) (n v k : Nat) : Bool :=
  (s.pool.exts.any fun kv => kv.2.plot == n && kv.2.role != 2 && decide (kv.1 < 0x940) && extSet kv.1 == k &&
    (kv.2.state == .assigned || kv.2.state == .draining)) ||
  (shareIn s n k != 0 && (spilledFlow s n || collectiveRuns s n || !shareFits s n v)) || (n == 0 && holdsMirror s k)
/-- A write of `PlotChannelSets` (R313, R314). -/
def writeSets (n v : Nat) (s : State) : Nat × State :=
  let leaving := (maskBits (plotSets s n) 32).filter fun k => !bitOf v k
  if !layoutGate s n || leaving.any (setHeld s n v) then (Adp.state, s)
  else if ownedByOther s plotSets n v ∨ (n = 0 ∧ bitCount v 32 < 2) then (Adp.range, s)
  else
    let again := holdsShare s n && !leaving.isEmpty
    let s := setOd (0x911200 + n + 1) v s
    (Adp.ok, if again then takeShare n s else s)

/-! Plot commands (R312-R320). -/

/-- Whether a frame of a plot still holds the old generation (R315). -/
def frameOld (s : State) (n f g : Nat) : Bool :=
  match extOf (f * frameBytes) with
  | none => false
  | some x => (s.ext x).plot == n && (s.ext x).state != .free && g != genNow s x
/-- The frames of a plot that hold the old generation. -/
def oldFrames (s : State) (n : Nat) : List Nat := (s.key.frameGen.filter fun kv => frameOld s n kv.1 kv.2).map Prod.fst
/-- The tier 3 extents assigned to a plot. -/
def plotTier3 (s : State) (n : Nat) : List Nat :=
  (s.pool.exts.filter fun kv => extTier kv.1 == 3 && kv.2.plot == n && kv.2.state == .assigned).map Prod.fst

/-- ROTATE (R315). -/
def rotatePlot (n : Nat) (s : State) : State :=
  let xs := plotTier3 s n
  let s := s.onPlot n fun x => { x with rot := x.rot + 1, rotating := true }
  s.onKey fun k => { k with extRot := xs.foldl (fun m x => m.set x (m.getD x 0 + 1)) k.extRot }

/-- A frame whose key is retired by force (R317): every line is lost, and the frame takes the current generation at its next write. -/
def frameRetired (f : Nat) (s : State) : State :=
  let s := chipDrop (fun l => l / 512 == f) s
  let s := s.onPool fun p => { p with lostLines := (List.range 512).foldl (fun m i => m.set (512 * f + i) .keyRetired) p.lostLines }
  let s := s.onPool fun p => { p with bcvs := p.bcvs.keep fun b _ => b / 16 != f }
  { s.onKey fun k => { k with frameGen := k.frameGen.erase f } with mem := Mem.zero s.mem (f * frameBytes) frameBytes }
/-- RETIREOLD with FORCE (R317). -/
def retireOld (n : Nat) (s : State) : State :=
  let fs := oldFrames s n
  raise 0x9103 [n, 512 * fs.length] (s.onPlot n (fun x => { x with rotating := false }) |> forAll fs frameRetired)

/-- LIFT (R320): firings that fell due are issued. -/
def liftPlot (n : Nat) (s : State) : State :=
  let s := s.onPlot n fun x => { x with st := .active }
  forAll ((s.sync.watches.filter fun kv => kv.2.st == .armed && watchPlot s kv.1 == some n).map fun kv => kv.2.ctr) touch s

/-- Whether a descriptor runs on the move engine. -/
def onMover (s : State) (c : Nat) (i : Inc) : Bool :=
  match (s.core c).prog with
  | none => false
  | some p => (p.descs[i.idx]?.map fun d => engineOf (s.core c) d == 5).getD false
/-- The threads of a core stop for the removal of its plot: transfers end with FAIL_PLOT_REMOVED (R319). -/
def removeCore (c : Nat) (s : State) : State :=
  forAll (List.range 16) (fun t s =>
    let moves := ((s.thread c t).incs.filter (onMover s c)).map Inc.seq
    let s := forAll moves (fun q s => finishInc c t q St.plotRemoved {} s) s
    stopThread c t s) s
/-- Items 1 to 5 of R319. -/
def removePlot (n : Nat) (s : State) : State :=
  let s := s.onPlot n fun x => { x with st := .removing, rotating := false, since := s.now, drainFails := 0 }
  let s := raise 0x9105 [n, 1] s
  let s := abortPlot n (forAll (coresOf s n) removeCore s)
  let s := s.onSync fun y => { y with
    watches := y.watches.keep fun w _ => watchPlot s w != some n
    retries := y.retries.filter fun r => r.plot != n }
  let mine (c : Nat) : Bool := ctxPlot s c == some n
  let s := s.onXlt fun x => { x with ctxs := x.ctxs.mapV fun c y => if mine c then { y with draining := true } else y }
  faultsFail (fun e => mine e.ctx) s

/-- CREATE. -/
def createPlot (n : Nat) (s : State) : Nat × State :=
  if (s.plot n).st == .empty && inService s then (Adp.ok, s.onPlot n fun x => { x with st := .forming }) else (Adp.state, s)
/-- ACTIVATE. -/
def activatePlot (n : Nat) (s : State) : Nat × State :=
  if (s.plot n).st == .forming && decide (0 < plotWayCount s n) then
    (Adp.ok, takeShare n (s.onPlot n fun x => { x with st := .active, rot := 1 }))
  else (Adp.state, s)

/-- A plot command (R312, Tables 12-4 and 12-5): an ADP result, and the state after it. A rotation that an adopted extent brought unfinished
counts as one in progress: two generations at most are live (R316, R318; DEDUCED, log entry 44). -/
def plotCommand (op n : Nat) (force : Bool) (s : State) : Nat × State :=
  let x := s.plot n
  if op = 0 ∨ 7 < op ∨ 8 < n ∨ (n = 0 ∧ op ≠ 3) then (Adp.range, s)
  else
    match op with
    | 1 => createPlot n s
    | 2 => activatePlot n s
    | 3 => if x.st == .active && !x.rotating && (oldFrames s n).isEmpty then (Adp.ok, rotatePlot n s) else (Adp.state, s)
    | 4 => if x.st == .active && x.rotating && force then (Adp.ok, retireOld n s) else (Adp.state, s)
    | 5 =>
      if x.st == .active then (Adp.ok, abortPlot n (raise 0x9105 [n, 0] (s.onPlot n fun x => { x with st := .hedged })))
      else (Adp.state, s)
    | 6 => if x.st == .hedged then (Adp.ok, liftPlot n s) else (Adp.state, s)
    | _ =>
      if x.st == .forming || x.st == .active || x.st == .hedged then (Adp.ok, removePlot n s) else (Adp.state, s)
/-- A write of KEY_PLOT_CMD (R312, R324). -/
def plotByReg (op n : Nat) (force : Bool) (s : State) : State :=
  let r := plotCommand op n force s
  regAck St.ok (r.2.onKey fun k => { k with plotStatus := if r.1 = Adp.ok then St.ok else St.state, plotDone := true })
/-- A plot command by either path. -/
def plotComes (dict : Bool) (op n : Nat) (force : Bool) (s : State) : State :=
  settle (if dict then (plotCommand op n force s).2 else viaRegIn (csOn s) (plotByReg op n force) s)

/-! The end of a removal (R319). -/

/-- Whether a waiting access is one at a plot's extents. -/
def waitOf (s : State) (n : Nat) (w : PoolWait) : Bool :=
  match paExt s w.pa with
  | none => w.req.h.plot == n
  | some x => (s.ext x).plot == n
/-- The extents of a plot, of any role. -/
def plotExtents (s : State) (n : Nat) : List Nat :=
  (s.pool.exts.filter fun kv => kv.2.plot == n && kv.2.state != .free).map Prod.fst
/-- Frames of a plot that wait in the switch. -/
def plotFrames (s : State) (n : Nat) : Nat :=
  ((queuedFrames s).filter fun x => x.req.h.plot == n).length +
    (s.sw.heldSigs.filter fun x => x.req.h.plot == n).length
/-- Whether anything of a plot is in flight (R319). -/
def plotInFlight (s : State) (n : Nat) : Bool :=
  s.pool.waiting.any (waitOf s n) || (s.xlt.stalled.any fun q => q.1.h.plot == n) || plotFrames s n != 0 ||
    (plotExtents s n).any fun x => !(s.ext x).publishing.isEmpty

/-- The frames and held signals of a plot are answered with FAIL_PLOT_REMOVED without being delivered (R319, item 4). -/
def failFrames (n : Nat) (s : State) : State :=
  let mine (x : Frame) : Bool := x.req.h.plot == n
  let heads := (headFrames s).filter mine
  let out := (gatedFrames s ++ s.sw.heldSigs.map heldFrame).filter mine
  forAll heads (fun x s => refuseReq x.req St.plotRemoved 0 (leftIngress x s))
    (forAll out (fun x s => failReq x.req x.gather St.plotRemoved 0 (leftIngress x s)) (dropFrames mine s))
/-- `DrainTimeout` has passed (R319, item 4): what is left at the plot's extents fails with FAIL_PLOT_REMOVED, and is counted. -/
def removeExpires (n : Nat) (s : State) : State :=
  let waits := (s.pool.waiting.filter (waitOf s n)).length
  let pubs := (plotExtents s n).flatMap fun x => (s.ext x).publishing
  let stalled := s.xlt.stalled.filter fun q => q.1.h.plot == n
  let s := s.onPlot n fun x => { x with drainFails := x.drainFails + waits + pubs.length + stalled.length }
  let s := failWaits (waitOf s n) St.plotRemoved s
  let s := forAll (plotExtents s n) (fun x s => s.onExt x fun e => { e with publishing := [] }) s
  let s := forAll pubs (fun q s => versionOutcome q.1 St.plotRemoved s) s
  let s := s.onXlt fun x => { x with stalled := x.stalled.filter fun q => q.1.h.plot != n }
  let s := forAll stalled (fun q s => failReq q.1 none St.plotRemoved 0 s) s
  failFrames n s

/-- The contexts of a plot are freed, with what the caches hold of them. -/
def dropCtxs (n : Nat) (s : State) : State :=
  forAll ((s.xlt.ctxs.map Prod.fst).filter fun c => ctxPlot s c == some n) (fun c s =>
    freeCtx c (s.onFur fun f => { f with cores := f.cores.mapV fun _ k => { k with cache := k.cache.filter fun l => l.ctx != c } })) s
/-- The objects of a plot's layout go back to empty. -/
def dropLayout (n : Nat) (s : State) : State :=
  let gone (k v : Nat) : Bool :=
    k == 0x911000 + n + 1 || k == 0x911100 + n + 1 || k == 0x911200 + n + 1 ||
      (decide (0x310001 ≤ k) && decide (k ≤ 0x310080) && v == n)
  clustersTurn (s.onDict fun d => { d with od := d.od.keep fun k v => !gone k v })
/-- Items 6 and 7 of R319: the plot is EMPTY. -/
def removeEnds (n : Nat) (s : State) : State :=
  let cores := coresOf s n
  let exts := plotExtents s n
  let ports := (List.range 128).filter fun p => portPlot s p == n
  let s := s.onPool fun p => { p with
    chip := p.chip.mapV fun _ l => l.filter fun e => e.2 != n
    migrations := p.migrations.filter fun m => !exts.contains m.ext }
  let s := forAll cores coreClear s
  let inPlot (c : Nat) : Bool := ctrIn s n c
  let s := s.onSync fun y => { y with
    ctrs := y.ctrs.keep fun c _ => !inPlot c, grants := y.grants.keep fun c _ => !inPlot c
    touched := y.touched.filter fun c => !inPlot c }
  let s := dropCtxs n s
  let s := forAll exts (fun x s => regionsGone x (s.onExt x fun e => { e with state := .scrubbing, versions := [], written := [] })) s
  let s := dropLayout n s
  let s := forAll ports (fun p s =>
    match (s.port p).st with
    | .active => portFallow p 7 s
    | .degraded => portFallow p 7 s
    | _ => s) s
  let fails := (s.plot n).drainFails
  raise 0x9106 [n, exts.length, fails] (s.onKey fun k => { k with plots := k.plots.erase n })
/-- A removal goes on (R319): what is left fails at `DrainTimeout`, and the plot ends once nothing of it is in flight. -/
def removeGoes (n : Nat) (s : State) : State :=
  let x := s.plot n
  if x.st != .removing then s
  else
    let s := if elapsed s x.since (1000 * cfg 0x602001 1000 s) then removeExpires n s else s
    if plotInFlight s n then s else removeEnds n s

/-! Rotation at work (R315, R316). -/

/-- A frame has been re-encrypted under the current generation. -/
def reencrypted (f : Nat) (s : State) : State :=
  match s.key.frameGen.find f, extOf (f * frameBytes) with
  | some g, some x =>
    if g = genNow s x ∨ s.power.paused ∨ extLost s x ∨ (s.plot (s.ext x).plot).st ≠ .active then s
    else s.onKey fun k => { k with frameGen := k.frameGen.set f (genNow s x) }
  | _, _ => s
/-- Whether a spilled frame of a plot lies in spill under an old generation. -/
def spillOld (s : State) (n : Nat) : Bool :=
  s.sw.flows.any fun f => f.spill.any fun x => !x.onChip && x.req.h.plot == n && x.rot != (s.plot n).rot
/-- No frame and no spill cell of the plot carries the old generation: the old key is gone (R316). -/
def rotationEnds (n : Nat) (s : State) : State :=
  let x := s.plot n
  if !x.rotating || x.st != .active || !(oldFrames s n).isEmpty || spillOld s n then s
  else
    let xs := plotTier3 s n
    let s := bump 0xC40C02 1 (s.onPlot n fun x => { x with rotating := false })
    let s := raise 0x9102 [0, n, (x.rot - 1) % 65536] s
    forAll xs (fun y s => raise 0x9102 [1, y, (s.key.extRot.getD y 0 - 1) % 65536] s) s

/-! The tier 3 pair record (R307, R308). -/

/-- `PartnerSerial`; empty while it has not been written. -/
def partnerSerial (s : State) : List Byte := s.dict.odBytes.getD 0x903001 []
/-- Whether a tier 3 head is in service on one device, and the pair record may be unwrapped (R308, R323, R362). -/
def pairReach (s : State) : Bool :=
  ((s.cxlPort 2).st == 1 || (s.cxlPort 3).st == 1) && !s.cxl.split && !s.key.debug
/-- Serial of the tier 3 device. -/
def tier3Serial (s : State) : Nat := leNat (if (s.cxlPort 2).st = 1 then (s.cxlPort 2).serial else (s.cxlPort 3).serial)
/-- The tier 3 wrap key (Table 12-1), the same at every start. -/
def wrapKey (s : State) : List Byte := kdf s "T3WRAP01" (natLe 8 (tier3Serial s)) 32
/-- The pair secret when this hub creates it (Table 12-1). -/
def newSecret (s : State) : List Byte := kdf s "T3PAIR01" (startNonce s ++ natLe 8 (tier3Serial s)) 32
/-- A transfer area with the reserved lines that follow, as bytes (R308). -/
def PairArea.bytes : PairArea → List Byte
  | .empty => []
  | .ask pub chain => pub ++ chain
  | .grant wrapped pub => takePad 64 wrapped ++ pub
/-- A slot's 120 bytes (Table 12-3). -/
def PairSlot.image (x : PairSlot) : List Byte := takePad 16 x.serial ++ takePad 40 x.wrapped ++ takePad 64 x.area.bytes
/-- The pair record's 256 bytes, and the reserved lines that follow (Table 12-3, R308). -/
def PairRec.image (r : PairRec) : List Byte :=
  natLe 2 0x3C7E ++ natLe 2 0 ++ natLe 4 r.count ++ r.slot0.image ++ r.slot1.image ++ natLe 8 0 ++
    r.slot0.area.bytes.drop 64 ++ r.slot1.area.bytes.drop 64
/-- A slot of the record. -/
def PairRec.slot (r : PairRec) (i : Nat) : PairSlot := if i = 0 then r.slot0 else r.slot1
/-- The record with a slot written. -/
def PairRec.put (r : PairRec) (i : Nat) (x : PairSlot) : PairRec := if i = 0 then { r with slot0 := x } else { r with slot1 := x }
/-- The slot that bears a serial. -/
def PairRec.find (r : PairRec) (serial : List Byte) : Option Nat := [0, 1].find? fun i => (r.slot i).serial == serial
/-- A free slot. -/
def PairRec.free (r : PairRec) : Option Nat := [0, 1].find? fun i => (r.slot i).serial.isEmpty
/-- Slots in use. -/
def PairRec.used (r : PairRec) : Nat := ([0, 1].filter fun i => !(r.slot i).serial.isEmpty).length
/-- This hub's serial as a slot holds it. -/
def mySerial : List Byte := takePad 16 Config.serialNumber
/-- This hub writes a slot of the record. -/
def pairPut (i : Nat) (x : PairSlot) (s : State) : State :=
  let r := s.key.pair.put i x
  emit (.pairRecord r.image) (s.onKey fun k => { k with pair := r })
/-- What the slot that bears this hub's serial unwraps to under its wrap key (R307). -/
def ownSecret (s : State) : Option (List Byte) :=
  match s.key.pair.find mySerial with
  | none => none
  | some i => if (s.key.pair.slot i).wrapped.isEmpty then none else Config.keyUnwrap (wrapKey s) (s.key.pair.slot i).wrapped
/-- This hub holds the secret: its slot wraps it under its own wrap key, with the transfer area cleared (R308, steps 2 and 5). -/
def pairHolds (i : Nat) (ps : List Byte) (s : State) : State :=
  pairPut i { serial := mySerial, wrapped := takePad 40 (Config.keyWrap (wrapKey s) ps) }
    (s.onKey fun k => { k with pairSecret := ps, pairPriv := [], pairState := 1 })
/-- A hub without the secret asks for it in a slot (R308, step 3). The private key of the request is drawn from the random bit generator
(DEDUCED: Table 12-1 derives none; log entry 44). -/
def pairAsk (i : Nat) (s : State) : State :=
  let priv := takePad 56 (Config.random s.free 56)
  let pub := takePad 56 (Config.x448Public priv)
  pairPut i { serial := mySerial, area := .ask (pub ++ takePad 114 (Config.ed448Sign pub)) Config.certificateChain }
    (s.drawn.onKey fun k => { k with pairPriv := priv, pairState := 2 })
/-- Neither slot can be unwrapped, and no other hub can give the secret (R308). -/
def pairFails (s : State) : State :=
  if s.key.pairState = 3 then s
  else raise 0x9104 [tier3Serial s, s.key.pair.used] (s.onKey fun k => { k with pairState := 3 })
/-- The hub looks at the pair record (R307, R308): its own slot, an empty record, a slot to ask in, or none of them. A slot with its serial
that holds no secret it can unwrap is one to ask in, while another hub holds the other slot (DEDUCED, log entry 44). -/
def pairCheck (s : State) : State :=
  let r := s.key.pair
  if !pairReach s then s
  else
    match ownSecret s with
    | some ps => s.onKey fun k => { k with pairSecret := ps, pairState := 1 }
    | none =>
      if r.used = 0 then
        if (partnerSerial s).isEmpty then s
        else pairHolds 0 (newSecret s) (s.onKey fun k => { k with pair := { r with count := r.count + 1 } })
      else if s.key.pairState = 2 then s
      else
        match r.find mySerial, r.free with
        | some i, none => pairAsk i s
        | none, some i => pairAsk i s
        | _, _ => pairFails s
/-- A holding hub gives the secret to the partner it expects, wrapped under SHAKE256 of the X448 shared secret (R308, step 4); the public
key of its half stands in the reserved lines that follow (DESIGN CHOICE, log entry 58: the rule names no place for it). -/
def pairGrant (s : State) : State :=
  match if s.key.pairState = 1 ∧ partnerSerial s ≠ [] then s.key.pair.find (partnerSerial s) else none with
  | none => s
  | some i =>
    let x := s.key.pair.slot i
    match x.area with
    | .ask pub chain =>
      if Config.chainVerifies [Config.deviceRoot] chain ∧ Config.ed448Verify (Config.chainKey chain) (pub.take 56) (pub.drop 56) then
        let priv := takePad 56 (Config.random s.free 56)
        let wrapped := takePad 40 (Config.keyWrap (Config.shake256 (Config.x448 priv (pub.take 56)) 32) s.key.pairSecret)
        pairPut i { x with area := .grant wrapped (takePad 56 (Config.x448Public priv)) } s.drawn
      else s
    | _ => s
/-- The hub looks at the record, and gives the secret to a partner that asks. -/
def pairTurn (s : State) : State := pairGrant (pairCheck s)
/-- Where another hub writes: its slot, or a free one. -/
def pairPlace (s : State) (serial : List Byte) : Option Nat :=
  if serial = mySerial then none else (s.key.pair.find serial).or s.key.pair.free
/-- Another hub writes a slot of the record. -/
def pairOther (x : PairSlot) (s : State) : State :=
  match pairPlace s x.serial with
  | none => s
  | some i => s.onKey fun k => { k with pair := k.pair.put i x }
/-- The wrapped secret has come (R308, step 5): this hub unwraps it under the shared secret, and rewraps it in its slot. -/
def pairTaken (wrapped pub : List Byte) (s : State) : State :=
  match if s.key.pairState = 2 then s.key.pair.find mySerial else none with
  | none => s
  | some i =>
    match Config.keyUnwrap (Config.shake256 (Config.x448 s.key.pairPriv (pub.take 56)) 32) wrapped with
    | none => s.onKey fun k => { k with pair := k.pair.put i { k.pair.slot i with area := .grant wrapped pub } }
    | some ps => pairHolds i ps s
/-- The partner hub has written the pair record (R308). -/
def pairWritten (w : PairWrite) (s : State) : State :=
  match w with
  | .partnerSlot serial pub chain => pairTurn (pairOther { serial := takePad 16 serial, area := .ask pub chain } s)
  | .partnerHolds serial wrapped => pairTurn (pairOther { serial := takePad 16 serial, wrapped := takePad 40 wrapped } s)
  | .transfer wrapped pub => pairTaken wrapped pub s
/-- `PartnerSerial` has been written. -/
def partnerNamed (s : State) : State := pairTurn s

/-- Tier 3 is scrubbed as a whole (R308). -/
def tier3Scrub (s : State) : State :=
  let mine (pa : Nat) : Bool := decide (0x040000000000 ≤ pa) && decide (pa < 0x060000000000)
  let frame (f : Nat) : Bool := mine (f * frameBytes)
  let s := chipDrop (fun l => mine (128 * l)) s
  let s := s.onKey fun k => { k with frameGen := k.frameGen.keep fun f _ => !frame f, extRot := [] }
  let s := s.onPool fun p => { p with
    lostLines := p.lostLines.keep fun l _ => !mine (128 * l)
    bcvs := p.bcvs.keep fun b _ => !mine (4096 * b)
    frames := p.frames.keep fun f _ => !frame f }
  let s := s.onCxl fun c => { c with kept := [] }
  { s with mem := Mem.zero s.mem 0x040000000000 0x020000000000 }
/-- `Tier3PairReset` (R308): an ADP result, and the state after it. -/
def pairReset (s : State) : Nat × State :=
  if !inService s || s.pool.exts.any (fun kv => extTier kv.1 == 3 && kv.2.state == .assigned) then (Adp.state, s)
  else
    (Adp.ok, pairCheck ((tier3Scrub s).onKey fun k => { k with pair := {}, pairSecret := [], pairPriv := [], pairState := 0 }))

/-! What the tiers hold (R303, R305, R307). -/

/-- The memory key of plot n at rotation r (Table 12-1). -/
def memoryKey (s : State) (n r : Nat) : List Byte := kdf s "MEMKEY01" (startNonce s ++ natLe 1 n ++ natLe 8 r) 64
/-- The key of a tier 3 extent at an extent rotation (R307). -/
def extentKey (s : State) (x r : Nat) : List Byte := Config.shake256 (s.key.pairSecret ++ ascii "T3EXT001" ++ natLe 2 x ++ natLe 8 r) 64
/-- The generation tag of a frame: its own, or for a CLEAR frame the one it takes at its first write (R306). -/
def frameTag (s : State) (f : Nat) : Nat := (s.key.frameGen.find f).getD (frameGenNow s f)
/-- The rotation a generation tag stands for: the current count, or the one before it while a rotation is in progress (R315). -/
def rotationOf (now tag : Nat) : Nat := if tag = now % 65536 then now else now - 1
/-- The key of hub metadata in reserved capacity (R305): the memory key of plot 0. -/
def metaKey (s : State) : List Byte := memoryKey s 0 (s.plot 0).rot
/-- The key of a frame (R305): the tier 3 extent's, the memory key of the plot of its extent at its generation (spill and staging among
them, which lie in the plot's SERVICE extents), or in reserved capacity that of hub metadata. -/
def frameKey (s : State) (f : Nat) : List Byte :=
  match extOf (f * frameBytes) with
  | none => metaKey s
  | some x =>
    if extTier x = 3 then extentKey s x (rotationOf (s.key.extRot.getD x 0) (frameTag s f))
    else memoryKey s (s.ext x).plot (rotationOf (s.plot (s.ext x).plot).rot (frameTag s f))
/-- The XTS tweak of a line (Table 12-2). -/
def lineTweak (line gen : Nat) : Nat := line / 512 % 2 ^ 32 + 2 ^ 32 * (line % 512) + 2 ^ 48 * (gen % 65536)
/-- A line as its tier holds it (R305): encrypted; the model keeps its plain text (log entry 6). -/
def lineHeld (s : State) (line : Nat) : List Byte :=
  Config.aesXts (frameKey s (line / 512)) (lineTweak line (frameTag s (line / 512))) (tierLine s line)
/-- A line of a spilled frame as the spill share holds it (R305, R315): under its plot's memory key at the generation it was spilled in. -/
def spillHeld (s : State) (x : Frame) (line : Nat) (data : List Byte) : List Byte :=
  Config.aesXts (memoryKey s x.req.h.plot x.rot) (lineTweak line x.rot) data
/-- A line of collective staging as it is held (R305): under the memory key of the group's plot at its frame's generation. -/
def stageHeld (s : State) (n line : Nat) (data : List Byte) : List Byte :=
  Config.aesXts (memoryKey s n (rotationOf (s.plot n).rot (frameTag s (line / 512)))) (lineTweak line (frameTag s (line / 512))) data

/-! Attestation (R321, R322). -/

/-- STATE of a layout entry (Table 12-9). -/
def PlotSt.code : PlotSt → Nat
  | .empty => 0
  | .forming => 1
  | .active => 2
  | .hedged => 3
  | .removing => 4
/-- A layout entry (Table 12-9). -/
def layoutEntry (s : State) (n : Nat) : List Byte :=
  let ports := ((List.range 128).map fun p => if portPlot s p = n then 2 ^ p else 0).sum
  natLe 1 (s.plot n).st.code ++ natLe 1 0 ++ natLe 2 (s.plot n).rot ++ natLe 4 0 ++ natLe 8 (plotCores s n) ++
    natLe 4 (plotWays s n) ++ natLe 4 (plotSets s n) ++ natLe 16 ports ++
    natLe 1 (cfg (0x404100 + n + 1) (if n = 0 then 8 else 7) s) ++ natLe 7 0
/-- The attestation ephemeral of a request (Table 12-1). -/
def attEphemeral (s : State) (a : Attest) : List Byte := kdf s "ATTEPH01" (startNonce s ++ natLe 8 a.num) 56
/-- K of a request (R321). -/
def attKey (s : State) (a : Attest) : List Byte :=
  Config.shake256 (Config.x448 (attEphemeral s a) a.peer ++ a.nonce ++ a.peer ++ Config.x448Public (attEphemeral s a)) 32
/-- The loaded cores of a plot. -/
def loadedCores (s : State) (n : Nat) : List Nat := (coresOf s n).filter fun c => (s.core c).prog.isSome
/-- The report of a request (Table 12-8). -/
def attReport (s : State) (a : Attest) : List Byte :=
  let cores := loadedCores s a.plot
  let chain := Config.certificateChain
  let len := 880 + 72 * cores.length + 4 + chain.length + 114
  let body := natLe 2 0x7A11 ++ natLe 1 1 ++ natLe 1 (b2n s.key.debug) ++ natLe 4 len ++ takePad 16 Config.serialNumber ++
    natLe 1 0xB0 ++ natLe 1 a.plot ++ natLe 2 (hubIdObj s) ++ natLe 1 (planeObj s) ++ natLe 1 Config.fuseMapRevision ++ natLe 2 0 ++
    natLe 8 s.now ++ takePad 64 a.nonce ++ takePad 56 a.peer ++ takePad 56 (Config.x448Public (attEphemeral s a)) ++
    takePad 32 (Config.shake256 (ascii "KCONF001" ++ attKey s a) 32) ++ takePad 64 Config.bootRomDigest ++
    takePad 64 s.boot.digest ++ takePad 64 ((s.chk.tilth.map TilthSet.digest).getD []) ++
    (plotNums.map (layoutEntry s)).flatten ++ natLe 1 cores.length ++ natLe 7 0 ++
    (cores.map fun c => natLe 1 c ++ natLe 7 0 ++ takePad 64 (s.core c).digest).flatten ++ natLe 4 chain.length ++ chain
  body ++ takePad 114 (Config.ed448Sign body)

/-- Sessions that rest on a report's key end with it (R322). -/
def sessionsEnd (report : Nat) (s : State) : State :=
  s.onDict fun d => { d with sessions := d.sessions.filter fun x => (x.tenant.map Prod.snd) != some report }
/-- K is kept as the key of a tenant session (R322): a 17th report ends the oldest. -/
def keepTenant (a : Attest) (s : State) : State :=
  let t : TenantKey := { num := a.num, plot := a.plot, nonce := a.nonce, key := attKey s a, since := s.now }
  let l := s.key.tenants ++ [t]
  let s := s.onKey fun k => { k with tenants := l.drop (l.length - 16) }
  forAll (l.take (l.length - 16)) (fun x s => sessionsEnd x.num s) s
/-- The key of a tenant session lapses 600 s after its report (R322). -/
def tenantLapses (report : Nat) (s : State) : State :=
  match s.key.tenants.find? fun t => t.num == report with
  | none => s
  | some t =>
    if !elapsed s t.since 600000000000 then s
    else sessionsEnd report (s.onKey fun k => { k with tenants := k.tenants.filter fun x => x.num != report })

/-- `AttestGo` (R321): an ADP result, and the state after it. -/
def attestGo (s : State) : Nat × State :=
  if !inService s || s.key.attNonce.isEmpty || s.key.attPeer.isEmpty then (Adp.state, s)
  else if s.key.attDict.isSome then (Adp.busy, s)
  else
    (Adp.ok, s.onKey fun k => { k with
      attCount := k.attCount + 1
      attDict := some { plot := cfg 0x930003 0 s, nonce := k.attNonce, peer := k.attPeer, num := k.attCount + 1 } })
/-- The source of a request through the KEY registers is read (R321): whether that is over, and the state after it. -/
def attestTry (n : Nat) (s : State) : Bool × State :=
  let q := hubRead 65 s.key.attSrcCtx 0 (nodeOf s 0xC1) s.key.attSrcOff 120 s
  match q.1 with
  | .wait => (false, q.2)
  | .fail st => (true, q.2.onKey fun k => { k with attStatus := st, attDone := true })
  | .ok b => (true, q.2.onKey fun k => { k with
      attCount := k.attCount + 1, attDone := false
      attReg := some { plot := n, nonce := b.take 64, peer := slice b 64 56, num := k.attCount + 1 } })
/-- Whether a request through the KEY registers is in progress. -/
def attestBusy (s : State) : Bool := s.key.attReg.isSome || s.pool.hubCmds.any fun c => match c with
  | .attest _ => true
  | _ => false
/-- A write of KEY_ATTEST_CMD (R321, R324). -/
def attestByReg (n : Nat) (s : State) : State :=
  if attestBusy s ∨ !inService s ∨ 8 < n then regAck St.ok (s.onKey fun k => { k with attStatus := St.state })
  else hubCommand (.attest n) (attestTry n (s.onKey fun k => { k with attDone := false }))
/-- A report asked for through the KEY registers is written to plot 0 memory (R321): whether that is over, and the state after it. -/
def reportTry (s : State) : Bool × State :=
  match s.key.attReg with
  | none => (true, s)
  | some a =>
    let b := attReport s a
    let q := hubWrite 66 s.key.attDstCtx 0 (nodeOf s 0xC1) s.key.attDstOff b s
    let ends (st len : Nat) (s : State) : State :=
      bump 0xC40C06 1 (keepTenant a (s.onKey fun k => { k with attReg := none, attStatus := st, attDone := true, attLen := len }))
    match q.1 with
    | .wait => (false, q.2)
    | .fail st => (true, ends st 0 q.2)
    | .ok _ => (true, ends St.ok b.length q.2)
/-- The report of a request is signed (R321): kept in `AttestReport`, or written to plot 0 memory. -/
def reportSigned (dict : Bool) (s : State) : State :=
  if dict then
    match s.key.attDict with
    | none => s
    | some a =>
      let b := attReport s a
      bump 0xC40C06 1 (keepTenant a (s.onKey fun k => { k with report := b, attDict := none }))
  else
    let q := reportTry s
    if q.1 || q.2.pool.hubCmds.contains .report then q.2 else q.2.onPool fun p => { p with hubCmds := p.hubCmds ++ [.report] }

/-! Debug (R323). -/

/-- `DebugChallenge`, drawn at each start. -/
def debugChallenge (s : State) : List Byte := takePad 64 (Config.random s.key.start 64)
/-- Whether the device is in a state that accepts a debug token. -/
def debugGate (s : State) : Bool := s.boot.st == .island || s.boot.st == .loaded || s.boot.st == .measured
/-- A debug token (R323): an ADP result, and the state after it. -/
def debugWrite (b : List Byte) (s : State) : Nat × State :=
  if b.length ≠ 202 then (Adp.badType, s)
  else if !debugGate s then (Adp.state, s)
  else if b.take 16 ≠ takePad 16 Config.serialNumber ∨ slice b 16 64 ≠ debugChallenge s ∨
      !Config.ed448Verify Config.debugKey (b.take 88) (b.drop 88) then (Adp.auth, s)
  else
    (Adp.ok, raise 0x9107 [fieldAt b 80 8] (s.onKey fun k => { k with
      debug := true, links := [], pairSecret := [], pairPriv := [], pairState := 0, tenants := [], attDict := none, attReg := none }))
/-- A token submitted through KEY_DEBUG_CMD is read (R323): whether that is over, and the state after it. -/
def debugTry (ctx off : Nat) (s : State) : Bool × State :=
  let q := hubRead 67 ctx 0 (nodeOf s 0xC1) off 202 s
  match q.1 with
  | .wait => (false, q.2)
  | .fail st => (true, q.2.onKey fun k => { k with debugStatus := st })
  | .ok b =>
    let r := debugWrite b q.2
    (true, r.2.onKey fun k => { k with debugStatus := if r.1 = Adp.ok then St.ok else St.protection })
/-- A write of KEY_DEBUG_CMD (R323, R324). -/
def debugByReg (ctx off : Nat) (s : State) : State :=
  if !debugGate s then regAck St.ok (s.onKey fun k => { k with debugStatus := St.state })
  else hubCommand (.debug ctx off) (debugTry ctx off s)

end Sys2Proof.Machine
end

