-- ==== Sys2Proof/Machine/PowerOps.lean ====
section
/-! DEFINITION. Power, throttle, temperature and the end of every data domain (R414-R431). -/

namespace Sys2Proof.Machine

/-! FAULTED (Table 16-1, Table 16-15). -/

/-- The switch core loses what it holds: frames queued, staged or spilled, held signals, gather records and waiting replies (R82). -/
def switchLost (s : State) : State := s.onSw fun w => { w with
  flows := [], stage := [], entry := [], issueKept := [], heldSigs := [], gathers := []
  replyStage := [], replyWait := [], replyKept := [], replyTurn := [] }
/-- Every data domain is off (R430, Table 16-1): the frames in the switch core, the spilled ones among them, are lost with the rest of the
data path, and every port is DOWN. -/
def domainsOff (s : State) : State :=
  let groups := (List.range 16).filter (domainOn s)
  forAll groups groupOff ((switchLost s).onBoot fun b => { b with powered := 0 })
/-- The BOOT doorbell (R391). -/
def bootBell (status : Nat) (s : State) : State := ringDoorbell 6 0 (s.boot.st.code + 256 * status) s
/-- A boot command has ended (R391): its result, BOOT_STATE_CHANGED and the doorbell. -/
def bootEnds (cmd prev status detail : Nat) (s : State) : State :=
  let s := s.onBoot fun b => { b with run := none, resStatus := status, resDetail := detail, resDone := true }
  bootBell status (raise 0x2110 [prev, s.boot.st.code, cmd, status, detail] s)
/-- The device enters FAULTED for a cause (Table 16-1); a boot command that runs ends with it (R391). -/
def enterFaulted (cause : Nat) (s : State) : State :=
  if s.boot.st = .faulted then s
  else
    let prev := s.boot.st.code
    let run := s.boot.run
    let s := domainsOff s
    let s := s.onBoot fun b => { b with st := .faulted, cause, fault := true, run := none }
    let s := raise 0x2113 [cause, prev] s
    match run with
    | none => s
    | some r => bootEnds r.cmd prev St.internal cause s

/-! The throttle (R419-R421). -/

/-- Set the throttle; a change is counted, and the collectives that execute below (2, 16) are slow (R421). -/
def setThrottle (d k : Nat) (s : State) : State :=
  if s.power.div = d ∧ s.power.duty = k then s
  else
    let s := bump 0xC43001 1 (s.onPower fun p => { p with div := d, duty := k, raiseTo := none })
    if throttled s then slowAll s else s
/-- The clamp of R423 and R429: the throttle at (8, 1), the Harrow's background work paused. -/
def clamp (s : State) : State := (setThrottle 8 1 s).onPower fun p => { p with paused := true, raiseTo := none }
/-- From CLOCKED onward the caps act (R457). -/
def capsAct (s : State) : Bool :=
  match s.boot.st with
  | .clocked => true
  | .powered => true
  | .trained => true
  | .verified => true
  | .service => true
  | _ => false
/-- The effective cap (R422). -/
def effectiveCap (s : State) : Nat :=
  let a := min (cfg 0xB10001 2000 s) (s.power.thermalCap.getD (cfg 0xB10001 2000 s))
  if s.boot.capAlert then min a (cfg 0xB10002 1200 s) else a
/-- A change calls for a plan (R424); the latest counts. -/
def callPlan (s : State) : State := s.onPower fun p => { p with planSince := some s.now }

/-- CAP_ALERT_N falls (R423, R457). -/
def alertFalls (s : State) : State :=
  if s.boot.capAlert then s
  else
    let s := s.onBoot fun b => { b with capAlert := true }
    if !capsAct s then s
    else
      let s := (clamp s).onPower fun p => { p with clampAlert := true }
      callPlan (raise 0xB101 [1, s.power.measured] (bump 0xC43002 1 s))
/-- CAP_ALERT_N rises (R424). -/
def alertRises (s : State) : State :=
  if !s.boot.capAlert then s
  else
    let s := s.onBoot fun b => { b with capAlert := false }
    if !capsAct s then s else callPlan (raise 0xB101 [0, s.power.measured] s)

/-- The measured power of the clusters, W. -/
def clusterPower (s : State) : Nat := ((List.range 8).map fun k => s.power.domain.getD (18 + k) 0).sum
/-- Whether the predicted Furrow draw at (D, d), 40 + 360 (64 f - 1) / 63 W, fits a budget in W (R420). -/
def pairFits (budget : Int) (p : Nat × Nat) : Bool :=
  decide (63 * (p.1 : Int) * 40 + 360 * (8 * (p.2 : Int) - (p.1 : Int)) ≤ 63 * (p.1 : Int) * budget)
/-- Whether a pair is to be preferred: the greater throttle fraction, then the smaller D (R420). -/
def pairBefore (a b : Nat × Nat) : Bool := decide (b.2 * a.1 < a.2 * b.1) || (a.2 * b.1 == b.2 * a.1 && decide (a.1 < b.1))
/-- The pairs (D, d) (R419). -/
def throttlePairs : List (Nat × Nat) := [2, 3, 4, 8].flatMap fun d => (List.range 16).map fun k => (d, k + 1)
/-- The pair the firmware chooses for a budget: (8, 1) when none fits (R420). -/
def choosePair (budget : Int) : Nat × Nat :=
  (throttlePairs.filter (pairFits budget)).foldl (fun b p => if pairBefore p b then p else b) (8, 1)
/-- Whether measured power has stayed at least 5 % below the effective cap for 10 ms (R420). -/
def roomy (s : State) : Bool :=
  match s.power.belowSince with
  | none => false
  | some t => elapsed s t 10000000
/-- A throttle that waits to be raised is raised once the groups woken are ACTIVE and there is room (R420, R426); the Harrow resumes. -/
def raiseThrottle (s : State) : State :=
  match s.power.raiseTo with
  | none => s
  | some (d, k) =>
    if !roomy s || s.power.clampHot || s.ports.ports.any fun kv => kv.2.waking && kv.2.shed then s
    else (setThrottle d k s).onPower fun p => { p with raiseTo := none, paused := false }

/-! Shedding (R425, R426). -/

/-- `ShedOrder` entry i. -/
def shedAt (s : State) (i : Nat) : Nat := cfg (0xB10100 + i + 1) (15 - i) s
/-- The ports of a group. -/
def groupPorts (e : Nat) : List Nat := (List.range 8).map fun k => 8 * e + k
/-- Whether a group is passed over: nothing of it is awake, or a peer lacks DORMANT. -/
def passedOver (s : State) (e : Nat) : Bool :=
  ((groupPorts e).all fun p => (s.port p).st == .down || (s.port p).st == .dormant || oddOfBond s p) ||
    (groupPorts e).any fun p => (s.port p).st.serves && !bitOf (features s p) 4
/-- A group is taken DORMANT. -/
def shedGroup (e : Nat) (s : State) : State :=
  let saved := s.power.domain.getD e 0 - 5
  let s := bump 0xC43003 1 (s.onPower fun p => { p with shed := p.shed ++ [(e, saved)] })
  forAll (groupPorts e) (fun p s =>
    if (s.port p).st.serves then portSleeps p (s.onPort p fun x => { x with shed := true }) else s) s
/-- Shed groups in `ShedOrder` until the predicted draw fits the cap. -/
def shedDown (cap : Nat) : List Nat → Nat → State → State
  | [], _, s => s
  | e :: r, draw, s =>
    if draw ≤ cap then s
    else if !domainOn s e || (s.power.shed.any fun g => g.1 == e) || passedOver s e then shedDown cap r draw s
    else shedDown cap r (draw - (s.power.domain.getD e 0 - 5)) (shedGroup e s)
/-- A shed group is woken: the ports that shedding put to sleep begin the wake sequence (R426). -/
def wakeGroup (e : Nat) (s : State) : State :=
  let s := s.onPower fun p => { p with shed := p.shed.filter fun g => g.1 != e }
  forAll (groupPorts e) (fun p s =>
    if (s.port p).shed then s.onPort p fun x => { x with shed := false, waking := x.st == .dormant } else s) s
/-- Wake, in reverse shed order, every shed group whose predicted draw fits. -/
def wakeUp (cap : Nat) : List (Nat × Nat) → Nat → State → State
  | [], _, s => s
  | g :: r, draw, s => if draw + g.2 ≤ cap then wakeUp cap r (draw + g.2) (wakeGroup g.1 s) else wakeUp cap r draw s

/-- The plan (R424-R426): first the throttle, then groups shed or restored, then the Harrow's work. -/
def planDone (s : State) : State :=
  if s.power.planSince.isNone || firmwareDown s || !capsAct s then s
  else
    let cap := effectiveCap s
    let rest := s.power.measured - clusterPower s
    let pair := choosePair ((cap : Int) - (rest : Int))
    let s := s.onPower fun p => { p with planSince := none, clampAlert := false, raiseTo := none }
    let now := (s.power.div, s.power.duty)
    let up := pairBefore pair now
    let s := if up then s.onPower fun p => { p with raiseTo := some pair } else setThrottle pair.1 pair.2 s
    let had := s.power.shed
    let draw := rest + 40
    let s :=
      if s.power.div = 8 ∧ s.power.duty = 1 ∧ cap < draw then shedDown cap ((List.range 16).map (shedAt s)) draw s
      else wakeUp cap had.reverse draw s
    let s := if had.isEmpty && !s.power.shed.isEmpty then
        raise 0xB102 [cap, s.power.shed.length, s.power.div, s.power.duty] s else s
    let s := if !had.isEmpty && s.power.shed.isEmpty then raise 0xB103 [cap, s.power.div, s.power.duty] s else s
    if !up && pair ≠ (8, 1) && !s.power.clampHot then s.onPower fun p => { p with paused := false } else s

/-- The sensors are read, every 100 µs (R422): the power of every domain and of the island. -/
def powerSampled (watts : List Nat) (island : Nat) (s : State) : State :=
  let w (d : Nat) : Nat := if domainOn s d then watts.getD d 0 % 65536 else 0
  let total := ((List.range 36).map w).sum + island
  let s := s.onPower fun p => { p with
    domain := (List.range 36).foldl (fun m d => m.set d (w d)) p.domain
    measured := total % 65536 }
  let cap := effectiveCap s
  let below := decide (20 * total ≤ 19 * cap)
  let s := s.onPower fun p => { p with belowSince := if below then some (p.belowSince.getD s.now) else none }
  let s := if cap < total && s.power.planSince.isNone && capsAct s then callPlan s else s
  raiseThrottle s

/-! Temperature (R427-R430). -/

/-- The hottest sensor: number and temperature. -/
def hottest (s : State) : Nat × Int :=
  (List.range 40).foldl (fun b k => if b.2 < s.power.temps.getD k 0 then (k, s.power.temps.getD k 0) else b) (0, s.power.temps.getD 0 0)
/-- Temperature as an event field: 32-bit two's complement. -/
def tempField (t : Int) : Nat := unsigned 32 t
/-- The threshold of the thermal cap, 0.01 degrees. -/
def throttleTemp (s : State) : Int := 100 * (cfg 0xB11001 100 s : Nat)
/-- The thermal cap is imposed (R428). -/
def thermalImposed (s : State) : State :=
  if throttleTemp s < (hottest s).2 ∧ s.power.thermalCap.isNone then
    let cap := s.power.measured - 50
    let s := s.onPower fun p => { p with thermalCap := some cap, thermalStep := s.now }
    callPlan (raise 0xB105 [1, (hottest s).1, tempField (hottest s).2, cap] s)
  else s
/-- The clamp of R429: entered at 105 degrees, left when every sensor is below 103. -/
def thermalClamped (s : State) : State :=
  let h := hottest s
  if !s.power.clampHot ∧ 10500 ≤ h.2 then
    raise 0xB106 [1, h.1, tempField h.2] ((clamp s).onPower fun p => { p with clampHot := true })
  else if s.power.clampHot ∧ h.2 < 10300 then
    callPlan (raise 0xB106 [0, h.1, tempField h.2] (s.onPower fun p => { p with clampHot := false }))
  else s
/-- The 40 sensors are read, every 100 µs (R427); an unpowered domain's sensor keeps its last value. -/
def tempSampled (temps : List Int) (s : State) : State :=
  let dt := s.now - s.power.tempTime
  let s := if 9500 < (hottest s).2 then bump 0xC43004 dt s else s
  let s := if s.power.thermalCap.isSome then bump 0xC43005 dt s else s
  let read (k : Nat) : Int := if k < 36 ∧ !domainOn s k then s.power.temps.getD k 0 else temps.getD k (s.power.temps.getD k 0)
  let s := s.onPower fun p => { p with
    temps := (List.range 40).foldl (fun m k => m.set k (read k)) p.temps
    tempTime := s.now }
  let since (k : Nat) : Option Nat :=
    if 11000 ≤ s.power.temps.getD k 0 then some ((s.power.hotSince.find k).getD s.now) else none
  let s := s.onPower fun p => { p with hotSince := (List.range 40).filterMap fun k => (since k).map fun t => (k, t) }
  if capsAct s then thermalClamped (thermalImposed s) else s
/-- A step of the thermal cap (R428): 50 W lower every 10 ms while too hot; 50 W higher every 100 ms once 2 degrees cooler. -/
def thermalSteps (s : State) : State :=
  match s.power.thermalCap with
  | none => s
  | some cap =>
    let h := hottest s
    if throttleTemp s < h.2 then
      if elapsed s s.power.thermalStep 10000000 then
        callPlan (s.onPower fun p => { p with thermalCap := some (cap - 50), thermalStep := s.now })
      else s
    else if h.2 + 200 ≤ throttleTemp s ∧ elapsed s s.power.thermalStep 100000000 then
      if cfg 0xB10001 2000 s ≤ cap + 50 then
        callPlan (raise 0xB105 [0, h.1, tempField h.2, 0] (s.onPower fun p => { p with thermalCap := none, thermalStep := s.now }))
      else callPlan (s.onPower fun p => { p with thermalCap := some (cap + 50), thermalStep := s.now })
    else s
/-- A sensor has read 110 degrees or more for 20 µs (R430). -/
def thermalTrips (k : Nat) (s : State) : State :=
  match s.power.hotSince.find k with
  | none => s
  | some t =>
    if !elapsed s t 20000 || s.boot.st == .faulted then s
    else enterFaulted 3 (raise 0xB107 [k, tempField (s.power.temps.getD k 0)] s)

/-! Clusters (R417). -/

/-- Whether a part that failed its known answers is powered (R399): domains that are off are not tested. -/
def katOn (s : State) : KatFail → Bool
  | .te c _ => coreOn s c
  | .ve c => coreOn s c
  | .me c => coreOn s c
  | .sequencer c => coreOn s c
  | .spare k => domainOn s (18 + k)
  | .portTile p => domainOn s (16 + p % 16 / 8)
  | .headland => domainOn s 16 || domainOn s 17
  | .central => csOn s
/-- The cluster of a part of a core. -/
def katCluster : KatFail → Option Nat
  | .te c _ => some (c / 8)
  | .ve c => some (c / 8)
  | .me c => some (c / 8)
  | .sequencer c => some (c / 8)
  | .spare k => some k
  | _ => none
/-- The known answers of a cluster's cores (R399, R405, R417): the mask first, then failing spares, then the rest. -/
def clusterTested (k : Nat) (fails : List KatFail) (s : State) : State :=
  let mine := fails.filter fun f => katCluster f == some k
  let spares := mine.filter fun f => f == .spare k
  let s := forAll (List.range 8) (fun i s => applyMask (8 * k + i) s) s
  let s := forAll (List.range 8) (fun i s => maskReplace (8 * k + i) s) (forAll spares katFails s)
  forAll (mine.filter fun f => f != .spare k) katFails s
/-- A cluster that powered on for a plot has run its known answers (R417). -/
def clusterReady (k : Nat) (fails : List KatFail) (s : State) : State :=
  if !s.power.testing.contains k then s
  else
    let s := s.onBoot fun b => { b with powered := b.powered ||| 2 ^ (18 + k) }
    let s := s.onPower fun p => { p with testing := p.testing.filter fun j => j != k }
    let s := clusterTested k fails s
    clusterTurn k (raise 0xB104 [k, 1, (fails.filter fun f => katCluster f == some k).length] s)
/-- A cluster goes off (R417). -/
def clusterDown (k : Nat) (s : State) : State :=
  raise 0xB104 [k, 0, 0] ((s.onBoot fun b => { b with powered := b.powered - (b.powered &&& 2 ^ (18 + k)) }).onPower fun p =>
    { p with idleSince := p.idleSince.erase k })
/-- A cluster without a core in any plot goes off 1 ms after the last one left (R417). -/
def clusterIdles (k : Nat) (s : State) : State :=
  match s.power.idleSince.find k with
  | none => s
  | some t => if inService s && !clusterUsed s k && domainOn s (18 + k) && elapsed s t 1000000 then clusterDown k s else s

/-- `TimeSet` (R433): an ADP result, and the state after it. -/
def timeSet (v : U64) (s : State) : Nat × State :=
  if cfg 0xB12001 0 s ≠ 1 then (Adp.state, s)
  else if v.toNat < s.now then (Adp.range, s)
  else (Adp.ok, bump 0xC43006 1 (s.onTime fun t => { t with now := v.toNat }))

end Sys2Proof.Machine
end

