-- ==== Sys2Proof/Machine/BootOps.lean ====
section
/-! DEFINITION. Starts, boot commands, resets, HBM retraining, the watchdog and the board signals (R390-R413, R445, R454-R459). -/

namespace Sys2Proof.Machine

/-! Boot commands (R391, Table 16-2). -/

/-- A boot command is refused (R391): FAIL_STATE with a reason in BOOT_RESULT, DONE set, and no effect. -/
def bootRefuse (detail : Nat) (s : State) : State :=
  s.onBoot fun b => { b with resStatus := St.state, resDetail := detail, resDone := true }
/-- A boot command runs (R391); what it will report when it completes. -/
def bootRuns (r : BootRun) (s : State) : State := s.onBoot fun b => { b with run := some r, resDone := false }
/-- A write of BOOT_CMD (R391): FAIL_STATE on the write while BUSY; else the command, refused outside its state. -/
def bootWrite (permitted : DevSt → Bool) (f : State → State) (s : State) : State :=
  viaReg (fun s =>
    if s.boot.run.isSome then regAck St.state s
    else regAck St.ok (if permitted s.boot.st then f s else bootRefuse 0 s)) s

/-- LOAD (R393). -/
def bootLoad (s : State) : State :=
  if s.boot.imgLen < 194 ∨ 67108864 < s.boot.imgLen then bootRefuse 3 s
  else bootRuns { cmd := 1, next := .loaded } (s.onBoot fun b => { b with imgBytes := b.imgLen })

/-! The image (R393, R394). -/

/-- The 32-bit word at a byte offset of the image store. -/
def imageWord (s : State) (off : Nat) : Nat := leNat (Mem.read s.boot.image off 4)
/-- The sections of the image: TYPE, OFFSET and LENGTH. -/
def imageSections (s : State) : List (Nat × Nat × Nat) :=
  (List.range (imageWord s 12 % 32)).map fun i =>
    (imageWord s (64 + 16 * i) % 256, imageWord s (68 + 16 * i), imageWord s (72 + 16 * i))
/-- Reason 0x01: MAGIC, VERSION or NSECT not recognised, or a reserved bit or TYPE set. -/
def imageBad1 (s : State) : Bool :=
  let n := imageWord s 12 % 32
  imageWord s 0 % 65536 != 0x1E7B || imageWord s 0 / 65536 % 256 != 1 || decide (n < 4) || decide (16 < n) ||
    imageWord s 12 / 32 != 0 || ((List.range 12).any fun i => imageWord s (16 + 4 * i) != 0) ||
    (List.range n).any fun i =>
      imageWord s (64 + 16 * i) / 256 != 0 || imageWord s (76 + 16 * i) != 0 ||
        imageWord s (64 + 16 * i) % 256 == 0 || decide (4 < imageWord s (64 + 16 * i) % 256)
/-- Whether two sections overlap. -/
def sectionsMeet (a b : Nat × Nat × Nat) : Bool := decide (a.2.1 < b.2.1 + b.2.2) && decide (b.2.1 < a.2.1 + a.2.2)
/-- Reason 0x04: a section outside its span, an overlap, a TYPE repeated or missing. -/
def imageBad4 (s : State) : Bool :=
  let l := imageSections s
  let lo := 64 + 16 * l.length
  (l.any fun a => decide (a.2.1 < lo) || decide (s.boot.imgBytes - 114 < a.2.1 + a.2.2)) ||
    (l.zipIdx.any fun p => (l.drop (p.2 + 1)).any fun b => sectionsMeet p.1 b || p.1.1 == b.1) ||
    [1, 2, 3, 4].any fun t => !l.any fun a => a.1 == t
/-- The reason for refusing the image (Table 16-4), if there is one. -/
def imageReason (s : State) : Option Nat :=
  let n := s.boot.imgBytes
  if imageBad1 s then some 1
  else if imageWord s 0 / 2 ^ 24 ≠ 0xB0 then some 2
  else if imageWord s 4 ≠ n then some 3
  else if imageBad4 s then some 4
  else if !Config.ed448Verify Config.firmwareKey (Mem.read s.boot.image 0 (n - 114)) (Mem.read s.boot.image (n - 114) 114) then some 5
  else if imageWord s 8 < cfg 0x200008 0 s then some 6
  else none
/-- The bytes of the MGMT section. -/
def mgmtBytes (s : State) : List Byte :=
  match s.boot.mgmtSect with
  | none => []
  | some (off, n) => Mem.read s.boot.image off n
/-- MEASURE (R394). -/
def bootMeasure (s : State) : State :=
  let s := s.onBoot fun b => { b with digest := takePad 64 (Config.shake256 (Mem.read b.image 0 b.imgBytes) 64) }
  match imageReason s with
  | some r => bootRuns { cmd := 2, next := .recovery, status := St.state, detail := r } s
  | none =>
    let s := s.onBoot fun b => { b with
      fwSeq := imageWord s 8
      mgmtSect := ((imageSections s).find? fun a => a.1 == 1).map fun a => a.2 }
    bootRuns { cmd := 2, next := .measured } (s.onBoot fun b => { b with mgmtDigest := Config.shake256 (mgmtBytes s) 64 })

/-- CLOCK (Table 16-2). -/
def bootClock (s : State) : State := bootRuns { cmd := 3, next := .clocked } s

/-! POWER (R396, R397, R362, R458). -/

/-- The reason for refusing a mask (R396). -/
def maskReason (m : Nat) : Option Nat :=
  if (List.range 16).any fun e => bitOf m e && !bitOf m (16 + e % 2) then some 0x10
  else if (List.range 8).any fun t => bitOf m (26 + t) != bitOf m 35 then some 0x11
  else if (bitOf m 34 || (List.range 8).any fun k => bitOf m (18 + k)) && !bitOf m 35 then some 0x12
  else none
/-- A CXL port trains on the device found (R362). -/
def cxlFound (q : Nat) (d : CxlDev) (s : State) : State :=
  s.onCxl fun c => { c with ports := c.ports.set q { st := 1, serial := takePad 8 d.serial, capacity := d.capacity } }
/-- The CXL ports train (R362): with different devices on ports 2 and 3, tier 3 is held out. -/
def cxlPower (found : List (Option CxlDev)) (s : State) : State :=
  let s := forAll [0, 1, 2, 3] (fun q s =>
    match found.getD q none with
    | none => s
    | some d => cxlFound q d s) s
  let a := s.cxlPort 2
  let b := s.cxlPort 3
  if a.st = 1 ∧ b.st = 1 ∧ a.serial ≠ b.serial then
    raise 0x6111 [leNat a.serial, leNat b.serial] (s.onCxl fun c => { c with split := true })
  else pairTurn s
/-- POWER (R396, R397): the domains of the mask come on. -/
def bootPower (found : List (Option CxlDev)) (s : State) : State :=
  if !s.boot.tray then bootRefuse 0x20 s
  else
    match maskReason s.boot.mask with
    | some r => bootRefuse r s
    | none =>
      let s := s.onBoot fun b => { b with powered := b.mask, retried := [], failedDomains := [] }
      bootRuns { cmd := 4, next := .powered } (if bitOf s.boot.mask 34 then cxlPower found s else s)
/-- The stage of a domain (Table 16-5). -/
def stageOf (d : Nat) : Nat :=
  if d = 35 then 1 else if d = 34 then 2 else if 26 ≤ d then 3
  else if 22 ≤ d then 8 else if 18 ≤ d then 7 else if 16 ≤ d then 4 else if 8 ≤ d then 6 else 5
/-- Switch domains off. -/
def unpower (l : List Nat) (s : State) : State :=
  s.onBoot fun b => { b with powered := l.foldl (fun m d => m - (m &&& 2 ^ d)) b.powered }
/-- A domain has failed twice in POWER (Table 16-5). -/
def domainFails (d : Nat) (s : State) : State :=
  let fatal := stageOf d = 1 ∨ stageOf d = 3
  let s := s.onBoot fun b => { b with failedDomains := b.failedDomains ++ [d] }
  let s := unpower [d] (raise 0x2111 [d, stageOf d, if fatal then 1 else 0] s)
  if fatal then enterFaulted 3 s
  else if d = 34 then s.onCxl fun c => { c with ports := [], split := false }
  else if d = 16 ∨ d = 17 then unpower ((List.range 16).filter fun e => e % 2 = d - 16) s
  else s
/-- A domain misses regulation within its stage (R397): it is tried once more, and then fails. -/
def stageExpires (d : Nat) (s : State) : State :=
  match s.boot.run with
  | none => s
  | some r =>
    if r.cmd ≠ 4 ∨ !domainOn s d then s
    else if s.boot.retried.contains d then domainFails d s
    else s.onBoot fun b => { b with retried := b.retried ++ [d] }

/-! TRAIN (R398, R402). -/

/-- `PseudoChannelRetireMask` of a stack (R402). -/
def pcMask (s : State) (t : Nat) : Nat := cfg (0x601100 + t + 1) 0 s
/-- A pseudo-channel is retired at TRAIN: its channel set is RETIRED at once. -/
def pcRetired (t k : Nat) (s : State) : State :=
  if s.pool.retiredPcs.contains (8 * k + t) then s
  else s.onPool fun p => { p with retiredPcs := p.retiredPcs ++ [8 * k + t], setState := p.setState.set k 2 }
/-- Pseudo-channels retired on a stack. -/
def pcCount (s : State) (t : Nat) : Nat := (s.pool.retiredPcs.filter fun c => c % 8 == t).length
/-- Plot 0 takes the lowest-numbered channel sets in service in place of sets 0 and 1 that are RETIRED (R314, R398). -/
def plotZeroSets (s : State) : State :=
  let gone := [0, 1].filter fun k => bitOf (plotSets s 0) k && s.pool.setState.getD k 0 == 2
  if gone.isEmpty then s
  else
    let kept := plotSets s 0 - (gone.map fun k => 2 ^ k).sum
    let new := ((List.range 32).filter fun k => s.pool.setState.getD k 0 == 0 && !bitOf kept k).take gone.length
    setOd 0x911201 (kept + (new.map fun k => 2 ^ k).sum) s
/-- The pool's metadata is initialised (R398, R443): tiers 1 and 2 FREE and CLEAR, their check stores zero. -/
def poolInit (s : State) : State :=
  let s := s.onPool fun p => { p with exts := [], bcvs := p.bcvs.keep fun b _ => inTier3 (4096 * b) }
  let s := s.onKey fun k => { k with frameGen := k.frameGen.keep fun f _ => inTier3 (f * frameBytes) }
  { s with mem := s.mem.keep fun a _ => inTier3 a }
/-- Temperature of a stack: the sensor of its domain. -/
def stackTemp (s : State) (t : Nat) : Int := s.power.temps.getD (26 + t) 0
/-- TRAIN (R398), with the pseudo-channels (32 x stack + channel) and stacks that fail training twice. -/
def bootTrain (badPcs badStacks : List Nat) (s : State) : State :=
  if !csOn s then bootRuns { cmd := 5, next := .trained } s
  else
    let s := forAll (List.range 8) (fun t s => forAll (maskBits (pcMask s t) 32) (pcRetired t) s) s
    let s := forAll badPcs (fun c s => pcRetired (c / 32 % 8) (c % 32) s) s
    if !badStacks.isEmpty || (List.range 8).any (fun t => decide (2 < pcCount s t)) then
      bootRuns { cmd := 5, next := .faulted, status := St.internal, detail := 4 } s
    else
      let s := plotZeroSets (poolInit s)
      bootRuns { cmd := 5, next := .trained } (s.onBoot fun b => { b with
        trained := (List.range 256).map fun c => (c, s.now, stackTemp s (c / 32)) })
/-- The entry to TRAINED (R398): plot 0 takes its share, and every port of a powered group is enabled. -/
def trainedEntry (s : State) : State :=
  forAll ((List.range 16).filter (domainOn s)) groupEnable (if csOn s then takeShare 0 s else s)

/-- VERIFY (R399): the masks first, then what fails twice a known-answer test, or a SHORT test of a Tilth set loaded in TRAINED. -/
def bootVerify (fails : List KatFail) (s : State) : State :=
  let on := fails.filter (katOn s)
  let fatal := on.any fun f => f == .headland || f == .central
  let s := forAll ((List.range 64).filter (coreOn s)) applyMask s
  if fatal then
    let s := forAll (on.filter fun f => f == .headland || f == .central) katFails s
    bootRuns { cmd := 6, next := .faulted, status := St.internal, detail := 5 } s
  else
    let spare (f : KatFail) : Bool := match f with
      | .spare _ => true
      | _ => false
    let s := forAll ((List.range 64).filter (coreOn s)) maskReplace (forAll (on.filter spare) katFails s)
    let s := forAll (on.filter fun f => !spare f) katFails s
    bootRuns { cmd := 6, next := .verified } s
/-- SERVE (Table 16-2). -/
def bootServe (s : State) : State := bootRuns { cmd := 7, next := .service } s
/-- The entry to SERVICE: clusters with no core in any plot are powered off (R417). -/
def serviceEntry (s : State) : State :=
  forAll ((List.range 8).filter fun k => domainOn s (18 + k) && !clusterUsed s k) clusterDown s

/-- A device reset as RESTART makes it (R391, R407): BOOT_STATE_CHANGED names ISLAND as it begins. -/
def restart (drained : Bool) (s : State) : State :=
  deviceReset true drained (raise 0x2110 [s.boot.st.code, DevSt.island.code, 8, St.ok, 0] s)
/-- RESTART is permitted in every state from ISLAND. -/
def fromIsland : DevSt → Bool
  | .off => false
  | .starting => false
  | _ => true

/-- A boot command completes (R391). -/
def bootCompletes (s : State) : State :=
  match s.boot.run with
  | none => s
  | some r =>
    let prev := s.boot.st.code
    if r.next = .faulted then enterFaulted r.detail s
    else
      let s := s.onBoot fun b => { b with st := r.next }
      let s := if r.next = .trained then trainedEntry s else if r.next = .service then serviceEntry s else s
      bootEnds r.cmd prev r.status r.detail s

/-! Starts and board signals (R390, R401, R414, R454-R459). -/

/-- PWR_GOOD rises (R390). -/
def powerRises (s : State) : State :=
  let s := s.onBoot fun b => { b with pwrGood := true }
  if s.boot.st = .off ∧ s.boot.resetN then s.onBoot fun b => { b with st := .starting } else s
/-- PWR_GOOD falls (R456): every state ends at once, and nothing is written back. -/
def powerFalls (s : State) : State :=
  if !s.boot.pwrGood then s
  else (deviceReset false false (s.onBoot fun b => { b with pwrGood := false })).onBoot fun b => { b with st := .off }
/-- RESET_N falls (R456): with PWR_GOOD high the device is reset, and the event log is cleared. -/
def resetFalls (s : State) : State :=
  if !s.boot.resetN then s
  else
    let s := s.onBoot fun b => { b with resetN := false }
    if s.boot.pwrGood && s.boot.st != .off then deviceReset false false s else s
/-- RESET_N rises (R390). -/
def resetRises (s : State) : State :=
  let s := s.onBoot fun b => { b with resetN := true }
  if s.boot.st = .off ∧ s.boot.pwrGood then s.onBoot fun b => { b with st := .starting } else s
/-- The root PLL locks (R414). -/
def pllLocks (s : State) : State :=
  if s.boot.st = .starting ∧ s.boot.pwrGood ∧ s.boot.resetN ∧ !s.boot.fault then s.onBoot fun b => { b with pll := true } else s
/-- The PLL has not locked within 10 ms (R414): FAULT_N, and the hub stays in reset. -/
def pllFails (s : State) : State :=
  if s.boot.st = .starting ∧ s.boot.pwrGood ∧ !s.boot.pll then s.onBoot fun b => { b with fault := true } else s
/-- Lock is lost later (R414). -/
def pllLost (s : State) : State :=
  if fromIsland s.boot.st ∧ s.boot.pll then enterFaulted 2 (s.onBoot fun b => { b with pll := false }) else s
/-- The boot ROM has read the fuse map (R401): ISLAND, or FAULTED. -/
def islandReady (fuseOk : Bool) (s : State) : State :=
  if s.boot.st = .starting ∧ s.boot.pll ∧ s.boot.pwrGood ∧ s.boot.resetN then
    let s := s.onBoot fun b => { b with st := .island }
    if fuseOk then s else enterFaulted 1 s
  else s

/-- HOLD every port (R407, R458). -/
def holdAll (s : State) : State :=
  forAll (List.range 128) (fun p s =>
    if (s.port p).st = .identifying ∨ (s.port p).st.serves then portFallow p 1 s else s) s
/-- The tray contact opens (R458): in SERVICE the hub holds its ports, writes dirty tier 3 lines back, and resets itself. How long it took,
at most 0.9 ms, is a free value (log entry 7). -/
def trayOpens (s : State) : State :=
  if !s.boot.tray then s
  else
    let s := s.onBoot fun b => { b with tray := false }
    if !inService s then s
    else
      let us := s.draw.toNat % 901
      restart true (holdAll (raise 0xB10A [s.boot.st.code, (cached3 s).length, us] s.drawn))
/-- The tray contact closes. -/
def trayCloses (s : State) : State := s.onBoot fun b => { b with tray := true }
/-- WAKE rises (R459): in SERVICE it wakes every port that a DORMANT command put to sleep. -/
def boardWakes (s : State) : State :=
  let s := s.onBoot fun b => { b with wake := true }
  if !inService s then s
  else
    let l := (List.range 128).filter fun p => (s.port p).st == .dormant && !shedHolds s p && portCan s p
    raise 0xB10B [l.length] (forAll l (fun p s => s.onPort p fun x => { x with waking := true }) s)
/-! Resets (R403-R408). -/

/-- The ADP result that refuses a reset (R403): the device's state, the target, a running reset. -/
def resetBar (s : State) (target : Bool) : Nat :=
  if !inService s then Adp.state else if !target then Adp.range else if s.boot.rst.isSome then Adp.busy else Adp.ok
/-- A command of RST_CMD or `ResetCommand`, by the dictionary: an ADP result. -/
def resetDict (f : State → Nat × State) (s : State) : Nat × State :=
  let r := f s
  if r.1 = Adp.ok then r else (r.1, s)
/-- The same by RST_CMD: refused with FAIL_STATE in RST_RESULT. -/
def resetReg (f : State → Nat × State) (s : State) : State :=
  viaReg (fun s =>
    let r := f s
    regAck St.ok (if r.1 = Adp.ok then r.2 else s.onBoot fun b => { b with rstStatus := St.state })) s
/-- A commanded reset begins: DONE clears. -/
def resetCommanded (r : RstRun) (s : State) : State := (resetBegins r s).onBoot fun b => { b with rstDone := false, rstStatus := St.ok }

/-- CORE (R404). -/
def resetCore (c : Nat) (s : State) : Nat × State :=
  let bar := resetBar s (decide (c < 64))
  if bar ≠ Adp.ok then (bar, s) else (Adp.ok, coreDown c (resetCommanded (.core c false false) s))
/-- The logical cores of a cluster. -/
def clusterCores (k : Nat) : List Nat := (List.range 8).map fun i => 8 * k + i
/-- CLUSTER (R405): a cluster that is off completes at once. -/
def resetCluster (k : Nat) (s : State) : Nat × State :=
  let bar := resetBar s (decide (k < 8))
  if bar ≠ Adp.ok then (bar, s)
  else
    let s := resetCommanded (.cluster k) s
    (Adp.ok, if domainOn s (18 + k) then forAll (clusterCores k) coreDown s else resetDone 1 k true (bump 0xC40F02 1 s))
/-- A cluster's cores have settled, its domain has been cycled and its known answers have been run (R405). -/
def clusterResetEnds (k : Nat) (fails : List KatFail) (s : State) : State :=
  if s.boot.rst ≠ some (.cluster k) || (clusterCores k).any (fun c => !nodeQuiet s (nodeOf s (0x80 + c))) then s
  else
    let s := forAll (clusterCores k) (fun c s => bump 0xC40F01 1 (coreClear c s)) s
    resetTurn (resetDone 1 k true (bump 0xC40F02 1 (clusterTested k fails s)))
/-- PLOT (R406). -/
def resetPlot (n : Nat) (s : State) : Nat × State :=
  let x := s.plot n
  let alive := x.st == .active || x.st == .hedged
  if !inService s || (decide (1 ≤ n) && decide (n ≤ 8) && !alive) then (Adp.state, s)
  else if n < 1 ∨ 8 < n then (Adp.range, s)
  else if s.boot.rst.isSome then (Adp.busy, s)
  else
    let s := abortPlot n (resetCommanded (.plot n) s)
    let s := forAll (coresOf s n) coreDown s
    let s := s.onSync fun y => { y with watches := y.watches.keep fun w _ => watchPlot s w != some n }
    (Adp.ok, if (coresOf s n).isEmpty then resetDone 2 n true (bump 0xC40F03 1 s) else s)
/-- DEVICE (R407): permitted in every state from ISLAND; a smaller reset that runs ends unfinished (R408). -/
def resetDevice (target : Nat) (s : State) : Nat × State :=
  if !fromIsland s.boot.st then (Adp.state, s)
  else if target ≠ 0xD5 then (Adp.range, s)
  else if s.boot.rst = some .device then (Adp.busy, s)
  else (Adp.ok, deviceReset true false s)
/-- DEVICE with DRAIN (R407): the ports are held and collectives abort; the reset runs once no forward record is left. -/
def resetDrain (target : Nat) (s : State) : Nat × State :=
  if !fromIsland s.boot.st then (Adp.state, s)
  else if target ≠ 0xD5 then (Adp.range, s)
  else if s.boot.rst = some .device then (Adp.busy, s)
  else (Adp.ok, abortGroups (fun _ => some 0x7FF) 1 (holdAll (resetCommanded .device s)))
/-- A reset command by DICT or register: SCOPE, DRAIN and TARGET of Table 16-14. -/
def resetCommand (scope : Nat) (drain : Bool) (target : Nat) (s : State) : Nat × State :=
  if drain && scope != 3 then (Adp.range, s)
  else
    match scope with
    | 0 => resetCore target s
    | 1 => resetCluster target s
    | 2 => resetPlot target s
    | _ => if drain then resetDrain target s else resetDevice target s

/-! HBM retraining (R409) and a lost stack (R445). -/

/-- Whether a pseudo-channel's retraining is due (R409): its period, or the stack's temperature. -/
def retrainDue (s : State) (t k : Nat) : Bool :=
  let last := s.boot.trained.getD (32 * t + k) (0, 0)
  let period := cfg 0x601201 3600 s
  (period != 0 && elapsed s last.1 (period * 1000000000)) ||
    decide (100 * (cfg 0x601202 10 s) ≤ (stackTemp s t - last.2).natAbs)
/-- A pseudo-channel begins to retrain (R409): one per stack. -/
def retrainStarts (t k : Nat) (s : State) : State :=
  if 8 ≤ t ∨ 32 ≤ k ∨ !trainedUp s ∨ !domainOn s (26 + t) ∨ firmwareDown s ∨ s.pool.lostStacks.contains t ∨
      s.pool.retiredPcs.contains (8 * k + t) ∨ (s.boot.retrain.find t).isSome ∨ !retrainDue s t k then s
  else s.onBoot fun b => { b with retrain := b.retrain.set t (k, 0, false) }
/-- A step of a retraining (R409): ten in all; one that fails twice retires the pseudo-channel. -/
def retrainSteps (t : Nat) (fails : Bool) (s : State) : State :=
  match s.boot.retrain.find t with
  | none => s
  | some (k, n, again) =>
    if fails ∧ again then
      let s := s.onBoot fun b => { b with retrain := b.retrain.erase t }
      raise 0x2115 [t, k, 1] (retirePc k t s)
    else if fails then s.onBoot fun b => { b with retrain := b.retrain.set t (k, 0, true) }
    else if n < 9 then s.onBoot fun b => { b with retrain := b.retrain.set t (k, n + 1, again) }
    else
      let s := s.onBoot fun b => { b with
        retrain := b.retrain.erase t, trained := b.trained.set (32 * t + k) (s.now, stackTemp s t) }
      raise 0x2115 [t, k, 0] (bump 0xC40F05 1 s)
/-- A stack interface is lost (R445): cause 0 regulation, 1 controller. -/
def stackLost (t cause : Nat) (s : State) : State :=
  if 8 ≤ t ∨ !trainedUp s ∨ !domainOn s (26 + t) ∨ s.pool.lostStacks.contains t then s
  else
    let s := s.onPool fun p => { p with lostStacks := p.lostStacks ++ [t] }
    let s := s.onBoot fun b => { b with retrain := b.retrain.erase t }
    let l := s.coll.groups.flatMap fun kv => (kv.2.seqs.filter fun q => q.exec && q.cause.isNone).map fun q => (kv.1, q.seq)
    raise 0x6112 [t, cause, l.length] (forAll l (fun a => abortSeq a.1 a.2 St.aborted 0x7FF 1 false) s)

/-- Whether a rail, by its place in Table 19-2, feeds the HBM stack interfaces: VDD_MC, VDD_HBM or VDDQ_HBM. -/
def railOfStacks (rail : Nat) : Bool := rail == 3 || rail == 6 || rail == 7
/-- A rail has left its range for more than 10 µs (R454): the stack interfaces fed from it are out of regulation (R445). -/
def railLeaves (rail mv us : Nat) (s : State) : State :=
  let s := s.onBoot fun b => { b with rails := b.rails.set rail mv }
  if s.boot.pwrGood ∧ 10 < us then
    let s := raise 0xB10C [rail, mv, us] s
    if railOfStacks rail then forAll (List.range 8) (fun t => stackLost t 0) s else s
  else s

/-! The management core (R375, R412). -/

/-- The watchdog restarts the management core (R375, R412): every session ends, with every block transfer. -/
def watchdogBites (s : State) : State :=
  if s.boot.mgmtSect.isNone || firmwareDown s then s
  else
    let s := s.onBoot fun b => { b with mgmtDown := true, mgmtSince := s.now, restarted := true }
    let s := forAll s.dict.sessions (fun x s => raise 0x1102 [x.num, 2] s) s
    s.onDict fun d => { d with sessions := [], keptOpens := [], mb := { d.mb with snaps := [], buf := none } }
/-- The events held during the restart enter the log, in order, with the times at which they arose (R300). -/
def flushHeld (s : State) : State :=
  let l := s.dict.holding
  let s := s.onDict fun d => { d with holding := [] }
  forAll l (fun e s => deliver (lossEvent (logAppend e.1 e.2.1 e.2.2 s))) s
/-- The restart ends (R412): with a sound MGMT section the firmware resumes; else only the boot ROM's agent runs. The ports' alignment
limit has paused (Table 16-12). -/
def mgmtReturns (s : State) : State :=
  if !s.boot.mgmtDown then s
  else
    let dt := s.now - s.boot.mgmtSince
    let sound := Config.shake256 (mgmtBytes s) 64 == s.boot.mgmtDigest
    let s := s.onBoot fun b => { b with mgmtDown := false, damaged := !sound, restarts := if sound then b.restarts + 1 else b.restarts }
    let s := s.onPorts fun x => { x with ports := x.ports.mapV fun _ p => { p with trainSince := p.trainSince + dt } }
    let s := flushHeld s
    if sound then raise 0x2116 [s.boot.restarts, dt / 1000000] s else raise 0x2117 [1, 1] s

end Sys2Proof.Machine
end

