-- ==== Sys2Proof/Machine/Boot.lean ====
section
/-! DEFINITION. The commands of starts, boot, resets, retraining, the watchdog and the board (R390-R413, R445, R454-R459). -/

namespace Sys2Proof.Machine

/-- POWER_GOOD_RISE (R390). -/
def execPowerGoodRise (s : State) : Host.Outcome State Fault Refusal := .next (powerRises s)

/-- POWER_GOOD_FALL (R456). -/
def execPowerGoodFall (s : State) : Host.Outcome State Fault Refusal := .next (powerFalls s)

/-- RESET_N_ASSERT (R456). -/
def execResetNAssert (s : State) : Host.Outcome State Fault Refusal := .next (resetFalls s)

/-- RESET_N_RELEASE (R390). -/
def execResetNRelease (s : State) : Host.Outcome State Fault Refusal := .next (resetRises s)

/-- PLL_LOCK (R414). -/
def execPllLock (s : State) : Host.Outcome State Fault Refusal := .next (pllLocks s)

/-- PLL_LOCK_TIMEOUT (R414). -/
def execPllLockTimeout (s : State) : Host.Outcome State Fault Refusal := .next (pllFails s)

/-- PLL_LOCK_LOST (R414). -/
def execPllLockLost (s : State) : Host.Outcome State Fault Refusal := .next (settle (pllLost s))

/-- ISLAND_READY (R401). -/
def execIslandReady (fuseOk : Bool) (s : State) : Host.Outcome State Fault Refusal := .next (islandReady fuseOk s)

/-- BOOT_LOAD (R393). -/
def execBootLoad (s : State) : Host.Outcome State Fault Refusal := .next (bootWrite (fun st => st == .island) bootLoad s)

/-- BOOT_MEASURE (R394). -/
def execBootMeasure (s : State) : Host.Outcome State Fault Refusal := .next (bootWrite (fun st => st == .loaded) bootMeasure s)

/-- BOOT_CLOCK (R391). -/
def execBootClock (s : State) : Host.Outcome State Fault Refusal := .next (bootWrite (fun st => st == .measured) bootClock s)

/-- BOOT_POWER (R397). -/
def execBootPower (cxl : List (Option CxlDev)) (s : State) : Host.Outcome State Fault Refusal :=
  .next (bootWrite (fun st => st == .clocked) (bootPower cxl) s)

/-- POWER_STAGE_TIMEOUT (R397). -/
def execPowerStageTimeout (domain : Nat) (s : State) : Host.Outcome State Fault Refusal := .next (stageExpires domain s)

/-- BOOT_TRAIN (R398). -/
def execBootTrain (badPcs badStacks : List Nat) (s : State) : Host.Outcome State Fault Refusal :=
  .next (bootWrite (fun st => st == .powered) (bootTrain badPcs badStacks) s)

/-- BOOT_VERIFY (R399). -/
def execBootVerify (fails : List KatFail) (s : State) : Host.Outcome State Fault Refusal :=
  .next (bootWrite (fun st => st == .trained) (bootVerify fails) s)

/-- BOOT_SERVE (R391). -/
def execBootServe (s : State) : Host.Outcome State Fault Refusal := .next (bootWrite (fun st => st == .verified) bootServe s)

/-- BOOT_RESTART (R391, R407). -/
def execBootRestart (s : State) : Host.Outcome State Fault Refusal := .next (bootWrite fromIsland (restart false) s)

/-- BOOT_COMMAND_COMPLETE (R391). -/
def execBootCommandComplete (s : State) : Host.Outcome State Fault Refusal := .next (settle (bootCompletes s))

/-- RESET_CORE (R404). -/
def execResetCore (dict : Bool) (core : Nat) (s : State) : Host.Outcome State Fault Refusal :=
  .next (settle (if dict then (resetDict (resetCore core) s).2 else resetReg (resetCore core) s))

/-- RESET_CLUSTER (R405). -/
def execResetCluster (dict : Bool) (cluster : Nat) (s : State) : Host.Outcome State Fault Refusal :=
  .next (settle (if dict then (resetDict (resetCluster cluster) s).2 else resetReg (resetCluster cluster) s))

/-- CLUSTER_RESET_DONE (R405). -/
def execClusterResetDone (cluster : Nat) (fails : List KatFail) (s : State) : Host.Outcome State Fault Refusal :=
  .next (settle (clusterResetEnds cluster fails s))

/-- RESET_PLOT (R406). -/
def execResetPlot (dict : Bool) (plot : Nat) (s : State) : Host.Outcome State Fault Refusal :=
  .next (settle (if dict then (resetDict (resetPlot plot) s).2 else resetReg (resetPlot plot) s))

/-- CORE_RESET_DONE (R404). -/
def execCoreResetDone (core : Nat) (s : State) : Host.Outcome State Fault Refusal := .next (settle (coreResetEnds core s))

/-- RESET_DEVICE (R407). -/
def execResetDevice (dict : Bool) (target : Nat) (s : State) : Host.Outcome State Fault Refusal :=
  .next (if dict then (resetDict (resetDevice target) s).2 else resetReg (resetDevice target) s)

/-- RESET_DEVICE_DRAIN (R407): RST_CMD with DRAIN. -/
def execResetDeviceDrain (target : Nat) (s : State) : Host.Outcome State Fault Refusal :=
  .next (settle (resetReg (resetDrain target) s))

/-- HBM_RETRAIN_START (R409). -/
def execHbmRetrainStart (stack pc : Nat) (s : State) : Host.Outcome State Fault Refusal := .next (retrainStarts stack pc s)

/-- HBM_RETRAIN_STEP (R409). -/
def execHbmRetrainStep (stack : Nat) (fails : Bool) (s : State) : Host.Outcome State Fault Refusal :=
  .next (retrainSteps stack fails s)

/-- WATCHDOG_EXPIRY (R412). -/
def execWatchdogExpiry (s : State) : Host.Outcome State Fault Refusal := .next (watchdogBites s)

/-- HBM_STACK_LOST (R445). -/
def execHbmStackLost (stack cause : Nat) (s : State) : Host.Outcome State Fault Refusal :=
  .next (settle (stackLost stack cause s))

/-- TRAY_UNSEATED (R458). -/
def execTrayUnseated (s : State) : Host.Outcome State Fault Refusal := .next (trayOpens s)

/-- TRAY_SEATED (R458). -/
def execTraySeated (s : State) : Host.Outcome State Fault Refusal := .next (trayCloses s)

/-- BOARD_WAKE (R459). -/
def execBoardWake (s : State) : Host.Outcome State Fault Refusal := .next (boardWakes s)

/-- RAIL_OUT_OF_RANGE (R454). -/
def execRailOutOfRange (rail mv us : Nat) (s : State) : Host.Outcome State Fault Refusal := 
  .next (if railOfStacks rail && s.boot.pwrGood && decide (10 < us) then settle (railLeaves rail mv us s) else railLeaves rail mv us s)

end Sys2Proof.Machine
end

