-- ==== Sys2Proof/Machine/Clock.lean ====
section
/-! DEFINITION. The exchanges of the time base (R433, R434). -/

namespace Sys2Proof.Machine

/-- An exchange with the upstream hub (R433), once per millisecond at a hub that has an upstream port and is not the source. -/
def exchange (s : State) : State :=
  let p := upstreamPort s
  if timeSource s || decide (128 ≤ p) || (match s.time.last with | none => false | some t => !elapsed s t 1000000) then s
  else
    let s := timeStart (s.onTime fun t => { t with last := some t.now })
    settle (serve (timeMsg s (wiringHub s p) (timeBody 1 s.time.seq 0 0)) s)

/-- TIME_EXCHANGE (R433). -/
def execTimeExchange (s : State) : Host.Outcome State Fault Refusal := .next (exchange s)

/-- TIME_REQUEST (R433): a request arrives at node 0xC2 and is answered. -/
def execTimeRequest (src : Nat) (data : List Byte) (s : State) : Host.Outcome State Fault Refusal :=
  .next (settle (timeRequested src data s))

/-- TIME_REPLY (R433, R434): the reply of the upstream hub arrives. -/
def execTimeReply (data : List Byte) (s : State) : Host.Outcome State Fault Refusal := .next (timeReplied data s)

end Sys2Proof.Machine
end

