-- ==== Sys2Proof/Machine/Coherence.lean ====
section
/-! DEFINITION. The coherent transactions of the Lania host, the snoop filter and ORPHANED lines (R163-R168, R356). -/

namespace Sys2Proof.Machine

/-- RD_SHARED (R356). -/
def execRdShared (line : Nat) (s : State) : Host.Outcome State Fault Refusal := .next (hostRead false line s)

/-- RD_OWN (R356). -/
def execRdOwn (line : Nat) (s : State) : Host.Outcome State Fault Refusal := .next (hostRead true line s)

/-- WR_BACK (R356). -/
def execWrBack (line : Nat) (data : List Byte) (s : State) : Host.Outcome State Fault Refusal :=
  .next (settle (hostWriteBack line data s))

/-- CLEAN_EVICT (R356). -/
def execCleanEvict (line : Nat) (s : State) : Host.Outcome State Fault Refusal := .next (settle (hostEvicts line s))

/-- SNOOP_RESPONSE (R163). -/
def execSnoopResponse (line : Nat) (data : Option (List Byte)) (s : State) : Host.Outcome State Fault Refusal :=
  .next (settle (snoopAnswered line data s))

/-- SNOOP_TIMEOUT (R164). -/
def execSnoopTimeout (line : Nat) (s : State) : Host.Outcome State Fault Refusal := .next (settle (snoopExpires line s))

/-- FILTER_WALK_DONE (R166). -/
def execFilterWalkDone (s : State) : Host.Outcome State Fault Refusal := .next (settle (walkFilter s))

/-- ORPHAN_ADOPT (R168): the line keeps the value of the pool copy. -/
def execOrphanAdopt (ext line : Nat) (s : State) : Host.Outcome State Fault Refusal := .next (orphanResolve ext line none s).2

/-- ORPHAN_WRITE (R168): the line takes the 128 bytes supplied. -/
def execOrphanWrite (ext line : Nat) (data : List Byte) (s : State) : Host.Outcome State Fault Refusal :=
  .next (orphanResolve ext line (some data) s).2

end Sys2Proof.Machine
end

