-- ==== Sys2Proof/Machine/Collectives.lean ====
section
/-! DEFINITION. Groups, descriptors, chunks, exchange messages, completions and deadlines of collectives (chapter 9). -/

namespace Sys2Proof.Machine

/-! Group definitions (R224, R226). -/

/-- A member entry (Table 9-2). -/
def memberOf (l : List Byte) : Member :=
  { node := fieldAt l 0 2, cctx := fieldAt l 2 2, cnode := fieldAt l 4 2, cslots := fieldAt l 6 1, coff := fieldAt l 8 6, sigoff := fieldAt l 16 6 }
/-- A reserved bit of a member entry is set, or CSLOTS is out of its range. -/
def memberBad (l : List Byte) : Bool :=
  fieldAt l 6 1 == 0 || fieldAt l 7 1 != 0 || fieldAt l 14 2 != 0 || fieldAt l 22 2 != 0 || fieldAt l 24 8 != 0

/-- The member entries of a definition image. -/
def memberEntries (image : List Byte) : List (List Byte) :=
  (List.range (bits (fieldAt image 0 4) 26 16)).map fun i => slice image (64 + 32 * i) 32

/-- The group that an image defines (Table 9-1). -/
def groupOf (image : List Byte) : Group :=
  { image, plot := bits (fieldAt image 0 4) 15 12, members := (memberEntries image).map memberOf
    depth := bits (fieldAt image 4 4) 6 0, ring := bitOf (fieldAt image 4 4) 7, anchor := signed 16 (fieldAt image 6 2)
    chunkLog := bits (fieldAt image 8 4) 3 0, window := bits (fieldAt image 8 4) 7 4, deadline := fieldAt image 12 4
    qext := fieldAt image 16 2, qoff := bits (fieldAt image 20 4) 27 0, cores := fieldAt image 24 8
    digest := (Config.shake256 image 64).take 8 }

/-- A field of the header is out of its range, or a reserved bit is set (Table 9-1). -/
def headerBad (g : Nat) (image : List Byte) (x : Group) : Bool :=
  fieldAt image 0 4 % 4096 != g || decide (8 < x.plot) || bits (fieldAt image 0 4) 31 27 != 0 || decide (1024 < x.members.length) ||
    x.depth == 0 || decide (64 < x.depth) || fieldAt image 5 1 != 0 || decide (8 < x.chunkLog) || x.window == 0 ||
    decide (8 < x.window) || bits (fieldAt image 8 4) 31 8 != 0 || decide (x.deadline < 100) || decide (1000000 < x.deadline) ||
    fieldAt image 18 2 != 0 || x.qoff % 128 != 0 || bits (fieldAt image 20 4) 31 28 != 0 ||
    (slice image 32 32).any fun b => b != 0

/-- A member that names a local end point from 0xC0 to 0xFF, of any hub, or a local member that is no end-point port or core of the plot
(R24, R226). -/
def memberOut (s : State) (x : Group) (m : Member) : Bool :=
  decide (0xC0 ≤ lepOf m.node) || (hubOf m.node == hubId s && (!lepInPlot s (lepOf m.node) x.plot ||
    (decide (lepOf m.node < 0x80) && !carriesEndPoint s (lepOf m.node))))

/-- Whether a definition is refused with ADP result RANGE (R226). -/
def groupBad (s : State) (g : Nat) (image : List Byte) (x : Group) : Bool :=
  let e := s.ext x.qext
  let mine := locals s x
  headerBad g image x || (memberEntries image).any memberBad || x.members.any (memberOut s x) ||
    decide ((x.members.map Member.node).eraseDups.length < x.members.length) || decide (128 < mine.length) ||
    decide (64 < x.hubs.length) || ((List.range 64).any fun c => bitOf x.cores c && corePlot s c != some x.plot) ||
    (x.cores == 0 && !mine.isEmpty) || e.state != .assigned || e.role != 0 || e.plot != x.plot || !extLocal s x.qext ||
    decide (extBytes < x.qoff + 128 * mine.length * x.depth)

/-- A write of `GroupDefinition` for a group (R224, R226): an ADP result, and the state after it. -/
def writeGroup (g : Nat) (image : List Byte) (s : State) : Nat × State :=
  let n := bits (fieldAt image 0 4) 26 16
  if image.length ≠ 64 + 32 * n then (Adp.badType, s)
  else if !inService s || decide (2 ≤ groupState s g) then (Adp.state, s)
  else if groupBad s g image (groupOf image) then (Adp.range, s)
  else if n = 0 then (Adp.ok, s.onColl fun c => { c with groups := c.groups.erase g })
  else (Adp.ok, s.onColl fun c => { c with groups := c.groups.set g (groupOf image) })

/-- GroupSelect of the mailbox (R380). -/
def groupSelected (s : State) : Nat := s.dict.mb.sel.getD 0x810101 0

/-- GROUP_DEFINE (R226): the image is written to the selected group. -/
def execGroupDefine (image : List Byte) (s : State) : Host.Outcome State Fault Refusal :=
  .next (writeGroup (groupSelected s) image s).2

/-- GROUP_UNDEFINE (R224): an image with MEMBERS 0 is written to the selected group. -/
def execGroupUndefine (image : List Byte) (s : State) : Host.Outcome State Fault Refusal :=
  .next (writeGroup (groupSelected s) (natLe 4 (fieldAt image 0 4 % 2 ^ 16 + fieldAt image 0 4 / 2 ^ 27 * 2 ^ 27) ++ slice image 4 60) s).2

/-! Abort (R246). -/

/-- Abort a sequence of a group that executes or is held by command (R246): an ADP result, and the state after it. One that has a cause
already is still held (R233) and finds no further cause (R242). -/
def abortCommand (g n : Nat) (s : State) : Nat × State :=
  let held := match (s.group g).bind fun x => x.find n with
    | some q => q.exec || !q.posts.isEmpty || q.cause.isSome
    | none => false
  if !inService s || !held then (Adp.state, s) else (Adp.ok, abortSeq g n St.aborted 0x7FF 1 false s)

/-- A write of COLL_ABORT_CMD (Table 9-13). -/
def abortReg (g n : Nat) (s : State) : State :=
  let q := abortCommand g n s
  q.2.onColl fun c => { c with abortStatus := if q.1 = Adp.ok then St.ok else St.state }

/-- GROUP_ABORT (R246): through `GroupAbort` on the selected group, or COLL_ABORT_CMD. -/
def execGroupAbort (reg : Option Nat) (seq : Nat) (s : State) : Host.Outcome State Fault Refusal :=
  .next (settle (match reg with
    | none => (abortCommand (groupSelected s) seq s).2
    | some g => viaRegIn (csOn s) (fun s => regAck St.ok (abortReg (g % 4096) seq s)) s))

/-! Descriptors and starts (R229, R230). -/

/-- COLL_DESCRIPTOR_POST (R229). -/
def execCollDescriptorPost (group k slot : Nat) (desc : List Byte) (s : State) : Host.Outcome State Fault Refusal :=
  .next (settle (collPost group k slot (takePad 128 desc) s))

/-- A group's next sequence starts, when it is of an operation and its turn has come (R230). -/
def starts (g op : Nat) (s : State) : State := settle (collStart g op s)

/-- ALL_REDUCE (R228, R230). -/
def execAllReduce (group : Nat) (s : State) : Host.Outcome State Fault Refusal := .next (starts group 1 s)

/-- REDUCE_SCATTER (R228, R230). -/
def execReduceScatter (group : Nat) (s : State) : Host.Outcome State Fault Refusal := .next (starts group 2 s)

/-- ALL_GATHER (R228, R230). -/
def execAllGather (group : Nat) (s : State) : Host.Outcome State Fault Refusal := .next (starts group 3 s)

/-- BROADCAST (R228, R230). -/
def execBroadcast (group : Nat) (s : State) : Host.Outcome State Fault Refusal := .next (starts group 4 s)

/-- REDUCE (R228, R230). -/
def execCollReduce (group : Nat) (s : State) : Host.Outcome State Fault Refusal := .next (starts group 5 s)

/-- ALL_TO_ALL (R228, R230). -/
def execAllToAll (group : Nat) (s : State) : Host.Outcome State Fault Refusal := .next (starts group 6 s)

/-- BARRIER (R228, R230). -/
def execBarrier (group : Nat) (s : State) : Host.Outcome State Fault Refusal := .next (starts group 7 s)

/-! Chunks (R235, R236). -/

/-- The arithmetic of a chunk meets `upsets` wrong runs in a row (R292): one is a transient of the first core's VE; two are followed by a
run on another COLLCORES core, and the first core's VE is judged by its known answers; more fail there too, or there is no other core, and
the check has failed for good. The first component says so. -/
def chunkUpsets (x : Group) (n upsets : Nat) (vePasses : Bool) (op : Nat) (s : State) : Bool × State :=
  match collCores s x with
  | [] => (false, s)
  | c :: r =>
    if upsets = 0 then (false, s)
    else if upsets = 1 then (false, transient c 4 op n s)
    else if upsets = 2 && !r.isEmpty then (false, if vePasses then s else retireEngine c 4 1 s)
    else (true, s)
/-- What a ready chunk's program does once its checks hold: bodies to other hubs, the slice this hub owns, and the results once
everything has arrived; results go out once every receiving local member's descriptor, which names its buffer, is here (R235, R236,
R240). -/
def chunkRuns (g k : Nat) (x : Group) (q : CSeq) (b : List Byte) (s : State) : State :=
  let n := x.next
  let again (s : State) : CSeq := ((s.group g).bind fun y => y.find n).getD q
  let s := if x.multi && (q.sent.find k).isNone then sendBodies g n k x q b s else s
  let s := if x.multi && x.ring && opReduces (sigOp b) && exactSum b then ringPartials g n k x (again s) b s else s
  let s := if opReduces (sigOp b) && !seqEnded s g n then encodeSlice g n k (x.hubIx (hubId s)) x (again s) b s else s
  let q := again s
  if q.cause.isSome then s
  else if (locals s x).all fun m => (memberPieces s x q b k m.1).isSome && (!receives b m.1 || q.posts.any fun p => p.1 == m.1) then
    let rep := ((chunkSlices s x q b k).getD []).foldl (fun (a : ArithReport) p => a.add p.2.2) {}
    let s := if (locals s x).any fun m => contributes b m.1 then s else recordStage g n (k + 1) false false (sigRoot b) s
    let s := reported g n rep s
    writeResults g n k x (again s) b s
  else s
/-- Chunk k of a group's executing sequence is processed as far as what has arrived allows (R235, R240, R292). A contribution whose block
check values do not hold is read once more; what is staged reads the same. -/
def chunkGo (g k upsets : Nat) (vePasses : Bool) (s : State) : State :=
  match s.group g with
  | none => s
  | some x =>
    match x.find x.next with
    | none => s
    | some q =>
      let b := q.sig.getD []
      if !chunkHere s x q b k then s
      else if (collCores s x).isEmpty then abortSeq g x.next St.aborted 0x7FF 3 false s
      else if (q.sent.find k).isNone && (badContribution s x q b k).isSome then
        collFault g x.next ((badContribution s x q b k).getD 0) 1 (sigOp b) s
      else
        let u := if opReduces (sigOp b) then chunkUpsets x x.next upsets vePasses (sigOp b) s else (false, s)
        if u.1 then collFault g x.next 0x7FF 2 (sigOp b) u.2 else chunkRuns g k x q b u.2

/-- CHUNK_READY (R235). -/
def execChunkReady (group chunk : Nat) (run : ChunkRun) (s : State) : Host.Outcome State Fault Refusal :=
  .next (settle (chunkGo group chunk run.upsets run.vePasses s))

/-- The member that a failed result write names (R236): of a sowing, the one on the lowest failing port (Table 2-12). -/
def unwritable (s : State) (x : Group) (m detail : Nat) : Nat :=
  if m ≠ 0x7FF then m
  else ((locals s x).find? fun l => lepOf l.2.node == detail / 65536 % 256).elim 0x7FF Prod.fst

/-- One answer to a result write of a chunk. -/
def resultAnswered (a : UnitAnswer) (s : State) : State :=
  match a.op with
  | .result g n k m =>
    match s.group g with
    | none => s
    | some x =>
      let s := s.onSeq g n fun q =>
        let w := q.writing.getD k 2 - 2
        { q with writing := q.writing.set k (if a.status = St.ok then w else w / 2 * 2 + 1) }
      if a.status = St.ok then s
      else abortSeq g n St.aborted (unwritable s x m a.detail) 2 false s
  | _ => s

/-- A chunk whose result writes have all been answered OK is written, and the window moves on (R233, R236); what was staged of it is
consumed (R234). One whose writes were already issued counts when the collective has a cause, too (R243). -/
def chunkDone (g k : Nat) (s : State) : State :=
  match s.group g with
  | none => s
  | some x =>
    match x.find x.next with
    | none => s
    | some q =>
      if q.writing.find k ≠ some 0 ∨ q.written.contains k then s
      else
        let gone (o : Nat) : Bool := o / x.cstride % x.window == k % x.window
        let s := stageDrop x q ((q.stage.map Prod.fst).filter gone) s
        let s := bump 0xC4090B 1 (s.onSeq g x.next fun q => { q with written := q.written ++ [k], stage := q.stage.keep fun o _ => !gone o })
        s.onSeq g x.next fun q =>
          let b := q.sig.getD []
          let base := windowBase x q b
          { q with entered := (List.range x.window).foldl (fun m i =>
              if (m.find (base + i)).isNone && decide (base + i < chunksOf x b) then m.set (base + i) s.now else m) q.entered }

/-- CHUNK_WRITTEN (R236): the answers to a chunk's result writes that have come are taken. -/
def chunkWrites (g k : Nat) (s : State) : State :=
  let mine (a : UnitAnswer) : Bool := match a.op with
    | .result h _ j _ => h == g && j == k
    | _ => false
  let l := s.coll.answers.filter mine
  chunkDone g k (forAll l resultAnswered (s.onColl fun c => { c with answers := c.answers.filter fun a => !mine a }))

/-- CHUNK_WRITTEN (R236). -/
def execChunkWritten (group chunk : Nat) (s : State) : Host.Outcome State Fault Refusal := .next (settle (chunkWrites group chunk s))

/-- A member's completion record has been answered, whatever the status: its signal is issued (R237). -/
def recordAnswered (g n m : Nat) (s : State) : State :=
  let mine : UnitOp := .record g n m
  let l := s.coll.answers.filter fun a => a.op == mine
  match l, s.group g with
  | _ :: _, some x =>
    if s.coll.unitOps.any fun kv => kv.2 == mine then s
    else
      let s := s.onColl fun c => { c with answers := c.answers.filter fun y => y.op != mine }
      match x.members[m]? with
      | none => s
      | some y =>
        unitSend (.signal g n m) Op.sigAdd
          { plot := x.plot, len := 8, ctx := y.cctx, dst := y.cnode, opa := BitVec.ofNat 48 (if lepOf y.cnode = 0xC0 then y.sigoff % 65536 else y.sigoff) } (natLe 8 1)
          (s.onSeq g n fun q => { q with finish := q.finish.set m .signalled })
  | _, _ => s

/-- COLLECTIVE_SIGNAL (R237). -/
def execCollectiveSignal (group seq member : Nat) (s : State) : Host.Outcome State Fault Refusal :=
  .next (settle (recordAnswered group seq member s))

/-! Exchange messages (R238-R242, R248). -/

/-- An exchange message of a kind arrives from a hub (Table 9-8). -/
def exchangeArrives (kind hub : Nat) (payload : List Byte) (s : State) : State :=
  let w0 := fieldAt payload 0 1 / 16 * 16 + kind
  settle (xchIntake hub (natLe 1 w0 ++ payload.drop 1) s)

/-- XCH_SIGNATURE (R239). -/
def execXchSignature (hub : Nat) (payload : List Byte) (s : State) : Host.Outcome State Fault Refusal :=
  .next (exchangeArrives 1 hub payload s)

/-- XCH_PARTIAL (R240). -/
def execXchPartial (hub : Nat) (payload : List Byte) (s : State) : Host.Outcome State Fault Refusal :=
  .next (exchangeArrives 2 hub payload s)

/-- XCH_RESULT (R240). -/
def execXchResult (hub : Nat) (payload : List Byte) (s : State) : Host.Outcome State Fault Refusal :=
  .next (exchangeArrives 3 hub payload s)

/-- XCH_DATA (R240). -/
def execXchData (hub : Nat) (payload : List Byte) (s : State) : Host.Outcome State Fault Refusal :=
  .next (exchangeArrives 4 hub payload s)

/-- XCH_NOTICE (R248). -/
def execXchNotice (hub : Nat) (payload : List Byte) (s : State) : Host.Outcome State Fault Refusal :=
  .next (exchangeArrives 5 hub payload s)

/-- XCH_ABORT (R242). -/
def execXchAbort (hub : Nat) (payload : List Byte) (s : State) : Host.Outcome State Fault Refusal :=
  .next (exchangeArrives 6 hub payload s)

/-- XCH_DONE (R240). -/
def execXchDone (hub : Nat) (payload : List Byte) (s : State) : Host.Outcome State Fault Refusal :=
  .next (exchangeArrives 7 hub payload s)

/-- SETTLE_TIME_EXPIRY (R242): a sequence that has a cause ends once the settle time has passed. -/
def execSettleTimeExpiry (group seq : Nat) (s : State) : Host.Outcome State Fault Refusal :=
  .next (settle (match (s.group group).bind fun x => x.find seq with
    | none => s
    | some _ => groupTurn group s))

/-! Deadlines (R247, R248). -/

/-- Whether a member's data of slice j of a wide chunk, received as DATA, has not wholly arrived. -/
def dataShort (x : Group) (q : CSeq) (b : List Byte) (k j m : Nat) : Bool :=
  let r := sliceRange (chunkLen x b k) x.hubs.length j
  let bs := (q.bodies.filter fun y => y.kind == 4 && y.chunk == k && y.slice == m && (!x.ring || y.off / 2 ^ 26 == j)).map
    fun y => { y with off := y.off % 2 ^ 26 }
  decide ((streamOf bs bs.length []).length < 4 + ebOf (sigCt b) (r.2 - r.1) + sbOf (sigCt b) (r.2 - r.1))

/-- Whether a body that this hub expects for chunk k from another hub has not arrived (R240, R247). -/
def owes (s : State) (x : Group) (q : CSeq) (b : List Byte) (k h : Nat) : Bool :=
  let me := x.hubIx (hubId s)
  let ih := x.hubIx h
  let mine := (x.indexed.filter fun m => hubOf m.2.node == h && contributes b m.1).map Prod.fst
  if sigOp b = 7 then !q.dones.contains ih
  else if opReduces (sigOp b) then
    let r := sliceRange (chunkLen x b k) x.hubs.length ih
    let here := sliceRange (chunkLen x b k) x.hubs.length me
    let before := x.ring && (ih + 1) % x.hubs.length == me
    decide ((stream q 3 k ih none).length < 16 + ebOf (sigRt b) (r.2 - r.1) + sbOf (sigRt b) (r.2 - r.1)) ||
      (if exactSum b then
        (!x.ring || before) &&
          (readStream x.anchor (ceilDiv (here.2 - here.1) 32) (stream q 2 k me (if x.ring then none else some ih))).isNone
      else mine.any fun m => dataShort x q b k me m)
  else mine.any fun m => (wholePart s x q b k m).isNone

/-- The steps of a sequence that are past their deadlines (R247): stage, step, name, HUBLEVEL and time waited. -/
def overdue (s : State) (x : Group) (q : CSeq) : List (Nat × Nat × Nat × Bool × Nat) :=
  let b := q.sig.getD []
  let limit (f : Nat) : Nat := 1000 * x.deadline * max 1 f * (if q.slow then 4 else 1)
  let posted (m : Nat) : Bool := q.posts.any fun p => p.1 == m
  let one := ((locals s x).filter fun m => !posted m.1 && decide (q.start + limit (q.factors.getD m.1 0) < s.now)).map
    fun m => (0, 1, m.1, false, s.now - q.start)
  let two := q.entered.flatMap fun e =>
    let t := max q.start e.2
    if q.sig.isNone || sigOp b == 7 || decide (chunksOf x b ≤ e.1) || (q.writing.find e.1).isSome then []
    else ((locals s x).filter fun m => contributes b m.1 && posted m.1 && !arrived s x q b m.1 e.1 &&
        decide (t + limit (q.factors.getD m.1 0) < s.now)).map fun m => (e.1 + 1, 2, m.1, false, s.now - t)
  let sent := if sigOp b = 7 then [(0, q.start)] else q.sent
  let three := sent.flatMap fun e =>
    if (q.writing.find e.1).isSome then []
    else ((others s x).filter fun h => owes s x q b e.1 h &&
        decide (e.2 + limit (q.hubFactors.getD (x.hubIx h) 0) < s.now)).map fun h => (e.1 + 1, 3, x.firstOf h, true, s.now - e.2)
  one ++ two ++ three

/-- The first step of a group's executing sequence that is past its deadline aborts it (R241, R247). -/
def deadlineGroup (g : Nat) (s : State) : State :=
  match s.group g with
  | none => s
  | some x =>
    match x.find x.next with
    | none => s
    | some q =>
      if !q.exec || q.cause.isSome then s
      else
        match overdue s x q with
        | [] => s
        | (stage, step, name, level, waited) :: _ =>
          let s := recordStage g q.seq stage true level name s
          let s := raise 0x8103 [g, q.seq, name, step, stage, waited / 1000] s
          abortSeq g q.seq St.late name step level s

/-- DEADLINE_CHECK (R247). -/
def execDeadlineCheck (s : State) : Host.Outcome State Fault Refusal :=
  .next (settle (forAll (s.coll.groups.map Prod.fst) deadlineGroup s))

end Sys2Proof.Machine
end

