-- ==== Sys2Proof/Machine/Programs.lean ====
section
/-! DEFINITION. The descriptors of Furrow programs as they issue (Table 8-6), the answers and results they wait for, and the commands of a
core's load register (R217, R218). -/

namespace Sys2Proof.Machine

/-! The sequencer's register and branch opcodes: they complete as they issue. -/

/-- NOP: nothing (R213, Table 8-6). -/
def execNop (core thread : Nat) (s : State) : Host.Outcome State Fault Refusal :=
  .next (issueReg 0x00 core thread (fun _ s => s) s)

/-- HALT (R213, Table 8-6). -/
def execHalt (core thread : Nat) (s : State) : Host.Outcome State Fault Refusal :=
  .next (issueReg 0x01 core thread (fun _ => doHalt core thread) s)

/-- JUMP: the next descriptor is IMM (R213, Table 8-6). -/
def execJump (core thread : Nat) (s : State) : Host.Outcome State Fault Refusal :=
  .next (issueReg 0x02 core thread (fun d => jumpTo core thread d.imm) s)

/-- LOOP (R213, Table 8-6). -/
def execLoop (core thread : Nat) (s : State) : Host.Outcome State Fault Refusal :=
  .next (issueReg 0x03 core thread (doLoop core thread) s)

/-- BRST: jump when STATUS is not OK (R213, Table 8-6). -/
def execBrst (core thread : Nat) (s : State) : Host.Outcome State Fault Refusal :=
  .next (issueReg 0x04 core thread (doBrst core thread) s)

/-- BRX (R213, Table 8-6). -/
def execBrx (core thread : Nat) (s : State) : Host.Outcome State Fault Refusal :=
  .next (issueReg 0x05 core thread (doBrx core thread) s)

/-- XOP (R213, Table 8-6). -/
def execXop (core thread : Nat) (s : State) : Host.Outcome State Fault Refusal :=
  .next (issueReg 0x06 core thread (doXop core thread) s)

/-- CLRST (R213, Table 8-6). -/
def execClrst (core thread : Nat) (s : State) : Host.Outcome State Fault Refusal :=
  .next (issueReg 0x0B core thread (fun _ => doClrst core thread) s)

/-- STREAM (R205) (R213, Table 8-6). -/
def execStream (core thread : Nat) (s : State) : Host.Outcome State Fault Refusal :=
  .next (issueReg 0x0D core thread (doStream core thread) s)

/-! The opcodes that use memory, an engine or another unit. -/

/-- A descriptor of an opcode issues, runs as far as it goes, and what it brings about goes on. -/
def descriptorIssues (op core thread : Nat) (upset : Bool) (s : State) : State := settle (issueOp op core thread upset s)

/-- LDX (R213, Table 8-6). -/
def execLdx (core thread : Nat) (s : State) : Host.Outcome State Fault Refusal :=
  .next (descriptorIssues 0x07 core thread false s)

/-- FENCE (R155) (R213, Table 8-6). -/
def execFence (core thread : Nat) (s : State) : Host.Outcome State Fault Refusal :=
  .next (descriptorIssues 0x08 core thread false s)

/-- WAIT (R262) (R213, Table 8-6). -/
def execWait (core thread : Nat) (s : State) : Host.Outcome State Fault Refusal :=
  .next (descriptorIssues 0x09 core thread false s)

/-- SIGNAL (R213, Table 8-6). -/
def execSignal (core thread : Nat) (s : State) : Host.Outcome State Fault Refusal :=
  .next (descriptorIssues 0x0A core thread false s)

/-- REPORT (R213, Table 8-6). -/
def execReport (core thread : Nat) (s : State) : Host.Outcome State Fault Refusal :=
  .next (descriptorIssues 0x0C core thread false s)

/-- RECV (R207) (R213, Table 8-6). -/
def execRecv (core thread : Nat) (s : State) : Host.Outcome State Fault Refusal :=
  .next (descriptorIssues 0x10 core thread false s)

/-- ATOM (R157) (R213, Table 8-6). -/
def execAtom (core thread : Nat) (s : State) : Host.Outcome State Fault Refusal :=
  .next (descriptorIssues 0x11 core thread false s)

/-- SIGMAX (R213, Table 8-6). -/
def execSigmaxDesc (core thread : Nat) (s : State) : Host.Outcome State Fault Refusal :=
  .next (descriptorIssues 0x12 core thread false s)

/-- INVAL (R158) (R213, Table 8-6). -/
def execInval (core thread : Nat) (s : State) : Host.Outcome State Fault Refusal :=
  .next (descriptorIssues 0x13 core thread false s)

/-- WBACK (R158) (R213, Table 8-6). -/
def execWback (core thread : Nat) (s : State) : Host.Outcome State Fault Refusal :=
  .next (descriptorIssues 0x14 core thread false s)

/-- COPY (R216) (R213, Table 8-6). -/
def execCopy (core thread : Nat) (s : State) : Host.Outcome State Fault Refusal :=
  .next (descriptorIssues 0x20 core thread false s)

/-- GATHER (R216) (R213, Table 8-6). -/
def execGather (core thread : Nat) (s : State) : Host.Outcome State Fault Refusal :=
  .next (descriptorIssues 0x21 core thread false s)

/-- SCATTER (R216) (R213, Table 8-6). -/
def execScatter (core thread : Nat) (s : State) : Host.Outcome State Fault Refusal :=
  .next (descriptorIssues 0x22 core thread false s)

/-- SOW (R213, Table 8-6). -/
def execSow (core thread : Nat) (s : State) : Host.Outcome State Fault Refusal :=
  .next (descriptorIssues 0x23 core thread false s)

/-- SEND (R213, Table 8-6). -/
def execSend (core thread : Nat) (s : State) : Host.Outcome State Fault Refusal :=
  .next (descriptorIssues 0x24 core thread false s)

/-- FILL (R213, Table 8-6). -/
def execFill (core thread : Nat) (s : State) : Host.Outcome State Fault Refusal :=
  .next (descriptorIssues 0x25 core thread false s)

/-- DOT (R214) (R213, Table 8-6). -/
def execDot (core thread : Nat) (upset : Bool) (s : State) : Host.Outcome State Fault Refusal :=
  .next (descriptorIssues 0x30 core thread upset s)

/-- REDUCE (R213, Table 8-6). -/
def execReduce (core thread : Nat) (upset : Bool) (s : State) : Host.Outcome State Fault Refusal :=
  .next (descriptorIssues 0x31 core thread upset s)

/-- EWISE (R213, Table 8-6). -/
def execEwise (core thread : Nat) (s : State) : Host.Outcome State Fault Refusal :=
  .next (descriptorIssues 0x32 core thread false s)

/-- SCALE (R213, Table 8-6). -/
def execScale (core thread : Nat) (s : State) : Host.Outcome State Fault Refusal :=
  .next (descriptorIssues 0x33 core thread false s)

/-- QUANT (R188-R191) (R213, Table 8-6). -/
def execQuant (core thread : Nat) (upset : Bool) (s : State) : Host.Outcome State Fault Refusal :=
  .next (descriptorIssues 0x34 core thread upset s)

/-- DEQUANT (R176) (R213, Table 8-6). -/
def execDequant (core thread : Nat) (s : State) : Host.Outcome State Fault Refusal :=
  .next (descriptorIssues 0x35 core thread false s)

/-- SMAXP (R215) (R213, Table 8-6). -/
def execSmaxp (core thread : Nat) (upset : Bool) (s : State) : Host.Outcome State Fault Refusal :=
  .next (descriptorIssues 0x36 core thread upset s)

/-- TOPK (R213, Table 8-6). -/
def execTopk (core thread : Nat) (upset : Bool) (s : State) : Host.Outcome State Fault Refusal :=
  .next (descriptorIssues 0x37 core thread upset s)

/-- ACCADD (R185) (R213, Table 8-6). -/
def execAccadd (core thread : Nat) (upset : Bool) (s : State) : Host.Outcome State Fault Refusal :=
  .next (descriptorIssues 0x38 core thread upset s)

/-- DECODE (R179) (R213, Table 8-6). -/
def execDecodeDesc (core thread : Nat) (upset : Bool) (s : State) : Host.Outcome State Fault Refusal :=
  .next (descriptorIssues 0x39 core thread upset s)

/-- CAST (R192) (R213, Table 8-6). -/
def execCast (core thread : Nat) (s : State) : Host.Outcome State Fault Refusal :=
  .next (descriptorIssues 0x3A core thread false s)

/-- BCHECK (R281) (R213, Table 8-6). -/
def execBcheck (core thread : Nat) (s : State) : Host.Outcome State Fault Refusal :=
  .next (descriptorIssues 0x40 core thread false s)

/-- RCHECK (R213, Table 8-6). -/
def execRcheck (core thread : Nat) (s : State) : Host.Outcome State Fault Refusal :=
  .next (descriptorIssues 0x41 core thread false s)

/-- LCHECK (R284) (R213, Table 8-6). -/
def execLcheck (core thread : Nat) (s : State) : Host.Outcome State Fault Refusal :=
  .next (descriptorIssues 0x42 core thread false s)

/-- DIGEST (R298) (R213, Table 8-6). -/
def execDigest (core thread : Nat) (s : State) : Host.Outcome State Fault Refusal :=
  .next (descriptorIssues 0x43 core thread false s)

/-- Clear the probe statistics of the plots of a mask (R198). -/
def probeClear (mask : Nat) (s : State) : State :=
  s.onFur fun x => { x with probes := x.probes.keep fun n _ => !(decide (n < 9) && bitOf mask n) }

/-! What descriptors wait for. -/

/-- REMOTE_LINE_ARRIVAL (R203): the reply to a request of a thread's descriptor. -/
def execRemoteLineArrival (core thread tag status : Nat) (data : List Byte) (s : State) : Host.Outcome State Fault Refusal :=
  .next (settle (lineArrives core thread tag status data s))

/-- CHECK_REPEAT_DONE (R288): the repetition of an operation that failed a check has ended. -/
def execCheckRepeatDone (core : Nat) (d : Issued) (sound : Bool) (s : State) : Host.Outcome State Fault Refusal :=
  .next (settle (checkRepeated core d sound s))

/-- JUDGEMENT_DONE (R288, Table 11-3). -/
def execJudgementDone (core : Nat) (d : Issued) (passes : Bool) (s : State) : Host.Outcome State Fault Refusal :=
  .next (settle (judgementDone core d passes s))

/-! The commands of FUR_CMD (R217, R218, Table 8-10). -/

/-- CORE_LOAD (R218): answered on the REG transaction; the outcome is in FUR_RESULT. -/
def execCoreLoad (core : Nat) (s : State) : Host.Outcome State Fault Refusal :=
  .next (viaRegIn (coreOn s core) (fun s => regAck St.ok (loadStart core s)) s)

/-- LOAD_COMPLETE (R218): the checks of Table 8-9, and the program takes its place. -/
def execLoadComplete (core : Nat) (s : State) : Host.Outcome State Fault Refusal :=
  .next (settle (loadDone core s))

/-- CORE_START (R217). -/
def execCoreStart (core mask ctx : Nat) (s : State) : Host.Outcome State Fault Refusal :=
  .next (viaRegIn (coreOn s core) (fun s => regAck St.ok (coreStart core mask ctx s)) s)

/-- CORE_STOP (R217). -/
def execCoreStop (core mask : Nat) (s : State) : Host.Outcome State Fault Refusal :=
  .next (viaRegIn (coreOn s core) (fun s => settle (regAck St.ok (coreStop core mask s))) s)

/-- CORE_UNLOAD (R217). -/
def execCoreUnload (core : Nat) (s : State) : Host.Outcome State Fault Refusal :=
  .next (viaRegIn (coreOn s core) (fun s => regAck St.ok (coreUnload core s)) s)

/-- PROBE_RESET (R198): the statistics of every plot whose bit is set are cleared. -/
def execProbeReset (mask : Nat) (s : State) : Host.Outcome State Fault Refusal :=
  .next (probeClear mask s)

end Sys2Proof.Machine
end

