-- ==== Sys2Proof/Machine/DictViews.lean ====
section
/-! DEFINITION. What the read-only objects of the dictionary show of the units (Tables 3-11 to 19-4). -/

namespace Sys2Proof.Machine

/-! The pool (Tables 5-4, 5-13, 6-6). -/

/-- STATE of a descriptor: a device's reserved extents read SCRUBBING (R121, Table 5-4). -/
def extStateCode (s : State) (x : Nat) : Nat :=
  if extReserved s x then 3
  else match (s.ext x).state with
    | .free => 0
    | .assigned => 1
    | .draining => 2
    | .scrubbing => 3
/-- LIVE: bit s - 1 for view slot s (Table 5-4, R130). -/
def extLive (e : Extent) : Nat := ((e.versions.map fun v => (v.num + 14) % 15).eraseDups.map fun i => 2 ^ i).sum
/-- A descriptor (Table 5-4). -/
def extDescriptor (s : State) (x : Nat) : List Byte :=
  let e := s.ext x
  natLe 4 (x % 65536 + extStateCode s x * 2 ^ 16 + b2n (extPresent s x) * 2 ^ 19 + b2n (extLocal s x) * 2 ^ 20 +
      b2n (extLost s x) * 2 ^ 21 + extTier x * 2 ^ 22 + e.plot % 16 * 2 ^ 24 + e.role % 4 * 2 ^ 28 + b2n e.versioned * 2 ^ 30) ++
    natLe 4 (e.owner % 256 + e.grantAll % 4 * 2 ^ 8 + e.grantList % 1024 * 2 ^ 10) ++
    natLe 4 ((extBase x).getD 0 / 2 ^ 16) ++ natLe 4 (extLive e) ++ natLe 8 (e.latest % 2 ^ 48) ++ natLe 8 (inflight s x)
/-- `PoolExtentTable`: every descriptor. -/
def extTable (s : State) : List Byte := ((List.range 20480).map (extDescriptor s)).flatten
/-- A grant list as written (Table 5-13). -/
def grantImage (s : State) (g : Nat) : List Byte :=
  ((s.pool.grants.getD g []).map fun e => natLe 2 (e.1 % 256 + e.2 % 4 * 256)).flatten
/-- The ORPHANED lines with WASM, in order of extent and line (Table 6-6): the filter is kept by line number, and base addresses rise
with the extent number (Table 5-3). -/
def orphans (s : State) : List (Nat × Nat × Bool) :=
  s.coh.filter.filterMap fun kv =>
    match kv.2.st with
    | .orphaned w => (extOf (128 * kv.1)).map fun x => (x, kv.1 - (extBase x).getD 0 / 128, w)
    | _ => none
/-- `OrphanCount`. -/
def orphanCount (s : State) : Nat := (orphans s).length
/-- `OrphanList` from an entry on (Table 6-6). -/
def orphanList (s : State) (start : Nat) : List Byte :=
  ((((orphans s).drop start).take 4096).map fun a =>
    natLe 8 (a.1 % 65536 + a.2.1 * 2 ^ 16 + b2n a.2.2 * 2 ^ 37)).flatten

/-! Cores (Tables 8-10, 7-12). -/

/-- `CoreEngines`, as FUR_CAPS [5:0] (R219). -/
def coreEngines (s : State) (c : Nat) : Nat :=
  let k := s.core c
  (workingTes k).length + 8 * b2n k.ve + 16 * b2n k.me + 32 * b2n k.spare
/-- State of a core, as FUR_CAPS [14:12]. -/
def CoreSt.code : CoreSt → Nat
  | .empty => 0
  | .loaded => 1
  | .running => 2
  | .out => 3
/-- `CoreState` (Table 8-10): the cores of a cluster whose domain failed at POWER, or whose known answers have not ended, read OUT (R397,
R417). -/
def coreStateCode (s : State) (c : Nat) : Nat :=
  if s.power.testing.contains (c / 8) || s.boot.failedDomains.contains (18 + c / 8) then CoreSt.out.code else (s.core c).st.code
/-- `ProbeStatistics` of a plot (R198). -/
def probeImage (s : State) (n : Nat) : List Byte :=
  let p := s.fur.probes.getD n {}
  natLe 8 p.blocks ++ natLe 4 p.largest ++ natLe 4 p.mean
/-- `CoreSparesLeft` (Table 16-17). -/
def coreSparesLeft (s : State) : Nat := ((List.range 8).map fun k => if spareFree s k then 2 ^ k else 0).sum

/-! Collectives and synchronisation (Tables 9-14, 10-6). -/

/-- `ArrivalRecords` of a group, oldest first, from an entry on (R249). -/
def arrivalList (s : State) (g start : Nat) : List Byte :=
  match s.group g with
  | none => []
  | some x => (x.records.drop start).flatten

/-! Integrity (Tables 11-7, 11-8). -/

/-- `DigestRegion` as written. -/
def regionImage (s : State) (r : Nat) : List Byte :=
  let x := s.region r
  natLe 4 (x.first % 65536 + x.count * 2 ^ 16 + b2n x.enable * 2 ^ 31) ++ natLe 4 x.interval

/-! Plots (Table 12-11). -/

/-- `PlotRotation`: count, generation, frames under the old generation (R315). -/
def rotationImage (s : State) (n : Nat) : List Byte :=
  let r := (s.plot n).rot
  natLe 8 r ++ natLe 2 r ++ natLe 8 (if (s.plot n).rotating then (oldFrames s n).length else 0)

/-! Ports (Table 13-14). -/

/-- `PortEyeSummary`: width, height and eye of 8 lanes (R346). -/
def eyeImage (s : State) (p : Nat) : List Byte :=
  ((List.range 8).map fun l =>
    let e := (s.port p).eyes.getD l (0, 0, 0)
    natLe 1 e.1 ++ natLe 1 e.2.1 ++ natLe 1 e.2.2).flatten

/-! The segment, the companion, power and the board (Tables 14-11, 15-1, 17-6, 19-4). -/

/-- `PlcaStatus` (R367): CSMA/CD while PLCA is off or no BEACON is seen. -/
def plcaStatus (s : State) : Nat := if cfg 0x110002 255 s = 255 ∨ !s.dict.beacon then 1 else 2
/-- `CompanionState`. -/
def compCode (s : State) : Nat :=
  match s.lania.comp with
  | .absent => 0
  | .attached => 1
  | .lost => 2
/-- `DomainPower`: 36 domains by bit. -/
def domainPower (s : State) : List Byte := ((List.range 36).map fun d => natLe 2 (s.power.domain.getD d 0)).flatten
/-- `BoardSignals` (Table 19-4). -/
def boardSignals (s : State) : Nat := b2n s.boot.capAlert + 2 * b2n s.boot.tray + 4 * b2n s.boot.wake + 8 * b2n s.boot.fault

end Sys2Proof.Machine
end

