-- ==== Sys2Proof/Machine/DictTable.lean ====
section
/-! DEFINITION. What an object of the dictionary is (R376, R377, R379, R380): its type and access, what a read shows, and what a
write does once the object exists and may be written. -/

namespace Sys2Proof.Machine

/-- Types of Table 15-6. -/
inductive ObjType where
  | bool
  | u8
  | u16
  | u32
  | u64
  | i32
  | f32
  | str
  | domain
  | record
  deriving DecidableEq, Repr

/-- Type codes of Table 15-6. -/
def ObjType.code : ObjType → Nat
  | .bool => 1
  | .u8 => 2
  | .u16 => 3
  | .u32 => 4
  | .u64 => 5
  | .i32 => 6
  | .f32 => 8
  | .str => 9
  | .domain => 10
  | .record => 11
/-- Bytes of a numeric type; 0 for the others. -/
def ObjType.bytes : ObjType → Nat
  | .bool => 1
  | .u8 => 1
  | .u16 => 2
  | .u32 => 4
  | .u64 => 8
  | .i32 => 4
  | .f32 => 4
  | _ => 0

/-- Access of an object. -/
inductive Access where
  | konst
  | ro
  | rw
  | rwg
  | wo
  deriving DecidableEq, Repr

/-- An object, or the objects of an index from one sub-index to another. -/
structure Obj where
  /-- Index. -/
  index : Nat
  /-- First sub-index. -/
  first : Nat
  /-- Last sub-index. -/
  last : Nat
  /-- Type. -/
  typ : ObjType
  /-- Access. -/
  acc : Access
  /-- For a selector (R380): its default and the values it takes. -/
  sel : Option (Nat × (Nat → Bool)) := none
  /-- The selector through which its instances are reached, and their range (R388). -/
  via : Option (Nat × Nat × Nat) := none
  /-- Whether ConfigurationDigest covers it when it is RW or RWG (R388). -/
  digest : Bool := true
  /-- Whether a sub-index is that of a plot (R377, step 3). -/
  perPlot : Bool := false
  /-- Whether a DOMAIN or RECORD value has a length the object takes. -/
  size : Nat → Bool := fun _ => true
  /-- The value a read shows, by surface and sub-index. -/
  value : State → Surface → Nat → List Byte := fun _ _ _ => []
  /-- What a write of a value of the right type does: an ADP result of steps 6 to 8 of R377, and the state after it. -/
  apply : Surface → Nat → List Byte → State → Nat × State := fun _ _ _ s => (Adp.readOnly, s)

/-! Kinds of objects. -/

/-- A limit on a value. -/
def between (lo hi : Nat) (_ : State) (_ v : Nat) : Bool := decide (lo ≤ v) && decide (v ≤ hi)
/-- 0, or a value between two limits. -/
def zeroOr (lo hi : Nat) (s : State) (sub v : Nat) : Bool := v == 0 || between lo hi s sub v
/-- Any value. -/
def anyVal (_ : State) (_ _ : Nat) : Bool := true
/-- No gate. -/
def anyTime (_ : State) (_ : Nat) : Bool := true
/-- The gate of a pre-service object. -/
def preGate (s : State) (_ : Nat) : Bool := preService s
/-- The gate ISLAND. -/
def islandGate (s : State) (_ : Nat) : Bool := s.boot.st == .island
/-- The gate SERVICE. -/
def svcGate (s : State) (_ : Nat) : Bool := inService s

/-- A constant or fused number. -/
def oConst (index first last : Nat) (typ : ObjType) (f : Nat → Nat) : Obj :=
  { index, first, last, typ, acc := .konst, value := fun _ _ j => natLe typ.bytes (f j) }
/-- Constant bytes. -/
def oBytes (index sub : Nat) (typ : ObjType) (b : List Byte) : Obj :=
  { index, first := sub, last := sub, typ, acc := .konst, value := fun _ _ _ => b }
/-- A number the hub shows. -/
def oShow (index first last : Nat) (typ : ObjType) (f : State → Nat → Nat) : Obj :=
  { index, first, last, typ, acc := .ro, value := fun s _ j => natLe typ.bytes (f s j) }
/-- Bytes the hub shows. -/
def oImage (index first last : Nat) (typ : ObjType) (f : State → Surface → Nat → List Byte) : Obj :=
  { index, first, last, typ, acc := .ro, value := f }
/-- Counters (R87). -/
def oCount (index last : Nat) : Obj := oShow index 1 last .u64 fun s j => counter s (256 * index + j)
/-- A selector (R380). -/
def oSel (index sub : Nat) (typ : ObjType) (dflt : Nat) (ok : Nat → Bool) : Obj :=
  { index, first := sub, last := sub, typ, acc := .rw, sel := some (dflt, ok)
    value := fun _ x _ => natLe typ.bytes (x.sel.getD (256 * index + sub) dflt) }
/-- A setting with a gate, a range, and what follows a write. -/
def oSet (index first last : Nat) (typ : ObjType) (dflt : Nat → Nat) (ok : State → Nat → Nat → Bool)
    (gate : State → Nat → Bool := anyTime) (after : Nat → State → State := fun _ s => s) : Obj :=
  { index, first, last, typ, acc := .rw
    value := fun s _ j => natLe typ.bytes (cfg (256 * index + j) (dflt j) s)
    apply := fun _ j b s =>
      if !gate s j then (Adp.state, s)
      else if !ok s j (leNat b) then (Adp.range, s)
      else (Adp.ok, after j (setOd (256 * index + j) (leNat b) s)) }
/-- A setting of one sub-index with a range. -/
def oRw (index sub : Nat) (typ : ObjType) (dflt lo hi : Nat) : Obj := oSet index sub sub typ (fun _ => dflt) (between lo hi)
/-- Bytes that are kept as written, with a length. -/
def oKeep (index first last size : Nat) (gate : State → Nat → Bool) (after : Nat → State → State) : Obj :=
  { index, first, last, typ := .domain, acc := .rw, size := fun n => n == size
    value := fun s _ j => s.dict.odBytes.getD (256 * index + j) []
    apply := fun _ j b s =>
      if !gate s j then (Adp.state, s)
      else (Adp.ok, after j (s.onDict fun d => { d with odBytes := d.odBytes.set (256 * index + j) b })) }
/-- A write-only object of a numeric type. -/
def oCmd (index first last : Nat) (typ : ObjType) (f : Surface → Nat → Nat → State → Nat × State) : Obj :=
  { index, first, last, typ, acc := .wo, apply := fun x j b s => f x j (leNat b) s }
/-- A write-only record or byte string. -/
def oSend (index sub : Nat) (typ : ObjType) (size : Nat → Bool) (f : Surface → List Byte → State → Nat × State) : Obj :=
  { index, first := sub, last := sub, typ, acc := .wo, size, apply := fun x _ b s => f x b s }
/-- A BOOL command: a write of FALSE that would be permitted changes nothing (log entry 60). -/
def onTrue (f : State → Nat × State) (v : Nat) (s : State) : Nat × State :=
  let r := f s
  if r.1 = Adp.ok ∧ v = 0 then (Adp.ok, s) else r

/-- Access RWG. -/
def Obj.gated (o : Obj) : Obj := { o with acc := .rwg }
/-- Left out of ConfigurationDigest (R388). -/
def Obj.apart (o : Obj) : Obj := { o with digest := false }
/-- Sub-index n + 1 is plot n's. -/
def Obj.ofPlots (o : Obj) : Obj := { o with perPlot := true }

/-! Checks and effects of particular objects. -/

/-- Nine values whose sum a write may not take above a limit (R70, R77). -/
def sumOk (index : Nat) (dflt : Nat → Nat) (top limit : Nat) (s : State) (sub v : Nat) : Bool :=
  decide (v ≤ top) &&
    decide (((List.range 9).map fun n => if n + 1 = sub then v else cfg (256 * index + n + 1) (dflt (n + 1)) s).sum ≤ limit)
/-- Nine ranges of identifiers that may not overlap (R91, R251, R255), in a space of so many; one that would run past the space is refused
like one that overlaps (DESIGN CHOICE: R91, R251 and R255 name no result for it; log entry 51). -/
def rangesOk (iBase iCount : Nat) (dBase dCount : Nat → Nat) (space : Nat) (isBase : Bool) (s : State) (sub v : Nat) : Bool :=
  let base (j : Nat) : Nat := if isBase && j == sub then v else cfg (256 * iBase + j) (dBase j) s
  let count (j : Nat) : Nat := if !isBase && j == sub then v else cfg (256 * iCount + j) (dCount j) s
  decide (base sub + count sub ≤ space ∨ count sub = 0) &&
    (List.range 9).all fun n => n + 1 == sub || count (n + 1) == 0 || count sub == 0 ||
      decide (base sub + count sub ≤ base (n + 1)) || decide (base (n + 1) + count (n + 1) ≤ base sub)
/-- Whether a context of a plot, or of any plot, is active (R90, R91). -/
def ctxActive (s : State) (n : Option Nat) : Bool :=
  s.xlt.ctxs.any fun kv => !kv.2.draining && (n.isNone || ctxPlot s kv.1 == n)
/-- The gate of a plot's ranges of counters and watches: none of its watches RESERVED or ARMED (R251, R255). -/
def watchGate (s : State) (sub : Nat) : Bool :=
  !(s.sync.watches.any fun kv => watchIn s (sub - 1) kv.1 && kv.2.st != .free)
/-- Counters that a write has added to a plot's range are zero, with their grants (R251). -/
def freshCounters (before : State) (n : Nat) (s : State) : State :=
  let fresh (c : Nat) : Bool := ctrIn s n c && !ctrIn before n c
  s.onSync fun y => { y with ctrs := y.ctrs.keep fun c _ => !fresh c, grants := y.grants.keep fun c _ => !fresh c }
/-- A write of a plot's counter range (R251). -/
def writeCounters (index : Nat) (ok : State → Nat → Nat → Bool) (sub : Nat) (b : List Byte) (s : State) : Nat × State :=
  if !watchGate s sub then (Adp.state, s)
  else if !ok s sub (leNat b) then (Adp.range, s)
  else (Adp.ok, freshCounters s (sub - 1) (setOd (256 * index + sub) (leNat b) s))
/-- A plot takes its share afresh when it holds one (R313). -/
def shareAgain (sub : Nat) (s : State) : State := if holdsShare s (sub - 1) then takeShare (sub - 1) s else s
/-- A write of `PortPlot` (R313, Table 1-2). -/
def writePortPlot (sub : Nat) (b : List Byte) (s : State) : Nat × State :=
  let p := sub - 1
  let v := leNat b
  let st := portState s p
  let may : Bool := st == .down || st == .identifying || st == .dormant || st == .fallow
  let old := portPlot s p
  if !may || (decide (v ≤ 8) && (s.plot v).st == .removing) || (decide (old ≤ 8) && (s.plot old).st == .removing) then (Adp.state, s)
  else if (8 < v ∧ v ≠ 0xFF) ∨ (v ≤ 8 ∧ (s.plot v).st = .empty) then (Adp.range, s)
  else (Adp.ok, compareAgain (portName s p) (setOd (256 * 0x3100 + sub) v s))
/-- A write of a `WiringPlan` entry (Table 13-11): reserved bits are ignored, KIND 11 is refused (R10). -/
def writeWiring (sub : Nat) (b : List Byte) (s : State) : Nat × State :=
  let p := sub - 1
  let st := portState s p
  if st != .down && st != .identifying && st != .fallow then (Adp.state, s)
  else if fieldAt b 0 1 % 4 = 3 then (Adp.range, s)
  else
    let b := natLe 1 (fieldAt b 0 1 % 4) ++ slice b 1 19 ++ List.replicate 12 0
    (Adp.ok, compareAgain (portName s p) (s.onDict fun d => { d with odBytes := d.odBytes.set (256 * 0x3200 + sub) b }))
/-- A write of `GrantList` for a list (Table 5-13): right 11 is reserved. -/
def writeGrants (g : Nat) (b : List Byte) (s : State) : Nat × State :=
  let l := (List.range (b.length / 2)).map fun i => (fieldAt b (2 * i) 1, fieldAt b (2 * i + 1) 1 % 4)
  if l.any fun e => e.2 == 3 then (Adp.range, s)
  else (Adp.ok, s.onPool fun p => { p with grants := p.grants.set g l })
/-- `PoolExtentCommand` (Table 5-6). -/
def extentRecord (b : List Byte) (s : State) : Nat × State :=
  let w := fieldAt b 0 8
  let x := bits w 15 0
  let plot := bits w 23 20
  let owner := bits w 31 24
  let all := bits w 33 32
  let list := bits w 43 34
  let role := bits w 45 44
  let versioned := bitOf w 46
  match bits w 19 16 with
  | 1 => extentDict (assignExtent x plot owner all list role versioned) s
  | 2 => extentDict (revokeExtent x) s
  | 3 => extentDict (regrantExtent x all list) s
  | 4 => extentDict (releaseExtent x) s
  | 5 => extentDict (adoptExtent { ext := x, kind := b2n (bitOf w 47), plot, owner, grantAll := all, grantList := list, role, versioned }) s
  | _ => if inService s then (Adp.range, s) else (Adp.state, s)
/-- `OrphanResolve` (Table 6-5). -/
def orphanRecord (b : List Byte) (s : State) : Nat × State :=
  let w := fieldAt b 0 8
  orphanResolve (bits w 15 0) (bits w 36 16) (if bitOf w 37 then some (slice b 8 128) else none) s
/-- `PlotCommand` (Table 12-4). -/
def plotRecord (b : List Byte) (s : State) : Nat × State :=
  let w := fieldAt b 0 4
  plotCommand (bits w 7 4) (bits w 3 0) (bitOf w 8) s
/-- `ResetCommand` (Table 16-14). -/
def resetRecord (b : List Byte) (s : State) : Nat × State :=
  let w := fieldAt b 0 4
  resetDict (resetCommand (bits w 1 0) (bitOf w 2) (bits w 15 8)) s
/-- `ShedOrder` as a write would leave it: a permutation of 0 to 15 (R425). -/
def shedOk (s : State) (sub v : Nat) : Bool :=
  let l := (List.range 16).map fun i => if i + 1 = sub then v else shedAt s i
  (List.range 16).all fun g => l.contains g
/-- `TimeUpstreamPort` (R433). -/
def upstreamOk (s : State) (_ v : Nat) : Bool :=
  v == 0xFF || (decide (v < 128) && wiringKind s v == 2 && portPlot s v == 0)
/-- The value of a selector on a surface. -/
def Surface.at_ (x : Surface) (key dflt : Nat) : Nat := x.sel.getD key dflt

end Sys2Proof.Machine
end

