-- ==== Sys2Proof/Machine/DictObjects.lean ====
section
/-! DEFINITION. The objects of the dictionary, in ascending index and sub-index (every chapter's object table; Table 15-10). -/

namespace Sys2Proof.Machine

/-- Identity and communication: 0x1000 to 0x1FFF (Tables 15-1, 15-11, 18-7). -/
def objsIdentity : List Obj := [
  oConst 0x1000 1 1 .u32 fun _ => 0x00072000,
  oBytes 0x1008 1 .str (ascii "Elveth"),
  oBytes 0x1008 2 .str (ascii "TLN-7200"),
  oConst 0x1018 1 1 .u32 fun _ => 0x0000E1E7,
  oConst 0x1018 2 2 .u32 fun _ => 0x00007200,
  oConst 0x1018 3 3 .u8 fun _ => 0xB0,
  oBytes 0x1018 4 .domain (takePad 16 Config.serialNumber),
  oConst 0x1018 5 5 .u8 fun _ => Config.fuseMapRevision,
  (oSet 0x1018 6 6 .u8 (fun _ => 0xB0) (between 0xB0 0xB0) islandGate).gated,
  oBytes 0x1018 7 .domain [0xB0],
  oBytes 0x1019 1 .domain (takePad 64 Config.ddfDigest),
  oBytes 0x1100 1 .domain (takePad 6 Config.macAddress),
  oRw 0x1100 2 .u8 255 1 255,
  oRw 0x1100 3 .u8 32 1 255,
  oRw 0x1100 4 .u8 0 0 255,
  oRw 0x1100 5 .u8 128 1 255,
  oShow 0x1100 6 6 .u8 fun s _ => plcaStatus s,
  oConst 0x1200 1 1 .u16 fun _ => 4721,
  oRw 0x1200 2 .u32 1000 100 10000,
  oRw 0x1200 3 .u32 3000 300 60000,
  oShow 0x1200 4 4 .u8 fun s _ => s.dict.sessions.length,
  (oKeep 0x1210 1 4 57 preGate fun _ s => s).gated]

/-- Device-wide configuration and state: 0x2000 to 0x2FFF (Tables 1-2, 14-11, 15-11, 16-17). -/
def objsDevice : List Obj := [
  oShow 0x2000 1 1 .u8 fun s _ => s.boot.st.code,
  oShow 0x2000 2 2 .u64 fun s _ => s.now,
  oImage 0x2000 3 3 .domain fun _ _ _ => [],
  oShow 0x2000 4 4 .u32 fun s _ => s.boot.restarts,
  oBytes 0x2000 5 .domain (takePad 64 Config.bootRomDigest),
  oImage 0x2000 6 6 .domain fun s _ _ => s.boot.digest,
  oShow 0x2000 7 7 .u32 fun s _ => s.boot.fwSeq,
  (oSet 0x2000 8 8 .u32 (fun _ => 0) anyVal islandGate).gated,
  oShow 0x2000 9 9 .u64 fun s _ => s.boot.powered,
  oShow 0x2000 10 10 .u8 fun s _ => coreSparesLeft s,
  oShow 0x2000 11 11 .u8 fun s _ => s.boot.cause,
  (oSet 0x2001 1 1 .u16 (fun _ => 0xFFFF) (fun _ _ v => decide (v ≤ 255) || v == 0xFFFF) preGate fun _ s => compareAll s).gated,
  (oSet 0x2001 2 2 .u8 (fun _ => 0xFF) (fun _ _ v => decide (v ≤ 1) || v == 0xFF) preGate fun _ s => compareAll s).gated,
  oRw 0x2040 1 .u32 1000 100 100000,
  oShow 0x2040 2 2 .u8 fun s _ => compCode s,
  oShow 0x2040 3 3 .u8 fun s _ => s.lania.width]

/-- Ports and optics: 0x3000 to 0x3FFF (Tables 1-2, 13-14, 16-17). -/
def objsPorts : List Obj := [
  oConst 0x3001 1 1 .u8 fun _ => 128,
  oConst 0x3001 2 2 .u16 fun _ => 544,
  oShow 0x3002 1 16 .u8 fun s j => sparesLeft s (j - 1),
  (oSet 0x3003 1 16 .u64 (fun _ => 0) (between 0 (2 ^ 34 - 1)) preGate).gated.apart,
  oShow 0x3010 1 128 .u8 fun s j => (portState s (j - 1)).code,
  oCmd 0x3011 1 128 .u8 fun _ j v s => portCommand (j - 1) v s,
  oShow 0x3012 1 128 .u8 fun s j => (s.port (j - 1)).reason,
  oImage 0x3013 1 128 .domain fun s _ j => (s.port (j - 1)).peer,
  (oSet 0x3020 1 1 .u8 (fun _ => 0) (between 0 1) preGate).gated,
  oRw 0x3020 2 .u32 2000 500 20000,
  oSet 0x3031 1 4 .i32
    (fun j => unsigned 32 (if j = 1 then -500 else if j = 2 then -800 else if j = 3 then -3500 else -2600)) anyVal,
  oSet 0x3040 1 1 .u32 (fun _ => 3600) (zeroOr 60 604800),
  oRw 0x3040 2 .u8 12 1 63,
  oImage 0x3041 1 128 .record fun s _ j => eyeImage s (j - 1),
  { index := 0x3100, first := 1, last := 128, typ := .u8, acc := .rwg
    value := fun s _ j => natLe 1 (portPlot s (j - 1)), apply := fun _ j b s => writePortPlot j b s },
  (oSet 0x3101 1 64 .bool (fun _ => 0) anyVal fun s j =>
    (s.port (2 * j - 2)).st == .down && (s.port (2 * j - 1)).st == .down).gated,
  { index := 0x3200, first := 1, last := 128, typ := .record, acc := .rwg, size := fun n => n == 32
    value := fun s _ j => wiring s (j - 1), apply := fun _ j b s => writeWiring j b s },
  oSet 0x3201 1 1 .u64 (fun _ => 0) anyVal anyTime fun _ s => compareAll (planLoaded s),
  oConst 0x3202 1 1 .u8 fun _ => 3,
  oConst 0x3202 2 2 .u8 fun _ => 0,
  oConst 0x3202 3 3 .u64 fun _ => 0x3F]

/-- Default of `ServiceQuota` and of `SpillShare` (Tables 3-11). -/
def quotaDflt (j : Nat) : Nat := if j = 1 then 64 else 56
/-- Default of `SpillShare`. -/
def shareDflt (j : Nat) : Nat := if j = 1 then 8 else 7

/-- Switch core: 0x4000 to 0x4FFF (Tables 2-13, 3-11). -/
def objsSwitch : List Obj := [
  oConst 0x4001 1 3 .u16 fun j => if j = 1 then 128 else if j = 2 then 256 else 4096,
  oSet 0x4010 1 3 .u8 (fun j => if j = 3 then 2 else 4) (between 1 15),
  oRw 0x4020 1 .u32 500000 10000 100000000,
  oConst 0x4020 2 2 .u16 fun _ => 2048,
  (oSet 0x4030 1 9 .u16 quotaDflt (sumOk 0x4030 quotaDflt 512 512)).ofPlots,
  (oSet 0x4040 1 1 .u8 (fun _ => 20) (fun _ _ v => decide (8 ≤ v) && decide (v ≤ 40) && v % 4 == 0) preGate).gated,
  oRw 0x4040 2 .bool 1 0 1,
  oRw 0x4040 3 .u8 75 50 95,
  oRw 0x4040 4 .u16 128 16 1024,
  oConst 0x4040 5 5 .u16 fun _ => 4096,
  (oSet 0x4041 1 9 .u8 shareDflt (sumOk 0x4041 shareDflt 64 64) (fun s j => !spilledFlow s (j - 1)) shareAgain).gated.ofPlots,
  (oShow 0x4042 1 9 .u64 fun s j => spillUsed s (j - 1)).ofPlots,
  oConst 0x4050 1 1 .u32 fun _ => 100,
  oRw 0x4050 2 .u16 16 1 4096]

/-- Default of a range whose plot 0 alone has one. -/
def plotZero (d j : Nat) : Nat := if j = 1 then d else 0

/-- Translation: 0x5000 to 0x5FFF (Table 4-13). -/
def objsTranslation : List Obj := [
  oConst 0x5001 1 1 .u16 fun _ => 4096,
  oConst 0x5001 2 2 .u32 fun _ => 262144,
  oConst 0x5001 3 3 .u16 fun _ => 2048,
  oConst 0x5001 4 4 .u16 fun _ => 4096,
  (oSet 0x5010 1 9 .u16 (fun _ => 0) (rangesOk 0x5010 0x5011 (fun _ => 0) (plotZero 0x40) 65536 true)
    fun s j => !ctxActive s (some (j - 1))).gated.ofPlots,
  (oSet 0x5011 1 9 .u16 (plotZero 0x40)
    (fun s j v => decide (v ≤ 4096) && rangesOk 0x5010 0x5011 (fun _ => 0) (plotZero 0x40) 65536 false s j v)
    fun s j => !ctxActive s (some (j - 1))).gated.ofPlots,
  oShow 0x5020 1 1 .u64 fun s _ => s.xlt.genAck.toNat,
  (oSet 0x5020 2 2 .u64 (fun _ => 0) (fun _ _ v => v % 2 ^ 20 == 0 && decide (v < 2 ^ 48)) fun s _ => !ctxActive s none).gated,
  (oSet 0x5020 3 3 .u64 (fun _ => 0) (fun _ _ v => v % 2 ^ 20 == 0 && decide (v < 2 ^ 48)) fun s _ => !ctxActive s none).gated,
  oShow 0x5030 1 1 .u32 fun s _ => s.xlt.epoch,
  oConst 0x5030 2 2 .u32 fun _ => 100,
  oShow 0x5030 3 3 .u8 fun s _ => s.xlt.shootQueue.length,
  oRw 0x5040 2 .u32 2000 500 1000000,
  oRw 0x5040 3 .u32 1000 1 60000,
  oRw 0x5040 4 .u16 200 0 2000]

/-- Pool, coherence and CXL: 0x6000 to 0x6FFF (Tables 5-13, 6-7, 14-11, 16-17). -/
def objsPool : List Obj := [
  oConst 0x6001 1 1 .u64 fun _ => 640000000000,
  oShow 0x6001 2 2 .u64 fun s _ => (s.cxlPort 0).capacity + (s.cxlPort 1).capacity,
  oShow 0x6001 3 3 .u64 fun s _ => tier3Capacity s,
  oConst 0x6001 4 4 .u16 fun _ => 20480,
  oShow 0x6010 1 32 .u8 fun s j => s.pool.setState.getD (j - 1) 0,
  (oSet 0x6011 1 8 .u32 (fun _ => 0) (fun _ _ v => decide (bitCount v 32 ≤ 2)) preGate).gated.apart,
  oSet 0x6012 1 1 .u32 (fun _ => 3600) (zeroOr 600 86400),
  oRw 0x6012 2 .u8 10 2 40,
  oRw 0x6020 1 .u32 1000 100 1000,
  oRw 0x6030 1 .u32 1000 100 60000,
  oRw 0x6030 2 .u16 2048 1 65535,
  oRw 0x6030 3 .u16 8 0 65535,
  oRw 0x6030 4 .u32 256 0 0xFFFFFFFF,
  oRw 0x6030 5 .u16 4096 0 16384,
  oRw 0x6030 6 .bool 1 0 1,
  oRw 0x6050 1 .u32 86400 3600 604800,
  oRw 0x6050 2 .u16 16 1 1024,
  oRw 0x6050 3 .u16 64 8 1024,
  oSel 0x6104 1 .u16 0 fun v => decide (v ≤ 0x4FFF),
  oImage 0x6104 2 2 .u8 fun s x _ => natLe 1 (extStateCode s (x.at_ 0x610401 0)),
  oImage 0x6104 3 3 .domain fun s x _ => extDescriptor s (x.at_ 0x610401 0),
  oSend 0x6105 1 .record (fun n => n == 8) fun _ b s => extentRecord b s,
  oImage 0x6106 1 1 .domain fun s _ _ => extTable s,
  oSel 0x6201 1 .u16 1 fun v => decide (1 ≤ v) && decide (v ≤ 1023),
  { index := 0x6201, first := 2, last := 2, typ := .domain, acc := .rw, via := some (0x620101, 1, 1023)
    size := fun n => n % 2 == 0 && decide (n ≤ 128)
    value := fun s x _ => grantImage s (x.at_ 0x620101 1), apply := fun x _ b s => writeGrants (x.at_ 0x620101 1) b s },
  oConst 0x6310 1 1 .u32 fun _ => 2097152,
  oRw 0x6310 2 .u32 20 5 1000,
  oShow 0x6311 1 1 .u32 fun s _ => orphanCount s,
  oSel 0x6311 2 .u32 0 fun v => decide (v ≤ 2097151),
  oImage 0x6311 3 3 .domain fun s x _ => orphanList s (x.at_ 0x631102 0),
  oSend 0x6312 1 .record (fun n => n == 136) fun _ b s => orphanRecord b s,
  oShow 0x6400 1 4 .u8 fun s j => (s.cxlPort (j - 1)).st,
  oImage 0x6401 1 4 .domain fun s _ j => (s.cxlPort (j - 1)).serial]

/-- A power of two from 16 to 65,536, or 0 (R196). -/
def probeOk (_ : State) (_ v : Nat) : Bool := v == 0 || (List.range 13).any fun i => v == 2 ^ (i + 4)
/-- A binary32 from 0.0 to 16.0: the patterns of such numbers rise with them; negative zero is 0 (Table 7-12). -/
def thresholdOk (_ : State) (_ v : Nat) : Bool := decide (v ≤ 0x41800000) || v == 0x80000000

/-- Furrow: 0x7000 to 0x7FFF (Tables 6-7, 7-12, 8-10). -/
def objsFurrow : List Obj := [
  oConst 0x7001 1 1 .u8 fun _ => 64,
  oConst 0x7001 2 2 .u8 fun _ => 16,
  oConst 0x7001 3 3 .u32 fun _ => 2097152,
  oConst 0x7001 4 4 .u8 fun _ => 32,
  oShow 0x7010 1 64 .u8 fun s j => coreEngines s (j - 1),
  (oSet 0x7011 1 64 .u8 (fun _ => 0) (between 0 63) preGate).gated.apart,
  oShow 0x7020 1 64 .u8 fun s j => coreStateCode s (j - 1),
  oImage 0x7021 1 64 .domain fun s _ j => (s.core (j - 1)).digest,
  (oSet 0x7030 1 9 .bool (fun _ => 0) anyVal fun s j => (loadedCores s (j - 1)).isEmpty).gated.ofPlots,
  (oSet 0x7060 1 9 .u32 (fun _ => 0) probeOk).ofPlots,
  oSet 0x7061 1 1 .f32 (fun _ => 0x3E800000) thresholdOk,
  oCmd 0x7061 2 2 .u16 fun _ _ v s => (Adp.ok, probeClear v s),
  (oImage 0x7062 1 9 .record fun s _ j => probeImage s (j - 1)).ofPlots]

/-- Default of `CollectiveStaging` (Table 9-14). -/
def stagingDflt (j : Nat) : Nat := if j = 1 then 1 else 2
/-- The ranges of counters. -/
def countersOk : Bool → State → Nat → Nat → Bool := rangesOk 0x8201 0x8202 (plotZero 0xFF00) (plotZero 256) 65536
/-- The ranges of watches. -/
def watchesOk : Bool → State → Nat → Nat → Bool := rangesOk 0x8203 0x8204 (plotZero 0x3F00) (plotZero 256) 16384

/-- Collectives and synchronisation: 0x8000 to 0x8FFF (Tables 9-14, 10-6). -/
def objsCollectives : List Obj := [
  oConst 0x8001 1 3 .u16 fun j => if j = 1 then 4096 else if j = 2 then 256 else 1024,
  oConst 0x8002 1 1 .u32 fun _ => 65536,
  oConst 0x8002 2 2 .u16 fun _ => 16384,
  oSel 0x8101 1 .u16 0 fun v => decide (v ≤ 4095),
  oImage 0x8101 2 2 .u8 fun s x _ => natLe 1 (groupState s (x.at_ 0x810101 0)),
  oImage 0x8101 3 3 .u32 fun s x _ => natLe 4 (((s.group (x.at_ 0x810101 0)).map Group.next).getD 0),
  oImage 0x8101 4 4 .u64 fun s x _ => natLe 8 (((s.group (x.at_ 0x810101 0)).map fun g => fieldAt g.digest 0 8).getD 0),
  { index := 0x8102, first := 1, last := 1, typ := .domain, acc := .rwg, via := some (0x810101, 0, 4095)
    size := fun n => decide (64 ≤ n)
    value := fun s x _ => ((s.group (x.at_ 0x810101 0)).map Group.image).getD []
    apply := fun x _ b s => writeGroup (x.at_ 0x810101 0) b s },
  oCmd 0x8103 1 1 .u32 fun x _ v s => abortCommand (x.at_ 0x810101 0) v s,
  (oSet 0x8110 1 9 .u8 stagingDflt (between 0 64) (fun s j => !collectiveRuns s (j - 1)) shareAgain).gated.ofPlots,
  oSel 0x8120 1 .u16 0 fun v => decide (v ≤ 255),
  oImage 0x8120 2 2 .domain fun s x _ => arrivalList s (x.at_ 0x810101 0) (x.at_ 0x812001 0),
  { index := 0x8201, first := 1, last := 9, typ := .u16, acc := .rwg, perPlot := true
    value := fun s _ j => natLe 2 (ctrBase s (j - 1)), apply := fun _ j b s => writeCounters 0x8201 (countersOk true) j b s },
  { index := 0x8202, first := 1, last := 9, typ := .u32, acc := .rwg, perPlot := true
    value := fun s _ j => natLe 4 (ctrCount s (j - 1)), apply := fun _ j b s => writeCounters 0x8202 (countersOk false) j b s },
  (oSet 0x8203 1 9 .u16 (plotZero 0x3F00) (watchesOk true) watchGate).gated.ofPlots,
  (oSet 0x8204 1 9 .u16 (plotZero 256) (watchesOk false) watchGate).gated.ofPlots,
  oRw 0x8210 1 .u32 1000 10 100000,
  oSel 0x8220 1 .u16 0 fun _ => true,
  oImage 0x8220 2 2 .u64 fun s x _ => natLe 8 (ctrVal s (x.at_ 0x822001 0)),
  oImage 0x8220 3 3 .u64 fun s x _ => natLe 8 (s.sync.grants.getD (x.at_ 0x822001 0) 0)]

/-- Security and plots: 0x9000 to 0x9FFF (Table 12-11). -/
def objsSecurity : List Obj := [
  oBytes 0x9010 1 .domain (takePad 57 Config.identityPublicKey),
  oBytes 0x9010 2 .domain (Config.certificateChain.take 4096),
  oKeep 0x9020 1 4 57 anyTime fun _ s => compareAll s,
  oRw 0x9021 1 .u32 3600 60 86400,
  oKeep 0x9030 1 1 16 anyTime fun _ s => partnerNamed s,
  oShow 0x9031 1 1 .u8 fun s _ => s.key.pairState,
  oCmd 0x9031 2 2 .bool fun _ _ v s => onTrue pairReset v s,
  (oShow 0x9100 1 9 .u8 fun s j => (s.plot (j - 1)).st.code).ofPlots,
  oSend 0x9101 1 .record (fun n => n == 4) fun _ b s => plotRecord b s,
  { index := 0x9110, first := 1, last := 9, typ := .u64, acc := .rwg, perPlot := true
    value := fun s _ j => natLe 8 (plotCores s (j - 1)), apply := fun _ j b s => writeCores (j - 1) (leNat b) s },
  { index := 0x9111, first := 1, last := 9, typ := .u32, acc := .rwg, perPlot := true
    value := fun s _ j => natLe 4 (plotWays s (j - 1)), apply := fun _ j b s => writeWays (j - 1) (leNat b) s },
  { index := 0x9112, first := 1, last := 9, typ := .u32, acc := .rwg, perPlot := true
    value := fun s _ j => natLe 4 (plotSets s (j - 1)), apply := fun _ j b s => writeSets (j - 1) (leNat b) s },
  (oImage 0x9120 1 9 .record fun s _ j => rotationImage s (j - 1)).ofPlots,
  (oSet 0x9122 1 9 .u16 (fun _ => 32) (between 1 256)).ofPlots,
  oSend 0x9300 1 .domain (fun n => n == 64) fun _ b s =>
    if inService s then (Adp.ok, s.onKey fun k => { k with attNonce := b }) else (Adp.state, s),
  oSend 0x9300 2 .domain (fun n => n == 56) fun _ b s =>
    if inService s then (Adp.ok, s.onKey fun k => { k with attPeer := b }) else (Adp.state, s),
  oSet 0x9300 3 3 .u8 (fun _ => 0) (between 0 8) svcGate,
  oCmd 0x9300 4 4 .bool fun _ _ v s => onTrue attestGo v s,
  oImage 0x9300 5 5 .domain fun s _ _ => s.key.report,
  oShow 0x9400 1 1 .u8 fun s _ => b2n s.key.debug,
  oImage 0x9400 2 2 .domain fun s _ _ => debugChallenge s,
  oSend 0x9400 3 .domain (fun n => n == 202) fun _ b s => debugWrite b s]

/-- Integrity: 0xA000 to 0xAFFF (Table 11-10). -/
def objsIntegrity : List Obj := [
  oConst 0xA001 1 1 .u64 fun _ => 0x1FFFFFFFFFFFFFFF,
  oConst 0xA001 2 2 .u64 fun _ => 0x100000007,
  oConst 0xA010 1 1 .u8 fun _ => 3,
  oConst 0xA010 2 2 .u32 fun _ => 10,
  oRw 0xA020 1 .u16 8 1 1000,
  oSet 0xA030 1 1 .u32 (fun _ => 86400) (zeroOr 3600 604800),
  oShow 0xA030 2 2 .u32 fun s _ => (s.chk.tilth.map TilthSet.setId).getD 0,
  oShow 0xA030 3 3 .u32 fun s _ => (s.chk.tilth.map TilthSet.seq).getD 0,
  oImage 0xA030 4 4 .domain fun s _ _ => (s.chk.tilth.map TilthSet.digest).getD (List.replicate 64 0),
  oSend 0xA031 1 .domain (fun n => decide (n ≤ 2 ^ 23)) fun _ b s => tilthWrite b s,
  oShow 0xA032 1 64 .u64 fun s j => s.chk.coreRun.getD (j - 1) 0,
  oShow 0xA033 1 128 .u64 fun s j => s.chk.tileRun.getD (j - 1) 0,
  oSel 0xA040 1 .u16 0 fun v => decide (v ≤ 255),
  { index := 0xA040, first := 2, last := 2, typ := .record, acc := .rwg, via := some (0xA04001, 0, 255), size := fun n => n == 8
    value := fun s x _ => regionImage s (x.at_ 0xA04001 0), apply := fun x _ b s => writeRegion (x.at_ 0xA04001 0) b s },
  oCmd 0xA040 3 3 .bool fun x _ v s => onTrue (digestNow (x.at_ 0xA04001 0)) v s,
  oImage 0xA040 4 4 .domain fun s x _ => (s.region (x.at_ 0xA04001 0)).result]

/-- Power, clocks, reset and the board: 0xB000 to 0xBFFF (Tables 16-17, 17-6, 19-4). -/
def objsPower : List Obj := [
  oShow 0xB011 1 1 .u16 fun s _ => s.power.measured,
  oImage 0xB011 2 2 .domain fun s _ _ => domainPower s,
  oSet 0xB100 1 1 .u16 (fun _ => 2000) (between 400 2000) anyTime fun _ s => callPlan s,
  oSet 0xB100 2 2 .u16 (fun _ => 1200) (between 400 2000) anyTime fun _ s => callPlan s,
  oShow 0xB100 3 3 .u16 fun s _ => effectiveCap s,
  oConst 0xB100 4 4 .u16 fun _ => 1200,
  oSet 0xB101 1 16 .u8 (fun j => 16 - j) shedOk,
  oShow 0xB102 1 1 .u8 fun s _ => s.power.div,
  oShow 0xB102 2 2 .u8 fun s _ => s.power.duty,
  oRw 0xB110 1 .u8 100 85 103,
  oConst 0xB110 2 2 .u8 fun _ => 105,
  oConst 0xB110 3 3 .u8 fun _ => 110,
  oShow 0xB111 1 40 .i32 fun s j => unsigned 32 (s.power.temps.getD (j - 1) 0),
  oRw 0xB120 1 .bool 0 0 1,
  oSet 0xB120 2 2 .u8 (fun _ => 0xFF) upstreamOk,
  oCmd 0xB120 4 4 .u64 fun _ _ v s => timeSet (BitVec.ofNat 64 v) s,
  oShow 0xB120 5 5 .i32 fun s _ => unsigned 32 s.time.offset,
  oShow 0xB120 6 6 .bool fun s _ => b2n s.time.locked,
  oShow 0xB200 1 1 .u8 fun s _ => boardSignals s,
  oShow 0xB201 1 11 .u16 fun s j => s.boot.rails.getD (j - 1) 0,
  oSend 0xB300 1 .record (fun n => n == 4) fun _ b s => resetRecord b s,
  oRw 0xB301 1 .u32 100 20 1000]

/-- Counters, logs and events: 0xC000 to 0xDFFF. -/
def objsCounters : List Obj := [
  oCount 0xC401 4, oCount 0xC402 11, oCount 0xC403 11, oCount 0xC404 11, oCount 0xC405 4, oCount 0xC406 4, oCount 0xC407 9,
  oCount 0xC408 8, oCount 0xC409 11, oCount 0xC40A 6, oCount 0xC40B 10, oCount 0xC40C 6, oCount 0xC40D 6, oCount 0xC40E 6,
  oCount 0xC40F 6, oCount 0xC410 128, oCount 0xC411 128, oCount 0xC412 128, oCount 0xC413 128, oCount 0xC414 128,
  oCount 0xC415 128, oCount 0xC420 128, oCount 0xC421 128, oCount 0xC422 128, oCount 0xC423 128, oCount 0xC424 128,
  oCount 0xC425 128, oCount 0xC430 6,
  oShow 0xD000 1 1 .u64 fun s _ => s.dict.logSeq,
  oShow 0xD000 2 2 .u64 fun s _ => s.dict.logAck,
  oShow 0xD000 3 3 .u64 fun s _ => s.dict.logLost,
  oConst 0xD000 4 4 .u32 fun _ => 65536,
  oSel 0xD001 1 .u64 0 fun _ => true,
  oImage 0xD001 2 2 .domain fun s x _ => ((logFrom s.dict (x.at_ 0xD00101 0) 1024).map LogEntry.image).flatten]

/-- Every object, in ascending index and sub-index; the sub-indices 0 are apart (R376). -/
def objects : List Obj :=
  objsIdentity ++ (objsDevice ++ (objsPorts ++ (objsSwitch ++ (objsTranslation ++ (objsPool ++ (objsFurrow ++
    (objsCollectives ++ (objsSecurity ++ (objsIntegrity ++ (objsPower ++ objsCounters))))))))))

/-- The objects of an index. -/
def objsAt (index : Nat) : List Obj := objects.filter fun o => o.index == index

end Sys2Proof.Machine
end

