-- ==== Sys2Proof/Machine/DictOps.lean ====
section
/-! DEFINITION. Requests to the dictionary (R376 to R381): the order of the checks, reading and writing, selectors, block transfers, and
ConfigurationDigest (R388). -/

namespace Sys2Proof.Machine

/-- The object at an index and sub-index (R377, steps 1 and 2); sub-index 0 gives the highest sub-index in use (R376). -/
def locate (index sub : Nat) : Except Nat Obj :=
  match objsAt index with
  | [] => .error Adp.noObject
  | l =>
    if sub = 0 then .ok (oConst index 0 0 .u8 fun _ => (l.map Obj.last).foldl max 0)
    else match l.find? fun o => decide (o.first ≤ sub) && decide (sub ≤ o.last) with
      | none => .error Adp.noSub
      | some o => .ok o
/-- Whether a session may read an object (R377, step 3): a tenant's, of plot n, may read the attestation objects and its plot's own. -/
def mayRead (who : Option Nat) (o : Obj) (sub : Nat) : Bool :=
  match who with
  | none => true
  | some n => o.index == 0x9010 || o.index == 0x9300 || (o.perPlot && sub == n + 1)
/-- Steps 1 to 4 of R377 for a read. -/
def readable (who : Option Nat) (index sub : Nat) : Except Nat Obj :=
  match locate index sub with
  | .error e => .error e
  | .ok o =>
    if !mayRead who o sub then .error Adp.auth
    else if o.acc = .wo then .error Adp.writeOnly
    else .ok o
/-- Steps 1 to 4 of R377 for a write: a tenant session may write nothing. -/
def writable (who : Option Nat) (index sub : Nat) : Except Nat Obj :=
  match locate index sub with
  | .error e => .error e
  | .ok o =>
    if who.isSome then .error Adp.auth
    else if o.acc = .ro ∨ o.acc = .konst then .error Adp.readOnly
    else .ok o
/-- Whether a binary32 pattern is a NaN (Table 15-6). -/
def f32NaN (v : Nat) : Bool := decide (255 * 2 ^ 23 < v % 2 ^ 31)
/-- Step 5 of R377: length and encoding fit the type (Table 15-6). -/
def fits (o : Obj) (b : List Byte) : Bool :=
  match o.typ with
  | .bool => b.length == 1 && decide (leNat b ≤ 1)
  | .f32 => b.length == 4 && !f32NaN (leNat b)
  | .str => decide (b.length ≤ 255)
  | .domain => o.size b.length
  | .record => o.size b.length
  | t => b.length == t.bytes

/-! ConfigurationDigest (R388). -/

/-- The record of one object. -/
def digestRecord (o : Obj) (sub : Nat) (v : List Byte) : List Byte :=
  natLe 2 o.index ++ natLe 1 sub ++ natLe 1 o.typ.code ++ natLe 4 v.length ++ v
/-- The records of an object's sub-indices, or of its instances. -/
def digestRecords (s : State) (o : Obj) : List Byte :=
  if !(o.acc == .rw || o.acc == .rwg) || o.sel.isSome || !o.digest then []
  else match o.via with
    | none => ((List.range (o.last + 1 - o.first)).map fun k => digestRecord o (o.first + k) (o.value s {} (o.first + k))).flatten
    | some (key, lo, hi) =>
      ((List.range (hi + 1 - lo)).map fun k =>
        natLe 4 (lo + k) ++ digestRecord o o.first (o.value s { sel := [(key, lo + k)] } o.first)).flatten
/-- ConfigurationDigest. -/
def configDigest (s : State) : List Byte := takePad 64 (Config.shake256 ((objects.map (digestRecords s)).flatten) 64)

/-- The value of an object. -/
def objValue (o : Obj) (s : State) (x : Surface) (sub : Nat) : List Byte :=
  if o.index = 0x2000 ∧ sub = 3 then configDigest s else o.value s x sub

/-! Requests. -/

/-- What a request comes to: its result, what the response carries, and what is left behind. -/
structure DictDone where
  /-- ADP result. -/
  result : Nat
  /-- Value returned. -/
  body : List Byte := []
  /-- LAST. -/
  last : Bool := false
  /-- The sender's surface. -/
  surf : Surface
  /-- The state. -/
  state : State

/-- A request that does nothing but give a result. -/
def refuse (e : Nat) (x : Surface) (s : State) : DictDone := { result := e, surf := x, state := s }
/-- READ (R377, R381). -/
def dictRead (who : Option Nat) (index sub : Nat) (x : Surface) (s : State) : DictDone :=
  match readable who index sub with
  | .error e => refuse e x s
  | .ok o =>
    let v := objValue o s x sub
    if 1024 < v.length then refuse Adp.badType x s else { result := Adp.ok, body := v, last := false, surf := x, state := s }
/-- Apply a value of an object (R377, steps 5 to 8; R380). -/
def dictApply (o : Obj) (sub : Nat) (b : List Byte) (x : Surface) (s : State) : DictDone :=
  if !fits o b then refuse Adp.badType x s
  else
    match o.sel with
    | some (_, ok) =>
      if !ok (leNat b) then refuse Adp.range x s
      else refuse Adp.ok { x with sel := x.sel.set (256 * o.index + sub) (leNat b) } s
    | none =>
      let r := o.apply x sub b s
      refuse r.1 x r.2
/-- WRITE (R377, R381). -/
def dictWrite (who : Option Nat) (index sub : Nat) (b : List Byte) (x : Surface) (s : State) : DictDone :=
  match writable who index sub with
  | .error e => refuse e x s
  | .ok o => if 1024 < b.length then refuse Adp.badType x s else dictApply o sub b x s
/-- Whether a transfer has been idle for 10 s (R381). -/
def idle10 (s : State) (since : Nat) : Bool := elapsed s since 10000000000
/-- READ_BLOCK with blocks of at most `n` bytes (R381). -/
def dictReadBlock (who : Option Nat) (n index sub off : Nat) (x : Surface) (s : State) : DictDone :=
  match readable who index sub with
  | .error e => refuse e x s
  | .ok o =>
    if o.typ ≠ .domain then refuse Adp.badType x s
    else
      let others := x.snaps.filter fun z => !(z.index == index && z.sub == sub)
      let snap := if off = 0 then some (objValue o s x sub)
        else (x.snaps.find? fun z => z.index == index && z.sub == sub && !idle10 s z.since).map Snapshot.data
      match snap with
      | none => refuse Adp.state x s
      | some d =>
        if off ≠ 0 ∧ d.length ≤ off then refuse Adp.range x s
        else
          let b := (d.drop off).take n
          let last := decide (d.length ≤ off + b.length)
          { result := Adp.ok, body := b, last, state := s
            surf := { x with snaps := if last then others else { index, sub, data := d, since := s.now } :: others } }
/-- Most bytes a write transfer of an object collects (R381). -/
def bufferMax (index : Nat) : Nat := if index = 0xA031 then 2 ^ 23 else 2 ^ 20
/-- WRITE_BLOCK (R381): the block marked LAST applies the whole value. -/
def dictWriteBlock (who : Option Nat) (last : Bool) (index sub off : Nat) (b : List Byte) (x : Surface) (s : State) : DictDone :=
  match writable who index sub with
  | .error e => refuse e x s
  | .ok o =>
    if o.typ ≠ .domain then refuse Adp.badType x s
    else
      let have_ := if off = 0 then some []
        else match x.buf with
          | some z => if z.index == index && z.sub == sub && z.data.length == off && !idle10 s z.since then some z.data else none
          | none => none
      match have_ with
      | none => refuse Adp.range x s
      | some d =>
        if bufferMax index < (d ++ b).length then refuse Adp.badType x s
        else if last then dictApply o sub (d ++ b) { x with buf := none } s
        else refuse Adp.ok { x with buf := some { index, sub, data := d ++ b, since := s.now } } s

/-- The four requests (Tables 15-3 and 15-8). -/
inductive DictOp where
  | read
  | write
  | readBlock
  | writeBlock
  deriving DecidableEq, Repr

/-- Carry out a request with blocks of at most `n` bytes (R378: one at a time, whole). -/
def dictDo (op : DictOp) (who : Option Nat) (n : Nat) (last : Bool) (index sub off : Nat) (b : List Byte) (x : Surface) (s : State) :
    DictDone :=
  match op with
  | .read => dictRead who index sub x s
  | .write => dictWrite who index sub b x s
  | .readBlock => dictReadBlock who n index sub off x s
  | .writeBlock => if n < b.length then refuse Adp.badType x s else dictWriteBlock who last index sub off b x s

/-- Whether the management agent serves the dictionary (R378, Table 16-1): from ISLAND onward, but not while its core restarts. -/
def agentUp (s : State) : Bool :=
  !s.boot.mgmtDown && match s.boot.st with
    | .off => false
    | .starting => false
    | _ => true

/-! The mailbox (R384). -/

/-- A mailbox command completes: DONE, the count, and the doorbell. -/
def mbEnds (d : DictDone) : State :=
  let s := d.state
  let s := s.onDict fun y => { y with
    mb := d.surf, mbResult := d.result, mbDone := true, mbLast := d.last, mbLen := d.body.length, mbSeq := (y.mbSeq + 1) % 2 ^ 32
    mbData := d.body ++ y.mbData.drop d.body.length }
  ringDoorbell 5 0 s.dict.mbSeq (bump 0xC40E05 1 s)
/-- OP of DICT_MB_CMD (Table 15-8). -/
def mbOp (op : Nat) : Option DictOp :=
  match op with
  | 1 => some .read
  | 2 => some .write
  | 3 => some .readBlock
  | 4 => some .writeBlock
  | _ => none
/-- The agent carries out a mailbox command: OP, LAST, LEN and OFFSET. A command that resets the device leaves nothing to complete. -/
def mbRun (op : Nat) (last : Bool) (len off : Nat) (s : State) : State :=
  let x := s.dict.mb
  let i := s.dict.mbIndex
  let b := s.dict.mbData.take len
  let d := match mbOp op with
    | none => refuse Adp.range x s
    | some o =>
      if 4096 < len then refuse Adp.range x s
      else dictDo o none (if o = .readBlock ∧ len ≠ 0 then len else 4096) last (bits i 15 0) (bits i 23 16) off b x s
  settle (if agentUp d.state then mbEnds d else d.state)
/-- A write of DICT_MB_CMD (R384): FAIL_STATE while DONE is 0; held while the management core restarts (Table 16-12). -/
def mbCommand (op : Nat) (last : Bool) (len off : Nat) (s : State) : State :=
  viaReg (fun s =>
    if !s.dict.mbDone then regAck St.state s
    else
      let s := regAck St.ok (s.onDict fun d => { d with mbDone := false, mbResult := 0, mbLast := false, mbLen := 0 })
      if agentUp s then mbRun op last len off s else s.onDict fun d => { d with mbHeld := some (op, last, len, off) }) s
/-- The management core is back (R412): a command held in the mailbox is carried out. -/
def mgmtBack (s : State) : State :=
  if !s.boot.mgmtDown then s
  else
    let s := mgmtReturns s
    match s.dict.mbHeld with
    | none => s
    | some (op, last, len, off) => mbRun op last len off (s.onDict fun d => { d with mbHeld := none })

end Sys2Proof.Machine
end

