-- ==== Sys2Proof/Machine/AdpOps.lean ====
section
/-! DEFINITION. The management segment: ADP messages, sessions, heartbeats and the delivery of events (R366 to R375, R383). -/

namespace Sys2Proof.Machine

/-! Sessions (R370, R373, R374). -/

/-- An open session. -/
def State.session (s : State) (num : Nat) : Option Session := s.dict.sessions.find? fun x => x.num == num
/-- Update a session. -/
def State.onSession (num : Nat) (f : Session → Session) (s : State) : State :=
  s.onDict fun d => { d with sessions := updFirst (fun x => x.num == num) f d.sessions }
/-- The 32 bytes of an ADP header that the hub sends (Table 15-2). -/
def AdpResp.header (r : AdpResp) : List Byte :=
  natLe 4 (1 + 2 ^ 8 * r.typ + 2 ^ 16 * b2n r.response + 2 ^ 17 * b2n r.last) ++ natLe 4 r.session ++ natLe 8 r.seq ++
  natLe 2 r.result ++ natLe 2 r.body.length ++ natLe 4 (r.index + 2 ^ 16 * r.sub) ++ natLe 4 r.off ++ natLe 4 0
/-- The datagram of a message that the hub sends (R369, R373): header, body, and where it is tagged the KMAC256 of both, under the last 32
bytes of the session's key. -/
def adpDatagram (s : State) (r : AdpResp) : List Byte :=
  let m := r.header ++ r.body
  let key := ((s.session r.session).map fun x => x.key.drop 32).getD []
  m ++ (if r.tagged then takePad 32 (Config.kmac key m) else [])
/-- Close a session (R374): cause 0 SESSION_CLOSE, 1 timeout. -/
def closeSession (num cause : Nat) (s : State) : State :=
  raise 0x1102 [num, cause] (s.onDict fun d => { d with sessions := dropFirst (fun x => x.num == num) d.sessions })
/-- A message is discarded for its tag or its session (R373): counted, and reported at most once per second. -/
def authFailed (src : Nat) (s : State) : State :=
  let s := bump 0xC40E02 1 (s.onDict fun d => { d with authFails := d.authFails + 1 })
  if (match s.dict.authRaised with | none => true | some t => elapsed s t 1000000000) then
    let n := s.dict.authFails
    raise 0x1103 [n, src % 2 ^ 64] (s.onDict fun d => { d with authFails := 0, authRaised := some s.now })
  else s
/-- The answer to a message with a reserved TYPE, VERSION or header bit (R369). -/
def reservedAnswer (typ : Nat) (tagged : Bool) (m : AdpMsg) (s : State) : State :=
  emit (.adp { typ, session := m.session, seq := m.seq, result := Adp.range, index := m.index, sub := m.sub, off := m.off, tagged }) s
/-- A response is sent and kept among the 32 of the session's most recent sequence numbers (R370). -/
def respond (r : AdpResp) (s : State) : State :=
  let s := if r.result = Adp.ok then s else bump 0xC40E04 1 s
  emit (.adp r) (s.onSession r.session fun x => { x with kept := ((r.seq, r) :: x.kept).take 32 })
/-- A message of a session arrives (R368, R369, R370, R373): checked, and a fresh request handed on with its session. -/
def intake (typ : Nat) (m : AdpMsg) (fresh : Session → State → State) (s : State) : State :=
  if !agentUp s || !m.linkLocal then s
  else
    let x? := (s.session m.session).filter fun _ => m.tagOk
    if m.reserved || m.version != 1 then reservedAnswer typ x?.isSome m s
    else match x? with
      | none => authFailed m.src s
      | some x =>
        let s := s.onSession x.num fun y => { y with heard := s.now }
        match x.kept.find? fun k => k.1 == m.seq with
        | some k => emit (.adp k.2) s
        | none =>
          if x.lastSeq < m.seq then
            fresh x (bump 0xC40E01 1 (s.onSession x.num fun y => { y with lastSeq := m.seq }))
          else bump 0xC40E03 1 s
/-- A READ, WRITE or block request of a session (R377, R381). -/
def adpRequest (op : DictOp) (typ : Nat) (m : AdpMsg) (s : State) : State :=
  intake typ m (fun x s =>
    let d := dictDo op (x.tenant.map Prod.fst) 1024 m.last m.index m.sub m.off m.body x.surf s
    let s := d.state.onSession x.num fun y => { y with surf := d.surf }
    let r : AdpResp :=
      { typ, session := x.num, seq := m.seq, result := d.result, last := d.last, index := m.index, sub := m.sub, off := m.off
        body := d.body }
    settle (respond r s)) s
/-- The peer's HEARTBEAT (R374). -/
def heartbeatIn (m : AdpMsg) (s : State) : State :=
  intake 6 m (fun x s => respond { typ := 6, session := x.num, seq := m.seq } s) s
/-- SESSION_CLOSE (R374): by the peer, or of the hub's own accord. -/
def closeIn (own : Bool) (m : AdpMsg) (s : State) : State :=
  if own then
    match s.session m.session with
    | none => s
    | some x =>
      if !agentUp s then s
      else closeSession x.num 0 (emit (.adp { typ := 8, response := false, session := x.num, seq := x.hubSeq + 1 }) s)
  else intake 8 m (fun x s => closeSession x.num 0 (respond { typ := 8, session := x.num, seq := m.seq } s)) s
/-- No authenticated message for `AdpSessionTimeout` (R374). -/
def sessionExpires (num : Nat) (s : State) : State :=
  match s.session num with
  | none => s
  | some x => if elapsed s x.heard (1000000 * cfg 0x120003 3000 s) then closeSession num 1 s else s

/-! Heartbeats of the hub (R374). -/

/-- The body of a HEARTBEAT. -/
def beatBody (s : State) : List Byte :=
  takePad 16 Config.serialNumber ++ natLe 1 s.boot.st.code ++ natLe 2 (hubIdObj s) ++ natLe 1 (b2n s.boot.restarted) ++
    natLe 4 s.boot.restarts ++ natLe 8 s.now
/-- Whether a MANAGER session is open. -/
def managerOpen (s : State) : Bool := s.dict.sessions.any fun x => x.tenant.isNone
/-- The pre-session HEARTBEAT, once per second. -/
def preBeat (s : State) : State :=
  if agentUp s && !managerOpen s && elapsed s s.dict.preBeat 1000000000 then
    emit (.adp { typ := 6, response := false, session := 0, seq := 0, tagged := false, body := beatBody s })
      (s.onDict fun d => { d with preBeat := s.now })
  else s
/-- The hub's HEARTBEAT within a session, every `AdpHeartbeatPeriod`. -/
def sessionBeat (num : Nat) (s : State) : State :=
  match s.session num with
  | none => s
  | some x =>
    if agentUp s && elapsed s x.beat (1000000 * cfg 0x120002 1000 s) then
      emit (.adp { typ := 6, response := false, session := num, seq := x.hubSeq + 1, body := beatBody s })
        (s.onSession num fun y => { y with beat := s.now, hubSeq := y.hubSeq + 1 })
    else s

/-! Events (R383). -/

/-- The manager's response to an EVENT: it acknowledges every entry up to the last one of that request. -/
def eventAcked (num seq : Nat) (tagOk : Bool) (s : State) : State :=
  if !agentUp s then s
  else match (s.session num).filter fun _ => tagOk with
    | none => authFailed 0 s
    | some x =>
      let s := s.onSession num fun y => { y with heard := s.now }
      match x.event with
      | some (q, _, last, _) =>
        if q = seq then
          deliver ((s.onSession num fun y => { y with event := none }).onDict fun d => { d with logAck := max d.logAck last })
        else s
      | none => s
/-- An unacknowledged EVENT is sent again after 100 ms with the same SEQ. -/
def eventAgain (num : Nat) (s : State) : State :=
  match s.session num with
  | none => s
  | some x =>
    match x.event with
    | none => s
    | some (q, first, last, sent) =>
      if agentUp s && elapsed s sent 100000000 then
        let l := (logFrom s.dict first 20).filter fun e => decide (e.seq ≤ last)
        emit (.adp { typ := 5, response := false, session := num, seq := q, body := (l.map LogEntry.image).flatten })
          (s.onSession num fun y => { y with event := some (q, first, last, s.now) })
      else s

/-! Opening a session (R372, R373). -/

/-- The parts of a SESSION_OPEN response: up to 1,356 bytes each, with their offsets; the last has LAST. -/
def openParts (r : AdpResp) : Nat → Nat → List Byte → List AdpResp
  | 0, _, _ => []
  | n + 1, off, b =>
    if b.length ≤ 1356 then [{ r with off, last := true, body := b }]
    else { r with off, body := b.take 1356 } :: openParts r n (off + 1356) (b.drop 1356)
/-- A SESSION_OPEN response is sent, and its parts are kept for 10 s, keyed by the manager's nonce and SEQ. -/
def openAnswer (m : AdpMsg) (num result : Nat) (body : List Byte) (s : State) : State :=
  let parts := openParts { typ := 7, session := num, seq := m.seq, result, tagged := false } 8 0 body
  let s := if result = Adp.ok then s else bump 0xC40E04 1 s
  let s := s.onDict fun d => { d with
    keptOpens := { nonce := slice m.body 4 32, seq := m.seq, parts, since := s.now } :: d.keptOpens }
  { s with out := (parts.map Output.adp).reverse ++ s.out }
/-- A session opens: its number, and the event (Table 15-12). -/
def openSession (x : Session) (kind first8 : Nat) (s : State) : State :=
  let s := s.onDict fun d => { d with
    sessions := d.sessions ++ [{ x with heard := s.now, beat := s.now, delivered := d.logAck }], lastSession := x.num }
  raise 0x1101 [x.num, kind, first8] (bump 0xC40E06 1 s)
/-- The start of a SESSION_OPEN response (Table 15-4). -/
def openHead (num : Nat) (nonce : List Byte) : List Byte := natLe 1 0 ++ natLe 1 0 ++ natLe 2 num ++ nonce
/-- A MANAGER session (R372): the signing key is an anchor and the signature verifies; at most 4 are open (R373). The hub's nonce and
its X448 key are fresh (log entry 7). -/
def openManager (m : AdpMsg) (s : State) : State :=
  let b := m.body
  let key := slice b 92 57
  let anchors := ((List.range 4).map fun i => s.dict.odBytes.getD (0x121001 + i) []).filter fun a => !a.isEmpty
  let serial := takePad 16 Config.serialNumber
  if b.length ≠ 263 ∨ !anchors.contains key ∨ !Config.ed448Verify key (b.take 149 ++ serial) (b.drop 149) then
    openAnswer m 0 Adp.auth [] s
  else if 4 ≤ (s.dict.sessions.filter fun x => x.tenant.isNone).length then openAnswer m 0 Adp.busy [] s
  else
    let num := s.dict.lastSession + 1
    let nonce := takePad 32 (Config.random s.free 32)
    let priv := takePad 56 (Config.random (s.free + 1) 56)
    let z := Config.x448 priv (slice b 36 56)
    let sk := takePad 64 (Config.shake256 (ascii "ADPKEY01" ++ z ++ slice b 4 32 ++ nonce ++ serial) 64)
    let chain := Config.certificateChain.take 4096
    let body := openHead num nonce ++ takePad 56 (Config.x448Public priv) ++ natLe 4 chain.length ++ chain
    let s := s.drawn.drawn
    let s := openAnswer m num Adp.ok (body ++ takePad 114 (Config.ed448Sign (b ++ body))) s
    let s := s.onBoot fun x => { x with restarted := false }
    openSession { num, events := bitOf (fieldAt b 1 1) 0, key := sk } 1 (fieldAt key 0 8) s
/-- A TENANT session (R322, R372): the attestation nonce names a report whose key K the hub keeps, and the tag verifies; at most 16. -/
def openTenant (m : AdpMsg) (s : State) : State :=
  let b := m.body
  let att := slice b 36 64
  match s.key.tenants.find? fun t => t.nonce == att && b.length == 181 && takePad 32 (Config.kmac t.key (b.take 149)) == b.drop 149 with
  | none => openAnswer m 0 Adp.auth [] s
  | some t =>
    if 16 ≤ (s.dict.sessions.filter fun x => x.tenant.isSome).length then openAnswer m 0 Adp.busy [] s
    else
      let num := s.dict.lastSession + 1
      let nonce := takePad 32 (Config.random s.free 32)
      let sk := takePad 64 (Config.shake256 (ascii "ADPTEN01" ++ t.key ++ slice b 4 32 ++ nonce) 64)
      let body := openHead num nonce ++ List.replicate 56 0
      let s := openAnswer m num Adp.ok (body ++ takePad 32 (Config.kmac (sk.drop 32) body)) s.drawn
      openSession { num, tenant := some (t.plot, t.num), key := sk } 2 (fieldAt att 0 8) s
/-- SESSION_OPEN (R372): a kept response is sent again, in all its parts; a reserved KIND is refused (R10). -/
def openIn (m : AdpMsg) (s : State) : State :=
  if !agentUp s || !m.linkLocal then s
  else if m.reserved || m.version != 1 then reservedAnswer 7 false m s
  else match s.dict.keptOpens.find? fun k => k.nonce == slice m.body 4 32 && k.seq == m.seq with
    | some k => { s with out := (k.parts.map Output.adp).reverse ++ s.out }
    | none =>
      let s := bump 0xC40E01 1 s
      match fieldAt m.body 0 1 with
      | 1 => openManager m s
      | 2 => openTenant m s
      | _ => openAnswer m 0 Adp.range [] s
/-- The kept parts of a SESSION_OPEN response are discarded after 10 s (R372). -/
def openExpires (nonce : List Byte) (seq : Nat) (s : State) : State :=
  s.onDict fun d => { d with keptOpens := d.keptOpens.filter fun k => !(k.nonce == nonce && k.seq == seq && idle10 s k.since) }

/-! Idle transfers (R381), the segment's PLCA and neighbour discovery (R367, R368). -/

/-- Abandon what a surface has had idle for 10 s. -/
def dropIdle (s : State) (x : Surface) : Surface :=
  { x with snaps := x.snaps.filter fun z => !idle10 s z.since, buf := x.buf.filter fun z => !idle10 s z.since }
/-- An idle block transfer of a session, or of the mailbox, is abandoned. -/
def transferExpires (who : Option Nat) (s : State) : State :=
  match who with
  | some num => s.onSession num fun x => { x with surf := dropIdle s x.surf }
  | none => s.onDict fun d => { d with mb := dropIdle s d.mb }
/-- A BEACON is received. -/
def beaconIn (s : State) : State :=
  if fromIsland s.boot.st then s.onDict fun d => { d with beacon := true, beaconTime := s.now } else s
/-- No BEACON for 100 ms. -/
def beaconLost (s : State) : State :=
  if s.dict.beacon && elapsed s s.dict.beaconTime 100000000 then s.onDict fun d => { d with beacon := false } else s
/-- The hub's link-local address (R368): fe80::/64 with the modified EUI-64 of `MacAddress`. -/
def linkLocalAddr : List Byte :=
  let m := takePad 6 Config.macAddress
  [0xFE, 0x80, 0, 0, 0, 0, 0, 0] ++ (m.take 1).map (fun b => b ^^^ 2) ++ slice m 1 2 ++ [0xFF, 0xFE] ++ m.drop 3
/-- A neighbour solicitation for the hub's address is answered with an advertisement (R368); one for another address is not the
hub's to answer. -/
def neighbourIn (target : List Byte) (s : State) : State :=
  if agentUp s && target == linkLocalAddr then emit (.neighbour target) s else s

end Sys2Proof.Machine
end

