-- ==== Sys2Proof/Machine/Dictionary.lean ====
section
/-! DEFINITION. The meanings of the commands of the management segment and of the mailbox (R366 to R389, R412). -/

namespace Sys2Proof.Machine

/-- ADP_READ (R377). -/
def execAdpRead (m : AdpMsg) (s : State) : Host.Outcome State Fault Refusal := .next (adpRequest .read 1 m s)

/-- ADP_WRITE (R377). -/
def execAdpWrite (m : AdpMsg) (s : State) : Host.Outcome State Fault Refusal := .next (adpRequest .write 2 m s)

/-- ADP_READ_BLOCK (R381). -/
def execAdpReadBlock (m : AdpMsg) (s : State) : Host.Outcome State Fault Refusal := .next (adpRequest .readBlock 3 m s)

/-- ADP_WRITE_BLOCK (R381). -/
def execAdpWriteBlock (m : AdpMsg) (s : State) : Host.Outcome State Fault Refusal := .next (adpRequest .writeBlock 4 m s)

/-- EVENT_ACK (R383). -/
def execEventAck (session seq : Nat) (tagOk : Bool) (s : State) : Host.Outcome State Fault Refusal :=
  .next (eventAcked session seq tagOk s)

/-- EVENT_RESEND (R383). -/
def execEventResend (session : Nat) (s : State) : Host.Outcome State Fault Refusal := .next (eventAgain session s)

/-- ADP_HEARTBEAT (R374). -/
def execAdpHeartbeat (m : AdpMsg) (s : State) : Host.Outcome State Fault Refusal := .next (heartbeatIn m s)

/-- SESSION_OPEN (R372). -/
def execSessionOpen (m : AdpMsg) (s : State) : Host.Outcome State Fault Refusal := .next (openIn m s)

/-- SESSION_CLOSE (R374). -/
def execSessionClose (own : Bool) (m : AdpMsg) (s : State) : Host.Outcome State Fault Refusal := .next (closeIn own m s)

/-- PRESESSION_HEARTBEAT (R374). -/
def execPresessionHeartbeat (s : State) : Host.Outcome State Fault Refusal := .next (preBeat s)

/-- SESSION_HEARTBEAT_TIMER (R374). -/
def execSessionHeartbeatTimer (session : Nat) (s : State) : Host.Outcome State Fault Refusal := .next (sessionBeat session s)

/-- ADP_SESSION_TIMEOUT (R374). -/
def execAdpSessionTimeout (session : Nat) (s : State) : Host.Outcome State Fault Refusal := .next (sessionExpires session s)

/-- BLOCK_TRANSFER_TIMEOUT (R381). -/
def execBlockTransferTimeout (session : Option Nat) (s : State) : Host.Outcome State Fault Refusal := .next (transferExpires session s)

/-- SESSION_OPEN_PARTS_EXPIRY (R372). -/
def execSessionOpenPartsExpiry (nonce : List Byte) (seq : Nat) (s : State) : Host.Outcome State Fault Refusal :=
  .next (openExpires nonce seq s)

/-- PLCA_FALLBACK (R367). -/
def execPlcaFallback (s : State) : Host.Outcome State Fault Refusal := .next (beaconLost s)

/-- PLCA_BEACON (R367). -/
def execPlcaBeacon (s : State) : Host.Outcome State Fault Refusal := .next (beaconIn s)

/-- NEIGHBOUR_DISCOVERY (R368): a duplicate address detection probe for the hub's address is answered as a solicitation is. -/
def execNeighbourDiscovery (target : List Byte) (_dad : Bool) (s : State) : Host.Outcome State Fault Refusal :=
  .next (neighbourIn target s)

/-- MB_READ (R384). -/
def execMbRead (s : State) : Host.Outcome State Fault Refusal := .next (mbCommand 1 false 0 0 s)

/-- MB_WRITE (R384). -/
def execMbWrite (len : Nat) (s : State) : Host.Outcome State Fault Refusal := .next (mbCommand 2 false len 0 s)

/-- MB_READ_BLOCK (R384). -/
def execMbReadBlock (len off : Nat) (s : State) : Host.Outcome State Fault Refusal := .next (mbCommand 3 false len off s)

/-- MB_WRITE_BLOCK (R384). -/
def execMbWriteBlock (last : Bool) (len off : Nat) (s : State) : Host.Outcome State Fault Refusal :=
  .next (mbCommand 4 last len off s)

/-- MGMT_RESTART_DONE (R412). -/
def execMgmtRestartDone (s : State) : Host.Outcome State Fault Refusal := .next (mgmtBack s)

end Sys2Proof.Machine
end

