-- ==== Sys2Proof/Machine/Extents.lean ====
section
/-! DEFINITION. The extent commands (R126, R146, R147), and what ends them (R127, R128, R364, R365). -/

namespace Sys2Proof.Machine

/-- EXTENT_ASSIGN (R126). -/
def execExtentAssign (dict : Bool) (ext plot owner grantAll grantList role : Nat) (versioned : Bool) (s : State) :
    Host.Outcome State Fault Refusal :=
  .next (extentComes dict (assignExtent ext plot owner grantAll grantList role versioned) s)

/-- EXTENT_REVOKE (R127). -/
def execExtentRevoke (dict : Bool) (ext : Nat) (s : State) : Host.Outcome State Fault Refusal :=
  .next (extentComes dict (revokeExtent ext) s)

/-- EXTENT_REGRANT (R126). -/
def execExtentRegrant (dict : Bool) (ext grantAll grantList : Nat) (s : State) : Host.Outcome State Fault Refusal :=
  .next (extentComes dict (regrantExtent ext grantAll grantList) s)

/-- EXTENT_RELEASE (R146). -/
def execExtentRelease (dict : Bool) (ext : Nat) (s : State) : Host.Outcome State Fault Refusal :=
  .next (extentComes dict (releaseExtent ext) s)

/-- EXTENT_ADOPT (R146): ADOPT without FORCE. -/
def execExtentAdopt (dict : Bool) (ext plot owner grantAll grantList role : Nat) (versioned : Bool) (s : State) :
    Host.Outcome State Fault Refusal :=
  .next (extentComes dict (adoptExtent { ext, kind := 0, plot, owner, grantAll, grantList, role, versioned }) s)

/-- EXTENT_ADOPT_FORCE (R147). -/
def execExtentAdoptForce (dict : Bool) (ext plot owner grantAll grantList role : Nat) (versioned : Bool) (s : State) :
    Host.Outcome State Fault Refusal :=
  .next (extentComes dict (adoptExtent { ext, kind := 1, plot, owner, grantAll, grantList, role, versioned }) s)

/-- DRAIN_TIMEOUT (R127). -/
def execDrainTimeout (ext : Nat) (s : State) : Host.Outcome State Fault Refusal := .next (settle (drainExpires ext s))

/-- DRAIN_COMPLETE (R127). -/
def execDrainComplete (ext : Nat) (s : State) : Host.Outcome State Fault Refusal := .next (drainEnds ext s)

/-- SCRUB_DONE (R128). -/
def execScrubDone (ext : Nat) (s : State) : Host.Outcome State Fault Refusal := .next (scrubEnds ext s)

/-- DEVICE_CAPACITY_EVENT (R364). -/
def execDeviceCapacityEvent (ext : Nat) (answer : DevAnswer) (s : State) : Host.Outcome State Fault Refusal :=
  .next (deviceAnswers ext answer.confirmed answer.table s)

/-- CAPACITY_REMOVED (R365). -/
def execCapacityRemoved (ext : Nat) (s : State) : Host.Outcome State Fault Refusal := .next (settle (capacityTaken ext s))

end Sys2Proof.Machine
end

