-- ==== Sys2Proof/Machine/Gycia.lean ====
section
/-! DEFINITION. The requests and replies of the Gycia protocol as they arrive (chapter 2): each enters the hub, is refused in the order of
R470, goes on its way or is served by one of the hub's own nodes. -/

namespace Sys2Proof.Machine

/-- A request arrives (R28, R29, R470), and what it frees or brings about goes on. -/
def requestArrives (r : Req) (s : State) : State := settle (serve r s)

/-- READ (R33): the request arrives. -/
def execRead (via : Ingress) (h : Header) (data : List Byte) (s : State) : Host.Outcome State Fault Refusal :=
  .next (requestArrives { via, op := Op.read, h, data } s)

/-- WRITE (R33): the request arrives. -/
def execWrite (via : Ingress) (h : Header) (data : List Byte) (s : State) : Host.Outcome State Fault Refusal :=
  .next (requestArrives { via, op := Op.write, h, data } s)

/-- WRITE_MASKED (R38): the request arrives. -/
def execWriteMasked (via : Ingress) (h : Header) (data : List Byte) (s : State) : Host.Outcome State Fault Refusal :=
  .next (requestArrives { via, op := Op.writeMasked, h, data } s)

/-- ATOM_SWAP (R36): the request arrives. -/
def execAtomSwap (via : Ingress) (h : Header) (data : List Byte) (s : State) : Host.Outcome State Fault Refusal :=
  .next (requestArrives { via, op := Op.atomSwap, h, data } s)

/-- ATOM_CAS (R36): the request arrives. -/
def execAtomCas (via : Ingress) (h : Header) (data : List Byte) (s : State) : Host.Outcome State Fault Refusal :=
  .next (requestArrives { via, op := Op.atomCas, h, data } s)

/-- ATOM_ADD (R36): the request arrives. -/
def execAtomAdd (via : Ingress) (h : Header) (data : List Byte) (s : State) : Host.Outcome State Fault Refusal :=
  .next (requestArrives { via, op := Op.atomAdd, h, data } s)

/-- ATOM_MIN (R36): the request arrives. -/
def execAtomMin (via : Ingress) (h : Header) (data : List Byte) (s : State) : Host.Outcome State Fault Refusal :=
  .next (requestArrives { via, op := Op.atomMin, h, data } s)

/-- ATOM_MAX (R36): the request arrives. -/
def execAtomMax (via : Ingress) (h : Header) (data : List Byte) (s : State) : Host.Outcome State Fault Refusal :=
  .next (requestArrives { via, op := Op.atomMax, h, data } s)

/-- ATOM_AND (R36): the request arrives. -/
def execAtomAnd (via : Ingress) (h : Header) (data : List Byte) (s : State) : Host.Outcome State Fault Refusal :=
  .next (requestArrives { via, op := Op.atomAnd, h, data } s)

/-- ATOM_OR (R36): the request arrives. -/
def execAtomOr (via : Ingress) (h : Header) (data : List Byte) (s : State) : Host.Outcome State Fault Refusal :=
  .next (requestArrives { via, op := Op.atomOr, h, data } s)

/-- ATOM_XOR (R36): the request arrives. -/
def execAtomXor (via : Ingress) (h : Header) (data : List Byte) (s : State) : Host.Outcome State Fault Refusal :=
  .next (requestArrives { via, op := Op.atomXor, h, data } s)

/-- SIG_ADD (R252): the request arrives. -/
def execSigAdd (via : Ingress) (h : Header) (data : List Byte) (s : State) : Host.Outcome State Fault Refusal :=
  .next (requestArrives { via, op := Op.sigAdd, h, data } s)

/-- SIG_MAX (R252): the request arrives. -/
def execSigMax (via : Ingress) (h : Header) (data : List Byte) (s : State) : Host.Outcome State Fault Refusal :=
  .next (requestArrives { via, op := Op.sigMax, h, data } s)

/-- MSG_SEND (R207): the request arrives. -/
def execMsgSend (via : Ingress) (h : Header) (data : List Byte) (s : State) : Host.Outcome State Fault Refusal :=
  .next (requestArrives { via, op := Op.msgSend, h, data } s)

/-- COLL_NOTICE (R248): the request arrives. -/
def execCollNotice (via : Ingress) (h : Header) (data : List Byte) (s : State) : Host.Outcome State Fault Refusal :=
  .next (requestArrives { via, op := Op.collNotice, h, data } s)

/-- RED_ADD (R37): the request arrives. -/
def execRedAdd (via : Ingress) (h : Header) (data : List Byte) (s : State) : Host.Outcome State Fault Refusal :=
  .next (requestArrives { via, op := Op.redAdd, h, data } s)

/-- RED_MIN (R37): the request arrives. -/
def execRedMin (via : Ingress) (h : Header) (data : List Byte) (s : State) : Host.Outcome State Fault Refusal :=
  .next (requestArrives { via, op := Op.redMin, h, data } s)

/-- RED_MAX (R37): the request arrives. -/
def execRedMax (via : Ingress) (h : Header) (data : List Byte) (s : State) : Host.Outcome State Fault Refusal :=
  .next (requestArrives { via, op := Op.redMax, h, data } s)

/-- RED_COLL (R233): the request arrives. -/
def execRedColl (via : Ingress) (h : Header) (data : List Byte) (s : State) : Host.Outcome State Fault Refusal :=
  .next (requestArrives { via, op := Op.redColl, h, data } s)

/-- SOWING (R39): a request whose SOW is not 00 arrives, whatever its opcode. -/
def execSowing (via : Ingress) (op : Nat) (h : Header) (data : List Byte) (s : State) : Host.Outcome State Fault Refusal :=
  .next (requestArrives { via, op, h, data } s)

/-- RD_DATA (R47): a reply arrives on a port. -/
def execRdData (p : Nat) (r : Reply) (s : State) : Host.Outcome State Fault Refusal :=
  .next (settle (replyArrives p { r with op := Op.rdData } s))

/-- ATOM_DATA (R47): a reply arrives on a port. -/
def execAtomData (p : Nat) (r : Reply) (s : State) : Host.Outcome State Fault Refusal :=
  .next (settle (replyArrives p { r with op := Op.atomData } s))

/-- ACK or SOW_ACK (R47): a reply arrives on a port. -/
def execAck (p : Nat) (r : Reply) (s : State) : Host.Outcome State Fault Refusal :=
  .next (settle (replyArrives p { r with op := if r.op = Op.sowAck then Op.sowAck else Op.ack } s))

/-- FORWARD_TIMEOUT (R47): the record of a requester and tag has had no reply within `ForwardTimeout`. -/
def execForwardTimeout (p src tag : Nat) (s : State) : Host.Outcome State Fault Refusal :=
  .next (settle (recordExpires p src tag s))

/-- SIG_GATE_RELEASE (R46): the oldest held SIG request of a pair goes on. -/
def execSigGateRelease (src dst : Nat) (s : State) : Host.Outcome State Fault Refusal :=
  .next (settle (gateRelease src dst s))

end Sys2Proof.Machine
end

