-- ==== Sys2Proof/Machine/Integrity.lean ====
section
/-! DEFINITION. The commands of the integrity unit (R271-R299). -/

namespace Sys2Proof.Machine

/-- UNIT_REPLAY (R271). -/
def execUnitReplay (path unit : Nat) (of_ : ReplayOf) (clean : Bool) (s : State) : Host.Outcome State Fault Refusal :=
  .next (settle (replayed path unit of_ clean s))

/-- ARRAY_SWEEP (R273). -/
def execArraySweep (words : List SweepWord) (s : State) : Host.Outcome State Fault Refusal := .next (settle (sweep words s))

/-- BLOCK_FILL_COMPLETE (R278): the block has been read from its tier. -/
def execBlockFillComplete (blk : Nat) (reading : FillRead) (s : State) : Host.Outcome State Fault Refusal :=
  .next (settle (fillArrives blk reading.bytes reading.ecc s))

/-- BLOCK_REREAD_COMPLETE (R279): the second reading of a block whose first did not agree. -/
def execBlockRereadComplete (blk : Nat) (reading : List Byte) (s : State) : Host.Outcome State Fault Refusal :=
  .next (settle (rereadArrives blk reading s))

/-- TILTH_LOAD (R294): CHK_TILTH_CMD with OP LOAD. -/
def execTilthLoad (s : State) : Host.Outcome State Fault Refusal := .next (settle (viaRegIn (csOn s) tilthLoad s))

/-- TILTH_IMAGE (R294): the image written through the dictionary. -/
def execTilthImage (image : List Byte) (s : State) : Host.Outcome State Fault Refusal := .next (tilthWrite image s).2

/-- TILTH_RUN (R295): CHK_TILTH_CMD with OP RUN. -/
def execTilthRun (s : State) : Host.Outcome State Fault Refusal :=
  .next (viaRegIn (csOn s) (fun s => regAck St.ok (tilthRunAll s)) s)

/-- TILTH_SCHEDULE (R295). -/
def execTilthSchedule (s : State) : Host.Outcome State Fault Refusal := .next (tilthTurn s)

/-- TILTH_TEST_DONE (R296). -/
def execTilthTestDone (target test : Nat) (passed : Bool) (s : State) : Host.Outcome State Fault Refusal :=
  .next (settle (tilthTested target test passed s))

/-- DIGEST_NOW (R299): on the region that the mailbox has selected. -/
def execDigestNow (s : State) : Host.Outcome State Fault Refusal :=
  .next (digestNow (s.dict.mb.sel.getD 0xA04001 0) s).2

/-- DIGEST_INTERVAL (R297, R299). -/
def execDigestInterval (region : Nat) (s : State) : Host.Outcome State Fault Refusal := .next (digestDue region s)

/-- DIGEST_PASS_DONE (R299). -/
def execDigestPassDone (pass : DigestPass) (s : State) : Host.Outcome State Fault Refusal := .next (settle (passEnds pass s))

end Sys2Proof.Machine
end

