-- ==== Sys2Proof/Machine/Keys.lean ====
section
/-! DEFINITION. The commands of the key and isolation unit (R302-R323). -/

namespace Sys2Proof.Machine

/-- PLOT_CREATE (R312). -/
def execPlotCreate (dict : Bool) (plot : Nat) (s : State) : Host.Outcome State Fault Refusal := .next (plotComes dict 1 plot false s)

/-- PLOT_ACTIVATE (R312). -/
def execPlotActivate (dict : Bool) (plot : Nat) (s : State) : Host.Outcome State Fault Refusal := .next (plotComes dict 2 plot false s)

/-- PLOT_ROTATE (R315). -/
def execPlotRotate (dict : Bool) (plot : Nat) (s : State) : Host.Outcome State Fault Refusal := .next (plotComes dict 3 plot false s)

/-- PLOT_RETIREOLD (R317). -/
def execPlotRetireold (dict : Bool) (plot : Nat) (force : Bool) (s : State) : Host.Outcome State Fault Refusal :=
  .next (plotComes dict 4 plot force s)

/-- PLOT_FENCE (R320). -/
def execPlotFence (dict : Bool) (plot : Nat) (s : State) : Host.Outcome State Fault Refusal := .next (plotComes dict 5 plot false s)

/-- PLOT_LIFT (R320). -/
def execPlotLift (dict : Bool) (plot : Nat) (s : State) : Host.Outcome State Fault Refusal := .next (plotComes dict 6 plot false s)

/-- PLOT_REMOVE (R319). -/
def execPlotRemove (dict : Bool) (plot : Nat) (s : State) : Host.Outcome State Fault Refusal := .next (plotComes dict 7 plot false s)

/-- PLOT_REMOVE_DRAINED (R319). -/
def execPlotRemoveDrained (plot : Nat) (s : State) : Host.Outcome State Fault Refusal := .next (settle (removeGoes plot s))

/-- ROTATION_COMPLETE (R316). -/
def execRotationComplete (plot : Nat) (s : State) : Host.Outcome State Fault Refusal := .next (rotationEnds plot s)

/-- REENCRYPT_FRAME_DONE (R315). -/
def execReencryptFrameDone (frame : Nat) (s : State) : Host.Outcome State Fault Refusal := .next (reencrypted frame s)

/-- TIER3_PAIR_RESET (R308): `Tier3PairReset`. -/
def execTier3PairReset (s : State) : Host.Outcome State Fault Refusal := .next (pairReset s).2

/-- PAIR_RECORD_SLOT_WRITTEN (R308). -/
def execPairRecordSlotWritten (w : PairWrite) (s : State) : Host.Outcome State Fault Refusal := .next (pairWritten w s)

/-- ATTEST_REQUEST (R321): `AttestGo`, or KEY_ATTEST_CMD. -/
def execAttestRequest (reg : Option Nat) (s : State) : Host.Outcome State Fault Refusal :=
  match reg with
  | none => .next (attestGo s).2
  | some n => .next (viaRegIn (csOn s) (attestByReg n) s)

/-- ATTEST_REPORT_SIGNED (R321). -/
def execAttestReportSigned (dict : Bool) (s : State) : Host.Outcome State Fault Refusal := .next (settle (reportSigned dict s))

/-- TENANT_SESSION_EXPIRY (R322). -/
def execTenantSessionExpiry (report : Nat) (s : State) : Host.Outcome State Fault Refusal := .next (tenantLapses report s)

/-- DEBUG_TOKEN (R323): `DebugToken`, or KEY_DEBUG_CMD. -/
def execDebugToken (dict : Option (List Byte)) (ctx off : Nat) (s : State) : Host.Outcome State Fault Refusal :=
  match dict with
  | some b => .next (debugWrite b s).2
  | none => .next (viaRegIn (csOn s) (debugByReg ctx off) s)

end Sys2Proof.Machine
end

