-- ==== Sys2Proof/Machine/LaniaOps.lean ====
section
/-! DEFINITION. The Lania link: DMA, lanes, the doorbell ring and the companion's heartbeat (R352-R359, R392). -/

namespace Sys2Proof.Machine

/-! DMA (R353, R392). -/

/-- The place of a DMA byte in the image store: address bits [25:0] (R392). -/
def imagePlace (off i : Nat) : Nat := (off + i) % 2 ^ 26
/-- Store bytes in the image store (R392). -/
def imageStore (off : Nat) (data : List Byte) (s : State) : State :=
  s.onBoot fun b => { b with image := data.zipIdx.foldl (fun m q => FMap.put 0 m (imagePlace off q.2) q.1) b.image }
/-- Read bytes of the image store (R392). -/
def imageRead (s : State) (off n : Nat) : List Byte := (List.range n).map fun i => Mem.byte s.boot.image (imagePlace off i)

/-- One line's piece of a DMA read, as a request of node 0xC1 in plot 0. -/
def dmaRead (s : State) (ctx off len : Nat) : Req :=
  { via := .host, op := Op.read, h := { ctx, dst := nodeOf s 0xC0, len, opa := BitVec.ofNat 48 off } }
/-- One piece of a DMA write. -/
def dmaWrite (s : State) (ctx : Nat) (p : Nat × Nat × Nat × List Byte) : Req :=
  { via := .host, op := p.1, h := { ctx, dst := nodeOf s 0xC0, len := p.2.2.1, opa := BitVec.ofNat 48 p.2.1 }, data := p.2.2.2 }
/-- The pieces of a DMA request take their turn behind those of the requests before it (R353); a request past 1,024 is not taken (DESIGN
CHOICE: Table 14-2 gives the number outstanding and not what becomes of one more; log entry 52). -/
def dmaQueue (l : List Req) (s : State) : State :=
  if 1024 ≤ s.lania.dmas.length then s else dmaMoves (s.onLania fun x => { x with dmas := x.dmas ++ [l] })
/-- A DMA request of the host (R353, R392): the image store in ISLAND, the pool in TRAINED, VERIFIED and SERVICE, else refused. -/
def dma (write : Bool) (ctx off len : Nat) (data : List Byte) (s : State) : State :=
  let n := if write then data.length else len
  if !s.lania.up then s
  else if n < 128 ∨ 4096 < n then emit (.dma St.malformed []) s
  else if s.boot.st = .island then
    if write then emit (.dma St.ok []) (imageStore off data s) else emit (.dma St.ok (imageRead s off len)) s
  else if !trainedUp s then emit (.dma St.state []) s
  else if write then dmaQueue ((rangeWrites off data).map (dmaWrite s ctx)) s
  else dmaQueue ((cutLines (len / 128 + 2) off len).map fun p => dmaRead s ctx p.1 p.2) s

/-- A DBL read of the host in a ring of `size` bytes at a plot 0 address (R353). DESIGN CHOICE: an offset past the ring wraps, and while the
control-and-storage domain is off the read is refused with FAIL_STATE; the manual gives neither (log entry 57). -/
def ringRead (base size off len : Nat) (s : State) : State :=
  if !s.lania.up then s
  else if !csOn s then emit (.dbl St.state []) s
  else emit (.dbl St.ok ((List.range len).map fun i => Mem.byte s.mem (base + (off + i) % size))) s
/-- A data access of the host (R353, Table 14-2): DMA, or a DBL read of the fault queue (256 KiB) or of the nomination ring (16 KiB). -/
def hostData (kind : HostData) (ctx off len : Nat) (data : List Byte) (s : State) : State :=
  match kind with
  | .read => dma false ctx off len data s
  | .write => dma true ctx off len data s
  | .faultRing => ringRead (2 ^ 18 * s.xlt.fqBase) (2 ^ 18) off len s
  | .nomRing => ringRead (2 ^ 14 * s.pool.nomBase) (2 ^ 14) off len s

/-! The link (R352, R359). -/

/-- Whether a half of the lanes, 0 for 0-7 and 1 for 8-15, holds lock but for the lanes given. -/
def halfHolds (bad : List Nat) (h : Nat) : Bool := bad.all fun l => l / 8 != h
/-- A lane loses lock (R352): the link retrains at the half that holds lock. With no such half the link is lost in its turn. -/
def laneFailsLania (lane : Nat) (s : State) : State :=
  if !s.lania.up || decide (16 ≤ lane) || s.lania.badLanes.contains lane then s
  else
    let bad := s.lania.badLanes ++ [lane]
    let s1 := s.onLania fun l => { l with badLanes := bad }
    if s.lania.width = 8 then s1
    else if halfHolds bad 0 then raise 0x2103 [lane, 0] (s1.onLania fun l => { l with width := 8 })
    else if halfHolds bad 1 then raise 0x2103 [lane, 1] (s1.onLania fun l => { l with width := 8 })
    else s1
/-- The link is lost (R352, R358). -/
def linkLost (s : State) : State :=
  if !s.lania.up then s
  else
    let s := s.onLania fun l => { l with up := false }
    if s.lania.trained then companionLost 1 s else s
/-- The link trains (R354, R359), from ISLAND onward while PWR_GOOD is high. -/
def linkTrains (s : State) : State :=
  if s.boot.st = .off ∨ s.boot.st = .starting then s
  else s.onLania fun l => { l with up := true, trained := true, width := 16, badLanes := [] }

/-! Doorbells and heartbeats (R355, R357-R359). -/

/-- A write of DBQ_RING_CONS (R355, R107). -/
def consumeBells (v : Nat) (s : State) : State :=
  match consumed s.lania.cons (v % 1024) 1024 s.lania.unread.length with
  | none => s
  | some k => s.onLania fun l => { l with cons := v % 1024, unread := l.unread.drop k }
/-- A write of DBQ_RING_BASE (Table 14-4): the address only while ENABLE is 0. -/
def bellBase (v : Nat) (s : State) : State :=
  s.onLania fun l => { l with enable := bitOf v 0, base := if l.enable then l.base else v / 2 ^ 14 }
/-- A write of DBQ_HEARTBEAT (R357, R359): it attaches a companion, or restores one. -/
def heartbeat (v : U64) (s : State) : State :=
  let lost := s.lania.comp == .lost
  let ms := (s.now - s.lania.lostSince) / 1000000
  let s := s.onLania fun l => { l with beat := some s.now, beatValue := v, comp := .attached }
  if lost then raise 0x2102 [s.lania.width, ms] s else s
/-- More than a heartbeat period has passed since the last write (R358). -/
def heartbeatExpires (s : State) : State :=
  match s.lania.beat with
  | none => s
  | some t => if t + 1000 * cfg 0x204001 1000 s < s.now then companionLost 0 s else s

end Sys2Proof.Machine
end

