-- ==== Sys2Proof/Machine/Lania.lean ====
section
/-! DEFINITION. The commands of the Lania link and of the doorbell ring (R352-R359). -/

namespace Sys2Proof.Machine

/-- LANIA_DMA (R353, R392). -/
def execLaniaDma (kind : HostData) (ctx : Nat) (off : U48) (len : Nat) (data : List Byte) (s : State) :
    Host.Outcome State Fault Refusal :=
  .next (settle (hostData kind ctx off.toNat len data s))

/-- LANIA_LANE_FAIL (R352). -/
def execLaniaLaneFail (lane : Nat) (s : State) : Host.Outcome State Fault Refusal := .next (laneFailsLania lane s)

/-- LANIA_LINK_LOST (R352, R358). -/
def execLaniaLinkLost (s : State) : Host.Outcome State Fault Refusal := .next (settle (linkLost s))

/-- LANIA_LINK_TRAINED (R359). -/
def execLaniaLinkTrained (s : State) : Host.Outcome State Fault Refusal := .next (linkTrains s)

/-- DOORBELL_WRITE (R355). -/
def execDoorbellWrite (s : State) : Host.Outcome State Fault Refusal := .next (doorbellDrain s)

/-- DBQ_CONSUME (R355): a write of DBQ_RING_CONS. -/
def execDbqConsume (v : Nat) (s : State) : Host.Outcome State Fault Refusal :=
  .next (viaReg (fun s => regAck St.ok (consumeBells v s)) s)

/-- DBQ_HEARTBEAT (R357, R359). -/
def execDbqHeartbeat (v : U64) (s : State) : Host.Outcome State Fault Refusal :=
  .next (viaReg (fun s => regAck St.ok (heartbeat v s)) s)

/-- HEARTBEAT_TIMEOUT (R358). -/
def execHeartbeatTimeout (s : State) : Host.Outcome State Fault Refusal := .next (settle (heartbeatExpires s))

end Sys2Proof.Machine
end

