-- ==== Sys2Proof/Machine/Ports.lean ====
section
/-! DEFINITION. The commands of the port complex: port commands, training, dormancy, link frames, lanes, eyes and optics (chapter 13),
and the key exchange of a link (R309, R310). -/

namespace Sys2Proof.Machine

/-- PORT_ENABLE (R332). -/
def execPortEnable (dict : Bool) (p : Nat) (s : State) : Host.Outcome State Fault Refusal :=
  .next (settle (portComes dict p 1 s))

/-- PORT_DISABLE (R332). -/
def execPortDisable (dict : Bool) (p : Nat) (s : State) : Host.Outcome State Fault Refusal :=
  .next (settle (portComes dict p 2 s))

/-- PORT_DORMANT (R335). -/
def execPortDormant (dict : Bool) (p : Nat) (s : State) : Host.Outcome State Fault Refusal :=
  .next (settle (portComes dict p 3 s))

/-- PORT_WAKE (R335). -/
def execPortWake (dict : Bool) (p : Nat) (s : State) : Host.Outcome State Fault Refusal := .next (settle (portComes dict p 4 s))

/-- PORT_HOLD (R332). -/
def execPortHold (dict : Bool) (p : Nat) (s : State) : Host.Outcome State Fault Refusal := .next (settle (portComes dict p 5 s))

/-- PORT_RELEASE (R332). -/
def execPortRelease (dict : Bool) (p : Nat) (s : State) : Host.Outcome State Fault Refusal :=
  .next (settle (portComes dict p 6 s))

/-- LIGHT_DETECTED (R331, R335, R345). -/
def execLightDetected (p : Nat) (s : State) : Host.Outcome State Fault Refusal := .next (lightComes p s)

/-- LANE_CONVERGED (R333). -/
def execLaneConverged (e : Nat) (j : LaneLock) (s : State) : Host.Outcome State Fault Refusal := .next (laneConverges e j s)

/-- LANE_ALOCK (R333). -/
def execLaneAlock (e j : Nat) (w : LaneWords) (s : State) : Host.Outcome State Fault Refusal :=
  .next (settleLost s (laneLocks e j w s))

/-- PORT_SLIP_CMD (R334). -/
def execPortSlipCmd (e mask : Nat) (s : State) : Host.Outcome State Fault Refusal :=
  .next (viaRegIn (domainOn s e) (fun s => regAck St.ok (slipCircuits e mask s)) s)

/-- TRAINING_TIMEOUT (R331). -/
def execTrainingTimeout (p : Nat) (s : State) : Host.Outcome State Fault Refusal := .next (trainExpires p s)

/-- IDENT_FRAME (R347). -/
def execIdentFrame (f : FrameIn) (body : List Byte) (s : State) : Host.Outcome State Fault Refusal :=
  .next (settle (identArrives f body (blocksArrive f.light.port f.light.blocks s)))

/-- IDENT_RESEND (R347). -/
def execIdentResend (p : Nat) (s : State) : Host.Outcome State Fault Refusal := .next (identAgain p s)

/-- PLAN_WAIT_TIMEOUT (R347). -/
def execPlanWaitTimeout (p : Nat) (s : State) : Host.Outcome State Fault Refusal := .next (planWaits p s)

/-- DORMANT_FRAME (R335). -/
def execDormantFrame (f : FrameIn) (s : State) : Host.Outcome State Fault Refusal :=
  .next (settle (dormantArrives f (blocksArrive f.light.port f.light.blocks s)))

/-- DORMANT_SETTLE (R335). -/
def execDormantSettle (p : Nat) (s : State) : Host.Outcome State Fault Refusal := .next (dormantSettles p s)

/-- DORMANT_TIMEOUT (R335). -/
def execDormantTimeout (p : Nat) (s : State) : Host.Outcome State Fault Refusal := .next (settle (dormantExpires p s))

/-- WAKE_SEQUENCE_DONE (R335). -/
def execWakeSequenceDone (p : Nat) (s : State) : Host.Outcome State Fault Refusal := .next (settle (portWakes p s))

/-- GYCIA_FRAME (R337, R338). -/
def execGyciaFrame (p : Light) (seq plot : Nat) (intact tagOk : Bool) (packets : List Packet) (s : State) :
    Host.Outcome State Fault Refusal :=
  .next (settle (gyciaArrives { light := p, seq, intact, tagOk } plot packets (blocksArrive p.port p.blocks s)))

/-- LINK_FRAME (R339). -/
def execLinkFrame (p : Light) (ackSeq : Nat) (nak : Bool) (mem sig msg red rxlock : Nat) (s : State) :
    Host.Outcome State Fault Refusal :=
  .next (settle (linkArrives p.port ackSeq nak mem sig msg red rxlock (blocksArrive p.port p.blocks s)))

/-- LINK_FRAME_TIMER (R339). -/
def execLinkFrameTimer (p : Nat) (s : State) : Host.Outcome State Fault Refusal := .next (linkTimer p s)

/-- ACK_STALL_TIMEOUT (R341). -/
def execAckStallTimeout (p : Nat) (s : State) : Host.Outcome State Fault Refusal := .next (ackStalls p s)

/-- RETRAIN_COMPLETE (R341). -/
def execRetrainComplete (p : Nat) (s : State) : Host.Outcome State Fault Refusal := .next (retrainEnds p s)

/-- RETRAIN_TIMEOUT (R341, R345). -/
def execRetrainTimeout (p : Nat) (s : State) : Host.Outcome State Fault Refusal := .next (settle (retrainExpires p s))

/-- LANE_FAILURE (R342). -/
def execLaneFailure (e j : Nat) (rxLost : Bool) (s : State) : Host.Outcome State Fault Refusal :=
  .next (settle (laneFails e j rxLost s))

/-- SPARE_JOINED (R344). -/
def execSpareJoined (e j : Nat) (s : State) : Host.Outcome State Fault Refusal := .next (spareJoins e j s)

/-- PORT_LOST (R345): the lanes that still hold signal are too few. -/
def execPortLost (p lanes : Nat) (s : State) : Host.Outcome State Fault Refusal := .next (settle (signalLost p lanes s))

/-- EYE_POINT_DONE (R346). -/
def execEyePointDone (e : Nat) (results : List (Nat × Nat)) (s : State) : Host.Outcome State Fault Refusal :=
  .next (eyeEnds e results s)

/-- EYE_SCAN_PERIOD (R346). -/
def execEyeScanPeriod (results : List (Nat × Nat × Nat × Nat × Nat)) (s : State) : Host.Outcome State Fault Refusal :=
  .next (eyePeriod results s)

/-- OPT_HEALTH_POLL (R343). -/
def execOptHealthPoll (e : Nat) (lanes : List (Int × Int × Int)) (lasers : List Int) (s : State) :
    Host.Outcome State Fault Refusal := .next (settleLost s (optPoll e lanes lasers s))

/-- LASER_INPUT_LOSS (R326). -/
def execLaserInputLoss (e f : Nat) (power : Int) (s : State) : Host.Outcome State Fault Refusal :=
  .next (laserMeasure e f power s)

/-- LANE_RELOCK (R344). -/
def execLaneRelock (e j : Nat) (s : State) : Host.Outcome State Fault Refusal := .next (laneRelocks e j s)

/-- KEYX_FRAME (R309). -/
def execKeyxFrame (f : FrameIn) (chain pub sig : List Byte) (hub : Bool) (s : State) : Host.Outcome State Fault Refusal :=
  .next (settle (keyxArrives f chain pub sig hub (blocksArrive f.light.port f.light.blocks s)))

/-- LINK_REKEY (R310). -/
def execLinkRekey (p : Nat) (s : State) : Host.Outcome State Fault Refusal := .next (rekeyDue p s)

/-- EYE_SCAN_POINT (R346): PORT_EYE_CMD with START. -/
def execEyeScanPoint (e lanes phase volt eye dwell : Nat) (s : State) : Host.Outcome State Fault Refusal :=
  .next (viaRegIn (domainOn s e) (fun s =>
    let r := eyeBegins e lanes phase volt eye dwell s
    regAck r.1 r.2) s)

end Sys2Proof.Machine
end

