-- ==== Sys2Proof/Machine/Power.lean ====
section
/-! DEFINITION. The commands of caps, sensors, clusters and the time base (R417-R433). -/

namespace Sys2Proof.Machine

/-- CAP_ALERT_ASSERT (R423, R457). -/
def execCapAlertAssert (s : State) : Host.Outcome State Fault Refusal := .next (settle (alertFalls s))

/-- CAP_ALERT_RELEASE (R424). -/
def execCapAlertRelease (s : State) : Host.Outcome State Fault Refusal := .next (alertRises s)

/-- POWER_SAMPLE (R422). -/
def execPowerSample (watts : List Nat) (island : Nat) (s : State) : Host.Outcome State Fault Refusal :=
  .next (powerSampled watts island s)

/-- POWER_PLAN_DONE (R424-R426). -/
def execPowerPlanDone (s : State) : Host.Outcome State Fault Refusal := .next (settle (planDone s))

/-- TEMP_SAMPLE (R427, R429). -/
def execTempSample (temps : List Int) (s : State) : Host.Outcome State Fault Refusal := .next (settle (tempSampled temps s))

/-- THERMAL_CAP_STEP (R428). -/
def execThermalCapStep (s : State) : Host.Outcome State Fault Refusal := .next (thermalSteps s)

/-- THERMAL_TRIP (R430). -/
def execThermalTrip (sensor : Nat) (s : State) : Host.Outcome State Fault Refusal := .next (settle (thermalTrips sensor s))

/-- CLUSTER_POWER_ON_DONE (R417). -/
def execClusterPowerOnDone (cluster : Nat) (fails : List KatFail) (s : State) : Host.Outcome State Fault Refusal :=
  .next (settle (clusterReady cluster fails s))

/-- CLUSTER_POWER_OFF (R417). -/
def execClusterPowerOff (cluster : Nat) (s : State) : Host.Outcome State Fault Refusal := .next (clusterIdles cluster s)

/-- TIME_SET (R433): `TimeSet`. -/
def execTimeSet (v : U64) (s : State) : Host.Outcome State Fault Refusal := .next ((timeSet v s).2)

end Sys2Proof.Machine
end

