-- ==== Sys2Proof/Machine/VersionCmds.lean ====
section
/-! DEFINITION. Version commands (R132, R133, R135) and their completions (R133, R134). -/

namespace Sys2Proof.Machine

/-- The payload of a version command (Table 5-8). -/
def versionPayload (op ext version : Nat) : List Byte := natLe 2 op ++ natLe 2 ext ++ natLe 4 0 ++ natLe 6 version ++ natLe 2 0

/-- POOL_VERSION_CMD (R132): the command acts for the local end point named in NODE, on the version of POOL_VERSION_ARG. -/
def versionRegister (op node ext : Nat) (s : State) : State :=
  match nodePlot s node with
  | none => versionOutcome (.reg node) St.protection s
  | some n => versionArrives (.reg node) true (nodeOf s node) n op ext s.pool.verArg s

/-- A version command comes with its source (R132): a message to node 0xC0, QUEUE 1, or POOL_VERSION_ARG and POOL_VERSION_CMD. -/
def versionComes (op : Nat) (src : VerSource) (ext version : Nat) (s : State) : State :=
  match src with
  | .msg via h =>
    settle (serve { via, op := Op.msgSend, h := { h with len := 16, opb := h.opb % 256 + 256 }
                    data := versionPayload op (ext % 65536) version } s)
  | .reg node =>
    settle (viaRegIn (csOn s) (fun s => regAck St.ok
      (versionRegister op (node % 256) (ext % 65536) (s.onPool fun p => { p with verArg := version % 2 ^ 48 }))) s)

/-- VERSION_OPEN (R132). -/
def execVersionOpen (src : VerSource) (ext version : Nat) (s : State) : Host.Outcome State Fault Refusal :=
  .next (versionComes 1 src ext version s)

/-- VERSION_CLOSE (R132). -/
def execVersionClose (src : VerSource) (ext version : Nat) (s : State) : Host.Outcome State Fault Refusal :=
  .next (versionComes 2 src ext version s)

/-- VERSION_PUBLISH (R133). -/
def execVersionPublish (src : VerSource) (ext version : Nat) (s : State) : Host.Outcome State Fault Refusal :=
  .next (versionComes 3 src ext version s)

/-- VERSION_RETIRE (R135). -/
def execVersionRetire (src : VerSource) (ext version : Nat) (s : State) : Host.Outcome State Fault Refusal :=
  .next (versionComes 4 src ext version s)

/-- PUBLISH_COMPLETE (R133): the oldest PUBLISH of an extent is acknowledged once every write accepted before it has been applied. -/
def execPublishComplete (ext : Nat) (s : State) : Host.Outcome State Fault Refusal := .next (settle (publishAck ext s))

/-- Whether a wait is for the copy of a page. -/
def WaitFor.copies (x i : Nat) : WaitFor → Bool
  | .copyPage y j => x == y && i == j
  | _ => false

/-- The versions for whose copy of a page the waiting writes ask (R134). -/
def copyAsked (s : State) (x i : Nat) : List Nat :=
  s.pool.waiting.filterMap fun w => if WaitFor.copies x i w.what then w.copy else none

/-- The copy of a page that a write waits for has been made (R134, R136); of several versions asked for, the oldest first. -/
def copyMade (x i : Nat) (s : State) : State :=
  match copyAsked s x i with
  | [] => s
  | v :: l =>
    let v := l.foldl min v
    if s.pool.waiting.any fun w => opWrites w.req.op && paExt s w.pa == some x && decide (w.latest < v) && w.pa / frameBytes == workFrame s x i then s
    else makeCopy x i (some v) s

/-- COPY_ON_WRITE_DONE (R134). -/
def execCopyOnWriteDone (ext page : Nat) (s : State) : Host.Outcome State Fault Refusal := .next (settle (copyMade ext page s))

end Sys2Proof.Machine
end

