-- ==== Sys2Proof/Machine/Watches.lean ====
section
/-! DEFINITION. Watch commands and firings (R256-R262, R267). -/

namespace Sys2Proof.Machine

/-- A write of SYNC_WATCH_CMD (R269): the command of its 32 bytes, issued for node 0xC1 of plot 0. -/
def watchRegister (cmd : List Byte) (s : State) : State :=
  let q := watchCommand true (nodeOf s 0xC1) 0 (takePad 32 cmd) s
  q.2.onSync fun y => { y with watchCmd := takePad 32 cmd, watchStatus := q.1 }

/-- A watch command arrives (Table 10-1): as an MSG_SEND to node 0xC0, QUEUE 3, or through SYNC_WATCH_CMD. -/
def watchArrives (op : Nat) (src : WatchSource) (cmd : List Byte) (s : State) : State :=
  let cmd := match takePad 32 cmd with
    | b :: rest => BitVec.ofNat 8 (b.toNat / 16 * 16 + op) :: rest
    | [] => []
  match src with
  | .msg via h =>
    settle (serve { via, op := Op.msgSend, h := { h with len := 32, opb := h.opb % 256 + 3 * 256 }, data := cmd } s)
  | .reg => viaRegIn (csOn s) (fun s => regAck St.ok (watchRegister cmd s)) s

/-- WATCH_ARM (R256, R257): a watch command with OP ARM. -/
def execWatchArm (src : WatchSource) (cmd : List Byte) (s : State) : Host.Outcome State Fault Refusal :=
  .next (watchArrives 1 src cmd s)

/-- WATCH_DISARM (R257): a watch command with OP DISARM. -/
def execWatchDisarm (src : WatchSource) (cmd : List Byte) (s : State) : Host.Outcome State Fault Refusal :=
  .next (watchArrives 2 src cmd s)

/-- WATCH_FIRING (R259): up to four firings of the watches that are due. -/
def execWatchFiring (s : State) : Host.Outcome State Fault Refusal := .next (settle (fireSome 4 s))

/-- FIRING_RETRY (R267): the oldest refused firing message is sent again. -/
def execFiringRetry (s : State) : Host.Outcome State Fault Refusal := .next (settle (firingAgain s))

/-- FIRING_RETRY_TIMEOUT (R267): a firing message refused for `FiringRetryTimeout` is dropped. -/
def execFiringRetryTimeout (s : State) : Host.Outcome State Fault Refusal := .next (firingExpires s)

end Sys2Proof.Machine
end

