-- ==== Sys2Proof/Machine/RegOps.lean ====
section
/-! DEFINITION. A REG write of any register of the window (R353, R354, Table 14-3): the registers of each block and what a write does. A
register takes the eight bytes at its offset; a 4-byte write of a plain register changes the half it covers, and one of a command
register issues the command with the bits above 31 zero, or nothing where it covers the upper half alone (log entry 110). -/

namespace Sys2Proof.Machine

/-- A REG write: window offset, size in bytes, value. -/
structure RegW where
  /-- Offset. -/
  off : Nat
  /-- Bytes. -/
  size : Nat
  /-- Value. -/
  v : Nat

/-- What a write leaves in a register that held a value. -/
def RegW.merge (w : RegW) (old : Nat) : Nat :=
  if w.size = 8 then w.v
  else if w.off % 8 = 0 then old / 2 ^ 32 * 2 ^ 32 + w.v % 2 ^ 32
  else w.v % 2 ^ 32 * 2 ^ 32 + old % 2 ^ 32
/-- The command that a write issues. -/
def RegW.command (w : RegW) : Option Nat :=
  if w.size = 8 then some w.v else if w.off % 8 = 0 then some (w.v % 2 ^ 32) else none
/-- The bytes of a write. -/
def RegW.bytes (w : RegW) : List Byte := natLe w.size w.v

/-- A byte buffer after bytes have been written at an offset. -/
def putAt (l : List Byte) (off : Nat) (b : List Byte) : List Byte := l.take off ++ b ++ l.drop (off + b.length)

/-- A write of a register that is read only, or that holds a result: ignored (R10). -/
def regKeeps (s : State) : State := regAck St.ok s
/-- A write of a plain register. -/
def regPlain (w : RegW) (old : State → Nat) (f : Nat → State → State) (s : State) : State := regAck St.ok (f (w.merge (old s)) s)
/-- A write of a command register; `f` answers it. -/
def regCmd (w : RegW) (f : Nat → State → State) (s : State) : State :=
  match w.command with
  | none => regAck St.ok s
  | some v => f v s
/-- The same, where the command's outcome is in a result register and the write is answered OK. -/
def regDo (w : RegW) (f : Nat → State → State) (s : State) : State := regCmd w (fun v s => regAck St.ok (f v s)) s

/-- Write the objects a register mirrors: all of them, or none. -/
def mirrored (l : List (Nat × Nat × List Byte)) (s : State) : Nat × State :=
  l.foldl (fun r x =>
    if r.1 ≠ Adp.ok then r
    else
      let d := dictWrite none x.1 x.2.1 x.2.2 {} r.2
      (d.result, d.state)) (Adp.ok, s)
/-- A write of a register that mirrors objects (R385). -/
def regMirror (off : Nat) (l : List (Nat × Nat × List Byte)) (s : State) : State :=
  let r := mirrored l s
  if r.1 = Adp.ok then regAck St.ok r.2
  else regAck (if r.1 = Adp.state then St.state else St.ok) (s.onDict fun d => { d with mirResult := r.1, mirOff := off })

/-! The blocks: a register's offset in its block, and what a write does; `none` where the offset is unassigned. -/

/-- BOOT_CMD by its code (Table 16-2). A write here finds no CXL device and no failing part; the rows of these commands carry what
a start finds (log entry 110). -/
def bootCode (v : Nat) (s : State) : State :=
  match v % 16 with
  | 1 => bootWrite (fun st => st == .island) bootLoad s
  | 2 => bootWrite (fun st => st == .loaded) bootMeasure s
  | 3 => bootWrite (fun st => st == .measured) bootClock s
  | 4 => bootWrite (fun st => st == .clocked) (bootPower []) s
  | 5 => bootWrite (fun st => st == .powered) (bootTrain [] []) s
  | 6 => bootWrite (fun st => st == .trained) (bootVerify []) s
  | 7 => bootWrite (fun st => st == .verified) bootServe s
  | 8 => bootWrite fromIsland (restart false) s
  | _ => bootWrite (fun _ => false) id s
/-- BOOT (Table 16-13). -/
def regBoot (w : RegW) (o : Nat) : Option (State → State) :=
  match o with
  | 0x08 => some (regCmd w bootCode)
  | 0x18 => some (regPlain w (fun s => s.boot.imgLen) fun v s => s.onBoot fun b => { b with imgLen := v % 2 ^ 27 })
  | 0x20 => some (regPlain w (fun s => s.boot.mask) fun v s =>
      if s.boot.st = .clocked then s.onBoot fun b => { b with mask := v % 2 ^ 36 } else s)
  | 0x200 => some (regCmd w fun v s => settle (resetReg (resetCommand (bits v 1 0) (bitOf v 2) (bits v 15 8)) s))
  | o => if o = 0 ∨ o = 0x10 ∨ (0x40 ≤ o ∧ o < 0x80) ∨ o = 0x208 then some regKeeps else none
/-- PWR (Tables 17-6, 19-10). -/
def regPwr (w : RegW) (o : Nat) : Option (State → State) :=
  match o with
  | 0x18 => some (regCmd w fun v s => regMirror 0x100018 [(0xB100, 1, natLe 2 v)] s)
  | o => if o = 0 ∨ o = 0x08 ∨ o = 0x10 ∨ (0x100 ≤ o ∧ o < 0x240) ∨ o = 0x200 ∨ o = 0x208 ∨ (0x300 ≤ o ∧ o < 0x360) then some regKeeps else none
/-- PORT group e (Table 13-12). -/
def regPort (w : RegW) (e o : Nat) : Option (State → State) :=
  match o with
  | 0x08 => some (regDo w fun v s => slipCircuits e (bits v 33 0) s)
  | 0x18 => some (regCmd w fun v s => portByReg (8 * e + bits v 2 0) (bits v 11 8) s)
  | 0x400 => some (regCmd w fun v s =>
      if !bitOf v 55 then
        regAck St.ok (eyeKeeps e { lanes := bits v 33 0, phase := bits v 39 34, volt := bits v 46 40, eye := bits v 48 47, dwell := bits v 54 49 } s)
      else
        let r := eyeBegins e (bits v 33 0) (bits v 39 34) (bits v 46 40) (bits v 48 47) (bits v 54 49) s
        regAck r.1 r.2)
  | o =>
    if o = 0 ∨ o = 0x10 ∨ o = 0x20 ∨ (0x100 ≤ o ∧ o < 0x210) ∨ o = 0x408 ∨ (0x500 ≤ o ∧ o < 0x610) ∨ (0x800 ≤ o ∧ o < 0x900) ∨
        (0xA00 ≤ o ∧ o < 0xA10) then some regKeeps
    else none
/-- SWC (Table 3-7). -/
def regSwc (w : RegW) (o : Nat) : Option (State → State) :=
  match o with
  | 0 => some (regCmd w fun v s =>
      regMirror 0x400000 [(0x4040, 2, natLe 1 (bits v 0 0)), (0x4040, 3, natLe 1 (bits v 7 1)), (0x4040, 4, natLe 2 (bits v 18 8))] s)
  | o => if o = 0x08 ∨ o = 0x100 ∨ (0x1000 ≤ o ∧ o < 0x1480) then some regKeeps else none
/-- XLT_CTX_CMD (Table 4-8). DESIGN CHOICE: a reserved OP, 00 or 11, is refused with FAIL_STATE; chapter 4 names no status for it
(log entry 51). -/
def ctxCode (v : Nat) (s : State) : State :=
  match bits v 17 16 with
  | 1 => createCtx (bits v 15 0) (bitOf v 18) s
  | 2 => destroyCtx (bits v 15 0) s
  | _ => ctxResult St.state s
/-- XLT (Table 4-7). -/
def regXlt (w : RegW) (o : Nat) : Option (State → State) :=
  match o with
  | 0x00 => some (regPlain w (fun s => 2 ^ 12 * s.xlt.ctxRoot) fun v s => s.onXlt fun x => { x with ctxRoot := bits v 47 12 })
  | 0x08 => some (regDo w fun v s => settle (ctxCode v s))
  | 0x100 => some (regDo w fun v s => settle (publishGen (BitVec.ofNat 64 v) s))
  | 0x200 => some (regPlain w (fun s => s.xlt.shootCtx + 2 ^ 16 * s.xlt.shootPage) fun v s => s.onXlt fun x => { x with
      shootCtx := bits v 15 0, shootPage := bits v 47 16 })
  | 0x208 => some (regDo w fun v s => shoot (bits v 31 0) s)
  | 0x300 => some (regPlain w (fun s => b2n s.xlt.fqEnable + 2 ^ 18 * s.xlt.fqBase) fun v s => s.onXlt fun x => { x with
      fqEnable := bitOf v 0, fqBase := if x.fqEnable then x.fqBase else bits v 47 18 })
  | 0x310 => some (regDo w fun v s => consumeFaults (bits v 11 0) s)
  | 0x318 => some (regDo w fun v s => settle (resolveFault (bits v 11 0) (if bitOf v 12 then some (bits v 20 13) else none) s))
  | o => if o = 0x10 ∨ o = 0x108 ∨ o = 0x210 ∨ o = 0x218 ∨ o = 0x308 ∨ o = 0x320 then some regKeeps else none
/-- POOL_EXTENT_CMD (Table 5-6). -/
def extentCode (v : Nat) (s : State) : State :=
  let x := bits v 15 0
  let plot := bits v 23 20
  let owner := bits v 31 24
  let all := bits v 33 32
  let list := bits v 43 34
  let role := bits v 45 44
  let versioned := bitOf v 46
  extentReg (fun s => match bits v 19 16 with
    | 1 => assignExtent x plot owner all list role versioned s
    | 2 => revokeExtent x s
    | 3 => regrantExtent x all list s
    | 4 => releaseExtent x s
    | 5 => adoptExtent { ext := x, kind := b2n (bitOf v 47), plot, owner, grantAll := all, grantList := list, role, versioned } s
    | _ => (Adp.range, s)) s
/-- POOL (Table 5-12). -/
def regPool (w : RegW) (o : Nat) : Option (State → State) :=
  match o with
  | 0x00 => some (regDo w fun v s => settle (extentCode v s))
  | 0x100 => some (regDo w fun v s => settle (versionRegister (bits v 19 16) (bits v 27 20) (bits v 15 0) s))
  | 0x108 => some (regPlain w (fun s => s.pool.verArg) fun v s => s.onPool fun p => { p with verArg := v % 2 ^ 48 })
  | 0x200 => some (regDo w fun v s => migrate (bits v 15 0) (bits v 27 16) (bitOf v 28) s)
  | 0x208 => some (regPlain w (fun s => 2 ^ 16 * s.pool.migTarget) fun v s => s.onPool fun p => { p with migTarget := bits v 47 16 })
  | 0x300 => some (regPlain w (fun s => b2n s.pool.nomEnable + 2 ^ 14 * s.pool.nomBase) fun v s => s.onPool fun p => { p with
      nomEnable := bitOf v 0, nomBase := if p.nomEnable then p.nomBase else bits v 47 14 })
  | 0x310 => some (regDo w fun v s => consumeNoms (bits v 9 0) s)
  | o => if o = 0x08 ∨ o = 0x110 ∨ o = 0x210 ∨ o = 0x308 then some regKeeps else none
/-- FUR_CMD of core c (Table 8-10): a reserved OP is refused. -/
def furCode (c v : Nat) (s : State) : State :=
  match bits v 3 0 with
  | 1 => loadStart c s
  | 2 => coreStart c (bits v 31 16) (bits v 47 32) s
  | 3 => settle (coreStop c (bits v 31 16) s)
  | 4 => coreUnload c s
  | _ => furResult c St.state 0 0 s
/-- FUR, core c (Table 8-10). -/
def regFur (w : RegW) (c o : Nat) : Option (State → State) :=
  match o with
  | 0x08 => some (regPlain w (fun s => (s.core c).srcCtx + 2 ^ 16 * (s.core c).srcOff) fun v s => s.onCore c fun k => { k with
      srcCtx := bits v 15 0, srcOff := bits v 63 16 })
  | 0x10 => some (regPlain w (fun s => (s.core c).loadLen) fun v s => s.onCore c fun k => { k with loadLen := bits v 19 0 })
  | 0x18 => some (regDo w (furCode c))
  | o => if o = 0 ∨ o = 0x20 ∨ (0x40 ≤ o ∧ o < 0x80) ∨ (0x100 ≤ o ∧ o < 0x500) then some regKeeps else none
/-- COLL (Table 9-13). -/
def regColl (w : RegW) (o : Nat) : Option (State → State) :=
  match o with
  | 0x10000 => some (regDo w fun v s => settle (abortReg (bits v 11 0) (bits v 63 32) s))
  | o => if o < 0x8000 ∨ o = 0x10008 ∨ o = 0x10010 then some regKeeps else none
/-- A write of part of SYNC_WATCH_CMD: the word at +0x1C issues the command. -/
def regWatch (w : RegW) (o : Nat) (s : State) : State :=
  let at_ := o - 0x100 + w.off % 8
  let cmd := putAt s.sync.watchCmd at_ w.bytes
  regAck St.ok (if 0x1C < at_ + w.size then settle (watchRegister cmd s) else s.onSync fun y => { y with watchCmd := cmd })
/-- SYNC (Table 10-5). -/
def regSync (w : RegW) (o : Nat) : Option (State → State) :=
  match o with
  | 0x00 => some (regPlain w (fun s => s.sync.ctrSelect) fun v s => s.onSync fun y => { y with ctrSelect := v % 2 ^ 16 })
  | o =>
    if 0x100 ≤ o ∧ o < 0x120 then some (regWatch w o)
    else if o = 0x08 ∨ o = 0x10 ∨ o = 0x120 ∨ (0x10000 ≤ o ∧ o < 0x30000) then some regKeeps
    else none
/-- CHK (Table 11-9): a reserved OP is refused. -/
def regChk (w : RegW) (o : Nat) : Option (State → State) :=
  match o with
  | 0x00 => some (regPlain w (fun s => s.chk.srcCtx + 2 ^ 16 * s.chk.srcOff) fun v s => s.onChk fun c => { c with
      srcCtx := bits v 15 0, srcOff := bits v 63 16 })
  | 0x08 => some (regPlain w (fun s => s.chk.tilthLen) fun v s => s.onChk fun c => { c with tilthLen := v % 2 ^ 24 })
  | 0x10 => some (regCmd w fun v s =>
      match bits v 3 0 with
      | 1 => settle (tilthLoad s)
      | 2 => regAck St.ok (tilthRunAll s)
      | _ => regAck St.ok (tilthResult St.state 0 s))
  | o => if o = 0x18 then some regKeeps else none
/-- KEY (Table 12-10). -/
def regKey (w : RegW) (o : Nat) : Option (State → State) :=
  match o with
  | 0x00 => some (regCmd w fun v s => settle (plotByReg (bits v 7 4) (bits v 3 0) (bitOf v 8) s))
  | 0x100 => some (regPlain w (fun s => s.key.attSrcCtx + 2 ^ 16 * s.key.attSrcOff) fun v s => s.onKey fun k => { k with
      attSrcCtx := bits v 15 0, attSrcOff := bits v 63 16 })
  | 0x108 => some (regPlain w (fun s => s.key.attDstCtx + 2 ^ 16 * s.key.attDstOff) fun v s => s.onKey fun k => { k with
      attDstCtx := bits v 15 0, attDstOff := bits v 63 16 })
  | 0x110 => some (regCmd w fun v s => attestByReg (bits v 3 0) s)
  | 0x200 => some (regCmd w fun v s => debugByReg (bits v 63 48) (bits v 47 0) s)
  | o => if o = 0x08 ∨ (0x10 ≤ o ∧ o < 0x58) ∨ o = 0x118 ∨ o = 0x208 then some regKeeps else none
/-- DICT (Table 15-8). -/
def regDict (w : RegW) (o : Nat) : Option (State → State) :=
  match o with
  | 0x00 => some (regPlain w (fun s => s.dict.mbIndex) fun v s => s.onDict fun d => { d with mbIndex := v % 2 ^ 24 })
  | 0x08 => some (regCmd w fun v s => mbCommand (bits v 3 0) (bitOf v 4) (bits v 28 16) (bits v 63 32) s)
  | o =>
    if 0x10000 ≤ o ∧ o < 0x11000 then
      some fun s => regAck St.ok (s.onDict fun d => { d with mbData := putAt d.mbData (o - 0x10000 + w.off % 8) w.bytes })
    else if o = 0x10 ∨ o = 0x18 ∨ o = 0x20 ∨ (0x400000 ≤ o ∧ o < 0x800000) then some regKeeps
    else none
/-- DBQ (Table 14-4). -/
def regDbq (w : RegW) (o : Nat) : Option (State → State) :=
  match o with
  | 0x00 => some (regPlain w (fun s => b2n s.lania.enable + 2 ^ 14 * s.lania.base) bellBase)
  | 0x10 => some (regDo w fun v s => consumeBells (bits v 9 0) s)
  | 0x18 => some (regPlain w (fun s => s.lania.beatValue.toNat) fun v s => heartbeat (BitVec.ofNat 64 v) s)
  | o => if o = 0x08 ∨ o = 0x20 then some regKeeps else none

/-- The block of an offset (Table 14-3): whether its power domain is on, and what a write of the register there does. Offsets outside
the window are in none. -/
def regBlock (w : RegW) (s : State) : Bool × Option (State → State) :=
  let o := w.off / 8 * 8
  if o < 0x100000 then (true, regBoot w o)
  else if o < 0x200000 then (true, regPwr w (o - 0x100000))
  else if o < 0x400000 then
    let e := (o - 0x200000) / 0x20000
    (domainOn s e, regPort w e (o % 0x20000))
  else if o < 0x500000 then (domainOn s 16 || domainOn s 17, regSwc w (o - 0x400000))
  else if o < 0x600000 then (csOn s, regXlt w (o - 0x500000))
  else if o < 0x800000 then (csOn s, regPool w (o - 0x600000))
  else if o < 0xC00000 then
    let c := (o - 0x800000) / 0x10000
    (coreOn s c, regFur w c (o % 0x10000))
  else if o < 0xD00000 then (csOn s, regColl w (o - 0xC00000))
  else if o < 0xE00000 then (csOn s, regSync w (o - 0xD00000))
  else if o < 0xF00000 then (csOn s, regChk w (o - 0xE00000))
  else if o < 0x1000000 then (csOn s, regKey w (o - 0xF00000))
  else if o < 0x2000000 then (true, regDict w (o - 0x1000000))
  else if o < 0x4000000 then (true, regDbq w (o - 0x2000000))
  else (true, none)
/-- A REG write (R353, R354): misaligned or of another size FAIL_MALFORMED; a block without power FAIL_STATE; an unassigned offset OK
and counted; else the register's own. -/
def regWriteAt (w : RegW) (s : State) : State :=
  viaReg (fun s =>
    if (w.size ≠ 4 ∧ w.size ≠ 8) ∨ w.off % w.size ≠ 0 then regAck St.malformed s
    else
      let q := regBlock w s
      if !q.1 then regAck St.state s
      else match q.2 with
        | none => regAck St.ok (bump 0xC40D02 1 s)
        | some f => f s) s

end Sys2Proof.Machine
end

