-- ==== Sys2Proof/Machine/RegReads.lean ====
section
/-! DEFINITION. A REG read of any register of the window (R353, R354, Table 14-3): what each register shows. The opcode table has no row
of its own for a read: REG_WRITE carries it (log entry 57). A read changes nothing of what it shows. -/

namespace Sys2Proof.Machine

/-- What a register of 8 bytes shows: its bits, and the bits of it that are write only, which the manual gives no value on a read and
which read as a free value (log entry 57). -/
structure RegView where
  /-- The bits shown. -/
  v : Nat := 0
  /-- The bits that are write only. -/
  wo : Nat := 0
  deriving DecidableEq, Repr

/-- A register all of whose bits have a value. -/
def shown (v : Nat) : Option RegView := some { v }
/-- A command register: the bits its fields cover are write only, reserved ones read as zero (R10). -/
def writeOnly (fields : Nat) : Option RegView := some { wo := fields }
/-- The eight bytes of a byte buffer at an offset. -/
def shownBytes (l : List Byte) (off : Nat) : Option RegView := shown (leNat ((l.drop off).take 8))
/-- A status with a DONE or BUSY bit in bit 8. -/
def statusBit (st : Nat) (b : Bool) : Option RegView := shown (st + 2 ^ 8 * b2n b)

/-- BOOT (Table 16-13). -/
def viewBoot (s : State) (o : Nat) : Option RegView :=
  let b := s.boot
  match o with
  | 0 => shown (b.st.code + 2 ^ 4 * b2n b.run.isSome + 2 ^ 8 * b.cause)
  | 0x08 => writeOnly (2 ^ 4 - 1)
  | 0x10 => shown (b.resStatus + 2 ^ 8 * b.resDetail + 2 ^ 16 * b2n b.resDone)
  | 0x18 => shown b.imgLen
  | 0x20 => shown b.mask
  | 0x200 => writeOnly (7 + 0xFF00)
  | 0x208 => statusBit b.rstStatus b.rstDone
  | o => if 0x40 ≤ o ∧ o < 0x80 then shownBytes b.digest (o - 0x40) else none
/-- PWR (Tables 17-6, 17-7, 19-10). -/
def viewPwr (s : State) (o : Nat) : Option RegView :=
  let p := s.power
  match o with
  | 0 => shown (p.measured + 2 ^ 16 * effectiveCap s + 2 ^ 32 * b2n s.boot.capAlert + 2 ^ 33 * b2n p.thermalCap.isSome +
      2 ^ 34 * b2n (!p.shed.isEmpty))
  | 0x08 => shown (p.div + 2 ^ 4 * p.duty + 2 ^ 9 * b2n (p.clampAlert || p.clampHot))
  | 0x10 => shown ((p.shed.map fun g => 2 ^ g.1).sum)
  | 0x18 => shown (cfg 0xB10001 2000 s)
  | 0x200 => shown s.now
  | 0x208 => shown (b2n s.time.locked + 2 * cfg 0xB12001 0 s + 2 ^ 32 * unsigned 32 s.time.offset)
  | 0x300 => shown (boardSignals s)
  | o =>
    if 0x100 ≤ o ∧ o < 0x240 then shown (unsigned 16 (p.temps.getD ((o - 0x100) / 8) 0))
    else if 0x308 ≤ o ∧ o < 0x360 then shown (s.boot.rails.getD ((o - 0x308) / 8) 0)
    else none
/-- PORT, group e (Table 13-12). -/
def viewPort (s : State) (e o : Nat) : Option RegView :=
  match o with
  | 0 => shown (groupStatus s e)
  | 0x08 => writeOnly (2 ^ 34 - 1)
  | 0x10 => shown (slipStatus s e)
  | 0x18 => writeOnly 0xF07
  | 0x20 => shown (s.ports.cmdStatus.getD e 0)
  | 0x400 => writeOnly (2 ^ 56 - 1)
  | 0x408 => shown (s.ports.eyeDone.getD e 0)
  | o =>
    if 0x100 ≤ o ∧ o < 0x210 then shown (laneStatus s e ((o - 0x100) / 8))
    else if 0x500 ≤ o ∧ o < 0x610 then shown (eyeResultOf s e ((o - 0x500) / 8))
    else if 0x800 ≤ o ∧ o < 0x900 then shown (optLane s e ((o - 0x800) / 8))
    else if 0xA00 ≤ o ∧ o < 0xA10 then shown (optLaser s e ((o - 0xA00) / 8))
    else none
/-- SWC (Tables 3-7 to 3-10); SWC_SPILL_CTRL shows the objects it mirrors. -/
def viewSwc (s : State) (o : Nat) : Option RegView :=
  match o with
  | 0 => shown (cfg 0x404002 1 s + 2 * cfg 0x404003 75 s + 2 ^ 8 * cfg 0x404004 128 s)
  | 0x08 => shown (spillStatus s)
  | 0x100 => shown (gleanerStatus s)
  | o => if 0x1000 ≤ o ∧ o < 0x1480 then shown (tileStatus s ((o - 0x1000) / 8)) else none
/-- XLT (Table 4-7). -/
def viewXlt (s : State) (o : Nat) : Option RegView :=
  let x := s.xlt
  match o with
  | 0x00 => shown (2 ^ 12 * x.ctxRoot)
  | 0x08 => writeOnly (2 ^ 19 - 1)
  | 0x10 => statusBit x.ctxStatus x.ctxDone
  | 0x100 => writeOnly (2 ^ 64 - 1)
  | 0x108 => shown x.genAck.toNat
  | 0x200 => shown (x.shootCtx + 2 ^ 16 * x.shootPage)
  | 0x208 => writeOnly (2 ^ 32 - 1)
  | 0x210 => shown (x.shootStatus + 2 ^ 32 * x.shootEpoch)
  | 0x218 => shown x.shootDone
  | 0x300 => shown (b2n x.fqEnable + 2 ^ 18 * x.fqBase)
  | 0x308 => shown (x.fqProd + 2 ^ 12 * b2n x.fqPhase)
  | 0x310 => shown x.fqCons
  | 0x318 => writeOnly (2 ^ 21 - 1)
  | 0x320 => shown x.faultStatus
  | _ => none
/-- POOL (Table 5-12). -/
def viewPool (s : State) (o : Nat) : Option RegView :=
  let p := s.pool
  match o with
  | 0x00 => writeOnly (2 ^ 48 - 1)
  | 0x08 => statusBit p.extStatus (extentBusy s)
  | 0x100 => writeOnly (2 ^ 28 - 1)
  | 0x108 => shown p.verArg
  | 0x110 => shown p.verStatus
  | 0x200 => writeOnly (2 ^ 29 - 1)
  | 0x208 => shown (2 ^ 16 * p.migTarget)
  | 0x210 => statusBit p.migStatus p.migDone
  | 0x300 => shown (b2n p.nomEnable + 2 ^ 14 * p.nomBase)
  | 0x308 => shown (p.nomProd + 2 ^ 10 * b2n p.nomPhase)
  | 0x310 => shown p.nomCons
  | _ => none
/-- FUR, core c (Table 8-10). -/
def viewFur (s : State) (c o : Nat) : Option RegView :=
  let k := s.core c
  match o with
  | 0 => shown (coreEngines s c + 2 ^ 8 * ((corePlot s c).getD 0xF) + 2 ^ 12 * coreStateCode s c)
  | 0x08 => shown (k.srcCtx + 2 ^ 16 * k.srcOff)
  | 0x10 => shown k.loadLen
  | 0x18 => writeOnly (0xF + 0xFFFFFFFF0000)
  | 0x20 => shown (k.resStatus + 2 ^ 8 * k.resReason + 2 ^ 16 * k.resIndex + 2 ^ 32 * b2n k.resDone)
  | o =>
    if 0x40 ≤ o ∧ o < 0x80 then shownBytes k.digest (o - 0x40)
    else if 0x100 ≤ o ∧ o < 0x500 then
      let x := s.thread c ((o - 0x100) / 64)
      shownBytes (x.image x.time) ((o - 0x100) % 64)
    else none
/-- COLL (Table 9-13). -/
def viewColl (s : State) (o : Nat) : Option RegView :=
  match o with
  | 0x10000 => writeOnly (0xFFF + 0xFFFFFFFF00000000)
  | 0x10008 => shown s.coll.abortStatus
  | 0x10010 => shown (executing s)
  | o =>
    if o < 0x8000 then shown (groupState s (o / 8) + 2 ^ 32 * ((s.group (o / 8)).map Group.next).getD 0)
    else none
/-- STATE of a watch (Table 10-6). -/
def WatchSt.code : WatchSt → Nat
  | .free => 0
  | .reserved => 1
  | .armed => 2
/-- MODE of a watch (Table 10-2). -/
def WatchMode.code : WatchMode → Nat
  | .once => 0
  | .claim => 1
  | .rearm => 2
/-- ACTION of a watch (Table 10-6). -/
def WatchAct.code : WatchAct → Nat
  | .msg => 0
  | .doorbell => 1
  | .wake => 2
/-- SYNC_WATCH_STATE (Table 10-6). -/
def watchState (s : State) (w : Nat) : Nat :=
  let x := s.watch w
  x.st.code + 2 ^ 2 * x.mode.code + 2 ^ 4 * x.act.code + 2 ^ 6 * x.ctr + 2 ^ 22 * x.owner + 2 ^ 38 * x.pending +
    2 ^ 54 * (watchPlot s w).getD 0
/-- SYNC (Table 10-5). -/
def viewSync (s : State) (o : Nat) : Option RegView :=
  let y := s.sync
  match o with
  | 0x00 => shown y.ctrSelect
  | 0x08 => shown (y.ctrs.getD y.ctrSelect 0).toNat
  | 0x10 => shown (y.grants.getD y.ctrSelect 0)
  | 0x120 => shown y.watchStatus
  | o =>
    if 0x100 ≤ o ∧ o < 0x120 then shownBytes y.watchCmd (o - 0x100)
    else if 0x10000 ≤ o ∧ o < 0x30000 then shown (watchState s ((o - 0x10000) / 8))
    else none
/-- CHK (Table 11-9). -/
def viewChk (s : State) (o : Nat) : Option RegView :=
  let c := s.chk
  match o with
  | 0x00 => shown (c.srcCtx + 2 ^ 16 * c.srcOff)
  | 0x08 => shown c.tilthLen
  | 0x10 => writeOnly 0xF
  | 0x18 => shown (c.tilthStatus + 2 ^ 8 * c.tilthReason + 2 ^ 16 * b2n c.tilthDone)
  | _ => none
/-- KEY_PLOT_STATE (Table 12-10); frames count under the old generation while a rotation is in progress. -/
def plotState (s : State) (n : Nat) : Nat :=
  let x := s.plot n
  x.st.code + 2 ^ 3 * b2n x.rotating + 2 ^ 16 * x.rot +
    2 ^ 32 * min 0xFFFFFFFF (if x.rotating then (oldFrames s n).length else 0)
/-- KEY (Table 12-10). -/
def viewKey (s : State) (o : Nat) : Option RegView :=
  let k := s.key
  match o with
  | 0x00 => writeOnly 0x1FF
  | 0x08 => statusBit k.plotStatus k.plotDone
  | 0x100 => shown (k.attSrcCtx + 2 ^ 16 * k.attSrcOff)
  | 0x108 => shown (k.attDstCtx + 2 ^ 16 * k.attDstOff)
  | 0x110 => writeOnly 0xF
  | 0x118 => shown (k.attStatus + 2 ^ 8 * b2n k.attDone + 2 ^ 32 * k.attLen)
  | 0x200 => writeOnly (2 ^ 64 - 1)
  | 0x208 => statusBit k.debugStatus k.debug
  | o => if 0x10 ≤ o ∧ o < 0x58 then shown (plotState s ((o - 0x10) / 8)) else none
/-- DICT (Table 15-8). -/
def viewDict (s : State) (o : Nat) : Option RegView :=
  let d := s.dict
  match o with
  | 0x00 => shown d.mbIndex
  | 0x08 => writeOnly (0x1F + 0x1FFF0000 + 0xFFFFFFFF00000000)
  | 0x10 => shown (d.mbResult + 2 ^ 16 * b2n d.mbDone + 2 ^ 17 * b2n d.mbLast + 2 ^ 32 * d.mbLen)
  | 0x18 => shown d.mbSeq
  | 0x20 => shown (d.mirResult + 2 ^ 32 * d.mirOff)
  | o =>
    if 0x10000 ≤ o ∧ o < 0x11000 then shownBytes d.mbData (o - 0x10000)
    else if 0x400000 ≤ o ∧ o < 0x800000 then
      let i := (o - 0x400000) / 64
      shownBytes (((d.log.find? fun e => e.seq % 65536 == i).map LogEntry.image).getD []) ((o - 0x400000) % 64)
    else none
/-- DBQ (Table 14-4). -/
def viewDbq (s : State) (o : Nat) : Option RegView :=
  let l := s.lania
  match o with
  | 0x00 => shown (b2n l.enable + 2 ^ 14 * l.base)
  | 0x08 => shown (l.prod + 2 ^ 10 * b2n l.phase)
  | 0x10 => shown l.cons
  | 0x18 => shown l.beatValue.toNat
  | 0x20 => shown (compCode s + 2 ^ 2 * b2n (l.width == 8))
  | _ => none

/-- What the register at an 8-byte offset of the window shows (Table 14-3); none where the offset is unassigned. -/
def regView (s : State) (o : Nat) : Option RegView :=
  if o < 0x100000 then viewBoot s o
  else if o < 0x200000 then viewPwr s (o - 0x100000)
  else if o < 0x400000 then viewPort s ((o - 0x200000) / 0x20000) (o % 0x20000)
  else if o < 0x500000 then viewSwc s (o - 0x400000)
  else if o < 0x600000 then viewXlt s (o - 0x500000)
  else if o < 0x800000 then viewPool s (o - 0x600000)
  else if o < 0xC00000 then viewFur s ((o - 0x800000) / 0x10000) (o % 0x10000)
  else if o < 0xD00000 then viewColl s (o - 0xC00000)
  else if o < 0xE00000 then viewSync s (o - 0xD00000)
  else if o < 0xF00000 then viewChk s (o - 0xE00000)
  else if o < 0x1000000 then viewKey s (o - 0xF00000)
  else if o < 0x2000000 then viewDict s (o - 0x1000000)
  else if o < 0x4000000 then viewDbq s (o - 0x2000000)
  else none

/-- The bits a read of a register answers: a write-only bit takes that bit of the free value. -/
def RegView.read (x : RegView) (free : U64) : Nat := (BitVec.ofNat 64 x.v ||| (free &&& BitVec.ofNat 64 x.wo)).toNat
/-- The bytes of a read at an offset within the 8 bytes of a register. -/
def readHalf (off size v : Nat) : Nat := v / 2 ^ (8 * (off % 8)) % 2 ^ (8 * size)
/-- A REG read (R353, R354): misaligned or of another size FAIL_MALFORMED; a block without power FAIL_STATE; an unassigned offset OK and
counted; each with zero. Else OK with what the register shows. -/
def regReadAt (off size : Nat) (s : State) : State :=
  viaReg (fun s =>
    if (size ≠ 4 ∧ size ≠ 8) ∨ off % size ≠ 0 then emit (.regRead St.malformed 0) s
    else if !(regBlock { off, size, v := 0 } s).1 then emit (.regRead St.state 0) s
    else match regView s (off / 8 * 8) with
      | none => emit (.regRead St.ok 0) (bump 0xC40D02 1 s)
      | some x => emit (.regRead St.ok (readHalf off size (x.read s.draw))) (if x.wo = 0 then s else s.drawn)) s

end Sys2Proof.Machine
end

