-- ==== Sys2Proof/Machine/Registers.lean ====
section
/-! DEFINITION. The REG access by offset (R354). -/

namespace Sys2Proof.Machine

/-- REG_WRITE (R354): a REG write, or a REG read (log entry 57). -/
def execRegWrite (off size : Nat) (v : RegData) (s : State) : Host.Outcome State Fault Refusal :=
  match v with
  | .write v => .next (regWriteAt { off, size, v := v.toNat } s)
  | .read => .next (regReadAt off size s)

end Sys2Proof.Machine
end

