-- ==== Sys2Proof/Machine/Switching.lean ====
section
/-! DEFINITION. The switch core at work (chapter 3): forwarding, spill, the egress and the Gleaner. -/

namespace Sys2Proof.Machine

/-- FRAME_FORWARD (R64): the head frame of a flow leaves its ingress tile. -/
def execFrameForward (ingress egress cls : Nat) (s : State) : Host.Outcome State Fault Refusal :=
  .next (settle (forwardHead ingress egress cls s))

/-- SPILL_ENTRY (R79): the test of an ingress and class. -/
def execSpillEntry (ingress cls : Nat) (s : State) : Host.Outcome State Fault Refusal :=
  .next (spillTest ingress cls s)

/-- SPILL_READBACK (R80, R81, R83): the next frame of a spilled flow is read back. -/
def execSpillReadback (ingress egress cls : Nat) (intact : Bool) (s : State) : Host.Outcome State Fault Refusal :=
  .next (settle (spillRead ingress egress cls intact s))

/-- GLEANER_AUDIT (R84-R86): the cells that the walk finds on no list. -/
def execGleanerAudit (found : List LostCell) (s : State) : Host.Outcome State Fault Refusal :=
  .next (settle (audit found s))

/-- EGRESS_FRAME_TRANSMIT (R66): the oldest frame of an egress stage is sent. -/
def execEgressFrameTransmit (p : Nat) (s : State) : Host.Outcome State Fault Refusal :=
  .next (transmit p s)

end Sys2Proof.Machine
end

