-- ==== Sys2Proof/Machine/Dispatch.lean ====
section
/-! DEFINITION. The meaning of each command: one arm for each row of the opcode table. -/

namespace Sys2Proof.Machine

def exec (i : Instr) (s : State) : Host.Outcome State Fault Refusal :=
  match i with
  | .read via h data => Sys2Proof.Machine.execRead via h data s
  | .write via h data => Sys2Proof.Machine.execWrite via h data s
  | .writeMasked via h data => Sys2Proof.Machine.execWriteMasked via h data s
  | .atomSwap via h data => Sys2Proof.Machine.execAtomSwap via h data s
  | .atomCas via h data => Sys2Proof.Machine.execAtomCas via h data s
  | .atomAdd via h data => Sys2Proof.Machine.execAtomAdd via h data s
  | .atomMin via h data => Sys2Proof.Machine.execAtomMin via h data s
  | .atomMax via h data => Sys2Proof.Machine.execAtomMax via h data s
  | .atomAnd via h data => Sys2Proof.Machine.execAtomAnd via h data s
  | .atomOr via h data => Sys2Proof.Machine.execAtomOr via h data s
  | .atomXor via h data => Sys2Proof.Machine.execAtomXor via h data s
  | .sigAdd via h data => Sys2Proof.Machine.execSigAdd via h data s
  | .sigMax via h data => Sys2Proof.Machine.execSigMax via h data s
  | .msgSend via h data => Sys2Proof.Machine.execMsgSend via h data s
  | .collNotice via h data => Sys2Proof.Machine.execCollNotice via h data s
  | .redAdd via h data => Sys2Proof.Machine.execRedAdd via h data s
  | .redMin via h data => Sys2Proof.Machine.execRedMin via h data s
  | .redMax via h data => Sys2Proof.Machine.execRedMax via h data s
  | .redColl via h data => Sys2Proof.Machine.execRedColl via h data s
  | .sowing via op h data => Sys2Proof.Machine.execSowing via op h data s
  | .rdData p r => Sys2Proof.Machine.execRdData p r s
  | .atomData p r => Sys2Proof.Machine.execAtomData p r s
  | .ack p r => Sys2Proof.Machine.execAck p r s
  | .forwardTimeout p src tag => Sys2Proof.Machine.execForwardTimeout p src tag s
  | .sigGateRelease src dst => Sys2Proof.Machine.execSigGateRelease src dst s
  | .frameForward ingress egress cls => Sys2Proof.Machine.execFrameForward ingress egress cls s
  | .spillEntry ingress cls => Sys2Proof.Machine.execSpillEntry ingress cls s
  | .spillReadback ingress egress cls intact => Sys2Proof.Machine.execSpillReadback ingress egress cls intact s
  | .gleanerAudit found => Sys2Proof.Machine.execGleanerAudit found s
  | .egressFrameTransmit p => Sys2Proof.Machine.execEgressFrameTransmit p s
  | .ctxCreate ctx fail => Sys2Proof.Machine.execCtxCreate ctx fail s
  | .ctxDestroy ctx => Sys2Proof.Machine.execCtxDestroy ctx s
  | .ctxSlotFreed ctx => Sys2Proof.Machine.execCtxSlotFreed ctx s
  | .genPublish gen => Sys2Proof.Machine.execGenPublish gen s
  | .walkComplete core ctx page => Sys2Proof.Machine.execWalkComplete core ctx page s
  | .faultRecordWrite entry => Sys2Proof.Machine.execFaultRecordWrite entry s
  | .faultDeferredRecord => Sys2Proof.Machine.execFaultDeferredRecord s
  | .faultDoorbellRepeat => Sys2Proof.Machine.execFaultDoorbellRepeat s
  | .fqConsume v => Sys2Proof.Machine.execFqConsume v s
  | .faultResolveRetry entry => Sys2Proof.Machine.execFaultResolveRetry entry s
  | .faultResolveFail entry status => Sys2Proof.Machine.execFaultResolveFail entry status s
  | .faultExpired entry => Sys2Proof.Machine.execFaultExpired entry s
  | .shootCmd pages => Sys2Proof.Machine.execShootCmd pages s
  | .epochAdvance => Sys2Proof.Machine.execEpochAdvance s
  | .shootComplete => Sys2Proof.Machine.execShootComplete s
  | .extentAssign dict ext plot owner grantAll grantList role versioned => Sys2Proof.Machine.execExtentAssign dict ext plot owner grantAll grantList role versioned s
  | .extentRevoke dict ext => Sys2Proof.Machine.execExtentRevoke dict ext s
  | .extentRegrant dict ext grantAll grantList => Sys2Proof.Machine.execExtentRegrant dict ext grantAll grantList s
  | .extentRelease dict ext => Sys2Proof.Machine.execExtentRelease dict ext s
  | .extentAdopt dict ext plot owner grantAll grantList role versioned => Sys2Proof.Machine.execExtentAdopt dict ext plot owner grantAll grantList role versioned s
  | .extentAdoptForce dict ext plot owner grantAll grantList role versioned => Sys2Proof.Machine.execExtentAdoptForce dict ext plot owner grantAll grantList role versioned s
  | .drainTimeout ext => Sys2Proof.Machine.execDrainTimeout ext s
  | .drainComplete ext => Sys2Proof.Machine.execDrainComplete ext s
  | .scrubDone ext => Sys2Proof.Machine.execScrubDone ext s
  | .tierTimeout q => Sys2Proof.Machine.execTierTimeout q s
  | .versionOpen src ext version => Sys2Proof.Machine.execVersionOpen src ext version s
  | .versionClose src ext version => Sys2Proof.Machine.execVersionClose src ext version s
  | .versionPublish src ext version => Sys2Proof.Machine.execVersionPublish src ext version s
  | .versionRetire src ext version => Sys2Proof.Machine.execVersionRetire src ext version s
  | .publishComplete ext => Sys2Proof.Machine.execPublishComplete ext s
  | .copyOnWriteDone ext page => Sys2Proof.Machine.execCopyOnWriteDone ext page s
  | .decayPeriodEnd => Sys2Proof.Machine.execDecayPeriodEnd s
  | .nomConsume v => Sys2Proof.Machine.execNomConsume v s
  | .migrateCmd ext page => Sys2Proof.Machine.execMigrateCmd ext page s
  | .migrateHome ext page => Sys2Proof.Machine.execMigrateHome ext page s
  | .migrateDone => Sys2Proof.Machine.execMigrateDone s
  | .patrolRead lines => Sys2Proof.Machine.execPatrolRead lines s
  | .frameRetireDone frame => Sys2Proof.Machine.execFrameRetireDone frame s
  | .cxlPortLost q => Sys2Proof.Machine.execCxlPortLost q s
  | .rdShared line => Sys2Proof.Machine.execRdShared line s
  | .rdOwn line => Sys2Proof.Machine.execRdOwn line s
  | .wrBack line data => Sys2Proof.Machine.execWrBack line data s
  | .cleanEvict line => Sys2Proof.Machine.execCleanEvict line s
  | .snoopResponse line data => Sys2Proof.Machine.execSnoopResponse line data s
  | .snoopTimeout line => Sys2Proof.Machine.execSnoopTimeout line s
  | .filterWalkDone => Sys2Proof.Machine.execFilterWalkDone s
  | .orphanAdopt ext line => Sys2Proof.Machine.execOrphanAdopt ext line s
  | .orphanWrite ext line data => Sys2Proof.Machine.execOrphanWrite ext line data s
  | .nop core thread => Sys2Proof.Machine.execNop core thread s
  | .halt core thread => Sys2Proof.Machine.execHalt core thread s
  | .jump core thread => Sys2Proof.Machine.execJump core thread s
  | .loop core thread => Sys2Proof.Machine.execLoop core thread s
  | .brst core thread => Sys2Proof.Machine.execBrst core thread s
  | .brx core thread => Sys2Proof.Machine.execBrx core thread s
  | .xop core thread => Sys2Proof.Machine.execXop core thread s
  | .ldx core thread => Sys2Proof.Machine.execLdx core thread s
  | .fence core thread => Sys2Proof.Machine.execFence core thread s
  | .wait core thread => Sys2Proof.Machine.execWait core thread s
  | .signal core thread => Sys2Proof.Machine.execSignal core thread s
  | .clrst core thread => Sys2Proof.Machine.execClrst core thread s
  | .report core thread => Sys2Proof.Machine.execReport core thread s
  | .stream core thread => Sys2Proof.Machine.execStream core thread s
  | .recv core thread => Sys2Proof.Machine.execRecv core thread s
  | .atom core thread => Sys2Proof.Machine.execAtom core thread s
  | .sigmaxDesc core thread => Sys2Proof.Machine.execSigmaxDesc core thread s
  | .inval core thread => Sys2Proof.Machine.execInval core thread s
  | .wback core thread => Sys2Proof.Machine.execWback core thread s
  | .copy core thread => Sys2Proof.Machine.execCopy core thread s
  | .gather core thread => Sys2Proof.Machine.execGather core thread s
  | .scatter core thread => Sys2Proof.Machine.execScatter core thread s
  | .sow core thread => Sys2Proof.Machine.execSow core thread s
  | .send core thread => Sys2Proof.Machine.execSend core thread s
  | .fill core thread => Sys2Proof.Machine.execFill core thread s
  | .dot core thread upset => Sys2Proof.Machine.execDot core thread upset s
  | .reduce core thread upset => Sys2Proof.Machine.execReduce core thread upset s
  | .ewise core thread => Sys2Proof.Machine.execEwise core thread s
  | .scale core thread => Sys2Proof.Machine.execScale core thread s
  | .quant core thread upset => Sys2Proof.Machine.execQuant core thread upset s
  | .dequant core thread => Sys2Proof.Machine.execDequant core thread s
  | .smaxp core thread upset => Sys2Proof.Machine.execSmaxp core thread upset s
  | .topk core thread upset => Sys2Proof.Machine.execTopk core thread upset s
  | .accadd core thread upset => Sys2Proof.Machine.execAccadd core thread upset s
  | .decodeDesc core thread upset => Sys2Proof.Machine.execDecodeDesc core thread upset s
  | .cast core thread => Sys2Proof.Machine.execCast core thread s
  | .bcheck core thread => Sys2Proof.Machine.execBcheck core thread s
  | .rcheck core thread => Sys2Proof.Machine.execRcheck core thread s
  | .lcheck core thread => Sys2Proof.Machine.execLcheck core thread s
  | .digest core thread => Sys2Proof.Machine.execDigest core thread s
  | .remoteLineArrival core thread tag status data => Sys2Proof.Machine.execRemoteLineArrival core thread tag status data s
  | .coreLoad core => Sys2Proof.Machine.execCoreLoad core s
  | .loadComplete core => Sys2Proof.Machine.execLoadComplete core s
  | .coreStart core mask ctx => Sys2Proof.Machine.execCoreStart core mask ctx s
  | .coreStop core mask => Sys2Proof.Machine.execCoreStop core mask s
  | .coreUnload core => Sys2Proof.Machine.execCoreUnload core s
  | .probeReset mask => Sys2Proof.Machine.execProbeReset mask s
  | .groupDefine image => Sys2Proof.Machine.execGroupDefine image s
  | .groupUndefine image => Sys2Proof.Machine.execGroupUndefine image s
  | .groupAbort reg seq => Sys2Proof.Machine.execGroupAbort reg seq s
  | .collDescriptorPost group k slot desc => Sys2Proof.Machine.execCollDescriptorPost group k slot desc s
  | .allReduce group => Sys2Proof.Machine.execAllReduce group s
  | .reduceScatter group => Sys2Proof.Machine.execReduceScatter group s
  | .allGather group => Sys2Proof.Machine.execAllGather group s
  | .broadcast group => Sys2Proof.Machine.execBroadcast group s
  | .collReduce group => Sys2Proof.Machine.execCollReduce group s
  | .allToAll group => Sys2Proof.Machine.execAllToAll group s
  | .barrier group => Sys2Proof.Machine.execBarrier group s
  | .chunkReady group chunk run => Sys2Proof.Machine.execChunkReady group chunk run s
  | .chunkWritten group chunk => Sys2Proof.Machine.execChunkWritten group chunk s
  | .collectiveSignal group seq member => Sys2Proof.Machine.execCollectiveSignal group seq member s
  | .xchSignature hub payload => Sys2Proof.Machine.execXchSignature hub payload s
  | .xchPartial hub payload => Sys2Proof.Machine.execXchPartial hub payload s
  | .xchResult hub payload => Sys2Proof.Machine.execXchResult hub payload s
  | .xchData hub payload => Sys2Proof.Machine.execXchData hub payload s
  | .xchNotice hub payload => Sys2Proof.Machine.execXchNotice hub payload s
  | .xchAbort hub payload => Sys2Proof.Machine.execXchAbort hub payload s
  | .xchDone hub payload => Sys2Proof.Machine.execXchDone hub payload s
  | .settleTimeExpiry group seq => Sys2Proof.Machine.execSettleTimeExpiry group seq s
  | .deadlineCheck => Sys2Proof.Machine.execDeadlineCheck s
  | .watchArm src cmd => Sys2Proof.Machine.execWatchArm src cmd s
  | .watchDisarm src cmd => Sys2Proof.Machine.execWatchDisarm src cmd s
  | .watchFiring => Sys2Proof.Machine.execWatchFiring s
  | .firingRetry => Sys2Proof.Machine.execFiringRetry s
  | .firingRetryTimeout => Sys2Proof.Machine.execFiringRetryTimeout s
  | .unitReplay path unit of_ clean => Sys2Proof.Machine.execUnitReplay path unit of_ clean s
  | .arraySweep words => Sys2Proof.Machine.execArraySweep words s
  | .blockFillComplete blk reading => Sys2Proof.Machine.execBlockFillComplete blk reading s
  | .blockRereadComplete blk reading => Sys2Proof.Machine.execBlockRereadComplete blk reading s
  | .checkRepeatDone core d sound => Sys2Proof.Machine.execCheckRepeatDone core d sound s
  | .judgementDone core d passes => Sys2Proof.Machine.execJudgementDone core d passes s
  | .tilthLoad => Sys2Proof.Machine.execTilthLoad s
  | .tilthImage image => Sys2Proof.Machine.execTilthImage image s
  | .tilthRun => Sys2Proof.Machine.execTilthRun s
  | .tilthSchedule => Sys2Proof.Machine.execTilthSchedule s
  | .tilthTestDone target test passed => Sys2Proof.Machine.execTilthTestDone target test passed s
  | .digestNow => Sys2Proof.Machine.execDigestNow s
  | .digestInterval region => Sys2Proof.Machine.execDigestInterval region s
  | .digestPassDone pass => Sys2Proof.Machine.execDigestPassDone pass s
  | .plotCreate dict plot => Sys2Proof.Machine.execPlotCreate dict plot s
  | .plotActivate dict plot => Sys2Proof.Machine.execPlotActivate dict plot s
  | .plotRotate dict plot => Sys2Proof.Machine.execPlotRotate dict plot s
  | .plotRetireold dict plot force => Sys2Proof.Machine.execPlotRetireold dict plot force s
  | .plotFence dict plot => Sys2Proof.Machine.execPlotFence dict plot s
  | .plotLift dict plot => Sys2Proof.Machine.execPlotLift dict plot s
  | .plotRemove dict plot => Sys2Proof.Machine.execPlotRemove dict plot s
  | .plotRemoveDrained plot => Sys2Proof.Machine.execPlotRemoveDrained plot s
  | .rotationComplete plot => Sys2Proof.Machine.execRotationComplete plot s
  | .tier3PairReset => Sys2Proof.Machine.execTier3PairReset s
  | .keyxFrame p chain pub sig hub => Sys2Proof.Machine.execKeyxFrame p chain pub sig hub s
  | .linkRekey p => Sys2Proof.Machine.execLinkRekey p s
  | .attestRequest reg => Sys2Proof.Machine.execAttestRequest reg s
  | .tenantSessionExpiry report => Sys2Proof.Machine.execTenantSessionExpiry report s
  | .debugToken dict ctx off => Sys2Proof.Machine.execDebugToken dict ctx off s
  | .attestReportSigned dict => Sys2Proof.Machine.execAttestReportSigned dict s
  | .reencryptFrameDone frame => Sys2Proof.Machine.execReencryptFrameDone frame s
  | .pairRecordSlotWritten w => Sys2Proof.Machine.execPairRecordSlotWritten w s
  | .portEnable dict p => Sys2Proof.Machine.execPortEnable dict p s
  | .portDisable dict p => Sys2Proof.Machine.execPortDisable dict p s
  | .portDormant dict p => Sys2Proof.Machine.execPortDormant dict p s
  | .portWake dict p => Sys2Proof.Machine.execPortWake dict p s
  | .portHold dict p => Sys2Proof.Machine.execPortHold dict p s
  | .portRelease dict p => Sys2Proof.Machine.execPortRelease dict p s
  | .lightDetected p => Sys2Proof.Machine.execLightDetected p s
  | .laneConverged e j => Sys2Proof.Machine.execLaneConverged e j s
  | .laneAlock e j lane => Sys2Proof.Machine.execLaneAlock e j lane s
  | .portSlipCmd e mask => Sys2Proof.Machine.execPortSlipCmd e mask s
  | .trainingTimeout p => Sys2Proof.Machine.execTrainingTimeout p s
  | .identFrame p body => Sys2Proof.Machine.execIdentFrame p body s
  | .identResend p => Sys2Proof.Machine.execIdentResend p s
  | .planWaitTimeout p => Sys2Proof.Machine.execPlanWaitTimeout p s
  | .dormantFrame p => Sys2Proof.Machine.execDormantFrame p s
  | .dormantSettle p => Sys2Proof.Machine.execDormantSettle p s
  | .dormantTimeout p => Sys2Proof.Machine.execDormantTimeout p s
  | .wakeSequenceDone p => Sys2Proof.Machine.execWakeSequenceDone p s
  | .gyciaFrame p seq plot intact tagOk packets => Sys2Proof.Machine.execGyciaFrame p seq plot intact tagOk packets s
  | .linkFrame p ackSeq nak mem sig msg red rxlock => Sys2Proof.Machine.execLinkFrame p ackSeq nak mem sig msg red rxlock s
  | .linkFrameTimer p => Sys2Proof.Machine.execLinkFrameTimer p s
  | .ackStallTimeout p => Sys2Proof.Machine.execAckStallTimeout p s
  | .retrainComplete p => Sys2Proof.Machine.execRetrainComplete p s
  | .retrainTimeout p => Sys2Proof.Machine.execRetrainTimeout p s
  | .laneFailure e j rxLost => Sys2Proof.Machine.execLaneFailure e j rxLost s
  | .spareJoined e j => Sys2Proof.Machine.execSpareJoined e j s
  | .portLost p lanes => Sys2Proof.Machine.execPortLost p lanes s
  | .eyeScanPoint e lanes phase volt eye dwell => Sys2Proof.Machine.execEyeScanPoint e lanes phase volt eye dwell s
  | .eyePointDone e results => Sys2Proof.Machine.execEyePointDone e results s
  | .eyeScanPeriod results => Sys2Proof.Machine.execEyeScanPeriod results s
  | .optHealthPoll e lanes lasers => Sys2Proof.Machine.execOptHealthPoll e lanes lasers s
  | .laserInputLoss e f power => Sys2Proof.Machine.execLaserInputLoss e f power s
  | .laneRelock e j => Sys2Proof.Machine.execLaneRelock e j s
  | .regWrite off size v => Sys2Proof.Machine.execRegWrite off size v s
  | .laniaDma kind ctx off len data => Sys2Proof.Machine.execLaniaDma kind ctx off len data s
  | .laniaLaneFail lane => Sys2Proof.Machine.execLaniaLaneFail lane s
  | .laniaLinkLost => Sys2Proof.Machine.execLaniaLinkLost s
  | .laniaLinkTrained => Sys2Proof.Machine.execLaniaLinkTrained s
  | .doorbellWrite => Sys2Proof.Machine.execDoorbellWrite s
  | .dbqConsume v => Sys2Proof.Machine.execDbqConsume v s
  | .dbqHeartbeat v => Sys2Proof.Machine.execDbqHeartbeat v s
  | .heartbeatTimeout => Sys2Proof.Machine.execHeartbeatTimeout s
  | .cxlRetrain q found => Sys2Proof.Machine.execCxlRetrain q found s
  | .deviceCapacityEvent ext answer => Sys2Proof.Machine.execDeviceCapacityEvent ext answer s
  | .capacityRemoved ext => Sys2Proof.Machine.execCapacityRemoved ext s
  | .adpRead m => Sys2Proof.Machine.execAdpRead m s
  | .adpWrite m => Sys2Proof.Machine.execAdpWrite m s
  | .adpReadBlock m => Sys2Proof.Machine.execAdpReadBlock m s
  | .adpWriteBlock m => Sys2Proof.Machine.execAdpWriteBlock m s
  | .eventAck session seq tagOk => Sys2Proof.Machine.execEventAck session seq tagOk s
  | .eventResend session => Sys2Proof.Machine.execEventResend session s
  | .adpHeartbeat m => Sys2Proof.Machine.execAdpHeartbeat m s
  | .sessionOpen m => Sys2Proof.Machine.execSessionOpen m s
  | .sessionClose own m => Sys2Proof.Machine.execSessionClose own m s
  | .presessionHeartbeat => Sys2Proof.Machine.execPresessionHeartbeat s
  | .sessionHeartbeatTimer session => Sys2Proof.Machine.execSessionHeartbeatTimer session s
  | .adpSessionTimeout session => Sys2Proof.Machine.execAdpSessionTimeout session s
  | .blockTransferTimeout session => Sys2Proof.Machine.execBlockTransferTimeout session s
  | .sessionOpenPartsExpiry nonce seq => Sys2Proof.Machine.execSessionOpenPartsExpiry nonce seq s
  | .plcaFallback => Sys2Proof.Machine.execPlcaFallback s
  | .plcaBeacon => Sys2Proof.Machine.execPlcaBeacon s
  | .neighbourDiscovery target dad => Sys2Proof.Machine.execNeighbourDiscovery target dad s
  | .mbRead => Sys2Proof.Machine.execMbRead s
  | .mbWrite len => Sys2Proof.Machine.execMbWrite len s
  | .mbReadBlock len off => Sys2Proof.Machine.execMbReadBlock len off s
  | .mbWriteBlock last len off => Sys2Proof.Machine.execMbWriteBlock last len off s
  | .powerGoodRise => Sys2Proof.Machine.execPowerGoodRise s
  | .powerGoodFall => Sys2Proof.Machine.execPowerGoodFall s
  | .resetNAssert => Sys2Proof.Machine.execResetNAssert s
  | .resetNRelease => Sys2Proof.Machine.execResetNRelease s
  | .pllLock => Sys2Proof.Machine.execPllLock s
  | .pllLockTimeout => Sys2Proof.Machine.execPllLockTimeout s
  | .pllLockLost => Sys2Proof.Machine.execPllLockLost s
  | .islandReady fuseOk => Sys2Proof.Machine.execIslandReady fuseOk s
  | .bootLoad => Sys2Proof.Machine.execBootLoad s
  | .bootMeasure => Sys2Proof.Machine.execBootMeasure s
  | .bootClock => Sys2Proof.Machine.execBootClock s
  | .bootPower cxl => Sys2Proof.Machine.execBootPower cxl s
  | .powerStageTimeout domain => Sys2Proof.Machine.execPowerStageTimeout domain s
  | .bootTrain badPcs badStacks => Sys2Proof.Machine.execBootTrain badPcs badStacks s
  | .bootVerify fails => Sys2Proof.Machine.execBootVerify fails s
  | .bootServe => Sys2Proof.Machine.execBootServe s
  | .bootRestart => Sys2Proof.Machine.execBootRestart s
  | .bootCommandComplete => Sys2Proof.Machine.execBootCommandComplete s
  | .resetCore dict core => Sys2Proof.Machine.execResetCore dict core s
  | .coreResetDone core => Sys2Proof.Machine.execCoreResetDone core s
  | .resetCluster dict cluster => Sys2Proof.Machine.execResetCluster dict cluster s
  | .clusterResetDone cluster fails => Sys2Proof.Machine.execClusterResetDone cluster fails s
  | .resetPlot dict plot => Sys2Proof.Machine.execResetPlot dict plot s
  | .resetDevice dict target => Sys2Proof.Machine.execResetDevice dict target s
  | .resetDeviceDrain target => Sys2Proof.Machine.execResetDeviceDrain target s
  | .hbmRetrainStart stack pc => Sys2Proof.Machine.execHbmRetrainStart stack pc s
  | .hbmRetrainStep stack fails => Sys2Proof.Machine.execHbmRetrainStep stack fails s
  | .watchdogExpiry => Sys2Proof.Machine.execWatchdogExpiry s
  | .mgmtRestartDone => Sys2Proof.Machine.execMgmtRestartDone s
  | .capAlertAssert => Sys2Proof.Machine.execCapAlertAssert s
  | .capAlertRelease => Sys2Proof.Machine.execCapAlertRelease s
  | .powerSample watts island => Sys2Proof.Machine.execPowerSample watts island s
  | .powerPlanDone => Sys2Proof.Machine.execPowerPlanDone s
  | .tempSample temps => Sys2Proof.Machine.execTempSample temps s
  | .thermalCapStep => Sys2Proof.Machine.execThermalCapStep s
  | .thermalTrip sensor => Sys2Proof.Machine.execThermalTrip sensor s
  | .clusterPowerOnDone cluster fails => Sys2Proof.Machine.execClusterPowerOnDone cluster fails s
  | .clusterPowerOff cluster => Sys2Proof.Machine.execClusterPowerOff cluster s
  | .timeExchange => Sys2Proof.Machine.execTimeExchange s
  | .timeRequest src data => Sys2Proof.Machine.execTimeRequest src data s
  | .timeReply data => Sys2Proof.Machine.execTimeReply data s
  | .timeSet v => Sys2Proof.Machine.execTimeSet v s
  | .hbmStackLost stack cause => Sys2Proof.Machine.execHbmStackLost stack cause s
  | .trayUnseated => Sys2Proof.Machine.execTrayUnseated s
  | .traySeated => Sys2Proof.Machine.execTraySeated s
  | .boardWake => Sys2Proof.Machine.execBoardWake s
  | .railOutOfRange rail mv us => Sys2Proof.Machine.execRailOutOfRange rail mv us s

end Sys2Proof.Machine
end

