-- ==== Sys2Proof/Machine/Tick.lean ====
section
/-! DEFINITION. What a KCLK cycle does (R432, R433; log entry 1): DeviceTime advances, and the counters of waiting time count. -/

namespace Sys2Proof.Machine

/-- Whether the time base runs: from ISLAND onward (R432, Table 17-1), with the root PLL locked. -/
def clockRuns (s : State) : Bool :=
  s.boot.pll && s.boot.pwrGood &&
    match s.boot.st with
    | .off => false
    | .starting => false
    | _ => true

/-- DeviceTime after one KCLK cycle (R432, R433): 2 ns more, with the rate correction carried exactly; never less. -/
def Time.cycle (t : Time) : Time :=
  let f := t.frac + 2 * t.rate
  { t with now := t.now + ((2 + f / 1000000000).toNat), frac := f % 1000000000 }

/-- Whether a plot at its quota keeps a frame out of a headland buffer (R70): a request or reply an internal node keeps, or a frame that
waits to enter. -/
def quotaStalled (s : State) : Bool :=
  !s.sw.issueKept.isEmpty || !s.sw.replyKept.isEmpty ||
    s.sw.flows.any fun f => decide (256 ≤ f.egress) &&
      match f.head with
      | some x => !passRoom s f.ingress f.egress x
      | none => false
/-- Whether a frame in an egress stage waits on the far end's credits. -/
def creditStalled (s : State) (p : Nat) : Bool :=
  (s.staged p).any fun y => decide ((s.port p).credits.of (opClass y.2.req.op) < y.2.cells)
/-- The counters of waiting time over one KCLK cycle of 2 ns, which is 4 CCLK cycles (Table 3-6, Table 17-1). -/
def stallCounts (s : State) : State :=
  let s := if quotaStalled s then bump 0xC4020B 4 s else s
  let s := if s.xlt.deferred.isEmpty then s
    else bump 0xC40307 4 (s.onXlt fun x => { x with deferSeen := true, deferCycles := x.deferCycles + 4 })
  forAll ((s.sw.stage.map Prod.fst).filter (creditStalled s)) (fun p => bump (0xC41400 + p + 1) 2) s

/-- The blocks of one KCLK cycle on every lit port (R329). -/
def blockCycles (s : State) : State := forAll ((s.ports.ports.map Prod.fst).filter (portLit s)) blockCycle s
/-- The ports over one KCLK cycle: LINK frames follow credit changes (R339), a lane that the far end shows unlocked for 10 µs fails (R342), and
the firmware's align agent searches (R334). -/
def portTurns (s : State) : State :=
  let l := s.ports.ports.map Prod.fst
  let t := forAll (searchGroups s) searchTurn (forAll l farDarkFails (forAll l creditTurn s))
  settleLost s t
/-- A register command of the hub that waits for its lines is tried again: whether it is over, and the state after it. -/
def hubCmdTry : HubCmd → State → Bool × State
  | .tilth, s => tilthTry s
  | .attest n, s => attestTry n s
  | .report, s => reportTry s
  | .debug c o, s => debugTry c o s
/-- The register commands of the hub that wait go on, in order (R294, R321, R323). -/
def hubTurns (s : State) : State :=
  forAll s.pool.hubCmds (fun c s =>
    let q := hubCmdTry c s
    if q.1 then q.2.onPool fun p => { p with hubCmds := p.hubCmds.erase c } else q.2) s

/-- The end of a GleanerPeriod, counted from DeviceTime 0 (R108; DESIGN CHOICE: the manual does not say where the periods begin; log
entry 51). -/
def periodEnds (before : Nat) (s : State) : State := if before / 100000000 < s.now / 100000000 then queueFullEvent s else s
/-- One KCLK cycle: DeviceTime advances while the time base runs. -/
def tick (s : State) : State :=
  if clockRuns s then portTurns (hubTurns (periodEnds s.now { blockCycles (stallCounts s) with time := s.time.cycle })) else s

end Sys2Proof.Machine
end

