-- ==== Sys2Proof/Safety.lean ====
section
/-! DEFINITION. The terms the claims use: what a run can end in, the parts of the state and frames over them, the requests that
commands stand for, where a request that passes every check of the hub arrives, and events as the log records them. -/

namespace Sys2Proof

open Machine

/-- The command completes in a state: the outcome is a next state. -/
def Completes (i : Instr) (s t : State) : Prop := exec i s = .next t

/-- A safe outcome: a next state, never a fault or a refusal. -/
def SafeOutcome (o : Host.Outcome State Fault Refusal) : Prop := ∃ t, o = .next t

/-- The parts of the state that a frame names: the units, the counter objects, the event log with its delivery, the rest of the
dictionary, the memories, and the model's own trace, free-value counter and queue. -/
inductive Part where
  | sw | xlt | pool | coh | fur | coll | sync | chk | key | ports | lania | cxl
  /-- The counter objects 0xCxxx. -/
  | counters
  /-- The event log, the events held, and the sessions it is delivered to. -/
  | log
  /-- The rest of the dictionary: settings, mailbox, heartbeats. -/
  | dict
  | boot | power | time | mem | spad | out | free
  /-- The queue of commands that wait. -/
  | queue
  deriving DecidableEq, Repr

/-- A dictionary without its counters, its log and its sessions. -/
def restOf (d : Dict) : Dict :=
  { d with counters := [], sessions := [], log := [], logSeq := 0, logLost := 0, lossRaised := none, lossCount := 0, holding := [] }

/-- A part is the same in two states. -/
def samePart (p : Part) (s t : State) : Prop :=
  match p with
  | .sw => t.sw = s.sw
  | .xlt => t.xlt = s.xlt
  | .pool => t.pool = s.pool
  | .coh => t.coh = s.coh
  | .fur => t.fur = s.fur
  | .coll => t.coll = s.coll
  | .sync => t.sync = s.sync
  | .chk => t.chk = s.chk
  | .key => t.key = s.key
  | .ports => t.ports = s.ports
  | .lania => t.lania = s.lania
  | .cxl => t.cxl = s.cxl
  | .counters => t.dict.counters = s.dict.counters
  | .log => t.dict.log = s.dict.log ∧ t.dict.logSeq = s.dict.logSeq ∧ t.dict.logLost = s.dict.logLost ∧
      t.dict.lossRaised = s.dict.lossRaised ∧ t.dict.lossCount = s.dict.lossCount ∧ t.dict.holding = s.dict.holding ∧
      t.dict.sessions = s.dict.sessions
  | .dict => restOf t.dict = restOf s.dict
  | .boot => t.boot = s.boot
  | .power => t.power = s.power
  | .time => t.time = s.time
  | .mem => t.mem = s.mem
  | .spad => t.spad = s.spad
  | .out => t.out = s.out
  | .free => t.free = s.free
  | .queue => t.pending = s.pending

/-- Every part but those named is unchanged. -/
def OnlyChanges (ps : List Part) (s t : State) : Prop := ∀ p, p ∉ ps → samePart p s t

/-- An event is recorded (R382): in the log at the DeviceTime it was raised; while the management core restarts it is held, unless
1,024 are held already (R300). -/
def Logged (code : Nat) (payload : List Nat) (s t : State) : Prop :=
  if s.boot.mgmtDown then (s.now, code, payload) ∈ t.dict.holding ∨ 1024 ≤ t.dict.holding.length
  else ∃ e ∈ t.dict.log, e.code = code ∧ e.payload = payload ∧ e.time = s.now

/-- The request that a command of the Gycia protocol stands for: its opcode is that of Table 2-5. -/
def requestOf (i : Instr) : Option Req :=
  match i with
  | .read via h data => some { via, op := 0x01, h, data }
  | .write via h data => some { via, op := 0x20, h, data }
  | .writeMasked via h data => some { via, op := 0x21, h, data }
  | .atomSwap via h data => some { via, op := 0x40, h, data }
  | .atomCas via h data => some { via, op := 0x41, h, data }
  | .atomAdd via h data => some { via, op := 0x42, h, data }
  | .atomMin via h data => some { via, op := 0x43, h, data }
  | .atomMax via h data => some { via, op := 0x44, h, data }
  | .atomAnd via h data => some { via, op := 0x45, h, data }
  | .atomOr via h data => some { via, op := 0x46, h, data }
  | .atomXor via h data => some { via, op := 0x47, h, data }
  | .sigAdd via h data => some { via, op := 0x60, h, data }
  | .sigMax via h data => some { via, op := 0x61, h, data }
  | .msgSend via h data => some { via, op := 0x80, h, data }
  | .collNotice via h data => some { via, op := 0x81, h, data }
  | .redAdd via h data => some { via, op := 0xA0, h, data }
  | .redMin via h data => some { via, op := 0xA1, h, data }
  | .redMax via h data => some { via, op := 0xA2, h, data }
  | .redColl via h data => some { via, op := 0xA8, h, data }
  | .sowing via op h data => some { via, op, h, data }
  | _ => none

/-- The reply that a reply command brings on a port, its opcode that of Table 2-5. -/
def replyOf (i : Instr) : Option (Nat × Reply) :=
  match i with
  | .rdData p r => some (p, { r with op := Op.rdData })
  | .atomData p r => some (p, { r with op := Op.atomData })
  | .ack p r => some (p, { r with op := if r.op = Op.sowAck then Op.sowAck else Op.ack })
  | _ => none

/-- Nothing waits to go on of itself: no queued core reset or reset under way, no waiting access, walk, fault, host transaction,
nomination, publish, DMA request or descriptor, no request or answer of the hub's own units, no group, no frame or reply that waits for a headland buffer or
lies in spill, and no copy frame that nothing needs any more. -/
abbrev Calm (s : State) : Prop :=
  s.sw.entry = [] ∧ s.sw.issueKept = [] ∧ s.sw.replyKept = [] ∧ (∀ f ∈ s.sw.flows, f.spill = []) ∧
  s.boot.rst = none ∧ s.boot.rstQueue = [] ∧ s.pool.waiting = [] ∧ s.xlt.stalled = [] ∧ s.xlt.deferred = [] ∧ s.coh.hostWaits = [] ∧
  s.pool.pieces = [] ∧ s.xlt.genWaits = [] ∧ s.lania.dmas = [] ∧ s.pool.nomWaiting = [] ∧ (∀ kv ∈ s.pool.frames, staleCopy s kv.1 kv.2 = false) ∧
  s.coll.outbox = [] ∧ s.coll.answers = [] ∧ s.coll.groups = [] ∧ ∀ kc ∈ s.fur.cores, ∀ kt ∈ kc.2.threads, kt.2.incs = []

/-- No port has work of its own due: no change of credits to tell (R339), no lane that the far end shows unlocked (R342), no search for a
lane's block boundary (R334). -/
abbrev PortsQuiet (s : State) : Prop :=
  searchGroups s = [] ∧ ∀ kv ∈ s.ports.ports, kv.2.freed = kv.2.freedSent ∧ kv.2.farDark = []

/-- The three byte memories are in their canonical form. -/
abbrev Canonical (s : State) : Prop := Mem.Wf s.mem ∧ Mem.Wf s.spad ∧ Mem.Wf s.boot.image

/-- A request from a port finds its way into its node free: no frame waits for that node before it, its headland entry buffer has room
within the plot's quota (R70), and the node takes it at once; a request from inside the hub crosses no tile (Table 3-1). -/
def wayFree (s : State) (r : Req) (lep : Nat) : Bool :=
  match entryTile r lep with
  | none => true
  | some tile =>
    !(s.sw.flows.any fun f => f.egress == 256 + lep) && entryRoom s tile r && nodeTakes s r && (s.entryAt tile).isEmpty
/-- A request `r`, its source already set (R29), passes every check of the hub (R470) on its way to a node of the hub: it is not
refused, waits behind no request of its way (R42), need not wait for the gate (R264), finds no bad word there (Table 11-1), is not held at
it (R46), and finds its way free. -/
abbrev Passes (s : State) (r : Req) (lep : Nat) : Prop :=
  target s r = .here lep ∧ blocked s r = false ∧ gateFull s r = false ∧
    ¬ (opClass r.op = 1 ∧ s.chk.badMeta.contains (.gate r.h.src r.h.dst) = true) ∧
    ¬ (opClass r.op = 1 ∧ gated r = true ∧ sigHeld s r = true) ∧ wayFree s r lep = true

/-- The state in which such a request is served: counted at the gate (R46), its ingress cells free (R66). -/
def atNode (s : State) (r : Req) : State := freeCells r (gateTaken r s)

/-- The copy of a sowing for a port (R40). -/
def copyTo (s : State) (r : Req) (p : Nat) : Req := { r with h := { r.h with dst := nodeOf s p } }

/-- The reply has been handed to the requester (R32): to a core's thread, the host or the management agent directly. -/
def Replied (via : Ingress) (r : Reply) (t : State) : Prop := Output.reply via r ∈ t.out

/-! Furrow descriptors (R203, R209, R211). -/

/-- The descriptor that a Furrow command issues (Table 8-6): its opcode, core and thread, and whether its engine is upset. -/
def issueOf (i : Instr) : Option (Nat × Nat × Nat × Bool) :=
  match i with
  | .nop c t => some (0x00, c, t, false)
  | .halt c t => some (0x01, c, t, false)
  | .jump c t => some (0x02, c, t, false)
  | .loop c t => some (0x03, c, t, false)
  | .brst c t => some (0x04, c, t, false)
  | .brx c t => some (0x05, c, t, false)
  | .xop c t => some (0x06, c, t, false)
  | .ldx c t => some (0x07, c, t, false)
  | .fence c t => some (0x08, c, t, false)
  | .wait c t => some (0x09, c, t, false)
  | .signal c t => some (0x0A, c, t, false)
  | .clrst c t => some (0x0B, c, t, false)
  | .report c t => some (0x0C, c, t, false)
  | .stream c t => some (0x0D, c, t, false)
  | .recv c t => some (0x10, c, t, false)
  | .atom c t => some (0x11, c, t, false)
  | .sigmaxDesc c t => some (0x12, c, t, false)
  | .inval c t => some (0x13, c, t, false)
  | .wback c t => some (0x14, c, t, false)
  | .copy c t => some (0x20, c, t, false)
  | .gather c t => some (0x21, c, t, false)
  | .scatter c t => some (0x22, c, t, false)
  | .sow c t => some (0x23, c, t, false)
  | .send c t => some (0x24, c, t, false)
  | .fill c t => some (0x25, c, t, false)
  | .dot c t u => some (0x30, c, t, u)
  | .reduce c t u => some (0x31, c, t, u)
  | .ewise c t => some (0x32, c, t, false)
  | .scale c t => some (0x33, c, t, false)
  | .quant c t u => some (0x34, c, t, u)
  | .dequant c t => some (0x35, c, t, false)
  | .smaxp c t u => some (0x36, c, t, u)
  | .topk c t u => some (0x37, c, t, u)
  | .accadd c t u => some (0x38, c, t, u)
  | .decodeDesc c t u => some (0x39, c, t, u)
  | .cast c t => some (0x3A, c, t, false)
  | .bcheck c t => some (0x40, c, t, false)
  | .rcheck c t => some (0x41, c, t, false)
  | .lcheck c t => some (0x42, c, t, false)
  | .digest c t => some (0x43, c, t, false)
  | _ => none

/-- A thread once its next descriptor has issued: its place and its count have moved on (R203, R211). -/
def movedOn (s : State) (c t : Nat) : Thread :=
  let x := s.thread c t
  { x with pc := x.pc + 1, seq := x.seq + 1, recent := ((x.seq, x.pc, x.xs) :: x.recent).take 32 }

/-- A descriptor of an opcode as it is when it issues: its number and index, the index registers it reads (R209), the probe interval in
force then (R197), its turn in the order of issue, whether its engine is upset, and the tensor engine a Tilth test names (R295). -/
def newInc (s : State) (c t op : Nat) (upset : Bool) : Inc :=
  { seq := (s.thread c t).seq, idx := (s.thread c t).pc, xs := (s.thread c t).xs, wait := .turn
    probe := probeInterval s (plotOfCore s c), order := (s.core c).issued, upset
    te := if op = 0x30 then (testOf s c).map TilthRun.te else none }

/-- The state in which a descriptor that uses an engine starts: it is the thread's newest incomplete one, and a RECV has freed the
slot its thread held (R207). -/
def started (s : State) (j : Job) : State :=
  let u := (issued j.c j.t s).onThread j.c j.t fun y => { y with incs := y.incs ++ [j.inc] }
  if j.d.op = 0x10 then unclaim j.c j.t u else u

/-- A descriptor that issues, with the lines that an invalidation or write-back acts on, as they are at that moment (R158). -/
abbrev IsNew (s : State) (op : Nat) (upset : Bool) (j : Job) : Prop :=
  j.inc = { newInc s j.c j.t op upset with
    range := flushKeys (started s { j with inc := newInc s j.c j.t op upset }) { j with inc := newInc s j.c j.t op upset } } ∧
  ∀ i ∈ (s.thread j.c j.t).incs, i.seq ≠ j.inc.seq

/-- The next descriptor of a thread, of opcode `op`, can issue (R203) and has its turn on its engine (R153); `j` is that descriptor
with the index registers it reads (R209). No incomplete descriptor bears the number it gets. -/
abbrev Issues (s : State) (op : Nat) (upset : Bool) (j : Job) : Prop :=
  ready s j.c j.t = some (j.prog, j.d) ∧ j.d.op = op ∧ IsNew s op upset j ∧ behind (started s j) j = false

/-- Ranges of a core's own scratchpad, inside the regions of its program (R201), which no bad word touches (Table 11-1). -/
abbrev LocalReads (s : State) (c : Nat) (ps : List Span) : Prop :=
  regionEnd s c ≤ 2 ^ 21 ∧
    ∀ p ∈ ps, p.1 = none ∧ (p.2.2 = 0 ∨ (p.2.1 + p.2.2 ≤ regionEnd s c ∧ badIn s c p.2.1 p.2.2 = false))

/-- Writes to a core's own scratchpad, inside the regions of its program (R201). -/
abbrev LocalWrites (s : State) (c : Nat) (ws : List (Option Nat × Nat × List Byte)) : Prop :=
  regionEnd s c ≤ 2 ^ 21 ∧ ∀ w ∈ ws, w.1 = none ∧ (w.2.2 = [] ∨ w.2.1 + w.2.2.length ≤ regionEnd s c)

/-- The bytes of ranges of a core's scratchpad. -/
def localBytes (s : State) (c : Nat) (ps : List Span) : List (List Byte) := ps.map fun p => spadRead s c p.2.1 p.2.2

/-- What writes, made in order, leave at an offset; none: nothing was written there. -/
def lastWrite (ws : List (Option Nat × Nat × List Byte)) (a : Nat) : Option Byte :=
  ws.foldl (fun old w => if w.2.1 ≤ a ∧ a < w.2.1 + w.2.2.length then w.2.2[a - w.2.1]? else old) none

/-- The scratchpads hold what writes to core `c` leave in them, and are otherwise as before. -/
def Wrote (s : State) (c : Nat) (ws : List (Option Nat × Nat × List Byte)) (t : State) : Prop :=
  ∀ k a, a < 2 ^ 21 →
    spadRead t k a 1 = if k = c then ((lastWrite ws a).map fun b => [b]).getD (spadRead s k a 1) else spadRead s k a 1

/-- Nothing of the cores changes but one thread, which becomes `x`, the count of issued descriptors and the thread that issued
last. -/
def OnlyThread (s : State) (c t : Nat) (x : Thread) (u : State) : Prop :=
  u.thread c t = x ∧ (∀ k r, ¬ (k = c ∧ r = t) → u.thread k r = s.thread k r) ∧
  ∀ k, { u.core k with threads := [], issued := 0, lastThread := 0 } = { s.core k with threads := [], issued := 0, lastThread := 0 }

/-- Whether an operation of the collective unit is a result write of a chunk of a group. -/
def isResult (g k : Nat) : UnitOp → Bool
  | .result h _ j _ => h == g && j == k
  | _ => false

/-- What is left once the write of a signed report to plot 0 memory has had its outcome (R321); a write whose lines wait goes on later. -/
def reportWritten (a : Attest) (len : Nat) : HubRes × State → State
  | (.wait, u) =>
    if u.pool.hubCmds.contains .report then u else { u with pool := { u.pool with hubCmds := u.pool.hubCmds ++ [.report] } }
  | (.fail st, u) =>
    bump 0xC40C06 1 (keepTenant a { u with key := { u.key with attReg := none, attStatus := st, attDone := true, attLen := 0 } })
  | (.ok _, u) =>
    bump 0xC40C06 1 (keepTenant a { u with key := { u.key with attReg := none, attStatus := St.ok, attDone := true, attLen := len } })

/-- A sequenced frame that comes in on a port's light is accepted (R338): the link is up, the frame's codewords and tag are good under a key
the hub holds (R310), and its SEQ is the next. -/
abbrev FrameTaken (s : State) (f : FrameIn) : Prop :=
  let u := blocksArrive f.light.port f.light.blocks s
  linkUp u f.light.port = true ∧ f.intact = true ∧ f.tagOk = true ∧ phaseHeld u f.light.port f.light.phase = true ∧
    f.seq % 4096 = ((u.port f.light.port).rxSeq + 1) % 4096

/-- A sequenced frame has gone out on a port (R338). -/
def frameSent (s : State) (p : Nat) (f : SentFrame) : Bool :=
  s.out.any fun o => match o with
    | .link q g _ => q == p && g == f
    | _ => false

/-- The state in which what such a frame brings is taken: its light has come, its counter is kept (R310), its SEQ is acknowledged. -/
def frameIn (s : State) (f : FrameIn) : State :=
  acceptSeq f.light.port (farCounted f.light (blocksArrive f.light.port f.light.blocks s))

/-- A group whose next sequence has started (R230, R234): it executes from now, the first chunks' windows are entered, the probe interval
in force is its own (R197), and its staging area is the lowest free part. -/
def startedAs (s : State) (x : Group) : Group :=
  { x with
    lastStart := some s.now
    seqs := updFirst (fun y => y.seq == x.next) (fun y => { y with
      exec := true, start := s.now, probe := probeInterval s x.plot
      area := takeParts (reserveBytes s x) (freeParts (stagingBytes s x.plot) (heldParts s x.plot))
      entered := (List.range x.window).foldl (fun m k => m.set k s.now) y.entered }) x.seqs }

/-- Index registers with one set; X0 is discarded (R209). -/
def putX (xs : List U64) (i : Nat) (v : U64) : List U64 := if i = 0 then xs else listSet xs (i - 1) v

/-- A thread whose descriptor has completed with OK and an arithmetic report (R212). -/
def doneWith (s : State) (c t : Nat) (rep : ArithReport) : Thread :=
  { movedOn s c t with report := ((s.thread c t).report.add rep).cap }

/-- The rows of a tile, each as a write of its bytes. -/
def rowWrites (d : Tile) (n : Nat) (f : Nat → List Byte) : List (Option Nat × Nat × List Byte) :=
  (List.range n).map fun r => (none, d.row r, f r)

end Sys2Proof
end

