-- ==== Sys2Proof/Certificates/Slice0/Obligations.lean ====
section
/-! DEFINITION. The statements for the provers. -/

open Sys2Proof Sys2Proof.Machine

/-- For every state whose queue is c followed by rest: step of it is exec of c on the state with the queue rest. This is the model's
queue of commands, first in, first out. -/
def Obligations.StepRunsFrontCommand : Prop :=
  (∀ (s : State) (c : Instr) (rest : List Instr),
    s.pending = c :: rest →
      step s = exec c { s with pending := rest })

/-- On an empty queue the step answers the next state tick s (the model's choice, log entry 1); while the clock does not run, that
is s itself. While it runs and no port has work of its own due (a credit change to tell, a lane that the far end shows unlocked,
a lane's block boundary to search), no register command of the hub waits for memory and no fault waits for the fault queue,
nothing changes but the time unit, the counters, the ports' block state and the trace; DeviceTime advances by 2, and one more
for each whole thousand million that its fraction, with the rate correction added twice, then holds. Each lit port's lanes pass
25 eighths of a block slot, and when a port's count of slots passes a multiple of 8,192 every lane it deals blocks to sends one
FILLER; when no lit port's count does, nothing is sent. -/
def Obligations.EmptyQueueTick : Prop :=
  (∀ (s : State),
    s.pending = [] →
      step s = .next (tick s) ∧ (clockRuns s = false → tick s = s)) ∧
  (∀ (s : State),
    s.pending = [] → clockRuns s = true → PortsQuiet s → s.pool.hubCmds = [] →
    (s.xlt.deferSeen = false ∧ s.xlt.deferred = []) →
      step s = .next (tick s) ∧ (tick s).time = s.time.cycle ∧ OnlyChanges [.time, .counters, .ports, .out] s (tick s)) ∧
  (∀ (t : Time),
      t.cycle.now = t.now + (2 + (t.frac + 2 * t.rate) / 1000000000).toNat ∧
      t.cycle.frac = (t.frac + 2 * t.rate) % 1000000000 ∧ (t.rate = 0 → t.frac = 0 → t.cycle.now = t.now + 2)) ∧
  (∀ (s : State),
    s.pending = [] → clockRuns s = true → PortsQuiet s → s.pool.hubCmds = [] →
    (s.xlt.deferSeen = false ∧ s.xlt.deferred = []) → (s.ports.ports.map Prod.fst).Nodup →
      step s = .next (tick s) ∧ (∀ p, portLit s p = true → ((tick s).port p).slots = (s.port p).slots + 25) ∧
      (∀ p, portLit s p = true → ((s.port p).slots + 25) / 65536 ≠ (s.port p).slots / 65536 → ∀ l ∈ (s.port p).dealt,
        Output.filler p l ∈ (tick s).out) ∧
      ((∀ p, portLit s p = true → ((s.port p).slots + 25) / 65536 = (s.port p).slots / 65536) → (tick s).out = s.out))

/-- The spec gives every command an effect or a refusal with a status of its own; so none of them ends in a fault or a refusal of
the model. Where each command has its own effect is said by the statements of its family. -/
def Obligations.EveryCommandCompletes : Prop :=
  (∀ (i : Instr) (s : State),
      SafeOutcome (exec i s))

/-- State.reset is the device as it enters ISLAND (log entry 3): no data domain powered, DeviceTime 0, throttle (2, 16), plot 0
ACTIVE and every other plot EMPTY, no context, extent, program, group, armed watch or session, every counter 0, settings at
their defaults, memories all zero (log entry 4), an empty log and an empty queue. -/
def Obligations.ResetState : Prop :=
  (State.reset.boot.st = .island ∧ State.reset.boot.powered = 0 ∧ State.reset.now = 0 ∧
      State.reset.power.div = 2 ∧ State.reset.power.duty = 16 ∧ (State.reset.plot 0).st = .active ∧
      (∀ n, n ≠ 0 → (State.reset.plot n).st = .empty) ∧ State.reset.xlt.ctxs = [] ∧ (∀ x, (State.reset.ext x).state = .free)
        ∧
      (∀ c, (State.reset.core c).st = .empty) ∧ (∀ p, (State.reset.port p).st = .down) ∧ State.reset.coll.groups = [] ∧
      (∀ w, (State.reset.watch w).st = .free) ∧ (∀ c, ctrVal State.reset c = 0) ∧ (∀ k, counter State.reset k = 0) ∧
      (∀ k d, cfg k d State.reset = d) ∧ (∀ a, Mem.byte State.reset.mem a = 0 ∧ Mem.byte State.reset.spad a = 0) ∧
      State.reset.dict.sessions = [] ∧ State.reset.dict.log = [] ∧ State.reset.pending = [] ∧ State.reset.out = [] ∧
      Canonical State.reset ∧ Calm State.reset)

/-- From every state whose three byte memories are canonical (addresses strictly rising, no entry that is zero), whatever command is
at the front of the queue, a step that answers a next state answers one whose three memories are canonical. So equal memories
are equal data. -/
def Obligations.StepKeepsMemoriesCanonical : Prop :=
  (∀ (s t : State),
    Canonical s → step s = .next t →
      Canonical t)

/-- From every state, for every command at the front: when a step answers a next state, the commands that wait there are those that
waited behind the front, in their order. The hub's own requests never enter the queue. -/
def Obligations.StepTakesOneCommand : Prop :=
  (∀ (s t : State),
    step s = .next t →
      t.pending = s.pending.tail)

/-- From every state, when a step answers a next state, the trace of frames, replies, doorbells, snoops and responses that the block
has sent ends with the whole trace it had before. The trace is the model's own record (log entry 12). -/
def Obligations.TraceOnlyGrows : Prop :=
  (∀ (s t : State),
    step s = .next t →
      s.out <:+ t.out)

/-- settle is what goes on of itself after a command (log entry 21): a queued core reset, waiting accesses, walks, host
transactions, nominations and descriptors, frames and replies that wait for headland buffers or lie in spill, requests of the
hub's own units and their answers, collectives whose turn has come, copies nothing needs any more, a draining device reset. In a
state where none of these waits (Calm) it changes nothing, so the next state of a command is then the state of its own effect. -/
def Obligations.SettleLeavesCalm : Prop :=
  (∀ (s : State),
    Calm s →
      settle s = s)

/-- READ, WRITE, WRITE_MASKED, the eight atomics, SIG_ADD, SIG_MAX, MSG_SEND, COLL_NOTICE, RED_ADD, RED_MIN, RED_MAX, RED_COLL and a
SOWING: exec of the command answers the next state in which the request with that command's opcode has entered the hub, after
which what waits goes on (settle, log entry 21). A request that the hub refuses (R470) is answered with the status of the
refusal and has no other effect: it enters no flow, counts nowhere at the gate and is not held; only what carries its answer,
and counters, change. -/
def Obligations.RequestCommandsEnterTheHub : Prop :=
  (∀ (i : Instr) (r : Req) (s : State),
    requestOf i = some r →
      exec i s = .next (settle (serve r s))) ∧
  (∀ (i : Instr) (r0 r : Req) (s : State) (st d : Nat),
    requestOf i = some r0 → r = normalise s r0 → target (countCells r s) r = .refuse st d →
      ∃ t, exec i s = .next (settle t) ∧
      (r.via = .mgmt ∨ (r.via = .host ∧ s.lania.comp ≠ .lost) → Replied r.via (ackOf r st d) t) ∧
      t.sw.flows = s.sw.flows ∧ t.sw.gate = s.sw.gate ∧ t.sw.heldSigs = s.sw.heldSigs ∧
      OnlyChanges [.sw, .ports, .key, .coll, .counters, .out] s t)

/-- For READ, WRITE, WRITE_MASKED, the atomics, SIG_ADD, SIG_MAX and the reductions (and a sowing's copy form of them): a request
that passes the hub's checks to the window of a core of its plot that is not being reset, that Table 4-1 sends to scratchpad
offset off outside the code region and, when it reads, off any bad word, leaves in the scratchpad exactly the bytes of its
access (the enabled bytes only for WRITE_MASKED, nothing for READ), and hands its reply to a host or management requester. Every
part but those that carry the request and its reply (the switch core, the ports, the key unit's links, the unit answers, the
counters, the trace), the translation caches, bad-word marks, the scratchpads and the free-value count is unchanged: pool memory
and the queue among them. -/
def Obligations.RequestsAtScratchpad : Prop :=
  (∀ (i : Instr) (r0 r : Req) (s u w : State) (c off : Nat),
    requestOf i = some r0 → r = normalise s r0 → u = countCells r s →
    (opClass r.op = 0 ∨ opClass r.op = 1 ∨ opReduce r.op = true) → c < 64 → Passes u r (0x80 + c) →
    ((atNode u r).core c).resetting = false → corePlot (atNode u r) c = some r.h.plot →
    w = (memCheck (askOf r (some c) (some c)) (atNode u r)).2 → stallAhead (atNode u r) r = false →
    (memCheck (askOf r (some c) (some c)) (atNode u r)).1 = .spad off → inCode w c off = false →
    ((opReads r.op = true → badIn w c off (spanOf r.op r.h) = false)) →
      ∃ t, exec i s = .next (settle t) ∧ (opWrites r.op = false → t.spad = s.spad) ∧
      (opWrites r.op = true → r.op ≠ 0x21 → t.spad = Mem.write s.spad (2 ^ 21 * c + off) (accessBytes r.op r.h r.data
        (Mem.read s.spad (2 ^ 21 * c + off) r.h.len)).1) ∧
      (r.op = 0x21 → t.spad = (joinRuns (maskRuns r.data)).foldl (fun m p => Mem.write m (2 ^ 21 * c + (off + p.1)) p.2)
        s.spad) ∧
      (r.via = .mgmt ∨ (r.via = .host ∧ s.lania.comp ≠ .lost) → Replied r.via (okReply r (accessBytes r.op r.h r.data
        (Mem.read s.spad (2 ^ 21 * c + off) (spanOf r.op r.h))).2) t) ∧
      OnlyChanges [.sw, .xlt, .chk, .ports, .key, .coll, .counters, .spad, .out, .free] s t)

/-- For READ, WRITE, WRITE_MASKED, the atomics and the reductions (and SIG_ADD and SIG_MAX at 0xC1 and 0xC2, where they name
memory): a request that passes the hub's checks to node 0xC0, or in plot 0 to 0xC1 or 0xC2, that Table 4-1 and Table 5-5 place
at physical address pa, and that meets no obstacle there (no walk of the snoop filter, no snoop, earlier access, lost line,
retirement, copy or fill) leaves in pool memory exactly the bytes of its access, nothing for READ, and hands its reply to a host
or management requester; the scratchpads, the queue and every unit not named are unchanged. (A write into a collective queue
slot is not this form: it posts a descriptor.) -/
def Obligations.RequestsAtPool : Prop :=
  (∀ (i : Instr) (r0 r : Req) (s u w : State) (lep pa : Nat) (view : Option Nat),
    requestOf i = some r0 → r = normalise s r0 → u = countCells r s →
    (opClass r.op = 0 ∨ opReduce r.op = true ∨ (opClass r.op = 1 ∧ lep ≠ 0xC0)) → 0xC0 ≤ lep → (lep = 0xC0 ∨ r.h.plot = 0) →
    Passes u r lep → w = (memCheck (askOf r none none) (atNode u r)).2 → stallAhead (atNode u r) r = false →
    (memCheck (askOf r none none) (atNode u r)).1 = .pool (.at pa view) → slotRefuses r pa w = false →
    w.coh.walkSince = none → obstacle none (acceptRec r pa view w) (accepted r pa w) = .none →
    ((opWrites r.op = true → paSlot (stored (acceptRec r pa view w) (accepted r pa w)) pa = none)) →
      ∃ t, exec i s = .next (settle t) ∧ (opWrites r.op = false → t.mem = s.mem) ∧
      (opWrites r.op = true → t.mem = Mem.write s.mem pa (accessBytes r.op r.h r.data (Mem.read s.mem pa (spanOf r.op
        r.h))).1) ∧
      (r.via = .mgmt ∨ (r.via = .host ∧ s.lania.comp ≠ .lost) → Replied r.via (okReply r (accessBytes r.op r.h r.data
        (Mem.read s.mem pa (spanOf r.op r.h))).2) t) ∧
      OnlyChanges [.sw, .xlt, .pool, .chk, .ports, .key, .coll, .counters, .mem, .out, .free] s t)

/-- SIG_ADD and SIG_MAX that pass the hub's checks to node 0xC0 and name a counter of the request's plot. -/
def Obligations.SignalsAtHubCounters : Prop :=
  (∀ (via : Ingress) (h : Header) (data : List Byte) (r : Req) (s u : State) (c k : Nat),
    r = normalise s { via, op := 0x60, h, data } → u = countCells r s → Passes u r 0xC0 → c = r.h.opa.toNat →
    k = fieldAt data 0 8 → c < 65536 → ctrIn s r.h.plot c = true → ctrVal s c + k < 2 ^ 64 →
      ∃ t, exec (.sigAdd via h data) s = .next (settle t) ∧
      t.sync.ctrs = s.sync.ctrs.set c (BitVec.ofNat 64 (ctrVal s c + k)) ∧ t.sync.grants = s.sync.grants ∧
      t.sync.watches = s.sync.watches ∧
      (r.via = .mgmt ∨ (r.via = .host ∧ s.lania.comp ≠ .lost) → Replied r.via (ackOf r St.ok 0) t) ∧
      OnlyChanges [.sw, .sync, .ports, .key, .coll, .counters, .out] s t) ∧
  (∀ (via : Ingress) (h : Header) (data : List Byte) (r : Req) (s u : State) (c k : Nat),
    r = normalise s { via, op := 0x60, h, data } → u = countCells r s → Passes u r 0xC0 → c = r.h.opa.toNat →
    k = fieldAt data 0 8 → c < 65536 → ctrIn s r.h.plot c = true → 2 ^ 64 ≤ ctrVal s c + k →
      ∃ t, exec (.sigAdd via h data) s = .next (settle t) ∧ t.sync = s.sync ∧
      Logged 0x8201 [c, ctrVal s c, k, r.h.src, r.h.tag] s t ∧
      (r.via = .mgmt ∨ (r.via = .host ∧ s.lania.comp ≠ .lost) → Replied r.via (ackOf r St.state 0) t)) ∧
  (∀ (via : Ingress) (h : Header) (data : List Byte) (r : Req) (s u : State) (c k : Nat),
    r = normalise s { via, op := 0x61, h, data } → u = countCells r s → Passes u r 0xC0 → c = r.h.opa.toNat →
    k = fieldAt data 0 8 → c < 65536 → ctrIn s r.h.plot c = true →
      ∃ t, exec (.sigMax via h data) s = .next (settle t) ∧
      t.sync.ctrs = s.sync.ctrs.set c (BitVec.ofNat 64 (max (ctrVal s c) k)) ∧ t.sync.grants = s.sync.grants ∧
      t.sync.watches = s.sync.watches ∧
      (r.via = .mgmt ∨ (r.via = .host ∧ s.lania.comp ≠ .lost) → Replied r.via (ackOf r St.ok 0) t) ∧
      OnlyChanges [.sw, .sync, .ports, .key, .coll, .counters, .out] s t)

/-- A message that passes the hub's checks to a core of its plot which has a program, is not being reset, and declares the queue the
message names with slots large enough, is written into the lowest FREE slot of that queue: the 16-byte header of Table 8-3 and
the payload; the slot becomes FILLED, after every slot filled before. The ACK is OK. With no FREE slot the message is refused
with FAIL_STATE, counted, and nothing is stored. -/
def Obligations.MessageIntoReceiveSlot : Prop :=
  (∀ (via : Ingress) (h : Header) (data : List Byte) (r : Req) (s u : State) (c i : Nat) (p : Prog) (d : QueueDecl),
    r = normalise s { via, op := 0x80, h, data } → u = countCells r s → Passes u r (0x80 + c) → c < 64 →
    (s.core c).resetting = false → corePlot s c = some r.h.plot → (s.core c).prog = some p →
    ((p.queues.find? fun d => d.num == queueOf r.h) = some d) → ((s.core c).st = .loaded ∨ (s.core c).st = .running) →
    r.h.len + 16 ≤ d.slotBytes → freeSlot s c d = some i →
      ∃ t, exec (.msgSend via h data) s = .next (settle t) ∧
      t.spad = Mem.write s.spad (2 ^ 21 * c + (d.off + i * d.slotBytes)) (slotHeader r ++ data) ∧
      slotState t c d.num i = some (.filled (s.core c).nextFill) ∧ (t.core c).nextFill = (s.core c).nextFill + 1 ∧
      (∀ j, j ≠ 1024 * d.num + i → (t.core c).slots.find j = (s.core c).slots.find j) ∧ (∀ e, e ≠ c → t.core e = s.core e) ∧
      (t.core c).threads = (s.core c).threads ∧
      (r.via = .mgmt ∨ (r.via = .host ∧ s.lania.comp ≠ .lost) → Replied r.via (ackOf r St.ok 0) t) ∧
      OnlyChanges [.sw, .fur, .ports, .key, .coll, .chk, .counters, .spad, .out] s t) ∧
  (∀ (via : Ingress) (h : Header) (data : List Byte) (r : Req) (s u : State) (c : Nat) (p : Prog) (d : QueueDecl),
    r = normalise s { via, op := 0x80, h, data } → u = countCells r s → Passes u r (0x80 + c) → c < 64 →
    (s.core c).resetting = false → corePlot s c = some r.h.plot → (s.core c).prog = some p →
    ((p.queues.find? fun d => d.num == queueOf r.h) = some d) → freeSlot s c d = none →
      ∃ t, exec (.msgSend via h data) s = .next (settle t) ∧ counter t 0xC40805 = counter s 0xC40805 + 1 ∧
      (r.via = .mgmt ∨ (r.via = .host ∧ s.lania.comp ≠ .lost) → Replied r.via (ackOf r St.state 0) t) ∧
      OnlyChanges [.sw, .ports, .key, .coll, .counters, .out] s t)

/-- A sowing of any opcode that passes the hub's checks, waits behind no earlier request of its way, finds a gather record free and,
from an internal node, room in the headland issue buffer and no earlier frame of its own in another headland tile to keep
behind. With qualifying ports that all have the features it needs: it takes one gather record that awaits as many outcomes as
there are copies, and for each port one copy whose destination is that port joins the port's flow, or is held at the gate where
it is a SIG request that the gate holds (R46). With no qualifying port it is answered at once with a SOW_ACK of no copies.
Nothing but the switch core, the ports and the counters changes (and, where it is answered, what carries the answer). -/
def Obligations.SowingStarts : Prop :=
  (∀ (via : Ingress) (op : Nat) (h : Header) (data : List Byte) (r : Req) (s u : State),
    r = normalise s { via, op, h, data } → u = countCells r s → target u r = .sow → blocked u r = false →
    gatherRoom u (sowTile u r) = true → sowPorts u r ≠ [] → (∀ p ∈ sowPorts u r, lacksFeature u p r = none) →
    (∀ x ∈ tileFrames u (sowTile u r), x.gather ≠ some u.sw.nextGather) →
    (sowTile u r < 128 ∨ (issueRoom u (sowTile u r) { req := r, cells := cellsOf data, gather := some u.sw.nextGather } =
      true ∧ u.sw.issueKept = [] ∧ ∀ p ∈ sowPorts u r, nodeAhead u (sowTile u r) p
      { req := r, cells := cellsOf data, gather := some u.sw.nextGather } = false)) →
      ∃ t, exec (.sowing via op h data) s = .next (settle t) ∧
      (∃ g ∈ t.sw.gathers, g.ident = s.sw.nextGather ∧ g.req = r ∧ g.sent = (sowPorts u r).length ∧ g.open_ = (sowPorts u
        r).length) ∧
      (∀ p ∈ sowPorts u r, if opClass op = 1 ∧ gated (copyTo s r p) = true ∧ sigHeld u (copyTo s r p) = true then
        { req := copyTo s r p, gather := some s.sw.nextGather } ∈ t.sw.heldSigs else ∃ f ∈ t.sw.flows, ∃ x ∈ f.queue ++
        f.spill, f.ingress = sowTile u r ∧ f.egress = p ∧ x.gather = some s.sw.nextGather ∧ x.req = copyTo s r p) ∧
      OnlyChanges [.sw, .counters, .ports] s t) ∧
  (∀ (via : Ingress) (op : Nat) (h : Header) (data : List Byte) (r : Req) (s u : State),
    r = normalise s { via, op, h, data } → u = countCells r s → target u r = .sow → blocked u r = false →
    gatherRoom u (sowTile u r) = true → sowPorts u r = [] →
      ∃ t, exec (.sowing via op h data) s = .next (settle t) ∧
      (r.via = .mgmt ∨ (r.via = .host ∧ s.lania.comp ≠ .lost) → Replied r.via
        { replyTo r with op := 0xC9, status := St.ok, detail := 0 } t) ∧
      OnlyChanges [.sw, .ports, .key, .coll, .counters, .out] s t)

/-- RD_DATA, ATOM_DATA and ACK (or SOW_ACK) on a port that carries replies, for whose requester, tag and replying node the port has
no forward record: the count of late replies rises by one, nothing is sent, and nothing but counters changes. -/
def Obligations.LateReplyIsDiscarded : Prop :=
  (∀ (i : Instr) (p : Nat) (r : Reply) (s : State),
    replyOf i = some (p, r) → carriesReplies s p = true →
    (((s.records p).find? fun f => f.is r.dst r.tag && f.req.h.dst == r.src) = none) →
      ∃ t, exec i s = .next (settle t) ∧ counter t 0xC40101 = counter s 0xC40101 + 1 ∧ t.out = s.out ∧
      OnlyChanges [.counters] s t)

/-- RD_DATA, ATOM_DATA or ACK for which the port has a forward record (of its requester, tag and replying node) of a request that is
no copy of a sowing: the record is released, and the reply goes to the requester that issued the request. Of a copy of a sowing
that has succeeded: its record is released and its gather record awaits one outcome fewer, and the last one releases the gather
record and hands the SOW_ACK to the requester. FORWARD_TIMEOUT for a record that has had no reply within ForwardTimeout: the
requester gets FAIL_TIMEOUT with this hub and port as DETAIL and the record is released; before that it changes nothing. -/
def Obligations.ReplyReleasesItsRecord : Prop :=
  (∀ (i : Instr) (p : Nat) (r : Reply) (s : State) (f : FwdRec),
    replyOf i = some (p, r) → carriesReplies s p = true →
    (((s.records p).find? fun f => f.is r.dst r.tag && f.req.h.dst == r.src) = some f) → f.gather = none →
      ∃ t, exec i s = .next (settle t) ∧ t.records p = (s.records p).erase f ∧ (∀ q, q ≠ p → t.records q = s.records q) ∧
      (f.req.via = .mgmt ∨ (f.req.via = .host ∧ s.lania.comp ≠ .lost) → Replied f.req.via r t) ∧
      OnlyChanges [.sw, .ports, .key, .coll, .counters, .out] s t) ∧
  (∀ (i : Instr) (p g : Nat) (r : Reply) (s : State) (f : FwdRec) (x y : Gather),
    replyOf i = some (p, r) → carriesReplies s p = true →
    (((s.records p).find? fun f => f.is r.dst r.tag && f.req.h.dst == r.src) = some f) → f.gather = some g →
    ((s.sw.gathers.find? fun x => x.ident == g) = some x) → r.status = St.ok → y = { x with open_ := x.open_ - 1 } →
      ∃ t, exec i s = .next (settle t) ∧ t.records p = (s.records p).erase f ∧
      (1 < x.open_ → t.sw.gathers = updFirst (fun x => x.ident == g) (fun _ => y) s.sw.gathers ∧ t.out = s.out) ∧
      (x.open_ ≤ 1 → (∀ z ∈ t.sw.gathers, z.ident ≠ g) ∧ (x.req.via = .mgmt ∨ (x.req.via = .host ∧ s.lania.comp ≠ .lost) →
        Replied x.req.via (sowAckOf y) t)) ∧
      OnlyChanges [.sw, .ports, .key, .coll, .counters, .out] s t) ∧
  (∀ (p src tag : Nat) (s : State) (f : FwdRec),
    (((s.records p).find? fun f => f.is src tag) = some f) → f.gather = none →
    elapsed s f.since (forwardTimeoutNs s) = true →
      ∃ t, exec (.forwardTimeout p src tag) s = .next (settle t) ∧ t.records p = (s.records p).erase f ∧
      (∀ q, q ≠ p → t.records q = s.records q) ∧
      (f.req.via = .mgmt ∨ (f.req.via = .host ∧ s.lania.comp ≠ .lost) → Replied f.req.via (ackOf f.req St.timeout (hubDetail
        s p)) t) ∧
      OnlyChanges [.sw, .ports, .key, .coll, .counters, .out] s t) ∧
  (∀ (p src tag : Nat) (s : State) (f : FwdRec),
    (((s.records p).find? fun f => f.is src tag) = some f) → elapsed s f.since (forwardTimeoutNs s) = false →
      exec (.forwardTimeout p src tag) s = .next (settle s))

/-- A SIG_ADD or SIG_MAX from any source but the hub's own units, past the hub's refusals and with nothing of its way waiting before
it, while an earlier modifying MEM request of the same pair of nodes is unanswered or an earlier SIG of the pair is held: it is
held, and has no other effect. SIG_GATE_RELEASE of a pair with nothing unanswered, and no modifying request that waits at the
head of its ingress, takes the oldest held SIG of the pair on: into the flow of the egress port it is bound for, to its node of
the hub, or, a copy of a sowing from a port, into the flow of its port. While something of the pair is unanswered, or waits so,
it changes nothing. -/
def Obligations.SignalGateHoldsAndReleases : Prop :=
  (∀ (i : Instr) (r0 r : Req) (s u : State),
    requestOf i = some r0 → opClass r0.op = 1 → r = normalise s r0 → u = countCells r s →
    ((∃ lep, target u r = .here lep) ∨ (∃ p, target u r = .egress p)) → blocked u r = false → gateFull u r = false →
    r.via ≠ .unit → s.chk.badMeta.contains (.gate r.h.src r.h.dst) = false → sigHeld u r = true →
      ∃ t, exec i s = .next (settle t) ∧ t.sw.heldSigs = s.sw.heldSigs ++ [{ req := r, gather := none }] ∧ t.sync = s.sync ∧
      t.out = s.out ∧ OnlyChanges [.sw, .counters] s t) ∧
  (∀ (src dst p : Nat) (s u : State) (x : HeldSig),
    ((s.sw.heldSigs.find? fun x => x.req.h.src == src && x.req.h.dst == dst) = some x) → x.gather = none →
    gateOpen s src dst = 0 → gateAhead s src dst = false →
    u =
      { s with sw := { s.sw with heldSigs := dropFirst (fun y => y.req.h.src == src && y.req.h.dst == dst) s.sw.heldSigs } } →
    target s x.req = .egress p → s.flow (ingressTile x.req p) p (opClass x.req.op) = none →
    (ingressTile x.req p < 128 ∨ (issueRoom u (ingressTile x.req p)
      { req := x.req, cells := cellsOf x.req.data, gather := none } = true ∧ nodeAhead u (ingressTile x.req p) p
      { req := x.req, cells := cellsOf x.req.data, gather := none } = false ∧ s.sw.issueKept = [])) →
      ∃ t, exec (.sigGateRelease src dst) s = .next (settle t) ∧ t.sw.heldSigs = u.sw.heldSigs ∧
      t.sw.flows = s.sw.flows ++
        [{ ingress := ingressTile x.req p, egress := p, cls := opClass x.req.op, queue := [{ req := x.req, cells := cellsOf x.req.data, gather := none }] }]
        ∧
      OnlyChanges [.sw] s t) ∧
  (∀ (src dst lep : Nat) (s : State) (x : HeldSig),
    ((s.sw.heldSigs.find? fun x => x.req.h.src == src && x.req.h.dst == dst) = some x) → x.gather = none →
    gateOpen s src dst = 0 → gateAhead s src dst = false → target s x.req = .here lep → entryTile x.req lep = none →
      exec (.sigGateRelease src dst) s = .next (settle (serveHere lep x.req
        { s with sw := { s.sw with heldSigs := dropFirst (fun y => y.req.h.src == src && y.req.h.dst == dst) s.sw.heldSigs } }))) ∧
  (∀ (src dst g : Nat) (s : State) (x : HeldSig),
    ((s.sw.heldSigs.find? fun x => x.req.h.src == src && x.req.h.dst == dst) = some x) → x.gather = some g →
    gateOpen s src dst = 0 → gateAhead s src dst = false → portServes s (lepOf dst) = true → gatherTile s g < 128 →
      ∃ t, exec (.sigGateRelease src dst) s = .next (settle t) ∧
      t.sw.heldSigs = dropFirst (fun y => y.req.h.src == src && y.req.h.dst == dst) s.sw.heldSigs ∧
      (∃ f ∈ t.sw.flows, ∃ y ∈ f.queue ++ f.spill, f.ingress = gatherTile s g ∧ f.egress = lepOf dst ∧ y.req = x.req ∧
        y.gather = some g) ∧
      OnlyChanges [.sw, .ports, .counters] s t) ∧
  (∀ (src dst : Nat) (s : State),
    (gateOpen s src dst ≠ 0 ∨ gateAhead s src dst = true) →
      exec (.sigGateRelease src dst) s = .next (settle s))

/-- FRAME_FORWARD of a flow toward a port that the arbiter of the egress grants (room in the egress stage and a free forward record
among its conditions), its frame not barred: the head frame leaves the flow, joins the end of the stage, and takes a forward
record from this moment on. Toward a node of the hub it passes on into the headland entry; a request that waited at the head of
its ingress, once what it waited for is there, takes its way from the checks on. A frame that may no longer go fails with the
status of its bar and passes nowhere. EGRESS_FRAME_TRANSMIT of the oldest frame of its class whose cells have credits, with room
in the replay buffer: the frame leaves the stage and its cells' credits are taken. With no such frame it changes nothing. -/
def Obligations.FramesCrossTheSwitch : Prop :=
  (∀ (i p k : Nat) (s : State) (f : Flow) (x : Frame) (rest : List Frame),
    s.flow i p k = some f → f.queue = x :: rest → f.spilled = false → p < 128 → frameBarred s p x = none →
    granted s f = true →
      ∃ t, exec (.frameForward i p k) s = .next (settle t) ∧ ((t.flow i p k).map Flow.queue).getD [] = rest ∧
      t.staged p = s.staged p ++ [(i, x)] ∧
      t.records p = s.records p ++ [{ req := x.req, since := s.now, gather := x.gather }] ∧
      (∀ q, q ≠ p → t.staged q = s.staged q ∧ t.records q = s.records q) ∧ OnlyChanges [.sw, .ports] s t) ∧
  (∀ (i p k : Nat) (s : State) (f : Flow) (x : Frame) (rest : List Frame),
    s.flow i p k = some f → f.queue = x :: rest → f.spilled = false → 256 ≤ p → frameBarred s p x = none →
    granted s f = true →
      exec (.frameForward i p k) s = .next (settle (passOn f x (leftIngress x (setFlow { f with queue := rest } s))))) ∧
  (∀ (i k : Nat) (s : State) (f : Flow) (x : Frame) (before rest : List Frame),
    s.flow i 128 k = some f → waitSplit s [] f.queue = some (before, x, rest) →
      exec (.frameForward i 128 k) s = .next (settle (route false x.req (setFlow { f with queue := before ++ rest } s)))) ∧
  (∀ (i p k st d : Nat) (s : State) (f : Flow) (x : Frame) (rest : List Frame),
    s.flow i p k = some f → f.queue = x :: rest → f.spilled = false → p ≠ 128 → x.gather = none →
    frameBarred s p x = some (st, d) →
      ∃ t, exec (.frameForward i p k) s = .next (settle t) ∧ ((t.flow i p k).map Flow.queue).getD [] = rest ∧
      (x.req.via = .mgmt ∨ (x.req.via = .host ∧ s.lania.comp ≠ .lost) → Replied x.req.via (ackOf x.req st d) t) ∧
      t.sw.stage = s.sw.stage ∧ t.sw.records = s.sw.records ∧ OnlyChanges [.sw, .ports, .key, .coll, .counters, .out] s t) ∧
  (∀ (p i : Nat) (s : State) (x : Frame),
    stageNext s p (s.staged p) = some (i, x) → portServes s p = true → (s.port p).held = [] →
    canFrame s p (.request x.req) = true → x.req.via ≠ .mgmt →
      ∃ t, exec (.egressFrameTransmit p) s = .next t ∧ t.staged p = (s.staged p).erase (i, x) ∧
      (t.port p).credits = (s.port p).credits.take (opClass x.req.op) x.cells ∧
      (t.port p).txSeq = ((s.port p).txSeq + 1) % 4096 ∧
      (t.port p).replay = (s.port p).replay ++ [nextFrame s p (.request x.req)] ∧
      t.out = .link p (nextFrame s p (.request x.req)) (s.port p).blockNo :: s.out ∧
      (∀ q, q ≠ p → t.port q = s.port q ∧ t.staged q = s.staged q) ∧ OnlyChanges [.sw, .ports, .key, .counters, .out] s t) ∧
  (∀ (p i : Nat) (s : State) (x : Frame),
    stageNext s p (s.staged p) = some (i, x) →
      (i, x) ∈ s.staged p ∧ x.cells ≤ (s.port p).credits.of (opClass x.req.op) ∧
      ((s.staged p).find? fun z => opClass z.2.req.op == opClass x.req.op) = some (i, x)) ∧
  (∀ (p : Nat) (s : State),
    stageNext s p (s.staged p) = none →
      exec (.egressFrameTransmit p) s = .next s)

/-- SPILL_ENTRY for an ingress and class one of whose flows meets conditions 1 to 3 of R79 (spillWanted), with room for 64 cells in
the plot's spill share and a free spill flow: that flow enters spill and the entry is counted. SPILL_READBACK of a spilled flow
whose on-chip frames have left, its oldest spilled frame granted its egress: that frame passes into the stage with a forward
record and is counted, and the flow leaves spill when no frame of it is left in the spill area. A frame that fails its check on
the way back fails with FAIL_INTERNAL and event SPILL_DATA_LOST (0x4104). -/
def Obligations.SpillEntryAndReadback : Prop :=
  (∀ (i k : Nat) (s : State) (f : Flow),
    ((s.sw.flows.find? fun f => f.ingress == i && f.cls == k && spillWanted s f f.plot) = some f) →
    spillUsed s f.plot + 64 ≤ spillShareCells s f.plot → (s.sw.flows.filter Flow.spilled).length < 4096 →
      ∃ t, exec (.spillEntry i k) s = .next t ∧ t.flow i f.egress k = some { f with spilled := true } ∧
      counter t 0xC40201 = counter s 0xC40201 + 1 ∧ (∀ e, e ≠ f.egress → t.flow i e k = s.flow i e k) ∧
      OnlyChanges [.sw, .counters] s t) ∧
  (∀ (i p k : Nat) (s : State) (f : Flow) (x : Frame) (rest : List Frame),
    s.flow i p k = some f → f.spilled = true → f.queue = [] → f.spill = x :: rest → x.onChip = false → p < 128 →
    frameBarred s p x = none → granted s f = true →
      ∃ t, exec (.spillReadback i p k true) s = .next (settle t) ∧
      (((t.flow i p k).map fun f => f.queue ++ f.spill).getD [] = rest) ∧
      ((t.flow i p k).map Flow.spilled).getD false = !rest.all Frame.onChip ∧ t.staged p = s.staged p ++ [(i, x)] ∧
      t.records p = s.records p ++ [{ req := x.req, since := s.now, gather := x.gather }] ∧
      counter t 0xC40203 = counter s 0xC40203 + x.cells ∧ OnlyChanges [.sw, .counters] s t) ∧
  (∀ (i p k : Nat) (s : State) (f : Flow) (x : Frame) (rest : List Frame),
    s.flow i p k = some f → f.spilled = true → f.queue = [] → f.spill = x :: rest → x.onChip = false → x.gather = none →
      ∃ t, exec (.spillReadback i p k false) s = .next (settle t) ∧
      Logged 0x4104 [x.req.h.plot, i, p, k, x.req.h.src, x.req.h.tag] s t ∧
      (x.req.via = .mgmt ∨ (x.req.via = .host ∧ s.lania.comp ≠ .lost) → Replied x.req.via (ackOf x.req St.internal 0) t) ∧
      t.sw.stage = s.sw.stage ∧ t.sw.records = s.sw.records ∧
      OnlyChanges [.sw, .ports, .key, .coll, .counters, .log, .out] s t)

/-- GLEANER_AUDIT at least 100 ms after the one before; earlier it changes nothing. A cell found on no list that is accounted for
otherwise is neither remembered nor reclaimed. Cells not accounted for that the audit before did not find are only remembered. A
request cell of a port tile that it did find, whose transaction is unknown, is reclaimed: its credit is returned to the far end
and the reclamation is counted and kept in the count of the last audit. No flow or forward record changes. -/
def Obligations.GleanerAudits : Prop :=
  (∀ (found : List LostCell) (s : State),
    elapsed s s.sw.lastAudit 100000000 = true → (∀ c ∈ found, accounted s c = false) →
    (∀ c ∈ found, s.sw.unaccounted.any (sameCell c) = false) → s.sw.reclaimStreak = [] →
      ∃ t, exec (.gleanerAudit found) s = .next (settle t) ∧ t.sw.unaccounted = found ∧ t.sw.lastAudit = s.now ∧
      t.sw.lastReclaims = 0 ∧ t.sw.flows = s.sw.flows ∧ t.sw.records = s.sw.records ∧ OnlyChanges [.sw, .counters] s t) ∧
  (∀ (found : List LostCell) (s : State),
    elapsed s s.sw.lastAudit 100000000 = true → (∀ c ∈ found, accounted s c = true) → s.sw.reclaimStreak = [] →
      ∃ t, exec (.gleanerAudit found) s = .next (settle t) ∧ t.sw.unaccounted = [] ∧ t.sw.lastReclaims = 0 ∧
      t.sw.flows = s.sw.flows ∧ t.sw.records = s.sw.records ∧ OnlyChanges [.sw, .counters] s t) ∧
  (∀ (found : List LostCell) (s : State),
    elapsed s s.sw.lastAudit 100000000 = false →
      exec (.gleanerAudit found) s = .next (settle s)) ∧
  (∀ (c d : LostCell) (s : State),
    elapsed s s.sw.lastAudit 100000000 = true → s.sw.unaccounted = [d] → sameCell c d = true → c.net = 0 → c.tile < 128 →
    c.spill = false → c.first = none → accounted s c = false →
      ∃ t, exec (.gleanerAudit [c]) s = .next (settle t) ∧ t.sw.unaccounted = [] ∧ t.sw.lastReclaims = 1 ∧
      counter t 0xC40206 = counter s 0xC40206 + 1 ∧ (t.port c.tile).freed = (s.port c.tile).freed.add c.cls 1 ∧
      t.sw.flows = s.sw.flows ∧ t.sw.records = s.sw.records ∧ OnlyChanges [.sw, .ports, .counters, .log, .out] s t)

/-- CTX_CREATE of an inactive context identifier of some plot's range, with a root inside the mirror and fewer than 4,096 contexts:
the context is active with that root, STATUS is OK. CTX_DESTROY of an active context that has no outstanding fault: it is active
no longer as a destination of new accesses (draining) and DONE is 0. CTX_SLOT_FREED of a draining context none of whose accesses
is unanswered: the slot is free, and no cache of the hub or of a core holds an entry or a line of it. Every other context is
unchanged. -/
def Obligations.ContextCommands : Prop :=
  (∀ (ctx n : Nat) (fail : Bool) (s : State),
    s.lania.up = true → csOn s = true → s.xlt.ctxs.find ctx = none → s.xlt.ctxs.length < 4096 → ctxPlot s ctx = some n →
    mirrorLo s ≤ 2 ^ 12 * s.xlt.ctxRoot → 2 ^ 12 * s.xlt.ctxRoot < mirrorHi s →
      ∃ t, exec (.ctxCreate ctx fail) s = .next t ∧
      t.xlt =
        { s.xlt with ctxs := s.xlt.ctxs.set ctx { root := 2 ^ 12 * s.xlt.ctxRoot, fail }, ctxStatus := St.ok, ctxDone := true, ctxLast := none }
        ∧
      t.out = .regAck St.ok :: s.out ∧ OnlyChanges [.xlt, .out] s t) ∧
  (∀ (ctx : Nat) (c : Ctx) (s : State),
    s.lania.up = true → csOn s = true → s.xlt.ctxs.find ctx = some c → c.draining = false →
    (∀ kv ∈ s.xlt.faults, kv.2.ctx ≠ ctx) → (∀ e ∈ s.xlt.deferred, e.ctx ≠ ctx) →
      ∃ t, exec (.ctxDestroy ctx) s = .next (settle t) ∧
      t.xlt =
        { s.xlt with ctxs := s.xlt.ctxs.set ctx { c with draining := true }, ctxStatus := St.ok, ctxDone := false, ctxLast := some ctx }
        ∧
      t.out = .regAck St.ok :: s.out ∧ OnlyChanges [.xlt, .out] s t) ∧
  (∀ (ctx : Nat) (c : Ctx) (s : State),
    s.xlt.ctxs.find ctx = some c → c.draining = true → ctxBusy s ctx = false →
      ∃ t, exec (.ctxSlotFreed ctx) s = .next t ∧ t.xlt.ctxs.find ctx = none ∧
      (∀ d, d ≠ ctx → t.xlt.ctxs.find d = s.xlt.ctxs.find d) ∧ (∀ e ∈ t.xlt.hubTlb, e.ctx ≠ ctx) ∧
      (∀ kv ∈ t.xlt.coreTlb, ∀ e ∈ kv.2, e.ctx ≠ ctx) ∧ (∀ kc ∈ t.fur.cores, ∀ l ∈ kc.2.cache, l.ctx ≠ ctx) ∧
      (∀ e, e ∈ s.xlt.hubTlb → e.ctx ≠ ctx → e ∈ t.xlt.hubTlb) ∧ OnlyChanges [.xlt, .fur] s t)

/-- GEN_PUBLISH of a value greater than the last: XLT_GEN_ACK holds it at once when every Lania write is visible to the walker and
no earlier generation waits; while one is not, it is not acknowledged yet and waits behind those published before. A value not
greater is ignored and counted. WALK_COMPLETE of a walk of the present epoch that finds a VALID leaf: the leaf is in the hub's
and the core's cache. When the epoch has advanced since the walk began, its result is discarded without being cached and the
walk starts again in the present epoch. -/
def Obligations.GenerationsAndWalks : Prop :=
  (∀ (g : U64) (s : State),
    s.lania.up = true → csOn s = true → s.xlt.genAck.toNat < g.toNat → (s.xlt.genWaits = [] ∧ s.xlt.resolves = []) →
    laniaWrites s = false →
      exec (.genPublish g) s = .next (settle { s with xlt := { s.xlt with genAck := g }, out := .regAck St.ok :: s.out })) ∧
  (∀ (g : U64) (s : State),
    s.lania.up = true → csOn s = true → s.xlt.genAck.toNat < g.toNat → laniaWrites s = true →
      exec (.genPublish g) s = .next (settle
        { s with xlt := { s.xlt with genWaits := s.xlt.genWaits ++ [g] }, out := .regAck St.ok :: s.out })) ∧
  (∀ (g : U64) (s : State),
    s.lania.up = true → csOn s = true → g.toNat ≤ s.xlt.genAck.toNat →
      ∃ t, exec (.genPublish g) s = .next (settle t) ∧ counter t 0xC4030B = counter s 0xC4030B + 1 ∧
      OnlyChanges [.counters, .out] s t) ∧
  (∀ (core ctx page size e : Nat) (w : Walk) (c : Ctx) (s : State),
    (((s.xlt.walks.take 256).find? fun w => w.core == core && w.ctx == ctx && w.page == page) = some w) →
    s.xlt.wrapping = false → w.epoch = s.xlt.epoch → s.xlt.ctxs.find ctx = some c → c.draining = false →
    walk s c.root (page * frameBytes) = .leaf size e →
      ∃ t, exec (.walkComplete core ctx page) s = .next t ∧
      { ctx := ctx, page := page, size := size, leaf := BitVec.ofNat 64 e } ∈ t.xlt.hubTlb ∧
      { ctx := ctx, page := page, size := size, leaf := BitVec.ofNat 64 e } ∈ t.xlt.coreTlb.getD core [] ∧
      (∀ d, d ≠ core → t.xlt.coreTlb.getD d [] = s.xlt.coreTlb.getD d []) ∧ t.xlt.ctxs = s.xlt.ctxs ∧
      OnlyChanges [.xlt, .pool, .key, .counters, .free] s t) ∧
  (∀ (core ctx page : Nat) (w : Walk) (s : State),
    (((s.xlt.walks.take 256).find? fun w => w.core == core && w.ctx == ctx && w.page == page) = some w) →
    s.xlt.wrapping = false → w.epoch ≠ s.xlt.epoch →
      ∃ t, exec (.walkComplete core ctx page) s = .next t ∧ t.xlt.hubTlb = s.xlt.hubTlb ∧ t.xlt.coreTlb = s.xlt.coreTlb ∧
      ((t.xlt.walks.find? fun w => w.core == core && w.ctx == ctx && w.page == page) = some { w with epoch := s.xlt.epoch })
        ∧
      OnlyChanges [.xlt, .counters] s t)

/-- FAULT_RECORD_WRITE of an unrecorded entry, with the queue enabled and not full, CoalesceWindow after the entry opened, no other
record being written, and no obstacle at the slot's line (as for any request at the pool): the 64 bytes of Table 4-5 are at the
next slot, PROD and the count have advanced by one modulo the ring, PHASE inverts when PROD wraps, and the entry counts as
recorded. FAULT_DEFERRED_RECORD with room: the oldest fault that waited opens the lowest free entry, whose epoch and time are
those of that moment; without room it goes on waiting. FQ_CONSUME of k records that are there: CONS moves and the count falls by
k; a value that names more records than are unconsumed is ignored. FAULT_DOORBELL_REPEAT with nothing unconsumed, or before the
repeat period has passed, changes nothing; with records unconsumed for the repeat period it rings again. -/
def Obligations.FaultQueueCommands : Prop :=
  (∀ (n : Nat) (e : FaultEntry) (s : State) (r : Req),
    s.xlt.faults.find n = some e → n < 4096 → e.recorded = false → s.xlt.fqEnable = true → s.xlt.fqCount < 4096 →
    elapsed s e.since (cfg 0x504004 200 s) = true → recordBusy s = none →
    r = unitReq s 0 (nodeOf s 0xC0) Op.write 0 0 64 0 (faultRecord s n e) → slotRefuses r (faultSlot s) s = false →
    s.coh.walkSince = none → obstacle none (acceptRec r (faultSlot s) none s) (accepted r (faultSlot s) s) = .none →
      ∃ t, exec (.faultRecordWrite n) s = .next t ∧ faultSlot s = 2 ^ 18 * s.xlt.fqBase + 64 * s.xlt.fqProd ∧
      t.mem = Mem.write s.mem (faultSlot s) (faultRecord s n e) ∧ t.xlt.faults.find n = some { e with recorded := true } ∧
      (∀ m, m < 4096 → m ≠ n → t.xlt.faults.find m = s.xlt.faults.find m) ∧ t.xlt.fqProd = (s.xlt.fqProd + 1) % 4096 ∧
      t.xlt.fqCount = s.xlt.fqCount + 1 ∧ t.xlt.fqPhase = (if s.xlt.fqProd = 4095 then !s.xlt.fqPhase else s.xlt.fqPhase) ∧
      t.xlt.hubTlb = s.xlt.hubTlb ∧ t.xlt.ctxs = s.xlt.ctxs ∧ t.xlt.deferred = s.xlt.deferred ∧
      OnlyChanges [.xlt, .mem, .pool, .key, .chk, .lania, .counters, .out] s t) ∧
  (∀ (n : Nat) (e : FaultEntry) (rest : List FaultEntry) (s : State),
    s.xlt.deferred = e :: rest → faultRoom s = true → freeEntry s = some n →
      ∃ t, exec .faultDeferredRecord s = .next t ∧
      t.xlt.faults = s.xlt.faults.set n { e with epoch := s.xlt.epoch, since := s.now } ∧ t.xlt.deferred = rest ∧
      counter t 0xC40304 = counter s 0xC40304 + 1 ∧ OnlyChanges [.xlt, .counters, .log, .out] s t) ∧
  (∀ (s : State),
    faultRoom s = false →
      ∃ t, exec .faultDeferredRecord s = .next t ∧ t.xlt.faults = s.xlt.faults ∧ t.xlt.deferred = s.xlt.deferred ∧
      OnlyChanges [.xlt, .log, .counters, .out] s t) ∧
  (∀ (s : State),
    s.xlt.fqCount ≠ 0 → elapsed s s.xlt.fqRung (cfg 0x504002 2000 s) = true →
      exec .faultDoorbellRepeat s = .next (ringDoorbell 1 0 s.xlt.fqProd { s with xlt := { s.xlt with fqRung := s.now } })) ∧
  (∀ (s : State),
    s.xlt.fqCount = 0 →
      exec .faultDoorbellRepeat s = .next s) ∧
  (∀ (s : State),
    elapsed s s.xlt.fqRung (cfg 0x504002 2000 s) = false →
      exec .faultDoorbellRepeat s = .next s) ∧
  (∀ (v k : Nat) (s : State),
    s.lania.up = true → csOn s = true → v < 4096 → k = (v + 4096 - s.xlt.fqCons) % 4096 → v ≠ s.xlt.fqCons →
    k ≤ s.xlt.fqCount →
      exec (.fqConsume v) s = .next
        { s with xlt := { s.xlt with fqCons := v, fqCount := s.xlt.fqCount - k }, out := .regAck St.ok :: s.out }) ∧
  (∀ (v : Nat) (s : State),
    s.lania.up = true → csOn s = true → v < 4096 → v ≠ s.xlt.fqCons → s.xlt.fqCount < (v + 4096 - s.xlt.fqCons) % 4096 →
      exec (.fqConsume v) s = .next { s with out := .regAck St.ok :: s.out })

/-- With no generation waiting to be acknowledged, FAULT_RESOLVE_RETRY of an open entry frees it, and every descriptor parked on its
page replays its access (faultOver with no status: log entry 34). FAULT_RESOLVE_FAIL with FAIL_TRANSLATION, FAIL_PROTECTION or
FAIL_WITHDRAWN frees it, and those accesses are refused with that status. FAULT_EXPIRED once the entry is unresolved for
FaultServiceTimeout does as FAIL with FAIL_TRANSLATION and raises XLT_FAULT_EXPIRED (0x5102); before that it changes nothing.
When no descriptor is parked on the page any more (waiters none), nothing but the entry, the status register and the
acknowledgement changes. An entry that is not open, or another status, sets FAULT_STATUS to FAIL_STATE and does nothing else.
While a generation waits, a resolve waits behind it and has no effect yet. -/
def Obligations.FaultsAreResolved : Prop :=
  (∀ (n : Nat) (e : FaultEntry) (s : State),
    s.lania.up = true → csOn s = true → s.xlt.genWaits = [] → s.xlt.faults.find n = some e →
      ∃ t, exec (.faultResolveRetry n) s = .next (settle t) ∧
      t = regAck St.ok (faultOver e none
        { s with xlt := { s.xlt with faultStatus := St.ok, faults := s.xlt.faults.erase n } }) ∧
      (e.waiters = [] → t.xlt = { s.xlt with faultStatus := St.ok, faults := s.xlt.faults.erase n } ∧ t.out = .regAck St.ok
        :: s.out ∧ OnlyChanges [.xlt, .out] s t)) ∧
  (∀ (n st : Nat) (e : FaultEntry) (s : State),
    s.lania.up = true → csOn s = true → s.xlt.genWaits = [] → s.xlt.faults.find n = some e →
    (st = St.translation ∨ st = St.protection ∨ st = St.withdrawn) →
      ∃ t, exec (.faultResolveFail n st) s = .next (settle t) ∧
      t = regAck St.ok (faultOver e (some st)
        { s with xlt := { s.xlt with faultStatus := St.ok, faults := s.xlt.faults.erase n } }) ∧
      (e.waiters = [] → t.xlt = { s.xlt with faultStatus := St.ok, faults := s.xlt.faults.erase n } ∧ t.out = .regAck St.ok
        :: s.out ∧ OnlyChanges [.xlt, .out] s t)) ∧
  (∀ (n : Nat) (s : State),
    s.lania.up = true → csOn s = true → s.xlt.genWaits = [] → s.xlt.faults.find n = none →
      exec (.faultResolveRetry n) s = .next (settle
        { s with xlt := { s.xlt with faultStatus := St.state }, out := .regAck St.ok :: s.out })) ∧
  (∀ (n st : Nat) (s : State),
    s.lania.up = true → csOn s = true → s.xlt.genWaits = [] →
    (s.xlt.faults.find n = none ∨ ¬ (st = St.translation ∨ st = St.protection ∨ st = St.withdrawn)) →
      exec (.faultResolveFail n st) s = .next (settle
        { s with xlt := { s.xlt with faultStatus := St.state }, out := .regAck St.ok :: s.out })) ∧
  (∀ (n st : Nat) (s : State),
    s.lania.up = true → csOn s = true → s.xlt.genWaits ≠ [] →
      exec (.faultResolveRetry n) s = .next (settle
        { s with xlt := { s.xlt with resolves := s.xlt.resolves ++ [(n, none)] }, out := .regAck St.ok :: s.out }) ∧
      exec (.faultResolveFail n st) s = .next (settle
        { s with xlt := { s.xlt with resolves := s.xlt.resolves ++ [(n, some st)] }, out := .regAck St.ok :: s.out })) ∧
  (∀ (n : Nat) (e : FaultEntry) (s u : State),
    s.xlt.faults.find n = some e → elapsed s e.since (1000000 * cfg 0x504003 1000 s) = true →
    u = faultOver e (some St.translation) { s with xlt := { s.xlt with faults := s.xlt.faults.erase n } } →
      ∃ t, exec (.faultExpired n) s = .next (settle t) ∧ Logged 0x5102 [e.ctx, e.page, n, e.waiters.length] u t ∧
      OnlyChanges [.log, .out] u t ∧
      (e.waiters = [] → t.xlt = { s.xlt with faults := s.xlt.faults.erase n } ∧ OnlyChanges [.xlt, .log, .out] s t)) ∧
  (∀ (n : Nat) (e : FaultEntry) (s : State),
    s.xlt.faults.find n = some e → elapsed s e.since (1000000 * cfg 0x504003 1000 s) = false →
      exec (.faultExpired n) s = .next (settle s))

/-- SHOOT_CMD of an active context, the pages inside the offset space and fewer than 64 commands pending: the range waits under the
next epoch; with 64 pending, an inactive context or the companion lost (log entry 51) FAIL_STATE, past the offset space
FAIL_MALFORMED (log entry 34), and no effect. EPOCH_ADVANCE when ShootInterval has passed, no published generation waits,
nothing of the epoch 32 back is in flight, the epoch does not pass 2^32, and no dirty line of a core's cache lies in a waiting
range: the epoch advances by one, no translation cache keeps an entry that a waiting range meets and every other entry stays,
the cores' caches lose exactly the lines of the named pages, and the ranges are open. With no range waiting, a generation
waiting, or the old epoch still in flight, it changes nothing. SHOOT_COMPLETE with nothing of an earlier epoch in flight: the
oldest open epoch's ranges are done and counted; before that it changes nothing. -/
def Obligations.ShootDowns : Prop :=
  (∀ (k : Nat) (c : Ctx) (s : State),
    s.lania.up = true → csOn s = true → 0 < k → s.xlt.shootPage + k ≤ 2 ^ 32 → s.xlt.shootQueue.length < 64 →
    s.xlt.ctxs.find s.xlt.shootCtx = some c → c.draining = false → s.lania.comp ≠ .lost →
      exec (.shootCmd k) s = .next
        { s with xlt := { s.xlt with shootStatus := St.ok, shootEpoch := (s.xlt.epoch + 1) % 2 ^ 32, shootQueue := s.xlt.shootQueue ++ [{ ctx := s.xlt.shootCtx, page := s.xlt.shootPage, count := k, epoch := (s.xlt.epoch + 1) % 2 ^ 32 }] }, out := .regAck St.ok :: s.out }) ∧
  (∀ (k : Nat) (s : State),
    s.lania.up = true → csOn s = true → 0 < k → s.xlt.shootPage + k ≤ 2 ^ 32 → 64 ≤ s.xlt.shootQueue.length →
      exec (.shootCmd k) s = .next { s with xlt := { s.xlt with shootStatus := St.state }, out := .regAck St.ok :: s.out }) ∧
  (∀ (k : Nat) (s : State),
    s.lania.up = true → csOn s = true → 0 < k → 2 ^ 32 < s.xlt.shootPage + k →
      exec (.shootCmd k) s = .next
        { s with xlt := { s.xlt with shootStatus := St.malformed }, out := .regAck St.ok :: s.out }) ∧
  (∀ (k : Nat) (s : State),
    s.lania.up = true → csOn s = true → 0 < k → s.xlt.shootPage + k ≤ 2 ^ 32 → ctxLive s s.xlt.shootCtx = false →
      exec (.shootCmd k) s = .next { s with xlt := { s.xlt with shootStatus := St.state }, out := .regAck St.ok :: s.out }) ∧
  (∀ (k : Nat) (s : State),
    s.lania.up = true → csOn s = true → 0 < k → s.xlt.shootPage + k ≤ 2 ^ 32 → s.lania.comp = .lost →
      exec (.shootCmd k) s = .next { s with xlt := { s.xlt with shootStatus := St.state }, out := .regAck St.ok :: s.out }) ∧
  (∀ (s : State),
    s.xlt.shootQueue ≠ [] → s.xlt.genWaits = [] → s.xlt.epoch + 1 < 2 ^ 32 → elapsed s s.xlt.lastAdvance 100000 = true →
    inFlight s (fun e => e == (s.xlt.epoch + 1 + 2 ^ 32 - 32) % 2 ^ 32) = false →
    ((∀ kc ∈ s.fur.cores, ∀ l ∈ kc.2.cache, l.dirty = true → (s.xlt.shootQueue.any fun q => q.names l.ctx (l.vline * 128 /
      65536)) = false)) →
      ∃ t, exec .epochAdvance s = .next (settle t) ∧ t.xlt.epoch = s.xlt.epoch + 1 ∧ t.xlt.lastAdvance = s.now ∧
      t.xlt.shootQueue = [] ∧ t.xlt.shootOpen = s.xlt.shootOpen ++ s.xlt.shootQueue ∧
      (∀ e, e ∈ t.xlt.hubTlb ↔ e ∈ s.xlt.hubTlb ∧ ∀ q ∈ s.xlt.shootQueue, q.meets e = false) ∧
      (∀ c e, e ∈ t.xlt.coreTlb.getD c [] ↔ e ∈ s.xlt.coreTlb.getD c [] ∧ ∀ q ∈ s.xlt.shootQueue, q.meets e = false) ∧
      t.xlt.ctxs = s.xlt.ctxs ∧ t.xlt.faults = s.xlt.faults ∧
      (∀ c, t.core c =
        { s.core c with cache := (s.core c).cache.filter fun l => !(s.xlt.shootQueue.any fun q => q.names l.ctx (l.vline * 128 / 65536)) })
        ∧
      OnlyChanges [.xlt, .fur] s t) ∧
  (∀ (s : State),
    (s.xlt.shootQueue = [] ∨ s.xlt.genWaits ≠ [] ∨ (s.xlt.epoch + 1 < 2 ^ 32 ∧ inFlight s (fun e => e == (s.xlt.epoch + 1 +
      2 ^ 32 - 32) % 2 ^ 32) = true)) →
      exec .epochAdvance s = .next (settle s)) ∧
  (∀ (q : Shoot) (rest : List Shoot) (s : State),
    s.xlt.shootOpen = q :: rest → inFlight s (fun e => epochBefore e q.epoch) = true →
      exec .shootComplete s = .next s) ∧
  (∀ (q : Shoot) (rest : List Shoot) (s : State),
    s.xlt.shootOpen = q :: rest → inFlight s (fun e => epochBefore e q.epoch) = false →
      ∃ t, exec .shootComplete s = .next t ∧
      (t.xlt = { s.xlt with shootOpen := (q :: rest).filter fun r => r.epoch != q.epoch, shootDone := q.epoch }) ∧
      (counter t 0xC40308 = counter s 0xC40308 + ((q :: rest).filter fun r => r.epoch == q.epoch).length) ∧
      OnlyChanges [.xlt, .lania, .counters, .out] s t)

/-- In SERVICE, with no extent command being accepted (log entry 35 on the 50 us window), from the dictionary or, with the Lania
link up and central services powered, from the register. ASSIGN of a FREE, local, unreserved extent with permitted fields makes
it ASSIGNED with them. REVOKE of an ASSIGNED extent, with no dirty line in a core's cache, makes it DRAINING from now on and
drops its queued migrations. REGRANT of an ASSIGNED DATA extent changes its two grants alone. RELEASE of an ASSIGNED tier 3
extent, with no dirty line in a core's cache, drains it with release to follow. ADOPT and ADOPT with FORCE of a tier 3 extent
that neither this hub nor the device holds for it ask the device; the extent changes when the device answers. Every other extent
is unchanged. -/
def Obligations.ExtentCommandsTakeEffect : Prop :=
  (∀ (dict ver : Bool) (x plot owner ga gl role : Nat) (s : State),
    inService s = true → extentBusy s = false → (dict = true ∨ (s.lania.up = true ∧ csOn s = true)) → x < 0x5000 →
    (s.ext x).state = .free → extPresent s x = true → extLocal s x = true → extReserved s x = false →
    setClosed s x = false → assignBad s x plot owner ga role = false →
      ∃ t, exec (.extentAssign dict x plot owner ga gl role ver) s = .next (settle t) ∧
      t.ext x =
        { state := .assigned, plot := plot, role := role, owner := owner, grantAll := ga, grantList := gl, versioned := ver && role == 0, held := (s.ext x).held }
        ∧
      (∀ y, y ≠ x → t.ext y = s.ext y) ∧ t.pool.extLast = some s.now ∧ OnlyChanges [.pool, .out] s t) ∧
  (∀ (dict : Bool) (x : Nat) (s : State),
    inService s = true → extentBusy s = false → (dict = true ∨ (s.lania.up = true ∧ csOn s = true)) → x < 0x5000 →
    (s.ext x).state = .assigned → ((s.ext x).role = 0 ∨ ((s.ext x).role = 1 ∧ reserveUsed s x = false)) →
    (∀ kc ∈ s.fur.cores, ∀ l ∈ kc.2.cache, l.dirty = false) →
      ∃ t, exec (.extentRevoke dict x) s = .next (settle t) ∧
      t.ext x = { s.ext x with state := .draining, drainSince := s.now, releasing := false, drainExpired := false } ∧
      (∀ y, y ≠ x → t.ext y = s.ext y) ∧ (∀ m ∈ t.pool.migrations, m.ext ≠ x) ∧ (∀ c, t.core c = s.core c) ∧
      OnlyChanges [.pool, .chk, .fur, .out] s t) ∧
  (∀ (dict : Bool) (x ga gl : Nat) (s : State),
    inService s = true → extentBusy s = false → (dict = true ∨ (s.lania.up = true ∧ csOn s = true)) → x < 0x5000 →
    (s.ext x).state = .assigned → (s.ext x).role = 0 → ga ≠ 3 → grantWritten s gl = true →
      ∃ t, exec (.extentRegrant dict x ga gl) s = .next (settle t) ∧
      t.ext x = { s.ext x with grantAll := ga, grantList := gl } ∧ (∀ y, y ≠ x → t.ext y = s.ext y) ∧
      OnlyChanges [.pool, .out] s t) ∧
  (∀ (dict : Bool) (x : Nat) (s : State),
    inService s = true → extentBusy s = false → (dict = true ∨ (s.lania.up = true ∧ csOn s = true)) → extTier x = 3 →
    x < 0x5000 → (s.ext x).state = .assigned → (s.ext x).role < 2 →
    (∀ kc ∈ s.fur.cores, ∀ l ∈ kc.2.cache, l.dirty = false) →
      ∃ t, exec (.extentRelease dict x) s = .next (settle t) ∧
      t.ext x = { s.ext x with state := .draining, drainSince := s.now, releasing := true, drainExpired := false } ∧
      (∀ y, y ≠ x → t.ext y = s.ext y) ∧ OnlyChanges [.pool, .chk, .fur, .out] s t) ∧
  (∀ (dict ver : Bool) (x plot owner ga gl role : Nat) (s : State) (o : CapOp),
    o =
      { ext := x, kind := 0, plot := plot, owner := owner, grantAll := ga, grantList := gl, role := role, versioned := ver } →
    inService s = true → extentBusy s = false → (dict = true ∨ (s.lania.up = true ∧ csOn s = true)) → extTier x = 3 →
    x < 0x5000 → (s.ext x).held = false → extPresent s x = true → extReserved s x = false →
    (role = 1 ∨ copyElsewhere s x = false) → assignBad s x plot owner ga role = false → s.cxl.owned.contains x = false →
      ∃ t, exec (.extentAdopt dict x plot owner ga gl role ver) s = .next (settle t) ∧
      t.cxl = { s.cxl with ops := s.cxl.ops ++ [o] } ∧ (∀ y, t.ext y = s.ext y) ∧ OnlyChanges [.pool, .cxl, .out] s t) ∧
  (∀ (dict ver : Bool) (x plot owner ga gl role : Nat) (s : State) (o : CapOp),
    o =
      { ext := x, kind := 1, plot := plot, owner := owner, grantAll := ga, grantList := gl, role := role, versioned := ver } →
    inService s = true → extentBusy s = false → (dict = true ∨ (s.lania.up = true ∧ csOn s = true)) → extTier x = 3 →
    x < 0x5000 → (s.ext x).held = false → extPresent s x = true → extReserved s x = false →
    (role = 1 ∨ copyElsewhere s x = false) → assignBad s x plot owner ga role = false → s.cxl.owned.contains x = false →
      ∃ t, exec (.extentAdoptForce dict x plot owner ga gl role ver) s = .next (settle t) ∧
      t.cxl = { s.cxl with ops := s.cxl.ops ++ [o] } ∧ (∀ y, t.ext y = s.ext y) ∧ OnlyChanges [.pool, .cxl, .out] s t)

/-- DRAIN_TIMEOUT of an extent DRAINING for DrainTimeout: no request waits for it any more (each has failed with FAIL_REVOKED) and
no PUBLISH of it; the others wait on. DRAIN_COMPLETE with nothing in flight: SCRUBBING, or for a RELEASE the device is asked to
take the capacity back. SCRUB_DONE, its device there and background work not paused: the extent is FREE, every byte of it and of
the frames that held its pages or copies reads 0, every other byte reads as before, and POOL_SCRUB_DONE (0x6108) is raised.
DEVICE_CAPACITY_EVENT: a confirmed ADOPT makes the extent ASSIGNED with the command's fields, held, with the versions of the
table the device keeps or brings, and event 0x610B; with FORCE only the latest version is left, and no copy; a confirmed RELEASE
takes the extent from this hub, its table kept by the device; a refused ADOPT reports FAIL_STATE. CAPACITY_REMOVED of a held
extent for which nothing waits takes it from this hub with event 0x6110. -/
def Obligations.ExtentsDrainScrubAndMove : Prop :=
  (∀ (x : Nat) (s : State),
    (s.ext x).state = .draining → (s.ext x).drainExpired = false →
    elapsed s (s.ext x).drainSince (1000 * cfg 0x602001 1000 s) = true →
      ∃ t, exec (.drainTimeout x) s = .next (settle t) ∧ t.ext x = { s.ext x with drainExpired := true, publishing := [] } ∧
      (∀ w ∈ t.pool.waiting, paExt s w.pa ≠ some x) ∧ (∀ w ∈ s.pool.waiting, paExt s w.pa ≠ some x → w ∈ t.pool.waiting) ∧
      t.mem = s.mem ∧ t.spad = s.spad ∧ (∀ y, y ≠ x → t.ext y = s.ext y)) ∧
  (∀ (x : Nat) (s : State),
    (s.ext x).state = .draining → inflight s x = 0 → (s.ext x).releasing = false →
      ∃ t, exec (.drainComplete x) s = .next t ∧ t.ext x = { s.ext x with state := .scrubbing } ∧
      (∀ y, y ≠ x → t.ext y = s.ext y) ∧ OnlyChanges [.pool] s t) ∧
  (∀ (x : Nat) (s : State),
    (s.ext x).state = .draining → inflight s x = 0 → (s.ext x).releasing = true →
    ((s.cxl.ops.any fun o => o.ext == x) = false) →
      exec (.drainComplete x) s = .next { s with cxl := { s.cxl with ops := s.cxl.ops ++ [{ ext := x, kind := 2 }] } }) ∧
  (∀ (x b : Nat) (s : State),
    s.power.paused = false → (s.ext x).state = .scrubbing → ((extTier x = 2 → (s.cxlPort (extCxl x)).st = 1)) →
    ((extTier x = 3 → tier3Up s = true)) → extBase x = some b →
      ∃ t, exec (.scrubDone x) s = .next t ∧ t.ext x = { held := (s.ext x).held } ∧ (∀ y, y ≠ x → t.ext y = s.ext y) ∧
      (∀ a, b ≤ a → a < b + extBytes → Mem.byte t.mem a = 0) ∧
      (∀ f ∈ outFrames s x, ∀ a, f * frameBytes ≤ a → a < (f + 1) * frameBytes → Mem.byte t.mem a = 0) ∧
      (∀ a, (a < b ∨ b + extBytes ≤ a) → a / frameBytes ∉ outFrames s x → Mem.byte t.mem a = Mem.byte s.mem a) ∧
      Logged 0x6108 [x] s t ∧ OnlyChanges [.pool, .coh, .key, .mem, .counters, .log, .out] s t) ∧
  (∀ (x : Nat) (o : CapOp) (table : Option DevTable) (s u : State) (d : DevTable),
    ((s.cxl.ops.find? fun o => o.ext == x) = some o) → o.kind = 0 → (u = (table.map fun y => tableArrives x y s).getD s) →
    d = u.cxl.kept.getD x {} → (o.role = 1 ∨ copyElsewhere u x = false) →
      ∃ t, exec (.deviceCapacityEvent x ⟨true, table⟩) s = .next t ∧
      (t.ext x =
        { state := .assigned, plot := o.plot, role := o.role, owner := o.owner, grantAll := o.grantAll, grantList := o.grantList, versioned := o.versioned && o.role == 0, held := true, latest := d.latest, versions := d.versions.map fun v => { num := v, openers := [] } })
        ∧
      (∀ y, y ≠ x → t.ext y = s.ext y) ∧ x ∈ t.cxl.owned ∧ t.cxl.ops = dropFirst (fun p => p.ext == x) s.cxl.ops ∧
      t.mem = u.mem ∧ Logged 0x610B [x, 0, d.latest] s t ∧ OnlyChanges [.pool, .cxl, .key, .mem, .counters, .log, .out] s t) ∧
  (∀ (x : Nat) (o : CapOp) (table : Option DevTable) (s u : State) (d : DevTable),
    ((s.cxl.ops.find? fun o => o.ext == x) = some o) → o.kind = 1 → o.role = 0 → o.versioned = true →
    (u = (table.map fun y => tableArrives x y s).getD s) → d = u.cxl.kept.getD x {} → copyElsewhere u x = false →
      ∃ t, exec (.deviceCapacityEvent x ⟨true, table⟩) s = .next t ∧
      (t.ext x).state = .assigned ∧ (t.ext x).held = true ∧ (t.ext x).latest = d.latest ∧
      (∀ v ∈ (t.ext x).versions, v.num = d.latest) ∧ (∀ kv ∈ t.pool.frames, ∀ i v, kv.2 ≠ .copy x i v) ∧ x ∈ t.cxl.owned ∧
      Logged 0x610B [x, (copiesAt (adoptPlain o u) x d.latest).length, d.latest] s t) ∧
  (∀ (x : Nat) (o : CapOp) (table : Option DevTable) (s : State),
    ((s.cxl.ops.find? fun o => o.ext == x) = some o) → o.kind = 2 →
      ∃ t, exec (.deviceCapacityEvent x ⟨true, table⟩) s = .next t ∧ t.ext x = {} ∧ (∀ y, y ≠ x → t.ext y = s.ext y) ∧
      x ∉ t.cxl.owned ∧ t.cxl.kept.find x = some (devTable s x) ∧ OnlyChanges [.pool, .cxl] s t) ∧
  (∀ (x : Nat) (o : CapOp) (table : Option DevTable) (s : State),
    ((s.cxl.ops.find? fun o => o.ext == x) = some o) → o.kind ≠ 2 →
      exec (.deviceCapacityEvent x ⟨false, table⟩) s = .next
        { s with cxl := { s.cxl with ops := dropFirst (fun p => p.ext == x) s.cxl.ops }, pool := { s.pool with extStatus := St.state } }) ∧
  (∀ (x : Nat) (s : State),
    (s.ext x).held = true → ((s.pool.waiting.filter fun w => paExt s w.pa == some x) = []) → (s.ext x).publishing = [] →
      ∃ t, exec (.capacityRemoved x) s = .next (settle t) ∧ t.ext x = {} ∧ (∀ y, y ≠ x → t.ext y = s.ext y) ∧
      x ∉ t.cxl.owned ∧ Logged 0x6110 [x, inflight s x] s t ∧ OnlyChanges [.pool, .cxl, .chk, .log, .out] s t)

/-- By POOL_VERSION_CMD for a local node of the extent's plot, with central services powered and the extent ASSIGNED, versioned,
local and not lost: OPEN of a published version adds the node to its openers, CLOSE removes it, PUBLISH of the version after the
latest, no line of the extent being orphaned once a walk that runs has met its lines, makes it the latest with no page written
since, retires the version 15 before it, and leaves its acknowledgement to PUBLISH_COMPLETE; RETIRE of a published version
removes it from the table. PUBLISH_COMPLETE acknowledges the oldest PUBLISH once every access accepted before it has been
applied, and not before. A version command by message is the 16-byte MSG_SEND to node 0xC0, QUEUE 1, that carries it. -/
def Obligations.VersionCommands : Prop :=
  (∀ (nd x v n : Nat) (s : State),
    s.lania.up = true → csOn s = true → nd < 256 → x < 65536 → v < 2 ^ 48 → nodePlot s nd = some n →
    (s.ext x).versioned = true → (s.ext x).state ≠ .draining →
    poolChecks s x (workFrame s x 0) n (lepOf (nodeOf s nd)) false true = none →
    (((s.ext x).versions.any fun w => w.num == v) = true) →
      ∃ t, exec (.versionOpen (.reg nd) x v) s = .next (settle t) ∧
      (t.ext x =
        { s.ext x with versions := (s.ext x).versions.map fun w => if w.num = v && !w.openers.contains (nodeOf s nd) then { w with openers := w.openers ++ [nodeOf s nd] } else w })
        ∧
      (∀ y, y ≠ x → t.ext y = s.ext y) ∧ t.pool.verStatus = St.ok ∧ OnlyChanges [.pool, .out] s t) ∧
  (∀ (nd x v n : Nat) (s : State),
    s.lania.up = true → csOn s = true → nd < 256 → x < 65536 → 0 < v → v ≤ (s.ext x).latest → (s.ext x).latest < 2 ^ 48 →
    nodePlot s nd = some n → (s.ext x).versioned = true → (s.ext x).state ≠ .draining →
    poolChecks s x (workFrame s x 0) n (lepOf (nodeOf s nd)) false true = none →
      ∃ t, exec (.versionClose (.reg nd) x v) s = .next (settle t) ∧
      (t.ext x =
        { s.ext x with versions := (s.ext x).versions.map fun w => if w.num = v then { w with openers := w.openers.filter fun n => n != nodeOf s nd } else w })
        ∧
      (∀ y, y ≠ x → t.ext y = s.ext y) ∧ OnlyChanges [.pool, .out] s t) ∧
  (∀ (nd x v n : Nat) (s u : State),
    s.lania.up = true → csOn s = true → nd < 256 → x < 65536 → v = (s.ext x).latest + 1 → v < 2 ^ 48 →
    nodePlot s nd = some n → (s.ext x).versioned = true → (s.ext x).state ≠ .draining →
    poolChecks s x (workFrame s x 0) n (lepOf (nodeOf s nd)) false true = none → u = meetExt x s → extOrphaned u x = false →
      ∃ t, exec (.versionPublish (.reg nd) x v) s = .next (settle t) ∧
      (t.ext x =
        { s.ext x with latest := v, versions := (if 15 < v then (s.ext x).versions.filter fun w => w.num != v - 15 else (s.ext x).versions) ++ [{ num := v, openers := [] }], written := [], publishing := (s.ext x).publishing ++ [(.reg nd, v)] })
        ∧
      (∀ y, y ≠ x → t.ext y = s.ext y) ∧ t.pool.verStatus = s.pool.verStatus ∧ OnlyChanges [.pool, .counters, .log, .out] u
        t) ∧
  (∀ (nd x v n : Nat) (s : State),
    s.lania.up = true → csOn s = true → nd < 256 → x < 65536 → v < 2 ^ 48 → nodePlot s nd = some n →
    (s.ext x).versioned = true → (s.ext x).state ≠ .draining →
    poolChecks s x (workFrame s x 0) n (lepOf (nodeOf s nd)) false true = none →
    (((s.ext x).versions.any fun w => w.num == v) = true) →
      ∃ t, exec (.versionRetire (.reg nd) x v) s = .next (settle t) ∧ (∀ w ∈ (t.ext x).versions, w.num ≠ v) ∧
      (t.ext x).latest = (s.ext x).latest ∧ (∀ y, y ≠ x → t.ext y = s.ext y) ∧ t.mem = s.mem ∧ t.pool.verStatus = St.ok ∧
      OnlyChanges [.pool, .counters, .log, .out] s t) ∧
  (∀ (x v nd : Nat) (rest : List (VerSource × Nat)) (s : State),
    (s.ext x).publishing = (.reg nd, v) :: rest → publishSettled s x v = true →
      ∃ t, exec (.publishComplete x) s = .next (settle t) ∧ t.ext x = { s.ext x with publishing := rest } ∧
      t.pool.verStatus = St.ok ∧ (∀ y, y ≠ x → t.ext y = s.ext y) ∧ OnlyChanges [.pool] s t) ∧
  (∀ (x v : Nat) (src : VerSource) (rest : List (VerSource × Nat)) (s : State),
    (s.ext x).publishing = (src, v) :: rest → publishSettled s x v = false →
      exec (.publishComplete x) s = .next (settle s)) ∧
  (∀ (via : Ingress) (h : Header) (x v : Nat) (s : State),
      exec (.versionOpen (.msg via h) x v) s = exec (.msgSend via { h with len := 16, opb := h.opb % 256 + 256 }
        (versionPayload 1 (x % 65536) v)) s ∧
      exec (.versionClose (.msg via h) x v) s = exec (.msgSend via { h with len := 16, opb := h.opb % 256 + 256 }
        (versionPayload 2 (x % 65536) v)) s ∧
      exec (.versionPublish (.msg via h) x v) s = exec (.msgSend via { h with len := 16, opb := h.opb % 256 + 256 }
        (versionPayload 3 (x % 65536) v)) s ∧
      exec (.versionRetire (.msg via h) x v) s = exec (.msgSend via { h with len := 16, opb := h.opb % 256 + 256 }
        (versionPayload 4 (x % 65536) v)) s)

/-- MIGRATE_CMD and MIGRATE_HOME that meet the conditions of R140 queue the migration with STATUS OK and DONE 0, and do nothing
else; one that does not is refused with FAIL_STATE. MIGRATE_DONE, background work not paused, nothing in flight for the page,
its target still as R140 asks and none of its lines in a host cache: the oldest migration's page has the target as its working
frame, the target frame holds every byte the page held, every byte outside the target frame reads as before, and DONE is 1 when
no migration is left; with a target or page no longer fit it is refused with FAIL_STATE. COPY_ON_WRITE_DONE of a page a waiting
write asks a copy of for version v, with a frame for it, no earlier write waiting and no line of the page in a host cache: that
frame is the page's copy for version v and holds what the page held; with no copy asked for it changes nothing. DECAY_PERIOD_END
at the end of a period: every access count is halved and a new period begins, no frame changes, and with nominations off nothing
else does; before the end it changes nothing. NOM_CONSUME of records that are there moves CONS and frees them. -/
def Obligations.HarrowMovesPages : Prop :=
  (∀ (x i f : Nat) (s : State),
    s.lania.up = true → csOn s = true → (s.ext x).state = .assigned → (s.ext x).role = 0 → extTier x ≠ 3 → i < 4096 →
    f = s.pool.migTarget → migrationTarget s x i false f = true → pageBusy s x i = false → pageOrphaned s x i = false →
    ((s.pool.migrations.any fun m => (m.ext == x && m.page == i) || m.target == f) = false) →
      exec (.migrateCmd x i) s = .next
        { s with pool := { s.pool with migStatus := St.ok, migDone := false, migrations := s.pool.migrations ++ [{ ext := x, page := i, target := f, home := false }] }, out := .regAck St.ok :: s.out }) ∧
  (∀ (x i : Nat) (s : State),
    s.lania.up = true → csOn s = true →
    ((s.ext x).state ≠ .assigned ∨ (s.ext x).role ≠ 0 ∨ extTier x = 3 ∨ 4096 ≤ i ∨ migrationTarget s x i false
      (s.pool.migTarget) = false ∨ pageBusy s x i = true ∨ pageOrphaned s x i = true) →
      exec (.migrateCmd x i) s = .next
        { s with pool := { s.pool with migStatus := St.state, migDone := s.pool.migrations.isEmpty }, out := .regAck St.ok :: s.out }) ∧
  (∀ (x i f : Nat) (s : State),
    s.lania.up = true → csOn s = true → (s.ext x).state = .assigned → (s.ext x).role = 0 → extTier x ≠ 3 → i < 4096 →
    f = homeFrame x i → migrationTarget s x i true f = true → pageBusy s x i = false → pageOrphaned s x i = false →
    ((s.pool.migrations.any fun m => (m.ext == x && m.page == i) || m.target == f) = false) →
      exec (.migrateHome x i) s = .next
        { s with pool := { s.pool with migStatus := St.ok, migDone := false, migrations := s.pool.migrations ++ [{ ext := x, page := i, target := f, home := true }] }, out := .regAck St.ok :: s.out }) ∧
  (∀ (x i : Nat) (s : State),
    s.lania.up = true → csOn s = true →
    ((s.ext x).state ≠ .assigned ∨ (s.ext x).role ≠ 0 ∨ extTier x = 3 ∨ 4096 ≤ i ∨ migrationTarget s x i true (homeFrame x
      i) = false ∨ pageBusy s x i = true ∨ pageOrphaned s x i = true) →
      exec (.migrateHome x i) s = .next
        { s with pool := { s.pool with migStatus := St.state, migDone := s.pool.migrations.isEmpty }, out := .regAck St.ok :: s.out }) ∧
  (∀ (m : Migration) (rest : List Migration) (s : State),
    s.power.paused = false → s.pool.migrations = m :: rest → pageBusy s m.ext m.page = false →
    pageOrphaned s m.ext m.page = false → migrationTarget s m.ext m.page m.home m.target = true →
    (∀ kv ∈ s.coh.filter, kv.1 / 512 ≠ workFrame s m.ext m.page) → workFrame s m.ext m.page ≠ m.target → Mem.Wf s.mem →
      ∃ t, exec .migrateDone s = .next t ∧
      t.pool.frames.find m.target = (if m.home then none else some (.working m.ext m.page)) ∧
      (∀ j, j < frameBytes → Mem.byte t.mem (m.target * frameBytes + j) = Mem.byte s.mem (workFrame s m.ext m.page *
        frameBytes + j)) ∧
      (∀ a, a < m.target * frameBytes ∨ (m.target + 1) * frameBytes ≤ a → Mem.byte t.mem a = Mem.byte s.mem a) ∧
      t.pool.migrations = rest ∧ t.pool.migDone = rest.isEmpty ∧ t.pool.migStatus = St.ok ∧
      counter t 0xC40408 = counter s 0xC40408 + 1 ∧ t.pool.exts = s.pool.exts ∧ OnlyChanges [.pool, .mem, .key, .counters] s
        t) ∧
  (∀ (m : Migration) (rest : List Migration) (s : State),
    s.power.paused = false → s.pool.migrations = m :: rest → pageBusy s m.ext m.page = false →
    (pageOrphaned s m.ext m.page = true ∨ migrationTarget s m.ext m.page m.home m.target = false) →
      exec .migrateDone s = .next
        { s with pool := { s.pool with migrations := rest, migStatus := St.state, migDone := rest.isEmpty } }) ∧
  (∀ (x i : Nat) (s : State),
    copyAsked s x i = [] →
      exec (.copyOnWriteDone x i) s = .next (settle s)) ∧
  (∀ (x i v f : Nat) (s : State),
    copyAsked s x i = [v] →
    ((s.pool.waiting.any fun w => opWrites w.req.op && paExt s w.pa == some x && decide (w.latest < v) && w.pa / frameBytes
      == workFrame s x i) = false) →
    (∀ kv ∈ s.coh.filter, kv.1 / 512 ≠ workFrame s x i) → copyFor s x i (some v) = some v → copyTarget s x i = some f →
    f ≠ workFrame s x i → Mem.Wf s.mem →
      ∃ t, exec (.copyOnWriteDone x i) s = .next (settle t) ∧ t.pool.frames = s.pool.frames.set f (.copy x i v) ∧
      (∀ j, j < frameBytes → Mem.byte t.mem (f * frameBytes + j) = Mem.byte s.mem (workFrame s x i * frameBytes + j)) ∧
      (∀ a, a < f * frameBytes ∨ (f + 1) * frameBytes ≤ a → Mem.byte t.mem a = Mem.byte s.mem a) ∧
      counter t 0xC40406 = counter s 0xC40406 + 1 ∧ OnlyChanges [.pool, .mem, .key, .counters] s t) ∧
  (∀ (s : State),
    elapsed s s.pool.decaySince (1000000 * cfg 0x603001 1000 s) = true → cfg 0x603006 1 s = 0 →
      ∃ t, exec .decayPeriodEnd s = .next t ∧ (∀ k, t.pool.access.getD k 0 = s.pool.access.getD k 0 / 2) ∧
      t.pool.decaySince = s.now ∧
      t.pool.exts = s.pool.exts ∧ t.pool.frames = s.pool.frames ∧ t.pool.nomProd = s.pool.nomProd ∧ OnlyChanges [.pool] s t) ∧
  (∀ (s : State),
    elapsed s s.pool.decaySince (1000000 * cfg 0x603001 1000 s) = true →
      ∃ t, exec .decayPeriodEnd s = .next t ∧ (∀ k, t.pool.access.getD k 0 = s.pool.access.getD k 0 / 2) ∧
      t.pool.decaySince = s.now ∧ t.pool.frames = s.pool.frames ∧
      OnlyChanges [.pool, .coh, .chk, .key, .lania, .mem, .counters, .log, .out, .free] s t) ∧
  (∀ (s : State),
    elapsed s s.pool.decaySince (1000000 * cfg 0x603001 1000 s) = false →
      exec .decayPeriodEnd s = .next s) ∧
  (∀ (v k : Nat) (s : State),
    s.lania.up = true → csOn s = true → v < 1024 → k = (v + 1024 - s.pool.nomCons) % 1024 → v ≠ s.pool.nomCons →
    k ≤ s.pool.nomCount →
      exec (.nomConsume v) s = .next
        { s with pool := { s.pool with nomCons := v, nomCount := s.pool.nomCount - k }, out := .regAck St.ok :: s.out })

/-- PATROL_READ of one correctable tier 1 line whose frame stays within the limit counts the corrections, and of an uncorrectable
one marks the line lost and counts it. FRAME_RETIRE_DONE of a frame with no line in a host cache: the frame is redirected to the
next spare of its pool and POOL_FRAME_RETIRED (0x6101) is raised with its lost lines and the spares left. TIER_TIMEOUT with
nothing that waits too long changes nothing; the oldest access that does fails with FAIL_INTERNAL and event 0x6106.
CXL_PORT_LOST of a tier 2 port in service makes every extent behind it LOST and raises 0x6104; of a tier 3 port 0x6105 while the
other head serves, and no extent is lost; of one not in service nothing changes. CXL_RETRAIN at least 100 ms after the last try:
the same device without a power loss brings the port back, its extents LOST no more, with event 0x610E; a different device makes
the port absent with event 0x610F; nothing found leaves it lost. -/
def Obligations.PoolLossAndRetirement : Prop :=
  (∀ (line n x : Nat) (s : State),
    s.power.paused = false → line * 128 < 0x010000000000 → extOf (line * 128) = some x → 0 < n →
    s.pool.corrected.getD (line / 512) 0 + n ≤ cfg 0x605002 16 s →
      ∃ t, exec (.patrolRead [(line, n, false)]) s = .next t ∧
      t.pool = { s.pool with corrected := s.pool.corrected.set (line / 512) (s.pool.corrected.getD (line / 512) 0 + n) } ∧
      counter t 0xC40403 = counter s 0xC40403 + n ∧ OnlyChanges [.pool, .counters] s t) ∧
  (∀ (line n x : Nat) (s : State),
    s.power.paused = false → line * 128 < 0x010000000000 → extOf (line * 128) = some x →
      ∃ t, exec (.patrolRead [(line, n, true)]) s = .next t ∧ t.pool.lostLines.find line = some .dataLost ∧
      counter t 0xC40404 = counter s 0xC40404 + 1 ∧ t.mem = s.mem) ∧
  (∀ (f st : Nat) (s : State),
    s.pool.retiring.find f = some st → (∀ kv ∈ s.coh.filter, kv.1 / 512 ≠ f) →
      ∃ t, exec (.frameRetireDone f) s = .next (settle t) ∧ t.pool.retiring.find f = none ∧
      t.pool.redirected = s.pool.redirected.set f (s.pool.sparesUsed.getD (sparePool f) 0) ∧
      t.pool.sparesUsed = s.pool.sparesUsed.set (sparePool f) (s.pool.sparesUsed.getD (sparePool f) 0 + 1) ∧
      counter t 0xC40405 = counter s 0xC40405 + 1 ∧
      (Logged 0x6101 [f, (s.pool.lostLines.filter fun kv => kv.1 / 512 == f).length, tierSpares t (sparePool f)] s t) ∧
      OnlyChanges [.pool, .counters, .log, .out] s t) ∧
  (∀ (q b since : Nat) (w : PoolWait) (rest : List PoolWait) (s : State),
    s.pool.waiting = w :: rest → w.what = .block b → cxlOf s (b * 4096) = q → s.pool.fills.find b = some since →
    elapsed s since (1000 * cfg 0x602001 1000 s) = true → elapsed s w.since (1000 * cfg 0x602001 1000 s) = true →
      ∃ t, exec (.tierTimeout q) s = .next (settle t) ∧ t.pool.waiting = rest ∧
      Logged 0x6106 [q, w.pa, w.req.h.src, w.req.h.tag] s t ∧
      (w.eng = [] → w.req.via = .mgmt ∨ (w.req.via = .host ∧ s.lania.comp ≠ .lost) → Replied w.req.via (ackOf w.req
        St.internal 0) t) ∧
      t.mem = s.mem ∧ t.spad = s.spad) ∧
  (∀ (q : Nat) (s : State),
    (∀ w ∈ s.pool.waiting, elapsed s w.since (1000 * cfg 0x602001 1000 s) = false) →
      exec (.tierTimeout q) s = .next (settle s)) ∧
  (∀ (q : Nat) (s : State),
    q < 2 → (s.cxlPort q).st = 1 →
      ∃ t, exec (.cxlPortLost q) s = .next (settle t) ∧ (t.cxlPort q).lost = true ∧ (t.cxlPort q).st = 0 ∧
      (∀ x, extTier x = 2 → extCxl x = q → extLost t x = true) ∧ Logged 0x6104 [q, wholeExtents (s.cxlPort q).capacity] s t
        ∧
      OnlyChanges [.pool, .cxl, .log, .out] s t) ∧
  (∀ (q : Nat) (s : State),
    (q = 2 ∨ q = 3) → (s.cxlPort q).st = 1 →
      ∃ t, exec (.cxlPortLost q) s = .next (settle t) ∧ (t.cxlPort q).lost = true ∧ (t.cxlPort q).st = 0 ∧
      ((s.cxlPort (5 - q)).st = 1 → Logged 0x6105 [q, 5 - q] s t ∧ t.pool = s.pool) ∧
      ((s.cxlPort (5 - q)).st ≠ 1 → Logged 0x6104 [q, wholeExtents (s.cxlPort q).capacity] s t) ∧
      OnlyChanges [.pool, .cxl, .log, .out] s t) ∧
  (∀ (q : Nat) (s : State),
    (s.cxlPort q).st ≠ 1 →
      exec (.cxlPortLost q) s = .next (settle s)) ∧
  (∀ (q : Nat) (d : CxlDev) (s : State),
    (s.cxlPort q).lost = true → (s.cxlPort q).st ≠ 2 → elapsed s (s.cxlPort q).tried 100000000 = true →
    takePad 8 d.serial ≠ (s.cxlPort q).serial →
      ∃ t, exec (.cxlRetrain q (some d)) s = .next t ∧ t.cxlPort q = { s.cxlPort q with st := 2, tried := s.now } ∧
      Logged 0x610F [q, leNat (s.cxlPort q).serial, leNat (takePad 8 d.serial)] s t ∧
      OnlyChanges [.cxl, .counters, .log, .out] s t) ∧
  (∀ (q : Nat) (s : State),
    (s.cxlPort q).lost = true → (s.cxlPort q).st ≠ 2 → elapsed s (s.cxlPort q).tried 100000000 = true →
      ∃ t, exec (.cxlRetrain q none) s = .next t ∧ t.cxlPort q = { s.cxlPort q with tried := s.now } ∧
      OnlyChanges [.cxl, .counters] s t) ∧
  (∀ (q : Nat) (d : CxlDev) (s : State),
    q < 2 → (s.cxlPort q).lost = true → (s.cxlPort q).st ≠ 2 → elapsed s (s.cxlPort q).tried 100000000 = true →
    takePad 8 d.serial = (s.cxlPort q).serial → d.powerLoss = false →
      ∃ t, exec (.cxlRetrain q (some d)) s = .next t ∧ (t.cxlPort q).lost = false ∧ (t.cxlPort q).st = 1 ∧
      (∀ x, extTier x = 2 → extCxl x = q → extLost t x = false) ∧ Logged 0x610E [q, wholeExtents (s.cxlPort q).capacity] s t
        ∧
      OnlyChanges [.pool, .cxl, .counters, .log, .out] s t)

/-- With the Lania link up and no filter walk under way. RD_SHARED and RD_OWN of a line of plot 0's memory that is not ORPHANED,
that nothing in the pool holds up, with room in the filter: the host gets the 128 bytes the pool holds and the line's entry is S
or E; of a line that the pool refuses, its status and nothing else. WR_BACK of a line the host holds in E or M, not snooped at
that moment, that nothing in the pool holds up: pool memory holds the 128 bytes and the entry is gone; of a line of an extent
that is being drained, FAIL_REVOKED, memory unchanged, the entry gone. CLEAN_EVICT of a held, unsnooped line: the entry is gone,
memory unchanged. No host transaction waits; every other line's entry is unchanged. -/
def Obligations.HostCoherentTransactions : Prop :=
  (∀ (line : Nat) (s : State),
    s.lania.up = true → s.coh.walkSince = none →
    poolPlace s (line * 128) 0 (nodeOf s 0xC1) false = .ok (.at (line * 128) none) →
    (snoopSt s line = none ∨ snoopSt s line = some .shared) → s.coh.hostWaits = [] →
    hostPool none line (accepted (hostReq s) (line * 128) s) = .none → s.coh.filter.length < 2097152 →
      ∃ t, exec (.rdShared line) s = .next t ∧
      t.coh =
        { s.coh with filter := s.coh.filter.set line { st := .shared, order := s.coh.nextOrder }, nextOrder := s.coh.nextOrder + 1 }
        ∧
      t.out = .coh line St.ok (Mem.read s.mem (line * 128) 128) :: s.out ∧
      OnlyChanges [.coh, .pool, .key, .counters, .out, .free] s t) ∧
  (∀ (line st : Nat) (s : State),
    s.lania.up = true → s.coh.walkSince = none → poolPlace s (line * 128) 0 (nodeOf s 0xC1) false = .error st →
    s.coh.hostWaits = [] →
      exec (.rdShared line) s = .next { s with out := .coh line st [] :: s.out }) ∧
  (∀ (line : Nat) (s : State),
    s.lania.up = true → s.coh.walkSince = none →
    poolPlace s (line * 128) 0 (nodeOf s 0xC1) true = .ok (.at (line * 128) none) →
    (snoopSt s line = none ∨ snoopSt s line = some .shared) → s.coh.hostWaits = [] →
    hostPool none line (accepted (hostReq s) (line * 128) s) = .none → s.coh.filter.length < 2097152 →
      ∃ t, exec (.rdOwn line) s = .next t ∧
      t.coh =
        { s.coh with filter := s.coh.filter.set line { st := .exclusive, order := s.coh.nextOrder }, nextOrder := s.coh.nextOrder + 1 }
        ∧
      t.out = .coh line St.ok (Mem.read s.mem (line * 128) 128) :: s.out ∧
      OnlyChanges [.coh, .pool, .key, .counters, .out, .free] s t) ∧
  (∀ (line st : Nat) (s : State),
    s.lania.up = true → s.coh.walkSince = none → poolPlace s (line * 128) 0 (nodeOf s 0xC1) true = .error st →
    s.coh.hostWaits = [] →
      exec (.rdOwn line) s = .next { s with out := .coh line st [] :: s.out }) ∧
  (∀ (line : Nat) (data : List Byte) (s : State) (r : Req),
    s.lania.up = true → s.coh.walkSince = none → (snoopSt s line = some .exclusive ∨ snoopSt s line = some .modified) →
    ((s.coh.snoops.any fun q => q.1 == line) = false) → s.coh.hostWaits = [] → lineRevoked s line = false →
    r =
      { via := .unit, op := Op.write, h := { len := 128, tag := 2 ^ 16, src := nodeOf s 0xC1, dst := nodeOf s 0xC0 }, data := takePad 128 data }
      →
    obstacle none (acceptRec r (line * 128) none s) (accepted r (line * 128)
      { s with coh := { s.coh with filter := s.coh.filter.erase line }, pool := { s.pool with waiting := [] } }) = .none →
    paSlot s (line * 128) = none → s.coll.unitOps.find 65536 = none →
      ∃ t, exec (.wrBack line data) s = .next (settle t) ∧ t.mem = Mem.write s.mem (line * 128) (takePad 128 data) ∧
      t.coh.filter.find line = none ∧ (∀ l, l ≠ line → t.coh.filter.find l = s.coh.filter.find l) ∧
      t.out = .coh line St.ok [] :: s.out ∧ OnlyChanges [.coh, .pool, .chk, .key, .mem, .counters, .out, .free] s t) ∧
  (∀ (line : Nat) (data : List Byte) (s : State),
    s.lania.up = true → s.coh.walkSince = none → (snoopSt s line = some .exclusive ∨ snoopSt s line = some .modified) →
    ((s.coh.snoops.any fun q => q.1 == line) = false) → s.coh.hostWaits = [] → lineRevoked s line = true →
      ∃ t, exec (.wrBack line data) s = .next (settle t) ∧ t.mem = s.mem ∧ t.coh.filter = s.coh.filter.erase line ∧
      t.out = .coh line St.revoked [] :: s.out ∧ OnlyChanges [.coh, .out] s t) ∧
  (∀ (line : Nat) (s : State),
    s.lania.up = true → s.coh.walkSince = none →
    (snoopSt s line = some .shared ∨ snoopSt s line = some .exclusive ∨ snoopSt s line = some .modified) →
    ((s.coh.snoops.any fun q => q.1 == line) = false) → s.coh.hostWaits = [] →
      exec (.cleanEvict line) s = .next (settle
        { s with coh := { s.coh with filter := s.coh.filter.erase line }, out := .coh line St.ok [] :: s.out }))

/-- SNOOP_RESPONSE to an invalidating snoop, with data, nothing in the pool holding it up: the pool holds the line's data and the
entry is gone; without data memory is unchanged and the entry is gone, or shared when the snoop asked for that alone.
SNOOP_TIMEOUT of a snoop unanswered for SnoopTimeout, with no fault outstanding: the companion is lost (R358): its rings are
disabled, the filter walk begins, no request of the host waits in the hub, and COH_SNOOP_TIMEOUT (0x610D) is raised; before that
it changes nothing. FILTER_WALK_DONE: every line left in the filter is ORPHANED. OrphanResolve in SERVICE, ADOPT or WRITE of an
ORPHANED line of an extent: the line is orphaned no more and keeps the pool's value or, with nothing in the pool holding it up,
takes the 128 bytes given. No host transaction waits. -/
def Obligations.SnoopsAndOrphans : Prop :=
  (∀ (line k : Nat) (d : List Byte) (s : State) (r : Req),
    ((s.coh.snoops.find? fun q => q.1 == line) = some (line, true, k)) →
    r =
      { via := .unit, op := Op.write, h := { len := 128, tag := 2 ^ 16, src := nodeOf s 0xC1, dst := nodeOf s 0xC0 }, data := takePad 128 d }
      →
    obstacle none (acceptRec r (line * 128) none s) (accepted r (line * 128)
      { s with coh := { s.coh with filter := s.coh.filter.erase line }, pool := { s.pool with waiting := [] } }) = .none →
    paSlot s (line * 128) = none → s.coll.unitOps.find 65536 = none → s.coh.hostWaits = [] →
      ∃ t, exec (.snoopResponse line (some d)) s = .next (settle t) ∧ t.mem = Mem.write s.mem (line * 128) (takePad 128 d) ∧
      t.coh.filter.find line = none ∧ (∀ l, l ≠ line → t.coh.filter.find l = s.coh.filter.find l) ∧
      t.coh.snoops = dropFirst (fun q => q.1 == line) s.coh.snoops ∧
      OnlyChanges [.coh, .pool, .chk, .key, .mem, .counters, .free] s t) ∧
  (∀ (line k : Nat) (e : Snoop) (s : State),
    ((s.coh.snoops.find? fun q => q.1 == line) = some (line, false, k)) → s.coh.filter.find line = some e →
    s.coh.hostWaits = [] →
      exec (.snoopResponse line none) s = .next (settle
        { s with coh := { s.coh with snoops := dropFirst (fun q => q.1 == line) s.coh.snoops, filter := s.coh.filter.set line { e with st := .shared } } })) ∧
  (∀ (line k : Nat) (s : State),
    ((s.coh.snoops.find? fun q => q.1 == line) = some (line, true, k)) → s.coh.hostWaits = [] →
      exec (.snoopResponse line none) s = .next (settle
        { s with coh := { s.coh with snoops := dropFirst (fun q => q.1 == line) s.coh.snoops, filter := s.coh.filter.erase line } })) ∧
  (∀ (line k : Nat) (inv : Bool) (s : State),
    ((s.coh.snoops.find? fun q => q.1 == line) = some (line, inv, k)) → elapsed s k (1000 * cfg 0x631002 20 s) = true →
    s.lania.comp ≠ .lost → s.xlt.faults = [] → s.xlt.deferred = [] →
      ∃ t, exec (.snoopTimeout line) s = .next (settle t) ∧
      t.lania.comp = .lost ∧ t.lania.enable = false ∧ t.xlt.fqEnable = false ∧ t.pool.nomEnable = false ∧
      t.coh.walkSince = some s.now ∧ t.coh.snoops = [] ∧ t.coh.hostWaits = [] ∧
      (∀ w ∈ t.pool.waiting, w.req.via ≠ .host) ∧ (∀ x ∈ queuedFrames t, x.req.via ≠ .host) ∧ t.coh.filter = s.coh.filter ∧
      t.mem = s.mem ∧ t.spad = s.spad ∧
      Logged 0x610D [(extOf (line * 128)).getD 0xFFFF, (line * 128 - (extBase ((extOf (line * 128)).getD 0xFFFF)).getD 0) /
        128, b2n inv, s.now - k] s t) ∧
  (∀ (line k : Nat) (inv : Bool) (s : State),
    ((s.coh.snoops.find? fun q => q.1 == line) = some (line, inv, k)) → elapsed s k (1000 * cfg 0x631002 20 s) = false →
      exec (.snoopTimeout line) s = .next (settle s)) ∧
  (∀ (k : Nat) (s : State),
    s.coh.walkSince = some k →
      ∃ t, exec .filterWalkDone s = .next (settle t) ∧ t.coh.walkSince = none ∧
      (∀ l e, t.coh.filter.find l = some e → ∃ m, e.st = .orphaned m) ∧ t.mem = s.mem ∧ t.pool = s.pool) ∧
  (∀ (x b line : Nat) (m : Bool) (s : State),
    inService s = true → x ≤ 0x4FFF → extBase x = some b → line < 2 ^ 21 → snoopSt s (b / 128 + line) = some (.orphaned m) →
      ∃ t, exec (.orphanAdopt x line) s = .next t ∧ t.coh.filter = s.coh.filter.erase (b / 128 + line) ∧
      counter t 0xC40604 = counter s 0xC40604 + 1 ∧ OnlyChanges [.coh, .counters] s t) ∧
  (∀ (x b line : Nat) (m : Bool) (d : List Byte) (s : State) (r : Req),
    inService s = true → x ≤ 0x4FFF → extBase x = some b → line < 2 ^ 21 → snoopSt s (b / 128 + line) = some (.orphaned m) →
    r =
      { via := .unit, op := Op.write, h := { len := 128, tag := 2 ^ 16, src := nodeOf s 0xC1, dst := nodeOf s 0xC0 }, data := takePad 128 d }
      →
    obstacle none (acceptRec r ((b / 128 + line) * 128) none s) (accepted r ((b / 128 + line) * 128)
      { s with coh := { s.coh with filter := s.coh.filter.erase (b / 128 + line) }, pool := { s.pool with waiting := [] } }) =
      .none →
    paSlot s ((b / 128 + line) * 128) = none → s.coll.unitOps.find 65536 = none →
      ∃ t, exec (.orphanWrite x line d) s = .next t ∧ t.mem = Mem.write s.mem ((b / 128 + line) * 128) (takePad 128 d) ∧
      t.coh.filter = s.coh.filter.erase (b / 128 + line) ∧ counter t 0xC40604 = counter s 0xC40604 + 1 ∧
      OnlyChanges [.coh, .pool, .chk, .key, .mem, .counters, .free] s t)

/-- When a thread's next descriptor can issue (R203) and is one of the sequencer's register and branch opcodes, it issues and is
complete: the thread's place and count move on, and NOP does no more; JUMP goes to IMM; LOOP takes one from X[OPA.IX] and goes
to IMM unless that leaves 0; BRST goes to IMM when STATUS is not OK; BRX when its condition on X[OPA.IX] and the second operand
holds; XOP writes its result to X[OPD.IX], X0 discarding it; CLRST sets STATUS to OK and clears the report; STREAM arms its
stream in place of an earlier arming; HALT ends issue, and halts the thread at once when nothing of it is incomplete. No other
thread and nothing else of the machine changes. -/
def Obligations.SequencerOpcodesComplete : Prop :=
  (∀ (c r : Nat) (p : Prog) (d : Desc) (s : State),
    ready s c r = some (p, d) → d.op = 0x00 →
      ∃ t, exec (.nop c r) s = .next t ∧ OnlyThread s c r (movedOn s c r) t ∧ OnlyChanges [.fur, .counters] s t) ∧
  (∀ (c r : Nat) (p : Prog) (d : Desc) (s : State),
    ready s c r = some (p, d) → d.op = 0x01 → (s.thread c r).incs ≠ [] →
      ∃ t, exec (.halt c r) s = .next t ∧ OnlyThread s c r { movedOn s c r with ending := true } t ∧
      OnlyChanges [.fur, .counters] s t) ∧
  (∀ (c r : Nat) (p : Prog) (d : Desc) (s : State),
    ready s c r = some (p, d) → d.op = 0x01 → (s.thread c r).incs = [] →
      ∃ t, exec (.halt c r) s = .next t ∧
      t.thread c r =
        { movedOn s c r with running := false, ending := false, halted := true, time := s.now, claimed := none } ∧
      (∀ k i, ¬ (k = c ∧ i = r) → t.thread k i = s.thread k i) ∧
      ((t.core c).slots = ((s.thread c r).claimed.map fun q => (s.core c).slots.erase (1024 * q.1 + q.2)).getD (s.core
        c).slots) ∧
      ((s.thread c r).status ≠ St.ok → Logged 0x7106 [c, r, (s.thread c r).status, (s.thread c r).desc] s t) ∧
      OnlyChanges [.fur, .counters, .log, .dict, .out] s t) ∧
  (∀ (c r : Nat) (p : Prog) (d : Desc) (s : State),
    ready s c r = some (p, d) → d.op = 0x02 →
      ∃ t, exec (.jump c r) s = .next t ∧ OnlyThread s c r { movedOn s c r with pc := d.imm } t ∧
      OnlyChanges [.fur, .counters] s t) ∧
  (∀ (c r : Nat) (p : Prog) (d : Desc) (s : State) (x : U64) (y : Thread),
    ready s c r = some (p, d) → d.op = 0x03 → opdIx d.opa ≠ 0 → x = xreg (s.thread c r).xs (opdIx d.opa) - 1 →
    (s.thread c r).xs.length = 15 → y = { movedOn s c r with xs := listSet (s.thread c r).xs (opdIx d.opa - 1) x } →
      ∃ t, exec (.loop c r) s = .next t ∧ OnlyThread s c r (if x = 0 then y else { y with pc := d.imm }) t ∧
      OnlyChanges [.fur, .counters] s t) ∧
  (∀ (c r : Nat) (p : Prog) (d : Desc) (s : State),
    ready s c r = some (p, d) → d.op = 0x03 → opdIx d.opa = 0 →
      ∃ t, exec (.loop c r) s = .next t ∧ OnlyThread s c r (movedOn s c r) t ∧ OnlyChanges [.fur, .counters] s t) ∧
  (∀ (c r : Nat) (p : Prog) (d : Desc) (s : State),
    ready s c r = some (p, d) → d.op = 0x04 →
      ∃ t, exec (.brst c r) s = .next t ∧
      OnlyThread s c r (if (s.thread c r).status = St.ok then movedOn s c r else { movedOn s c r with pc := d.imm }) t ∧
      OnlyChanges [.fur, .counters] s t) ∧
  (∀ (c r a b : Nat) (p : Prog) (d : Desc) (s : State),
    ready s c r = some (p, d) → d.op = 0x05 → a = (xreg (s.thread c r).xs (opdIx d.opa)).toNat →
    b = (if opdIx d.opb = 0 then d.imm64 else xreg (s.thread c r).xs (opdIx d.opb)).toNat →
      ∃ t, exec (.brx c r) s = .next t ∧
      (OnlyThread s c r (if (d.sub = 0 ∧ a = b) ∨ (d.sub = 1 ∧ a ≠ b) ∨ (d.sub = 2 ∧ a < b) ∨ (3 ≤ d.sub ∧ b ≤ a) then
        { movedOn s c r with pc := d.imm } else movedOn s c r) t) ∧
      OnlyChanges [.fur, .counters] s t) ∧
  (∀ (c r a b v : Nat) (p : Prog) (d : Desc) (s : State),
    ready s c r = some (p, d) → d.op = 0x06 → a = (xreg (s.thread c r).xs (opdIx d.opa)).toNat →
    b = (if opdIx d.opb = 0 then d.imm64 else xreg (s.thread c r).xs (opdIx d.opb)).toNat →
    ((d.sub = 0 ∧ v = b) ∨ (d.sub = 1 ∧ v = (a + b) % 2 ^ 64) ∨ (d.sub = 2 ∧ v = (a + (2 ^ 64 - b)) % 2 ^ 64) ∨ (d.sub = 3 ∧
      v = a * b % 2 ^ 64) ∨ (d.sub = 6 ∧ v = a &&& b) ∨ (d.sub = 7 ∧ v = min a b) ∨ (d.sub = 4 ∧ v = if b < 64 then a * 2 ^ b
      % 2 ^ 64 else 0) ∨ (d.sub = 5 ∧ v = if b < 64 then a / 2 ^ b else 0) ∨ (d.sub = 8 ∧ d.imm2 < 64 ∧ d.imm3 < 64 ∧ v = a /
      2 ^ d.imm2 % 2 ^ d.imm3)) →
      ∃ t, exec (.xop c r) s = .next t ∧
      OnlyThread s c r (if opdIx d.opd = 0 then movedOn s c r else
        { movedOn s c r with xs := listSet (s.thread c r).xs (opdIx d.opd - 1) (BitVec.ofNat 64 v) }) t ∧
      OnlyChanges [.fur, .counters] s t) ∧
  (∀ (c r : Nat) (p : Prog) (d : Desc) (s : State),
    ready s c r = some (p, d) → d.op = 0x0B →
      ∃ t, exec (.clrst c r) s = .next t ∧ OnlyThread s c r { movedOn s c r with status := St.ok, report := {} } t ∧
      OnlyChanges [.fur, .counters] s t) ∧
  (∀ (c r : Nat) (p : Prog) (d : Desc) (s : State),
    ready s c r = some (p, d) → d.op = 0x0D →
      ∃ t, exec (.stream c r) s = .next t ∧
      (OnlyThread s c r
        { movedOn s c r with streams := ((s.thread c r).streams.filter fun b => b.1 != d.imm % 8) ++ [(d.imm % 8, (xreg (s.thread c r).xs (opdIx d.opa)).toNat % 2 ^ 48, (xreg (s.thread c r).xs (opdIx d.opb)).toNat, [])] }
        t) ∧
      OnlyChanges [.fur, .counters] s t)

/-- For every such opcode of Table 8-6: when the thread's next descriptor is of that opcode, can issue and has its turn, the
command's next state is what the run of that descriptor leaves, settled. While an earlier descriptor of its engine (for a FENCE,
any earlier one) is incomplete, it issues and waits for its turn, and nothing else happens. -/
def Obligations.DescriptorRunsOnIssue : Prop :=
  (∀ (i : Instr) (op : Nat) (upset : Bool) (j : Job) (s : State),
    issueOf i = some (op, j.c, j.t, upset) → opRegister op = false → Issues s op upset j →
      exec i s = .next (settle (runJob j (started s j)))) ∧
  (∀ (i : Instr) (op : Nat) (upset : Bool) (j : Job) (s : State),
    issueOf i = some (op, j.c, j.t, upset) → opRegister op = false → ready s j.c j.t = some (j.prog, j.d) → j.d.op = op →
    IsNew s j.d.op upset j → behind (started s j) j = true →
      exec i s = .next (settle (started s j)))

/-- One clause for each of DOT, REDUCE, EWISE, SCALE, QUANT (of values and of accumulator images), DEQUANT, SMAXP, TOPK, ACCADD,
DECODE, CAST, BCHECK (making and comparing), RCHECK, LCHECK and DIGEST: when it issues, the bytes it reads lie in the core's own
scratchpad free of bad words, its check does not fail on them and no upset of its engine shows (log entry 13), and what it
writes lies in the scratchpad, then it completes: the scratchpad holds the opcode's result of those bytes and every other byte
as before; the thread's place has moved on, its report has taken the operation's, its STATUS and registers are unchanged, and no
other thread, no cache line and nothing else but counters, events and bad words written over changes. -/
def Obligations.ArithmeticOnScratchpad : Prop :=
  (∀ (j : Job) (s : State) (a b d : Tile) (o : Out),
    Issues s 0x30 false j → a = j.tile (started s j) j.d.opa → b = j.tile (started s j) j.d.opb →
    d = j.tile (started s j) j.d.opd →
    (LocalReads s j.c (a.spans ++ b.spans ++ (if bitOf j.d.sub 2 then d.imageSpans else if bitOf j.d.sub 1 then d.spans else
      []))) →
    (o = evalDot j.mode j.d.sub { t := a, bytes := localBytes s j.c a.spans } { t := b, bytes := localBytes s j.c b.spans }
      (localBytes s j.c (if bitOf j.d.sub 2 then d.imageSpans else if bitOf j.d.sub 1 then d.spans else [])) d) →
    o.fails = false → LocalWrites s j.c o.writes →
      ∃ t, exec (.dot j.c j.t false) s = .next (settle t) ∧ Wrote s j.c o.writes t ∧
      OnlyThread s j.c j.t (doneWith s j.c j.t o.rep) t ∧ OnlyChanges [.fur, .spad, .chk, .counters, .log, .dict, .out] s t) ∧
  (∀ (j : Job) (u : Bool) (s : State) (a d : Tile) (o : Out),
    Issues s 0x31 u j → a = j.tile (started s j) j.d.opa → d = j.tile (started s j) j.d.opd → LocalReads s j.c (a.spans) →
    o = evalReduce j.mode j.d.sub { t := a, bytes := localBytes s j.c a.spans } d →
    (u && autoChecked j (localBytes s j.c (a.spans)) (started s j)) = false → o.fails = false → LocalWrites s j.c o.writes →
      ∃ t, exec (.reduce j.c j.t u) s = .next (settle t) ∧ Wrote s j.c o.writes t ∧
      OnlyThread s j.c j.t (doneWith s j.c j.t o.rep) t ∧ OnlyChanges [.fur, .spad, .chk, .counters, .log, .dict, .out] s t) ∧
  (∀ (j : Job) (s : State) (a b d : Tile) (o : Out),
    Issues s 0x32 false j → a = j.tile (started s j) j.d.opa → b = j.tile (started s j) j.d.opb →
    d = j.tile (started s j) j.d.opd → LocalReads s j.c (a.spans ++ b.spans) →
    o = evalEwise j.mode j.d.sub { t := a, bytes := localBytes s j.c a.spans } { t := b, bytes := localBytes s j.c b.spans }
      d →
    LocalWrites s j.c o.writes →
      ∃ t, exec (.ewise j.c j.t) s = .next (settle t) ∧ Wrote s j.c o.writes t ∧
      OnlyThread s j.c j.t (doneWith s j.c j.t o.rep) t ∧ OnlyChanges [.fur, .spad, .chk, .counters, .log, .dict, .out] s t) ∧
  (∀ (j : Job) (s : State) (a b d : Tile) (o : Out),
    Issues s 0x33 false j → a = j.tile (started s j) j.d.opa → b = j.tile (started s j) j.d.opb →
    d = j.tile (started s j) j.d.opd → LocalReads s j.c (a.spans ++ b.spans) →
    o = evalScale j.mode { t := a, bytes := localBytes s j.c a.spans } { t := b, bytes := localBytes s j.c b.spans } d →
    LocalWrites s j.c o.writes →
      ∃ t, exec (.scale j.c j.t) s = .next (settle t) ∧ Wrote s j.c o.writes t ∧
      OnlyThread s j.c j.t (doneWith s j.c j.t o.rep) t ∧ OnlyChanges [.fur, .spad, .chk, .counters, .log, .dict, .out] s t) ∧
  (∀ (j : Job) (s : State) (a d : Tile) (o : Out),
    Issues s 0x34 false j → a = j.tile (started s j) j.d.opa → d = j.tile (started s j) j.d.opd → bitOf j.d.sub 0 = false →
    LocalReads s j.c (a.spans) → o = evalQuant j.mode { t := a, bytes := localBytes s j.c a.spans } d → o.fails = false →
    LocalWrites s j.c o.writes →
      ∃ t, exec (.quant j.c j.t false) s = .next (settle t) ∧ Wrote s j.c o.writes t ∧
      OnlyThread s j.c j.t (doneWith s j.c j.t o.rep) t ∧ OnlyChanges [.fur, .spad, .chk, .counters, .log, .dict, .out] s t) ∧
  (∀ (j : Job) (s : State) (a d : Tile) (o : Out),
    Issues s 0x34 false j → a = j.tile (started s j) j.d.opa → d = j.tile (started s j) j.d.opd → bitOf j.d.sub 0 = true →
    LocalReads s j.c (a.imageSpans) → o = evalQuantImages j.mode (localBytes s j.c a.imageSpans) d → o.fails = false →
    LocalWrites s j.c o.writes →
      ∃ t, exec (.quant j.c j.t false) s = .next (settle t) ∧ Wrote s j.c o.writes t ∧
      OnlyThread s j.c j.t (doneWith s j.c j.t o.rep) t ∧ OnlyChanges [.fur, .spad, .chk, .counters, .log, .dict, .out] s t) ∧
  (∀ (j : Job) (s : State) (a d : Tile) (o : Out),
    Issues s 0x35 false j → a = j.tile (started s j) j.d.opa → d = j.tile (started s j) j.d.opd →
    LocalReads s j.c (a.spans) → o = evalCast j.mode { t := a, bytes := localBytes s j.c a.spans } d →
    LocalWrites s j.c o.writes →
      ∃ t, exec (.dequant j.c j.t) s = .next (settle t) ∧ Wrote s j.c o.writes t ∧
      OnlyThread s j.c j.t (doneWith s j.c j.t o.rep) t ∧ OnlyChanges [.fur, .spad, .chk, .counters, .log, .dict, .out] s t) ∧
  (∀ (j : Job) (s : State) (a b c d : Tile) (o : Out),
    Issues s 0x36 false j → a = j.tile (started s j) j.d.opa → b = j.tile (started s j) j.d.opb →
    c = j.tile (started s j) j.d.opc → d = j.tile (started s j) j.d.opd → LocalReads s j.c (a.spans ++ b.spans ++ c.spans) →
    o = evalSmaxp j.mode { t := a, bytes := localBytes s j.c a.spans } { t := b, bytes := localBytes s j.c b.spans }
      { t := c, bytes := localBytes s j.c c.spans } d (if j.d.imm % 16 = 0 then a.cols else (xreg j.inc.xs (j.d.imm %
      16)).toNat) →
    o.fails = false → LocalWrites s j.c o.writes →
      ∃ t, exec (.smaxp j.c j.t false) s = .next (settle t) ∧ Wrote s j.c o.writes t ∧
      OnlyThread s j.c j.t (doneWith s j.c j.t o.rep) t ∧ OnlyChanges [.fur, .spad, .chk, .counters, .log, .dict, .out] s t) ∧
  (∀ (j : Job) (s : State) (a c d : Tile) (o : Out),
    Issues s 0x37 false j → a = j.tile (started s j) j.d.opa → c = j.tile (started s j) j.d.opc →
    d = j.tile (started s j) j.d.opd → LocalReads s j.c (a.spans) →
    o = evalTopk j.mode { t := a, bytes := localBytes s j.c a.spans } d c j.d.imm → o.fails = false →
    LocalWrites s j.c o.writes →
      ∃ t, exec (.topk j.c j.t false) s = .next (settle t) ∧ Wrote s j.c o.writes t ∧
      OnlyThread s j.c j.t (doneWith s j.c j.t o.rep) t ∧ OnlyChanges [.fur, .spad, .chk, .counters, .log, .dict, .out] s t) ∧
  (∀ (j : Job) (u : Bool) (s : State) (a b d : Tile) (o : Out),
    Issues s 0x38 u j → a = j.tile (started s j) j.d.opa → b = j.tile (started s j) j.d.opb →
    d = j.tile (started s j) j.d.opd → LocalReads s j.c (a.imageSpans ++ b.imageSpans) →
    o = evalAccadd (localBytes s j.c a.imageSpans) (localBytes s j.c b.imageSpans) d →
    (u && autoChecked j (localBytes s j.c (a.imageSpans ++ b.imageSpans)) (started s j)) = false → o.fails = false →
    LocalWrites s j.c o.writes →
      ∃ t, exec (.accadd j.c j.t u) s = .next (settle t) ∧ Wrote s j.c o.writes t ∧
      OnlyThread s j.c j.t (doneWith s j.c j.t o.rep) t ∧ OnlyChanges [.fur, .spad, .chk, .counters, .log, .dict, .out] s t) ∧
  (∀ (j : Job) (s : State) (a d : Tile) (o : Out),
    Issues s 0x39 false j → a = j.tile (started s j) j.d.opa → d = j.tile (started s j) j.d.opd →
    LocalReads s j.c (a.spans) → o = evalDecode { t := a, bytes := localBytes s j.c a.spans } d (signed 16 j.d.imm) →
    o.fails = false → LocalWrites s j.c o.writes →
      ∃ t, exec (.decodeDesc j.c j.t false) s = .next (settle t) ∧ Wrote s j.c o.writes t ∧
      OnlyThread s j.c j.t (doneWith s j.c j.t o.rep) t ∧ OnlyChanges [.fur, .spad, .chk, .counters, .log, .dict, .out] s t) ∧
  (∀ (j : Job) (s : State) (a d : Tile) (o : Out),
    Issues s 0x3A false j → a = j.tile (started s j) j.d.opa → d = j.tile (started s j) j.d.opd →
    LocalReads s j.c (a.spans) → o = evalCast j.mode { t := a, bytes := localBytes s j.c a.spans } d →
    LocalWrites s j.c o.writes →
      ∃ t, exec (.cast j.c j.t) s = .next (settle t) ∧ Wrote s j.c o.writes t ∧
      OnlyThread s j.c j.t (doneWith s j.c j.t o.rep) t ∧ OnlyChanges [.fur, .spad, .chk, .counters, .log, .dict, .out] s t) ∧
  (∀ (j : Job) (s : State) (a : Tile) (o : Out),
    Issues s 0x40 false j → a = j.tile (started s j) j.d.opa → j.d.sub = 1 → LocalReads s j.c (rowSpans a) →
    o =
      { writes := [(none, bcheckAt j a, ((bcvs (blocksOf (localBytes s j.c (rowSpans a)).flatten.length) (localBytes s j.c (rowSpans a)).flatten).map (natLe 8)).flatten)] }
      →
    LocalWrites s j.c o.writes →
      ∃ t, exec (.bcheck j.c j.t) s = .next (settle t) ∧ Wrote s j.c o.writes t ∧
      OnlyThread s j.c j.t (doneWith s j.c j.t o.rep) t ∧ OnlyChanges [.fur, .spad, .chk, .counters, .log, .dict, .out] s t) ∧
  (∀ (j : Job) (s : State) (a : Tile) (o : Out),
    Issues s 0x40 false j → a = j.tile (started s j) j.d.opa → j.d.sub ≠ 1 →
    LocalReads s j.c (rowSpans a ++ [(a.node, bcheckAt j a, 8 * blocksOf (a.rows * a.rowBytes))]) →
    o = evalBcheck false a (localBytes s j.c (rowSpans a)).flatten (spadRead s j.c (bcheckAt j a) (8 * blocksOf (a.rows *
      a.rowBytes))) (bcheckAt j a) →
    o.fails = false → LocalWrites s j.c o.writes →
      ∃ t, exec (.bcheck j.c j.t) s = .next (settle t) ∧ Wrote s j.c o.writes t ∧
      OnlyThread s j.c j.t (doneWith s j.c j.t o.rep) t ∧ OnlyChanges [.fur, .spad, .chk, .counters, .log, .dict, .out] s t) ∧
  (∀ (j : Job) (s : State) (a : Tile) (o : Out),
    Issues s 0x41 false j → a = j.tile (started s j) j.d.opa → LocalReads s j.c (a.spans) →
    o = evalRcheck { t := a, bytes := localBytes s j.c a.spans } j.d.imm2 j.d.imm3 → o.fails = false →
    LocalWrites s j.c o.writes →
      ∃ t, exec (.rcheck j.c j.t) s = .next (settle t) ∧ Wrote s j.c o.writes t ∧
      OnlyThread s j.c j.t (doneWith s j.c j.t o.rep) t ∧ OnlyChanges [.fur, .spad, .chk, .counters, .log, .dict, .out] s t) ∧
  (∀ (j : Job) (s : State) (a d : Tile) (o : Out),
    Issues s 0x42 false j → a = j.tile (started s j) j.d.opa → d = j.tile (started s j) j.d.opd →
    LocalReads s j.c (a.spans ++ d.imageSpans) →
    o = evalLcheck { t := a, bytes := localBytes s j.c a.spans } (localBytes s j.c d.imageSpans) → o.fails = false →
    LocalWrites s j.c o.writes →
      ∃ t, exec (.lcheck j.c j.t) s = .next (settle t) ∧ Wrote s j.c o.writes t ∧
      OnlyThread s j.c j.t (doneWith s j.c j.t o.rep) t ∧ OnlyChanges [.fur, .spad, .chk, .counters, .log, .dict, .out] s t) ∧
  (∀ (j : Job) (s : State) (a d : Tile),
    Issues s 0x43 false j → a = j.tile (started s j) j.d.opa → d = j.tile (started s j) j.d.opd →
    LocalReads s j.c (rowSpans a) → d.node = none → d.off + 64 ≤ regionEnd s j.c →
      ∃ t, exec (.digest j.c j.t) s = .next (settle t) ∧
      Wrote s j.c [(none, d.off, digestOf (localBytes s j.c (rowSpans a)).flatten)] t ∧
      OnlyThread s j.c j.t (doneWith s j.c j.t {}) t ∧ OnlyChanges [.fur, .spad, .chk, .counters] s t)

/-- When the descriptor issues and its operands lie in the core's own scratchpad, free of bad words where they are read: COPY puts
row r of A in row r of D; GATHER puts row B[i] of A in row i of D; SCATTER puts row i of A in row B[i] of D; FILL puts the
pattern of IMM64 in each row of D; REPORT puts the thread record (Table 8-7) at D; LDX puts the 8 aligned bytes at A in
X[OPD.IX], X0 discarding them. Each reads all it reads before it writes, completes with OK, and leaves every other byte, thread
and register as it was. -/
def Obligations.MovesOnScratchpad : Prop :=
  (∀ (j : Job) (s : State) (a d : Tile) (ws : List (Option Nat × Nat × List Byte)),
    Issues s 0x20 false j → a = j.tile (started s j) j.d.opa → d = j.tile (started s j) j.d.opd → d.node = none →
    LocalReads s j.c (rowSpans a) → (ws = rowWrites d a.rows fun r => spadRead s j.c (a.row r) a.rowBytes) →
    LocalWrites s j.c ws →
      ∃ t, exec (.copy j.c j.t) s = .next (settle t) ∧ Wrote s j.c ws t ∧ OnlyThread s j.c j.t (doneWith s j.c j.t {}) t ∧
      OnlyChanges [.fur, .spad, .chk, .counters] s t) ∧
  (∀ (j : Job) (s : State) (a b d : Tile) (k : Nat → Nat) (ws : List (Option Nat × Nat × List Byte)),
    Issues s 0x21 false j → a = j.tile (started s j) j.d.opa → b = j.tile (started s j) j.d.opb →
    d = j.tile (started s j) j.d.opd → d.node = none → LocalReads s j.c (rowSpans b) →
    k = (fun i => fieldAt (localBytes s j.c (rowSpans b)).flatten (4 * i) 4) →
    (LocalReads s j.c ((List.range d.rows).map fun i => (a.node, a.row (k i), a.rowBytes))) →
    (ws = rowWrites d d.rows fun i => spadRead s j.c (a.row (k i)) a.rowBytes) → LocalWrites s j.c ws →
      ∃ t, exec (.gather j.c j.t) s = .next (settle t) ∧ Wrote s j.c ws t ∧ OnlyThread s j.c j.t (doneWith s j.c j.t {}) t ∧
      OnlyChanges [.fur, .spad, .chk, .counters] s t) ∧
  (∀ (j : Job) (s : State) (a b d : Tile) (k : Nat → Nat) (ws : List (Option Nat × Nat × List Byte)),
    Issues s 0x22 false j → a = j.tile (started s j) j.d.opa → b = j.tile (started s j) j.d.opb →
    d = j.tile (started s j) j.d.opd → LocalReads s j.c (rowSpans b) →
    k = (fun i => fieldAt (localBytes s j.c (rowSpans b)).flatten (4 * i) 4) → LocalReads s j.c (rowSpans a) →
    (ws = (List.range a.rows).map fun i => (none, d.row (k i), spadRead s j.c (a.row i) a.rowBytes)) →
    LocalWrites s j.c ws → d.node = none →
      ∃ t, exec (.scatter j.c j.t) s = .next (settle t) ∧ Wrote s j.c ws t ∧ OnlyThread s j.c j.t (doneWith s j.c j.t {}) t
        ∧
      OnlyChanges [.fur, .spad, .chk, .counters] s t) ∧
  (∀ (j : Job) (s : State) (d : Tile) (ws : List (Option Nat × Nat × List Byte)),
    Issues s 0x25 false j → d = j.tile (started s j) j.d.opd → d.node = none →
    (ws = rowWrites d d.rows fun _ => (List.range d.rowBytes).map fun i => (natLe 8 j.d.imm64.toNat).getD (i % 8) 0) →
    LocalWrites s j.c ws →
      ∃ t, exec (.fill j.c j.t) s = .next (settle t) ∧ Wrote s j.c ws t ∧ OnlyThread s j.c j.t (doneWith s j.c j.t {}) t ∧
      OnlyChanges [.fur, .spad, .chk, .counters] s t) ∧
  (∀ (j : Job) (s : State) (d : Tile) (ws : List (Option Nat × Nat × List Byte)),
    Issues s 0x0C false j → d = j.tile (started s j) j.d.opd → d.node = none →
    ws = [(none, d.off, (s.thread j.c j.t).image s.now)] → LocalWrites s j.c ws →
      ∃ t, exec (.report j.c j.t) s = .next (settle t) ∧ Wrote s j.c ws t ∧ OnlyThread s j.c j.t (doneWith s j.c j.t {}) t ∧
      OnlyChanges [.fur, .spad, .chk, .counters] s t) ∧
  (∀ (j : Job) (s : State) (a : Tile),
    Issues s 0x07 false j → a = j.tile (started s j) j.d.opa → a.off % 8 = 0 → LocalReads s j.c [(a.node, a.off, 8)] →
      ∃ t, exec (.ldx j.c j.t) s = .next (settle t) ∧
      OnlyThread s j.c j.t
        { doneWith s j.c j.t {} with xs := putX (s.thread j.c j.t).xs (opdIx j.d.opd) (BitVec.ofNat 64 (leNat (spadRead s j.c a.off 8))) }
        t ∧
      OnlyChanges [.fur, .counters] s t) ∧
  (∀ (j : Job) (s : State) (a : Tile),
    Issues s 0x07 false j → a = j.tile (started s j) j.d.opa → a.off % 8 ≠ 0 → j.d.cont = true →
      ∃ t, exec (.ldx j.c j.t) s = .next (settle t) ∧
      OnlyThread s j.c j.t (if (s.thread j.c j.t).status = St.ok then
        { doneWith s j.c j.t {} with status := St.malformed, desc := j.inc.idx, linesDone := 0, linesFailed := 0 } else
        doneWith s j.c j.t {}) t ∧
      OnlyChanges [.fur, .counters] s t)

/-- FENCE completes once every earlier descriptor of its thread has. ATOM on the core's own scratchpad, aligned, stores the result
of its operation and leaves the old value in X[OPD.IX] unless it asks for none. RECV claims the oldest FILLED slot of its queue,
freeing the slot its thread held, and gives its payload's place, its IMM and its header in three registers; with no slot FILLED
it waits. WAIT arms its watch with its counter and threshold and waits for the firing; a REARM watch with a firing pending gives
one up instead and the descriptor completes. WBACK and INVAL act on the lines of their range as it stood at issue: where none is
dirty they write nothing, INVAL drops them and WBACK keeps them; with ALL, one dirty line that nothing stands in the way of is
written back first; a line of the range that an earlier load has still at the pool is not filled after an INVAL. -/
def Obligations.FurrowUnitsComplete : Prop :=
  (∀ (j : Job) (s : State),
    Issues s 0x08 false j →
      ∃ t, exec (.fence j.c j.t) s = .next (settle t) ∧ OnlyThread s j.c j.t (doneWith s j.c j.t {}) t ∧
      OnlyChanges [.fur, .counters] s t) ∧
  (∀ (j : Job) (s : State) (a : Tile) (r : Req) (x : List Byte × List Byte),
    Issues s 0x11 false j → a = j.tile (started s j) j.d.opa → r = atomReq (started s j) j a → a.off % r.h.len = 0 →
    0 < r.h.len → LocalReads s j.c [(a.node, a.off, r.h.len)] →
    x = accessBytes r.op r.h r.data (spadRead s j.c a.off r.h.len) → x.1.length ≤ r.h.len →
      ∃ t, exec (.atom j.c j.t) s = .next (settle t) ∧ Wrote s j.c [(none, a.off, x.1)] t ∧
      OnlyThread s j.c j.t
        { doneWith s j.c j.t {} with xs := if bitOf j.d.imm2 4 then (s.thread j.c j.t).xs else putX (s.thread j.c j.t).xs (opdIx j.d.opd) (BitVec.ofNat 64 (leNat x.2)) }
        t ∧
      OnlyChanges [.fur, .spad, .chk, .counters] s t) ∧
  (∀ (j : Job) (s : State) (q : QueueDecl) (i n d : Nat) (hd : List Byte),
    Issues s 0x10 false j → n = j.d.imm % 8 → j.prog.queues.find? (fun x => x.num == n) = some q →
    oldestFilled (started s j) j.c n = some i → recvFirst (started s j) j.c n j.inc.order = true →
    badIn s j.c (q.off + i * q.slotBytes) 16 = false → hd = spadRead s j.c (q.off + i * q.slotBytes) 16 →
    d = opdIx j.d.opd →
      ∃ t, exec (.recv j.c j.t) s = .next (settle t) ∧
      (t.core j.c).slots = ((started s j).core j.c).slots.set (1024 * n + i) .claimed ∧
      t.thread j.c j.t =
        { doneWith s j.c j.t {} with claimed := some (n, i), xs := putX (putX (putX (s.thread j.c j.t).xs d (BitVec.ofNat 64 (q.off + i * q.slotBytes + 16))) (d + 1) (BitVec.ofNat 64 (fieldAt hd 8 6))) (d + 2) (BitVec.ofNat 64 (fieldAt hd 0 2 + fieldAt hd 2 2 % 4096 * 2 ^ 16)) }
        ∧
      (∀ k r, ¬ (k = j.c ∧ r = j.t) → t.thread k r = s.thread k r) ∧ OnlyChanges [.fur, .counters] s t) ∧
  (∀ (j : Job) (s : State) (q : QueueDecl) (n : Nat),
    Issues s 0x10 false j → n = j.d.imm % 8 → j.prog.queues.find? (fun x => x.num == n) = some q →
    ((oldestFilled (started s j) j.c n = none ∨ recvFirst (started s j) j.c n j.inc.order = false)) →
      ∃ t, exec (.recv j.c j.t) s = .next (settle t) ∧
      t.thread j.c j.t =
        { movedOn s j.c j.t with claimed := none, incs := (s.thread j.c j.t).incs ++ [{ j.inc with wait := .slot n }] } ∧
      (∀ k r, ¬ (k = j.c ∧ r = j.t) → t.thread k r = s.thread k r) ∧ OnlyChanges [.fur, .counters] s t) ∧
  (∀ (j : Job) (s : State) (w ctr thr step : Nat),
    Issues s 0x09 false j → j.prog.watches[j.d.imm2 % 512]? = some w →
    ctr = j.d.imm % 65536 + (xreg (s.thread j.c j.t).xs (opdIx j.d.opb)).toNat →
    thr = ((xreg (s.thread j.c j.t).xs (opdIx j.d.opc)).toNat + j.d.imm64.toNat) % 2 ^ 64 →
    step = j.d.imm2 / 2 ^ 16 % 2 ^ 16 → s.chk.badMeta.contains (.watch w) = false →
    (((s.watch w).st ≠ .armed ∨ ((s.watch w).thread = j.t ∧ ¬ ((s.watch w).mode = .rearm ∧ j.d.sub = 2)))) →
    ctrIn s (plotOfCore s j.c) ctr = true → (¬ (j.d.sub = 2 ∧ step = 0)) →
      ∃ t, exec (.wait j.c j.t) s = .next (settle t) ∧
      t.watch w =
        { mode := if j.d.sub = 1 then .claim else if j.d.sub = 2 then .rearm else .once, act := .wake, ctr, thr, step, owner := nodeOf s (0x80 + j.c), core := some j.c, thread := j.t, st := .armed, order := s.sync.nextOrder }
        ∧
      (∀ v, v ≠ w → t.watch v = s.watch v) ∧ (∀ c, ctrVal t c = ctrVal s c) ∧
      OnlyThread s j.c j.t { movedOn s j.c j.t with incs := (s.thread j.c j.t).incs ++ [{ j.inc with wait := .wake }] } t ∧
      OnlyChanges [.fur, .sync, .counters] s t) ∧
  (∀ (j : Job) (s : State) (w : Nat),
    Issues s 0x09 false j → j.prog.watches[j.d.imm2 % 512]? = some w → (s.watch w).st = .armed → (s.watch w).thread = j.t →
    (s.watch w).mode = .rearm → j.d.sub = 2 → 0 < (s.watch w).pending → ((j.d.imm3 = 0 ∨ opdUse j.d.opa = false)) →
    s.chk.badMeta.contains (.watch w) = false →
      ∃ t, exec (.wait j.c j.t) s = .next (settle t) ∧ t.watch w = { s.watch w with pending := (s.watch w).pending - 1 } ∧
      (∀ v, v ≠ w → t.watch v = s.watch v) ∧ OnlyThread s j.c j.t (doneWith s j.c j.t {}) t ∧
      OnlyChanges [.fur, .sync, .counters] s t) ∧
  (∀ (j : Job) (s : State),
    Issues s 0x14 false j → (∀ q ∈ j.inc.range, (cacheLine s j.c q.1 q.2).map CLine.dirty ≠ some true) →
      ∃ t, exec (.wback j.c j.t) s = .next (settle t) ∧ OnlyThread s j.c j.t (doneWith s j.c j.t {}) t ∧
      OnlyChanges [.fur, .counters] s t) ∧
  (∀ (j : Job) (s : State) (l : CLine),
    Issues s 0x14 false j → (s.core j.c).cache = [l] → l.dirty = true → j.inc.range = [(l.ctx, l.vline)] →
    s.coh.walkSince = none → obstacle none (lineWrite (started s j) j.c l) (started s j) = .none → l.data.length = 128 →
      ∃ t, exec (.wback j.c j.t) s = .next (settle t) ∧ (t.core j.c).cache = [{ l with dirty := false }] ∧
      Mem.read t.mem (l.pline * 128) 128 = l.data ∧ (∀ a, a / 128 ≠ l.pline → Mem.read t.mem a 1 = Mem.read s.mem a 1) ∧
      t.thread j.c j.t = { doneWith s j.c j.t {} with nextTag := (s.thread j.c j.t).nextTag + 1 }) ∧
  (∀ (j : Job) (s : State),
    Issues s 0x13 false j → (∀ q ∈ j.inc.range, (cacheLine s j.c q.1 q.2).map CLine.dirty = some false) →
      ∃ t, exec (.inval j.c j.t) s = .next (settle t) ∧
      (t.core j.c).cache = (s.core j.c).cache.filter (fun l => !(j.inc.range.contains (l.ctx, l.vline))) ∧
      t.thread j.c j.t = doneWith s j.c j.t {} ∧ (∀ k r, ¬ (k = j.c ∧ r = j.t) → t.thread k r = s.thread k r) ∧
      (∀ k, k ≠ j.c → (t.core k).cache = (s.core k).cache) ∧ OnlyChanges [.fur, .counters] s t) ∧
  (∀ (j : Job) (s : State),
    Issues s 0x13 false j → (∀ q ∈ j.inc.range, cacheLine s j.c q.1 q.2 = none) →
      ∃ t, exec (.inval j.c j.t) s = .next (settle t) ∧ (t.core j.c).cache = (s.core j.c).cache ∧
      (∀ r, ∀ i ∈ (t.thread j.c r).incs, ∀ l ∈ i.pool, ((s.thread j.c r).ctx, l.off / 128) ∈ j.inc.range → l.line = none →
        l.open_ = true → l.taken = true) ∧
      OnlyChanges [.fur, .counters] s t) ∧
  (∀ (j : Job) (s : State) (l : CLine),
    Issues s 0x13 false j → (s.core j.c).cache = [l] → l.dirty = true → j.inc.range = [(l.ctx, l.vline)] →
    s.coh.walkSince = none → obstacle none (lineWrite (started s j) j.c l) (started s j) = .none → l.data.length = 128 →
      ∃ t, exec (.inval j.c j.t) s = .next (settle t) ∧ (t.core j.c).cache = [] ∧
      Mem.read t.mem (l.pline * 128) 128 = l.data ∧ (∀ a, a / 128 ≠ l.pline → Mem.read t.mem a 1 = Mem.read s.mem a 1) ∧
      t.thread j.c j.t = { doneWith s j.c j.t {} with nextTag := (s.thread j.c j.t).nextTag + 1 })

/-- When the descriptor issues: SIGNAL and SIGMAX send a SIG_ADD or SIG_MAX of IMM64 to the node and counter the operands name; SEND
sends the rows of A as one MSG_SEND with its QUEUE and IMM; with a line slot free and nothing older unsent, the request enters
the hub at once, in the thread's context, tagged, from the core's node, and the descriptor waits for its answer. SOW leaves one
WRITE sowing for each line of the destination, with A's bytes, to be sent as slots come free. To another core's window of this
hub, SIGNAL and SIGMAX send theirs once the counter's page is translated (R201). Operands of SEND and SOW in the scratchpad. The
tag is the model's own numbering (log entry 12). -/
def Obligations.FurrowRequestsAreSent : Prop :=
  (∀ (j : Job) (s : State) (n off tag : Nat) (rq : Req) (u : State),
    Issues s 0x0A false j → testing s j.c = false → n = j.node → hereCore (started s j) n = none →
    off = ((j.x (opdIx j.d.opa)).toNat + j.d.imm) % 2 ^ 48 → (∀ i ∈ (s.thread j.c j.t).incs, i.todo = []) →
    linesHeld s j.c j.t < 32 → tag = j.t * 4096 + (s.thread j.c j.t).nextTag % 4096 →
    rq =
      { via := .core j.c j.t, op := Op.sigAdd, h := { plot := plotOfCore s j.c, len := 8, tag, ctx := (s.thread j.c j.t).ctx, dst := n, src := nodeOf s (0x80 + j.c), opa := BitVec.ofNat 48 off }, data := natLe 8 j.d.imm64.toNat }
      →
    (u = (started s j).onThread j.c j.t fun y =>
      { y with nextTag := y.nextTag + 1, incs := (s.thread j.c j.t).incs ++ [{ j.inc with wait := .replies, wrote := true, asked := [(tag, 0, n, off)] }] })
      →
      exec (.signal j.c j.t) s = .next (settle (sendTodo j.c j.t 31 (serve rq u)))) ∧
  (∀ (j : Job) (s : State) (n off tag : Nat) (rq : Req) (u : State),
    Issues s 0x12 false j → testing s j.c = false → n = j.node → hereCore (started s j) n = none →
    off = ((j.x (opdIx j.d.opa)).toNat + j.d.imm) % 2 ^ 48 → (∀ i ∈ (s.thread j.c j.t).incs, i.todo = []) →
    linesHeld s j.c j.t < 32 → tag = j.t * 4096 + (s.thread j.c j.t).nextTag % 4096 →
    rq =
      { via := .core j.c j.t, op := Op.sigMax, h := { plot := plotOfCore s j.c, len := 8, tag, ctx := (s.thread j.c j.t).ctx, dst := n, src := nodeOf s (0x80 + j.c), opa := BitVec.ofNat 48 off }, data := natLe 8 j.d.imm64.toNat }
      →
    (u = (started s j).onThread j.c j.t fun y =>
      { y with nextTag := y.nextTag + 1, incs := (s.thread j.c j.t).incs ++ [{ j.inc with wait := .replies, wrote := true, asked := [(tag, 0, n, off)] }] })
      →
      exec (.sigmaxDesc j.c j.t) s = .next (settle (sendTodo j.c j.t 31 (serve rq u)))) ∧
  (∀ (j : Job) (s : State) (n off k : Nat) (q : (LineRes × Nat) × State),
    Issues s 0x0A false j → testing s j.c = false → n = j.node → hereCore (started s j) n = some k →
    off = ((j.x (opdIx j.d.opa)).toNat + j.d.imm) % 2 ^ 48 →
    q = windowCheck (j.who (started s j)) k off true (prefetch j.c j.t off (started s j)) → q.1.1.parks = false →
      exec (.signal j.c j.t) s = .next (settle (askAll j [(0, j.req q.2 n Op.sigAdd off 8 0 (natLe 8 j.d.imm64.toNat))]
        q.2))) ∧
  (∀ (j : Job) (s : State) (n off k : Nat) (q : (LineRes × Nat) × State),
    Issues s 0x12 false j → testing s j.c = false → n = j.node → hereCore (started s j) n = some k →
    off = ((j.x (opdIx j.d.opa)).toNat + j.d.imm) % 2 ^ 48 →
    q = windowCheck (j.who (started s j)) k off true (prefetch j.c j.t off (started s j)) → q.1.1.parks = false →
      exec (.sigmaxDesc j.c j.t) s = .next (settle (askAll j [(0, j.req q.2 n Op.sigMax off 8 0 (natLe 8 j.d.imm64.toNat))]
        q.2))) ∧
  (∀ (j : Job) (s : State) (n off tag q : Nat) (b : List Byte) (rq : Req) (u : State),
    Issues s 0x24 false j → testing s j.c = false → n = j.node → off = (j.x (opdIx j.d.opc)).toNat % 2 ^ 48 →
    (∀ i ∈ (s.thread j.c j.t).incs, i.todo = []) → linesHeld s j.c j.t < 32 →
    tag = j.t * 4096 + (s.thread j.c j.t).nextTag % 4096 →
    q = (if opdIx j.d.opb = 0 then j.d.imm else (j.x (opdIx j.d.opb)).toNat) % 256 →
    LocalReads s j.c (rowSpans (j.tile (started s j) j.d.opa)) →
    b = (localBytes s j.c (rowSpans (j.tile (started s j) j.d.opa))).flatten →
    rq =
      { via := .core j.c j.t, op := Op.msgSend, h := { plot := plotOfCore s j.c, len := b.length, tag, ctx := (s.thread j.c j.t).ctx, dst := n, src := nodeOf s (0x80 + j.c), opa := BitVec.ofNat 48 off, opb := q * 256 }, data := b }
      →
    (u = (started s j).onThread j.c j.t fun y =>
      { y with nextTag := y.nextTag + 1, incs := (s.thread j.c j.t).incs ++ [{ j.inc with wait := .replies, wrote := true, asked := [(tag, 0, n, off)] }] })
      →
      exec (.send j.c j.t) s = .next (settle (sendTodo j.c j.t 31 (serve rq u)))) ∧
  (∀ (j : Job) (s : State) (a d : Tile) (ls : List Store) (f : Store → Req) (u : State),
    Issues s 0x23 false j → testing s j.c = false → a = j.tile (started s j) j.d.opa → d = j.tile (started s j) j.d.opd →
    LocalReads s j.c (rowSpans a) →
    (ls = mergeStores ((rowCopies a d ((List.range a.rows).map fun r => (r, r))).map fun q =>
      { node := some (nodeOf s 0), off := q.1, data := (spadRead s j.c q.2.2 q.2.1).map some })) →
    (f = fun q =>
      { op := (maskedWrite q.off q.data).1, h := { plot := plotOfCore s j.c, len := (maskedWrite q.off q.data).2.2.1, ctx := (s.thread j.c j.t).ctx, dst := nodeOf s 0, src := nodeOf s (0x80 + j.c), opa := BitVec.ofNat 48 (maskedWrite q.off q.data).2.1, sow := j.d.sub, sowix := j.d.imm % 16 }, via := .core j.c j.t, data := (maskedWrite q.off q.data).2.2.2 })
      →
    ls ≠ [] →
    (u = (bump 0xC40802 ls.length (started s j)).onThread j.c j.t fun y =>
      { y with incs := (s.thread j.c j.t).incs ++ [{ j.inc with wait := .replies, wrote := true, todo := ls.zipIdx.map fun p => (p.2, f p.1) }] })
      →
      exec (.sow j.c j.t) s = .next (settle (sendAll j.c j.t u)))

/-- An answer whose tag no descriptor of the thread asked with changes nothing. Of those it asked with: a line asked for while
others are outstanding is kept with its status and bytes; the last line lets the descriptor run with all of them; the last
answer outstanding, OK and no other failed, completes the descriptor with OK, and an ATOM that asks for its old value takes it
into X[OPD.IX]; one with a failing status, no other failed, completes it with that status, which the thread takes with its
descriptor and line counts unless it has one already, and issues nothing more unless CONT is set. Nothing of the thread waits to
be sent in the clauses on answers. -/
def Obligations.RepliesReachDescriptors : Prop :=
  (∀ (c r tag st : Nat) (data : List Byte) (i : Inc) (line node off : Nat) (j : Job) (x : Thread) (s : State),
    askedBy s c r tag = some (i, line, node, off) → s.inc c r i.seq = some i → jobOf s c r i = some j → x = s.thread c r →
    (∀ y ∈ x.incs, y.todo = []) → x.ending = false → i.wrote = false → i.asked.filter (fun a => a.1 != tag) ≠ [] →
      ∃ t, exec (.remoteLineArrival c r tag st data) s = .next (settle t) ∧
      OnlyThread s c r
        { x with incs := updFirst (fun y => y.seq == i.seq) (fun y => { y with asked := y.asked.filter (fun a => a.1 != tag), lines := y.lines ++ [(node, off, st, takePad 128 data)] }) x.incs }
        t ∧
      OnlyChanges [.fur] s t) ∧
  (∀ (c r tag st : Nat) (data : List Byte) (s : State),
    askedBy s c r tag = none →
      exec (.remoteLineArrival c r tag st data) s = .next (settle s)) ∧
  (∀ (c r tag st : Nat) (data : List Byte) (i : Inc) (line node off : Nat) (s : State),
    askedBy s c r tag = some (i, line, node, off) → s.inc c r i.seq = some i → i.wrote = false → i.todo = [] →
    i.asked.filter (fun a => a.1 != tag) = [] →
      exec (.remoteLineArrival c r tag st data) s = .next (settle (sendAll c r (rerun c r i.seq ((s.onInc c r i.seq fun y =>
        { y with asked := y.asked.filter fun a => a.1 != tag }).onInc c r i.seq fun y =>
        { y with lines := y.lines ++ [(node, off, st, takePad 128 data)] }))))) ∧
  (∀ (c r tag st : Nat) (data : List Byte) (i : Inc) (line node off : Nat) (j : Job) (x : Thread) (s : State),
    askedBy s c r tag = some (i, line, node, off) → s.inc c r i.seq = some i → jobOf s c r i = some j → x = s.thread c r →
    (∀ y ∈ x.incs, y.todo = []) → x.ending = false → st = St.ok → i.wrote = true → i.rest = [] → i.pool = [] →
    i.asked.filter (fun a => a.1 != tag) = [] → i.failed = 0 → i.status = St.ok → j.d.op ≠ 0x11 →
      ∃ t, exec (.remoteLineArrival c r tag st data) s = .next (settle t) ∧
      OnlyThread s c r { x with incs := x.incs.filter (fun y => y.seq != i.seq), report := (x.report.add i.rep).cap } t ∧
      OnlyChanges [.fur] s t) ∧
  (∀ (c r tag st : Nat) (data : List Byte) (i : Inc) (line node off : Nat) (j : Job) (x : Thread) (s : State),
    askedBy s c r tag = some (i, line, node, off) → s.inc c r i.seq = some i → jobOf s c r i = some j → x = s.thread c r →
    (∀ y ∈ x.incs, y.todo = []) → x.ending = false → st = St.ok → i.wrote = true → i.rest = [] → i.pool = [] →
    i.asked.filter (fun a => a.1 != tag) = [] → i.failed = 0 → i.status = St.ok → j.d.op = 0x11 → bitOf j.d.imm2 4 = false →
      ∃ t, exec (.remoteLineArrival c r tag st data) s = .next (settle t) ∧
      OnlyThread s c r
        { x with incs := x.incs.filter (fun y => y.seq != i.seq), report := (x.report.add i.rep).cap, xs := putX x.xs (opdIx j.d.opd) (BitVec.ofNat 64 (leNat (data.take 8))) }
        t ∧
      OnlyChanges [.fur] s t) ∧
  (∀ (c r tag st : Nat) (data : List Byte) (i : Inc) (line node off : Nat) (j : Job) (x : Thread) (s : State),
    askedBy s c r tag = some (i, line, node, off) → s.inc c r i.seq = some i → jobOf s c r i = some j → x = s.thread c r →
    (∀ y ∈ x.incs, y.todo = []) → x.ending = false → st ≠ St.ok → i.wrote = true → i.rest = [] → i.pool = [] →
    i.asked.filter (fun a => a.1 != tag) = [] → i.failed = 0 → j.d.cont = true → x.status = St.ok →
      ∃ t, exec (.remoteLineArrival c r tag st data) s = .next (settle t) ∧
      OnlyThread s c r
        { x with incs := x.incs.filter (fun y => y.seq != i.seq), report := (x.report.add i.rep).cap, status := st, desc := i.idx, linesDone := i.done, linesFailed := 1 }
        t ∧
      OnlyChanges [.fur] s t) ∧
  (∀ (c r tag st : Nat) (data : List Byte) (i : Inc) (line node off : Nat) (j : Job) (x : Thread) (s : State),
    askedBy s c r tag = some (i, line, node, off) → s.inc c r i.seq = some i → jobOf s c r i = some j → x = s.thread c r →
    (∀ y ∈ x.incs, y.todo = []) → x.ending = false → st ≠ St.ok → i.wrote = true → i.rest = [] → i.pool = [] →
    i.asked.filter (fun a => a.1 != tag) = [] → i.failed = 0 → j.d.cont = false → x.status = St.ok → x.running = true →
    x.incs.filter (fun y => y.seq != i.seq) = [] →
      ∃ t, exec (.remoteLineArrival c r tag st data) s = .next (settle t) ∧
      t.thread c r =
        { x with incs := [], report := (x.report.add i.rep).cap, status := st, desc := i.idx, linesDone := i.done, linesFailed := 1, running := false, ending := false, halted := true, time := s.now, claimed := none }
        ∧
      Logged 0x7106 [c, r, st, i.idx] s t ∧ OnlyChanges [.fur, .log, .dict, .out] s t)

/-- For an arithmetic descriptor whose operands lie in the core's scratchpad, named by its thread and order of issue, with no
repetition of its producer still under way: a sound repetition stores its result, is reported as a transient and counted, and
completes; one that fails again goes to the judge. The judge passes it on another tensor engine: the result is stored and the
engine that failed is retired, with an event; the judge passing where no other tensor engine stands in is a data fault,
FAIL_CHECK; failing there retires the engine, and the last of a core's tensor engines or its vector engine has its core reset.
With no such descriptor waiting for a repetition or a judgement, the command changes nothing. In the first clause the transients
of the engine are within the day's limit. -/
def Obligations.RepeatsAndJudgements : Prop :=
  (∀ (c e : Nat) (d : Issued) (j : Job) (o : Out) (x : Thread) (s : State),
    (s.inc c d.thread d.seq).filter (fun i => i.wait == .repeat_) = some j.inc → jobOf s c d.thread j.inc = some j →
    producing s j = false → 0x30 ≤ j.d.op → j.inc.wrote = false → x = s.thread c d.thread → x.ending = false →
    e = judged s j → LocalReads s c (planOf s j).1 → o = (planOf s j).2 (localBytes s c (planOf s j).1) →
    j.inc.status = St.ok → j.inc.todo = [] → j.inc.asked = [] → j.inc.pool = [] → o.fails = false →
    LocalWrites s c o.writes →
    (if s.chk.day = s.now / 86400000000000 then s.chk.transients.getD (8 * c + e) 0 else 0) < cfg 0xA02001 8 s →
      ∃ t, exec (.checkRepeatDone c d true) s = .next (settle t) ∧ Wrote s c o.writes t ∧
      OnlyThread s c d.thread
        { x with incs := x.incs.filter (fun y => y.seq != j.inc.seq), report := (x.report.add o.rep).cap } t ∧
      Logged 0xA104 [c, e, checkKind j, j.inc.idx] s t ∧
      t.chk.transients.getD (8 * c + e) 0 = (if s.chk.day = s.now / 86400000000000 then s.chk.transients.getD (8 * c + e) 0
        else 0) + 1 ∧
      OnlyChanges [.fur, .chk, .spad, .counters, .log, .dict, .out] s t) ∧
  (∀ (c e : Nat) (d : Issued) (j : Job) (o : Out) (x : Thread) (s : State),
    (s.inc c d.thread d.seq).filter (fun i => i.wait == .repeat_) = some j.inc → jobOf s c d.thread j.inc = some j →
    producing s j = false → 0x30 ≤ j.d.op → j.inc.wrote = false → x = s.thread c d.thread → x.ending = false →
    e = judged s j → LocalReads s c (planOf s j).1 → o = (planOf s j).2 (localBytes s c (planOf s j).1) →
    (¬ (e = 5 ∨ e = 6)) → (judgedByTe s c e && opCheck j.d) = false →
      ∃ t, exec (.checkRepeatDone c d false) s = .next (settle t) ∧
      OnlyThread s c d.thread
        { x with incs := updFirst (fun y => y.seq == j.inc.seq) (fun y => { y with wait := .judge, tries := 1, sound := false }) x.incs }
        t ∧
      OnlyChanges [.fur] s t) ∧
  (∀ (c e : Nat) (d : Issued) (j : Job) (o : Out) (x : Thread) (s : State),
    (s.inc c d.thread d.seq).filter (fun i => i.wait == .judge) = some j.inc → jobOf s c d.thread j.inc = some j →
    producing s j = false → 0x30 ≤ j.d.op → j.inc.wrote = false → x = s.thread c d.thread → x.ending = false →
    e = judged s j → LocalReads s c (planOf s j).1 → o = (planOf s j).2 (localBytes s c (planOf s j).1) →
    j.inc.status = St.ok → j.inc.todo = [] → j.inc.asked = [] → j.inc.pool = [] → o.fails = false →
    LocalWrites s c o.writes → e < 4 → 1 < (workingTes (s.core c)).length →
      ∃ t, exec (.judgementDone c d true) s = .next (settle t) ∧ Wrote s c o.writes t ∧
      (t.core c).teRetired = (s.core c).teRetired ||| 2 ^ e ∧ Logged 0x7103 [c, e, 1] s t ∧
      t.thread c d.thread =
        { x with incs := x.incs.filter (fun y => y.seq != j.inc.seq), report := (x.report.add o.rep).cap } ∧
      (∀ k r, ¬ (k = c ∧ r = d.thread) → t.thread k r = s.thread k r) ∧
      OnlyChanges [.fur, .chk, .spad, .counters, .log, .dict, .out] s t) ∧
  (∀ (c e : Nat) (d : Issued) (j : Job) (o : Out) (x : Thread) (s : State),
    (s.inc c d.thread d.seq).filter (fun i => i.wait == .judge) = some j.inc → jobOf s c d.thread j.inc = some j →
    producing s j = false → 0x30 ≤ j.d.op → j.inc.wrote = false → x = s.thread c d.thread → x.ending = false →
    e = judged s j → LocalReads s c (planOf s j).1 → o = (planOf s j).2 (localBytes s c (planOf s j).1) →
    (¬ (e < 4 ∧ 1 < (workingTes (s.core c)).length)) → x.status = St.ok → j.d.cont = true →
      ∃ t, exec (.judgementDone c d true) s = .next (settle t) ∧
      OnlyThread s c d.thread
        { x with incs := x.incs.filter (fun y => y.seq != j.inc.seq), report := (x.report.add { ovf := o.rep.ovf }).cap, status := St.check, desc := j.inc.idx, linesDone := j.inc.done, linesFailed := j.inc.failed }
        t ∧
      Logged 0xA105 [c, j.inc.idx, checkKind j, 0] s t ∧ OnlyChanges [.fur, .counters, .log, .dict, .out] s t) ∧
  (∀ (c e : Nat) (d : Issued) (j : Job) (o : Out) (x : Thread) (s : State),
    (s.inc c d.thread d.seq).filter (fun i => i.wait == .judge) = some j.inc → jobOf s c d.thread j.inc = some j →
    producing s j = false → 0x30 ≤ j.d.op → j.inc.wrote = false → x = s.thread c d.thread → x.ending = false →
    e = judged s j → LocalReads s c (planOf s j).1 → o = (planOf s j).2 (localBytes s c (planOf s j).1) → 4 ≤ e → e ≠ 5 →
    e ≠ 6 →
      ∃ t, exec (.judgementDone c d false) s = .next (settle t) ∧ (t.core c).ve = false ∧ Logged 0x7103 [c, e, 1] s t ∧
      ((t.boot.rstQueue.any fun q => q.1 == c) = true) ∧
      OnlyThread { s with fur := { s.fur with cores := s.fur.cores.set c { s.core c with ve := false } } } c d.thread
        { x with incs := updFirst (fun y => y.seq == j.inc.seq) (fun y => { y with wait := .turn, tries := 2, sound := false }) x.incs }
        t ∧
      OnlyChanges [.fur, .boot, .counters, .log, .dict, .out] s t) ∧
  (∀ (c e : Nat) (d : Issued) (j : Job) (o : Out) (x : Thread) (s : State),
    (s.inc c d.thread d.seq).filter (fun i => i.wait == .judge) = some j.inc → jobOf s c d.thread j.inc = some j →
    producing s j = false → 0x30 ≤ j.d.op → j.inc.wrote = false → x = s.thread c d.thread → x.ending = false →
    e = judged s j → LocalReads s c (planOf s j).1 → o = (planOf s j).2 (localBytes s c (planOf s j).1) → e < 4 →
    (workingTes (s.core c)).length ≤ 1 →
      ∃ t, exec (.judgementDone c d false) s = .next (settle t) ∧ (t.core c).teRetired = (s.core c).teRetired ||| 2 ^ e ∧
      Logged 0x7103 [c, e, 1] s t ∧ ((t.boot.rstQueue.any fun q => q.1 == c) = true) ∧
      t.thread c d.thread =
        { x with incs := updFirst (fun y => y.seq == j.inc.seq) (fun y => { y with wait := .turn, tries := 2, sound := false }) x.incs }
        ∧
      (∀ k r, ¬ (k = c ∧ r = d.thread) → t.thread k r = s.thread k r) ∧
      OnlyChanges [.fur, .boot, .counters, .log, .dict, .out] s t) ∧
  (∀ (c : Nat) (d : Issued) (sound : Bool) (s : State),
    (s.inc c d.thread d.seq).filter (fun i => i.wait == .repeat_) = none →
      exec (.checkRepeatDone c d sound) s = .next (settle s)) ∧
  (∀ (c : Nat) (d : Issued) (passes : Bool) (s : State),
    (s.inc c d.thread d.seq).filter (fun i => i.wait == .judge) = none →
      exec (.judgementDone c d passes) s = .next (settle s))

/-- By the register with the Lania link up and the core's cluster powered: LOAD of an EMPTY core that is not loading begins the load
and clears DONE, a Tilth test that runs on it ending with its scratchpad zeroed; START of threads of a LOADED or RUNNING core
none of which runs, in a context of the core's plot, starts each at ENTRY with X1 its number and every other register zero; STOP
of a RUNNING core's thread that has nothing incomplete and no armed watch halts it with FAIL_STATE unless it has a status
already; UNLOAD of a LOADED core discards its program, receive slots and watches and leaves it EMPTY; each answers OK with the
outcome in FUR_RESULT, FAIL_STATE there where the core is in no state the command permits (FAIL_PROTECTION for a START in a
context of another plot); with the cluster off the register answers FAIL_STATE. The end of a load: an image that fails the
loader's checks is refused with its reason and index and leaves the core as it was; one that passes them is installed, its
constants at the start of the scratchpad and the rest of it from the start of the code region, its digest kept, and the core is
LOADED. PROBE_RESET clears the statistics of the plots of its mask. -/
def Obligations.ProgramsLoadStartStop : Prop :=
  (∀ (c : Nat) (s : State),
    s.lania.up = true → coreOn s c = true → (s.core c).st = .empty → (s.core c).resetting = false →
    (s.core c).loading = false → (∀ r ∈ s.chk.runs, r.target ≠ c) →
      exec (.coreLoad c) s = .next
        { s with fur := { s.fur with cores := s.fur.cores.set c { s.core c with loading := true, resDone := false } }, out := .regAck St.ok :: s.out }) ∧
  (∀ (c : Nat) (b : List Byte) (x : Image) (u s : State),
    (s.core c).loading = true → corePlot s c ≠ none → ctxPlot s (s.core c).srcCtx = corePlot s c →
    hubRead c (s.core c).srcCtx (plotOfCore s c) (nodeOf s (0x80 + c)) (s.core c).srcOff (s.core c).loadLen s = (.ok b, u) →
    x = imageOf b → loadCheck u c (s.core c).loadLen x = none →
      ∃ t, exec (.loadComplete c) s = .next (settle t) ∧ (t.core c).st = .loaded ∧ (t.core c).loading = false ∧
      (t.core c).digest = Config.shake256 b 64 ∧
      (t.core c).prog.map Prog.descs = some ((partsAt b x.descsAt 32 x.nDesc).map descRecord) ∧
      (t.core c).prog.map Prog.tensors = some ((partsAt b x.tensorsAt 32 x.nTensor).map tensorRecord) ∧
      (t.core c).prog.map Prog.threads = some x.threads ∧ (t.core c).prog.map Prog.entry = some x.entry ∧
      (t.core c).resStatus = St.ok ∧ (t.core c).resDone = true ∧ (∀ k, k ≠ c → t.core k = u.core k) ∧
      Mem.read t.spad (spadKey c 0) x.constBytes = slice b x.constsAt x.constBytes ∧
      Mem.read t.spad (spadKey c (2 ^ 21 - 65536 * x.codePages)) x.constsAt = b.take x.constsAt ∧
      OnlyChanges [.fur, .spad, .chk, .sync] u t) ∧
  (∀ (c why ix : Nat) (b : List Byte) (u s : State),
    (s.core c).loading = true → corePlot s c ≠ none → ctxPlot s (s.core c).srcCtx = corePlot s c →
    hubRead c (s.core c).srcCtx (plotOfCore s c) (nodeOf s (0x80 + c)) (s.core c).srcOff (s.core c).loadLen s = (.ok b, u) →
    loadCheck u c (s.core c).loadLen (imageOf b) = some (why, ix) →
      ∃ t, exec (.loadComplete c) s = .next (settle t) ∧
      t.core c =
        { u.core c with loading := false, resStatus := St.loadRefused, resReason := why, resIndex := ix, resDone := true } ∧
      (∀ k, k ≠ c → t.core k = u.core k) ∧ OnlyChanges [.fur, .counters] u t) ∧
  (∀ (c mask ctx : Nat) (p : Prog) (x : Core) (s : State),
    s.lania.up = true → coreOn s c = true → x = s.core c → x.prog = some p → x.resetting = false →
    (x.st = .loaded ∨ x.st = .running) → 0 < mask → mask < 2 ^ p.threads → p.threads ≤ 16 →
    ((∀ t < p.threads, bitOf mask t = true → (x.thread t).running = false)) → ctxPlot s ctx = corePlot s c →
      ∃ t, exec (.coreStart c mask ctx) s = .next (regAck St.ok t) ∧ (t.core c).st = .running ∧
      (∀ r < p.threads, t.thread c r = if bitOf mask r then
        { running := true, halted := false, pc := p.entry, xs := BitVec.ofNat 64 r :: List.replicate 14 0, ctx } else s.thread
        c r) ∧
      (t.core c).resStatus = St.ok ∧ (t.core c).resDone = !x.loading ∧ (∀ k, k ≠ c → t.core k = s.core k) ∧
      OnlyChanges [.fur] s t) ∧
  (∀ (c mask r : Nat) (x : Core) (s : State),
    s.lania.up = true → coreOn s c = true → x = s.core c → x.st = .running → x.resetting = false → r < 16 → mask = 2 ^ r →
    (x.thread r).running = true → (x.thread r).incs = [] → (x.thread r).claimed = none →
    ((∀ kv ∈ s.sync.watches, kv.2.st = .armed → kv.2.core ≠ some c)) →
      ∃ t, exec (.coreStop c mask) s = .next (settle t) ∧
      t.thread c r =
        { x.thread r with running := false, ending := false, halted := true, time := s.now, status := if (x.thread r).status = St.ok then St.state else (x.thread r).status, desc := if (x.thread r).status = St.ok then (x.thread r).pc else (x.thread r).desc }
        ∧
      (∀ k i, ¬ (k = c ∧ i = r) → t.thread k i = s.thread k i) ∧
      Logged 0x7106 [c, r, (t.thread c r).status, (t.thread c r).desc] s t ∧ (t.core c).resStatus = St.ok ∧
      (t.core c).resDone = !x.loading ∧ OnlyChanges [.fur, .log, .dict, .out] s t) ∧
  (∀ (c : Nat) (s : State),
    s.lania.up = true → coreOn s c = true → (s.core c).st = .loaded → (s.core c).resetting = false →
      ∃ t, exec (.coreUnload c) s = .next (regAck St.ok t) ∧
      t.core c =
        { s.core c with st := .empty, prog := none, image := [], threads := [], slots := [], resStatus := St.ok, resReason := 0, resIndex := 0, resDone := !(s.core c).loading }
        ∧
      (∀ k, k ≠ c → t.core k = s.core k) ∧ (∀ kv ∈ t.sync.watches, kv.2.core ≠ some c) ∧
      OnlyChanges [.fur, .sync, .counters] s t) ∧
  (∀ (c : Nat) (s : State),
    s.lania.up = true → coreOn s c = true →
    ((s.core c).st ≠ .empty ∨ (s.core c).resetting = true ∨ (s.core c).loading = true) →
      exec (.coreLoad c) s = .next
        { s with fur := { s.fur with cores := s.fur.cores.set c { s.core c with resStatus := St.state, resReason := 0, resIndex := 0, resDone := !(s.core c).loading } }, out := .regAck St.ok :: s.out }) ∧
  (∀ (c : Nat) (s : State),
    s.lania.up = true → coreOn s c = false →
      exec (.coreLoad c) s = .next (regAck St.state s)) ∧
  (∀ (c mask ctx : Nat) (s : State),
    s.lania.up = true → coreOn s c = true →
    ((s.core c).prog = none ∨ (s.core c).resetting = true ∨ ((s.core c).st ≠ .loaded ∧ (s.core c).st ≠ .running)) →
      exec (.coreStart c mask ctx) s = .next
        { s with fur := { s.fur with cores := s.fur.cores.set c { s.core c with resStatus := St.state, resReason := 0, resIndex := 0, resDone := !(s.core c).loading } }, out := .regAck St.ok :: s.out }) ∧
  (∀ (c mask ctx : Nat) (s : State),
    s.lania.up = true → coreOn s c = false →
      exec (.coreStart c mask ctx) s = .next (regAck St.state s)) ∧
  (∀ (c mask : Nat) (s : State),
    s.lania.up = true → coreOn s c = true → ((s.core c).st ≠ .running ∨ (s.core c).resetting = true) →
      exec (.coreStop c mask) s = .next (settle
        { s with fur := { s.fur with cores := s.fur.cores.set c { s.core c with resStatus := St.state, resReason := 0, resIndex := 0, resDone := !(s.core c).loading } }, out := .regAck St.ok :: s.out })) ∧
  (∀ (c mask : Nat) (s : State),
    s.lania.up = true → coreOn s c = false →
      exec (.coreStop c mask) s = .next (regAck St.state s)) ∧
  (∀ (c : Nat) (s : State),
    s.lania.up = true → coreOn s c = true → ((s.core c).st ≠ .loaded ∨ (s.core c).resetting = true) →
      exec (.coreUnload c) s = .next
        { s with fur := { s.fur with cores := s.fur.cores.set c { s.core c with resStatus := St.state, resReason := 0, resIndex := 0, resDone := !(s.core c).loading } }, out := .regAck St.ok :: s.out }) ∧
  (∀ (c : Nat) (s : State),
    s.lania.up = true → coreOn s c = false →
      exec (.coreUnload c) s = .next (regAck St.state s)) ∧
  (∀ (c mask ctx : Nat) (p : Prog) (s : State),
    s.lania.up = true → coreOn s c = true → (s.core c).prog = some p → (s.core c).resetting = false →
    ((s.core c).st = .loaded ∨ (s.core c).st = .running) →
    ((∀ r < 16, bitOf mask r = true → r < p.threads ∧ ((s.core c).thread r).running = false)) →
    ctxPlot s ctx ≠ corePlot s c →
      exec (.coreStart c mask ctx) s = .next
        { s with fur := { s.fur with cores := s.fur.cores.set c { s.core c with resStatus := St.protection, resReason := 0, resIndex := 0, resDone := !(s.core c).loading } }, out := .regAck St.ok :: s.out }) ∧
  (∀ (c : Nat) (r : TilthRun) (s : State),
    s.lania.up = true → coreOn s c = true → (s.core c).st = .empty → (s.core c).resetting = false →
    (s.core c).loading = false → r ∈ s.chk.runs → r.target = c →
      ∃ t, exec (.coreLoad c) s = .next (regAck St.ok t) ∧
      t.core c = { s.core c with loading := true, resDone := false, prog := none, threads := [], slots := [] } ∧
      (∀ q ∈ t.chk.runs, q.target ≠ c) ∧ (∀ k a, a < 2 ^ 21 → spadRead t k a 1 = if k = c then [0] else spadRead s k a 1) ∧
      OnlyChanges [.fur, .chk, .spad] s t) ∧
  (∀ (mask : Nat) (s : State),
      ∃ t, exec (.probeReset mask) s = .next t ∧ (∀ n < 9, bitOf mask n = true → t.fur.probes.find? n = none) ∧
      (∀ n, (bitOf mask n = false ∨ 9 ≤ n) → t.fur.probes.find? n = s.fur.probes.find? n) ∧ t.fur.cores = s.fur.cores ∧
      OnlyChanges [.fur] s t)

/-- In SERVICE: an image of the selected group that breaks no rule of Table 9-1 or R226 defines the group, IDLE with NEXT 0, when
the group is not ACTIVE; an image with MEMBERS 0 whose header breaks no rule of Table 9-1, of a group that is not ACTIVE,
undefines it. GROUP_ABORT of a sequence under way with no cause yet gives it the cause FAIL_ABORTED named by the hub, and
COLL_ABORTED is recorded, whether by the dictionary or, with the Lania link up and central services powered, by COLL_ABORT_CMD,
whose result is OK. A definition that is refused, with or without MEMBERS 0, and an abort of no sequence under way, change
nothing of the groups; COLL_ABORT_CMD then gives FAIL_STATE. -/
def Obligations.GroupsAreDefinedAndAborted : Prop :=
  (∀ (g : Nat) (image : List Byte) (s : State),
    g = groupSelected s → image.length = 64 + 32 * (fieldAt image 0 4 / 2 ^ 16 % 2 ^ 11) →
    0 < fieldAt image 0 4 / 2 ^ 16 % 2 ^ 11 → inService s = true → groupState s g < 2 →
    groupBad s g image (groupOf image) = false →
      exec (.groupDefine image) s = .next { s with coll := { s.coll with groups := s.coll.groups.set g (groupOf image) } }) ∧
  (∀ (g : Nat) (image : List Byte) (s : State),
    g = groupSelected s → image.length = 64 → fieldAt image 0 4 / 2 ^ 16 % 2 ^ 11 = 0 →
    groupBad s g image (groupOf image) = false → inService s = true → groupState s g < 2 →
      exec (.groupUndefine image) s = .next { s with coll := { s.coll with groups := s.coll.groups.erase g } }) ∧
  (∀ (image : List Byte) (s : State),
    (image.length ≠ 64 + 32 * (fieldAt image 0 4 / 2 ^ 16 % 2 ^ 11) ∨ inService s = false ∨ 2 ≤ groupState s (groupSelected
      s) ∨ (0 < fieldAt image 0 4 / 2 ^ 16 % 2 ^ 11 ∧ groupBad s (groupSelected s) image (groupOf image) = true)) →
      exec (.groupDefine image) s = .next s) ∧
  (∀ (image : List Byte) (s : State),
    (image.length ≠ 64 ∨ inService s = false ∨ 2 ≤ groupState s (groupSelected s)) →
      exec (.groupUndefine image) s = .next s) ∧
  (∀ (g n : Nat) (s : State),
    g < 4096 → s.lania.up = true → csOn s = true → (((s.group g).bind fun x => x.find n).any CSeq.underWay = false) →
      exec (.groupAbort (some g) n) s = .next (settle
        { s with coll := { s.coll with abortStatus := St.state }, out := .regAck St.ok :: s.out })) ∧
  (∀ (n : Nat) (s : State),
    (((s.group (groupSelected s)).bind fun x => x.find n).any CSeq.underWay = false) →
      exec (.groupAbort none n) s = .next (settle s)) ∧
  (∀ (reg : Option Nat) (g n : Nat) (x : Group) (q : CSeq) (s : State),
    (reg = none ∧ g = groupSelected s ∨ (reg = some g ∧ g < 4096 ∧ s.lania.up = true ∧ csOn s = true)) →
    inService s = true → s.group g = some x → x.find n = some q → q.underWay = true → q.cause = none →
      ∃ t, exec (.groupAbort reg n) s = .next (settle t) ∧
      ((((t.group g).bind fun y => y.find n).bind CSeq.cause) = some
        { status := St.aborted, named := 0x7FF, reason := 1, hubLevel := false, time := s.now, hub := x.hubIx (hubId s) }) ∧
      Logged 0x8101 [g, n, St.aborted, 0x7FF, 1, 0, q.written.length] s t ∧ (reg.isSome = true → t.coll.abortStatus = St.ok)
        ∧
      (∀ k, k ≠ g → t.group k = s.group k) ∧ OnlyChanges [.coll, .counters, .log, .dict, .out] s t)

/-- A descriptor from the slot that its sequence names: of a sequence behind NEXT it is dropped and counted; DEPTH or more ahead, in
the wrong slot, naming another group or the second of its member, it is refused with COLL_POST_REFUSED and the groups are
unchanged; the first of its sequence at a hub of a single-hub group, breaking no rule, is held and fixes the signature; one that
differs from the signature fixed ends the sequence with FAIL_MISMATCH naming its member. ALL_REDUCE, REDUCE_SCATTER, ALL_GATHER,
BROADCAST, REDUCE, ALL_TO_ALL and BARRIER start a group's next sequence when it is of that operation, may start and is first in
order: it executes from now, its window opens, its staging is reserved; with compute throttled, and no other hub in the group,
its deadlines are the longer ones too. Otherwise the command changes nothing. -/
def Obligations.CollectivesPostAndStart : Prop :=
  (∀ (g k slot n m : Nat) (desc : List Byte) (x : Group) (mem : Member) (s : State),
    s.group g = some x → (locals s x)[k]? = some (m, mem) → desc.length = 128 → n = fieldAt desc 4 4 →
    (n + 2 ^ 32 - x.next) % 2 ^ 32 < x.depth → x.depth < 2 ^ 31 → n % x.depth = slot → fieldAt desc 0 2 % 4096 = g →
    x.find n = none → descBad x desc = false → others s x = [] → x.hubs = [hubId s] →
      ∃ t, exec (.collDescriptorPost g k slot desc) s = .next (settle t) ∧
      (((t.group g).bind fun y => y.find n).map CSeq.posts = some [(m, desc)]) ∧
      ((t.group g).bind fun y => y.find n).bind CSeq.sig = some (desc.take 16) ∧
      (((t.group g).bind fun y => y.find n).map CSeq.order = some s.coll.nextOrder) ∧
      (((t.group g).bind fun y => y.find n).map CSeq.exec = some false) ∧ (∀ k, k ≠ g → t.group k = s.group k) ∧
      OnlyChanges [.coll] s t) ∧
  (∀ (g k slot n m : Nat) (desc : List Byte) (x : Group) (mem : Member) (s : State),
    s.group g = some x → (locals s x)[k]? = some (m, mem) → desc.length = 128 → n = fieldAt desc 4 4 →
    2 ^ 31 ≤ (n + 2 ^ 32 - x.next) % 2 ^ 32 →
      exec (.collDescriptorPost g k slot desc) s = .next (settle (bump 0xC40905 1 s))) ∧
  (∀ (g k slot n m : Nat) (desc : List Byte) (x : Group) (mem : Member) (s : State),
    s.group g = some x → (locals s x)[k]? = some (m, mem) → desc.length = 128 → n = fieldAt desc 4 4 →
    (n + 2 ^ 32 - x.next) % 2 ^ 32 < 2 ^ 31 →
    (x.depth ≤ (n + 2 ^ 32 - x.next) % 2 ^ 32 ∨ n % x.depth ≠ slot ∨ fieldAt desc 0 2 % 4096 ≠ g ∨ (∃ q, x.find n = some q ∧
      ∃ p ∈ q.posts, p.1 = m)) →
      ∃ t, exec (.collDescriptorPost g k slot desc) s = .next (settle t) ∧ Logged 0x8102 [g, m, n, x.next] s t ∧
      t.coll.groups = s.coll.groups ∧ OnlyChanges [.coll, .counters, .log, .dict, .out] s t) ∧
  (∀ (g k slot n m : Nat) (desc : List Byte) (x : Group) (mem : Member) (q : CSeq) (b : List Byte) (s : State),
    s.group g = some x → (locals s x)[k]? = some (m, mem) → desc.length = 128 → n = fieldAt desc 4 4 →
    (n + 2 ^ 32 - x.next) % 2 ^ 32 < x.depth → x.depth < 2 ^ 31 → n % x.depth = slot → fieldAt desc 0 2 % 4096 = g →
    descBad x desc = false → x.find n = some q → (∀ p ∈ q.posts, p.1 ≠ m) → q.sig = some b → b ≠ desc.take 16 →
    q.cause = none →
      ∃ t, exec (.collDescriptorPost g k slot desc) s = .next (settle t) ∧
      (((t.group g).bind fun y => y.find n).bind CSeq.cause = some
        { status := St.mismatch, named := m, reason := 1, hubLevel := false, time := s.now, hub := x.hubIx (hubId s) }) ∧
      Logged 0x8101 [g, n, St.mismatch, m, 1, 0, q.written.length] s t ∧ OnlyChanges [.coll, .counters, .log, .dict, .out] s
        t) ∧
  (∀ (g : Nat) (x : Group) (q : CSeq) (s : State),
    startsNext s g 1 = true → s.group g = some x → x.find x.next = some q → throttled s = false →
      ∃ t, exec (.allReduce g) s = .next (settle t) ∧ t.group g = some (startedAs s x) ∧
      t.coll.reserved = s.coll.reserved.set x.plot (s.coll.reserved.getD x.plot 0 + reserveBytes s x) ∧
      (∀ k, k ≠ g → t.group k = s.group k) ∧ OnlyChanges [.coll] s t) ∧
  (∀ (g : Nat) (s : State),
    startsNext s g 1 = false →
      exec (.allReduce g) s = .next (settle s)) ∧
  (∀ (g : Nat) (x : Group) (q : CSeq) (s : State),
    startsNext s g 2 = true → s.group g = some x → x.find x.next = some q → throttled s = false →
      ∃ t, exec (.reduceScatter g) s = .next (settle t) ∧ t.group g = some (startedAs s x) ∧
      t.coll.reserved = s.coll.reserved.set x.plot (s.coll.reserved.getD x.plot 0 + reserveBytes s x) ∧
      (∀ k, k ≠ g → t.group k = s.group k) ∧ OnlyChanges [.coll] s t) ∧
  (∀ (g : Nat) (s : State),
    startsNext s g 2 = false →
      exec (.reduceScatter g) s = .next (settle s)) ∧
  (∀ (g : Nat) (x : Group) (q : CSeq) (s : State),
    startsNext s g 3 = true → s.group g = some x → x.find x.next = some q → throttled s = false →
      ∃ t, exec (.allGather g) s = .next (settle t) ∧ t.group g = some (startedAs s x) ∧
      t.coll.reserved = s.coll.reserved.set x.plot (s.coll.reserved.getD x.plot 0 + reserveBytes s x) ∧
      (∀ k, k ≠ g → t.group k = s.group k) ∧ OnlyChanges [.coll] s t) ∧
  (∀ (g : Nat) (s : State),
    startsNext s g 3 = false →
      exec (.allGather g) s = .next (settle s)) ∧
  (∀ (g : Nat) (x : Group) (q : CSeq) (s : State),
    startsNext s g 4 = true → s.group g = some x → x.find x.next = some q → throttled s = false →
      ∃ t, exec (.broadcast g) s = .next (settle t) ∧ t.group g = some (startedAs s x) ∧
      t.coll.reserved = s.coll.reserved.set x.plot (s.coll.reserved.getD x.plot 0 + reserveBytes s x) ∧
      (∀ k, k ≠ g → t.group k = s.group k) ∧ OnlyChanges [.coll] s t) ∧
  (∀ (g : Nat) (s : State),
    startsNext s g 4 = false →
      exec (.broadcast g) s = .next (settle s)) ∧
  (∀ (g : Nat) (x : Group) (q : CSeq) (s : State),
    startsNext s g 5 = true → s.group g = some x → x.find x.next = some q → throttled s = false →
      ∃ t, exec (.collReduce g) s = .next (settle t) ∧ t.group g = some (startedAs s x) ∧
      t.coll.reserved = s.coll.reserved.set x.plot (s.coll.reserved.getD x.plot 0 + reserveBytes s x) ∧
      (∀ k, k ≠ g → t.group k = s.group k) ∧ OnlyChanges [.coll] s t) ∧
  (∀ (g : Nat) (s : State),
    startsNext s g 5 = false →
      exec (.collReduce g) s = .next (settle s)) ∧
  (∀ (g : Nat) (x : Group) (q : CSeq) (s : State),
    startsNext s g 6 = true → s.group g = some x → x.find x.next = some q → throttled s = false →
      ∃ t, exec (.allToAll g) s = .next (settle t) ∧ t.group g = some (startedAs s x) ∧
      t.coll.reserved = s.coll.reserved.set x.plot (s.coll.reserved.getD x.plot 0 + reserveBytes s x) ∧
      (∀ k, k ≠ g → t.group k = s.group k) ∧ OnlyChanges [.coll] s t) ∧
  (∀ (g : Nat) (s : State),
    startsNext s g 6 = false →
      exec (.allToAll g) s = .next (settle s)) ∧
  (∀ (g : Nat) (x : Group) (q : CSeq) (s : State),
    startsNext s g 7 = true → s.group g = some x → x.find x.next = some q → throttled s = false →
      ∃ t, exec (.barrier g) s = .next (settle t) ∧ t.group g = some (startedAs s x) ∧
      t.coll.reserved = s.coll.reserved.set x.plot (s.coll.reserved.getD x.plot 0 + reserveBytes s x) ∧
      (∀ k, k ≠ g → t.group k = s.group k) ∧ OnlyChanges [.coll] s t) ∧
  (∀ (g : Nat) (s : State),
    startsNext s g 7 = false →
      exec (.barrier g) s = .next (settle s)) ∧
  (∀ (i : Instr) (g op : Nat) (x : Group) (q : CSeq) (s : State),
    (op, i) ∈ [(1, .allReduce g), (2, .reduceScatter g), (3, .allGather g), (4, .broadcast g), (5, .collReduce g), (6,
      .allToAll g), (7, .barrier g)] →
    startsNext s g op = true → s.group g = some x → x.find x.next = some q → others s x = [] → throttled s = true →
      ∃ t, exec i s = .next (settle t) ∧
      t.group g = some
        { startedAs s x with seqs := updFirst (fun y => y.seq == x.next) (fun y => { y with slow := true }) (startedAs s x).seqs }
        ∧
      OnlyChanges [.coll] s t)

/-- At node 0xC0, from a member that contributes: a RED_COLL to expected lines of a chunk in the window none of whose bytes has
arrived is staged and answered OK, any other is answered FAIL_STATE, FAIL_ABORTED of an aborted sequence, and one from no member
FAIL_PROTECTION; a THROTTLE notice with factor 2 to 4 for the running sequence or one up to DEPTH ahead sets the member's factor
to the largest yet and is answered OK, any other FAIL_STATE. A chunk whose every contribution is at hand: one whose check values
do not hold ends the sequence with FAIL_CHECK naming the member, arithmetic that fails on both cores with FAIL_CHECK, and no
core to run it with FAIL_ABORTED; in a single-hub group otherwise its results are written to the members; one not at hand waits.
The last answer to a chunk's writes, OK, makes it written; a failing one ends the sequence. A member's completion record once
answered has its signal issued. With no such answer, both commands change nothing. -/
def Obligations.ContributionsAndChunks : Prop :=
  (∀ (via : Ingress) (h : Header) (data : List Byte) (r : Req) (s u : State) (x : Group) (q : CSeq) (b : List Byte) (m : Nat)
    (mem : Member) (k off : Nat),
    r = normalise s { via, op := 0xA8, h, data } → u = countCells r s → Passes u r 0xC0 →
    s.group (r.h.opb % 4096) = some x → (locals s x).find? (fun l => l.2.node == r.h.src) = some (m, mem) →
    x.find r.h.opc = some q → q.cause = none → q.exec = true → q.sig = some b → contributes b m = true →
    k = r.h.opa.toNat / x.cstride → off = r.h.opa.toNat % x.cstride → inWindow x q b k = true → q.writing.find k = none →
    expected x (sigCt b) (chunkLen x b k) off r.h.len = true →
    (∀ i < r.h.len, q.stage.find (stageOff x (localIx s x m) k (off + i)) = none) → data.length = r.h.len →
      ∃ t, exec (.redColl via h data) s = .next (settle t) ∧
      (∀ i < r.h.len, ((t.group (r.h.opb % 4096)).bind fun y => y.find r.h.opc).bind (fun z => z.stage.find (stageOff x
        (localIx s x m) k (off + i))) = data[i]?) ∧
      (((t.group (r.h.opb % 4096)).bind fun y => y.find r.h.opc).map CSeq.posts = some q.posts) ∧
      (r.via = .mgmt ∨ (r.via = .host ∧ s.lania.comp ≠ .lost) → Replied r.via (ackOf r St.ok 0) t) ∧
      OnlyChanges [.sw, .ports, .key, .pool, .coll, .counters, .out] s t) ∧
  (∀ (via : Ingress) (h : Header) (data : List Byte) (r : Req) (s u : State),
    r = normalise s { via, op := 0xA8, h, data } → u = countCells r s → Passes u r 0xC0 →
    (((s.group (r.h.opb % 4096)).all fun x => !(locals s x).any fun l => l.2.node == r.h.src) = true) →
      ∃ t, exec (.redColl via h data) s = .next (settle t) ∧ t.coll = s.coll ∧
      (r.via = .mgmt ∨ (r.via = .host ∧ s.lania.comp ≠ .lost) → Replied r.via (ackOf r St.protection 0) t) ∧
      OnlyChanges [.sw, .ports, .key, .counters, .out] s t) ∧
  (∀ (via : Ingress) (h : Header) (data : List Byte) (r : Req) (s u : State) (x : Group) (q : CSeq) (b : List Byte) (m : Nat)
    (mem : Member) (k off : Nat),
    r = normalise s { via, op := 0xA8, h, data } → u = countCells r s → Passes u r 0xC0 →
    s.group (r.h.opb % 4096) = some x → (locals s x).find? (fun l => l.2.node == r.h.src) = some (m, mem) →
    x.find r.h.opc = some q → q.sig = some b → contributes b m = true → k = r.h.opa.toNat / x.cstride →
    off = r.h.opa.toNat % x.cstride →
    (q.cause ≠ none ∨ q.exec = false ∨ inWindow x q b k = false ∨ q.writing.find k ≠ none ∨ expected x (sigCt b) (chunkLen x
      b k) off r.h.len = false ∨ ∃ i < r.h.len, q.stage.find (stageOff x (localIx s x m) k (off + i)) ≠ none) →
      ∃ t, exec (.redColl via h data) s = .next (settle t) ∧ t.coll = s.coll ∧
      (r.via = .mgmt ∨ (r.via = .host ∧ s.lania.comp ≠ .lost) → Replied r.via (ackOf r (if q.cause = none then St.state else
        St.aborted) 0) t) ∧
      OnlyChanges [.sw, .ports, .key, .counters, .out] s t) ∧
  (∀ (via : Ingress) (h : Header) (data : List Byte) (r : Req) (s u : State) (x : Group) (q : CSeq) (m : Nat) (mem : Member)
    (f : Nat),
    r = normalise s { via, op := 0x81, h, data } → u = countCells r s → Passes u r 0xC0 →
    s.group (r.h.opb % 4096) = some x → (locals s x).find? (fun l => l.2.node == r.h.src) = some (m, mem) →
    x.find r.h.opc = some q → (q.exec = true ∨ (r.h.opc + 2 ^ 32 - x.next) % 2 ^ 32 < x.depth) →
    f = fieldAt data 0 4 / 16 % 16 → (2 ≤ f ∧ f ≤ 4) → fieldAt data 0 4 % 16 = 1 →
      ∃ t, exec (.collNotice via h data) s = .next (settle t) ∧
      ((t.group (r.h.opb % 4096)).bind fun y => y.find r.h.opc).map CSeq.factors = some (q.factors.set m (max f
        (q.factors.getD m 0))) ∧
      (r.via = .mgmt ∨ (r.via = .host ∧ s.lania.comp ≠ .lost) → Replied r.via (ackOf r St.ok 0) t) ∧
      OnlyChanges [.sw, .ports, .key, .coll, .counters, .out] s t) ∧
  (∀ (via : Ingress) (h : Header) (data : List Byte) (r : Req) (s u : State) (x : Group) (m f : Nat) (mem : Member),
    r = normalise s { via, op := 0x81, h, data } → u = countCells r s → Passes u r 0xC0 →
    s.group (r.h.opb % 4096) = some x → (locals s x).find? (fun l => l.2.node == r.h.src) = some (m, mem) →
    f = fieldAt data 0 4 / 16 % 16 →
    (f < 2 ∨ 4 < f ∨ fieldAt data 0 4 % 16 ≠ 1 ∨ (x.find r.h.opc = none ∧ x.depth ≤ (r.h.opc + 2 ^ 32 - x.next) % 2 ^ 32)) →
      ∃ t, exec (.collNotice via h data) s = .next (settle t) ∧ t.coll = s.coll ∧
      (r.via = .mgmt ∨ (r.via = .host ∧ s.lania.comp ≠ .lost) → Replied r.via (ackOf r St.state 0) t) ∧
      OnlyChanges [.sw, .ports, .key, .counters, .out] s t) ∧
  (∀ (g k upsets : Nat) (ve : Bool) (x : Group) (q : CSeq) (b : List Byte) (s : State) (m : Nat),
    s.group g = some x → x.find x.next = some q → q.sig = some b → chunkHere s x q b k = true → collCores s x ≠ [] →
    q.sent.find k = none → badContribution s x q b k = some m →
      ∃ t, exec (.chunkReady g k ⟨upsets, ve⟩) s = .next (settle t) ∧
      (((t.group g).bind fun y => y.find x.next).bind CSeq.cause = some
        { status := St.check, named := m, reason := 1, hubLevel := false, time := s.now, hub := x.hubIx (hubId s) }) ∧
      Logged 0x8101 [g, q.seq, St.check, m, 1, 0, q.written.length] s t ∧ Logged 0xA105 [g, x.next, sigOp b, 0] s t ∧
      OnlyChanges [.coll, .counters, .log, .dict, .out] s t) ∧
  (∀ (g k upsets : Nat) (ve : Bool) (x : Group) (q : CSeq) (b : List Byte) (s : State),
    s.group g = some x → x.find x.next = some q → q.sig = some b → chunkHere s x q b k = true →
    badContribution s x q b k = none → opReduces (sigOp b) = true → collCores s x ≠ [] →
    (2 < upsets ∨ (upsets = 2 ∧ (collCores s x).length = 1)) →
      ∃ t, exec (.chunkReady g k ⟨upsets, ve⟩) s = .next (settle t) ∧
      (((t.group g).bind fun y => y.find x.next).bind CSeq.cause = some
        { status := St.check, named := 0x7FF, reason := 2, hubLevel := false, time := s.now, hub := x.hubIx (hubId s) }) ∧
      Logged 0x8101 [g, q.seq, St.check, 0x7FF, 2, 0, q.written.length] s t ∧
      OnlyChanges [.coll, .counters, .log, .dict, .out] s t) ∧
  (∀ (g k upsets : Nat) (ve : Bool) (x : Group) (q : CSeq) (b : List Byte) (s : State),
    s.group g = some x → x.find x.next = some q → q.sig = some b → chunkHere s x q b k = true →
    badContribution s x q b k = none → collCores s x = [] →
      ∃ t, exec (.chunkReady g k ⟨upsets, ve⟩) s = .next (settle t) ∧
      (((t.group g).bind fun y => y.find x.next).bind CSeq.cause = some
        { status := St.aborted, named := 0x7FF, reason := 3, hubLevel := false, time := s.now, hub := x.hubIx (hubId s) }) ∧
      OnlyChanges [.coll, .counters, .log, .dict, .out] s t) ∧
  (∀ (g k upsets : Nat) (ve : Bool) (s : State),
    (((s.group g).all fun x => (x.find x.next).all fun q => !chunkHere s x q (q.sig.getD []) k) = true) →
      exec (.chunkReady g k ⟨upsets, ve⟩) s = .next (settle s)) ∧
  (∀ (g k : Nat) (ve : Bool) (x : Group) (q : CSeq) (b : List Byte) (s : State) (u v : State) (p w : CSeq),
    s.group g = some x → x.find x.next = some q → q.sig = some b → chunkHere s x q b k = true →
    badContribution s x q b k = none → collCores s x ≠ [] → x.multi = false →
    u = (if opReduces (sigOp b) then encodeSlice g x.next k (x.hubIx (hubId s)) x q b s else s) →
    v = (if (locals s x).any (fun m => contributes b m.1) then u else recordStage g x.next (k + 1) false false (sigRoot b)
      u) →
    (((u.group g).bind fun y => y.find x.next) = some p) → (((v.group g).bind fun y => y.find x.next) = some w) →
    p.cause = none →
    ((∀ m ∈ locals s x, (memberPieces u x p b k m.1).isSome = true ∧ (receives b m.1 = true → ∃ z ∈ p.posts, z.1 = m.1))) →
      exec (.chunkReady g k ⟨0, ve⟩) s = .next (settle (writeResults g x.next k x
        { w with report := (w.report.add (((chunkSlices u x p b k).getD []).foldl (fun (a : ArithReport) z => a.add z.2.2) {})).cap }
        b (v.onSeq g x.next fun y =>
        { y with report := (y.report.add (((chunkSlices u x p b k).getD []).foldl (fun (a : ArithReport) z => a.add z.2.2) {})).cap })))) ∧
  (∀ (g k : Nat) (s : State),
    (∀ a ∈ s.coll.answers, isResult g k a.op = false) →
    ((((s.group g).bind fun x => x.find x.next).all fun q => q.writing.find k != some 0 || q.written.contains k) = true) →
      exec (.chunkWritten g k) s = .next (settle s)) ∧
  (∀ (g k : Nat) (x : Group) (q : CSeq) (a : UnitAnswer) (m : Nat) (s : State),
    s.group g = some x → x.find x.next = some q → a.op = .result g x.next k m → s.coll.answers = [a] →
    q.writing.find k = some 2 → k ∉ q.written → q.cause = none → a.status = St.ok →
      ∃ t, exec (.chunkWritten g k) s = .next (settle t) ∧
      ((t.group g).bind fun y => y.find x.next).map CSeq.written = some (q.written ++ [k]) ∧
      (((t.group g).bind fun y => y.find x.next).bind (fun z => z.writing.find k) = some 0) ∧ t.coll.answers = [] ∧
      OnlyChanges [.coll, .counters] s t) ∧
  (∀ (g k : Nat) (x : Group) (q : CSeq) (a : UnitAnswer) (m : Nat) (s : State),
    s.group g = some x → x.find x.next = some q → a.op = .result g x.next k m → s.coll.answers = [a] →
    q.writing.find k = some 2 → k ∉ q.written → q.cause = none → a.status ≠ St.ok → m ≠ 0x7FF →
      ∃ t, exec (.chunkWritten g k) s = .next (settle t) ∧
      (((t.group g).bind fun y => y.find x.next).bind CSeq.cause = some
        { status := St.aborted, named := m, reason := 2, hubLevel := false, time := s.now, hub := x.hubIx (hubId s) }) ∧
      Logged 0x8101 [g, q.seq, St.aborted, m, 2, 0, q.written.length] s t) ∧
  (∀ (g n m : Nat) (s : State),
    (∀ a ∈ s.coll.answers, a.op ≠ .record g n m) →
      exec (.collectiveSignal g n m) s = .next (settle s)) ∧
  (∀ (g n m : Nat) (x : Group) (q : CSeq) (a : UnitAnswer) (y : Member) (s : State),
    s.group g = some x → x.find n = some q → a.op = .record g n m → s.coll.answers = [a] →
    (∀ kv ∈ s.coll.unitOps, kv.2 ≠ .record g n m) → x.members[m]? = some y →
      ∃ t, exec (.collectiveSignal g n m) s = .next (settle t) ∧ t.coll.answers = [] ∧
      t.coll.outbox = s.coll.outbox ++
        [{ via := .unit, op := Op.sigAdd, h := { plot := x.plot, len := 8, ctx := y.cctx, dst := y.cnode, src := nodeOf s 0xC0, tag := s.coll.nextTag % 65536, opa := BitVec.ofNat 48 (if lepOf y.cnode = 0xC0 then y.sigoff % 65536 else y.sigoff) }, data := natLe 8 1 }]
        ∧
      (((t.group g).bind fun z => z.find n).bind (fun z => z.finish.find m) = some .signalled) ∧ OnlyChanges [.coll] s t)

/-- From another hub of a group, with the group's digest, for a sequence the hub holds that is not aborted and not behind NEXT:
SIGNATURE that agrees with the one fixed here is kept; PARTIAL, RESULT and DATA bodies are kept by chunk, slice and offset;
NOTICE sets the hub's factor to the largest yet; ABORT gives the sequence its cause, and of one that has a cause the earlier in
time, then in hub, remains; DONE is kept. In direct exchange nothing else changes; round a ring RESULT, DATA and DONE go on to
the next hub, unless it is where they came from. A message with another digest ends the sequence with FAIL_MISMATCH naming that
hub's first member (the model's choice, log entry 41). One from no other hub of the group, or of a sequence behind NEXT, is
dropped. -/
def Obligations.ExchangeBetweenHubs : Prop :=
  (∀ (hub g n : Nat) (payload : List Byte) (x : Group) (q : CSeq) (s : State),
    g = fieldAt payload 0 4 / 16 % 4096 → n = fieldAt payload 4 4 → s.group g = some x → hub ∈ x.hubs → hub ≠ hubId s →
    (n + 2 ^ 32 - x.next) % 2 ^ 32 < 2 ^ 31 → 32 ≤ payload.length → x.find n = some q → q.cause = none →
    slice payload 24 8 = takePad 8 x.digest → q.sig = some (takePad 16 (payload.drop 32)) → q.sigs = [] →
      ∃ t, exec (.xchSignature hub payload) s = .next (settle t) ∧
      t.group g = some
        { x with seqs := updFirst (fun y => y.seq == n) (fun y => { y with sigs := y.sigs ++ [(hub, takePad 16 (payload.drop 32))] }) x.seqs }
        ∧
      (∀ k, k ≠ g → t.group k = s.group k) ∧ OnlyChanges [.coll] s t) ∧
  (∀ (hub g n : Nat) (payload : List Byte) (x : Group) (q : CSeq) (s : State),
    g = fieldAt payload 0 4 / 16 % 4096 → n = fieldAt payload 4 4 → s.group g = some x → hub ∈ x.hubs → hub ≠ hubId s →
    (n + 2 ^ 32 - x.next) % 2 ^ 32 < 2 ^ 31 → 32 ≤ payload.length → x.find n = some q → q.cause = none →
    slice payload 24 8 = takePad 8 x.digest →
      ∃ t, exec (.xchPartial hub payload) s = .next (settle t) ∧
      t.group g = some
        { x with seqs := updFirst (fun y => y.seq == n) (fun y => { y with bodies := y.bodies ++ [{ kind := 2, hub := x.hubIx hub, chunk := fieldAt payload 8 4, slice := fieldAt payload 12 2, off := fieldAt payload 16 4, data := payload.drop 32 }] }) x.seqs }
        ∧
      (∀ k, k ≠ g → t.group k = s.group k) ∧ OnlyChanges [.coll] s t) ∧
  (∀ (hub g n : Nat) (payload : List Byte) (x : Group) (q : CSeq) (s : State),
    g = fieldAt payload 0 4 / 16 % 4096 → n = fieldAt payload 4 4 → s.group g = some x → hub ∈ x.hubs → hub ≠ hubId s →
    (n + 2 ^ 32 - x.next) % 2 ^ 32 < 2 ^ 31 → 32 ≤ payload.length → x.find n = some q → q.cause = none → x.ring = false →
    slice payload 24 8 = takePad 8 x.digest →
      ∃ t, exec (.xchResult hub payload) s = .next (settle t) ∧
      t.group g = some
        { x with seqs := updFirst (fun y => y.seq == n) (fun y => { y with bodies := y.bodies ++ [{ kind := 3, hub := x.hubIx hub, chunk := fieldAt payload 8 4, slice := fieldAt payload 12 2, off := fieldAt payload 16 4, data := payload.drop 32 }] }) x.seqs }
        ∧
      (∀ k, k ≠ g → t.group k = s.group k) ∧ OnlyChanges [.coll] s t) ∧
  (∀ (hub g n : Nat) (payload : List Byte) (x : Group) (q : CSeq) (s : State),
    g = fieldAt payload 0 4 / 16 % 4096 → n = fieldAt payload 4 4 → s.group g = some x → hub ∈ x.hubs → hub ≠ hubId s →
    (n + 2 ^ 32 - x.next) % 2 ^ 32 < 2 ^ 31 → 32 ≤ payload.length → x.find n = some q → q.cause = none → x.ring = false →
    slice payload 24 8 = takePad 8 x.digest →
      ∃ t, exec (.xchData hub payload) s = .next (settle t) ∧
      t.group g = some
        { x with seqs := updFirst (fun y => y.seq == n) (fun y => { y with bodies := y.bodies ++ [{ kind := 4, hub := x.hubIx hub, chunk := fieldAt payload 8 4, slice := fieldAt payload 12 2, off := fieldAt payload 16 4, data := payload.drop 32 }] }) x.seqs }
        ∧
      (∀ k, k ≠ g → t.group k = s.group k) ∧ OnlyChanges [.coll] s t) ∧
  (∀ (hub g n : Nat) (payload : List Byte) (x : Group) (q : CSeq) (s : State),
    g = fieldAt payload 0 4 / 16 % 4096 → n = fieldAt payload 4 4 → s.group g = some x → hub ∈ x.hubs → hub ≠ hubId s →
    (n + 2 ^ 32 - x.next) % 2 ^ 32 < 2 ^ 31 → 32 ≤ payload.length → x.find n = some q → q.cause = none →
    slice payload 24 8 = takePad 8 x.digest →
      ∃ t, exec (.xchNotice hub payload) s = .next (settle t) ∧
      t.group g = some
        { x with seqs := updFirst (fun y => y.seq == n) (fun y => { y with hubFactors := y.hubFactors.set (x.hubIx hub) (max (fieldAt payload 14 2 % 16) (y.hubFactors.getD (x.hubIx hub) 0)) }) x.seqs }
        ∧
      (∀ k, k ≠ g → t.group k = s.group k) ∧ OnlyChanges [.coll] s t) ∧
  (∀ (hub g n : Nat) (payload : List Byte) (x : Group) (q : CSeq) (s : State) (w : Nat),
    g = fieldAt payload 0 4 / 16 % 4096 → n = fieldAt payload 4 4 → s.group g = some x → hub ∈ x.hubs → hub ≠ hubId s →
    (n + 2 ^ 32 - x.next) % 2 ^ 32 < 2 ^ 31 → 32 ≤ payload.length → x.find n = some q → q.cause = none →
    slice payload 24 8 = takePad 8 x.digest → w = fieldAt payload 20 4 →
      ∃ t, exec (.xchAbort hub payload) s = .next (settle t) ∧
      t.group g = some
        { x with seqs := updFirst (fun y => y.seq == n) (fun y => { y with cause := some { status := w % 256, named := w / 2 ^ 8 % 2 ^ 11, reason := w / 2 ^ 19 % 2 ^ 5, hubLevel := bitOf w 24, time := fieldAt (payload.drop 32) 0 8, hub := x.hubIx hub }, known := s.now }) x.seqs }
        ∧
      (∀ k, k ≠ g → t.group k = s.group k) ∧ OnlyChanges [.coll, .counters] s t) ∧
  (∀ (hub g n : Nat) (payload : List Byte) (x : Group) (q : CSeq) (s : State),
    g = fieldAt payload 0 4 / 16 % 4096 → n = fieldAt payload 4 4 → s.group g = some x → hub ∈ x.hubs → hub ≠ hubId s →
    (n + 2 ^ 32 - x.next) % 2 ^ 32 < 2 ^ 31 → 32 ≤ payload.length → x.find n = some q → q.cause = none → x.ring = false →
    slice payload 24 8 = takePad 8 x.digest →
      ∃ t, exec (.xchDone hub payload) s = .next (settle t) ∧
      t.group g = some
        { x with seqs := updFirst (fun y => y.seq == n) (fun y => { y with dones := x.hubIx hub :: y.dones }) x.seqs } ∧
      (∀ k, k ≠ g → t.group k = s.group k) ∧ OnlyChanges [.coll] s t) ∧
  (∀ (i : Instr) (hub g n : Nat) (payload : List Byte) (x : Group) (q : CSeq) (s : State),
    g = fieldAt payload 0 4 / 16 % 4096 → n = fieldAt payload 4 4 → s.group g = some x → hub ∈ x.hubs → hub ≠ hubId s →
    (n + 2 ^ 32 - x.next) % 2 ^ 32 < 2 ^ 31 → 32 ≤ payload.length → x.find n = some q → q.cause = none →
    slice payload 24 8 ≠ takePad 8 x.digest →
    i ∈ [.xchSignature hub payload, .xchPartial hub payload, .xchResult hub payload, .xchData hub payload, .xchNotice hub
      payload, .xchAbort hub payload, .xchDone hub payload] →
      ∃ t, exec i s = .next (settle t) ∧
      (((t.group g).bind fun y => y.find n).bind CSeq.cause = some
        { status := St.mismatch, named := x.firstOf hub, reason := 3, hubLevel := true, time := s.now, hub := x.hubIx (hubId s) })
        ∧
      Logged 0x8101 [g, n, St.mismatch, x.firstOf hub, 3, 1, q.written.length] s t ∧
      OnlyChanges [.coll, .counters, .log, .dict, .out] s t) ∧
  (∀ (hub g n : Nat) (payload : List Byte) (x : Group) (q : CSeq) (s : State),
    g = fieldAt payload 0 4 / 16 % 4096 → n = fieldAt payload 4 4 → s.group g = some x → hub ∈ x.hubs → hub ≠ hubId s →
    (n + 2 ^ 32 - x.next) % 2 ^ 32 < 2 ^ 31 → 32 ≤ payload.length → x.find n = some q → q.cause = none → x.ring = true →
    slice payload 24 8 = takePad 8 x.digest →
      exec (.xchResult hub payload) s = .next (settle (ringForward x (x.hubs.getD (fieldAt payload 12 2) 0) (natLe 1
        (fieldAt payload 0 1 / 16 * 16 + 3) ++ payload.drop 1) (keepBody g n
        { kind := 3, hub := x.hubIx hub, chunk := fieldAt payload 8 4, slice := fieldAt payload 12 2, off := fieldAt payload 16 4, data := payload.drop 32 }
        s)))) ∧
  (∀ (hub g n : Nat) (payload : List Byte) (x : Group) (q : CSeq) (s : State),
    g = fieldAt payload 0 4 / 16 % 4096 → n = fieldAt payload 4 4 → s.group g = some x → hub ∈ x.hubs → hub ≠ hubId s →
    (n + 2 ^ 32 - x.next) % 2 ^ 32 < 2 ^ 31 → 32 ≤ payload.length → x.find n = some q → q.cause = none → x.ring = true →
    ((opReduces (sigOp (q.sig.getD [])) = false ∨ fieldAt payload 16 4 / 2 ^ 26 ≠ x.hubIx (hubId s))) →
    slice payload 24 8 = takePad 8 x.digest →
      exec (.xchData hub payload) s = .next (settle (ringForward x (hubOf ((x.members.map Member.node).getD (fieldAt payload
        12 2) 0)) (natLe 1 (fieldAt payload 0 1 / 16 * 16 + 4) ++ payload.drop 1) (keepBody g n
        { kind := 4, hub := x.hubIx hub, chunk := fieldAt payload 8 4, slice := fieldAt payload 12 2, off := fieldAt payload 16 4, data := payload.drop 32 }
        s)))) ∧
  (∀ (hub g n : Nat) (payload : List Byte) (x : Group) (q : CSeq) (s : State),
    g = fieldAt payload 0 4 / 16 % 4096 → n = fieldAt payload 4 4 → s.group g = some x → hub ∈ x.hubs → hub ≠ hubId s →
    (n + 2 ^ 32 - x.next) % 2 ^ 32 < 2 ^ 31 → 32 ≤ payload.length → x.find n = some q → q.cause = none → x.ring = true →
    slice payload 24 8 = takePad 8 x.digest →
      exec (.xchDone hub payload) s = .next (settle (ringForward x (x.hubs.getD (fieldAt payload 12 2) 0) (natLe 1 (fieldAt
        payload 0 1 / 16 * 16 + 7) ++ payload.drop 1) (s.onSeq g n fun q =>
        { q with dones := fieldAt payload 12 2 :: q.dones })))) ∧
  (∀ (hub g n : Nat) (payload : List Byte) (x : Group) (q : CSeq) (s : State) (w : Nat) (c d : Cause),
    g = fieldAt payload 0 4 / 16 % 4096 → n = fieldAt payload 4 4 → s.group g = some x → hub ∈ x.hubs → hub ≠ hubId s →
    (n + 2 ^ 32 - x.next) % 2 ^ 32 < 2 ^ 31 → 32 ≤ payload.length → x.find n = some q → q.cause = some d →
    slice payload 24 8 = takePad 8 x.digest → w = fieldAt payload 20 4 →
    c =
      { status := w % 256, named := w / 2 ^ 8 % 2 ^ 11, reason := w / 2 ^ 19 % 2 ^ 5, hubLevel := bitOf w 24, time := fieldAt (payload.drop 32) 0 8, hub := x.hubIx hub }
      →
      ∃ t, exec (.xchAbort hub payload) s = .next (settle t) ∧
      (t.group g = some
        { x with seqs := updFirst (fun y => y.seq == n) (fun y => { y with cause := some (if c.time < d.time ∨ (c.time = d.time ∧ c.hub < d.hub) then c else d) }) x.seqs })
        ∧
      (∀ k, k ≠ g → t.group k = s.group k) ∧ OnlyChanges [.coll] s t) ∧
  (∀ (i : Instr) (hub g : Nat) (payload : List Byte) (s : State),
    g = fieldAt payload 0 4 / 16 % 4096 →
    i ∈ [.xchSignature hub payload, .xchPartial hub payload, .xchResult hub payload, .xchData hub payload, .xchNotice hub
      payload, .xchAbort hub payload, .xchDone hub payload] →
    (hub = hubId s ∨ s.group g = none ∨ ∃ x, s.group g = some x ∧ (hub ∉ x.hubs ∨ 2 ^ 31 ≤ (fieldAt payload 4 4 + 2 ^ 32 -
      x.next) % 2 ^ 32)) →
    4 ≤ payload.length →
      exec i s = .next (settle s))

/-- The next sequence of a group that has a cause, whose result writes are all answered and, across hubs, whose settle time of 4 us
has passed, has the completion record of every local member issued, in a plot not behind its Hedge; before that time nothing is
issued. A group none of whose members is local, or whose plot is behind its Hedge, closes the sequence then without records.
When a step of the executing sequence of one group alone is past its deadline, COLL_DEADLINE names the first such step and the
sequence ends with FAIL_LATE naming it; with no step past its deadline nothing changes. -/
def Obligations.CollectivesEnd : Prop :=
  (∀ (g : Nat) (x : Group) (q : CSeq) (s : State),
    s.group g = some x → x.find x.next = some q → q.finish = [] → q.cause.isSome = true → writesAnswered q = true →
    (x.multi = false ∨ q.known + 4000 ≤ s.now) → locals s x ≠ [] → fenced s x.plot = false →
      ∃ t, exec (.settleTimeExpiry g x.next) s = .next (settle t) ∧
      (∀ m ∈ locals s x, ((t.group g).bind fun y => y.find x.next).bind (fun z => z.finish.find m.1) = some .record) ∧
      (∀ m ∈ locals s x, ∃ kv ∈ t.coll.unitOps, kv.2 = .record g x.next m.1) ∧ s.coll.outbox <+: t.coll.outbox ∧
      (∀ k, k ≠ g → t.group k = s.group k) ∧ OnlyChanges [.coll] s t) ∧
  (∀ (g : Nat) (x : Group) (q : CSeq) (s : State),
    s.group g = some x → x.find x.next = some q → q.finish = [] → q.cause.isSome = true → writesAnswered q = true →
    (x.multi = false ∨ q.known + 4000 ≤ s.now) → (locals s x = [] ∨ fenced s x.plot = true) →
      exec (.settleTimeExpiry g x.next) s = .next (settle (closeSeq g q.seq x q s))) ∧
  (∀ (g n : Nat) (s : State),
    (s.group g).bind (fun x => x.find n) = none →
      exec (.settleTimeExpiry g n) s = .next (settle s)) ∧
  (∀ (g : Nat) (x : Group) (q : CSeq) (s : State),
    s.group g = some x → x.find x.next = some q → q.finish = [] → q.cause.isSome = true → x.multi = true →
    s.now < q.known + 4000 →
      exec (.settleTimeExpiry g x.next) s = .next (settle s)) ∧
  (∀ (g : Nat) (x : Group) (q : CSeq) (s : State) (stage step name waited : Nat) (level : Bool),
    s.group g = some x →
    ((∀ kv ∈ s.coll.groups, kv.1 ≠ g → ∀ r ∈ kv.2.find kv.2.next, r.exec = true → r.cause = none → overdue s kv.2 r = [])) →
    x.find x.next = some q → q.exec = true → q.cause = none →
    (overdue s x q).head? = some (stage, step, name, level, waited) →
      ∃ t, exec .deadlineCheck s = .next (settle t) ∧ Logged 0x8103 [g, q.seq, name, step, stage, waited / 1000] s t ∧
      (((t.group g).bind fun y => y.find x.next).bind CSeq.cause = some
        { status := St.late, named := name, reason := step, hubLevel := level, time := s.now, hub := x.hubIx (hubId s) }) ∧
      OnlyChanges [.coll, .counters, .log, .dict, .out] s t) ∧
  (∀ (s : State),
    ((∀ kv ∈ s.coll.groups, ∀ q, kv.2.find kv.2.next = some q → q.exec = true → q.cause = none → overdue s kv.2 q = [])) →
      exec .deadlineCheck s = .next (settle s))

/-- By SYNC_WATCH_CMD with the Lania link up and central services powered, for a counter and a watch of plot 0: ARM of a FREE watch,
a doorbell or a message, its target a node of the plot here, arms it with its counter, threshold, step and target for node 0xC1;
DISARM of an armed watch of that node that no program holds frees it; both answer OK with their status in SYNC_WATCH_RESULT,
where a command that breaks a rule of Table 10-1 or 10-2 has the status it is due and nothing else changes; by message both are
the MSG_SEND to QUEUE 3. WATCH_FIRING of the one watch of a touched counter, due and of a plot in service: a ONCE watch is
freed, a CLAIM watch is freed and counts a grant, a REARM watch has its threshold raised by its step, and the message of Table
10-3 is issued to its target, the doorbell rung, or the thread woken; with nothing due it only forgets what was touched.
FIRING_RETRY sends the oldest refused message again 1 us after it was last sent; FIRING_RETRY_TIMEOUT drops the first refused
for FiringRetryTimeout, with SYNC_FIRING_LOST, and returns its grant; with none, neither changes anything. -/
def Obligations.WatchesArmFireAndRetry : Prop :=
  (∀ (cmd : List Byte) (w ctr md act tn : Nat) (s : State),
    ctr = fieldAt cmd 2 2 → w = fieldAt cmd 4 4 → cmd.length = 32 → w < 2 ^ 14 → fieldAt cmd 1 1 = 0 →
    fieldAt cmd 30 2 = 0 → s.lania.up = true → csOn s = true → ctrIn s 0 ctr = true → watchIn s 0 w = true →
    md = fieldAt cmd 0 1 / 16 % 4 → act = fieldAt cmd 0 1 / 64 → md < 3 → tn = fieldAt cmd 20 2 → act < 2 →
    (¬ (md = 2 ∧ fieldAt cmd 16 4 = 0)) → hubOf tn = hubId s → lepInPlot s (lepOf tn) 0 = true →
    s.chk.badMeta.contains (.watch w) = false → (s.watch w).st = .free →
      ∃ t, exec (.watchArm .reg cmd) s = .next (regAck St.ok t) ∧
      t.watch w =
        { st := .armed, mode := if md = 0 then .once else if md = 1 then .claim else .rearm, act := if act = 1 then .doorbell else .msg, ctr, thr := fieldAt cmd 8 8, step := fieldAt cmd 16 4, owner := nodeOf s 0xC1, tnode := tn, tqueue := fieldAt cmd 22 2, tag := fieldAt cmd 24 6, order := s.sync.nextOrder }
        ∧
      (∀ v, v ≠ w → t.watch v = s.watch v) ∧ (∀ c, ctrVal t c = ctrVal s c) ∧ t.sync.watchStatus = St.ok ∧
      OnlyChanges [.sync, .counters] s t) ∧
  (∀ (cmd : List Byte) (w ctr md act : Nat) (s : State),
    ctr = fieldAt cmd 2 2 → w = fieldAt cmd 4 4 → cmd.length = 32 → w < 2 ^ 14 → fieldAt cmd 1 1 = 0 →
    fieldAt cmd 30 2 = 0 → s.lania.up = true → csOn s = true → ctrIn s 0 ctr = true → watchIn s 0 w = true →
    md = fieldAt cmd 0 1 / 16 % 4 → act = fieldAt cmd 0 1 / 64 → md < 3 → act < 2 → (¬ (md = 2 ∧ fieldAt cmd 16 4 = 0)) →
    hubOf (fieldAt cmd 20 2) = hubId s → lepInPlot s (lepOf (fieldAt cmd 20 2)) 0 = true →
    s.chk.badMeta.contains (.watch w) = false → (s.watch w).st = .armed → (s.watch w).owner = nodeOf s 0xC1 →
    (s.watch w).core = none →
      ∃ t, exec (.watchDisarm .reg cmd) s = .next (regAck St.ok t) ∧ (t.watch w).st = .free ∧
      (∀ v, v ≠ w → t.watch v = s.watch v) ∧ t.sync.watchStatus = St.ok ∧ OnlyChanges [.sync] s t) ∧
  (∀ (cmd : List Byte) (w ctr md act : Nat) (s : State),
    ctr = fieldAt cmd 2 2 → w = fieldAt cmd 4 4 → cmd.length = 32 → s.lania.up = true → csOn s = true →
    md = fieldAt cmd 0 1 / 16 % 4 → act = fieldAt cmd 0 1 / 64 →
    (md = 3 ∨ 2 ≤ act ∨ 2 ^ 14 ≤ w ∨ fieldAt cmd 1 1 ≠ 0 ∨ fieldAt cmd 30 2 ≠ 0 ∨ (md = 2 ∧ fieldAt cmd 16 4 = 0)) →
      ∃ t, exec (.watchArm .reg cmd) s = .next (regAck St.ok t) ∧
      t.sync =
        { s.sync with watchCmd := (cmd.take 1).map (fun b => BitVec.ofNat 8 (b.toNat / 16 * 16 + 1)) ++ cmd.drop 1, watchStatus := St.malformed }
        ∧
      OnlyChanges [.sync] s t) ∧
  (∀ (cmd : List Byte) (w ctr md act : Nat) (s : State),
    ctr = fieldAt cmd 2 2 → w = fieldAt cmd 4 4 → cmd.length = 32 → s.lania.up = true → csOn s = true →
    md = fieldAt cmd 0 1 / 16 % 4 → act = fieldAt cmd 0 1 / 64 →
    (md = 3 ∨ 2 ≤ act ∨ 2 ^ 14 ≤ w ∨ fieldAt cmd 1 1 ≠ 0 ∨ fieldAt cmd 30 2 ≠ 0 ∨ (md = 2 ∧ fieldAt cmd 16 4 = 0)) →
      ∃ t, exec (.watchDisarm .reg cmd) s = .next (regAck St.ok t) ∧
      t.sync =
        { s.sync with watchCmd := (cmd.take 1).map (fun b => BitVec.ofNat 8 (b.toNat / 16 * 16 + 2)) ++ cmd.drop 1, watchStatus := St.malformed }
        ∧
      OnlyChanges [.sync] s t) ∧
  (∀ (cmd : List Byte) (w ctr md act : Nat) (s : State),
    ctr = fieldAt cmd 2 2 → w = fieldAt cmd 4 4 → cmd.length = 32 → s.lania.up = true → csOn s = true →
    md = fieldAt cmd 0 1 / 16 % 4 → act = fieldAt cmd 0 1 / 64 → w < 2 ^ 14 → fieldAt cmd 1 1 = 0 → fieldAt cmd 30 2 = 0 →
    md < 3 → (¬ (md = 2 ∧ fieldAt cmd 16 4 = 0)) → act < 2 →
    (ctrIn s 0 ctr = false ∨ watchIn s 0 w = false ∨ (hubOf (fieldAt cmd 20 2) = hubId s ∧ lepInPlot s (lepOf (fieldAt cmd
      20 2)) 0 = false)) →
      ∃ t, exec (.watchArm .reg cmd) s = .next (regAck St.ok t) ∧
      t.sync =
        { s.sync with watchCmd := (cmd.take 1).map (fun b => BitVec.ofNat 8 (b.toNat / 16 * 16 + 1)) ++ cmd.drop 1, watchStatus := St.protection }
        ∧
      OnlyChanges [.sync] s t) ∧
  (∀ (cmd : List Byte) (w ctr md act : Nat) (s : State),
    ctr = fieldAt cmd 2 2 → w = fieldAt cmd 4 4 → cmd.length = 32 → s.lania.up = true → csOn s = true →
    md = fieldAt cmd 0 1 / 16 % 4 → act = fieldAt cmd 0 1 / 64 → w < 2 ^ 14 → fieldAt cmd 1 1 = 0 → fieldAt cmd 30 2 = 0 →
    md < 3 → (¬ (md = 2 ∧ fieldAt cmd 16 4 = 0)) → act < 2 →
    (ctrIn s 0 ctr = false ∨ watchIn s 0 w = false ∨ (hubOf (fieldAt cmd 20 2) = hubId s ∧ lepInPlot s (lepOf (fieldAt cmd
      20 2)) 0 = false)) →
      ∃ t, exec (.watchDisarm .reg cmd) s = .next (regAck St.ok t) ∧
      t.sync =
        { s.sync with watchCmd := (cmd.take 1).map (fun b => BitVec.ofNat 8 (b.toNat / 16 * 16 + 2)) ++ cmd.drop 1, watchStatus := St.protection }
        ∧
      OnlyChanges [.sync] s t) ∧
  (∀ (cmd : List Byte) (w ctr md act : Nat) (s : State),
    ctr = fieldAt cmd 2 2 → w = fieldAt cmd 4 4 → cmd.length = 32 → s.lania.up = true → csOn s = true →
    md = fieldAt cmd 0 1 / 16 % 4 → act = fieldAt cmd 0 1 / 64 → w < 2 ^ 14 → fieldAt cmd 1 1 = 0 → fieldAt cmd 30 2 = 0 →
    md < 3 → (¬ (md = 2 ∧ fieldAt cmd 16 4 = 0)) → act < 2 → ctrIn s 0 ctr = true → watchIn s 0 w = true →
    hubOf (fieldAt cmd 20 2) ≠ hubId s →
      ∃ t, exec (.watchArm .reg cmd) s = .next (regAck St.ok t) ∧
      t.sync =
        { s.sync with watchCmd := (cmd.take 1).map (fun b => BitVec.ofNat 8 (b.toNat / 16 * 16 + 1)) ++ cmd.drop 1, watchStatus := St.scope }
        ∧
      OnlyChanges [.sync] s t) ∧
  (∀ (cmd : List Byte) (w ctr md act : Nat) (s : State),
    ctr = fieldAt cmd 2 2 → w = fieldAt cmd 4 4 → cmd.length = 32 → s.lania.up = true → csOn s = true →
    md = fieldAt cmd 0 1 / 16 % 4 → act = fieldAt cmd 0 1 / 64 → w < 2 ^ 14 → fieldAt cmd 1 1 = 0 → fieldAt cmd 30 2 = 0 →
    md < 3 → (¬ (md = 2 ∧ fieldAt cmd 16 4 = 0)) → act < 2 → ctrIn s 0 ctr = true → watchIn s 0 w = true →
    hubOf (fieldAt cmd 20 2) ≠ hubId s →
      ∃ t, exec (.watchDisarm .reg cmd) s = .next (regAck St.ok t) ∧
      t.sync =
        { s.sync with watchCmd := (cmd.take 1).map (fun b => BitVec.ofNat 8 (b.toNat / 16 * 16 + 2)) ++ cmd.drop 1, watchStatus := St.scope }
        ∧
      OnlyChanges [.sync] s t) ∧
  (∀ (cmd : List Byte) (w ctr md act : Nat) (s : State),
    ctr = fieldAt cmd 2 2 → w = fieldAt cmd 4 4 → cmd.length = 32 → s.lania.up = true → csOn s = true →
    md = fieldAt cmd 0 1 / 16 % 4 → act = fieldAt cmd 0 1 / 64 → w < 2 ^ 14 → fieldAt cmd 1 1 = 0 → fieldAt cmd 30 2 = 0 →
    md < 3 → ctrIn s 0 ctr = true → watchIn s 0 w = true → act < 2 → (¬ (md = 2 ∧ fieldAt cmd 16 4 = 0)) →
    hubOf (fieldAt cmd 20 2) = hubId s → lepInPlot s (lepOf (fieldAt cmd 20 2)) 0 = true →
    s.chk.badMeta.contains (.watch w) = false → (s.watch w).st ≠ .free →
      ∃ t, exec (.watchArm .reg cmd) s = .next (regAck St.ok t) ∧
      t.sync =
        { s.sync with watchCmd := (cmd.take 1).map (fun b => BitVec.ofNat 8 (b.toNat / 16 * 16 + 1)) ++ cmd.drop 1, watchStatus := St.state }
        ∧
      OnlyChanges [.sync] s t) ∧
  (∀ (cmd : List Byte) (w ctr md act : Nat) (s : State),
    ctr = fieldAt cmd 2 2 → w = fieldAt cmd 4 4 → cmd.length = 32 → s.lania.up = true → csOn s = true →
    md = fieldAt cmd 0 1 / 16 % 4 → act = fieldAt cmd 0 1 / 64 → w < 2 ^ 14 → fieldAt cmd 1 1 = 0 → fieldAt cmd 30 2 = 0 →
    md < 3 → ctrIn s 0 ctr = true → watchIn s 0 w = true → act < 2 → (¬ (md = 2 ∧ fieldAt cmd 16 4 = 0)) →
    hubOf (fieldAt cmd 20 2) = hubId s → lepInPlot s (lepOf (fieldAt cmd 20 2)) 0 = true →
    s.chk.badMeta.contains (.watch w) = false → (s.watch w).st ≠ .free →
    ((s.watch w).st = .reserved ∨ (s.watch w).owner ≠ nodeOf s 0xC1) →
      ∃ t, exec (.watchDisarm .reg cmd) s = .next (regAck St.ok t) ∧
      t.sync =
        { s.sync with watchCmd := (cmd.take 1).map (fun b => BitVec.ofNat 8 (b.toNat / 16 * 16 + 2)) ++ cmd.drop 1, watchStatus := St.state }
        ∧
      OnlyChanges [.sync] s t) ∧
  (∀ (cmd : List Byte) (w ctr md act : Nat) (s : State),
    ctr = fieldAt cmd 2 2 → w = fieldAt cmd 4 4 → cmd.length = 32 → s.lania.up = true → csOn s = true →
    md = fieldAt cmd 0 1 / 16 % 4 → act = fieldAt cmd 0 1 / 64 → w < 2 ^ 14 → fieldAt cmd 1 1 = 0 → fieldAt cmd 30 2 = 0 →
    md < 3 → ctrIn s 0 ctr = true → watchIn s 0 w = true → act < 2 → (¬ (md = 2 ∧ fieldAt cmd 16 4 = 0)) →
    hubOf (fieldAt cmd 20 2) = hubId s → lepInPlot s (lepOf (fieldAt cmd 20 2)) 0 = true →
    s.chk.badMeta.contains (.watch w) = false → (s.watch w).st = .free →
      ∃ t, exec (.watchDisarm .reg cmd) s = .next (regAck St.ok t) ∧
      t.sync =
        { s.sync with watchCmd := (cmd.take 1).map (fun b => BitVec.ofNat 8 (b.toNat / 16 * 16 + 2)) ++ cmd.drop 1, watchStatus := St.ok }
        ∧
      OnlyChanges [.sync] s t) ∧
  (∀ (via : Ingress) (h : Header) (cmd : List Byte) (s : State),
    cmd.length = 32 →
      exec (.watchArm (.msg via h) cmd) s = .next (settle (serve
        { via, op := Op.msgSend, h := { h with len := 32, opb := h.opb % 256 + 3 * 256 }, data := (cmd.take 1).map (fun b => BitVec.ofNat 8 (b.toNat / 16 * 16 + 1)) ++ cmd.drop 1 }
        s))) ∧
  (∀ (via : Ingress) (h : Header) (cmd : List Byte) (s : State),
    cmd.length = 32 →
      exec (.watchDisarm (.msg via h) cmd) s = .next (settle (serve
        { via, op := Op.msgSend, h := { h with len := 32, opb := h.opb % 256 + 3 * 256 }, data := (cmd.take 1).map (fun b => BitVec.ofNat 8 (b.toNat / 16 * 16 + 2)) ++ cmd.drop 1 }
        s))) ∧
  (∀ (s : State),
    (∀ c ∈ s.sync.touched, nextFiring s c = none) →
      exec .watchFiring s = .next (settle { s with sync := { s.sync with touched := [] } })) ∧
  (∀ (c w : Nat) (x : Watch) (s : State),
    s.sync.touched = [c] → s.sync.watches = [(w, x)] → nextFiring s c = some (w, x) → x.act = .doorbell → x.core = none →
    x.mode = .once →
      exec .watchFiring s = .next (settle ((ringDoorbell 4 w w (bump 0xC40A04 1 (unarm w s))).onSync fun y =>
        { y with touched := [] }))) ∧
  (∀ (c w k : Nat) (x : Watch) (s : State),
    s.sync.touched = [c] → s.sync.watches = [(w, x)] → nextFiring s c = some (w, x) → x.act = .wake → x.core = some k →
    x.mode = .once →
      exec .watchFiring s = .next (settle ((wakeThread w x.ctr k x.thread false (bump 0xC40A04 1 (unarm w s))).onSync fun y
        => { y with touched := [] }))) ∧
  (∀ (c w : Nat) (x : Watch) (s : State),
    s.sync.touched = [c] → s.sync.watches = [(w, x)] → nextFiring s c = some (w, x) → x.act = .msg → x.core = none →
    x.mode = .once →
      ∃ t, exec .watchFiring s = .next (settle t) ∧ t.sync.watches = [] ∧ t.sync.grants = s.sync.grants ∧
      t.sync.touched = [] ∧
      t.coll.outbox = s.coll.outbox ++
        [{ via := .unit, op := Op.msgSend, h := { plot := (watchPlot s w).getD 0, len := 32, dst := x.tnode, src := nodeOf s 0xC0, tag := s.coll.nextTag % 65536, opa := BitVec.ofNat 48 x.tag, opb := x.tqueue % 256 * 256 }, data := firingPayload (ctrVal s c) x.thr c w true }]
        ∧
      (∀ k, ctrVal t k = ctrVal s k) ∧ OnlyChanges [.sync, .coll, .counters] s t) ∧
  (∀ (c w : Nat) (x : Watch) (s : State),
    s.sync.touched = [c] → s.sync.watches = [(w, x)] → nextFiring s c = some (w, x) → x.act = .msg → x.core = none →
    x.mode = .claim →
      ∃ t, exec .watchFiring s = .next (settle t) ∧ t.sync.watches = [] ∧
      t.sync.grants.getD c 0 = s.sync.grants.getD c 0 + 1 ∧ t.sync.touched = [] ∧
      t.coll.outbox = s.coll.outbox ++
        [{ via := .unit, op := Op.msgSend, h := { plot := (watchPlot s w).getD 0, len := 32, dst := x.tnode, src := nodeOf s 0xC0, tag := s.coll.nextTag % 65536, opa := BitVec.ofNat 48 x.tag, opb := x.tqueue % 256 * 256 }, data := firingPayload (ctrVal s c) (s.sync.grants.getD c 0 + 1) c w true }]
        ∧
      (∀ k, ctrVal t k = ctrVal s k) ∧ OnlyChanges [.sync, .coll, .counters] s t) ∧
  (∀ (c w : Nat) (x : Watch) (s : State),
    s.sync.touched = [c] → s.sync.watches = [(w, x)] → nextFiring s c = some (w, x) → x.act = .msg → x.core = none →
    x.mode = .rearm → x.thr + x.step < 2 ^ 64 → ctrVal s c < x.thr + x.step →
      ∃ t, exec .watchFiring s = .next (settle t) ∧ t.watch w = { x with thr := x.thr + x.step } ∧
      t.sync.grants = s.sync.grants ∧ t.sync.touched = [] ∧
      t.coll.outbox = s.coll.outbox ++
        [{ via := .unit, op := Op.msgSend, h := { plot := (watchPlot s w).getD 0, len := 32, dst := x.tnode, src := nodeOf s 0xC0, tag := s.coll.nextTag % 65536, opa := BitVec.ofNat 48 x.tag, opb := x.tqueue % 256 * 256 }, data := firingPayload (ctrVal s c) x.thr c w false }]
        ∧
      (∀ k, ctrVal t k = ctrVal s k) ∧ OnlyChanges [.sync, .coll, .counters] s t) ∧
  (∀ (s : State),
    (∀ r ∈ s.sync.retries.head?, s.now < r.sent + 1000) →
      exec .firingRetry s = .next (settle s)) ∧
  (∀ (r : Retry) (l : List Retry) (s : State),
    s.sync.retries = r :: l → r.sent + 1000 ≤ s.now →
      ∃ t, exec .firingRetry s = .next (settle t) ∧ t.sync.retries = l ∧
      t.coll.outbox = s.coll.outbox ++
        [{ via := .unit, op := Op.msgSend, h := { plot := r.plot, len := 32, dst := r.tnode, src := nodeOf s 0xC0, tag := s.coll.nextTag % 65536, opa := BitVec.ofNat 48 r.tag, opb := r.tqueue % 256 * 256 }, data := r.data }]
        ∧
      OnlyChanges [.sync, .coll] s t) ∧
  (∀ (a b : List Retry) (r : Retry) (d : Nat) (s : State),
    s.sync.retries = a ++ r :: b → (∀ q ∈ a, ∀ e ∈ q.since, s.now < e + 1000 * cfg 0x821001 1000 s) → r.since = some d →
    d + 1000 * cfg 0x821001 1000 s ≤ s.now →
      ∃ t, exec .firingRetryTimeout s = .next t ∧ t.sync.retries = a ++ b ∧
      Logged 0x8202 [r.watch, r.ctr, 0, r.tnode, b2n (lepOf r.tnode < 0x80 && !portServes s (lepOf r.tnode))] s t ∧
      t.sync.grants.getD r.ctr 0 = s.sync.grants.getD r.ctr 0 - (if r.claim then 1 else 0) ∧ t.sync.watches = s.sync.watches
        ∧
      OnlyChanges [.sync, .counters, .log, .dict, .out] s t) ∧
  (∀ (s : State),
    (∀ q ∈ s.sync.retries, ∀ e ∈ q.since, s.now < e + 1000 * cfg 0x821001 1000 s) →
      exec .firingRetryTimeout s = .next s)

/-- UNIT_REPLAY: a unit that arrives clean is counted and its replays are forgotten; a failed one of at most two replays is replayed
again; one that fails the third time is reported and ends: its descriptor completes with FAIL_INTERNAL, a packet's its
transaction. ARRAY_SWEEP takes its words in order, and does nothing before SweepPeriod of 10 s after the last: a corrected word
is counted, an uncorrectable scratchpad word becomes bad. What the memory's code found in a block fill is taken first. One whose
reading agrees with the kept BCV is installed and what waited on it goes on; one that does not is read once more; a second
reading that agrees is counted a transient and installed; one that does not loses the block. A Tilth set that no reason of Table
11-6 refuses replaces the one loaded; a refused one leaves it. RUN and the schedule start runs on available targets: a core's
scratchpad is zeroed, the program loaded, its input placed and its threads started. DigestNow and the interval start a pass; its
end writes the result record with its STATUS. A command not due, of nothing in progress, or refused changes nothing but its
status. -/
def Obligations.IntegrityUnitActs : Prop :=
  (∀ (path unit : Nat) (o : ReplayOf) (s : State),
      ∃ t, exec (.unitReplay path unit o true) s = .next (settle t) ∧ counter t 0xC40B01 = counter s 0xC40B01 + 1 ∧
      t.chk = { s.chk with replays := s.chk.replays.erase (2 ^ 32 * path + unit % 2 ^ 32) } ∧
      OnlyChanges [.chk, .counters] s t) ∧
  (∀ (path unit : Nat) (o : ReplayOf) (s : State),
    s.chk.replays.getD (2 ^ 32 * path + unit % 2 ^ 32) 0 < 2 →
      ∃ t, exec (.unitReplay path unit o false) s = .next (settle t) ∧
      t.chk =
        { s.chk with replays := s.chk.replays.set (2 ^ 32 * path + unit % 2 ^ 32) (s.chk.replays.getD (2 ^ 32 * path + unit % 2 ^ 32) 0 + 1) }
        ∧
      OnlyChanges [.chk] s t) ∧
  (∀ (path unit c : Nat) (d : Issued) (s : State),
    2 ≤ s.chk.replays.getD (2 ^ 32 * path + unit % 2 ^ 32) 0 → s.inc c d.thread d.seq = none →
      ∃ t, exec (.unitReplay path unit (.descriptor c d) false) s = .next (settle t) ∧
      t.chk = { s.chk with replays := s.chk.replays.erase (2 ^ 32 * path + unit % 2 ^ 32) } ∧
      Logged 0xA101 [path, unit, c, (s.thread c d.thread).pc] s t ∧ OnlyChanges [.chk, .counters, .log, .dict, .out] s t) ∧
  (∀ (path unit c : Nat) (d : Issued) (i : Inc) (p : Prog) (x : Desc) (s : State),
    2 ≤ s.chk.replays.getD (2 ^ 32 * path + unit % 2 ^ 32) 0 → s.inc c d.thread d.seq = some i → (s.core c).prog = some p →
    p.descs[i.idx]? = some x → x.cont = true → (s.thread c d.thread).ending = false → (s.thread c d.thread).status = St.ok →
      ∃ t, exec (.unitReplay path unit (.descriptor c d) false) s = .next (settle t) ∧
      OnlyThread s c d.thread
        { s.thread c d.thread with incs := (s.thread c d.thread).incs.filter (fun y => y.seq != d.seq), report := ((s.thread c d.thread).report.add {}).cap, status := St.internal, desc := i.idx, linesDone := i.done, linesFailed := i.failed }
        t ∧
      t.chk = { s.chk with replays := s.chk.replays.erase (2 ^ 32 * path + unit % 2 ^ 32) } ∧
      Logged 0xA101 [path, unit, c, i.idx] s t ∧ OnlyChanges [.fur, .chk, .counters, .log, .dict, .out] s t) ∧
  (∀ (path unit : Nat) (o : ReplayOf) (p : Packet) (via : Ingress) (u s : State),
    2 ≤ s.chk.replays.getD (2 ^ 32 * path + unit % 2 ^ 32) 0 → o = .packet via p →
    u = raise 0xA101 ([path, unit] ++ replayFields s o)
      { s with chk := { s.chk with replays := s.chk.replays.erase (2 ^ 32 * path + unit % 2 ^ 32) } } →
      exec (.unitReplay path unit o false) s = .next (settle (packetLost p u))) ∧
  (∀ (words : List SweepWord) (s : State),
      exec (.arraySweep words) s = .next (settle (if s.chk.lastSweep + 10000000000 ≤ s.now then forAll words sweepWord
        { s with chk := { s.chk with lastSweep := s.now } } else s))) ∧
  (∀ (n array index : Nat) (s : State),
    s.chk.lastSweep + 10000000000 ≤ s.now →
      ∃ t, exec (.arraySweep (List.replicate n (.corrected array index))) s = .next (settle t) ∧
      counter t 0xC40B02 = counter s 0xC40B02 + n ∧ t.chk = { s.chk with lastSweep := s.now } ∧
      OnlyChanges [.chk, .counters] s t) ∧
  (∀ (index c word : Nat) (s : State),
    s.chk.lastSweep + 10000000000 ≤ s.now → word < 2 ^ 18 →
      ∃ t, exec (.arraySweep [.scratch index c word]) s = .next (settle t) ∧ 2 ^ 18 * c + word ∈ t.chk.badWords ∧
      Logged 0xA102 [3, index, 3] s t ∧ counter t 0xC40B03 = counter s 0xC40B03 + 1 ∧ t.spad = s.spad ∧
      OnlyChanges [.chk, .counters, .log, .dict, .out] s t) ∧
  (∀ (blk : Nat) (b : List Byte) (ecc : List (Nat × Nat × Bool)) (u s : State),
    filling s blk = true → s.chk.rereads.contains blk = false →
    (u = forAll (ecc.filter fun a => a.1 / 32 == blk) eccLine s) → readingGood u blk b = true →
    paExt u (blk * 4096) ≠ none →
      ∃ t, exec (.blockFillComplete blk ⟨b, ecc⟩) s = .next (settle (resume (some blk) t)) ∧
      (∀ i < 32, u.pool.lostLines.find (32 * blk + i) = none → chipHolds u (32 * blk + i) = false → Mem.read t.mem ((32 *
        blk + i) * 128) 128 = slice b (128 * i) 128) ∧
      (∀ a, a / 4096 ≠ blk → Mem.read t.mem a 1 = Mem.read u.mem a 1) ∧ t.pool.fills = u.pool.fills.erase blk ∧
      counter t 0xC40B04 = counter u 0xC40B04 + 1 ∧ t.chk = u.chk ∧ t.fur = u.fur ∧ t.pool.lostLines = u.pool.lostLines) ∧
  (∀ (blk : Nat) (b : List Byte) (ecc : List (Nat × Nat × Bool)) (u s : State),
    filling s blk = true → s.chk.rereads.contains blk = false →
    (u = forAll (ecc.filter fun a => a.1 / 32 == blk) eccLine s) → readingGood u blk b = false →
      ∃ t, exec (.blockFillComplete blk ⟨b, ecc⟩) s = .next (settle t) ∧
      t.chk = { u.chk with rereads := u.chk.rereads ++ [blk] } ∧ OnlyChanges [.chk] u t) ∧
  (∀ (blk : Nat) (b : List Byte) (ecc : List (Nat × Nat × Bool)) (s : State),
    (filling s blk = false ∨ s.chk.rereads.contains blk = true) →
      exec (.blockFillComplete blk ⟨b, ecc⟩) s = .next (settle s)) ∧
  (∀ (blk : Nat) (b : List Byte) (s : State),
    (filling s blk = false ∨ s.chk.rereads.contains blk = false) →
      exec (.blockRereadComplete blk b) s = .next (settle s)) ∧
  (∀ (blk : Nat) (b : List Byte) (s : State),
    filling s blk = true → s.chk.rereads.contains blk = true → readingGood s blk b = false →
      exec (.blockRereadComplete blk b) s = .next (settle (blockLost blk
        { s with chk := { s.chk with rereads := s.chk.rereads.erase blk } }))) ∧
  (∀ (blk : Nat) (b : List Byte) (s : State),
    filling s blk = true → s.chk.rereads.contains blk = true → readingGood s blk b = true → paExt s (blk * 4096) ≠ none →
      ∃ t, exec (.blockRereadComplete blk b) s = .next (settle (resume (some blk) t)) ∧
      (∀ i < 32, s.pool.lostLines.find (32 * blk + i) = none → chipHolds s (32 * blk + i) = false → Mem.read t.mem ((32 *
        blk + i) * 128) 128 = slice b (128 * i) 128) ∧
      (∀ a, a / 4096 ≠ blk → Mem.read t.mem a 1 = Mem.read s.mem a 1) ∧ t.pool.fills = s.pool.fills.erase blk ∧
      t.chk = { s.chk with rereads := s.chk.rereads.erase blk } ∧ counter t 0xC40B06 = counter s 0xC40B06 + 1 ∧
      counter t 0xC40B04 = counter s 0xC40B04 + 1 ∧ t.fur = s.fur) ∧
  (∀ (b : List Byte) (s : State),
    trainedUp s = true →
      ∃ t, exec (.tilthImage b) s = .next t ∧
      (tilthReason s b = none → t.chk.tilth = some
        { setId := fieldAt b 4 4, seq := fieldAt b 8 4, digest := Config.shake256 b 64, image := b, tests := (List.range (tilthCount b)).map fun i => tilthTest (tilthRecord b i) }
        ∧ t.chk.runs = []) ∧
      (∀ r, tilthReason s b = some r → t = { s with chk := { s.chk with tilthReason := r } }) ∧
      OnlyChanges [.chk, .counters, .log, .dict, .out] s t) ∧
  (∀ (b : List Byte) (u s : State),
    s.lania.up = true → csOn s = true → trainedUp s = true →
    hubRead 64 s.chk.srcCtx 0 (nodeOf s 0xC1) s.chk.srcOff s.chk.tilthLen
      { s with chk := { s.chk with tilthDone := false } } = (.ok b, u) →
      ∃ t, exec .tilthLoad s = .next (settle (regAck St.ok t)) ∧
      (tilthReason u b = none → t.chk.tilth = some
        { setId := fieldAt b 4 4, seq := fieldAt b 8 4, digest := Config.shake256 b 64, image := b, tests := (List.range (tilthCount b)).map fun i => tilthTest (tilthRecord b i) }
        ∧ t.chk.runs = []) ∧
      (tilthReason u b = none → t.chk.tilthStatus = St.ok ∧ t.chk.tilthReason = 0 ∧ t.chk.tilthDone = true) ∧
      (∀ r, tilthReason u b = some r → t.chk.tilthStatus = St.loadRefused ∧ t.chk.tilthReason = r ∧ t.chk.tilthDone = true ∧
        t.chk.tilth = u.chk.tilth) ∧
      OnlyChanges [.chk, .counters, .log, .dict, .out] u t) ∧
  (∀ (u s : State),
    s.lania.up = true → csOn s = true → trainedUp s = true →
    hubRead 64 s.chk.srcCtx 0 (nodeOf s 0xC1) s.chk.srcOff s.chk.tilthLen
      { s with chk := { s.chk with tilthDone := false } } = (.wait, u) →
    u.pool.hubCmds.contains .tilth = false →
      exec .tilthLoad s = .next (settle (regAck St.ok
        { u with pool := { u.pool with hubCmds := u.pool.hubCmds ++ [.tilth] } }))) ∧
  (∀ (b : List Byte) (s : State),
    trainedUp s = false →
      exec (.tilthImage b) s = .next s) ∧
  (∀ (s : State),
    s.lania.up = true → csOn s = true → trainedUp s = false →
      exec .tilthLoad s = .next (settle (regAck St.ok
        { s with chk := { s.chk with tilthStatus := St.state, tilthReason := 0, tilthDone := true } }))) ∧
  (∀ (st : Nat) (u s : State),
    s.lania.up = true → csOn s = true → trainedUp s = true →
    hubRead 64 s.chk.srcCtx 0 (nodeOf s 0xC1) s.chk.srcOff s.chk.tilthLen
      { s with chk := { s.chk with tilthDone := false } } = (.fail st, u) →
      exec .tilthLoad s = .next (settle (regAck St.ok
        { u with chk := { u.chk with tilthStatus := st, tilthReason := 0, tilthDone := true } }))) ∧
  (∀ (s : State),
    s.lania.up = true → csOn s = true → s.chk.tilth = none →
      exec .tilthRun s = .next (regAck St.ok
        { s with chk := { s.chk with tilthStatus := St.state, tilthReason := 0, tilthDone := true } })) ∧
  (∀ (s : State),
    (cfg 0xA03001 86400 s = 0 ∨ firmwareDown s = true ∨ ∀ k < 192, tilthAvailable s k = true → 0 < tilthLast s k ∧ s.now <
      tilthLast s k + cfg 0xA03001 86400 s * 1000000000) →
      exec .tilthSchedule s = .next s) ∧
  (∀ (s : State),
    (inService s = false ∨ passRuns s = true ∨ (s.region (s.dict.mb.sel.getD 0xA04001 0)).count = 0) →
      exec .digestNow s = .next s) ∧
  (∀ (r : Nat) (s : State),
    (inService s = false ∨ (s.region r).enable = false ∨ (s.region r).running = true ∨ s.power.paused = true ∨ firmwareDown
      s = true ∨ ((s.region r).begun = true ∧ s.now < (s.region r).start + (s.region r).interval * 1000000000)) →
      exec (.digestInterval r) s = .next s) ∧
  (∀ (r : Nat) (l : List Nat) (bad : Option Nat) (s : State),
    ((s.region r).running = false ∨ s.power.paused = true ∨ firmwareDown s = true) →
      exec (.digestPassDone ⟨r, l, bad⟩) s = .next (settle s)) ∧
  (∀ (r : Nat) (s : State),
    (s.region r).running = true → s.power.paused = false → firmwareDown s = false → (s.region r).gone = false →
    (s.region r).failed = false → (s.region r).changed = true →
      ∃ t, exec (.digestPassDone ⟨r, [], none⟩) s = .next (settle t) ∧ (t.region r).running = false ∧
      (t.region r).pass = (s.region r).pass + 1 ∧
      (t.region r).result.take 32 = natLe 8 ((s.region r).pass + 1) ++ natLe 8 (s.region r).start ++ natLe 8 s.now ++ natLe
        4 1 ++ natLe 4 (65536 * (s.region r).count) ∧
      counter t 0xC40B04 = counter s 0xC40B04 + 65536 * (s.region r).count ∧ counter t 0xC40B0A = counter s 0xC40B0A + 1 ∧
      OnlyChanges [.chk, .counters, .log, .dict, .out, .free] s t) ∧
  (∀ (r : Nat) (s : State),
    (s.region r).running = true → s.power.paused = false → firmwareDown s = false →
    ((s.region r).gone = true ∨ (s.region r).failed = true) →
      ∃ t, exec (.digestPassDone ⟨r, [], none⟩) s = .next (settle t) ∧ (t.region r).running = false ∧
      (t.region r).pass = (s.region r).pass + 1 ∧
      (t.region r).result.take 28 = natLe 8 ((s.region r).pass + 1) ++ natLe 8 (s.region r).start ++ natLe 8 s.now ++ natLe
        4 (if (s.region r).gone = true then 3 else 2) ∧
      counter t 0xC40B0A = counter s 0xC40B0A + 1 ∧ OnlyChanges [.chk, .counters, .log, .dict, .out, .free] s t) ∧
  (∀ (x : TilthSet) (k : Nat) (s : State),
    s.lania.up = true → csOn s = true → s.chk.tilth = some x → k < 192 → tilthAvailable s k = true →
      ∃ t, exec .tilthRun s = .next (regAck St.ok t) ∧
      (∃ r ∈ t.chk.runs, r.target = k ∧ r.since = s.now ∧ r.again = false ∧ (r.test, r.te) ∈ tilthSteps s k) ∧
      (∀ r ∈ s.chk.runs, r ∈ t.chk.runs) ∧ t.chk.tilthStatus = St.ok ∧ OnlyChanges [.chk, .fur, .spad] s t) ∧
  (∀ (k i e : Nat) (l : List (Nat × Nat)) (s : State),
    firmwareDown s = false → cfg 0xA03001 86400 s ≠ 0 → k < 192 → tilthAvailable s k = true → tilthLast s k = 0 →
    ((∀ j, j < k → tilthAvailable s j = false)) → tilthSteps s k = (i, e) :: l →
      exec .tilthSchedule s = .next (tilthPlace k i
        { s with chk := { s.chk with runs := s.chk.runs ++ [{ target := k, test := i, te := e, since := s.now }] } })) ∧
  (∀ (k i e : Nat) (l : List (Nat × Nat)) (b : List Byte) (y : TilthTest) (x : Image) (s : State),
    firmwareDown s = false → cfg 0xA03001 86400 s ≠ 0 → k < 64 → tilthAvailable s k = true → tilthLast s k = 0 →
    ((∀ j, j < k → tilthAvailable s j = false)) → tilthSteps s k = (i, e) :: l → tilthOf s i = some (b, y) →
    x = imageOf (slice b y.prog.1 y.prog.2) →
      ∃ t, exec .tilthSchedule s = .next t ∧
      t.chk.runs = s.chk.runs ++ [{ target := k, test := i, te := e, since := s.now }] ∧ (t.core k).prog = some (x.prog [])
        ∧
      (t.core k).st = (s.core k).st ∧
      (∀ n < x.threads, t.thread k n =
        { running := true, halted := false, pc := x.entry, xs := BitVec.ofNat 64 n :: List.replicate 14 0 }) ∧
      Mem.read t.spad (spadKey k 0) (slice b y.input.1 y.input.2).length = slice b y.input.1 y.input.2 ∧
      (∀ c, c ≠ k → t.core c = s.core c) ∧ OnlyChanges [.chk, .fur, .spad] s t) ∧
  (∀ (r : Nat) (s : State),
    inService s = true → passRuns s = false → r = s.dict.mb.sel.getD 0xA04001 0 → (s.region r).count ≠ 0 →
      ∃ t, exec .digestNow s = .next t ∧
      t.region r =
        { s.region r with running := true, begun := true, changed := false, gone := false, failed := false, start := s.now } ∧
      (∀ q, q ≠ r → t.region q = s.region q) ∧ OnlyChanges [.chk] s t) ∧
  (∀ (r : Nat) (s : State),
    inService s = true → (s.region r).enable = true → (s.region r).running = false → s.power.paused = false →
    firmwareDown s = false → (s.region r).start + (s.region r).interval * 1000000000 ≤ s.now →
      ∃ t, exec (.digestInterval r) s = .next t ∧
      t.region r =
        { s.region r with running := true, begun := true, changed := false, gone := false, failed := false, start := s.now } ∧
      (∀ q, q ≠ r → t.region q = s.region q) ∧ OnlyChanges [.chk] s t) ∧
  (∀ (r : Nat) (d : List Byte) (s : State),
    (s.region r).running = true → s.power.paused = false → firmwareDown s = false → (s.region r).gone = false →
    (s.region r).failed = false → (s.region r).changed = false → d = digestBcvs (regionBcvs s (s.region r)) →
      ∃ t, exec (.digestPassDone ⟨r, [], none⟩) s = .next (settle t) ∧
      t.region r =
        { s.region r with running := false, pass := (s.region r).pass + 1, result := natLe 8 ((s.region r).pass + 1) ++ natLe 8 (s.region r).start ++ natLe 8 s.now ++ natLe 4 0 ++ natLe 4 (65536 * (s.region r).count) ++ takePad 64 d }
        ∧
      Logged 0xA108 [r, (s.region r).pass + 1, 0, leNat (d.take 16)] s t ∧
      counter t 0xC40B04 = counter s 0xC40B04 + 65536 * (s.region r).count ∧ counter t 0xC40B0A = counter s 0xC40B0A + 1 ∧
      OnlyChanges [.chk, .counters, .log, .dict, .out] s t)

/-- For the run of a test on a target of a loaded set (a core 0 to 63, or 64 + a port tile): it passes on a tile when the loop found
no error, on a core when every thread has halted and the blocks of the expected check values hold them, in both cases within the
test's MAXTIME (R295). TILTH_TEST_DONE with a pass goes on to the next test; with a failure, places the test once more, to run
from now. If the second run passes, TILTH_FAIL is logged with OUTCOME 0, and for a core the failure is counted as a transient of
its engine (R290). If it fails again, TILTH_FAIL is logged with OUTCOME 1, and the engine is retired with cause 0x02 (R287), or
the tile is reported (R86). A test that does not run changes nothing. -/
def Obligations.FailingTestsAreRepeated : Prop :=
  (∀ (k i e : Nat) (p : Bool) (r : TilthRun) (b : List Byte) (y : TilthTest) (s : State),
    s.chk.runs.find? (fun x => x.target == k && x.test == i) = some r → tilthOf s i = some (b, y) →
    e = testEngine y.target r.te → r.again = false → tilthPasses s r p = false →
      ∃ t, exec (.tilthTestDone k i p) s = .next (settle (tilthPlace k i t)) ∧
      (t.chk =
        { s.chk with runs := s.chk.runs.map fun x => if x.target = k then { x with again := true, since := s.now } else x }) ∧
      counter t 0xC40B08 = counter s 0xC40B08 + 1 ∧ OnlyChanges [.chk, .counters] s t) ∧
  (∀ (k i e : Nat) (p : Bool) (r : TilthRun) (b : List Byte) (y : TilthTest) (s : State),
    s.chk.runs.find? (fun x => x.target == k && x.test == i) = some r → tilthOf s i = some (b, y) →
    e = testEngine y.target r.te → r.again = true → tilthPasses s r p = true → k < 64 →
      ∃ t, exec (.tilthTestDone k i p) s = .next (settle t) ∧ Logged 0xA107 [k, e, i, 0] s t ∧
      t.chk.day = s.now / 86400000000000 ∧
      t.chk.transients.getD (8 * k + e) 0 = (if s.chk.day = s.now / 86400000000000 then s.chk.transients.getD (8 * k + e) 0
        else 0) + 1 ∧
      counter t 0xC40B08 = counter s 0xC40B08 + 1) ∧
  (∀ (k i e : Nat) (p : Bool) (r : TilthRun) (b : List Byte) (y : TilthTest) (s : State),
    s.chk.runs.find? (fun x => x.target == k && x.test == i) = some r → tilthOf s i = some (b, y) →
    e = testEngine y.target r.te → r.again = true → tilthPasses s r p = true → 64 ≤ k →
      ∃ t, exec (.tilthTestDone k i p) s = .next (settle t) ∧ Logged 0xA107 [k, 0xFF, i, 0] s t ∧
      t.sw.suspectTiles = s.sw.suspectTiles ∧ counter t 0xC40B08 = counter s 0xC40B08 + 1) ∧
  (∀ (k i e : Nat) (p : Bool) (r : TilthRun) (b : List Byte) (y : TilthTest) (s : State),
    s.chk.runs.find? (fun x => x.target == k && x.test == i) = some r → tilthOf s i = some (b, y) →
    e = testEngine y.target r.te → r.again = true → tilthPasses s r p = false → k < 64 →
      ∃ t, exec (.tilthTestDone k i p) s = .next (settle t) ∧ Logged 0xA107 [k, e, i, 1] s t ∧ Logged 0x7103 [k, e, 2] s t ∧
      (t.core k).teRetired = (if e < 4 then (s.core k).teRetired ||| 2 ^ e else (s.core k).teRetired) ∧
      (t.core k).ve = (if e = 4 then false else (s.core k).ve) ∧ (t.core k).me = (if e = 5 then false else (s.core k).me) ∧
      (t.core k).seqOk = (if e < 6 then (s.core k).seqOk else false) ∧ counter t 0xC40B09 = counter s 0xC40B09 + 1) ∧
  (∀ (k i e : Nat) (p : Bool) (r : TilthRun) (b : List Byte) (y : TilthTest) (s : State),
    s.chk.runs.find? (fun x => x.target == k && x.test == i) = some r → tilthOf s i = some (b, y) →
    e = testEngine y.target r.te → r.again = true → tilthPasses s r p = false → 64 ≤ k →
      ∃ t, exec (.tilthTestDone k i p) s = .next (settle t) ∧ Logged 0xA107 [k, 0xFF, i, 1] s t ∧
      ((t.sw.suspectTiles.any fun x => x.2 == k - 64) = true) ∧ counter t 0xC40B09 = counter s 0xC40B09 + 1) ∧
  (∀ (k i e : Nat) (p : Bool) (r : TilthRun) (b : List Byte) (y : TilthTest) (s : State),
    s.chk.runs.find? (fun x => x.target == k && x.test == i) = some r → tilthOf s i = some (b, y) →
    e = testEngine y.target r.te → r.again = false → tilthPasses s r p = true →
      exec (.tilthTestDone k i p) s = .next (settle (tilthNext r (bump 0xC40B08 1 s)))) ∧
  (∀ (p : Bool) (r : TilthRun) (b : List Byte) (y : TilthTest) (s : State),
    tilthOf s r.test = some (b, y) →
      (64 ≤ r.target → (tilthPasses s r p = true ↔ s.now - r.since ≤ 1000 * y.maxTime ∧ p = true)) ∧
      (r.target < 64 → (tilthPasses s r p = true ↔ s.now - r.since ≤ 1000 * y.maxTime ∧ (∀ kt ∈ (s.core r.target).threads,
        kt.2.running = false) ∧ tilthMatches s r.target b y = true))) ∧
  (∀ (k i : Nat) (p : Bool) (s : State),
    s.chk.runs.find? (fun x => x.target == k && x.test == i) = none →
      exec (.tilthTestDone k i p) s = .next (settle s))

/-- By either path (KEY_PLOT_CMD with the Lania link up and central services powered, which sets STATUS OK and DONE and is answered
OK): CREATE takes plot 1 to 8 from EMPTY to FORMING; ACTIVATE a FORMING plot with a way to ACTIVE with rotation count 1; ROTATE,
of any plot from 0, counts a rotation of an ACTIVE plot and of its tier 3 extents; RETIREOLD with FORCE ends the rotation, and
every line of a frame that holds the old generation is lost; FENCE takes an ACTIVE plot to HEDGED and LIFT back, with the
counters of its armed watches looked at again; REMOVE begins the removal. A removal ends when nothing of the plot is in flight,
with its extents SCRUBBING and its layout empty. A rotation is complete when no frame and no spill cell holds the old
generation, and a frame is re-encrypted under the current one. A command out of its range or state changes nothing; by
KEY_PLOT_CMD its STATUS is FAIL_STATE. FENCE and REMOVE end the plot's collectives and stop what R319 names. -/
def Obligations.PlotCommandsTakeEffect : Prop :=
  (∀ (dict : Bool) (n : Nat) (s : State),
    (dict = false → s.lania.up = true ∧ csOn s = true) → 1 ≤ n → n ≤ 8 → (s.plot n).st = .empty → inService s = true →
      ∃ t, exec (.plotCreate dict n) s = .next (settle (if dict then t else regAck St.ok (t.onKey fun k =>
        { k with plotStatus := St.ok, plotDone := true }))) ∧
      t.plot n = { s.plot n with st := .forming } ∧ (∀ m, m ≠ n → t.plot m = s.plot m) ∧ OnlyChanges [.key] s t) ∧
  (∀ (dict : Bool) (n : Nat) (s : State),
    (dict = false → s.lania.up = true ∧ csOn s = true) → 1 ≤ n → n ≤ 8 → (s.plot n).st = .forming → 0 < plotWayCount s n →
      ∃ t, exec (.plotActivate dict n) s = .next (settle (if dict then t else regAck St.ok (t.onKey fun k =>
        { k with plotStatus := St.ok, plotDone := true }))) ∧
      t.plot n = { s.plot n with st := .active, rot := 1 } ∧ (∀ m, m ≠ n → t.plot m = s.plot m) ∧
      (∀ x, (s.ext x).state ≠ .free → (s.ext x).role ≠ 2 → t.ext x = s.ext x) ∧ OnlyChanges [.key, .pool] s t) ∧
  (∀ (dict : Bool) (n : Nat) (s : State),
    (dict = false → s.lania.up = true ∧ csOn s = true) → n ≤ 8 → (s.plot n).st = .active → (s.plot n).rotating = false →
    (plotTier3 s n).Nodup →
      ∃ t, exec (.plotRotate dict n) s = .next (settle (if dict then t else regAck St.ok (t.onKey fun k =>
        { k with plotStatus := St.ok, plotDone := true }))) ∧
      t.plot n = { s.plot n with rot := (s.plot n).rot + 1, rotating := true } ∧ (∀ m, m ≠ n → t.plot m = s.plot m) ∧
      (∀ x, t.key.extRot.getD x 0 = s.key.extRot.getD x 0 + (if x ∈ plotTier3 s n then 1 else 0)) ∧
      t.key.frameGen = s.key.frameGen ∧ OnlyChanges [.key] s t) ∧
  (∀ (dict : Bool) (n : Nat) (s : State),
    (dict = false → s.lania.up = true ∧ csOn s = true) → 1 ≤ n → n ≤ 8 → (s.plot n).st = .active →
    (s.plot n).rotating = true →
      ∃ t, exec (.plotRetireold dict n true) s = .next (settle (if dict then t else regAck St.ok (t.onKey fun k =>
        { k with plotStatus := St.ok, plotDone := true }))) ∧
      t.plot n = { s.plot n with rotating := false } ∧ (∀ m, m ≠ n → t.plot m = s.plot m) ∧
      Logged 0x9103 [n, 512 * (oldFrames s n).length] s t ∧
      (∀ f ∈ oldFrames s n, t.key.frameGen.find f = none ∧ ∀ i, i < 512 → t.pool.lostLines.find (512 * f + i) = some
        .keyRetired) ∧
      t.pool.exts = s.pool.exts ∧ OnlyChanges [.key, .pool, .mem, .counters, .log, .dict, .out] s t) ∧
  (∀ (dict : Bool) (n : Nat) (s : State),
    (dict = false → s.lania.up = true ∧ csOn s = true) → 1 ≤ n → n ≤ 8 → (s.plot n).st = .active →
    (∀ kv ∈ s.coll.groups, kv.2.plot = n → kv.2.seqs.filter CSeq.underWay = []) →
      ∃ t, exec (.plotFence dict n) s = .next (settle (if dict then t else regAck St.ok (t.onKey fun k =>
        { k with plotStatus := St.ok, plotDone := true }))) ∧
      t.plot n = { s.plot n with st := .hedged } ∧ (∀ m, m ≠ n → t.plot m = s.plot m) ∧ Logged 0x9105 [n, 0] s t ∧
      OnlyChanges [.key, .counters, .log, .dict, .out] s t) ∧
  (∀ (dict : Bool) (n : Nat) (s : State),
    (dict = false → s.lania.up = true ∧ csOn s = true) → 1 ≤ n → n ≤ 8 → (s.plot n).st = .hedged →
      ∃ t, exec (.plotLift dict n) s = .next (settle (if dict then t else regAck St.ok (t.onKey fun k =>
        { k with plotStatus := St.ok, plotDone := true }))) ∧
      t.plot n = { s.plot n with st := .active } ∧ (∀ m, m ≠ n → t.plot m = s.plot m) ∧
      (∀ kv ∈ s.sync.watches, kv.2.st = .armed → watchPlot s kv.1 = some n → kv.2.ctr ∈ t.sync.touched) ∧
      (∀ c, ctrVal t c = ctrVal s c) ∧ OnlyChanges [.key, .sync] s t) ∧
  (∀ (dict : Bool) (n : Nat) (s : State),
    (dict = false → s.lania.up = true ∧ csOn s = true) → 1 ≤ n → n ≤ 8 →
    ((s.plot n).st = .active ∨ (s.plot n).st = .hedged ∨ (s.plot n).st = .forming) →
    (∀ kv ∈ s.coll.groups, kv.2.plot = n → kv.2.seqs.filter CSeq.underWay = []) → coresOf s n = [] → s.xlt.faults = [] →
    s.xlt.deferred = [] →
      ∃ t, exec (.plotRemove dict n) s = .next (settle (if dict then t else regAck St.ok (t.onKey fun k =>
        { k with plotStatus := St.ok, plotDone := true }))) ∧
      t.plot n = { s.plot n with st := .removing, rotating := false, since := s.now, drainFails := 0 } ∧
      (∀ m, m ≠ n → t.plot m = s.plot m) ∧ Logged 0x9105 [n, 1] s t ∧ (∀ kv ∈ t.sync.watches, watchPlot s kv.1 ≠ some n) ∧
      (∀ r ∈ t.sync.retries, r.plot ≠ n) ∧ (∀ kv ∈ t.xlt.ctxs, ctxPlot s kv.1 = some n → kv.2.draining = true) ∧
      OnlyChanges [.key, .sync, .xlt, .counters, .log, .dict, .out] s t) ∧
  (∀ (n : Nat) (s : State),
    (s.plot n).st = .removing → s.now < (s.plot n).since + 1000 * cfg 0x602001 1000 s → plotInFlight s n = false →
    ∀ p ∈ List.range 128, portPlot s p ≠ n →
      ∃ t, exec (.plotRemoveDrained n) s = .next (settle t) ∧ (t.plot n).st = .empty ∧ (∀ m, m ≠ n → t.plot m = s.plot m) ∧
      (∀ x ∈ plotExtents s n, (t.ext x).state = .scrubbing) ∧ (∀ x, x ∉ plotExtents s n → t.ext x = s.ext x) ∧
      (plotCores t n = 0 ∨ n = 0) ∧ Logged 0x9106 [n, (plotExtents s n).length, (s.plot n).drainFails] s t) ∧
  (∀ (n : Nat) (s : State),
    (s.plot n).rotating = true → (s.plot n).st = .active → oldFrames s n = [] → spillOld s n = false →
      ∃ t, exec (.rotationComplete n) s = .next t ∧ t.plot n = { s.plot n with rotating := false } ∧
      (∀ m, m ≠ n → t.plot m = s.plot m) ∧ counter t 0xC40C02 = counter s 0xC40C02 + 1 ∧
      (plotTier3 s n = [] → Logged 0x9102 [0, n, ((s.plot n).rot - 1) % 65536] s t) ∧
      OnlyChanges [.key, .counters, .log, .dict, .out] s t) ∧
  (∀ (f g x : Nat) (s : State),
    s.key.frameGen.find f = some g → extOf (f * frameBytes) = some x → g ≠ genNow s x → s.power.paused = false →
    extLost s x = false → (s.plot (s.ext x).plot).st = .active →
      ∃ t, exec (.reencryptFrameDone f) s = .next t ∧ t.key = { s.key with frameGen := s.key.frameGen.set f (genNow s x) } ∧
      OnlyChanges [.key] s t) ∧
  (∀ (dict : Bool) (n : Nat) (s : State),
    (dict = false → s.lania.up = true ∧ csOn s = true) → (n = 0 ∨ 8 < n ∨ (s.plot n).st ≠ .empty ∨ inService s = false) →
      exec (.plotCreate dict n) s = .next (settle (if dict then s else regAck St.ok (s.onKey fun k =>
        { k with plotStatus := St.state, plotDone := true })))) ∧
  (∀ (dict : Bool) (n : Nat) (s : State),
    (dict = false → s.lania.up = true ∧ csOn s = true) → (n = 0 ∨ 8 < n ∨ (s.plot n).st ≠ .forming ∨ plotWayCount s n = 0) →
      exec (.plotActivate dict n) s = .next (settle (if dict then s else regAck St.ok (s.onKey fun k =>
        { k with plotStatus := St.state, plotDone := true })))) ∧
  (∀ (dict : Bool) (n : Nat) (s : State),
    (dict = false → s.lania.up = true ∧ csOn s = true) → (8 < n ∨ (s.plot n).st ≠ .active ∨ (s.plot n).rotating = true) →
      exec (.plotRotate dict n) s = .next (settle (if dict then s else regAck St.ok (s.onKey fun k =>
        { k with plotStatus := St.state, plotDone := true })))) ∧
  (∀ (dict : Bool) (n : Nat) (force : Bool) (s : State),
    (dict = false → s.lania.up = true ∧ csOn s = true) →
    (n = 0 ∨ 8 < n ∨ force = false ∨ (s.plot n).st ≠ .active ∨ (s.plot n).rotating = false) →
      exec (.plotRetireold dict n force) s = .next (settle (if dict then s else regAck St.ok (s.onKey fun k =>
        { k with plotStatus := St.state, plotDone := true })))) ∧
  (∀ (dict : Bool) (n : Nat) (s : State),
    (dict = false → s.lania.up = true ∧ csOn s = true) → (n = 0 ∨ 8 < n ∨ (s.plot n).st ≠ .active) →
      exec (.plotFence dict n) s = .next (settle (if dict then s else regAck St.ok (s.onKey fun k =>
        { k with plotStatus := St.state, plotDone := true })))) ∧
  (∀ (dict : Bool) (n : Nat) (s : State),
    (dict = false → s.lania.up = true ∧ csOn s = true) → (n = 0 ∨ 8 < n ∨ (s.plot n).st ≠ .hedged) →
      exec (.plotLift dict n) s = .next (settle (if dict then s else regAck St.ok (s.onKey fun k =>
        { k with plotStatus := St.state, plotDone := true })))) ∧
  (∀ (dict : Bool) (n : Nat) (s : State),
    (dict = false → s.lania.up = true ∧ csOn s = true) →
    (n = 0 ∨ 8 < n ∨ ((s.plot n).st ≠ .forming ∧ (s.plot n).st ≠ .active ∧ (s.plot n).st ≠ .hedged)) →
      exec (.plotRemove dict n) s = .next (settle (if dict then s else regAck St.ok (s.onKey fun k =>
        { k with plotStatus := St.state, plotDone := true })))) ∧
  (∀ (dict : Bool) (n : Nat) (u s : State),
    (dict = false → s.lania.up = true ∧ csOn s = true) → 1 ≤ n → n ≤ 8 → (s.plot n).st = .active →
    (u = abortPlot n (raise 0x9105 [n, 0] (s.onPlot n fun x => { x with st := .hedged }))) →
      exec (.plotFence dict n) s = .next (settle (if dict then u else regAck St.ok (u.onKey fun k =>
        { k with plotStatus := St.ok, plotDone := true })))) ∧
  (∀ (dict : Bool) (n : Nat) (u s : State),
    (dict = false → s.lania.up = true ∧ csOn s = true) → 1 ≤ n → n ≤ 8 →
    ((s.plot n).st = .active ∨ (s.plot n).st = .hedged ∨ (s.plot n).st = .forming) → u = removePlot n s →
      exec (.plotRemove dict n) s = .next (settle (if dict then u else regAck St.ok (u.onKey fun k =>
        { k with plotStatus := St.ok, plotDone := true })))) ∧
  (∀ (n : Nat) (s : State),
    ((s.plot n).st ≠ .removing ∨ (s.now < (s.plot n).since + 1000 * cfg 0x602001 1000 s ∧ plotInFlight s n = true)) →
      exec (.plotRemoveDrained n) s = .next (settle s)) ∧
  (∀ (n : Nat) (s : State),
    (s.plot n).st = .removing → s.now < (s.plot n).since + 1000 * cfg 0x602001 1000 s → plotInFlight s n = false →
      exec (.plotRemoveDrained n) s = .next (settle (removeEnds n s))) ∧
  (∀ (n : Nat) (u s : State),
    (s.plot n).st = .removing → (s.plot n).since + 1000 * cfg 0x602001 1000 s ≤ s.now → u = removeExpires n s →
      exec (.plotRemoveDrained n) s = .next (settle (if plotInFlight u n then u else removeEnds n u))) ∧
  (∀ (n : Nat) (s : State),
    ((s.plot n).rotating = false ∨ (s.plot n).st ≠ .active ∨ oldFrames s n ≠ [] ∨ spillOld s n = true) →
      exec (.rotationComplete n) s = .next s) ∧
  (∀ (f : Nat) (s : State),
    ((∀ g ∈ s.key.frameGen.find f, ∀ x ∈ extOf (f * frameBytes), g = genNow s x ∨ s.power.paused = true ∨ extLost s x = true
      ∨ (s.plot (s.ext x).plot).st ≠ .active)) →
      exec (.reencryptFrameDone f) s = .next s)

/-- Tier3PairReset, in SERVICE with no tier 3 extent assigned, zeroes tier 3 and empties the pair record; a hub in reach that names
a partner then takes its slot anew. A partner's slot stands in the record, and its signed key has the secret wrapped for it by
the hub that holds it; a wrapped secret that unwraps makes a waiting hub hold it, and wrap it into its own slot. A KEYX exchange
in sequence, of a serving port's far end whose chain and signature verify, gives the link's next key, which takes over with the
other KEYPHASE once the hub's own exchange is acknowledged; one that does not, or has no anchor, holds the port FALLOW with
KEY_AUTH_FAILURE and no key; a port that identifies itself, its identity passing, gets its first key so; any other ignores it. A
rekey is due at LinkRekeyInterval or a frame counter of 2^40, and sends the hub's signed public key and chain. AttestGo and
KEY_ATTEST_CMD begin a request with the next number; its signed report is kept, or written to plot 0 memory, and K becomes the
tenant key, which lapses after 600 s. A debug token of 202 bytes is accepted in ISLAND, LOADED and MEASURED if its serial,
challenge and signature are right, and otherwise changes nothing. A register command whose memory must wait goes on later. Each
command asked out of its state is refused: the dictionary's changes nothing, the register's gives its STATUS. -/
def Obligations.KeysAndAttestation : Prop :=
  (∀ (s : State),
    inService s = true → s.pool.exts.any (fun kv => extTier kv.1 == 3 && kv.2.state == .assigned) = false →
      ∃ t, exec .tier3PairReset s = .next t ∧
      (∀ a, Mem.read t.mem a 1 = if (0x040000000000 ≤ a ∧ a < 0x060000000000) then [0] else Mem.read s.mem a 1) ∧
      (pairReach s = false ∨ partnerSerial s = [] → t.key.pair = {} ∧ t.key.pairState = 0 ∧ t.key.pairSecret = []) ∧
      (pairReach s = true → partnerSerial s ≠ [] → t.key.pairSecret = newSecret s ∧ t.key.pairState = 1 ∧ t.key.pair =
        { count := 1, slot0 := { serial := mySerial, wrapped := takePad 40 (Config.keyWrap (wrapKey s) (newSecret s)) } } ∧
        Output.pairRecord t.key.pair.image ∈ t.out) ∧
      t.key.plots = s.key.plots ∧ OnlyChanges [.key, .pool, .cxl, .mem, .out] s t) ∧
  (∀ (serial pub chain : List Byte) (s : State),
    s.key.pairState ≠ 1 → pairReach s = false →
      ∃ t, exec (.pairRecordSlotWritten (.partnerSlot serial pub chain)) s = .next t ∧
      (∀ i ∈ pairPlace s (takePad 16 serial), t.key =
        { s.key with pair := s.key.pair.put i { serial := takePad 16 serial, area := .ask pub chain } }) ∧
      (pairPlace s (takePad 16 serial) = none → t.key = s.key) ∧ OnlyChanges [.key] s t) ∧
  (∀ (i : Nat) (serial pub chain : List Byte) (s : State),
    pairPlace s (takePad 16 serial) = some i →
      exec (.pairRecordSlotWritten (.partnerSlot serial pub chain)) s = .next (pairTurn
        { s with key := { s.key with pair := s.key.pair.put i { serial := takePad 16 serial, area := .ask pub chain } } })) ∧
  (∀ (serial wrapped : List Byte) (s : State),
    s.key.pairState ≠ 1 → pairReach s = false →
      ∃ t, exec (.pairRecordSlotWritten (.partnerHolds serial wrapped)) s = .next t ∧
      (∀ i ∈ pairPlace s (takePad 16 serial), t.key =
        { s.key with pair := s.key.pair.put i { serial := takePad 16 serial, wrapped := takePad 40 wrapped } }) ∧
      (pairPlace s (takePad 16 serial) = none → t.key = s.key) ∧ OnlyChanges [.key] s t) ∧
  (∀ (w pub : List Byte) (i : Nat) (s : State),
    s.key.pairState = 2 → s.key.pair.find mySerial = some i →
      ∃ t, exec (.pairRecordSlotWritten (.transfer w pub)) s = .next t ∧
      (∀ ps ∈ Config.keyUnwrap (Config.shake256 (Config.x448 s.key.pairPriv (pub.take 56)) 32) w, t.key =
        { s.key with pairSecret := ps, pairPriv := [], pairState := 1, pair := s.key.pair.put i { serial := mySerial, wrapped := takePad 40 (Config.keyWrap (wrapKey s) ps) } }
        ∧ Output.pairRecord t.key.pair.image ∈ t.out) ∧
      (Config.keyUnwrap (Config.shake256 (Config.x448 s.key.pairPriv (pub.take 56)) 32) w = none → t.key =
        { s.key with pair := s.key.pair.put i { s.key.pair.slot i with area := .grant w pub } }) ∧
      OnlyChanges [.key, .out] s t) ∧
  (∀ (f : FrameIn) (chain pub sig : List Byte) (far : Bool) (p : Nat) (v : State) (l : LinkKey) (good : Bool) (w s : State),
    FrameTaken s f → v = frameIn s f → p = f.light.port → (v.port p).st.serves = true → (anchorsFor v far).isEmpty = false →
    good = (far == (wiringKind v p == 2) && Config.chainVerifies (anchorsFor v far) chain && Config.ed448Verify
      (Config.chainKey chain) pub sig) →
    l = (v.key.links.find p).getD {} →
    w =
      { v with key := { v.key with links := v.key.links.set p { l with rekey := true, next := some (linkKey v p (l.gen + 1) pub) } } }
      →
      exec (.keyxFrame f chain pub sig far) s = .next (settle (if good then rekeyTurn p (if l.rekey then w else sendKeyx p
        (l.gen + 1) w) else authFails p 0 v))) ∧
  (∀ (p : Nat) (l : LinkKey) (s : State),
    s.key.links.find p = some l → (s.port p).st.serves = true → l.rekey = false →
    ((l.since + cfg 0x902101 3600 s * 1000000000 ≤ s.now ∨ 2 ^ 40 ≤ l.txCount ∨ 2 ^ 40 ≤ l.rxCount)) →
      exec (.linkRekey p) s = .next (sendKeyx p (l.gen + 1)
        { s with key := { s.key with links := s.key.links.set p { l with rekey := true } } })) ∧
  (∀ (p : Nat) (l : LinkKey) (b : List Byte) (s : State),
    s.key.links.find p = some l → (s.port p).st.serves = true → l.rekey = false →
    l.since + cfg 0x902101 3600 s * 1000000000 ≤ s.now →
    b = takePad 56 (linkPublic s p (l.gen + 1)) ++ takePad 114 (Config.ed448Sign (takePad 56 (linkPublic s p (l.gen + 1))))
      ++ Config.certificateChain →
      ∃ t, exec (.linkRekey p) s = .next t ∧
      (t.key.links.find p).map (fun k => { k with txCount := l.txCount }) = some { l with rekey := true } ∧
      (∀ x ∈ [takePad 2304 b, takePad 2304 (b.drop 2304)], (∃ f ∈ (t.port p).replay, f.item = .keyx x) ∨ LinkItem.keyx x ∈
        (t.port p).held) ∧
      (∀ q, q ≠ p → t.port q = s.port q) ∧ OnlyChanges [.key, .ports, .out] s t) ∧
  (∀ (s : State),
    (inService s = false ∨ (∃ kv ∈ s.pool.exts, extTier kv.1 = 3 ∧ kv.2.state = .assigned)) →
      exec .tier3PairReset s = .next s) ∧
  (∀ (i : Nat) (serial pub chain : List Byte) (u s : State),
    s.key.pairState = 1 → pairReach s = false → partnerSerial s = takePad 16 serial →
    pairPlace s (takePad 16 serial) = some i →
    u = { s with key := { s.key with pair := s.key.pair.put i { serial := takePad 16 serial, area := .ask pub chain } } } →
      exec (.pairRecordSlotWritten (.partnerSlot serial pub chain)) s = .next (if Config.chainVerifies [Config.deviceRoot]
        chain = true ∧ Config.ed448Verify (Config.chainKey chain) (pub.take 56) (pub.drop 56) = true then pairPut i
        { serial := takePad 16 serial, area := .grant (takePad 40 (Config.keyWrap (Config.shake256 (Config.x448 (takePad 56 (Config.random s.free 56)) (pub.take 56)) 32) s.key.pairSecret)) (takePad 56 (Config.x448Public (takePad 56 (Config.random s.free 56)))) }
        u.drawn else u)) ∧
  (∀ (w pub : List Byte) (s : State),
    ((s.key.pairState ≠ 2 ∨ s.key.pair.find mySerial = none)) →
      exec (.pairRecordSlotWritten (.transfer w pub)) s = .next s) ∧
  (∀ (f : FrameIn) (chain pub sig : List Byte) (far : Bool) (p : Nat) (v s : State),
    FrameTaken s f → v = frameIn s f → p = f.light.port → (v.port p).st.serves = false →
    (((v.port p).st ≠ .identifying ∨ hubIdObj v = 0xFFFF ∨ planeObj v = 0xFF ∨ (v.port p).ident = [] ∨ (v.port p).keyed =
      true ∨ (v.port p).planWait ≠ none)) →
      exec (.keyxFrame f chain pub sig far) s = .next (settle v)) ∧
  (∀ (f : FrameIn) (chain pub sig : List Byte) (far : Bool) (p : Nat) (v s : State),
    FrameTaken s f → v = frameIn s f → p = f.light.port → (v.port p).st.serves = true →
    ((anchorsFor v far = [] ∨ (far == (wiringKind v p == 2)) = false ∨ Config.chainVerifies (anchorsFor v far) chain = false
      ∨ Config.ed448Verify (Config.chainKey chain) pub sig = false)) →
      ∃ t, exec (.keyxFrame f chain pub sig far) s = .next (settle t) ∧ (t.port p).st = .fallow ∧ (t.port p).reason = 8 ∧
      (t.port p).keyed = false ∧ t.key.links.find p = none ∧ Logged 0x9101 [p, if anchorsFor v far = [] then 1 else 0] v t ∧
      OnlyChanges [.key, .ports, .log, .dict, .out] v t) ∧
  (∀ (f : FrameIn) (chain pub sig : List Byte) (far : Bool) (p : Nat) (v : State) (good : Bool) (s : State),
    FrameTaken s f → v = frameIn s f → p = f.light.port → (v.port p).st = .identifying → hubIdObj v ≠ 0xFFFF →
    planeObj v ≠ 0xFF → (v.port p).ident ≠ [] → identFails v p (v.port p).ident = none → (v.port p).planWait = none →
    (v.port p).keyed = false → anchorsFor v far ≠ [] →
    good = (far == (wiringKind v p == 2) && Config.chainVerifies (anchorsFor v far) chain && Config.ed448Verify
      (Config.chainKey chain) pub sig) →
      exec (.keyxFrame f chain pub sig far) s = .next (settle (if good then compareIdent p ((v.onKey fun k =>
        { k with links := k.links.set p { gen := 1, key := linkKey v p 1 pub, ready := true, since := v.now } }).onPort p fun
        y => { y with keyed := true }) else authFails p 0 v))) ∧
  (∀ (p : Nat) (s : State),
    ((∀ l ∈ s.key.links.find p, (s.port p).st.serves = false ∨ l.rekey = true ∨ (s.now < l.since + cfg 0x902101 3600 s *
      1000000000 ∧ l.txCount < 2 ^ 40 ∧ l.rxCount < 2 ^ 40))) →
      exec (.linkRekey p) s = .next s) ∧
  (∀ (s : State),
    (inService s = false ∨ s.key.attNonce = [] ∨ s.key.attPeer = [] ∨ s.key.attDict.isSome = true) →
      exec (.attestRequest none) s = .next s) ∧
  (∀ (n : Nat) (s : State),
    s.lania.up = true → csOn s = true → (attestBusy s = true ∨ inService s = false ∨ 8 < n) →
      exec (.attestRequest (some n)) s = .next (regAck St.ok { s with key := { s.key with attStatus := St.state } })) ∧
  (∀ (n st : Nat) (u s : State),
    s.lania.up = true → csOn s = true → attestBusy s = false → inService s = true → n ≤ 8 →
    hubRead 65 s.key.attSrcCtx 0 (nodeOf s 0xC1) s.key.attSrcOff 120 { s with key := { s.key with attDone := false } } =
      (.fail st, u) →
      exec (.attestRequest (some n)) s = .next (regAck St.ok
        { u with key := { u.key with attStatus := st, attDone := true } })) ∧
  (∀ (dict : Bool) (s : State),
    if dict = true then s.key.attDict = none else s.key.attReg = none →
      exec (.attestReportSigned dict) s = .next (settle s)) ∧
  (∀ (a : Attest) (s : State),
    s.key.attReg = some a →
      exec (.attestReportSigned false) s = .next (settle (reportWritten a (attReport s a).length (hubWrite 66
        s.key.attDstCtx 0 (nodeOf s 0xC1) s.key.attDstOff (attReport s a) s)))) ∧
  (∀ (n : Nat) (s : State),
    ((∀ k ∈ s.key.tenants, k.num = n → s.now < k.since + 600000000000)) →
      exec (.tenantSessionExpiry n) s = .next s) ∧
  (∀ (b : List Byte) (ctx off : Nat) (s : State),
    (b.length ≠ 202 ∨ debugGate s = false) →
      exec (.debugToken (some b) ctx off) s = .next s) ∧
  (∀ (ctx off : Nat) (s : State),
    s.lania.up = true → csOn s = true → debugGate s = false →
      exec (.debugToken none ctx off) s = .next (regAck St.ok { s with key := { s.key with debugStatus := St.state } })) ∧
  (∀ (ctx off st : Nat) (u s : State),
    s.lania.up = true → csOn s = true → debugGate s = true → hubRead 67 ctx 0 (nodeOf s 0xC1) off 202 s = (.fail st, u) →
      exec (.debugToken none ctx off) s = .next (regAck St.ok { u with key := { u.key with debugStatus := st } })) ∧
  (∀ (s : State),
    inService s = true → s.key.attNonce ≠ [] → s.key.attPeer ≠ [] → s.key.attDict = none →
      ∃ t, exec (.attestRequest none) s = .next t ∧
      t.key =
        { s.key with attCount := s.key.attCount + 1, attDict := some { plot := cfg 0x930003 0 s, nonce := s.key.attNonce, peer := s.key.attPeer, num := s.key.attCount + 1 } }
        ∧
      OnlyChanges [.key] s t) ∧
  (∀ (n : Nat) (b : List Byte) (u s : State),
    s.lania.up = true → csOn s = true → attestBusy s = false → inService s = true → n ≤ 8 →
    hubRead 65 s.key.attSrcCtx 0 (nodeOf s 0xC1) s.key.attSrcOff 120 { s with key := { s.key with attDone := false } } =
      (.ok b, u) →
      ∃ t, exec (.attestRequest (some n)) s = .next (regAck St.ok t) ∧
      t.key =
        { u.key with attCount := u.key.attCount + 1, attDone := false, attReg := some { plot := n, nonce := b.take 64, peer := slice b 64 56, num := u.key.attCount + 1 } }
        ∧
      OnlyChanges [.key] u t) ∧
  (∀ (n : Nat) (u s : State),
    s.lania.up = true → csOn s = true → attestBusy s = false → inService s = true → n ≤ 8 →
    hubRead 65 s.key.attSrcCtx 0 (nodeOf s 0xC1) s.key.attSrcOff 120 { s with key := { s.key with attDone := false } } =
      (.wait, u) →
    u.pool.hubCmds.contains (.attest n) = false →
      exec (.attestRequest (some n)) s = .next (regAck St.ok
        { u with pool := { u.pool with hubCmds := u.pool.hubCmds ++ [.attest n] } })) ∧
  (∀ (a : Attest) (s : State),
    s.key.attDict = some a →
      ∃ t, exec (.attestReportSigned true) s = .next (settle t) ∧ t.key.report = attReport s a ∧ t.key.attDict = none ∧
      t.key.tenants = List.drop (s.key.tenants.length + 1 - 16) (s.key.tenants ++
        [{ num := a.num, plot := a.plot, nonce := a.nonce, key := attKey s a, since := s.now }]) ∧
      counter t 0xC40C06 = counter s 0xC40C06 + 1 ∧ OnlyChanges [.key, .counters, .log] s t) ∧
  (∀ (n : Nat) (k : TenantKey) (s : State),
    s.key.tenants.find? (fun x => x.num == n) = some k → k.since + 600000000000 ≤ s.now →
      ∃ t, exec (.tenantSessionExpiry n) s = .next t ∧ t.key.tenants = s.key.tenants.filter (fun x => x.num != n) ∧
      t.dict.sessions = s.dict.sessions.filter (fun x => (x.tenant.map Prod.snd) != some n) ∧ OnlyChanges [.key, .log] s t) ∧
  (∀ (b : List Byte) (ctx off : Nat) (good : Bool) (s : State),
    b.length = 202 → debugGate s = true →
    good = (decide (b.take 16 = takePad 16 Config.serialNumber) && decide (slice b 16 64 = debugChallenge s) &&
      Config.ed448Verify Config.debugKey (b.take 88) (b.drop 88)) →
      ∃ t, exec (.debugToken (some b) ctx off) s = .next t ∧
      (good = true → t.key =
        { s.key with debug := true, links := [], pairSecret := [], pairPriv := [], pairState := 0, tenants := [], attDict := none, attReg := none }
        ∧ Logged 0x9107 [fieldAt b 80 8] s t) ∧
      (good = false → t = s) ∧ OnlyChanges [.key, .counters, .log, .dict, .out] s t) ∧
  (∀ (ctx off : Nat) (b : List Byte) (good : Bool) (u s : State),
    s.lania.up = true → csOn s = true → debugGate s = true → hubRead 67 ctx 0 (nodeOf s 0xC1) off 202 s = (.ok b, u) →
    b.length = 202 → debugGate u = true →
    good = (decide (b.take 16 = takePad 16 Config.serialNumber) && decide (slice b 16 64 = debugChallenge u) &&
      Config.ed448Verify Config.debugKey (b.take 88) (b.drop 88)) →
      ∃ t, exec (.debugToken none ctx off) s = .next (regAck St.ok t) ∧
      t.key.debugStatus = (if good then St.ok else St.protection) ∧ t.key.debug = (u.key.debug || good)) ∧
  (∀ (ctx off : Nat) (u s : State),
    s.lania.up = true → csOn s = true → debugGate s = true → hubRead 67 ctx 0 (nodeOf s 0xC1) off 202 s = (.wait, u) →
    u.pool.hubCmds.contains (.debug ctx off) = false →
      exec (.debugToken none ctx off) s = .next (regAck St.ok
        { u with pool := { u.pool with hubCmds := u.pool.hubCmds ++ [.debug ctx off] } }))

/-- By PortCommand or by PORT_CMD (with the Lania link up and the group's domain on, which sets the group's STATUS OK and is
answered OK), on a port that may be commanded: ENABLE of a DOWN port starts training with its circuits reset; DISABLE of a
serving port loses it with cause 1, and of another takes it DOWN; DORMANT sends DORMANT; WAKE starts the wake sequence; HOLD
holds the port FALLOW with reason 1; RELEASE takes it to IDENTIFYING and compares its identity. A command that the port's state
does not permit changes nothing, and PORT_CMD's STATUS is FAIL_STATE. Light on an enabled DOWN port trains it, on a settled
DORMANT one wakes it. A circuit that converges counts toward ALIGNING; one with ALOCK toward IDENTIFYING, which the port enters
when every lane has it, each lane numbered once and the skew within 8 codewords; a lane that loses its codewords loses ALOCK,
and in use fails. PORT_SLIP_CMD slips each named circuit by one bit, and past all 5,440 its port trains again. After 20 ms
training starts again, and the third time the port is DOWN. An IDENT in sequence is acknowledged and, on a port that identifies
itself, compared; one that is not goes the way of any frame; the port's own is sent again every 10 us, every 1 ms while the plan
is awaited; 100 ms of waiting on PLANID is reported. Where what a command tells of is not under way, nothing changes. -/
def Obligations.PortsTrainAndIdentify : Prop :=
  (∀ (dict : Bool) (p : Nat) (s : State),
    (dict = false → s.lania.up = true) → portCan s p = true → (s.port p).st = .down →
      ∃ t, exec (.portEnable dict p) s = .next (settle (if dict then t else regAck St.ok (t.onPorts fun x =>
        { x with cmdStatus := x.cmdStatus.set (p / 8) St.ok }))) ∧
      t.port p = { s.port p with st := .training, enabled := true, trainSince := s.now, returns := 0 } ∧
      (∀ q, q ≠ p → t.port q = s.port q) ∧
      (∀ j ∈ portCircuits s p, t.lane (p / 8) j =
        { s.lane (p / 8) j with st := .training, cdr := false, eq := false, alock := false, slip := 0, failed := false, joining := none })
        ∧
      OnlyChanges [.ports] s t) ∧
  (∀ (dict : Bool) (p : Nat) (s : State),
    (dict = false → s.lania.up = true) → portCan s p = true → (s.port p).st ≠ .down → (s.port p).st.serves = false →
      ∃ t, exec (.portDisable dict p) s = .next (settle (if dict then t else regAck St.ok (t.onPorts fun x =>
        { x with cmdStatus := x.cmdStatus.set (p / 8) St.ok }))) ∧
      t.port p = { enabled := false, peer := (s.port p).peer, katHeld := (s.port p).katHeld, eyes := (s.port p).eyes } ∧
      t.records p = [] ∧ t.key.links.find p = none) ∧
  (∀ (dict : Bool) (p : Nat) (s : State),
    (dict = false → s.lania.up = true) → portCan s p = true → (s.port p).st.serves = true →
      ∃ t, exec (.portDisable dict p) s = .next (settle (if dict then t else regAck St.ok (t.onPorts fun x =>
        { x with cmdStatus := x.cmdStatus.set (p / 8) St.ok }))) ∧
      t.port p = { enabled := false, peer := (s.port p).peer, katHeld := (s.port p).katHeld, eyes := (s.port p).eyes } ∧
      t.records p = [] ∧ t.key.links.find p = none ∧ Logged 0x3101 [p, 1, (soundCircuits s p).length] s t ∧
      counter t 0xC40502 = counter s 0xC40502 + 1) ∧
  (∀ (dict : Bool) (p : Nat) (s : State),
    (dict = false → s.lania.up = true) → portCan s p = true → canSleep s p = true →
      ∃ t, exec (.portDormant dict p) s = .next (settle (if dict then t else regAck St.ok (t.onPorts fun x =>
        { x with cmdStatus := x.cmdStatus.set (p / 8) St.ok }))) ∧
      (t.port p).st = .dormant ∧ (t.port p).dormantSince = some s.now ∧ (t.port p).settled = false ∧
      (t.port p).farDormant = (s.port p).farDormant ∧
      (Output.link p (nextFrame s p .dormant) (s.port p).blockNo ∈ t.out ∨ LinkItem.dormant ∈ (t.port p).held) ∧
      (∀ q, q ≠ p → t.port q = s.port q)) ∧
  (∀ (dict : Bool) (p : Nat) (s : State),
    (dict = false → s.lania.up = true) → portCan s p = true → (s.port p).st = .dormant → shedHolds s p = false →
      ∃ t, exec (.portWake dict p) s = .next (settle (if dict then t else regAck St.ok (t.onPorts fun x =>
        { x with cmdStatus := x.cmdStatus.set (p / 8) St.ok }))) ∧
      t.port p = { s.port p with waking := true } ∧ (∀ q, q ≠ p → t.port q = s.port q) ∧ OnlyChanges [.ports] s t) ∧
  (∀ (dict : Bool) (p : Nat) (s : State),
    (dict = false → s.lania.up = true) → portCan s p = true → ((s.port p).st = .identifying ∨ (s.port p).st.serves = true) →
      ∃ t, exec (.portHold dict p) s = .next (settle (if dict then t else regAck St.ok (t.onPorts fun x =>
        { x with cmdStatus := x.cmdStatus.set (p / 8) St.ok }))) ∧
      (t.port p).st = .fallow ∧ (t.port p).reason = 1 ∧ (t.port p).dealt = [] ∧ (∀ q, q ≠ p → t.port q = s.port q) ∧
      Logged 0x3104 [p, 1, leNat ((s.port p).ident.take 32)] s t ∧ OnlyChanges [.ports, .counters, .log, .dict, .out] s t) ∧
  (∀ (dict : Bool) (p : Nat) (s : State),
    (dict = false → s.lania.up = true) → portCan s p = true → (s.port p).st = .fallow → (s.port p).ident = [] →
      ∃ t, exec (.portRelease dict p) s = .next (settle (if dict then t else regAck St.ok (t.onPorts fun x =>
        { x with cmdStatus := x.cmdStatus.set (p / 8) St.ok }))) ∧
      (t.port p).st = .identifying ∧ (t.port p).reason = 0 ∧ (t.port p).katHeld = false ∧ (t.port p).identSent = s.now ∧
      (Output.link p (nextFrame s p (.ident (identBody s p))) (s.port p).blockNo ∈ t.out ∨ LinkItem.ident (identBody s p) ∈
        (t.port p).held) ∧
      (∀ q, q ≠ p → t.port q = s.port q) ∧ OnlyChanges [.ports, .key, .out] s t) ∧
  (∀ (dict : Bool) (p : Nat) (r : Nat) (s : State),
    (dict = false → s.lania.up = true) → portCan s p = true → (s.port p).st = .fallow → (s.port p).ident ≠ [] →
    hubIdObj s ≠ 0xFFFF → planeObj s ≠ 0xFF → identFails s p (s.port p).ident = some r →
      ∃ t, exec (.portRelease dict p) s = .next (settle (if dict then t else regAck St.ok (t.onPorts fun x =>
        { x with cmdStatus := x.cmdStatus.set (p / 8) St.ok }))) ∧
      (t.port p).st = .fallow ∧ (t.port p).reason = r ∧ (t.port p).katHeld = false ∧ (∀ q, q ≠ p → t.port q = s.port q) ∧
      OnlyChanges [.ports, .counters, .log, .dict, .out] s t) ∧
  (∀ (p : Nat) (s : State),
    portCan s p = true → (s.port p).st = .down → (s.port p).enabled = true →
      ∃ t, exec (.lightDetected p) s = .next t ∧
      t.port p = { s.port p with st := .training, enabled := true, trainSince := s.now, returns := 0 } ∧
      (∀ q, q ≠ p → t.port q = s.port q) ∧
      (∀ j ∈ portCircuits s p, t.lane (p / 8) j =
        { s.lane (p / 8) j with st := .training, cdr := false, eq := false, alock := false, slip := 0, failed := false, joining := none })
        ∧
      OnlyChanges [.ports] s t) ∧
  (∀ (p : Nat) (s : State),
    portCan s p = true → (s.port p).st = .dormant → (s.port p).settled = true → shedHolds s p = false →
      ∃ t, exec (.lightDetected p) s = .next t ∧ t.port p = { s.port p with waking := true } ∧
      (∀ q, q ≠ p → t.port q = s.port q) ∧ OnlyChanges [.ports] s t) ∧
  (∀ (e p : Nat) (l : LaneLock) (s : State),
    p = portAt s e (s.lane e l.circuit).pos → (s.lane e l.circuit).st = .training → (s.lane e l.circuit).pos < 32 →
    (s.lane e l.circuit).joining = none → (s.port p).st = .training →
      ∃ t, exec (.laneConverged e l) s = .next t ∧
      t.lane e l.circuit = { s.lane e l.circuit with cdr := true, eq := (s.lane e l.circuit).eq || l.eq } ∧
      (t.port p).st = (if (portCircuits s p).all (fun i => (s.lane e i).eq || (i == l.circuit && l.eq)) && decide (laneMin s
        p ≤ (portCircuits s p).length) then .aligning else .training) ∧
      (∀ q, q ≠ p → t.port q = s.port q) ∧ OnlyChanges [.ports] s t) ∧
  (∀ (e k : Nat) (l : LaneLock) (s : State),
    (s.lane e l.circuit).st = .training → (s.lane e l.circuit).pos ≠ 0x3F → (s.lane e l.circuit).joining = some k →
      exec (.laneConverged e l) s = .next (s.onLane e l.circuit fun x => { x with cdr := true, eq := x.eq || l.eq })) ∧
  (∀ (e j n c p : Nat) (s : State),
    p = portAt s e (s.lane e j).pos → (s.lane e j).st = .training → (s.lane e j).pos < 32 → (s.lane e j).eq = true →
    (s.lane e j).joining = none → (s.port p).st = .aligning →
    (portCircuits s p).any (fun i => i != j && !(s.lane e i).alock) = true →
      ∃ t, exec (.laneAlock e j (.locked n c)) s = .next (settleLost s t) ∧
      t.lane e j = { s.lane e j with alock := true, lane := n % 8, skew := (codewordNow s + 256 - c % 256) % 256 } ∧
      t.port p = s.port p ∧ (∀ q, q ≠ p → t.port q = s.port q) ∧ OnlyChanges [.ports] s t) ∧
  (∀ (e j n c p : Nat) (u s : State),
    p = portAt s e (s.lane e j).pos → (s.lane e j).st = .training → (s.lane e j).pos < 32 → (s.lane e j).eq = true →
    (s.lane e j).joining = none → (s.port p).st = .aligning →
    (portCircuits s p).all (fun i => i == j || (s.lane e i).alock) = true →
    (u = s.onLane e j fun x => { x with alock := true, lane := n % 8, skew := (codewordNow s + 256 - c % 256) % 256 }) →
    lanesOrdered u p = true → lanesDeskew u p = true → (s.port p).katHeld = false → (s.port p).settled = false →
    (s.port p).waking = false →
      ∃ t, exec (.laneAlock e j (.locked n c)) s = .next (settleLost s t) ∧ (t.port p).st = .identifying ∧
      (t.port p).ident = [] ∧ (t.port p).keyed = false ∧ (t.port p).replay.map SentFrame.item = [.ident (identBody s p)] ∧
      (t.port p).replay.map SentFrame.seq = [1] ∧ (t.port p).replay.all (frameSent t p) = true ∧
      (∀ q, q ≠ p → t.port q = s.port q) ∧ OnlyChanges [.ports, .key, .out] s t) ∧
  (∀ (e mask : Nat) (s : State),
    s.lania.up = true → domainOn s e = true →
    (∀ j ∈ List.range 34, bitOf mask j = true → (s.lane e j).slip ≠ 5439 ∨ (s.lane e j).pos = 0x3F ∨ (s.port (portAt s e
      (s.lane e j).pos)).st ≠ .aligning) →
      ∃ t, exec (.portSlipCmd e mask) s = .next (regAck St.ok t) ∧
      (∀ j, j < 34 → t.lane e j = if bitOf mask j then
        { s.lane e j with slip := ((s.lane e j).slip + 1) % 5440, alock := false } else s.lane e j) ∧
      (∀ q, t.port q = s.port q) ∧ OnlyChanges [.ports] s t) ∧
  (∀ (e mask j p : Nat) (s : State),
    s.lania.up = true → domainOn s e = true → j < 34 → bitOf mask j = true → (s.lane e j).slip = 5439 →
    (s.lane e j).pos ≠ 0x3F → p = portAt s e (s.lane e j).pos → (s.port p).st = .aligning →
      ∃ t, exec (.portSlipCmd e mask) s = .next (regAck St.ok t) ∧
      ((s.port p).returns < 2 → t.port p =
        { s.port p with st := .training, enabled := true, trainSince := s.now, returns := (s.port p).returns + 1 }) ∧
      (2 ≤ (s.port p).returns → (t.port p).st = .down ∧ (t.port p).enabled = false) ∧
      OnlyChanges [.ports, .counters, .log, .dict, .out] s t) ∧
  (∀ (p : Nat) (s : State),
    firmwareDown s = false → ((s.port p).st = .training ∨ (s.port p).st = .aligning) →
    (s.port p).trainSince + 20000000 < s.now → (s.port p).returns < 2 →
      ∃ t, exec (.trainingTimeout p) s = .next t ∧
      t.port p = { s.port p with st := .training, enabled := true, trainSince := s.now, returns := (s.port p).returns + 1 }
        ∧
      (∀ q, q ≠ p → t.port q = s.port q) ∧
      (∀ j ∈ portCircuits s p, t.lane (p / 8) j =
        { s.lane (p / 8) j with st := .training, cdr := false, eq := false, alock := false, slip := 0, failed := false, joining := none })
        ∧
      OnlyChanges [.ports] s t) ∧
  (∀ (p : Nat) (s : State),
    firmwareDown s = false → ((s.port p).st = .training ∨ (s.port p).st = .aligning) →
    (s.port p).trainSince + 20000000 < s.now → 2 ≤ (s.port p).returns →
      ∃ t, exec (.trainingTimeout p) s = .next t ∧
      t.port p = { enabled := false, peer := (s.port p).peer, katHeld := (s.port p).katHeld, eyes := (s.port p).eyes } ∧
      (∀ q, q ≠ p → t.port q = s.port q) ∧ Logged 0x3107 [p, trainStep s p] s t ∧
      OnlyChanges [.ports, .counters, .log, .dict, .out] s t) ∧
  (∀ (f : FrameIn) (p r : Nat) (body : List Byte) (v s : State),
    FrameTaken s f → v = frameIn s f → p = f.light.port → (v.port p).st = .identifying → hubIdObj v ≠ 0xFFFF →
    planeObj v ≠ 0xFF → takePad 64 body = body → body ≠ [] → identFails v p body = some r →
      ∃ t, exec (.identFrame f body) s = .next (settle t) ∧ (t.port p).st = .fallow ∧ (t.port p).reason = r ∧
      (t.port p).ident = body ∧ (t.port p).rxSeq = f.seq % 4096 ∧ (∀ q, q ≠ p → t.port q = v.port q) ∧
      OnlyChanges [.ports, .counters, .log, .dict, .out] v t) ∧
  (∀ (f : FrameIn) (p : Nat) (body : List Byte) (v s : State),
    FrameTaken s f → v = frameIn s f → p = f.light.port → (v.port p).st = .identifying → hubIdObj v ≠ 0xFFFF →
    planeObj v ≠ 0xFF → takePad 64 body = body → body ≠ [] → identFails v p body = none → wiringKind v p = 1 →
    (v.port p).keyed = true → portPlot v p ≠ 0xFF →
      ∃ t, exec (.identFrame f body) s = .next (settle t) ∧ (t.port p).st.serves = true ∧ (t.port p).reason = 0 ∧
      (t.port p).peer = body ∧ (t.port p).credits = { mem := 32, sig := 8, msg := 16, red := 16 } ∧
      (t.port p).rxSeq = f.seq % 4096 ∧ (∀ q, q ≠ p → t.port q = v.port q) ∧
      OnlyChanges [.ports, .counters, .log, .dict, .out] v t) ∧
  (∀ (p : Nat) (s : State),
    (s.port p).st = .identifying → (s.port p).planWait = none → (s.port p).ident = [] →
    (s.port p).identSent + 10000 ≤ s.now →
      ∃ t, exec (.identResend p) s = .next t ∧ (t.port p).identSent = s.now ∧ (t.port p).st = .identifying ∧
      (Output.link p (nextFrame s p (.ident (identBody s p))) (s.port p).blockNo ∈ t.out ∨ LinkItem.ident (identBody s p) ∈
        (t.port p).held) ∧
      (∀ q, q ≠ p → t.port q = s.port q) ∧ OnlyChanges [.ports, .key, .out] s t) ∧
  (∀ (p w : Nat) (s : State),
    (s.port p).planWait = some w → (s.port p).st = .identifying → (s.port p).planRaised = false → w + 100000000 ≤ s.now →
      ∃ t, exec (.planWaitTimeout p) s = .next t ∧ t.port p = { s.port p with planRaised := true } ∧
      (∀ q, q ≠ p → t.port q = s.port q) ∧ Logged 0x3106 [p, fieldAt (s.port p).ident 24 8, cfg 0x320101 0 s] s t ∧
      OnlyChanges [.ports, .counters, .log, .dict, .out] s t) ∧
  (∀ (dict : Bool) (p : Nat) (s : State),
    (dict = false → s.lania.up = true ∧ domainOn s (p / 8) = true) → (portCan s p = false ∨ (s.port p).st ≠ .down) →
      exec (.portEnable dict p) s = .next (settle (if dict then s else regAck St.ok (s.onPorts fun x =>
        { x with cmdStatus := x.cmdStatus.set (p / 8) St.state })))) ∧
  (∀ (dict : Bool) (p : Nat) (s : State),
    (dict = false → s.lania.up = true ∧ domainOn s (p / 8) = true) → (portCan s p = false ∨ (s.port p).st = .down) →
      exec (.portDisable dict p) s = .next (settle (if dict then s else regAck St.ok (s.onPorts fun x =>
        { x with cmdStatus := x.cmdStatus.set (p / 8) St.state })))) ∧
  (∀ (dict : Bool) (p : Nat) (s : State),
    (dict = false → s.lania.up = true ∧ domainOn s (p / 8) = true) → (portCan s p = false ∨ canSleep s p = false) →
      exec (.portDormant dict p) s = .next (settle (if dict then s else regAck St.ok (s.onPorts fun x =>
        { x with cmdStatus := x.cmdStatus.set (p / 8) St.state })))) ∧
  (∀ (dict : Bool) (p : Nat) (s : State),
    (dict = false → s.lania.up = true ∧ domainOn s (p / 8) = true) →
    (portCan s p = false ∨ (s.port p).st ≠ .dormant ∨ shedHolds s p = true) →
      exec (.portWake dict p) s = .next (settle (if dict then s else regAck St.ok (s.onPorts fun x =>
        { x with cmdStatus := x.cmdStatus.set (p / 8) St.state })))) ∧
  (∀ (dict : Bool) (p : Nat) (s : State),
    (dict = false → s.lania.up = true ∧ domainOn s (p / 8) = true) →
    (portCan s p = false ∨ ((s.port p).st ≠ .identifying ∧ (s.port p).st.serves = false)) →
      exec (.portHold dict p) s = .next (settle (if dict then s else regAck St.ok (s.onPorts fun x =>
        { x with cmdStatus := x.cmdStatus.set (p / 8) St.state })))) ∧
  (∀ (dict : Bool) (p : Nat) (s : State),
    (dict = false → s.lania.up = true ∧ domainOn s (p / 8) = true) → (portCan s p = false ∨ (s.port p).st ≠ .fallow) →
      exec (.portRelease dict p) s = .next (settle (if dict then s else regAck St.ok (s.onPorts fun x =>
        { x with cmdStatus := x.cmdStatus.set (p / 8) St.state })))) ∧
  (∀ (dict : Bool) (p : Nat) (u s : State),
    (dict = false → s.lania.up = true) → portCan s p = true → (s.port p).st = .fallow → (s.port p).ident ≠ [] →
    (u = compareIdent p (s.onPort p fun y => { y with st := .identifying, reason := 0, katHeld := false })) →
      exec (.portRelease dict p) s = .next (settle (if dict then u else regAck St.ok (u.onPorts fun x =>
        { x with cmdStatus := x.cmdStatus.set (p / 8) St.ok })))) ∧
  (∀ (p : Nat) (s : State),
    (portCan s p = false ∨ ((s.port p).st ≠ .down ∧ (s.port p).st ≠ .dormant) ∨ ((s.port p).st = .down ∧ (s.port p).enabled
      = false) ∨ ((s.port p).st = .dormant ∧ ((s.port p).settled = false ∨ shedHolds s p = true))) →
      exec (.lightDetected p) s = .next s) ∧
  (∀ (e : Nat) (l : LaneLock) (s : State),
    ((s.lane e l.circuit).st ≠ .training ∨ (s.lane e l.circuit).pos = 0x3F ∨ ((s.lane e l.circuit).joining = none ∧ (s.port
      (portAt s e (s.lane e l.circuit).pos)).st ≠ .training)) →
      exec (.laneConverged e l) s = .next s) ∧
  (∀ (e j n c : Nat) (s : State),
    ((s.lane e j).st ≠ .training ∨ (s.lane e j).eq = false ∨ (s.lane e j).pos = 0x3F ∨ ((s.lane e j).joining = none ∧
      (s.port (portAt s e (s.lane e j).pos)).st ≠ .aligning)) →
      exec (.laneAlock e j (.locked n c)) s = .next s) ∧
  (∀ (e j : Nat) (s : State),
    (s.lane e j).pos = 0x3F →
      exec (.laneAlock e j .lost) s = .next s) ∧
  (∀ (e j n c p : Nat) (u s : State),
    p = portAt s e (s.lane e j).pos → (s.lane e j).st = .training → (s.lane e j).pos < 32 → (s.lane e j).eq = true →
    (s.lane e j).joining = none → (s.port p).st = .aligning →
    (portCircuits s p).all (fun i => i == j || (s.lane e i).alock) = true →
    (u = s.onLane e j fun x => { x with alock := true, lane := n % 8, skew := (codewordNow s + 256 - c % 256) % 256 }) →
    lanesOrdered u p = true → lanesDeskew u p = true →
      exec (.laneAlock e j (.locked n c)) s = .next (settleLost s (portIdentifies p u))) ∧
  (∀ (e j n c p : Nat) (u s : State),
    p = portAt s e (s.lane e j).pos → (s.lane e j).st = .training → (s.lane e j).pos < 32 → (s.lane e j).eq = true →
    (s.lane e j).joining = none → (s.port p).st = .aligning →
    (portCircuits s p).all (fun i => i == j || (s.lane e i).alock) = true →
    (u = s.onLane e j fun x => { x with alock := true, lane := n % 8, skew := (codewordNow s + 256 - c % 256) % 256 }) →
    (lanesOrdered u p = false ∨ lanesDeskew u p = false) →
      exec (.laneAlock e j (.locked n c)) s = .next (settleLost s u)) ∧
  (∀ (e j n c k : Nat) (s : State),
    (s.lane e j).st = .training → (s.lane e j).pos ≠ 0x3F → (s.lane e j).eq = true → (s.lane e j).joining = some k →
      exec (.laneAlock e j (.locked n c)) s = .next (settleLost s (s.onLane e j fun x =>
        { x with alock := true, lane := n % 8, skew := (codewordNow s + 256 - c % 256) % 256 }))) ∧
  (∀ (e j : Nat) (s : State),
    (s.lane e j).pos ≠ 0x3F →
      exec (.laneAlock e j .lost) s = .next (settleLost s (laneFails e j false (s.onLane e j fun x =>
        { x with alock := false })))) ∧
  (∀ (e j p : Nat) (s : State),
    p = portAt s e (s.lane e j).pos → (s.lane e j).pos ≠ 0x3F → (s.port p).st.holds = false →
      ∃ t, exec (.laneAlock e j .lost) s = .next (settleLost s t) ∧ t.lane e j = { s.lane e j with alock := false } ∧
      (∀ q, t.port q = s.port q) ∧ OnlyChanges [.ports] s t) ∧
  (∀ (e mask : Nat) (s : State),
    s.lania.up = true → domainOn s e = false →
      exec (.portSlipCmd e mask) s = .next (regAck St.state s)) ∧
  (∀ (p : Nat) (s : State),
    (firmwareDown s = true ∨ ((s.port p).st ≠ .training ∧ (s.port p).st ≠ .aligning) ∨ s.now ≤ (s.port p).trainSince +
      20000000) →
      exec (.trainingTimeout p) s = .next s) ∧
  (∀ (f : FrameIn) (p : Nat) (body : List Byte) (v s : State),
    FrameTaken s f → v = frameIn s f → p = f.light.port → (v.port p).st ≠ .identifying →
      exec (.identFrame f body) s = .next (settle v)) ∧
  (∀ (f : FrameIn) (p : Nat) (body : List Byte) (v s : State),
    FrameTaken s f → v = frameIn s f → p = f.light.port → (v.port p).st = .identifying →
      exec (.identFrame f body) s = .next (settle (compareIdent p (v.onPort p fun x =>
        { x with ident := takePad 64 body })))) ∧
  (∀ (f : FrameIn) (body : List Byte) (s : State),
    ¬FrameTaken s f →
      exec (.identFrame f body) s = exec (.gyciaFrame f.light f.seq 0 f.intact f.tagOk []) s) ∧
  (∀ (p w : Nat) (s : State),
    (s.port p).st = .identifying → (s.port p).planWait = some w → (s.port p).identSent + 1000000 ≤ s.now →
      ∃ t, exec (.identResend p) s = .next t ∧ (t.port p).identSent = s.now ∧ (∀ q, q ≠ p → t.port q = s.port q) ∧
      OnlyChanges [.ports, .key, .out] s t) ∧
  (∀ (p : Nat) (s : State),
    ((s.port p).st ≠ .identifying ∨ s.now < (s.port p).identSent + 10000 ∨ ((s.port p).planWait.isSome = true ∧ s.now <
      (s.port p).identSent + 1000000) ∨ ((s.port p).planWait = none ∧ (s.port p).ident ≠ [])) →
      exec (.identResend p) s = .next s) ∧
  (∀ (p : Nat) (s : State),
    ((s.port p).st ≠ .identifying ∨ (s.port p).planRaised = true ∨ ∀ w ∈ (s.port p).planWait, s.now < w + 100000000) →
      exec (.planWaitTimeout p) s = .next s)

/-- A frame in sequence, intact and with a good tag under a key phase the hub holds, is acknowledged by a LINK frame, whatever its
kind; the far end's DORMANT frame is remembered; a DORMANT port's lanes are powered down once nothing is outstanding, and a port
with records left 1 ms after DORMANT is lost with cause 3; the wake sequence makes it ACTIVE, or FALLOW with its plot gone. The
blocks that come with a frame pass the lane's elastic buffer: a FILLER is deleted, and a control block of an unknown type is
discarded and counted (R328). A frame that is not intact is counted and answered with NAK, the eighth for one SEQ beginning a
retrain, as is one whose tag fails; the packets of a GYCIA frame in sequence enter the hub at the port, or on an uplink are
refused with a PLOT not its own, and a reserved KIND brings nothing (log entry 56); an earlier one is dropped, a later one
answered with NAK once. A LINK frame removes what it acknowledges from the replay buffer and adds the freed cells to the
credits; a lane it shows unlocked for 10 us fails, as does one with more than 16 bad codewords in 1 ms; one with NAK has the
rest sent again, and the eighth starts a retrain. A LINK frame is sent at least once per us. 20 us without progress start a
retrain with cause 1. A retrain that completes sends the replay buffer again, with LINK_RETRAIN; one that runs out of time loses
the port with cause 2. What is not due, or on a link that is down, changes nothing. -/
def Obligations.LinksCarryFrames : Prop :=
  (∀ (f : FrameIn) (p : Nat) (u : State) (l : LinkKey) (v s : State),
    FrameTaken s f → p = f.light.port → u = blocksArrive p f.light.blocks s → v = frameIn s f →
    l = (u.key.links.find p).getD {} →
      v.port p =
        { u.port p with rxSeq := f.seq % 4096, nakSent := false, linkSent := u.now, freedSent := (u.port p).freed, naksOut := 0, blockNo := (u.port p).blockNo + 3 }
        ∧
      Output.linkFrame p (f.seq % 4096) false (u.port p).freed.wrap (rxLock u p) l.phase l.txCount ∈ v.out ∧
      (∀ q, q ≠ p → v.port q = u.port q) ∧ OnlyChanges [.ports, .key, .out] u v) ∧
  (∀ (f : FrameIn) (p : Nat) (v s : State),
    FrameTaken s f → v = frameIn s f → p = f.light.port →
      exec (.dormantFrame f) s = .next (settle (if (v.port p).st = .dormant ∨ (v.port p).st.serves then v.onPort p fun x =>
        { x with farDormant := true } else v))) ∧
  (∀ (f : FrameIn) (s : State),
    ¬FrameTaken s f →
      exec (.dormantFrame f) s = exec (.gyciaFrame f.light f.seq 0 f.intact f.tagOk []) s) ∧
  (∀ (f : FrameIn) (chain pub sig : List Byte) (far : Bool) (s : State),
    ¬FrameTaken s f →
      exec (.keyxFrame f chain pub sig far) s = exec (.gyciaFrame f.light f.seq 0 f.intact f.tagOk []) s) ∧
  (∀ (p : Nat) (s : State),
    (s.port p).st = .dormant → (s.port p).settled = false → (s.port p).waking = false → (s.port p).farDormant = true →
    (s.port p).replay = [] → s.records p = [] →
      ∃ t, exec (.dormantSettle p) s = .next t ∧ t.port p = { s.port p with settled := true, dormantSince := none } ∧
      (∀ j ∈ portCircuits s p, (s.lane (p / 8) j).failed = false → t.lane (p / 8) j =
        { s.lane (p / 8) j with st := .dormant, cdr := false }) ∧
      (∀ q, q ≠ p → t.port q = s.port q) ∧ OnlyChanges [.ports] s t) ∧
  (∀ (p d : Nat) (s : State),
    (s.port p).dormantSince = some d → (s.port p).st = .dormant → (s.port p).settled = false → s.records p ≠ [] →
    d + 1000000 ≤ s.now →
      ∃ t, exec (.dormantTimeout p) s = .next (settle t) ∧ Logged 0x3101 [p, 3, (soundCircuits s p).length] s t ∧
      t.port p =
        { enabled := (s.port p).enabled, peer := (s.port p).peer, katHeld := (s.port p).katHeld, eyes := (s.port p).eyes } ∧
      t.records p = [] ∧ t.key.links.find p = none) ∧
  (∀ (p : Nat) (s : State),
    (s.port p).st = .dormant → (s.port p).waking = true → (s.port p).held = [] → repliesAt s p = 0 → portPlot s p ≠ 0xFF →
      ∃ t, exec (.wakeSequenceDone p) s = .next (settle t) ∧
      t.port p =
        { s.port p with st := .active, waking := false, settled := false, dormantSince := none, farDormant := false, ackTime := s.now, dealt := (t.port p).dealt }
        ∧
      (∀ i, i ∈ (t.port p).dealt ↔ ∃ j ∈ soundCircuits s p, i = (s.lane (p / 8) j).pos - 4 * (p % 8)) ∧
      (∀ j ∈ soundCircuits s p, t.lane (p / 8) j = { s.lane (p / 8) j with st := .active, cdr := true }) ∧
      (∀ q, q ≠ p → t.port q = s.port q) ∧ OnlyChanges [.ports] s t) ∧
  (∀ (l : Light) (p seq plot : Nat) (tagOk : Bool) (ks : List Packet) (u : State) (k : LinkKey) (s : State),
    p = l.port → u = blocksArrive p l.blocks s → linkUp u p = true → (u.port p).naksOut < 7 →
    k = (u.key.links.find p).getD {} →
      ∃ t, exec (.gyciaFrame l seq plot false tagOk ks) s = .next (settle t) ∧
      counter t (0xC42200 + p + 1) = counter u (0xC42200 + p + 1) + 1 ∧
      t.port p =
        { u.port p with nakSent := true, linkSent := u.now, freedSent := (u.port p).freed, naksOut := (u.port p).naksOut + 1, blockNo := (u.port p).blockNo + 3 }
        ∧
      Output.linkFrame p (u.port p).rxSeq true (u.port p).freed.wrap (rxLock u p) k.phase k.txCount ∈ t.out ∧
      (∀ q, q ≠ p → t.port q = u.port q) ∧ OnlyChanges [.ports, .key, .out, .counters] u t) ∧
  (∀ (l : Light) (p seq plot : Nat) (tagOk : Bool) (ks : List Packet) (u s : State),
    p = l.port → u = blocksArrive p l.blocks s → linkUp u p = true → 7 ≤ (u.port p).naksOut → (u.port p).retrain = none →
      ∃ t, exec (.gyciaFrame l seq plot false tagOk ks) s = .next (settle t) ∧ (t.port p).retrain = some (u.now, 0) ∧
      (t.port p).naksOut = 0 ∧ counter t (0xC42500 + p + 1) = counter u (0xC42500 + p + 1) + 1 ∧
      (∀ q, q ≠ p → t.port q = u.port q) ∧ OnlyChanges [.ports, .key, .out, .counters] u t) ∧
  (∀ (l : Light) (f : FrameIn) (p seq op : Nat) (h : Header) (data : List Byte) (v s : State),
    p = l.port → l.kind = 0 → f = { light := l, seq } → FrameTaken s f → v = frameIn s f → isUplink v p = false →
      exec (.gyciaFrame l seq h.plot true true [.request op h data]) s = .next (settle (serve
        { via := .port p, op, h, data } v))) ∧
  (∀ (l : Light) (p ack mem sig msg red lock : Nat) (f : SentFrame) (a m : List SentFrame) (u s : State),
    p = l.port → u = blocksArrive p l.blocks s → linkUp u p = true → (u.port p).held = [] → repliesAt u p = 0 →
    ∀ i ∈ (u.port p).dealt, bitOf (lock % 256) i = true → (u.port p).replay = a ++ f :: m → f.seq = ack % 4096 →
    ∀ g ∈ a, g.seq ≠ ack % 4096 →
      ∃ t, exec (.linkFrame l ack false mem sig msg red lock) s = .next (settle t) ∧ (t.port p).replay = m ∧
      (t.port p).ackSeq = ack % 4096 ∧ (t.port p).ackTime = u.now ∧ (t.port p).naks = 0 ∧
      (t.port p).credits =
        { mem := (u.port p).credits.mem + returned mem (u.port p).farFreed.mem, sig := (u.port p).credits.sig + returned sig (u.port p).farFreed.sig, msg := (u.port p).credits.msg + returned msg (u.port p).farFreed.msg, red := (u.port p).credits.red + returned red (u.port p).farFreed.red }
        ∧
      (t.port p).farFreed = { mem := mem % 2 ^ 32, sig := sig % 2 ^ 32, msg := msg % 2 ^ 32, red := red % 2 ^ 32 } ∧
      (t.port p).farLock = lock % 256 ∧ (∀ q, q ≠ p → t.port q = u.port q) ∧ OnlyChanges [.ports, .key] u t) ∧
  (∀ (l : Light) (p ack mem sig msg red lock i j d : Nat) (u s : State),
    p = l.port → u = blocksArrive p l.blocks s → linkUp u p = true → (u.port p).st.holds = true → i ∈ (u.port p).dealt →
    bitOf (lock % 256) i = false → (u.port p).farDark.find i = some d → d + 10000 ≤ u.now → laneCircuit u p i = some j →
    portAt u (p / 8) (u.lane (p / 8) j).pos = p → (u.lane (p / 8) j).failed = false →
      ∃ t, exec (.linkFrame l ack false mem sig msg red lock) s = .next (settle t) ∧
      ((t.lane (p / 8) j).failed = true ∨ (t.port p).st = .down)) ∧
  (∀ (l : Light) (p ack mem sig msg red lock : Nat) (u s : State),
    p = l.port → u = blocksArrive p l.blocks s → linkUp u p = true → ∀ f ∈ (u.port p).replay, f.seq ≠ ack % 4096 →
    ∀ i ∈ (u.port p).dealt, bitOf (lock % 256) i = true → (u.port p).retrain = none → 7 ≤ (u.port p).naks →
      ∃ t, exec (.linkFrame l ack true mem sig msg red lock) s = .next (settle t) ∧ (t.port p).retrain = some (u.now, 0) ∧
      (t.port p).naks = 0 ∧ (t.port p).replay = (u.port p).replay ∧ (∀ f ∈ (u.port p).replay, frameSent t p f = true) ∧
      counter t (0xC42500 + p + 1) = counter u (0xC42500 + p + 1) + 1 ∧ (∀ q, q ≠ p → t.port q = u.port q) ∧
      OnlyChanges [.ports, .out, .counters] u t) ∧
  (∀ (p : Nat) (k : LinkKey) (s : State),
    linkUp s p = true → ((s.port p).nakSent = false ∨ (s.port p).naksOut < 7) → k = (s.key.links.find p).getD {} →
    (s.port p).linkSent + 1000 ≤ s.now →
      ∃ t, exec (.linkFrameTimer p) s = .next t ∧
      t.port p =
        { s.port p with linkSent := s.now, freedSent := (s.port p).freed, naksOut := if (s.port p).nakSent then (s.port p).naksOut + 1 else 0, blockNo := (s.port p).blockNo + 3 }
        ∧
      Output.linkFrame p (s.port p).rxSeq (s.port p).nakSent (s.port p).freed.wrap (rxLock s p) k.phase k.txCount ∈ t.out ∧
      (∀ q, q ≠ p → t.port q = s.port q) ∧ OnlyChanges [.ports, .key, .out] s t) ∧
  (∀ (p : Nat) (s : State),
    linkUp s p = true → (s.port p).retrain = none → (s.port p).replay ≠ [] → (s.port p).ackTime + 20000 ≤ s.now →
      ∃ t, exec (.ackStallTimeout p) s = .next t ∧
      t.port p = { s.port p with retrain := some (s.now, 1), naks := 0, naksOut := 0 } ∧
      counter t (0xC42500 + p + 1) = counter s (0xC42500 + p + 1) + 1 ∧ (∀ q, q ≠ p → t.port q = s.port q) ∧
      OnlyChanges [.ports, .counters] s t) ∧
  (∀ (p d c : Nat) (s : State),
    (s.port p).retrain = some (d, c) → (s.port p).held = [] → repliesAt s p = 0 →
      ∃ t, exec (.retrainComplete p) s = .next t ∧
      t.port p = { s.port p with retrain := none, naks := 0, naksOut := 0, ackTime := s.now, blockNo := (t.port p).blockNo }
        ∧
      (∀ f ∈ (s.port p).replay, frameSent t p f = true) ∧
      counter t (0xC42300 + p + 1) = counter s (0xC42300 + p + 1) + (s.port p).replay.length ∧
      Logged 0x3108 [p, c, (s.now - d) / 1000] s t ∧ (∀ q, q ≠ p → t.port q = s.port q) ∧
      OnlyChanges [.ports, .counters, .log, .dict, .out] s t) ∧
  (∀ (p d c : Nat) (s : State),
    (s.port p).retrain = some (d, c) → d + 1000 * cfg 0x302002 2000 s ≤ s.now →
      ∃ t, exec (.retrainTimeout p) s = .next (settle t) ∧ Logged 0x3101 [p, 2, (soundCircuits s p).length] s t ∧
      t.port p =
        { enabled := (s.port p).enabled, peer := (s.port p).peer, katHeld := (s.port p).katHeld, eyes := (s.port p).eyes } ∧
      t.records p = [] ∧ t.key.links.find p = none) ∧
  (∀ (p : Nat) (s : State),
    ((s.port p).st ≠ .dormant ∨ (s.port p).settled = true ∨ (s.port p).waking = true ∨ (s.port p).farDormant = false ∨
      (s.port p).replay ≠ [] ∨ s.records p ≠ []) →
      exec (.dormantSettle p) s = .next s) ∧
  (∀ (p : Nat) (s : State),
    ((s.port p).st ≠ .dormant ∨ (s.port p).settled = true ∨ s.records p = [] ∨ ∀ d ∈ (s.port p).dormantSince, s.now < d +
      1000000) →
      exec (.dormantTimeout p) s = .next (settle s)) ∧
  (∀ (p : Nat) (s : State),
    ((s.port p).st ≠ .dormant ∨ (s.port p).waking = false) →
      exec (.wakeSequenceDone p) s = .next (settle s)) ∧
  (∀ (p : Nat) (u s : State),
    (s.port p).st = .dormant → (s.port p).waking = true →
    (u = setCdr p true (s.onPort p fun y =>
      { y with st := .active, waking := false, settled := false, dormantSince := none, farDormant := false, ackTime := s.now }))
      →
      exec (.wakeSequenceDone p) s = .next (settle (if portPlot u p = 0xFF then portFallow p 7 u else linkDrain p (dealLanes
        p (setLanes p .active u))))) ∧
  (∀ (l : Light) (p seq plot : Nat) (intact tagOk : Bool) (ks : List Packet) (u s : State),
    p = l.port → u = blocksArrive p l.blocks s → linkUp u p = false →
      exec (.gyciaFrame l seq plot intact tagOk ks) s = .next (settle u)) ∧
  (∀ (l : Light) (p ack mem sig msg red lock : Nat) (nak : Bool) (u s : State),
    p = l.port → u = blocksArrive p l.blocks s → linkUp u p = false →
      exec (.linkFrame l ack nak mem sig msg red lock) s = .next (settle u)) ∧
  (∀ (p lane ty ack mem sig msg red lock : Nat) (nak : Bool) (u s : State),
    portLit s p = true → lane < laneCount s p → ty ∉ [0x1E, 0x2D, 0x4B, 0x55, 0x78] →
    (s.port p).elastic.find lane = some (.control ty :: List.replicate 31 .data) →
    (u = bump (0xC42400 + p + 1) 1 (s.onPort p fun x => { x with elastic := x.elastic.set lane (List.replicate 32 .data) }))
      →
      exec (.linkFrame { port := p, blocks := [(lane, [.control 0x1E, .data])] } ack nak mem sig msg red lock) s = .next
        (settle (linkArrives p ack nak mem sig msg red lock u))) ∧
  (∀ (p lane ack mem sig msg red lock : Nat) (nak : Bool) (u s : State),
    portLit s p = true → lane < laneCount s p → ((s.port p).badCodes.getD lane []).length = 16 →
    ∀ t ∈ (s.port p).badCodes.getD lane [], s.now < t + 1000000 → (s.port p).elastic.getD lane [] = [] →
    (u = laneDies p lane ((bump (0xC42100 + p + 1) 1 s).onPort p fun x =>
      { x with badCodes := x.badCodes.set lane (s.now :: (s.port p).badCodes.getD lane []) })) →
      exec (.linkFrame { port := p, blocks := [(lane, [.codeword none])] } ack nak mem sig msg red lock) s = .next (settle
        (linkArrives p ack nak mem sig msg red lock u))) ∧
  (∀ (l : Light) (p seq plot : Nat) (tagOk : Bool) (ks : List Packet) (u s : State),
    p = l.port → u = blocksArrive p l.blocks s → linkUp u p = true → (tagOk = false ∨ phaseHeld u p l.phase = false) →
      exec (.gyciaFrame l seq plot true tagOk ks) s = .next (settle (sendNak p (tagFails p u)))) ∧
  (∀ (l : Light) (f : FrameIn) (p seq plot : Nat) (ks : List Packet) (v s : State),
    p = l.port → f = { light := l, seq } → FrameTaken s f → v = frameIn s f → l.kind = 0 →
    (isUplink v p = false ∨ ∀ k ∈ ks, Packet.plot k = plot ∧ plot = portPlot v p) →
      exec (.gyciaFrame l seq plot true true ks) s = .next (settle (forAll ks (packetEnters p) v))) ∧
  (∀ (l : Light) (f : FrameIn) (p seq plot : Nat) (ks : List Packet) (v s : State),
    p = l.port → f = { light := l, seq } → FrameTaken s f → v = frameIn s f → l.kind ≠ 0 →
      exec (.gyciaFrame l seq plot true true ks) s = .next (settle v)) ∧
  (∀ (l : Light) (f : FrameIn) (p seq plot : Nat) (ks : List Packet) (v s : State),
    p = l.port → f = { light := l, seq } → FrameTaken s f → v = frameIn s f → l.kind = 0 → isUplink v p = true →
    (∃ k ∈ ks, Packet.plot k ≠ plot ∨ plot ≠ portPlot v p) →
      exec (.gyciaFrame l seq plot true true ks) s = .next (settle (forAll ks (packetRefused p) v))) ∧
  (∀ (l : Light) (p seq plot : Nat) (ks : List Packet) (u s : State),
    p = l.port → u = blocksArrive p l.blocks s → linkUp u p = true → phaseHeld u p l.phase = true →
    ((u.port p).rxSeq + 4096 - seq % 4096) % 4096 < 2048 →
      exec (.gyciaFrame l seq plot true true ks) s = .next (settle u)) ∧
  (∀ (l : Light) (p seq plot : Nat) (ks : List Packet) (u s : State),
    p = l.port → u = blocksArrive p l.blocks s → linkUp u p = true → phaseHeld u p l.phase = true →
    seq % 4096 ≠ ((u.port p).rxSeq + 1) % 4096 → 2048 ≤ ((u.port p).rxSeq + 4096 - seq % 4096) % 4096 →
      exec (.gyciaFrame l seq plot true true ks) s = .next (settle (if (u.port p).nakSent then u else sendNak p u))) ∧
  (∀ (l : Light) (p ack mem sig msg red lock : Nat) (u s : State),
    p = l.port → u = blocksArrive p l.blocks s → linkUp u p = true → ∀ f ∈ (u.port p).replay, f.seq ≠ ack % 4096 →
    ∀ i ∈ (u.port p).dealt, bitOf (lock % 256) i = true → (u.port p).retrain = none → (u.port p).naks < 7 →
      ∃ t, exec (.linkFrame l ack true mem sig msg red lock) s = .next (settle (linkDrain p t)) ∧
      (t.port p).naks = (u.port p).naks + 1 ∧ (∀ f ∈ (u.port p).replay, frameSent t p f = true)) ∧
  (∀ (p : Nat) (s : State),
    (linkUp s p = false ∨ s.now < (s.port p).linkSent + 1000) →
      exec (.linkFrameTimer p) s = .next s) ∧
  (∀ (p : Nat) (s : State),
    (linkUp s p = false ∨ (s.port p).retrain.isSome = true ∨ (s.port p).replay = [] ∨ s.now < (s.port p).ackTime + 20000) →
      exec (.ackStallTimeout p) s = .next s) ∧
  (∀ (p : Nat) (s : State),
    (s.port p).retrain = none →
      exec (.retrainComplete p) s = .next s) ∧
  (∀ (p : Nat) (s : State),
    ∀ r ∈ (s.port p).retrain, s.now < r.1 + 1000 * cfg 0x302002 2000 s →
      exec (.retrainTimeout p) s = .next (settle s))

/-- A failed lane of a port in use is dealt nothing; with enough lanes left a serving port is DEGRADED, with PORT_DEGRADED and, when
the circuit is at fault, the engine's next spare steered to its position; with too few the port is lost with cause 0. A spare
that relocks takes the position over and the failed circuit is retired, with LANE_SPARED; a failed lane that relocks is in use
again; a DEGRADED port with all its lanes is ACTIVE. A port in use with too few lanes of signal is lost, one in training goes
DOWN. PORT_EYE_CMD starts a point on the circuits of its mask, or is refused; its end keeps the results; the periodic scan keeps
each lane's worst eye and reports a narrow one. The poll, of which a received power below LOS fails its lane, and a laser
input's change, keep the measures and their levels. What is not due, or tells of a lane or port not concerned, changes nothing. -/
def Obligations.LanesAndOptics : Prop :=
  (∀ (e j p n : Nat) (rx : Bool) (s : State),
    p = portAt s e (s.lane e j).pos → (s.lane e j).pos < 32 → j < 34 → (s.lane e j).failed = false →
    (s.port p).st.holds = true → n = ((soundCircuits s p).filter (fun i => i != j)).length → laneMin s p ≤ n →
    (s.port p).st.serves = true →
      ∃ t, exec (.laneFailure e j rx) s = .next (settle t) ∧ (t.port p).st = .degraded ∧ (t.port p).dealt.length = n ∧
      Logged 0x3102 [p, (s.lane e j).pos - 4 * (p % 8), b2n (!circuitFault s e (s.lane e j).pos rx)] s t ∧
      (∀ k, nextSpare s e = some k → k ≠ j → circuitFault s e (s.lane e j).pos rx = true → t.lane e k =
        { s.lane e k with st := .training, pos := (s.lane e j).pos, joining := some j, failed := true, cdr := false, eq := bitOf (features s p) 5, alock := false, slip := 0 }
        ∧ t.lane e j =
        { s.lane e j with st := .off, pos := 0x3F, failed := true, cdr := (s.lane e j).cdr && !rx, alock := false }) ∧
      ((nextSpare s e = none ∨ circuitFault s e (s.lane e j).pos rx = false) → t.lane e j =
        { s.lane e j with st := .training, failed := true, cdr := (s.lane e j).cdr && !rx, alock := false }) ∧
      (∀ q, q ≠ p → t.port q = s.port q) ∧ OnlyChanges [.ports, .counters, .log, .dict, .out] s t) ∧
  (∀ (e j p n : Nat) (rx : Bool) (s : State),
    p = portAt s e (s.lane e j).pos → (s.lane e j).pos < 32 → j < 34 → (s.lane e j).failed = false →
    (s.port p).st.holds = true → n = ((soundCircuits s p).filter (fun i => i != j)).length → n < laneMin s p →
      ∃ t, exec (.laneFailure e j rx) s = .next (settle t) ∧ (t.port p).st = .down ∧ Logged 0x3101 [p, 0, n] s t ∧
      t.records p = []) ∧
  (∀ (e j k p : Nat) (s : State),
    (s.lane e k).joining = some j → p = portAt s e (s.lane e k).pos → (s.lane e k).pos < 32 → j < 34 → k < 34 → j ≠ k →
    (bitOf (features s p) 5 = true ∨ ((s.lane e k).eq = true ∧ (s.lane e k).alock = true)) →
      ∃ t, exec (.spareJoined e k) s = .next t ∧
      t.lane e k =
        { s.lane e k with st := laneOf s p, joining := none, failed := false, cdr := true, eq := true, alock := true, lane := (s.lane e j).lane }
        ∧
      t.lane e j = { s.lane e j with retired := true, st := .off } ∧
      Logged 0x3103 [e, j, k, (s.lane e k).pos, sparesLeft t e] s t ∧ counter t 0xC40501 = counter s 0xC40501 + 1 ∧
      (t.port p).st = (if (s.port p).st = .degraded ∧ (soundCircuits t p).length = laneCount s p then .active else (s.port
        p).st) ∧
      OnlyChanges [.ports, .counters, .log, .dict, .out] s t) ∧
  (∀ (e j p : Nat) (s : State),
    p = portAt s e (s.lane e j).pos → (s.lane e j).pos < 32 → (s.lane e j).failed = true → (s.lane e j).retired = false →
    (s.lane e j).joining = none →
      ∃ t, exec (.laneRelock e j) s = .next t ∧
      t.lane e j = { s.lane e j with failed := false, cdr := true, eq := true, alock := true, st := laneOf s p } ∧
      (t.port p).st = (if (s.port p).st = .degraded ∧ (soundCircuits t p).length = laneCount s p then .active else (s.port
        p).st) ∧
      (∀ q, q ≠ p → t.port q = s.port q) ∧ OnlyChanges [.ports] s t) ∧
  (∀ (p lanes : Nat) (s : State),
    lanes < laneMin s p → (s.port p).st.holds = true →
      ∃ t, exec (.portLost p lanes) s = .next (settle t) ∧ (t.port p).st = .down ∧ (t.port p).enabled = (s.port p).enabled ∧
      Logged 0x3101 [p, 0, lanes] s t ∧ t.records p = [] ∧ t.key.links.find p = none) ∧
  (∀ (e lanes phase volt eye dwell : Nat) (s : State),
    s.lania.up = true → domainOn s e = true → eye < 3 → 16 ≤ dwell → dwell ≤ 40 →
      ∃ t, exec (.eyeScanPoint e lanes phase volt eye dwell) s = .next (regAck St.ok t) ∧
      t.ports.eyeRun.find e = some
        { mask := lanes % 2 ^ 34, phase := phase % 64, volt := volt % 128, eye, dwell, start := s.now } ∧
      t.ports.eyeCmd.find e = some { lanes, phase, volt, eye, dwell } ∧
      t.ports.eyeDone.getD e 0 = s.ports.eyeDone.getD e 0 - (s.ports.eyeDone.getD e 0 &&& lanes % 2 ^ 34) ∧
      t.ports.lanes = s.ports.lanes ∧ t.ports.ports = s.ports.ports ∧ OnlyChanges [.ports] s t) ∧
  (∀ (e lanes phase volt eye dwell : Nat) (s : State),
    s.lania.up = true → domainOn s e = true → (eye = 3 ∨ dwell < 16 ∨ 40 < dwell) →
      exec (.eyeScanPoint e lanes phase volt eye dwell) s = .next (regAck St.malformed (s.onPorts fun x =>
        { x with eyeCmd := x.eyeCmd.set e { lanes, phase, volt, eye, dwell } }))) ∧
  (∀ (e j v : Nat) (r : EyeRun) (s : State),
    s.ports.eyeRun.find e = some r → r.start + 2 ^ r.dwell * 2 / 425 ≤ s.now → j < 34 → bitOf r.mask j = true →
      ∃ t, exec (.eyePointDone e [(j, v)]) s = .next t ∧ t.ports.eyeRun = s.ports.eyeRun.erase e ∧
      t.ports.eyeDone.getD e 0 = s.ports.eyeDone.getD e 0 ||| r.mask ∧ t.ports.eyeResult.getD (34 * e + j) 0 = v % 2 ^ 40 ∧
      t.ports.ports = s.ports.ports ∧ t.ports.lanes = s.ports.lanes ∧ OnlyChanges [.ports] s t) ∧
  (∀ (p lane eye width height : Nat) (s : State),
    firmwareDown s = false → cfg 0x304001 3600 s ≠ 0 → s.ports.eyeScanned + cfg 0x304001 3600 s * 1000000000 ≤ s.now →
    lane ∈ (s.port p).dealt →
      ∃ t, exec (.eyeScanPeriod [(p, lane, eye, width, height)]) s = .next t ∧ t.ports.eyeScanned = s.now ∧
      (t.port p).eyes.find lane = some (width % 256, height % 256, eye) ∧
      (width < cfg 0x304002 12 s → Logged 0x3109 [p, lane, eye, width, height] s t) ∧ (∀ q, q ≠ p → t.port q = s.port q) ∧
      OnlyChanges [.ports, .counters, .log, .dict, .out] s t) ∧
  (∀ (e : Nat) (a b c : Int) (s : State),
    firmwareDown s = false → domainOn s e = true → s.ports.optPolled.getD e 0 + 10000000 ≤ s.now →
    levelOf (rxAt s a) (s.opt e 0).rxLevel ≠ 3 →
      ∃ t, exec (.optHealthPoll e [(a, b, c)] []) s = .next (settleLost s t) ∧
      t.opt e 0 =
        { rx := a, refl := b, tx := c, rxLevel := levelOf (rxAt s a) (s.opt e 0).rxLevel, reflLevel := levelOf (reflAt s b) (s.opt e 0).reflLevel, txLevel := levelOf (txAt c) (s.opt e 0).txLevel }
        ∧
      t.ports.optPolled.getD e 0 = s.now ∧ t.ports.ports = s.ports.ports ∧ t.ports.lanes = s.ports.lanes ∧
      OnlyChanges [.ports, .counters, .log, .dict, .out] s t) ∧
  (∀ (e j : Nat) (a b c : Int) (s : State),
    firmwareDown s = false → domainOn s e = true → s.ports.optPolled.getD e 0 + 10000000 ≤ s.now →
    levelOf (rxAt s a) (s.opt e 0).rxLevel = 3 → circuitAt s e 0 = some j → (s.lane e j).failed = false →
    (s.port (portAt s e 0)).st.holds = true →
      ∃ t, exec (.optHealthPoll e [(a, b, c)] []) s = .next (settleLost s t) ∧ (t.opt e 0).rxLevel = 3 ∧
      ((t.lane e j).failed = true ∨ (t.port (portAt s e 0)).st = .down) ∧ t.ports.optPolled.getD e 0 = s.now) ∧
  (∀ (e f : Nat) (v : Int) (old new : Nat) (s : State),
    old = (s.ports.lasers.getD (2 * e + f) (0, 0)).2 → new = levelOf (laserAt v) old →
      ∃ t, exec (.laserInputLoss e f v) s = .next t ∧ t.ports.lasers.getD (2 * e + f) (0, 0) = (v, new) ∧
      (new = 2 → old ≠ 2 → Logged 0x310B [e, f, unsigned 16 v] s t) ∧ t.ports.ports = s.ports.ports ∧
      t.ports.lanes = s.ports.lanes ∧ OnlyChanges [.ports, .counters, .log, .dict, .out] s t) ∧
  (∀ (e j : Nat) (rx : Bool) (s : State),
    ((s.lane e j).pos = 0x3F ∨ (s.lane e j).failed = true ∨ (s.port (portAt s e (s.lane e j).pos)).st.holds = false) →
      exec (.laneFailure e j rx) s = .next (settle s)) ∧
  (∀ (e j p n : Nat) (rx : Bool) (s : State),
    p = portAt s e (s.lane e j).pos → (s.lane e j).pos < 32 → j < 34 → (s.lane e j).failed = false →
    ((s.port p).st = .identifying ∨ (s.port p).st = .fallow) → n = ((soundCircuits s p).filter (fun i => i != j)).length →
    laneMin s p ≤ n →
      ∃ t, exec (.laneFailure e j rx) s = .next (settle t) ∧ (t.lane e j).failed = true ∧ (t.port p).st = (s.port p).st ∧
      (t.port p).dealt.length = n ∧ OnlyChanges [.ports] s t) ∧
  (∀ (e k : Nat) (s : State),
    (s.lane e k).joining = none →
      exec (.spareJoined e k) s = .next s) ∧
  (∀ (e j k p : Nat) (s : State),
    (s.lane e k).joining = some j → p = portAt s e (s.lane e k).pos → bitOf (features s p) 5 = false →
    ((s.lane e k).eq = false ∨ (s.lane e k).alock = false) →
      exec (.spareJoined e k) s = .next s) ∧
  (∀ (e j : Nat) (s : State),
    ((s.lane e j).failed = false ∨ (s.lane e j).retired = true ∨ (s.lane e j).pos = 0x3F ∨ (s.lane e j).joining.isSome =
      true) →
      exec (.laneRelock e j) s = .next s) ∧
  (∀ (p lanes : Nat) (s : State),
    lanes < laneMin s p → (s.port p).retrain = none → ((s.port p).st = .training ∨ (s.port p).st = .aligning) →
      ∃ t, exec (.portLost p lanes) s = .next (settle t) ∧ (t.port p).st = .down ∧ (t.port p).enabled = (s.port p).enabled ∧
      (∀ q, q ≠ p → t.port q = s.port q) ∧ OnlyChanges [.ports] s t) ∧
  (∀ (p lanes : Nat) (s : State),
    (laneMin s p ≤ lanes ∨ (s.port p).st = .down ∨ (s.port p).st = .dormant) →
      exec (.portLost p lanes) s = .next (settle s)) ∧
  (∀ (e lanes phase volt eye dwell : Nat) (s : State),
    s.lania.up = true → domainOn s e = false →
      exec (.eyeScanPoint e lanes phase volt eye dwell) s = .next (regAck St.state s)) ∧
  (∀ (e : Nat) (l : List (Nat × Nat)) (s : State),
    ∀ r ∈ s.ports.eyeRun.find e, s.now < r.start + 2 ^ r.dwell * 2 / 425 →
      exec (.eyePointDone e l) s = .next s) ∧
  (∀ (e : Nat) (l : List (Nat × Nat)) (r : EyeRun) (s : State),
    s.ports.eyeRun.find e = some r → r.start + 2 ^ r.dwell * 2 / 425 ≤ s.now →
      ∃ t, exec (.eyePointDone e l) s = .next t ∧ t.ports.eyeRun = s.ports.eyeRun.erase e ∧
      t.ports.eyeDone.getD e 0 = s.ports.eyeDone.getD e 0 ||| r.mask ∧
      (∀ k, (∀ q ∈ l, q.1 < 34 → bitOf r.mask q.1 = true → k ≠ 34 * e + q.1) → t.ports.eyeResult.getD k 0 =
        s.ports.eyeResult.getD k 0) ∧
      OnlyChanges [.ports] s t) ∧
  (∀ (l : List (Nat × Nat × Nat × Nat × Nat)) (s : State),
    (firmwareDown s = true ∨ cfg 0x304001 3600 s = 0 ∨ s.now < s.ports.eyeScanned + cfg 0x304001 3600 s * 1000000000) →
      exec (.eyeScanPeriod l) s = .next s) ∧
  (∀ (l : List (Nat × Nat × Nat × Nat × Nat)) (s : State),
    firmwareDown s = false → cfg 0x304001 3600 s ≠ 0 → s.ports.eyeScanned + cfg 0x304001 3600 s * 1000000000 ≤ s.now →
      ∃ t, exec (.eyeScanPeriod l) s = .next t ∧ t.ports.eyeScanned = s.now ∧ t.ports.lanes = s.ports.lanes ∧
      OnlyChanges [.ports, .counters, .log, .dict, .out] s t) ∧
  (∀ (e : Nat) (l : List (Int × Int × Int)) (m : List Int) (s : State),
    (firmwareDown s = true ∨ domainOn s e = false ∨ s.now < s.ports.optPolled.getD e 0 + 10000000) →
      exec (.optHealthPoll e l m) s = .next s) ∧
  (∀ (e : Nat) (l : List (Int × Int × Int)) (m : List Int) (s : State),
    firmwareDown s = false → domainOn s e = true → s.ports.optPolled.getD e 0 + 10000000 ≤ s.now →
    (∀ q ∈ (l.take 32).zipIdx, levelOf (rxAt s q.1.1) (s.opt e q.2).rxLevel ≠ 3) →
      ∃ t, exec (.optHealthPoll e l m) s = .next (settleLost s t) ∧ t.ports.optPolled.getD e 0 = s.now ∧
      t.ports.ports = s.ports.ports ∧ t.ports.lanes = s.ports.lanes ∧ OnlyChanges [.ports, .counters, .log, .dict, .out] s t)

/-- With the Lania link up: a REG access of another size or misaligned is answered FAIL_MALFORMED, one to a block without power
FAIL_STATE, one to an unassigned offset OK and counted, with no other effect and a read of zero; another write has its
register's own effect, and POOL_VER_ARG changes in the half or the whole it covers; another read answers what the register
shows, its write-only bits free (log entry 57). DMA of less than 128 or more than 4096 bytes is FAIL_MALFORMED; in ISLAND it
writes or reads the image store at address bits [25:0]; from TRAINED its pieces enter the hub as requests of the host, each once
the one before is answered, behind at most 1,024 DMA requests; in the other states it is FAIL_STATE. A DBL read answers bytes of
the fault or nomination ring. A lane that loses lock at full width halves the link to the half that holds lock, with
LANIA_WIDTH; at half width it is remembered; one that is no lane or has lost lock already changes nothing. A link lost after
training, or a heartbeat period without a write, loses the companion with its rings disabled (once); a link lost before training
is down. A link that trains from ISLAND onward is up at 16 lanes; before, nothing happens. A waiting doorbell is written into
the ring's next slot with its PHASE if the ring is enabled and has room; else it stays. DBQ_RING_CONS frees slots; a write
beyond the unread ones is ignored and answered OK; DBQ_HEARTBEAT attaches or restores the companion. With the link down none of
these has an effect. -/
def Obligations.LaniaAndDoorbells : Prop :=
  (∀ (off size : Nat) (v : U64) (s : State),
    s.lania.up = true → ((size ≠ 4 ∧ size ≠ 8) ∨ off % size ≠ 0) →
      exec (.regWrite off size (.write v)) s = .next (regAck St.malformed s)) ∧
  (∀ (off size : Nat) (v : U64) (s : State),
    s.lania.up = true → (size = 4 ∨ size = 8) → off % size = 0 → (regBlock { off, size, v := v.toNat } s).1 = false →
      exec (.regWrite off size (.write v)) s = .next (regAck St.state s)) ∧
  (∀ (off size : Nat) (v : U64) (s : State),
    s.lania.up = true → (size = 4 ∨ size = 8) → off % size = 0 → (regBlock { off, size, v := v.toNat } s).1 = true →
    (regBlock { off, size, v := v.toNat } s).2.isNone = true →
      exec (.regWrite off size (.write v)) s = .next (regAck St.ok (bump 0xC40D02 1 s))) ∧
  (∀ (off size : Nat) (s : State),
    s.lania.up = true → ((size ≠ 4 ∧ size ≠ 8) ∨ off % size ≠ 0) →
      exec (.regWrite off size .read) s = .next (emit (.regRead St.malformed 0) s)) ∧
  (∀ (off size : Nat) (s : State),
    s.lania.up = true → (size = 4 ∨ size = 8) → off % size = 0 → (regBlock { off, size, v := 0 } s).1 = false →
      exec (.regWrite off size .read) s = .next (emit (.regRead St.state 0) s)) ∧
  (∀ (off size : Nat) (s : State),
    s.lania.up = true → (size = 4 ∨ size = 8) → off % size = 0 → (regBlock { off, size, v := 0 } s).1 = true →
    (regView s (off / 8 * 8)).isNone = true →
      exec (.regWrite off size .read) s = .next (emit (.regRead St.ok 0) (bump 0xC40D02 1 s))) ∧
  (∀ (off size : Nat) (x : RegView) (s : State),
    s.lania.up = true → (size = 4 ∨ size = 8) → off % size = 0 → (regBlock { off, size, v := 0 } s).1 = true →
    regView s (off / 8 * 8) = some x →
      exec (.regWrite off size .read) s = .next (emit (.regRead St.ok (readHalf off size (x.read s.draw))) (if x.wo = 0 then
        s else s.drawn))) ∧
  (∀ (s : State),
    s.lania.up = true → csOn s = true →
      exec (.regWrite 0x600108 8 .read) s = .next (emit (.regRead St.ok (s.pool.verArg % 2 ^ 64)) s) ∧
      exec (.regWrite 0x60010C 4 .read) s = .next (emit (.regRead St.ok (s.pool.verArg / 2 ^ 32 % 2 ^ 32)) s) ∧
      exec (.regWrite 0x2000010 4 .read) s = .next (emit (.regRead St.ok (s.lania.cons % 2 ^ 32)) s)) ∧
  (∀ (off size : Nat) (v : U64) (s : State),
    s.lania.up = true → csOn s = true →
    ((off = 0x600108 ∧ size = 8) ∨ (off = 0x600108 ∧ size = 4) ∨ (off = 0x60010C ∧ size = 4)) →
      ∃ t, exec (.regWrite off size (.write v)) s = .next (regAck St.ok t) ∧
      t.pool =
        { s.pool with verArg := (if size = 8 then v.toNat else if off = 0x600108 then s.pool.verArg / 2 ^ 32 * 2 ^ 32 + v.toNat % 2 ^ 32 else v.toNat % 2 ^ 32 * 2 ^ 32 + s.pool.verArg % 2 ^ 32) % 2 ^ 48 }
        ∧
      OnlyChanges [.pool] s t) ∧
  (∀ (c : Nat) (off : U48) (data : List Byte) (s : State),
    s.lania.up = true → 128 ≤ data.length → data.length ≤ 4096 → s.boot.st = .island →
      ∃ t, exec (.laniaDma .write c off 0 data) s = .next (settle t) ∧
      (∀ i, i < data.length → Mem.byte t.boot.image ((off.toNat + i) % 2 ^ 26) = data.getD i 0) ∧
      Output.dma St.ok [] ∈ t.out ∧ t.mem = s.mem ∧ OnlyChanges [.boot, .out] s t) ∧
  (∀ (c len : Nat) (off : U48) (s : State),
    s.lania.up = true → 128 ≤ len → len ≤ 4096 → s.boot.st = .island →
      ∃ t, exec (.laniaDma .read c off len []) s = .next (settle t) ∧
      (Output.dma St.ok ((List.range len).map fun i => Mem.byte s.boot.image ((off.toNat + i) % 2 ^ 26)) ∈ t.out) ∧
      OnlyChanges [.out] s t) ∧
  (∀ (c : Nat) (off : U48) (data : List Byte) (u s : State),
    s.lania.up = true → data.length = 128 → off.toNat % 128 = 0 → trainedUp s = true → s.lania.dmas = [] →
    dmaBusy s = false →
    u = serve { via := .host, op := Op.write, h := { ctx := c, dst := nodeOf s 0xC0, len := 128, opa := off }, data }
      { s with lania := { s.lania with dmas := [[]] } } →
      exec (.laniaDma .write c off 0 data) s = .next (settle (if dmaBusy u then u else
        { u with lania := { u.lania with dmas := [] } }))) ∧
  (∀ (c : Nat) (off : U48) (u s : State),
    s.lania.up = true → off.toNat % 128 = 0 → trainedUp s = true → s.lania.dmas = [] → dmaBusy s = false →
    u = serve { via := .host, op := Op.read, h := { ctx := c, dst := nodeOf s 0xC0, len := 128, opa := off } }
      { s with lania := { s.lania with dmas := [[]] } } →
      exec (.laniaDma .read c off 128 []) s = .next (settle (if dmaBusy u then u else
        { u with lania := { u.lania with dmas := [] } }))) ∧
  (∀ (w : Bool) (c len : Nat) (off : U48) (data : List Byte) (s : State),
    s.lania.up = true → trainedUp s = true → (128 ≤ len ∧ len ≤ 4096) → (128 ≤ data.length ∧ data.length ≤ 4096) →
    dmaBusy s = true → s.lania.dmas.length < 1024 →
      exec (.laniaDma .write c off len data) s = .next (settle
        { s with lania := { s.lania with dmas := s.lania.dmas ++ [(rangeWrites off.toNat data).map (dmaWrite s c)] } }) ∧
      (exec (.laniaDma .read c off len data) s = .next (settle
        { s with lania := { s.lania with dmas := s.lania.dmas ++ [(cutLines (len / 128 + 2) off.toNat len).map fun p => dmaRead s c p.1 p.2] } }))) ∧
  (∀ (c len : Nat) (off : U48) (data : List Byte) (s : State),
    s.lania.up = true → trainedUp s = true → (128 ≤ len ∧ len ≤ 4096) → (128 ≤ data.length ∧ data.length ≤ 4096) →
    1024 ≤ s.lania.dmas.length →
      exec (.laniaDma .write c off len data) s = .next (settle s) ∧ exec (.laniaDma .read c off len data) s = .next (settle
        s)) ∧
  (∀ (c off len : Nat) (a : U48) (data : List Byte) (s : State),
    s.lania.up = true → csOn s = true → off = a.toNat →
      (exec (.laniaDma .faultRing c a len data) s = .next (settle (emit (.dbl St.ok ((List.range len).map fun i => Mem.byte
        s.mem (2 ^ 18 * s.xlt.fqBase + (off + i) % 2 ^ 18))) s))) ∧
      (exec (.laniaDma .nomRing c a len data) s = .next (settle (emit (.dbl St.ok ((List.range len).map fun i => Mem.byte
        s.mem (2 ^ 14 * s.pool.nomBase + (off + i) % 2 ^ 14))) s)))) ∧
  (∀ (c len : Nat) (a : U48) (data : List Byte) (s : State),
    s.lania.up = true → csOn s = false →
      exec (.laniaDma .faultRing c a len data) s = .next (settle (emit (.dbl St.state []) s)) ∧
      exec (.laniaDma .nomRing c a len data) s = .next (settle (emit (.dbl St.state []) s))) ∧
  (∀ (l half : Nat) (s : State),
    s.lania.up = true → l < 16 → s.lania.badLanes = [] → s.lania.width = 16 → half = (if l < 8 then 1 else 0) →
      ∃ t, exec (.laniaLaneFail l) s = .next t ∧ t.lania = { s.lania with badLanes := [l], width := 8 } ∧
      Logged 0x2103 [l, half] s t ∧ OnlyChanges [.lania, .counters, .log, .dict, .out] s t) ∧
  (∀ (s : State),
    s.lania.up = true → s.lania.trained = true → s.lania.comp ≠ .lost → s.xlt.faults = [] → s.xlt.deferred = [] →
      ∃ t, exec .laniaLinkLost s = .next (settle t) ∧ t.lania.up = false ∧ t.lania.comp = .lost ∧ t.lania.lostSince = s.now
        ∧
      t.lania.enable = false ∧ t.lania.waiting = [] ∧ t.lania.dmas = [] ∧ t.coh.hostWaits = [] ∧ t.coh.snoops = [] ∧
      t.pool.nomWaiting = [] ∧ t.xlt.fqEnable = false ∧ t.pool.nomEnable = false ∧ (∀ w ∈ t.pool.waiting, w.req.via ≠ .host)
        ∧
      (∀ q ∈ t.xlt.stalled, q.1.via ≠ .host) ∧ t.coh.walkSince = some s.now ∧ counter t 0xC40D04 = counter s 0xC40D04 + 1 ∧
      (Logged 0x2101 [1, ((s.lania.beat.map fun b => (s.now - b) / 1000).getD 0)] s t) ∧
      (∀ x ∈ queuedFrames t, x.req.via ≠ .host) ∧
      OnlyChanges [.lania, .sw, .xlt, .pool, .coh, .counters, .log, .dict, .out] s t) ∧
  (∀ (b : Nat) (s : State),
    s.lania.beat = some b → b + 1000 * cfg 0x204001 1000 s < s.now → s.lania.comp ≠ .lost → s.xlt.faults = [] →
    s.xlt.deferred = [] →
      ∃ t, exec .heartbeatTimeout s = .next (settle t) ∧ t.lania.up = s.lania.up ∧ t.lania.comp = .lost ∧
      t.lania.lostSince = s.now ∧ t.lania.enable = false ∧ t.lania.waiting = [] ∧ t.lania.dmas = [] ∧ t.coh.hostWaits = [] ∧
      t.coh.snoops = [] ∧ t.pool.nomWaiting = [] ∧ t.xlt.fqEnable = false ∧ t.pool.nomEnable = false ∧
      (∀ w ∈ t.pool.waiting, w.req.via ≠ .host) ∧ (∀ q ∈ t.xlt.stalled, q.1.via ≠ .host) ∧ t.coh.walkSince = some s.now ∧
      counter t 0xC40D04 = counter s 0xC40D04 + 1 ∧ Logged 0x2101 [0, (s.now - b) / 1000] s t ∧
      (∀ x ∈ queuedFrames t, x.req.via ≠ .host) ∧
      OnlyChanges [.lania, .sw, .xlt, .pool, .coh, .counters, .log, .dict, .out] s t) ∧
  (∀ (s : State),
    s.boot.st ≠ .off → s.boot.st ≠ .starting →
      ∃ t, exec .laniaLinkTrained s = .next t ∧
      t.lania = { s.lania with up := true, trained := true, width := 16, badLanes := [] } ∧ OnlyChanges [.lania] s t) ∧
  (∀ (b : Doorbell) (l : List Doorbell) (s : State),
    s.lania.waiting = b :: l → s.lania.enable = true → s.lania.unread.length < 1024 →
      ∃ t, exec .doorbellWrite s = .next t ∧
      t.lania =
        { s.lania with waiting := l, unread := s.lania.unread ++ [(b.kind, b.key)], last := s.lania.phase, phase := (if s.lania.prod = 1023 then !s.lania.phase else s.lania.phase), prod := (s.lania.prod + 1) % 1024 }
        ∧
      Output.doorbell (2 ^ 14 * s.lania.base + 16 * s.lania.prod) (natLe 4 (b.kind + 2 ^ 31 * b2n s.lania.phase) ++ natLe 4
        b.arg ++ natLe 8 s.now) ∈ t.out ∧
      OnlyChanges [.lania, .out] s t) ∧
  (∀ (v k : Nat) (s : State),
    s.lania.up = true → consumed s.lania.cons (v % 1024) 1024 s.lania.unread.length = some k →
      ∃ t, exec (.dbqConsume v) s = .next (regAck St.ok t) ∧
      t.lania = { s.lania with cons := v % 1024, unread := s.lania.unread.drop k } ∧ OnlyChanges [.lania] s t) ∧
  (∀ (v : U64) (s : State),
    s.lania.up = true →
      ∃ t, exec (.dbqHeartbeat v) s = .next (regAck St.ok t) ∧
      t.lania = { s.lania with beat := some s.now, beatValue := v, comp := .attached } ∧
      (s.lania.comp = .lost → Logged 0x2102 [s.lania.width, (s.now - s.lania.lostSince) / 1000000] s t) ∧
      OnlyChanges [.lania, .counters, .log, .dict, .out] s t) ∧
  (∀ (w : HostData) (off size c len v l : Nat) (a : U48) (data : List Byte) (x : RegData) (y : U64) (s : State),
    s.lania.up = false →
      exec (.regWrite off size x) s = .next s ∧ exec (.laniaDma w c a len data) s = .next (settle s) ∧
      exec (.laniaLaneFail l) s = .next s ∧ exec .laniaLinkLost s = .next (settle s) ∧ exec (.dbqConsume v) s = .next s ∧
      exec (.dbqHeartbeat y) s = .next s) ∧
  (∀ (off size : Nat) (v : U64) (s : State),
    s.lania.up = true → (size = 4 ∨ size = 8) → off % size = 0 → (regBlock { off, size, v := v.toNat } s).1 = true →
    (regBlock { off, size, v := v.toNat } s).2.isSome = true →
      exec (.regWrite off size (.write v)) s = .next ((regBlock { off, size, v := v.toNat } s).2.getD id s)) ∧
  (∀ (w : Bool) (c len n : Nat) (off : U48) (data : List Byte) (s : State),
    s.lania.up = true → n = (if w then data.length else len) → (n < 128 ∨ 4096 < n) →
      exec (.laniaDma (if w then .write else .read) c off len data) s = .next (settle (emit (.dma St.malformed []) s))) ∧
  (∀ (w : Bool) (c len n : Nat) (off : U48) (data : List Byte) (s : State),
    s.lania.up = true → n = (if w then data.length else len) → 128 ≤ n → n ≤ 4096 → s.boot.st ≠ .island →
    trainedUp s = false →
      exec (.laniaDma (if w then .write else .read) c off len data) s = .next (settle (emit (.dma St.state []) s))) ∧
  (∀ (c len : Nat) (off : U48) (data : List Byte) (s : State),
    s.lania.up = true → trainedUp s = true → (128 ≤ len ∧ len ≤ 4096) → (128 ≤ data.length ∧ data.length ≤ 4096) →
    s.lania.dmas.length < 1024 →
      exec (.laniaDma .write c off len data) s = .next (settle (dmaMoves
        { s with lania := { s.lania with dmas := s.lania.dmas ++ [(rangeWrites off.toNat data).map (dmaWrite s c)] } })) ∧
      (exec (.laniaDma .read c off len data) s = .next (settle (dmaMoves
        { s with lania := { s.lania with dmas := s.lania.dmas ++ [(cutLines (len / 128 + 2) off.toNat len).map fun p => dmaRead s c p.1 p.2] } })))) ∧
  (∀ (l : Nat) (u s : State),
    s.lania.up = true → l < 16 → s.lania.badLanes.contains l = false → s.lania.width ≠ 8 →
    (u = s.onLania fun x => { x with badLanes := x.badLanes ++ [l] }) →
      exec (.laniaLaneFail l) s = .next (if halfHolds u.lania.badLanes 0 then raise 0x2103 [l, 0] (u.onLania fun x =>
        { x with width := 8 }) else if halfHolds u.lania.badLanes 1 then raise 0x2103 [l, 1] (u.onLania fun x =>
        { x with width := 8 }) else u)) ∧
  (∀ (l : Nat) (s : State),
    s.lania.up = true → s.lania.badLanes.contains l = false → l < 16 → s.lania.width = 8 →
      exec (.laniaLaneFail l) s = .next (s.onLania fun x => { x with badLanes := x.badLanes ++ [l] })) ∧
  (∀ (l : Nat) (s : State),
    (16 ≤ l ∨ s.lania.badLanes.contains l = true) →
      exec (.laniaLaneFail l) s = .next s) ∧
  (∀ (s : State),
    s.lania.up = true → s.lania.trained = true →
      exec .laniaLinkLost s = .next (settle (companionLost 1 (s.onLania fun x => { x with up := false })))) ∧
  (∀ (s : State),
    s.lania.up = true → (s.lania.trained = false ∨ s.lania.comp = .lost) →
      exec .laniaLinkLost s = .next (settle (s.onLania fun x => { x with up := false }))) ∧
  (∀ (s : State),
    (s.boot.st = .off ∨ s.boot.st = .starting) →
      exec .laniaLinkTrained s = .next s) ∧
  (∀ (s : State),
    (s.lania.waiting = [] ∨ s.lania.enable = false ∨ 1024 ≤ s.lania.unread.length) →
      exec .doorbellWrite s = .next s) ∧
  (∀ (v : Nat) (s : State),
    s.lania.up = true → consumed s.lania.cons (v % 1024) 1024 s.lania.unread.length = none →
      exec (.dbqConsume v) s = .next (regAck St.ok s)) ∧
  (∀ (s : State),
    (s.lania.beat.isNone = true ∨ s.now ≤ s.lania.beat.getD 0 + 1000 * cfg 0x204001 1000 s ∨ s.lania.comp = .lost) →
      exec .heartbeatTimeout s = .next (settle s)) ∧
  (∀ (b : Nat) (s : State),
    s.lania.beat = some b → b + 1000 * cfg 0x204001 1000 s < s.now →
      exec .heartbeatTimeout s = .next (settle (companionLost 0 s)))

/-- While the management agent serves, a message of an open session from a link-local address, with VERSION 1, no reserved bit, a
tag that verifies and a SEQ above the last, is counted and carried out on the dictionary by its type, for the session's rights
and surface, and the response bears its SEQ, INDEX, SUB and OFFSET with the result. A message from another address, or while the
agent is down, has no effect; a reserved bit or another VERSION is refused with RANGE; one without an open session or whose tag
fails is counted and discarded; one whose SEQ is kept is answered with the kept response and changes nothing else; a stale SEQ
that is not kept is counted and discarded. A MANAGER's READ of AdpHeartbeatPeriod answers its value, a WRITE of a value from 100
to 10,000 sets it. A mailbox command is answered OK and completes with DONE, its result and the next DICT_MB_SEQ; one of more
than 4096 bytes completes with RANGE; while DONE is 0 it is answered FAIL_STATE; while the management core restarts it is held
and answered OK; with the Lania link down it has no effect. -/
def Obligations.RequestsOfTheDictionary : Prop :=
  (∀ (m : AdpMsg) (x : Session) (s : State),
    agentUp s = true → m.linkLocal = true → m.reserved = false → m.version = 1 → s.session m.session = some x →
    m.tagOk = true → x.kept.find? (fun k => k.1 == m.seq) = none → x.lastSeq < m.seq →
      ∃ t, exec (.adpRead m) s = .next (settle t) ∧
      ∃ u, OnlyChanges [.counters, .log] s u ∧ counter u 0xC40E01 = counter s 0xC40E01 + 1 ∧ Output.adp
        { typ := 1, session := x.num, seq := m.seq, result := (dictRead (x.tenant.map Prod.fst) m.index m.sub x.surf u).result, last := (dictRead (x.tenant.map Prod.fst) m.index m.sub x.surf u).last, index := m.index, sub := m.sub, off := m.off, body := (dictRead (x.tenant.map Prod.fst) m.index m.sub x.surf u).body }
        ∈ t.out) ∧
  (∀ (m : AdpMsg) (x : Session) (s : State),
    agentUp s = true → m.linkLocal = true → m.reserved = false → m.version = 1 → s.session m.session = some x →
    m.tagOk = true → x.kept.find? (fun k => k.1 == m.seq) = none → x.lastSeq < m.seq →
      ∃ t, exec (.adpWrite m) s = .next (settle t) ∧
      ∃ u, OnlyChanges [.counters, .log] s u ∧ counter u 0xC40E01 = counter s 0xC40E01 + 1 ∧ Output.adp
        { typ := 2, session := x.num, seq := m.seq, result := (dictWrite (x.tenant.map Prod.fst) m.index m.sub m.body x.surf u).result, last := (dictWrite (x.tenant.map Prod.fst) m.index m.sub m.body x.surf u).last, index := m.index, sub := m.sub, off := m.off, body := (dictWrite (x.tenant.map Prod.fst) m.index m.sub m.body x.surf u).body }
        ∈ t.out) ∧
  (∀ (m : AdpMsg) (x : Session) (s : State),
    agentUp s = true → m.linkLocal = true → m.reserved = false → m.version = 1 → s.session m.session = some x →
    m.tagOk = true → x.kept.find? (fun k => k.1 == m.seq) = none → x.lastSeq < m.seq →
      ∃ t, exec (.adpReadBlock m) s = .next (settle t) ∧
      ∃ u, OnlyChanges [.counters, .log] s u ∧ counter u 0xC40E01 = counter s 0xC40E01 + 1 ∧ Output.adp
        { typ := 3, session := x.num, seq := m.seq, result := (dictReadBlock (x.tenant.map Prod.fst) 1024 m.index m.sub m.off x.surf u).result, last := (dictReadBlock (x.tenant.map Prod.fst) 1024 m.index m.sub m.off x.surf u).last, index := m.index, sub := m.sub, off := m.off, body := (dictReadBlock (x.tenant.map Prod.fst) 1024 m.index m.sub m.off x.surf u).body }
        ∈ t.out) ∧
  (∀ (m : AdpMsg) (x : Session) (s : State),
    agentUp s = true → m.linkLocal = true → m.reserved = false → m.version = 1 → s.session m.session = some x →
    m.tagOk = true → x.kept.find? (fun k => k.1 == m.seq) = none → x.lastSeq < m.seq → m.body.length ≤ 1024 →
      ∃ t, exec (.adpWriteBlock m) s = .next (settle t) ∧
      ∃ u, OnlyChanges [.counters, .log] s u ∧ counter u 0xC40E01 = counter s 0xC40E01 + 1 ∧ Output.adp
        { typ := 4, session := x.num, seq := m.seq, result := (dictWriteBlock (x.tenant.map Prod.fst) m.last m.index m.sub m.off m.body x.surf u).result, last := (dictWriteBlock (x.tenant.map Prod.fst) m.last m.index m.sub m.off m.body x.surf u).last, index := m.index, sub := m.sub, off := m.off, body := (dictWriteBlock (x.tenant.map Prod.fst) m.last m.index m.sub m.off m.body x.surf u).body }
        ∈ t.out) ∧
  (∀ (m : AdpMsg) (x : Session) (s : State),
    agentUp s = true → m.linkLocal = true → m.reserved = false → m.version = 1 → s.session m.session = some x →
    m.tagOk = true → x.kept.find? (fun k => k.1 == m.seq) = none → x.lastSeq < m.seq → x.tenant = none → m.index = 0x1200 →
    m.sub = 2 →
      ∃ t, exec (.adpRead m) s = .next (settle t) ∧
      Output.adp
        { typ := 1, session := x.num, seq := m.seq, index := 0x1200, sub := 2, off := m.off, body := natLe 4 (cfg 0x120002 1000 s) }
        ∈ t.out ∧
      OnlyChanges [.counters, .log, .out] s t) ∧
  (∀ (m : AdpMsg) (v : Nat) (x : Session) (s : State),
    agentUp s = true → m.linkLocal = true → m.reserved = false → m.version = 1 → s.session m.session = some x →
    m.tagOk = true → x.kept.find? (fun k => k.1 == m.seq) = none → x.lastSeq < m.seq → x.tenant = none → m.index = 0x1200 →
    m.sub = 2 → m.body = natLe 4 v → 100 ≤ v → v ≤ 10000 →
      ∃ t, exec (.adpWrite m) s = .next (settle t) ∧ cfg 0x120002 1000 t = v ∧ (∀ k d, k ≠ 0x120002 → cfg k d t = cfg k d s)
        ∧
      Output.adp { typ := 2, session := x.num, seq := m.seq, index := 0x1200, sub := 2, off := m.off } ∈ t.out ∧
      OnlyChanges [.counters, .log, .dict, .out] s t) ∧
  (∀ (m : AdpMsg) (k : Nat × AdpResp) (x : Session) (s : State),
    agentUp s = true → m.linkLocal = true → m.reserved = false → m.version = 1 → s.session m.session = some x →
    m.tagOk = true → x.kept.find? (fun k => k.1 == m.seq) = some k →
      ∃ t, exec (.adpWrite m) s = .next t ∧ Output.adp k.2 ∈ t.out ∧ (t.session m.session) = some { x with heard := s.now }
        ∧
      OnlyChanges [.log, .out] s t) ∧
  (∀ (m : AdpMsg) (d : Nat) (x : Session) (s : State),
    agentUp s = true → m.linkLocal = true → m.reserved = false → m.version = 1 → s.session m.session = some x →
    m.tagOk = false → s.dict.authRaised = some d → s.now < d + 1000000000 →
      ∃ t, exec (.adpRead m) s = .next t ∧ counter t 0xC40E02 = counter s 0xC40E02 + 1 ∧
      t.dict = { s.dict with authFails := s.dict.authFails + 1, counters := t.dict.counters } ∧
      OnlyChanges [.counters, .dict] s t) ∧
  (∀ (s : State),
    s.lania.up = true → s.dict.mbDone = true → agentUp s = true →
      ∃ t, exec .mbRead s = .next (settle t) ∧
      (∃ u, OnlyChanges [.dict, .out] s u ∧ (agentUp (dictRead none (bits s.dict.mbIndex 15 0) (bits s.dict.mbIndex 23 16)
        s.dict.mb u).state = true → t.dict.mbDone = true ∧ t.dict.mbResult = (dictRead none (bits s.dict.mbIndex 15 0) (bits
        s.dict.mbIndex 23 16) s.dict.mb u).result ∧ t.dict.mbLast = (dictRead none (bits s.dict.mbIndex 15 0) (bits
        s.dict.mbIndex 23 16) s.dict.mb u).last ∧ t.dict.mbLen = (dictRead none (bits s.dict.mbIndex 15 0) (bits
        s.dict.mbIndex 23 16) s.dict.mb u).body.length ∧ t.dict.mb = (dictRead none (bits s.dict.mbIndex 15 0) (bits
        s.dict.mbIndex 23 16) s.dict.mb u).surf ∧ t.dict.mbSeq = ((dictRead none (bits s.dict.mbIndex 15 0) (bits
        s.dict.mbIndex 23 16) s.dict.mb u).state.dict.mbSeq + 1) % 2 ^ 32))) ∧
  (∀ (n : Nat) (s : State),
    s.lania.up = true → s.dict.mbDone = true → agentUp s = true → n ≤ 4096 →
      ∃ t, exec (.mbWrite n) s = .next (settle t) ∧
      (∃ u, OnlyChanges [.dict, .out] s u ∧ (agentUp (dictWrite none (bits s.dict.mbIndex 15 0) (bits s.dict.mbIndex 23 16)
        (s.dict.mbData.take n) s.dict.mb u).state = true → t.dict.mbDone = true ∧ t.dict.mbResult = (dictWrite none (bits
        s.dict.mbIndex 15 0) (bits s.dict.mbIndex 23 16) (s.dict.mbData.take n) s.dict.mb u).result ∧ t.dict.mbLast =
        (dictWrite none (bits s.dict.mbIndex 15 0) (bits s.dict.mbIndex 23 16) (s.dict.mbData.take n) s.dict.mb u).last ∧
        t.dict.mbLen = (dictWrite none (bits s.dict.mbIndex 15 0) (bits s.dict.mbIndex 23 16) (s.dict.mbData.take n) s.dict.mb
        u).body.length ∧ t.dict.mb = (dictWrite none (bits s.dict.mbIndex 15 0) (bits s.dict.mbIndex 23 16)
        (s.dict.mbData.take n) s.dict.mb u).surf ∧ t.dict.mbSeq = ((dictWrite none (bits s.dict.mbIndex 15 0) (bits
        s.dict.mbIndex 23 16) (s.dict.mbData.take n) s.dict.mb u).state.dict.mbSeq + 1) % 2 ^ 32))) ∧
  (∀ (n off : Nat) (s : State),
    s.lania.up = true → s.dict.mbDone = true → agentUp s = true → n ≤ 4096 →
      ∃ t, exec (.mbReadBlock n off) s = .next (settle t) ∧
      (∃ u, OnlyChanges [.dict, .out] s u ∧ (agentUp (dictReadBlock none (if n = 0 then 4096 else n) (bits s.dict.mbIndex 15
        0) (bits s.dict.mbIndex 23 16) off s.dict.mb u).state = true → t.dict.mbDone = true ∧ t.dict.mbResult = (dictReadBlock
        none (if n = 0 then 4096 else n) (bits s.dict.mbIndex 15 0) (bits s.dict.mbIndex 23 16) off s.dict.mb u).result ∧
        t.dict.mbLast = (dictReadBlock none (if n = 0 then 4096 else n) (bits s.dict.mbIndex 15 0) (bits s.dict.mbIndex 23 16)
        off s.dict.mb u).last ∧ t.dict.mbLen = (dictReadBlock none (if n = 0 then 4096 else n) (bits s.dict.mbIndex 15 0)
        (bits s.dict.mbIndex 23 16) off s.dict.mb u).body.length ∧ t.dict.mb = (dictReadBlock none (if n = 0 then 4096 else n)
        (bits s.dict.mbIndex 15 0) (bits s.dict.mbIndex 23 16) off s.dict.mb u).surf ∧ t.dict.mbSeq = ((dictReadBlock none (if
        n = 0 then 4096 else n) (bits s.dict.mbIndex 15 0) (bits s.dict.mbIndex 23 16) off s.dict.mb u).state.dict.mbSeq + 1)
        % 2 ^ 32))) ∧
  (∀ (last : Bool) (n off : Nat) (s : State),
    s.lania.up = true → s.dict.mbDone = true → agentUp s = true → n ≤ 4096 →
      ∃ t, exec (.mbWriteBlock last n off) s = .next (settle t) ∧
      (∃ u, OnlyChanges [.dict, .out] s u ∧ (agentUp (dictWriteBlock none last (bits s.dict.mbIndex 15 0) (bits
        s.dict.mbIndex 23 16) off (s.dict.mbData.take n) s.dict.mb u).state = true → t.dict.mbDone = true ∧ t.dict.mbResult =
        (dictWriteBlock none last (bits s.dict.mbIndex 15 0) (bits s.dict.mbIndex 23 16) off (s.dict.mbData.take n) s.dict.mb
        u).result ∧ t.dict.mbLast = (dictWriteBlock none last (bits s.dict.mbIndex 15 0) (bits s.dict.mbIndex 23 16) off
        (s.dict.mbData.take n) s.dict.mb u).last ∧ t.dict.mbLen = (dictWriteBlock none last (bits s.dict.mbIndex 15 0) (bits
        s.dict.mbIndex 23 16) off (s.dict.mbData.take n) s.dict.mb u).body.length ∧ t.dict.mb = (dictWriteBlock none last
        (bits s.dict.mbIndex 15 0) (bits s.dict.mbIndex 23 16) off (s.dict.mbData.take n) s.dict.mb u).surf ∧ t.dict.mbSeq =
        ((dictWriteBlock none last (bits s.dict.mbIndex 15 0) (bits s.dict.mbIndex 23 16) off (s.dict.mbData.take n) s.dict.mb
        u).state.dict.mbSeq + 1) % 2 ^ 32))) ∧
  (∀ (last : Bool) (n off : Nat) (s : State),
    s.lania.up = true → s.dict.mbDone = false →
      exec .mbRead s = .next (regAck St.state s) ∧ exec (.mbWrite n) s = .next (regAck St.state s) ∧
      exec (.mbReadBlock n off) s = .next (regAck St.state s) ∧ exec (.mbWriteBlock last n off) s = .next (regAck St.state
        s)) ∧
  (∀ (m : AdpMsg) (s : State),
    (agentUp s = false ∨ m.linkLocal = false) →
      exec (.adpRead m) s = .next s ∧ exec (.adpWrite m) s = .next s ∧ exec (.adpReadBlock m) s = .next s ∧
      exec (.adpWriteBlock m) s = .next s) ∧
  (∀ (m : AdpMsg) (tagged : Bool) (s : State),
    agentUp s = true → m.linkLocal = true → (m.reserved = true ∨ m.version ≠ 1) →
    tagged = ((s.session m.session).isSome && m.tagOk) →
      exec (.adpRead m) s = .next (reservedAnswer 1 tagged m s) ∧ exec (.adpWrite m) s = .next (reservedAnswer 2 tagged m s)
        ∧
      exec (.adpReadBlock m) s = .next (reservedAnswer 3 tagged m s) ∧
      exec (.adpWriteBlock m) s = .next (reservedAnswer 4 tagged m s)) ∧
  (∀ (m : AdpMsg) (s : State),
    agentUp s = true → m.linkLocal = true → m.reserved = false → m.version = 1 →
    ((s.session m.session).isNone = true ∨ m.tagOk = false) →
      exec (.adpRead m) s = .next (authFailed m.src s) ∧ exec (.adpWrite m) s = .next (authFailed m.src s) ∧
      exec (.adpReadBlock m) s = .next (authFailed m.src s) ∧ exec (.adpWriteBlock m) s = .next (authFailed m.src s)) ∧
  (∀ (m : AdpMsg) (k : Nat × AdpResp) (x : Session) (s : State),
    agentUp s = true → m.linkLocal = true → m.reserved = false → m.version = 1 → s.session m.session = some x →
    m.tagOk = true → x.kept.find? (fun k => k.1 == m.seq) = some k →
      (exec (.adpRead m) s = .next (emit (.adp k.2) (s.onSession x.num fun y => { y with heard := s.now }))) ∧
      (exec (.adpWrite m) s = .next (emit (.adp k.2) (s.onSession x.num fun y => { y with heard := s.now }))) ∧
      (exec (.adpReadBlock m) s = .next (emit (.adp k.2) (s.onSession x.num fun y => { y with heard := s.now }))) ∧
      (exec (.adpWriteBlock m) s = .next (emit (.adp k.2) (s.onSession x.num fun y => { y with heard := s.now })))) ∧
  (∀ (m : AdpMsg) (x : Session) (s : State),
    agentUp s = true → m.linkLocal = true → m.reserved = false → m.version = 1 → s.session m.session = some x →
    m.tagOk = true → x.kept.find? (fun k => k.1 == m.seq) = none → m.seq ≤ x.lastSeq →
      (exec (.adpRead m) s = .next (bump 0xC40E03 1 (s.onSession x.num fun y => { y with heard := s.now }))) ∧
      (exec (.adpWrite m) s = .next (bump 0xC40E03 1 (s.onSession x.num fun y => { y with heard := s.now }))) ∧
      (exec (.adpReadBlock m) s = .next (bump 0xC40E03 1 (s.onSession x.num fun y => { y with heard := s.now }))) ∧
      (exec (.adpWriteBlock m) s = .next (bump 0xC40E03 1 (s.onSession x.num fun y => { y with heard := s.now })))) ∧
  (∀ (last : Bool) (n off : Nat) (s : State),
    s.lania.up = false →
      exec .mbRead s = .next s ∧ exec (.mbWrite n) s = .next s ∧ exec (.mbReadBlock n off) s = .next s ∧
      exec (.mbWriteBlock last n off) s = .next s) ∧
  (∀ (last : Bool) (n off : Nat) (u s : State),
    s.lania.up = true → s.dict.mbDone = true → agentUp s = false →
    (u = regAck St.ok (s.onDict fun d => { d with mbDone := false, mbResult := 0, mbLast := false, mbLen := 0 })) →
      (exec .mbRead s = .next (u.onDict fun d => { d with mbHeld := some (1, false, 0, 0) })) ∧
      (exec (.mbWrite n) s = .next (u.onDict fun d => { d with mbHeld := some (2, false, n, 0) })) ∧
      (exec (.mbReadBlock n off) s = .next (u.onDict fun d => { d with mbHeld := some (3, false, n, off) })) ∧
      (exec (.mbWriteBlock last n off) s = .next (u.onDict fun d => { d with mbHeld := some (4, last, n, off) }))) ∧
  (∀ (last : Bool) (n off : Nat) (u s : State),
    s.lania.up = true → s.dict.mbDone = true → agentUp s = true → 4096 < n →
    (u = regAck St.ok (s.onDict fun d => { d with mbDone := false, mbResult := 0, mbLast := false, mbLen := 0 })) →
      exec (.mbWrite n) s = .next (settle (mbEnds (refuse Adp.range s.dict.mb u))) ∧
      exec (.mbReadBlock n off) s = .next (settle (mbEnds (refuse Adp.range s.dict.mb u))) ∧
      exec (.mbWriteBlock last n off) s = .next (settle (mbEnds (refuse Adp.range s.dict.mb u))))

/-- The acknowledgement of a session's EVENT moves LogAckSequence to its last entry; one of another SEQ only counts as heard, one
whose tag fails is counted; an EVENT not acknowledged for 100 ms is sent again with its SEQ. A HEARTBEAT of the peer is
answered. A MANAGER SESSION_OPEN with an anchor's key opens the next session exactly when its signature verifies and fewer than
4 are open, else AUTH or BUSY; a TENANT one with a report's nonce opens exactly when the tag under its key verifies and fewer
than 16 are open, else AUTH or BUSY; a reserved KIND, bit or VERSION is refused with RANGE; a kept response is sent again.
SESSION_CLOSE of either side, and AdpSessionTimeout without a message, end the session with ADP_SESSION_CLOSED. A HEARTBEAT or
SESSION_CLOSE that is reserved, not authentic, kept or stale is treated as any request is. The hub sends its HEARTBEATs each
period, before a session once per second. Transfers idle for 10 s and kept SESSION_OPEN parts are dropped. A BEACON is
remembered for 100 ms. A solicitation for the hub's address is answered. What is not due, or for no session, or while the agent
is down, changes nothing. -/
def Obligations.SessionsLiveAndEnd : Prop :=
  (∀ (n q a b d : Nat) (x : Session) (s : State),
    agentUp s = true → s.session n = some x → x.event = some (q, a, b, d) →
      ∃ t, exec (.eventAck n q true) s = .next t ∧ t.dict.logAck = max s.dict.logAck b ∧
      (∃ y, t.session n = some y ∧ y.heard = s.now) ∧ t.dict.log = s.dict.log ∧ OnlyChanges [.log, .dict, .out] s t) ∧
  (∀ (n q a b d : Nat) (x : Session) (s : State),
    agentUp s = true → s.session n = some x → x.event = some (q, a, b, d) → d + 100000000 ≤ s.now →
      ∃ t, exec (.eventResend n) s = .next t ∧
      (Output.adp
        { typ := 5, response := false, session := n, seq := q, body := (((logFrom s.dict a 20).filter fun e => decide (e.seq ≤ b)).map LogEntry.image).flatten }
        ∈ t.out) ∧
      t.session n = some { x with event := some (q, a, b, s.now) } ∧ OnlyChanges [.log, .out] s t) ∧
  (∀ (m : AdpMsg) (x : Session) (s : State),
    agentUp s = true → m.linkLocal = true → m.reserved = false → m.version = 1 → s.session m.session = some x →
    m.tagOk = true → x.kept.find? (fun k => k.1 == m.seq) = none → x.lastSeq < m.seq →
      ∃ t, exec (.adpHeartbeat m) s = .next t ∧ Output.adp { typ := 6, session := x.num, seq := m.seq } ∈ t.out ∧
      (∃ y, t.session m.session = some y ∧ y.heard = s.now ∧ y.lastSeq = m.seq) ∧
      counter t 0xC40E01 = counter s 0xC40E01 + 1 ∧ OnlyChanges [.counters, .log, .out] s t) ∧
  (∀ (m : AdpMsg) (s : State),
    agentUp s = true → m.linkLocal = true → m.reserved = false → m.version = 1 →
    s.dict.keptOpens.find? (fun k => k.nonce == slice m.body 4 32 && k.seq == m.seq) = none → fieldAt m.body 0 1 ≠ 1 →
    fieldAt m.body 0 1 ≠ 2 →
      ∃ t, exec (.sessionOpen m) s = .next t ∧
      Output.adp { typ := 7, session := 0, seq := m.seq, result := Adp.range, last := true, tagged := false } ∈ t.out ∧
      t.dict.sessions = s.dict.sessions ∧ OnlyChanges [.counters, .dict, .out] s t) ∧
  (∀ (m : AdpMsg) (good : Bool) (s : State),
    agentUp s = true → m.linkLocal = true → m.reserved = false → m.version = 1 →
    s.dict.keptOpens.find? (fun k => k.nonce == slice m.body 4 32 && k.seq == m.seq) = none → fieldAt m.body 0 1 = 1 →
    m.body.length = 263 → (slice m.body 92 57 ∈ (List.range 4).map fun i => s.dict.odBytes.getD (0x121001 + i) []) →
    ((s.dict.sessions.filter fun x => x.tenant.isNone).length < 4) →
    good = Config.ed448Verify (slice m.body 92 57) (m.body.take 149 ++ takePad 16 Config.serialNumber) (m.body.drop 149) →
      ∃ t, exec (.sessionOpen m) s = .next t ∧
      (good = true → t.dict.lastSession = s.dict.lastSession + 1 ∧ (∃ x ∈ t.dict.sessions, x.num = s.dict.lastSession + 1 ∧
        x.tenant = none ∧ x.heard = s.now) ∧ Logged 0x1101 [s.dict.lastSession + 1, 1, fieldAt (slice m.body 92 57) 0 8] s t ∧
        counter t 0xC40E06 = counter s 0xC40E06 + 1) ∧
      (good = false → t.dict.sessions = s.dict.sessions ∧ t.dict.lastSession = s.dict.lastSession ∧ ∃ r, Output.adp r ∈
        t.out ∧ r.typ = 7 ∧ r.seq = m.seq ∧ r.result = Adp.auth)) ∧
  (∀ (m : AdpMsg) (x : Session) (s : State),
    agentUp s = true → s.session m.session = some x →
      ∃ t, exec (.sessionClose true m) s = .next t ∧
      t.dict.sessions.map Session.num = (dropFirst (fun y => y.num == x.num) s.dict.sessions).map Session.num ∧
      Logged 0x1102 [x.num, 0] s t ∧
      Output.adp { typ := 8, response := false, session := x.num, seq := x.hubSeq + 1 } ∈ t.out ∧
      OnlyChanges [.counters, .log, .dict, .out] s t) ∧
  (∀ (m : AdpMsg) (x : Session) (s : State),
    agentUp s = true → m.linkLocal = true → m.reserved = false → m.version = 1 → s.session m.session = some x →
    m.tagOk = true → x.kept.find? (fun k => k.1 == m.seq) = none → x.lastSeq < m.seq →
      ∃ t, exec (.sessionClose false m) s = .next t ∧
      t.dict.sessions.map Session.num = (dropFirst (fun y => y.num == x.num) s.dict.sessions).map Session.num ∧
      Logged 0x1102 [x.num, 0] s t ∧ Output.adp { typ := 8, session := x.num, seq := m.seq } ∈ t.out ∧
      OnlyChanges [.counters, .log, .dict, .out] s t) ∧
  (∀ (n : Nat) (x : Session) (s : State),
    s.session n = some x → x.heard + 1000000 * cfg 0x120003 3000 s ≤ s.now →
      ∃ t, exec (.adpSessionTimeout n) s = .next t ∧
      t.dict.sessions.map Session.num = (dropFirst (fun y => y.num == x.num) s.dict.sessions).map Session.num ∧
      Logged 0x1102 [n, 1] s t ∧ OnlyChanges [.counters, .log, .dict, .out] s t) ∧
  (∀ (s : State),
    agentUp s = true → managerOpen s = false → s.dict.preBeat + 1000000000 ≤ s.now →
      ∃ t, exec .presessionHeartbeat s = .next t ∧
      Output.adp { typ := 6, response := false, session := 0, seq := 0, tagged := false, body := beatBody s } ∈ t.out ∧
      t.dict = { s.dict with preBeat := s.now } ∧ OnlyChanges [.dict, .out] s t) ∧
  (∀ (n : Nat) (x : Session) (s : State),
    agentUp s = true → s.session n = some x → x.beat + 1000000 * cfg 0x120002 1000 s ≤ s.now →
      ∃ t, exec (.sessionHeartbeatTimer n) s = .next t ∧
      Output.adp { typ := 6, response := false, session := n, seq := x.hubSeq + 1, body := beatBody s } ∈ t.out ∧
      t.session n = some { x with beat := s.now, hubSeq := x.hubSeq + 1 } ∧ OnlyChanges [.log, .out] s t) ∧
  (∀ (n : Nat) (x : Session) (s : State),
    s.session n = some x →
      ∃ t, exec (.blockTransferTimeout (some n)) s = .next t ∧
      (t.session n = some
        { x with surf := { x.surf with snaps := x.surf.snaps.filter (fun z => !idle10 s z.since), buf := x.surf.buf.filter fun z => !idle10 s z.since } })
        ∧
      OnlyChanges [.log] s t) ∧
  (∀ (s : State),
      ∃ t, exec (.blockTransferTimeout none) s = .next t ∧
      (t.dict =
        { s.dict with mb := { s.dict.mb with snaps := s.dict.mb.snaps.filter (fun z => !idle10 s z.since), buf := s.dict.mb.buf.filter fun z => !idle10 s z.since } })
        ∧
      OnlyChanges [.dict] s t) ∧
  (∀ (nonce : List Byte) (q : Nat) (k : KeptOpen) (s : State),
    s.dict.keptOpens = [k] → k.nonce = nonce → k.seq = q → k.since + 10000000000 ≤ s.now →
      ∃ t, exec (.sessionOpenPartsExpiry nonce q) s = .next t ∧ t.dict = { s.dict with keptOpens := [] } ∧
      OnlyChanges [.dict] s t) ∧
  (∀ (s : State),
    s.dict.beacon = true → s.dict.beaconTime + 100000000 ≤ s.now →
      ∃ t, exec .plcaFallback s = .next t ∧ t.dict = { s.dict with beacon := false } ∧ OnlyChanges [.dict] s t) ∧
  (∀ (s : State),
    fromIsland s.boot.st = true →
      ∃ t, exec .plcaBeacon s = .next t ∧ t.dict = { s.dict with beacon := true, beaconTime := s.now } ∧
      OnlyChanges [.dict] s t) ∧
  (∀ (a : List Byte) (dad : Bool) (s : State),
    agentUp s = true → a = linkLocalAddr →
      exec (.neighbourDiscovery a dad) s = .next (emit (.neighbour a) s)) ∧
  (∀ (m : AdpMsg) (s : State),
    (agentUp s = false ∨ m.linkLocal = false) →
      exec (.adpHeartbeat m) s = .next s ∧ exec (.sessionClose false m) s = .next s) ∧
  (∀ (m : AdpMsg) (tagged : Bool) (s : State),
    agentUp s = true → m.linkLocal = true → (m.reserved = true ∨ m.version ≠ 1) →
    tagged = ((s.session m.session).isSome && m.tagOk) →
      exec (.adpHeartbeat m) s = .next (reservedAnswer 6 tagged m s) ∧
      exec (.sessionClose false m) s = .next (reservedAnswer 8 tagged m s)) ∧
  (∀ (m : AdpMsg) (s : State),
    agentUp s = true → m.linkLocal = true → m.reserved = false → m.version = 1 →
    ((s.session m.session).isNone = true ∨ m.tagOk = false) →
      exec (.adpHeartbeat m) s = .next (authFailed m.src s) ∧ exec (.sessionClose false m) s = .next (authFailed m.src s)) ∧
  (∀ (m : AdpMsg) (k : Nat × AdpResp) (x : Session) (s : State),
    agentUp s = true → m.linkLocal = true → m.reserved = false → m.version = 1 → s.session m.session = some x →
    m.tagOk = true → x.kept.find? (fun k => k.1 == m.seq) = some k →
      (exec (.adpHeartbeat m) s = .next (emit (.adp k.2) (s.onSession x.num fun y => { y with heard := s.now }))) ∧
      (exec (.sessionClose false m) s = .next (emit (.adp k.2) (s.onSession x.num fun y => { y with heard := s.now })))) ∧
  (∀ (m : AdpMsg) (x : Session) (s : State),
    agentUp s = true → m.linkLocal = true → m.reserved = false → m.version = 1 → s.session m.session = some x →
    m.tagOk = true → x.kept.find? (fun k => k.1 == m.seq) = none → m.seq ≤ x.lastSeq →
      (exec (.adpHeartbeat m) s = .next (bump 0xC40E03 1 (s.onSession x.num fun y => { y with heard := s.now }))) ∧
      (exec (.sessionClose false m) s = .next (bump 0xC40E03 1 (s.onSession x.num fun y => { y with heard := s.now })))) ∧
  (∀ (a : List Byte) (n q : Nat) (ok dad : Bool) (m : AdpMsg) (s : State),
    agentUp s = false →
      exec (.eventAck n q ok) s = .next s ∧ exec (.eventResend n) s = .next s ∧ exec (.sessionOpen m) s = .next s ∧
      exec (.sessionClose true m) s = .next s ∧ exec .presessionHeartbeat s = .next s ∧
      exec (.sessionHeartbeatTimer n) s = .next s ∧ exec (.neighbourDiscovery a dad) s = .next s) ∧
  (∀ (n : Nat) (m : AdpMsg) (s : State),
    (s.session n).isNone = true → m.session = n →
      exec (.eventResend n) s = .next s ∧ exec (.sessionClose true m) s = .next s ∧
      exec (.sessionHeartbeatTimer n) s = .next s ∧ exec (.adpSessionTimeout n) s = .next s) ∧
  (∀ (n : Nat) (x : Session) (s : State),
    s.session n = some x → s.now < x.beat + 1000000 * cfg 0x120002 1000 s →
    s.now < x.heard + 1000000 * cfg 0x120003 3000 s →
    (x.event.isNone = true ∨ s.now < (x.event.map fun e => e.2.2.2).getD 0 + 100000000) →
      exec (.sessionHeartbeatTimer n) s = .next s ∧ exec (.adpSessionTimeout n) s = .next s ∧
      exec (.eventResend n) s = .next s) ∧
  (∀ (s : State),
    (managerOpen s = true ∨ s.now < s.dict.preBeat + 1000000000) →
      exec .presessionHeartbeat s = .next s) ∧
  (∀ (s : State),
    (s.dict.beacon = false ∨ s.now < s.dict.beaconTime + 100000000) →
      exec .plcaFallback s = .next s) ∧
  (∀ (s : State),
    fromIsland s.boot.st = false →
      exec .plcaBeacon s = .next s) ∧
  (∀ (a : List Byte) (dad : Bool) (s : State),
    a ≠ linkLocalAddr →
      exec (.neighbourDiscovery a dad) s = .next s) ∧
  (∀ (n q : Nat) (ok : Bool) (s : State),
    agentUp s = true → ((s.session n).isNone = true ∨ ok = false) →
      exec (.eventAck n q ok) s = .next (authFailed 0 s)) ∧
  (∀ (n q : Nat) (x : Session) (s : State),
    agentUp s = true → s.session n = some x → x.event.map Prod.fst ≠ some q →
      exec (.eventAck n q true) s = .next (s.onSession n fun y => { y with heard := s.now })) ∧
  (∀ (n q a b d : Nat) (x : Session) (s : State),
    agentUp s = true → s.session n = some x → x.event = some (q, a, b, d) →
      exec (.eventAck n q true) s = .next (deliver (((s.onSession n fun y => { y with heard := s.now }).onSession n fun y =>
        { y with event := none }).onDict fun d => { d with logAck := max d.logAck b }))) ∧
  (∀ (m : AdpMsg) (s : State),
    m.linkLocal = false →
      exec (.sessionOpen m) s = .next s) ∧
  (∀ (m : AdpMsg) (s : State),
    agentUp s = true → m.linkLocal = true → (m.reserved = true ∨ m.version ≠ 1) →
      exec (.sessionOpen m) s = .next (reservedAnswer 7 false m s)) ∧
  (∀ (m : AdpMsg) (k : KeptOpen) (s : State),
    agentUp s = true → m.linkLocal = true → m.reserved = false → m.version = 1 →
    s.dict.keptOpens.find? (fun k => k.nonce == slice m.body 4 32 && k.seq == m.seq) = some k →
      exec (.sessionOpen m) s = .next { s with out := (k.parts.map Output.adp).reverse ++ s.out }) ∧
  (∀ (m : AdpMsg) (anchors : List (List Byte)) (s : State),
    agentUp s = true → m.linkLocal = true → m.reserved = false → m.version = 1 →
    s.dict.keptOpens.find? (fun k => k.nonce == slice m.body 4 32 && k.seq == m.seq) = none → fieldAt m.body 0 1 = 1 →
    (anchors = ((List.range 4).map fun i => s.dict.odBytes.getD (0x121001 + i) []).filter fun a => !a.isEmpty) →
    (m.body.length ≠ 263 ∨ anchors.contains (slice m.body 92 57) = false) →
      exec (.sessionOpen m) s = .next (openAnswer m 0 Adp.auth [] (bump 0xC40E01 1 s))) ∧
  (∀ (m : AdpMsg) (good : Bool) (s : State),
    agentUp s = true → m.linkLocal = true → m.reserved = false → m.version = 1 →
    s.dict.keptOpens.find? (fun k => k.nonce == slice m.body 4 32 && k.seq == m.seq) = none → fieldAt m.body 0 1 = 1 →
    m.body.length = 263 → (slice m.body 92 57 ∈ (List.range 4).map fun i => s.dict.odBytes.getD (0x121001 + i) []) →
    (4 ≤ (s.dict.sessions.filter fun x => x.tenant.isNone).length) →
    good = Config.ed448Verify (slice m.body 92 57) (m.body.take 149 ++ takePad 16 Config.serialNumber) (m.body.drop 149) →
      exec (.sessionOpen m) s = .next (openAnswer m 0 (if good then Adp.busy else Adp.auth) [] (bump 0xC40E01 1 s))) ∧
  (∀ (m : AdpMsg) (k : TenantKey) (good : Bool) (s : State),
    agentUp s = true → m.linkLocal = true → m.reserved = false → m.version = 1 →
    s.dict.keptOpens.find? (fun k => k.nonce == slice m.body 4 32 && k.seq == m.seq) = none → fieldAt m.body 0 1 = 2 →
    s.key.tenants = [k] → k.nonce = slice m.body 36 64 → m.body.length = 181 →
    ((s.dict.sessions.filter fun x => x.tenant.isSome).length < 16) →
    good = (takePad 32 (Config.kmac k.key (m.body.take 149)) == m.body.drop 149) →
      ∃ t, exec (.sessionOpen m) s = .next t ∧
      (good = true → t.dict.lastSession = s.dict.lastSession + 1 ∧ (∃ x ∈ t.dict.sessions, x.num = s.dict.lastSession + 1 ∧
        x.tenant = some (k.plot, k.num) ∧ x.heard = s.now) ∧ Logged 0x1101 [s.dict.lastSession + 1, 2, fieldAt k.nonce 0 8] s
        t ∧ counter t 0xC40E06 = counter s 0xC40E06 + 1) ∧
      (good = false → t = openAnswer m 0 Adp.auth [] (bump 0xC40E01 1 s))) ∧
  (∀ (m : AdpMsg) (k : TenantKey) (good : Bool) (s : State),
    agentUp s = true → m.linkLocal = true → m.reserved = false → m.version = 1 →
    s.dict.keptOpens.find? (fun k => k.nonce == slice m.body 4 32 && k.seq == m.seq) = none → fieldAt m.body 0 1 = 2 →
    s.key.tenants = [k] → k.nonce = slice m.body 36 64 → m.body.length = 181 →
    (16 ≤ (s.dict.sessions.filter fun x => x.tenant.isSome).length) →
    good = (takePad 32 (Config.kmac k.key (m.body.take 149)) == m.body.drop 149) →
      exec (.sessionOpen m) s = .next (openAnswer m 0 (if good then Adp.busy else Adp.auth) [] (bump 0xC40E01 1 s))) ∧
  (∀ (m : AdpMsg) (s : State),
    agentUp s = true → m.linkLocal = true → m.reserved = false → m.version = 1 →
    s.dict.keptOpens.find? (fun k => k.nonce == slice m.body 4 32 && k.seq == m.seq) = none → fieldAt m.body 0 1 = 2 →
    (s.key.tenants.all (fun k => k.nonce != slice m.body 36 64) = true ∨ m.body.length ≠ 181) →
      exec (.sessionOpen m) s = .next (openAnswer m 0 Adp.auth [] (bump 0xC40E01 1 s))) ∧
  (∀ (nonce : List Byte) (q : Nat) (s : State),
      exec (.sessionOpenPartsExpiry nonce q) s = .next (s.onDict fun d =>
        { d with keptOpens := d.keptOpens.filter fun k => !(k.nonce == nonce && k.seq == q && idle10 s k.since) })) ∧
  (∀ (n : Option Nat) (s : State),
      exec (.blockTransferTimeout n) s = .next (transferExpires n s))

/-- PWR_GOOD and RESET_N both high start the device; PWR_GOOD falling ends every state at once, RESET_N falling resets the device,
and both clear the log; an edge on a pin at that level already, or without the other, only moves the pin. The PLL locks, or
FAULT_N is asserted; lock lost later makes the device FAULTED with cause 2; the fuse map read takes it to ISLAND, or to FAULTED
with cause 1; outside their states these change nothing. A boot command in its state with none running is answered OK and runs
(LOAD of an image of 194 to 67,108,864 bytes, else DETAIL 3; MEASURE to MEASURED, or to RECOVERY with the image's reason; CLOCK;
POWER with the tray seated and a good mask, else refused with its reason; TRAIN, fatal when a stack fails; VERIFY, fatal when
the central services fail; SERVE); RESTART resets the device with BOOT_STATE_CHANGED. While one runs a command is answered
FAIL_STATE; outside its state it is answered OK and refused in BOOT_RESULT; with the Lania link down it has no effect. A domain
that misses regulation during POWER is tried once more and then fails: the CXL domain with its ports, a headland half with its
port groups; else nothing happens. A command completes with its state, result and event; with none running nothing completes. -/
def Obligations.StartsAndBootCommands : Prop :=
  (∀ (s : State),
    s.boot.st = .off → s.boot.resetN = true →
      ∃ t, exec .powerGoodRise s = .next t ∧ t.boot = { s.boot with pwrGood := true, st := .starting } ∧
      OnlyChanges [.boot] s t) ∧
  (∀ (s : State),
    s.boot.pwrGood = true →
      ∃ t, exec .powerGoodFall s = .next t ∧
      t.boot =
        { st := .off, pll := false, pwrGood := false, resetN := s.boot.resetN, capAlert := s.boot.capAlert, tray := s.boot.tray, wake := s.boot.wake }
        ∧
      t.dict = {} ∧ t.sw = {} ∧ t.xlt = {} ∧ t.coh = {} ∧ t.fur = {} ∧ t.coll = {} ∧ t.sync = {} ∧ t.ports = {} ∧
      t.lania = {} ∧ t.power = {} ∧ t.time = {} ∧ t.spad = [] ∧ t.pending = s.pending ∧
      (∀ a, inTier3 a = false → Mem.read t.mem a 1 = [0])) ∧
  (∀ (s : State),
    s.boot.resetN = true → s.boot.pwrGood = true → s.boot.st ≠ .off →
      ∃ t, exec .resetNAssert s = .next t ∧
      t.boot =
        { st := .starting, pll := false, pwrGood := true, resetN := false, capAlert := s.boot.capAlert, tray := s.boot.tray, wake := s.boot.wake }
        ∧
      t.dict = {} ∧ t.sw = {} ∧ t.xlt = {} ∧ t.coh = {} ∧ t.fur = {} ∧ t.coll = {} ∧ t.sync = {} ∧ t.ports = {} ∧
      t.lania = {} ∧ t.power = {} ∧ t.time = {} ∧ t.spad = [] ∧ t.pending = s.pending ∧
      (∀ a, inTier3 a = false → Mem.read t.mem a 1 = [0])) ∧
  (∀ (s : State),
    s.boot.st = .off → s.boot.pwrGood = true →
      ∃ t, exec .resetNRelease s = .next t ∧ t.boot = { s.boot with resetN := true, st := .starting } ∧
      OnlyChanges [.boot] s t) ∧
  (∀ (s : State),
    s.boot.st = .starting → s.boot.pwrGood = true → s.boot.resetN = true → s.boot.fault = false →
      ∃ t, exec .pllLock s = .next t ∧ t.boot = { s.boot with pll := true } ∧ OnlyChanges [.boot] s t) ∧
  (∀ (s : State),
    s.boot.st = .starting → s.boot.pwrGood = true → s.boot.pll = false →
      ∃ t, exec .pllLockTimeout s = .next t ∧ t.boot = { s.boot with fault := true } ∧ OnlyChanges [.boot] s t) ∧
  (∀ (s : State),
    fromIsland s.boot.st = true → s.boot.st ≠ .faulted → s.boot.pll = true →
      ∃ t, exec .pllLockLost s = .next (settle t) ∧ t.boot.st = .faulted ∧ t.boot.cause = 2 ∧ t.boot.fault = true ∧
      t.boot.powered = 0 ∧ t.boot.run = none ∧ t.boot.pll = false ∧ Logged 0x2113 [2, s.boot.st.code] s t) ∧
  (∀ (s : State),
    s.boot.st = .starting → s.boot.pwrGood = true → s.boot.pll = true → s.boot.resetN = true →
      ∃ t, exec (.islandReady true) s = .next t ∧ t.boot = { s.boot with st := .island } ∧ OnlyChanges [.boot] s t) ∧
  (∀ (s : State),
    s.boot.st = .starting → s.boot.pwrGood = true → s.boot.pll = true → s.boot.resetN = true →
      ∃ t, exec (.islandReady false) s = .next t ∧ t.boot.st = .faulted ∧ t.boot.cause = 1 ∧ t.boot.fault = true ∧
      t.boot.powered = 0 ∧ t.boot.run = none ∧ Logged 0x2113 [1, DevSt.island.code] s t) ∧
  (∀ (s : State),
    s.lania.up = true → s.boot.run = none → s.boot.st = .island → 194 ≤ s.boot.imgLen → s.boot.imgLen ≤ 67108864 →
      ∃ t, exec .bootLoad s = .next (regAck St.ok t) ∧
      t.boot = { s.boot with imgBytes := s.boot.imgLen, run := some { cmd := 1, next := .loaded }, resDone := false } ∧
      OnlyChanges [.boot] s t) ∧
  (∀ (s : State),
    s.lania.up = true → s.boot.run = none → s.boot.st = .island → (s.boot.imgLen < 194 ∨ 67108864 < s.boot.imgLen) →
      ∃ t, exec .bootLoad s = .next (regAck St.ok t) ∧
      t.boot = { s.boot with resStatus := St.state, resDetail := 3, resDone := true } ∧ OnlyChanges [.boot] s t) ∧
  (∀ (s : State),
    s.lania.up = true → s.boot.run = none → s.boot.st = .loaded →
      ∃ t, exec .bootMeasure s = .next (regAck St.ok t) ∧
      t.boot.digest = takePad 64 (Config.shake256 (Mem.read s.boot.image 0 s.boot.imgBytes) 64) ∧ t.boot.resDone = false ∧
      (∀ r, imageReason s = some r → t.boot.run = some { cmd := 2, next := .recovery, status := St.state, detail := r }) ∧
      (imageReason s = none → t.boot.run = some { cmd := 2, next := .measured } ∧ t.boot.fwSeq = imageWord s 8) ∧
      t.boot.st = .loaded ∧ OnlyChanges [.boot] s t) ∧
  (∀ (s : State),
    s.lania.up = true → s.boot.run = none → s.boot.st = .measured →
      ∃ t, exec .bootClock s = .next (regAck St.ok t) ∧
      t.boot = { s.boot with run := some { cmd := 3, next := .clocked }, resDone := false } ∧ OnlyChanges [.boot] s t) ∧
  (∀ (l : List (Option CxlDev)) (s : State),
    s.lania.up = true → s.boot.run = none → s.boot.st = .clocked → s.boot.tray = true → maskReason s.boot.mask = none →
      ∃ t, exec (.bootPower l) s = .next (regAck St.ok t) ∧
      t.boot =
        { s.boot with powered := s.boot.mask, retried := [], failedDomains := [], run := some { cmd := 4, next := .powered }, resDone := false }
        ∧
      (bitOf s.boot.mask 34 = false → t.cxl = s.cxl) ∧
      OnlyChanges [.boot, .cxl, .key, .counters, .log, .dict, .out, .free] s t) ∧
  (∀ (l : List (Option CxlDev)) (s : State),
    s.lania.up = true → s.boot.run = none → s.boot.st = .clocked → s.boot.tray = false →
      ∃ t, exec (.bootPower l) s = .next (regAck St.ok t) ∧
      t.boot = { s.boot with resStatus := St.state, resDetail := 0x20, resDone := true } ∧ OnlyChanges [.boot] s t) ∧
  (∀ (d : Nat) (r : BootRun) (s : State),
    s.boot.run = some r → r.cmd = 4 → domainOn s d = true → s.boot.retried.contains d = false →
      ∃ t, exec (.powerStageTimeout d) s = .next t ∧ t.boot = { s.boot with retried := s.boot.retried ++ [d] } ∧
      OnlyChanges [.boot] s t) ∧
  (∀ (d : Nat) (r : BootRun) (s : State),
    s.boot.run = some r → r.cmd = 4 → domainOn s d = true → s.boot.retried.contains d = true → stageOf d ≠ 1 →
    stageOf d ≠ 3 → d ≠ 34 → d ≠ 16 → d ≠ 17 →
      ∃ t, exec (.powerStageTimeout d) s = .next t ∧
      t.boot =
        { s.boot with failedDomains := s.boot.failedDomains ++ [d], powered := s.boot.powered - (s.boot.powered &&& 2 ^ d) } ∧
      Logged 0x2111 [d, stageOf d, 0] s t ∧ OnlyChanges [.boot, .counters, .log, .dict, .out] s t) ∧
  (∀ (d : Nat) (r : BootRun) (s : State),
    s.boot.run = some r → r.cmd = 4 → domainOn s d = true → s.boot.retried.contains d = true →
    (stageOf d = 1 ∨ stageOf d = 3) → s.boot.st ≠ .faulted →
      ∃ t, exec (.powerStageTimeout d) s = .next t ∧ t.boot.st = .faulted ∧ t.boot.cause = 3 ∧ t.boot.fault = true ∧
      t.boot.powered = 0 ∧ t.boot.run = none) ∧
  (∀ (s : State),
    s.lania.up = true → s.boot.run = none → s.boot.st = .powered → csOn s = true → s.pool.retiredPcs = [] →
    ∀ k ∈ List.range 8, pcMask s k = 0 →
      ∃ t, exec (.bootTrain [] []) s = .next (regAck St.ok t) ∧ t.boot.run = some { cmd := 5, next := .trained } ∧
      t.pool.exts = [] ∧ (∀ a, Mem.read t.mem a 1 = if inTier3 a then Mem.read s.mem a 1 else [0]) ∧
      t.boot.trained.getD 255 (0, 0) = (s.now, stackTemp s 7) ∧ t.boot.st = .powered) ∧
  (∀ (s : State),
    s.lania.up = true → s.boot.run = none → s.boot.st = .trained →
      ∃ t, exec (.bootVerify []) s = .next (regAck St.ok t) ∧ t.boot.run = some { cmd := 6, next := .verified } ∧
      t.boot.resDone = false ∧ t.boot.st = .trained ∧ OnlyChanges [.boot, .fur, .counters, .log, .dict, .out, .free] s t) ∧
  (∀ (s : State),
    s.lania.up = true → s.boot.run = none → s.boot.st = .trained → csOn s = true →
      ∃ t, exec (.bootVerify [.central]) s = .next (regAck St.ok t) ∧
      t.boot.run = some { cmd := 6, next := .faulted, status := St.internal, detail := 5 } ∧ t.boot.st = .trained) ∧
  (∀ (s : State),
    s.lania.up = true → s.boot.run = none → s.boot.st = .verified →
      ∃ t, exec .bootServe s = .next (regAck St.ok t) ∧
      t.boot = { s.boot with run := some { cmd := 7, next := .service }, resDone := false } ∧ OnlyChanges [.boot] s t) ∧
  (∀ (s : State),
    s.lania.up = true → s.boot.run = none → fromIsland s.boot.st = true → s.boot.mgmtDown = false →
      ∃ t, exec .bootRestart s = .next (regAck St.ok t) ∧
      t.boot =
        { st := .starting, pll := false, pwrGood := s.boot.pwrGood, resetN := s.boot.resetN, capAlert := s.boot.capAlert, tray := s.boot.tray, wake := s.boot.wake }
        ∧
      Logged 0x2110 [s.boot.st.code, DevSt.island.code, 8, St.ok, 0] s t ∧ t.sw = {} ∧ t.xlt = {} ∧ t.coh = {} ∧ t.fur = {}
        ∧
      t.coll = {} ∧ t.sync = {} ∧ t.ports = {} ∧ t.lania = {} ∧ t.power = {} ∧ t.time = {} ∧ t.spad = [] ∧
      t.pending = s.pending ∧ (∀ a, inTier3 a = false → Mem.read t.mem a 1 = [0])) ∧
  (∀ (r : BootRun) (s : State),
    s.boot.run = some r → r.next ≠ .faulted →
      ∃ t, exec .bootCommandComplete s = .next (settle t) ∧ t.boot.st = r.next ∧ t.boot.run = none ∧
      t.boot.resStatus = r.status ∧ t.boot.resDetail = r.detail ∧ t.boot.resDone = true ∧
      Logged 0x2110 [s.boot.st.code, r.next.code, r.cmd, r.status, r.detail] s t) ∧
  (∀ (r : BootRun) (s : State),
    s.boot.run = some r → r.next = .faulted → s.boot.st ≠ .faulted →
      ∃ t, exec .bootCommandComplete s = .next (settle t) ∧ t.boot.st = .faulted ∧ t.boot.cause = r.detail ∧
      t.boot.fault = true ∧ t.boot.powered = 0 ∧ t.boot.run = none ∧ t.boot.resStatus = St.internal ∧ t.boot.resDone = true
        ∧
      Logged 0x2110 [s.boot.st.code, DevSt.faulted.code, r.cmd, St.internal, r.detail] s t) ∧
  (∀ (s : State),
    s.boot.pwrGood = false → s.boot.resetN = false →
      exec .powerGoodFall s = .next s ∧ exec .resetNAssert s = .next s ∧
      (exec .powerGoodRise s = .next (s.onBoot fun b => { b with pwrGood := true })) ∧
      (exec .resetNRelease s = .next (s.onBoot fun b => { b with resetN := true }))) ∧
  (∀ (s : State),
    s.boot.st ≠ .off →
      (exec .powerGoodRise s = .next (s.onBoot fun b => { b with pwrGood := true })) ∧
      (exec .resetNRelease s = .next (s.onBoot fun b => { b with resetN := true }))) ∧
  (∀ (s : State),
    s.boot.resetN = true → (s.boot.pwrGood = false ∨ s.boot.st = .off) →
      exec .resetNAssert s = .next (s.onBoot fun b => { b with resetN := false })) ∧
  (∀ (ok : Bool) (s : State),
    (s.boot.st ≠ .starting ∨ s.boot.pwrGood = false) →
      exec .pllLock s = .next s ∧ exec .pllLockTimeout s = .next s ∧ exec (.islandReady ok) s = .next s) ∧
  (∀ (ok : Bool) (s : State),
    s.boot.resetN = false →
      exec .pllLock s = .next s ∧ exec (.islandReady ok) s = .next s) ∧
  (∀ (s : State),
    s.boot.fault = true →
      exec .pllLock s = .next s) ∧
  (∀ (s : State),
    s.boot.pll = true →
      exec .pllLockTimeout s = .next s) ∧
  (∀ (ok : Bool) (s : State),
    s.boot.pll = false →
      exec (.islandReady ok) s = .next s ∧ exec .pllLockLost s = .next (settle s)) ∧
  (∀ (s : State),
    fromIsland s.boot.st = false →
      exec .pllLockLost s = .next (settle s)) ∧
  (∀ (s : State),
    fromIsland s.boot.st = true → s.boot.pll = true →
      exec .pllLockLost s = .next (settle (enterFaulted 2 (s.onBoot fun b => { b with pll := false })))) ∧
  (∀ (cxl : List (Option CxlDev)) (pcs dead : List Nat) (fails : List KatFail) (s : State),
    s.lania.up = false →
      exec .bootLoad s = .next s ∧ exec .bootMeasure s = .next s ∧ exec .bootClock s = .next s ∧
      exec (.bootPower cxl) s = .next s ∧ exec (.bootTrain pcs dead) s = .next s ∧ exec (.bootVerify fails) s = .next s ∧
      exec .bootServe s = .next s ∧ exec .bootRestart s = .next s) ∧
  (∀ (cxl : List (Option CxlDev)) (pcs dead : List Nat) (fails : List KatFail) (s : State),
    s.lania.up = true → s.boot.run.isSome = true →
      exec .bootLoad s = .next (regAck St.state s) ∧ exec .bootMeasure s = .next (regAck St.state s) ∧
      exec .bootClock s = .next (regAck St.state s) ∧ exec (.bootPower cxl) s = .next (regAck St.state s) ∧
      exec (.bootTrain pcs dead) s = .next (regAck St.state s) ∧ exec (.bootVerify fails) s = .next (regAck St.state s) ∧
      exec .bootServe s = .next (regAck St.state s) ∧ exec .bootRestart s = .next (regAck St.state s)) ∧
  (∀ (s : State),
    s.lania.up = true → s.boot.run = none → s.boot.st ≠ .island →
      exec .bootLoad s = .next (regAck St.ok (bootRefuse 0 s))) ∧
  (∀ (s : State),
    s.lania.up = true → s.boot.run = none → s.boot.st ≠ .loaded →
      exec .bootMeasure s = .next (regAck St.ok (bootRefuse 0 s))) ∧
  (∀ (s : State),
    s.lania.up = true → s.boot.run = none → s.boot.st ≠ .measured →
      exec .bootClock s = .next (regAck St.ok (bootRefuse 0 s))) ∧
  (∀ (cxl : List (Option CxlDev)) (s : State),
    s.lania.up = true → s.boot.run = none → s.boot.st ≠ .clocked →
      exec (.bootPower cxl) s = .next (regAck St.ok (bootRefuse 0 s))) ∧
  (∀ (pcs : List Nat) (dead : List Nat) (s : State),
    s.lania.up = true → s.boot.run = none → s.boot.st ≠ .powered →
      exec (.bootTrain pcs dead) s = .next (regAck St.ok (bootRefuse 0 s))) ∧
  (∀ (fails : List KatFail) (s : State),
    s.lania.up = true → s.boot.run = none → s.boot.st ≠ .trained →
      exec (.bootVerify fails) s = .next (regAck St.ok (bootRefuse 0 s))) ∧
  (∀ (s : State),
    s.lania.up = true → s.boot.run = none → s.boot.st ≠ .verified →
      exec .bootServe s = .next (regAck St.ok (bootRefuse 0 s))) ∧
  (∀ (s : State),
    s.lania.up = true → s.boot.run = none → fromIsland s.boot.st = false →
      exec .bootRestart s = .next (regAck St.ok (bootRefuse 0 s))) ∧
  (∀ (cxl : List (Option CxlDev)) (r : Nat) (s : State),
    s.lania.up = true → s.boot.run = none → s.boot.st = .clocked → s.boot.tray = true → maskReason s.boot.mask = some r →
      exec (.bootPower cxl) s = .next (regAck St.ok (bootRefuse r s))) ∧
  (∀ (cxl : List (Option CxlDev)) (u s : State),
    s.lania.up = true → s.boot.run = none → s.boot.st = .clocked → s.boot.tray = true → maskReason s.boot.mask = none →
    (u = s.onBoot fun b => { b with powered := b.mask, retried := [], failedDomains := [] }) →
      exec (.bootPower cxl) s = .next (regAck St.ok (bootRuns { cmd := 4, next := .powered } (if bitOf s.boot.mask 34 then
        cxlPower cxl u else u)))) ∧
  (∀ (pcs dead : List Nat) (s : State),
    s.lania.up = true → s.boot.run = none → s.boot.st = .powered → csOn s = false →
      exec (.bootTrain pcs dead) s = .next (regAck St.ok (bootRuns { cmd := 5, next := .trained } s))) ∧
  (∀ (pcs dead : List Nat) (s : State),
    s.lania.up = true → s.boot.run = none → s.boot.st = .powered → csOn s = true → dead ≠ [] →
      ∃ t, exec (.bootTrain pcs dead) s = .next (regAck St.ok t) ∧
      t.boot.run = some { cmd := 5, next := .faulted, status := St.internal, detail := 4 } ∧ t.boot.st = .powered ∧
      (∀ c ∈ pcs, 8 * (c % 32) + c / 32 % 8 ∈ t.pool.retiredPcs)) ∧
  (∀ (pcs dead : List Nat) (s : State),
    s.lania.up = true → s.boot.run = none → s.boot.st = .powered →
      exec (.bootTrain pcs dead) s = .next (regAck St.ok (bootTrain pcs dead s))) ∧
  (∀ (fails : List KatFail) (s : State),
    s.lania.up = true → s.boot.run = none → s.boot.st = .trained →
      ∃ t, exec (.bootVerify fails) s = .next (regAck St.ok t) ∧
      t.boot.run = (if (fails.filter (katOn s)).any (fun f => f == .headland || f == .central) = true then some
        { cmd := 6, next := .faulted, status := St.internal, detail := 5 } else some { cmd := 6, next := .verified }) ∧
      t.boot.resDone = false ∧ t.boot.st = .trained) ∧
  (∀ (s : State),
    s.lania.up = true → s.boot.run = none → fromIsland s.boot.st = true →
      exec .bootRestart s = .next (regAck St.ok (restart false s))) ∧
  (∀ (d : Nat) (s : State),
    (s.boot.run.all (fun r => r.cmd != 4) = true ∨ domainOn s d = false) →
      exec (.powerStageTimeout d) s = .next s) ∧
  (∀ (r : BootRun) (s : State),
    s.boot.run = some r → r.cmd = 4 → domainOn s 34 = true → s.boot.retried.contains 34 = true →
      ∃ t, exec (.powerStageTimeout 34) s = .next t ∧ t.cxl = { s.cxl with ports := [], split := false } ∧
      t.boot =
        { s.boot with failedDomains := s.boot.failedDomains ++ [34], powered := s.boot.powered - (s.boot.powered &&& 2 ^ 34) }
        ∧
      Logged 0x2111 [34, 2, 0] s t ∧ OnlyChanges [.boot, .cxl, .counters, .log, .dict, .out] s t) ∧
  (∀ (d : Nat) (r : BootRun) (s : State),
    s.boot.run = some r → r.cmd = 4 → domainOn s d = true → s.boot.retried.contains d = true → (d = 16 ∨ d = 17) →
      exec (.powerStageTimeout d) s = .next (unpower ((List.range 16).filter fun e => e % 2 = d - 16) (unpower [d] (raise
        0x2111 [d, 4, 0] (s.onBoot fun b => { b with failedDomains := b.failedDomains ++ [d] }))))) ∧
  (∀ (s : State),
    s.boot.run = none →
      exec .bootCommandComplete s = .next (settle s)) ∧
  (∀ (r : BootRun) (s : State),
    s.boot.run = some r → r.next = .faulted →
      exec .bootCommandComplete s = .next (settle (enterFaulted r.detail s)))

/-- In SERVICE with no reset running, by ResetCommand or by RST_CMD with the Lania link up (answered OK): CORE begins with the core
answering FAIL_CORE_RESET and its threads without work; CLUSTER begins on every core of it, and one that is off completes at
once; PLOT begins on the plot's cores. A core's or cluster's reset finishes once nothing it issued is unanswered: its cores are
cleared, and RESET_DONE is logged; a plot's with its last core; before that nothing happens. DEVICE with target 0xD5 resets
every unit and keeps the log; with DRAIN it holds the ports and begins. A reset that the device's state, its target or a running
reset refuses has no effect by the dictionary, and by RST_CMD only RST_RESULT's FAIL_STATE; with the link down RST_CMD has none.
A due pseudo-channel retrains in ten steps; a failure starts them again, a second retires it; a stack interface that is lost is
remembered with HBM_STACK_LOST; what is not due changes nothing. The watchdog ends every session and transfer; the return of the
management core counts a restart when the image is sound, and a held mailbox command is carried out. -/
def Obligations.ResetsAndRetraining : Prop :=
  (∀ (dict : Bool) (c : Nat) (s : State),
    (dict = false → s.lania.up = true) → inService s = true → s.boot.rst = none → c < 64 →
      ∃ t, exec (.resetCore dict c) s = .next (settle (if dict then t else regAck St.ok t)) ∧
      t.boot.rst = some (.core c false false) ∧ t.boot.rstDone = false ∧ t.boot.rstStatus = St.ok ∧ t.boot.rstSince = s.now
        ∧
      (t.core c).resetting = true ∧ (t.core c).loading = false ∧ (∀ h, (t.thread c h).incs = [])) ∧
  (∀ (c : Nat) (own : Bool) (s : State),
    (s.core c).resetting = true → nodeQuiet s (nodeOf s (0x80 + c)) = true → s.boot.rst = some (.core c own false) →
    s.boot.rstQueue = [] →
      ∃ t, exec (.coreResetDone c) s = .next (settle t) ∧ (t.core c).prog = none ∧ (t.core c).threads = [] ∧
      (t.core c).resetting = false ∧ (t.core c).st = (if (s.core c).seqOk then .empty else .out) ∧
      (∀ a, a < 2 ^ 21 → spadRead t c a 1 = [0]) ∧ t.boot.rst = none ∧
      (own = false → t.boot.rstDone = true ∧ t.boot.rstStatus = St.ok) ∧ counter t 0xC40F01 = counter s 0xC40F01 + 1 ∧
      Logged 0x2114 [0, c, (s.now - s.boot.rstSince) / 1000, counter s 0xC40F04 - s.boot.rstBase] s t ∧
      (∀ d, d ≠ c → t.core d = s.core d)) ∧
  (∀ (dict : Bool) (k : Nat) (s : State),
    (dict = false → s.lania.up = true) → inService s = true → s.boot.rst = none → k < 8 → domainOn s (18 + k) = true →
      ∃ t, exec (.resetCluster dict k) s = .next (settle (if dict then t else regAck St.ok t)) ∧
      t.boot.rst = some (.cluster k) ∧ t.boot.rstDone = false ∧ t.boot.rstStatus = St.ok ∧ t.boot.rstSince = s.now ∧
      (∀ c ∈ clusterCores k, (t.core c).resetting = true)) ∧
  (∀ (dict : Bool) (k : Nat) (s : State),
    (dict = false → s.lania.up = true) → inService s = true → s.boot.rst = none → k < 8 → domainOn s (18 + k) = false →
      ∃ t, exec (.resetCluster dict k) s = .next (settle (if dict then t else regAck St.ok t)) ∧ t.boot.rst = none ∧
      t.boot.rstDone = true ∧ counter t 0xC40F02 = counter s 0xC40F02 + 1 ∧ Logged 0x2114 [1, k, 0, 0] s t ∧ t.fur = s.fur) ∧
  (∀ (k : Nat) (s : State),
    s.boot.rst = some (.cluster k) → s.boot.rstQueue = [] → ∀ c ∈ clusterCores k, nodeQuiet s (nodeOf s (0x80 + c)) = true →
      ∃ t, exec (.clusterResetDone k []) s = .next (settle t) ∧
      (∀ c ∈ clusterCores k, (t.core c).prog = none ∧ (t.core c).resetting = false ∧ (t.core c).threads = []) ∧
      t.boot.rst = none ∧ t.boot.rstDone = true ∧ counter t 0xC40F02 = counter s 0xC40F02 + 1 ∧
      counter t 0xC40F01 = counter s 0xC40F01 + 8 ∧
      Logged 0x2114 [1, k, (s.now - s.boot.rstSince) / 1000, counter s 0xC40F04 - s.boot.rstBase] s t) ∧
  (∀ (dict : Bool) (n : Nat) (s : State),
    (dict = false → s.lania.up = true) → inService s = true → s.boot.rst = none → 1 ≤ n → n ≤ 8 →
    ((s.plot n).st = .active ∨ (s.plot n).st = .hedged) → coresOf s n ≠ [] →
      ∃ t, exec (.resetPlot dict n) s = .next (settle (if dict then t else regAck St.ok t)) ∧ t.boot.rst = some (.plot n) ∧
      t.boot.rstDone = false ∧ t.boot.rstStatus = St.ok ∧ t.boot.rstSince = s.now ∧
      (∀ c ∈ coresOf s n, (t.core c).resetting = true)) ∧
  (∀ (dict : Bool) (n : Nat) (s : State),
    (dict = false → s.lania.up = true) → inService s = true → s.boot.rst = none → 1 ≤ n → n ≤ 8 →
    ((s.plot n).st = .active ∨ (s.plot n).st = .hedged) → coresOf s n = [] →
    (∀ kv ∈ s.coll.groups, kv.2.plot = n → kv.2.seqs.filter CSeq.underWay = []) →
      ∃ t, exec (.resetPlot dict n) s = .next (settle (if dict then t else regAck St.ok t)) ∧ t.boot.rst = none ∧
      t.boot.rstDone = true ∧ counter t 0xC40F03 = counter s 0xC40F03 + 1 ∧ Logged 0x2114 [2, n, 0, 0] s t) ∧
  (∀ (dict : Bool) (s : State),
    (dict = false → s.lania.up = true) → fromIsland s.boot.st = true → s.boot.rst ≠ some .device → cached3 s = [] →
      ∃ t, exec (.resetDevice dict 0xD5) s = .next (if dict then t else regAck St.ok t) ∧ t.boot.st = .starting ∧
      t.dict = { log := s.dict.log, logSeq := s.dict.logSeq, logAck := s.dict.logAck, logLost := s.dict.logLost } ∧
      (∀ a, inTier3 a = true → Mem.read t.mem a 1 = Mem.read s.mem a 1) ∧ t.sw = {} ∧ t.xlt = {} ∧ t.coh = {} ∧ t.fur = {} ∧
      t.coll = {} ∧ t.sync = {} ∧ t.ports = {} ∧ t.lania = {} ∧ t.power = {} ∧ t.time = {} ∧ t.spad = [] ∧
      t.pending = s.pending ∧ (∀ a, inTier3 a = false → Mem.read t.mem a 1 = [0])) ∧
  (∀ (s : State),
    s.lania.up = true → fromIsland s.boot.st = true → s.boot.rst ≠ some .device → s.coll.groups = [] →
      ∃ t, exec (.resetDeviceDrain 0xD5) s = .next (settle (regAck St.ok t)) ∧ t.boot.rst = some .device ∧
      t.boot.rstDone = false ∧ (∀ p, p < 128 → (s.port p).st.serves = true → (t.port p).st = .fallow ∧ (t.port p).reason =
        1)) ∧
  (∀ (i k : Nat) (s : State),
    i < 8 → k < 32 → trainedUp s = true → domainOn s (26 + i) = true → firmwareDown s = false →
    s.pool.lostStacks.contains i = false → s.pool.retiredPcs.contains (8 * k + i) = false → s.boot.retrain.find i = none →
    retrainDue s i k = true →
      ∃ t, exec (.hbmRetrainStart i k) s = .next t ∧ t.boot = { s.boot with retrain := s.boot.retrain.set i (k, 0, false) }
        ∧
      OnlyChanges [.boot] s t) ∧
  (∀ (i k n : Nat) (again : Bool) (s : State),
    s.boot.retrain.find i = some (k, n, again) → n < 9 →
      ∃ t, exec (.hbmRetrainStep i false) s = .next t ∧
      t.boot = { s.boot with retrain := s.boot.retrain.set i (k, n + 1, again) } ∧ OnlyChanges [.boot] s t) ∧
  (∀ (i k n : Nat) (again : Bool) (s : State),
    s.boot.retrain.find i = some (k, n, again) → 9 ≤ n →
      ∃ t, exec (.hbmRetrainStep i false) s = .next t ∧
      t.boot =
        { s.boot with retrain := s.boot.retrain.erase i, trained := s.boot.trained.set (32 * i + k) (s.now, stackTemp s i) } ∧
      counter t 0xC40F05 = counter s 0xC40F05 + 1 ∧ Logged 0x2115 [i, k, 0] s t ∧
      OnlyChanges [.boot, .counters, .log, .dict, .out] s t) ∧
  (∀ (i k n : Nat) (again : Bool) (s : State),
    s.boot.retrain.find i = some (k, n, again) → again = false →
      ∃ t, exec (.hbmRetrainStep i true) s = .next t ∧ t.boot = { s.boot with retrain := s.boot.retrain.set i (k, 0, true) }
        ∧
      OnlyChanges [.boot] s t) ∧
  (∀ (i k n : Nat) (again : Bool) (s : State),
    s.boot.retrain.find i = some (k, n, again) → again = true →
    (s.pool.retiredPcs.filter (fun c => c % 8 == i)).length < 2 →
      ∃ t, exec (.hbmRetrainStep i true) s = .next t ∧ 8 * k + i ∈ t.pool.retiredPcs ∧
      t.boot = { s.boot with retrain := s.boot.retrain.erase i } ∧ Logged 0x2115 [i, k, 1] s t) ∧
  (∀ (i cause : Nat) (s : State),
    i < 8 → trainedUp s = true → domainOn s (26 + i) = true → s.pool.lostStacks.contains i = false → s.coll.groups = [] →
      ∃ t, exec (.hbmStackLost i cause) s = .next (settle t) ∧
      t.pool = { s.pool with lostStacks := s.pool.lostStacks ++ [i] } ∧
      t.boot = { s.boot with retrain := s.boot.retrain.erase i } ∧ Logged 0x6112 [i, cause, 0] s t ∧
      OnlyChanges [.pool, .boot, .counters, .log, .dict, .out] s t) ∧
  (∀ (s : State),
    s.boot.mgmtSect ≠ none → firmwareDown s = false →
      ∃ t, exec .watchdogExpiry s = .next t ∧
      t.boot = { s.boot with mgmtDown := true, mgmtSince := s.now, restarted := true } ∧ t.dict.sessions = [] ∧
      t.dict.keptOpens = [] ∧ t.dict.mb = { s.dict.mb with snaps := [], buf := none } ∧ t.dict.od = s.dict.od ∧
      OnlyChanges [.boot, .counters, .log, .dict, .out] s t) ∧
  (∀ (sound : Bool) (s : State),
    s.boot.mgmtDown = true → s.dict.mbHeld = none → sound = (Config.shake256 (mgmtBytes s) 64 == s.boot.mgmtDigest) →
      ∃ t, exec .mgmtRestartDone s = .next t ∧
      t.boot =
        { s.boot with mgmtDown := false, damaged := !sound, restarts := if sound then s.boot.restarts + 1 else s.boot.restarts }
        ∧
      t.dict.holding = [] ∧ (∀ p, t.port p = { s.port p with trainSince := (t.port p).trainSince }) ∧
      (∃ e ∈ t.dict.log, e.time = s.now ∧ e.code = (if sound then 0x2116 else 0x2117))) ∧
  (∀ (c : Nat) (s : State),
    s.lania.up = false →
      exec (.resetCore false c) s = .next (settle s) ∧ exec (.resetCluster false c) s = .next (settle s) ∧
      exec (.resetPlot false c) s = .next (settle s) ∧ exec (.resetDevice false c) s = .next s ∧
      exec (.resetDeviceDrain c) s = .next (settle s)) ∧
  (∀ (c : Nat) (s : State),
    s.lania.up = true → (inService s = false ∨ s.boot.rst.isSome = true) →
      exec (.resetCore true c) s = .next (settle s) ∧ exec (.resetCluster true c) s = .next (settle s) ∧
      exec (.resetPlot true c) s = .next (settle s) ∧
      (exec (.resetCore false c) s = .next (settle (regAck St.ok (s.onBoot fun b => { b with rstStatus := St.state })))) ∧
      (exec (.resetCluster false c) s = .next (settle (regAck St.ok (s.onBoot fun b => { b with rstStatus := St.state }))))
        ∧
      (exec (.resetPlot false c) s = .next (settle (regAck St.ok (s.onBoot fun b => { b with rstStatus := St.state }))))) ∧
  (∀ (c : Nat) (s : State),
    s.lania.up = true → 64 ≤ c →
      exec (.resetCore true c) s = .next (settle s) ∧ exec (.resetCluster true c) s = .next (settle s) ∧
      exec (.resetPlot true c) s = .next (settle s) ∧
      (exec (.resetCore false c) s = .next (settle (regAck St.ok (s.onBoot fun b => { b with rstStatus := St.state })))) ∧
      (exec (.resetCluster false c) s = .next (settle (regAck St.ok (s.onBoot fun b => { b with rstStatus := St.state }))))
        ∧
      (exec (.resetPlot false c) s = .next (settle (regAck St.ok (s.onBoot fun b => { b with rstStatus := St.state }))))) ∧
  (∀ (c : Nat) (s : State),
    s.lania.up = true → 8 ≤ c →
      exec (.resetCluster true c) s = .next (settle s) ∧
      (exec (.resetCluster false c) s = .next (settle (regAck St.ok (s.onBoot fun b => { b with rstStatus := St.state }))))) ∧
  (∀ (n : Nat) (s : State),
    s.lania.up = true → (n = 0 ∨ 8 < n ∨ ((s.plot n).st ≠ .active ∧ (s.plot n).st ≠ .hedged)) →
      exec (.resetPlot true n) s = .next (settle s) ∧
      (exec (.resetPlot false n) s = .next (settle (regAck St.ok (s.onBoot fun b => { b with rstStatus := St.state }))))) ∧
  (∀ (n : Nat) (s : State),
    s.lania.up = true →
      exec (.resetPlot true n) s = .next (settle (resetDict (resetPlot n) s).2) ∧
      (exec (.resetPlot false n) s = .next (settle (regAck St.ok (if (resetPlot n s).1 = Adp.ok then (resetPlot n s).2 else
        s.onBoot fun b => { b with rstStatus := St.state }))))) ∧
  (∀ (target : Nat) (s : State),
    s.lania.up = true → (fromIsland s.boot.st = false ∨ target ≠ 0xD5 ∨ s.boot.rst = some .device) →
      exec (.resetDevice true target) s = .next s ∧
      (exec (.resetDevice false target) s = .next (regAck St.ok (s.onBoot fun b => { b with rstStatus := St.state }))) ∧
      (exec (.resetDeviceDrain target) s = .next (settle (regAck St.ok (s.onBoot fun b =>
        { b with rstStatus := St.state }))))) ∧
  (∀ (s : State),
    s.lania.up = true → fromIsland s.boot.st = true → s.boot.rst ≠ some .device →
      exec (.resetDevice true 0xD5) s = .next (deviceReset true false s) ∧
      exec (.resetDevice false 0xD5) s = .next (regAck St.ok (deviceReset true false s)) ∧
      exec (.resetDeviceDrain 0xD5) s = .next (settle (regAck St.ok (abortGroups (fun _ => some 0x7FF) 1 (holdAll
        (resetCommanded .device s)))))) ∧
  (∀ (c : Nat) (s : State),
    ((s.core c).resetting = false ∨ nodeQuiet s (nodeOf s (0x80 + c)) = false) →
      exec (.coreResetDone c) s = .next (settle s)) ∧
  (∀ (c : Nat) (own failed : Bool) (u s : State),
    (s.core c).resetting = true → nodeQuiet s (nodeOf s (0x80 + c)) = true → s.boot.rst = some (.core c own failed) →
    u = bump 0xC40F01 1 (coreClear c s) →
      exec (.coreResetDone c) s = .next (settle (resetTurn (resetDone 0 c (!own) (if failed then coreReplace c u else u))))) ∧
  (∀ (c n : Nat) (u s : State),
    (s.core c).resetting = true → nodeQuiet s (nodeOf s (0x80 + c)) = true → s.boot.rst = some (.plot n) →
    u = bump 0xC40F01 1 (coreClear c s) →
      exec (.coreResetDone c) s = .next (settle (if (coresOf u n).any (fun d => (u.core d).resetting) then u else resetTurn
        (resetDone 2 n true (bump 0xC40F03 1 u))))) ∧
  (∀ (k : Nat) (fails : List KatFail) (s : State),
    (s.boot.rst ≠ some (.cluster k) ∨ (clusterCores k).any (fun c => !nodeQuiet s (nodeOf s (0x80 + c))) = true) →
      exec (.clusterResetDone k fails) s = .next (settle s)) ∧
  (∀ (k : Nat) (fails : List KatFail) (s : State),
    s.boot.rst = some (.cluster k) → ∀ c ∈ clusterCores k, nodeQuiet s (nodeOf s (0x80 + c)) = true →
      exec (.clusterResetDone k fails) s = .next (settle (resetTurn (resetDone 1 k true (bump 0xC40F02 1 (clusterTested k
        fails (forAll (clusterCores k) (fun c s => bump 0xC40F01 1 (coreClear c s)) s))))))) ∧
  (∀ (i k : Nat) (s : State),
    (8 ≤ i ∨ 32 ≤ k ∨ trainedUp s = false ∨ domainOn s (26 + i) = false ∨ firmwareDown s = true ∨ s.pool.lostStacks.contains
      i = true ∨ s.pool.retiredPcs.contains (8 * k + i) = true ∨ (s.boot.retrain.find i).isSome = true ∨ retrainDue s i k =
      false) →
      exec (.hbmRetrainStart i k) s = .next s) ∧
  (∀ (i : Nat) (fails : Bool) (s : State),
    s.boot.retrain.find i = none →
      exec (.hbmRetrainStep i fails) s = .next s) ∧
  (∀ (i k n : Nat) (s : State),
    s.boot.retrain.find i = some (k, n, true) →
      exec (.hbmRetrainStep i true) s = .next (raise 0x2115 [i, k, 1] (retirePc k i (s.onBoot fun b =>
        { b with retrain := b.retrain.erase i })))) ∧
  (∀ (i cause : Nat) (s : State),
    (8 ≤ i ∨ trainedUp s = false ∨ domainOn s (26 + i) = false ∨ s.pool.lostStacks.contains i = true) →
      exec (.hbmStackLost i cause) s = .next (settle s)) ∧
  (∀ (i cause : Nat) (l : List (Nat × Nat)) (s : State),
    i < 8 → trainedUp s = true → domainOn s (26 + i) = true → s.pool.lostStacks.contains i = false →
    (l = s.coll.groups.flatMap fun kv => (kv.2.seqs.filter fun q => q.exec && q.cause.isNone).map fun q => (kv.1, q.seq)) →
      exec (.hbmStackLost i cause) s = .next (settle (raise 0x6112 [i, cause, l.length] (forAll l (fun a => abortSeq a.1 a.2
        St.aborted 0x7FF 1 false) ((s.onPool fun p => { p with lostStacks := p.lostStacks ++ [i] }).onBoot fun b =>
        { b with retrain := b.retrain.erase i }))))) ∧
  (∀ (s : State),
    (s.boot.mgmtSect.isNone = true ∨ firmwareDown s = true) →
      exec .watchdogExpiry s = .next s) ∧
  (∀ (s : State),
    s.boot.mgmtDown = false →
      exec .mgmtRestartDone s = .next s) ∧
  (∀ (op len off : Nat) (last : Bool) (u s : State),
    s.boot.mgmtDown = true → s.dict.mbHeld = some (op, last, len, off) → u = mgmtReturns s →
      exec .mgmtRestartDone s = .next (mbRun op last len off (u.onDict fun d => { d with mbHeld := none })))

/-- CAP_ALERT_N falling from CLOCKED onward clamps the throttle to (8, 1), pauses background work, and calls for a plan; rising
calls for one; before CLOCKED, or at that level already, it does neither. A sample keeps each powered domain's watts and their
sum with the island, and calls for a plan above the effective cap; then a throttle that waits is raised if there is room. A plan
lowers the throttle to the pair that fits, or remembers one to raise it to; at (8, 1) with the cap still exceeded it sheds
groups, with POWER_CAP_SHED, and with room it wakes them; with no plan due nothing happens. Sensors of powered domains are kept;
the thermal cap is imposed, stepped by 50 W and removed, and the clamp entered at 105 degrees; 110 degrees for 20 us makes the
device FAULTED. A cluster comes on or goes off with its event. A time request is answered with t2; an exchange is begun, a
pending one counting as missed, and its reply measures the offset: within 10 ns eight times in a row locks, above 10 us steps
the time. TimeSet of the source sets DeviceTime, forward only. The tray, WAKE in SERVICE, and a rail out of range act as R458,
R459 and R454 lay down. What is not due changes nothing. -/
def Obligations.PowerTemperatureAndTime : Prop :=
  (∀ (s : State),
    s.boot.capAlert = false → capsAct s = true →
      ∃ t, exec .capAlertAssert s = .next (settle t) ∧ t.boot = { s.boot with capAlert := true } ∧
      t.power =
        { s.power with div := 8, duty := 1, raiseTo := none, paused := true, clampAlert := true, planSince := some s.now } ∧
      counter t 0xC43002 = counter s 0xC43002 + 1 ∧ Logged 0xB101 [1, s.power.measured] s t) ∧
  (∀ (s : State),
    s.boot.capAlert = false → capsAct s = false →
      ∃ t, exec .capAlertAssert s = .next (settle t) ∧ t.boot = { s.boot with capAlert := true } ∧ OnlyChanges [.boot] s t) ∧
  (∀ (s : State),
    s.boot.capAlert = true → capsAct s = true →
      ∃ t, exec .capAlertRelease s = .next t ∧ t.boot = { s.boot with capAlert := false } ∧
      t.power = { s.power with planSince := some s.now } ∧ Logged 0xB101 [0, s.power.measured] s t ∧
      OnlyChanges [.boot, .power, .counters, .log, .dict, .out] s t) ∧
  (∀ (l : List Nat) (island n : Nat) (s : State),
    s.power.raiseTo = none →
    (n = ((List.range 36).map fun d => if domainOn s d then l.getD d 0 % 65536 else 0).sum + island) →
      ∃ t, exec (.powerSample l island) s = .next t ∧ t.power.measured = n % 65536 ∧
      (∀ d, d < 36 → t.power.domain.getD d 0 = if domainOn s d then l.getD d 0 % 65536 else 0) ∧
      t.power.planSince = (if effectiveCap s < n ∧ s.power.planSince = none ∧ capsAct s = true then some s.now else
        s.power.planSince) ∧
      t.power.belowSince = (if 20 * n ≤ 19 * effectiveCap s then some (s.power.belowSince.getD s.now) else none) ∧
      t.power.div = s.power.div ∧ t.power.duty = s.power.duty ∧ OnlyChanges [.power] s t) ∧
  (∀ (pair : Nat × Nat) (s : State),
    s.power.planSince ≠ none → firmwareDown s = false → capsAct s = true → s.power.shed = [] →
    pair = choosePair ((effectiveCap s : Int) - ((s.power.measured - clusterPower s : Nat) : Int)) →
    pairBefore pair (s.power.div, s.power.duty) = false → s.power.measured - clusterPower s + 40 ≤ effectiveCap s →
      ∃ t, exec .powerPlanDone s = .next (settle t) ∧ t.power.div = pair.1 ∧ t.power.duty = pair.2 ∧
      t.power.planSince = none ∧ t.power.clampAlert = false ∧ t.power.shed = [] ∧
      t.power.paused = (if pair ≠ (8, 1) ∧ s.power.clampHot = false then false else s.power.paused) ∧ t.ports = s.ports) ∧
  (∀ (pair : Nat × Nat) (s : State),
    s.power.planSince ≠ none → firmwareDown s = false → capsAct s = true → s.power.shed = [] →
    pair = choosePair ((effectiveCap s : Int) - ((s.power.measured - clusterPower s : Nat) : Int)) →
    pairBefore pair (s.power.div, s.power.duty) = true → (¬ (s.power.div = 8 ∧ s.power.duty = 1)) →
      ∃ t, exec .powerPlanDone s = .next (settle t) ∧
      t.power = { s.power with planSince := none, clampAlert := false, raiseTo := some pair } ∧ OnlyChanges [.power] s t) ∧
  (∀ (l : List Int) (s : State),
      ∃ t, exec (.tempSample l) s = .next (settle t) ∧
      (∀ k, k < 40 → t.power.temps.getD k 0 = if k < 36 ∧ domainOn s k = false then s.power.temps.getD k 0 else l.getD k
        (s.power.temps.getD k 0)) ∧
      t.power.tempTime = s.now ∧
      (capsAct s = true → s.power.thermalCap = none → throttleTemp s < (hottest t).2 → t.power.thermalCap = some
        (s.power.measured - 50) ∧ t.power.thermalStep = s.now) ∧
      (capsAct s = true → s.power.clampHot = false → 10500 ≤ (hottest t).2 → t.power.clampHot = true ∧ t.power.div = 8 ∧
        t.power.duty = 1 ∧ t.power.paused = true) ∧
      (capsAct s = true → s.power.clampHot = true → (hottest t).2 < 10300 → t.power.clampHot = false)) ∧
  (∀ (c : Nat) (s : State),
    s.power.thermalCap = some c → throttleTemp s < (hottest s).2 → s.power.thermalStep + 10000000 ≤ s.now →
      ∃ t, exec .thermalCapStep s = .next t ∧
      t.power = { s.power with thermalCap := some (c - 50), thermalStep := s.now, planSince := some s.now } ∧
      OnlyChanges [.power] s t) ∧
  (∀ (c : Nat) (s : State),
    s.power.thermalCap = some c → (hottest s).2 + 200 ≤ throttleTemp s → s.power.thermalStep + 100000000 ≤ s.now →
    c + 50 < cfg 0xB10001 2000 s →
      ∃ t, exec .thermalCapStep s = .next t ∧
      t.power = { s.power with thermalCap := some (c + 50), thermalStep := s.now, planSince := some s.now } ∧
      OnlyChanges [.power] s t) ∧
  (∀ (k d : Nat) (s : State),
    s.power.hotSince.find k = some d → d + 20000 ≤ s.now → s.boot.st ≠ .faulted →
      ∃ t, exec (.thermalTrip k) s = .next (settle t) ∧ t.boot.st = .faulted ∧ t.boot.cause = 3 ∧ t.boot.fault = true ∧
      t.boot.powered = 0 ∧ Logged 0x2113 [3, s.boot.st.code] s t) ∧
  (∀ (k : Nat) (s : State),
    s.power.testing.contains k = true → ∀ c ∈ clusterCores k, retireMask s c = 0 →
      ∃ t, exec (.clusterPowerOnDone k []) s = .next (settle t) ∧
      t.boot = { s.boot with powered := s.boot.powered ||| 2 ^ (18 + k) } ∧
      t.power.testing = s.power.testing.filter (fun j => j != k) ∧ Logged 0xB104 [k, 1, 0] s t ∧
      OnlyChanges [.boot, .power, .fur, .counters, .log, .dict, .out] s t) ∧
  (∀ (k d : Nat) (s : State),
    s.power.idleSince.find k = some d → inService s = true → clusterUsed s k = false → domainOn s (18 + k) = true →
    d + 1000000 ≤ s.now →
      ∃ t, exec (.clusterPowerOff k) s = .next t ∧
      t.boot = { s.boot with powered := s.boot.powered - (s.boot.powered &&& 2 ^ (18 + k)) } ∧
      t.power = { s.power with idleSince := s.power.idleSince.erase k } ∧ Logged 0xB104 [k, 0, 0] s t ∧
      OnlyChanges [.boot, .power, .counters, .log, .dict, .out] s t) ∧
  (∀ (p : Nat) (s : State),
    p = upstreamPort s → p < 128 → timeSource s = false → ∀ d ∈ s.time.last, d + 1000000 ≤ s.now → s.time.exch = none →
      ∃ t, exec .timeExchange s = .next (settle (serve
        { via := .mgmt, op := Op.msgSend, h := { len := 32, dst := 256 * wiringHub s p + 0xC2, src := nodeOf s 0xC2, opb := 4 * 256 }, data := timeBody 1 ((s.time.seq + 1) % 2 ^ 32) 0 0 }
        t)) ∧
      t.time =
        { s.time with last := some s.now, seq := (s.time.seq + 1) % 2 ^ 32, exch := some ((s.time.seq + 1) % 2 ^ 32, s.now) }
        ∧
      OnlyChanges [.time] s t) ∧
  (∀ (src : Nat) (b : List Byte) (s : State),
      ∃ t, exec (.timeRequest src b) s = .next (settle t) ∧
      t.coll =
        { s.coll with outbox := s.coll.outbox ++ [{ via := .mgmt, op := Op.msgSend, h := { len := 32, dst := 256 * hubOf src + 0xC2, src := nodeOf s 0xC2, opb := 4 * 256 }, data := timeBody 2 (fieldAt b 4 4) s.now 0 }] }
        ∧
      OnlyChanges [.coll] s t) ∧
  (∀ (q d : Nat) (b : List Byte) (f : Int) (s : State),
    s.time.exch = some (q, d) → fieldAt b 4 4 = q → fieldAt b 0 4 % 16 = 2 →
    f = (((fieldAt b 8 8 : Nat) : Int) - (d : Int) - ((s.now : Int) - ((fieldAt b 16 8 : Nat) : Int))) / 2 → f.natAbs ≤ 10 →
      ∃ t, exec (.timeReply b) s = .next t ∧ t.time.offset = f ∧ t.time.missed = 0 ∧ t.time.exch = none ∧
      t.time.good = s.time.good + 1 ∧ t.time.locked = (s.time.locked || decide (8 ≤ s.time.good + 1)) ∧
      t.time.now = s.time.now) ∧
  (∀ (q d : Nat) (b : List Byte) (f : Int) (s : State),
    s.time.exch = some (q, d) → fieldAt b 4 4 = q → fieldAt b 0 4 % 16 = 2 →
    f = (((fieldAt b 8 8 : Nat) : Int) - (d : Int) - ((s.now : Int) - ((fieldAt b 16 8 : Nat) : Int))) / 2 → 10000 < f →
      ∃ t, exec (.timeReply b) s = .next t ∧ t.time.now = s.time.now + f.toNat ∧ t.time.offset = f ∧ t.time.exch = none ∧
      t.time.locked = false ∧ counter t 0xC43006 = counter s 0xC43006 + 1) ∧
  (∀ (v : U64) (s : State),
    timeSource s = true → s.now ≤ v.toNat →
      ∃ t, exec (.timeSet v) s = .next t ∧ t.time = { s.time with now := v.toNat } ∧
      counter t 0xC43006 = counter s 0xC43006 + 1 ∧ OnlyChanges [.time, .counters] s t) ∧
  (∀ (s : State),
    s.boot.tray = true → inService s = true →
      ∃ t, exec .trayUnseated s = .next t ∧ t.boot.st = .starting ∧ t.boot.tray = false ∧ t.ports = {} ∧ t.fur = {} ∧
      t.pending = s.pending) ∧
  (∀ (s : State),
    s.boot.tray = true → inService s = false →
      ∃ t, exec .trayUnseated s = .next t ∧ t.boot = { s.boot with tray := false } ∧ OnlyChanges [.boot] s t) ∧
  (∀ (s : State),
      ∃ t, exec .traySeated s = .next t ∧ t.boot = { s.boot with tray := true } ∧ OnlyChanges [.boot] s t) ∧
  (∀ (s : State),
    inService s = true →
      ∃ t, exec .boardWake s = .next t ∧
      (∀ p, p < 128 → t.port p = if (s.port p).st = .dormant ∧ shedHolds s p = false ∧ portCan s p = true then
        { s.port p with waking := true } else s.port p) ∧
      (∃ n, n = ((List.range 128).filter fun p => decide ((s.port p).st = .dormant ∧ shedHolds s p = false ∧ portCan s p =
        true)).length ∧ Logged 0xB10B [n] s t) ∧
      OnlyChanges [.ports, .boot, .counters, .log, .dict, .out] s t) ∧
  (∀ (rail mv us : Nat) (s : State),
    s.boot.pwrGood = true → 10 < us → railOfStacks rail = false →
      ∃ t, exec (.railOutOfRange rail mv us) s = .next t ∧ t.boot = { s.boot with rails := s.boot.rails.set rail mv } ∧
      Logged 0xB10C [rail, mv, us] s t ∧ OnlyChanges [.boot, .counters, .log, .dict, .out] s t) ∧
  (∀ (rail mv us : Nat) (u s : State),
    s.boot.pwrGood = true → 10 < us → railOfStacks rail = true →
    (u = forAll (List.range 8) (fun k => stackLost k 0) (raise 0xB10C [rail, mv, us] (s.onBoot fun b =>
      { b with rails := b.rails.set rail mv }))) →
      exec (.railOutOfRange rail mv us) s = .next (settle u)) ∧
  (∀ (s : State),
    s.boot.capAlert = true →
      exec .capAlertAssert s = .next (settle s)) ∧
  (∀ (s : State),
    s.boot.capAlert = false →
      exec .capAlertRelease s = .next s) ∧
  (∀ (s : State),
    s.boot.capAlert = true → capsAct s = false →
      exec .capAlertRelease s = .next (s.onBoot fun b => { b with capAlert := false })) ∧
  (∀ (l : List Nat) (island n : Nat) (s : State),
    (n = ((List.range 36).map fun d => if domainOn s d then l.getD d 0 % 65536 else 0).sum + island) →
      ∃ t, exec (.powerSample l island) s = .next (raiseThrottle t) ∧ t.power.measured = n % 65536 ∧
      (∀ d, d < 36 → t.power.domain.getD d 0 = if domainOn s d then l.getD d 0 % 65536 else 0) ∧
      t.power.planSince = (if effectiveCap s < n ∧ s.power.planSince = none ∧ capsAct s = true then some s.now else
        s.power.planSince) ∧
      t.power.belowSince = (if 20 * n ≤ 19 * effectiveCap s then some (s.power.belowSince.getD s.now) else none) ∧
      t.power.raiseTo = s.power.raiseTo ∧ OnlyChanges [.power] s t) ∧
  (∀ (s : State),
    (s.power.planSince.isNone = true ∨ firmwareDown s = true ∨ capsAct s = false) →
      exec .powerPlanDone s = .next (settle s)) ∧
  (∀ (cap draw : Nat) (u v s : State),
    s.power.planSince ≠ none → firmwareDown s = false → capsAct s = true → s.power.shed = [] → cap = effectiveCap s →
    draw = s.power.measured - clusterPower s + 40 → cap < draw → pairBefore (8, 1) (s.power.div, s.power.duty) = false →
    (u = setThrottle 8 1 (s.onPower fun x => { x with planSince := none, clampAlert := false, raiseTo := none })) →
    v = shedDown cap ((List.range 16).map (shedAt u)) draw u →
      exec .powerPlanDone s = .next (settle (if v.power.shed.isEmpty then v else raise 0xB102 [cap, v.power.shed.length,
        v.power.div, v.power.duty] v))) ∧
  (∀ (cap draw : Nat) (pair : Nat × Nat) (up : Bool) (u v w s : State),
    s.power.planSince ≠ none → firmwareDown s = false → capsAct s = true → s.power.shed ≠ [] → cap = effectiveCap s →
    draw = s.power.measured - clusterPower s + 40 → draw ≤ cap →
    pair = choosePair ((cap : Int) - ((s.power.measured - clusterPower s : Nat) : Int)) →
    up = pairBefore pair (s.power.div, s.power.duty) →
    (u = s.onPower fun x => { x with planSince := none, clampAlert := false, raiseTo := none }) →
    v = wakeUp cap s.power.shed.reverse draw (if up then u.onPower (fun x => { x with raiseTo := some pair }) else
      setThrottle pair.1 pair.2 u) →
    w = (if v.power.shed.isEmpty then raise 0xB103 [cap, v.power.div, v.power.duty] v else v) →
      exec .powerPlanDone s = .next (settle (if !up && pair != (8, 1) && !w.power.clampHot then w.onPower (fun x =>
        { x with paused := false }) else w))) ∧
  (∀ (s : State),
    (s.power.thermalCap = none ∨ (throttleTemp s < (hottest s).2 ∧ s.now < s.power.thermalStep + 10000000) ∨ ((hottest s).2
      ≤ throttleTemp s ∧ throttleTemp s < (hottest s).2 + 200) ∨ ((hottest s).2 ≤ throttleTemp s ∧ s.now < s.power.thermalStep
      + 100000000)) →
      exec .thermalCapStep s = .next s) ∧
  (∀ (c : Nat) (s : State),
    s.power.thermalCap = some c → (hottest s).2 + 200 ≤ throttleTemp s → s.power.thermalStep + 100000000 ≤ s.now →
    cfg 0xB10001 2000 s ≤ c + 50 →
      ∃ t, exec .thermalCapStep s = .next t ∧
      t.power = { s.power with thermalCap := none, thermalStep := s.now, planSince := some s.now } ∧
      Logged 0xB105 [0, (hottest s).1, tempField (hottest s).2, 0] s t ∧
      OnlyChanges [.power, .counters, .log, .dict, .out] s t) ∧
  (∀ (k : Nat) (s : State),
    (s.power.hotSince.find k = none ∨ s.now < (s.power.hotSince.find k).getD 0 + 20000 ∨ s.boot.st = .faulted) →
      exec (.thermalTrip k) s = .next (settle s)) ∧
  (∀ (k : Nat) (fails : List KatFail) (s : State),
    s.power.testing.contains k = false →
      exec (.clusterPowerOnDone k fails) s = .next (settle s)) ∧
  (∀ (k : Nat) (fails : List KatFail) (u s : State),
    s.power.testing.contains k = true →
    (u = (s.onBoot fun b => { b with powered := b.powered ||| 2 ^ (18 + k) }).onPower fun x =>
      { x with testing := x.testing.filter fun j => j != k }) →
      exec (.clusterPowerOnDone k fails) s = .next (settle (clusterTurn k (raise 0xB104 [k, 1, (fails.filter fun f =>
        katCluster f == some k).length] (clusterTested k fails u))))) ∧
  (∀ (k : Nat) (s : State),
    (s.power.idleSince.find k = none ∨ inService s = false ∨ clusterUsed s k = true ∨ domainOn s (18 + k) = false ∨ s.now <
      (s.power.idleSince.find k).getD 0 + 1000000) →
      exec (.clusterPowerOff k) s = .next s) ∧
  (∀ (s : State),
    (timeSource s = true ∨ 128 ≤ upstreamPort s ∨ (s.time.last.isSome = true ∧ s.now < s.time.last.getD 0 + 1000000)) →
      exec .timeExchange s = .next s) ∧
  (∀ (p : Nat) (u s : State),
    p = upstreamPort s → p < 128 → timeSource s = false → ∀ d ∈ s.time.last, d + 1000000 ≤ s.now →
    (u = timeStart (s.onTime fun x => { x with last := some x.now })) →
      exec .timeExchange s = .next (settle (serve (timeMsg u (wiringHub u p) (timeBody 1 u.time.seq 0 0)) u)) ∧
      (s.time.exch.isSome = true → u.time.missed = s.time.missed + 1)) ∧
  (∀ (b : List Byte) (s : State),
    (s.time.exch = none ∨ s.time.exch.map Prod.fst ≠ some (fieldAt b 4 4) ∨ fieldAt b 0 4 % 16 ≠ 2) →
      exec (.timeReply b) s = .next s) ∧
  (∀ (q d : Nat) (b : List Byte) (f : Int) (s : State),
    s.time.exch = some (q, d) → fieldAt b 4 4 = q → fieldAt b 0 4 % 16 = 2 →
    f = (((fieldAt b 8 8 : Nat) : Int) - (d : Int) - ((s.now : Int) - ((fieldAt b 16 8 : Nat) : Int))) / 2 →
      exec (.timeReply b) s = .next (timeOffset f s)) ∧
  (∀ (v : U64) (s : State),
    (timeSource s = false ∨ v.toNat < s.now) →
      exec (.timeSet v) s = .next s) ∧
  (∀ (s : State),
    s.boot.tray = false →
      exec .trayUnseated s = .next s) ∧
  (∀ (s : State),
    inService s = false →
      exec .boardWake s = .next (s.onBoot fun b => { b with wake := true })) ∧
  (∀ (rail mv us : Nat) (s : State),
    (s.boot.pwrGood = false ∨ us ≤ 10) →
      exec (.railOutOfRange rail mv us) s = .next (s.onBoot fun b => { b with rails := b.rails.set rail mv }))
end

