-- ==== Sys2Proof/Laws/State.lean ====
section
/-! SUPPORT. The state record: each update of one unit changes that unit and leaves every other field. -/

namespace Sys2Proof.Machine

section
variable (f : Switch → Switch) (s : State)
@[simp] theorem State.onSw_sw : (s.onSw f).sw = f s.sw := rfl
@[simp] theorem State.onSw_xlt : (s.onSw f).xlt = s.xlt := rfl
@[simp] theorem State.onSw_pool : (s.onSw f).pool = s.pool := rfl
@[simp] theorem State.onSw_coh : (s.onSw f).coh = s.coh := rfl
@[simp] theorem State.onSw_fur : (s.onSw f).fur = s.fur := rfl
@[simp] theorem State.onSw_coll : (s.onSw f).coll = s.coll := rfl
@[simp] theorem State.onSw_sync : (s.onSw f).sync = s.sync := rfl
@[simp] theorem State.onSw_chk : (s.onSw f).chk = s.chk := rfl
@[simp] theorem State.onSw_key : (s.onSw f).key = s.key := rfl
@[simp] theorem State.onSw_ports : (s.onSw f).ports = s.ports := rfl
@[simp] theorem State.onSw_lania : (s.onSw f).lania = s.lania := rfl
@[simp] theorem State.onSw_cxl : (s.onSw f).cxl = s.cxl := rfl
@[simp] theorem State.onSw_dict : (s.onSw f).dict = s.dict := rfl
@[simp] theorem State.onSw_boot : (s.onSw f).boot = s.boot := rfl
@[simp] theorem State.onSw_power : (s.onSw f).power = s.power := rfl
@[simp] theorem State.onSw_time : (s.onSw f).time = s.time := rfl
@[simp] theorem State.onSw_mem : (s.onSw f).mem = s.mem := rfl
@[simp] theorem State.onSw_spad : (s.onSw f).spad = s.spad := rfl
@[simp] theorem State.onSw_out : (s.onSw f).out = s.out := rfl
@[simp] theorem State.onSw_free : (s.onSw f).free = s.free := rfl
@[simp] theorem State.onSw_pending : (s.onSw f).pending = s.pending := rfl
end

section
variable (f : Xlt → Xlt) (s : State)
@[simp] theorem State.onXlt_sw : (s.onXlt f).sw = s.sw := rfl
@[simp] theorem State.onXlt_xlt : (s.onXlt f).xlt = f s.xlt := rfl
@[simp] theorem State.onXlt_pool : (s.onXlt f).pool = s.pool := rfl
@[simp] theorem State.onXlt_coh : (s.onXlt f).coh = s.coh := rfl
@[simp] theorem State.onXlt_fur : (s.onXlt f).fur = s.fur := rfl
@[simp] theorem State.onXlt_coll : (s.onXlt f).coll = s.coll := rfl
@[simp] theorem State.onXlt_sync : (s.onXlt f).sync = s.sync := rfl
@[simp] theorem State.onXlt_chk : (s.onXlt f).chk = s.chk := rfl
@[simp] theorem State.onXlt_key : (s.onXlt f).key = s.key := rfl
@[simp] theorem State.onXlt_ports : (s.onXlt f).ports = s.ports := rfl
@[simp] theorem State.onXlt_lania : (s.onXlt f).lania = s.lania := rfl
@[simp] theorem State.onXlt_cxl : (s.onXlt f).cxl = s.cxl := rfl
@[simp] theorem State.onXlt_dict : (s.onXlt f).dict = s.dict := rfl
@[simp] theorem State.onXlt_boot : (s.onXlt f).boot = s.boot := rfl
@[simp] theorem State.onXlt_power : (s.onXlt f).power = s.power := rfl
@[simp] theorem State.onXlt_time : (s.onXlt f).time = s.time := rfl
@[simp] theorem State.onXlt_mem : (s.onXlt f).mem = s.mem := rfl
@[simp] theorem State.onXlt_spad : (s.onXlt f).spad = s.spad := rfl
@[simp] theorem State.onXlt_out : (s.onXlt f).out = s.out := rfl
@[simp] theorem State.onXlt_free : (s.onXlt f).free = s.free := rfl
@[simp] theorem State.onXlt_pending : (s.onXlt f).pending = s.pending := rfl
end

section
variable (f : Pool → Pool) (s : State)
@[simp] theorem State.onPool_sw : (s.onPool f).sw = s.sw := rfl
@[simp] theorem State.onPool_xlt : (s.onPool f).xlt = s.xlt := rfl
@[simp] theorem State.onPool_pool : (s.onPool f).pool = f s.pool := rfl
@[simp] theorem State.onPool_coh : (s.onPool f).coh = s.coh := rfl
@[simp] theorem State.onPool_fur : (s.onPool f).fur = s.fur := rfl
@[simp] theorem State.onPool_coll : (s.onPool f).coll = s.coll := rfl
@[simp] theorem State.onPool_sync : (s.onPool f).sync = s.sync := rfl
@[simp] theorem State.onPool_chk : (s.onPool f).chk = s.chk := rfl
@[simp] theorem State.onPool_key : (s.onPool f).key = s.key := rfl
@[simp] theorem State.onPool_ports : (s.onPool f).ports = s.ports := rfl
@[simp] theorem State.onPool_lania : (s.onPool f).lania = s.lania := rfl
@[simp] theorem State.onPool_cxl : (s.onPool f).cxl = s.cxl := rfl
@[simp] theorem State.onPool_dict : (s.onPool f).dict = s.dict := rfl
@[simp] theorem State.onPool_boot : (s.onPool f).boot = s.boot := rfl
@[simp] theorem State.onPool_power : (s.onPool f).power = s.power := rfl
@[simp] theorem State.onPool_time : (s.onPool f).time = s.time := rfl
@[simp] theorem State.onPool_mem : (s.onPool f).mem = s.mem := rfl
@[simp] theorem State.onPool_spad : (s.onPool f).spad = s.spad := rfl
@[simp] theorem State.onPool_out : (s.onPool f).out = s.out := rfl
@[simp] theorem State.onPool_free : (s.onPool f).free = s.free := rfl
@[simp] theorem State.onPool_pending : (s.onPool f).pending = s.pending := rfl
end

section
variable (f : Coh → Coh) (s : State)
@[simp] theorem State.onCoh_sw : (s.onCoh f).sw = s.sw := rfl
@[simp] theorem State.onCoh_xlt : (s.onCoh f).xlt = s.xlt := rfl
@[simp] theorem State.onCoh_pool : (s.onCoh f).pool = s.pool := rfl
@[simp] theorem State.onCoh_coh : (s.onCoh f).coh = f s.coh := rfl
@[simp] theorem State.onCoh_fur : (s.onCoh f).fur = s.fur := rfl
@[simp] theorem State.onCoh_coll : (s.onCoh f).coll = s.coll := rfl
@[simp] theorem State.onCoh_sync : (s.onCoh f).sync = s.sync := rfl
@[simp] theorem State.onCoh_chk : (s.onCoh f).chk = s.chk := rfl
@[simp] theorem State.onCoh_key : (s.onCoh f).key = s.key := rfl
@[simp] theorem State.onCoh_ports : (s.onCoh f).ports = s.ports := rfl
@[simp] theorem State.onCoh_lania : (s.onCoh f).lania = s.lania := rfl
@[simp] theorem State.onCoh_cxl : (s.onCoh f).cxl = s.cxl := rfl
@[simp] theorem State.onCoh_dict : (s.onCoh f).dict = s.dict := rfl
@[simp] theorem State.onCoh_boot : (s.onCoh f).boot = s.boot := rfl
@[simp] theorem State.onCoh_power : (s.onCoh f).power = s.power := rfl
@[simp] theorem State.onCoh_time : (s.onCoh f).time = s.time := rfl
@[simp] theorem State.onCoh_mem : (s.onCoh f).mem = s.mem := rfl
@[simp] theorem State.onCoh_spad : (s.onCoh f).spad = s.spad := rfl
@[simp] theorem State.onCoh_out : (s.onCoh f).out = s.out := rfl
@[simp] theorem State.onCoh_free : (s.onCoh f).free = s.free := rfl
@[simp] theorem State.onCoh_pending : (s.onCoh f).pending = s.pending := rfl
end

section
variable (f : Furrow → Furrow) (s : State)
@[simp] theorem State.onFur_sw : (s.onFur f).sw = s.sw := rfl
@[simp] theorem State.onFur_xlt : (s.onFur f).xlt = s.xlt := rfl
@[simp] theorem State.onFur_pool : (s.onFur f).pool = s.pool := rfl
@[simp] theorem State.onFur_coh : (s.onFur f).coh = s.coh := rfl
@[simp] theorem State.onFur_fur : (s.onFur f).fur = f s.fur := rfl
@[simp] theorem State.onFur_coll : (s.onFur f).coll = s.coll := rfl
@[simp] theorem State.onFur_sync : (s.onFur f).sync = s.sync := rfl
@[simp] theorem State.onFur_chk : (s.onFur f).chk = s.chk := rfl
@[simp] theorem State.onFur_key : (s.onFur f).key = s.key := rfl
@[simp] theorem State.onFur_ports : (s.onFur f).ports = s.ports := rfl
@[simp] theorem State.onFur_lania : (s.onFur f).lania = s.lania := rfl
@[simp] theorem State.onFur_cxl : (s.onFur f).cxl = s.cxl := rfl
@[simp] theorem State.onFur_dict : (s.onFur f).dict = s.dict := rfl
@[simp] theorem State.onFur_boot : (s.onFur f).boot = s.boot := rfl
@[simp] theorem State.onFur_power : (s.onFur f).power = s.power := rfl
@[simp] theorem State.onFur_time : (s.onFur f).time = s.time := rfl
@[simp] theorem State.onFur_mem : (s.onFur f).mem = s.mem := rfl
@[simp] theorem State.onFur_spad : (s.onFur f).spad = s.spad := rfl
@[simp] theorem State.onFur_out : (s.onFur f).out = s.out := rfl
@[simp] theorem State.onFur_free : (s.onFur f).free = s.free := rfl
@[simp] theorem State.onFur_pending : (s.onFur f).pending = s.pending := rfl
end

section
variable (f : Coll → Coll) (s : State)
@[simp] theorem State.onColl_sw : (s.onColl f).sw = s.sw := rfl
@[simp] theorem State.onColl_xlt : (s.onColl f).xlt = s.xlt := rfl
@[simp] theorem State.onColl_pool : (s.onColl f).pool = s.pool := rfl
@[simp] theorem State.onColl_coh : (s.onColl f).coh = s.coh := rfl
@[simp] theorem State.onColl_fur : (s.onColl f).fur = s.fur := rfl
@[simp] theorem State.onColl_coll : (s.onColl f).coll = f s.coll := rfl
@[simp] theorem State.onColl_sync : (s.onColl f).sync = s.sync := rfl
@[simp] theorem State.onColl_chk : (s.onColl f).chk = s.chk := rfl
@[simp] theorem State.onColl_key : (s.onColl f).key = s.key := rfl
@[simp] theorem State.onColl_ports : (s.onColl f).ports = s.ports := rfl
@[simp] theorem State.onColl_lania : (s.onColl f).lania = s.lania := rfl
@[simp] theorem State.onColl_cxl : (s.onColl f).cxl = s.cxl := rfl
@[simp] theorem State.onColl_dict : (s.onColl f).dict = s.dict := rfl
@[simp] theorem State.onColl_boot : (s.onColl f).boot = s.boot := rfl
@[simp] theorem State.onColl_power : (s.onColl f).power = s.power := rfl
@[simp] theorem State.onColl_time : (s.onColl f).time = s.time := rfl
@[simp] theorem State.onColl_mem : (s.onColl f).mem = s.mem := rfl
@[simp] theorem State.onColl_spad : (s.onColl f).spad = s.spad := rfl
@[simp] theorem State.onColl_out : (s.onColl f).out = s.out := rfl
@[simp] theorem State.onColl_free : (s.onColl f).free = s.free := rfl
@[simp] theorem State.onColl_pending : (s.onColl f).pending = s.pending := rfl
end

section
variable (f : Sync → Sync) (s : State)
@[simp] theorem State.onSync_sw : (s.onSync f).sw = s.sw := rfl
@[simp] theorem State.onSync_xlt : (s.onSync f).xlt = s.xlt := rfl
@[simp] theorem State.onSync_pool : (s.onSync f).pool = s.pool := rfl
@[simp] theorem State.onSync_coh : (s.onSync f).coh = s.coh := rfl
@[simp] theorem State.onSync_fur : (s.onSync f).fur = s.fur := rfl
@[simp] theorem State.onSync_coll : (s.onSync f).coll = s.coll := rfl
@[simp] theorem State.onSync_sync : (s.onSync f).sync = f s.sync := rfl
@[simp] theorem State.onSync_chk : (s.onSync f).chk = s.chk := rfl
@[simp] theorem State.onSync_key : (s.onSync f).key = s.key := rfl
@[simp] theorem State.onSync_ports : (s.onSync f).ports = s.ports := rfl
@[simp] theorem State.onSync_lania : (s.onSync f).lania = s.lania := rfl
@[simp] theorem State.onSync_cxl : (s.onSync f).cxl = s.cxl := rfl
@[simp] theorem State.onSync_dict : (s.onSync f).dict = s.dict := rfl
@[simp] theorem State.onSync_boot : (s.onSync f).boot = s.boot := rfl
@[simp] theorem State.onSync_power : (s.onSync f).power = s.power := rfl
@[simp] theorem State.onSync_time : (s.onSync f).time = s.time := rfl
@[simp] theorem State.onSync_mem : (s.onSync f).mem = s.mem := rfl
@[simp] theorem State.onSync_spad : (s.onSync f).spad = s.spad := rfl
@[simp] theorem State.onSync_out : (s.onSync f).out = s.out := rfl
@[simp] theorem State.onSync_free : (s.onSync f).free = s.free := rfl
@[simp] theorem State.onSync_pending : (s.onSync f).pending = s.pending := rfl
end

section
variable (f : Chk → Chk) (s : State)
@[simp] theorem State.onChk_sw : (s.onChk f).sw = s.sw := rfl
@[simp] theorem State.onChk_xlt : (s.onChk f).xlt = s.xlt := rfl
@[simp] theorem State.onChk_pool : (s.onChk f).pool = s.pool := rfl
@[simp] theorem State.onChk_coh : (s.onChk f).coh = s.coh := rfl
@[simp] theorem State.onChk_fur : (s.onChk f).fur = s.fur := rfl
@[simp] theorem State.onChk_coll : (s.onChk f).coll = s.coll := rfl
@[simp] theorem State.onChk_sync : (s.onChk f).sync = s.sync := rfl
@[simp] theorem State.onChk_chk : (s.onChk f).chk = f s.chk := rfl
@[simp] theorem State.onChk_key : (s.onChk f).key = s.key := rfl
@[simp] theorem State.onChk_ports : (s.onChk f).ports = s.ports := rfl
@[simp] theorem State.onChk_lania : (s.onChk f).lania = s.lania := rfl
@[simp] theorem State.onChk_cxl : (s.onChk f).cxl = s.cxl := rfl
@[simp] theorem State.onChk_dict : (s.onChk f).dict = s.dict := rfl
@[simp] theorem State.onChk_boot : (s.onChk f).boot = s.boot := rfl
@[simp] theorem State.onChk_power : (s.onChk f).power = s.power := rfl
@[simp] theorem State.onChk_time : (s.onChk f).time = s.time := rfl
@[simp] theorem State.onChk_mem : (s.onChk f).mem = s.mem := rfl
@[simp] theorem State.onChk_spad : (s.onChk f).spad = s.spad := rfl
@[simp] theorem State.onChk_out : (s.onChk f).out = s.out := rfl
@[simp] theorem State.onChk_free : (s.onChk f).free = s.free := rfl
@[simp] theorem State.onChk_pending : (s.onChk f).pending = s.pending := rfl
end

section
variable (f : Key → Key) (s : State)
@[simp] theorem State.onKey_sw : (s.onKey f).sw = s.sw := rfl
@[simp] theorem State.onKey_xlt : (s.onKey f).xlt = s.xlt := rfl
@[simp] theorem State.onKey_pool : (s.onKey f).pool = s.pool := rfl
@[simp] theorem State.onKey_coh : (s.onKey f).coh = s.coh := rfl
@[simp] theorem State.onKey_fur : (s.onKey f).fur = s.fur := rfl
@[simp] theorem State.onKey_coll : (s.onKey f).coll = s.coll := rfl
@[simp] theorem State.onKey_sync : (s.onKey f).sync = s.sync := rfl
@[simp] theorem State.onKey_chk : (s.onKey f).chk = s.chk := rfl
@[simp] theorem State.onKey_key : (s.onKey f).key = f s.key := rfl
@[simp] theorem State.onKey_ports : (s.onKey f).ports = s.ports := rfl
@[simp] theorem State.onKey_lania : (s.onKey f).lania = s.lania := rfl
@[simp] theorem State.onKey_cxl : (s.onKey f).cxl = s.cxl := rfl
@[simp] theorem State.onKey_dict : (s.onKey f).dict = s.dict := rfl
@[simp] theorem State.onKey_boot : (s.onKey f).boot = s.boot := rfl
@[simp] theorem State.onKey_power : (s.onKey f).power = s.power := rfl
@[simp] theorem State.onKey_time : (s.onKey f).time = s.time := rfl
@[simp] theorem State.onKey_mem : (s.onKey f).mem = s.mem := rfl
@[simp] theorem State.onKey_spad : (s.onKey f).spad = s.spad := rfl
@[simp] theorem State.onKey_out : (s.onKey f).out = s.out := rfl
@[simp] theorem State.onKey_free : (s.onKey f).free = s.free := rfl
@[simp] theorem State.onKey_pending : (s.onKey f).pending = s.pending := rfl
end

section
variable (f : Ports → Ports) (s : State)
@[simp] theorem State.onPorts_sw : (s.onPorts f).sw = s.sw := rfl
@[simp] theorem State.onPorts_xlt : (s.onPorts f).xlt = s.xlt := rfl
@[simp] theorem State.onPorts_pool : (s.onPorts f).pool = s.pool := rfl
@[simp] theorem State.onPorts_coh : (s.onPorts f).coh = s.coh := rfl
@[simp] theorem State.onPorts_fur : (s.onPorts f).fur = s.fur := rfl
@[simp] theorem State.onPorts_coll : (s.onPorts f).coll = s.coll := rfl
@[simp] theorem State.onPorts_sync : (s.onPorts f).sync = s.sync := rfl
@[simp] theorem State.onPorts_chk : (s.onPorts f).chk = s.chk := rfl
@[simp] theorem State.onPorts_key : (s.onPorts f).key = s.key := rfl
@[simp] theorem State.onPorts_ports : (s.onPorts f).ports = f s.ports := rfl
@[simp] theorem State.onPorts_lania : (s.onPorts f).lania = s.lania := rfl
@[simp] theorem State.onPorts_cxl : (s.onPorts f).cxl = s.cxl := rfl
@[simp] theorem State.onPorts_dict : (s.onPorts f).dict = s.dict := rfl
@[simp] theorem State.onPorts_boot : (s.onPorts f).boot = s.boot := rfl
@[simp] theorem State.onPorts_power : (s.onPorts f).power = s.power := rfl
@[simp] theorem State.onPorts_time : (s.onPorts f).time = s.time := rfl
@[simp] theorem State.onPorts_mem : (s.onPorts f).mem = s.mem := rfl
@[simp] theorem State.onPorts_spad : (s.onPorts f).spad = s.spad := rfl
@[simp] theorem State.onPorts_out : (s.onPorts f).out = s.out := rfl
@[simp] theorem State.onPorts_free : (s.onPorts f).free = s.free := rfl
@[simp] theorem State.onPorts_pending : (s.onPorts f).pending = s.pending := rfl
end

section
variable (f : Lania → Lania) (s : State)
@[simp] theorem State.onLania_sw : (s.onLania f).sw = s.sw := rfl
@[simp] theorem State.onLania_xlt : (s.onLania f).xlt = s.xlt := rfl
@[simp] theorem State.onLania_pool : (s.onLania f).pool = s.pool := rfl
@[simp] theorem State.onLania_coh : (s.onLania f).coh = s.coh := rfl
@[simp] theorem State.onLania_fur : (s.onLania f).fur = s.fur := rfl
@[simp] theorem State.onLania_coll : (s.onLania f).coll = s.coll := rfl
@[simp] theorem State.onLania_sync : (s.onLania f).sync = s.sync := rfl
@[simp] theorem State.onLania_chk : (s.onLania f).chk = s.chk := rfl
@[simp] theorem State.onLania_key : (s.onLania f).key = s.key := rfl
@[simp] theorem State.onLania_ports : (s.onLania f).ports = s.ports := rfl
@[simp] theorem State.onLania_lania : (s.onLania f).lania = f s.lania := rfl
@[simp] theorem State.onLania_cxl : (s.onLania f).cxl = s.cxl := rfl
@[simp] theorem State.onLania_dict : (s.onLania f).dict = s.dict := rfl
@[simp] theorem State.onLania_boot : (s.onLania f).boot = s.boot := rfl
@[simp] theorem State.onLania_power : (s.onLania f).power = s.power := rfl
@[simp] theorem State.onLania_time : (s.onLania f).time = s.time := rfl
@[simp] theorem State.onLania_mem : (s.onLania f).mem = s.mem := rfl
@[simp] theorem State.onLania_spad : (s.onLania f).spad = s.spad := rfl
@[simp] theorem State.onLania_out : (s.onLania f).out = s.out := rfl
@[simp] theorem State.onLania_free : (s.onLania f).free = s.free := rfl
@[simp] theorem State.onLania_pending : (s.onLania f).pending = s.pending := rfl
end

section
variable (f : Cxl → Cxl) (s : State)
@[simp] theorem State.onCxl_sw : (s.onCxl f).sw = s.sw := rfl
@[simp] theorem State.onCxl_xlt : (s.onCxl f).xlt = s.xlt := rfl
@[simp] theorem State.onCxl_pool : (s.onCxl f).pool = s.pool := rfl
@[simp] theorem State.onCxl_coh : (s.onCxl f).coh = s.coh := rfl
@[simp] theorem State.onCxl_fur : (s.onCxl f).fur = s.fur := rfl
@[simp] theorem State.onCxl_coll : (s.onCxl f).coll = s.coll := rfl
@[simp] theorem State.onCxl_sync : (s.onCxl f).sync = s.sync := rfl
@[simp] theorem State.onCxl_chk : (s.onCxl f).chk = s.chk := rfl
@[simp] theorem State.onCxl_key : (s.onCxl f).key = s.key := rfl
@[simp] theorem State.onCxl_ports : (s.onCxl f).ports = s.ports := rfl
@[simp] theorem State.onCxl_lania : (s.onCxl f).lania = s.lania := rfl
@[simp] theorem State.onCxl_cxl : (s.onCxl f).cxl = f s.cxl := rfl
@[simp] theorem State.onCxl_dict : (s.onCxl f).dict = s.dict := rfl
@[simp] theorem State.onCxl_boot : (s.onCxl f).boot = s.boot := rfl
@[simp] theorem State.onCxl_power : (s.onCxl f).power = s.power := rfl
@[simp] theorem State.onCxl_time : (s.onCxl f).time = s.time := rfl
@[simp] theorem State.onCxl_mem : (s.onCxl f).mem = s.mem := rfl
@[simp] theorem State.onCxl_spad : (s.onCxl f).spad = s.spad := rfl
@[simp] theorem State.onCxl_out : (s.onCxl f).out = s.out := rfl
@[simp] theorem State.onCxl_free : (s.onCxl f).free = s.free := rfl
@[simp] theorem State.onCxl_pending : (s.onCxl f).pending = s.pending := rfl
end

section
variable (f : Dict → Dict) (s : State)
@[simp] theorem State.onDict_sw : (s.onDict f).sw = s.sw := rfl
@[simp] theorem State.onDict_xlt : (s.onDict f).xlt = s.xlt := rfl
@[simp] theorem State.onDict_pool : (s.onDict f).pool = s.pool := rfl
@[simp] theorem State.onDict_coh : (s.onDict f).coh = s.coh := rfl
@[simp] theorem State.onDict_fur : (s.onDict f).fur = s.fur := rfl
@[simp] theorem State.onDict_coll : (s.onDict f).coll = s.coll := rfl
@[simp] theorem State.onDict_sync : (s.onDict f).sync = s.sync := rfl
@[simp] theorem State.onDict_chk : (s.onDict f).chk = s.chk := rfl
@[simp] theorem State.onDict_key : (s.onDict f).key = s.key := rfl
@[simp] theorem State.onDict_ports : (s.onDict f).ports = s.ports := rfl
@[simp] theorem State.onDict_lania : (s.onDict f).lania = s.lania := rfl
@[simp] theorem State.onDict_cxl : (s.onDict f).cxl = s.cxl := rfl
@[simp] theorem State.onDict_dict : (s.onDict f).dict = f s.dict := rfl
@[simp] theorem State.onDict_boot : (s.onDict f).boot = s.boot := rfl
@[simp] theorem State.onDict_power : (s.onDict f).power = s.power := rfl
@[simp] theorem State.onDict_time : (s.onDict f).time = s.time := rfl
@[simp] theorem State.onDict_mem : (s.onDict f).mem = s.mem := rfl
@[simp] theorem State.onDict_spad : (s.onDict f).spad = s.spad := rfl
@[simp] theorem State.onDict_out : (s.onDict f).out = s.out := rfl
@[simp] theorem State.onDict_free : (s.onDict f).free = s.free := rfl
@[simp] theorem State.onDict_pending : (s.onDict f).pending = s.pending := rfl
end

section
variable (f : Boot → Boot) (s : State)
@[simp] theorem State.onBoot_sw : (s.onBoot f).sw = s.sw := rfl
@[simp] theorem State.onBoot_xlt : (s.onBoot f).xlt = s.xlt := rfl
@[simp] theorem State.onBoot_pool : (s.onBoot f).pool = s.pool := rfl
@[simp] theorem State.onBoot_coh : (s.onBoot f).coh = s.coh := rfl
@[simp] theorem State.onBoot_fur : (s.onBoot f).fur = s.fur := rfl
@[simp] theorem State.onBoot_coll : (s.onBoot f).coll = s.coll := rfl
@[simp] theorem State.onBoot_sync : (s.onBoot f).sync = s.sync := rfl
@[simp] theorem State.onBoot_chk : (s.onBoot f).chk = s.chk := rfl
@[simp] theorem State.onBoot_key : (s.onBoot f).key = s.key := rfl
@[simp] theorem State.onBoot_ports : (s.onBoot f).ports = s.ports := rfl
@[simp] theorem State.onBoot_lania : (s.onBoot f).lania = s.lania := rfl
@[simp] theorem State.onBoot_cxl : (s.onBoot f).cxl = s.cxl := rfl
@[simp] theorem State.onBoot_dict : (s.onBoot f).dict = s.dict := rfl
@[simp] theorem State.onBoot_boot : (s.onBoot f).boot = f s.boot := rfl
@[simp] theorem State.onBoot_power : (s.onBoot f).power = s.power := rfl
@[simp] theorem State.onBoot_time : (s.onBoot f).time = s.time := rfl
@[simp] theorem State.onBoot_mem : (s.onBoot f).mem = s.mem := rfl
@[simp] theorem State.onBoot_spad : (s.onBoot f).spad = s.spad := rfl
@[simp] theorem State.onBoot_out : (s.onBoot f).out = s.out := rfl
@[simp] theorem State.onBoot_free : (s.onBoot f).free = s.free := rfl
@[simp] theorem State.onBoot_pending : (s.onBoot f).pending = s.pending := rfl
end

section
variable (f : Power → Power) (s : State)
@[simp] theorem State.onPower_sw : (s.onPower f).sw = s.sw := rfl
@[simp] theorem State.onPower_xlt : (s.onPower f).xlt = s.xlt := rfl
@[simp] theorem State.onPower_pool : (s.onPower f).pool = s.pool := rfl
@[simp] theorem State.onPower_coh : (s.onPower f).coh = s.coh := rfl
@[simp] theorem State.onPower_fur : (s.onPower f).fur = s.fur := rfl
@[simp] theorem State.onPower_coll : (s.onPower f).coll = s.coll := rfl
@[simp] theorem State.onPower_sync : (s.onPower f).sync = s.sync := rfl
@[simp] theorem State.onPower_chk : (s.onPower f).chk = s.chk := rfl
@[simp] theorem State.onPower_key : (s.onPower f).key = s.key := rfl
@[simp] theorem State.onPower_ports : (s.onPower f).ports = s.ports := rfl
@[simp] theorem State.onPower_lania : (s.onPower f).lania = s.lania := rfl
@[simp] theorem State.onPower_cxl : (s.onPower f).cxl = s.cxl := rfl
@[simp] theorem State.onPower_dict : (s.onPower f).dict = s.dict := rfl
@[simp] theorem State.onPower_boot : (s.onPower f).boot = s.boot := rfl
@[simp] theorem State.onPower_power : (s.onPower f).power = f s.power := rfl
@[simp] theorem State.onPower_time : (s.onPower f).time = s.time := rfl
@[simp] theorem State.onPower_mem : (s.onPower f).mem = s.mem := rfl
@[simp] theorem State.onPower_spad : (s.onPower f).spad = s.spad := rfl
@[simp] theorem State.onPower_out : (s.onPower f).out = s.out := rfl
@[simp] theorem State.onPower_free : (s.onPower f).free = s.free := rfl
@[simp] theorem State.onPower_pending : (s.onPower f).pending = s.pending := rfl
end

section
variable (f : Time → Time) (s : State)
@[simp] theorem State.onTime_sw : (s.onTime f).sw = s.sw := rfl
@[simp] theorem State.onTime_xlt : (s.onTime f).xlt = s.xlt := rfl
@[simp] theorem State.onTime_pool : (s.onTime f).pool = s.pool := rfl
@[simp] theorem State.onTime_coh : (s.onTime f).coh = s.coh := rfl
@[simp] theorem State.onTime_fur : (s.onTime f).fur = s.fur := rfl
@[simp] theorem State.onTime_coll : (s.onTime f).coll = s.coll := rfl
@[simp] theorem State.onTime_sync : (s.onTime f).sync = s.sync := rfl
@[simp] theorem State.onTime_chk : (s.onTime f).chk = s.chk := rfl
@[simp] theorem State.onTime_key : (s.onTime f).key = s.key := rfl
@[simp] theorem State.onTime_ports : (s.onTime f).ports = s.ports := rfl
@[simp] theorem State.onTime_lania : (s.onTime f).lania = s.lania := rfl
@[simp] theorem State.onTime_cxl : (s.onTime f).cxl = s.cxl := rfl
@[simp] theorem State.onTime_dict : (s.onTime f).dict = s.dict := rfl
@[simp] theorem State.onTime_boot : (s.onTime f).boot = s.boot := rfl
@[simp] theorem State.onTime_power : (s.onTime f).power = s.power := rfl
@[simp] theorem State.onTime_time : (s.onTime f).time = f s.time := rfl
@[simp] theorem State.onTime_mem : (s.onTime f).mem = s.mem := rfl
@[simp] theorem State.onTime_spad : (s.onTime f).spad = s.spad := rfl
@[simp] theorem State.onTime_out : (s.onTime f).out = s.out := rfl
@[simp] theorem State.onTime_free : (s.onTime f).free = s.free := rfl
@[simp] theorem State.onTime_pending : (s.onTime f).pending = s.pending := rfl
end

section
variable (o : Output) (s : State)
@[simp] theorem emit_sw : (emit o s).sw = s.sw := rfl
@[simp] theorem emit_xlt : (emit o s).xlt = s.xlt := rfl
@[simp] theorem emit_pool : (emit o s).pool = s.pool := rfl
@[simp] theorem emit_coh : (emit o s).coh = s.coh := rfl
@[simp] theorem emit_fur : (emit o s).fur = s.fur := rfl
@[simp] theorem emit_coll : (emit o s).coll = s.coll := rfl
@[simp] theorem emit_sync : (emit o s).sync = s.sync := rfl
@[simp] theorem emit_chk : (emit o s).chk = s.chk := rfl
@[simp] theorem emit_key : (emit o s).key = s.key := rfl
@[simp] theorem emit_ports : (emit o s).ports = s.ports := rfl
@[simp] theorem emit_lania : (emit o s).lania = s.lania := rfl
@[simp] theorem emit_cxl : (emit o s).cxl = s.cxl := rfl
@[simp] theorem emit_dict : (emit o s).dict = s.dict := rfl
@[simp] theorem emit_boot : (emit o s).boot = s.boot := rfl
@[simp] theorem emit_power : (emit o s).power = s.power := rfl
@[simp] theorem emit_time : (emit o s).time = s.time := rfl
@[simp] theorem emit_mem : (emit o s).mem = s.mem := rfl
@[simp] theorem emit_spad : (emit o s).spad = s.spad := rfl
@[simp] theorem emit_out : (emit o s).out = o :: s.out := rfl
@[simp] theorem emit_free : (emit o s).free = s.free := rfl
@[simp] theorem emit_pending : (emit o s).pending = s.pending := rfl
end

section
variable (k n : Nat) (s : State)
@[simp] theorem bump_sw : (bump k n s).sw = s.sw := rfl
@[simp] theorem bump_xlt : (bump k n s).xlt = s.xlt := rfl
@[simp] theorem bump_pool : (bump k n s).pool = s.pool := rfl
@[simp] theorem bump_coh : (bump k n s).coh = s.coh := rfl
@[simp] theorem bump_fur : (bump k n s).fur = s.fur := rfl
@[simp] theorem bump_coll : (bump k n s).coll = s.coll := rfl
@[simp] theorem bump_sync : (bump k n s).sync = s.sync := rfl
@[simp] theorem bump_chk : (bump k n s).chk = s.chk := rfl
@[simp] theorem bump_key : (bump k n s).key = s.key := rfl
@[simp] theorem bump_ports : (bump k n s).ports = s.ports := rfl
@[simp] theorem bump_lania : (bump k n s).lania = s.lania := rfl
@[simp] theorem bump_cxl : (bump k n s).cxl = s.cxl := rfl
@[simp] theorem bump_dict : (bump k n s).dict = { s.dict with counters := s.dict.counters.set k (s.dict.counters.getD k 0 + n) } := rfl
@[simp] theorem bump_boot : (bump k n s).boot = s.boot := rfl
@[simp] theorem bump_power : (bump k n s).power = s.power := rfl
@[simp] theorem bump_time : (bump k n s).time = s.time := rfl
@[simp] theorem bump_mem : (bump k n s).mem = s.mem := rfl
@[simp] theorem bump_spad : (bump k n s).spad = s.spad := rfl
@[simp] theorem bump_out : (bump k n s).out = s.out := rfl
@[simp] theorem bump_free : (bump k n s).free = s.free := rfl
@[simp] theorem bump_pending : (bump k n s).pending = s.pending := rfl
end

section
variable (s : State)
@[simp] theorem State.drawn_sw : s.drawn.sw = s.sw := rfl
@[simp] theorem State.drawn_xlt : s.drawn.xlt = s.xlt := rfl
@[simp] theorem State.drawn_pool : s.drawn.pool = s.pool := rfl
@[simp] theorem State.drawn_coh : s.drawn.coh = s.coh := rfl
@[simp] theorem State.drawn_fur : s.drawn.fur = s.fur := rfl
@[simp] theorem State.drawn_coll : s.drawn.coll = s.coll := rfl
@[simp] theorem State.drawn_sync : s.drawn.sync = s.sync := rfl
@[simp] theorem State.drawn_chk : s.drawn.chk = s.chk := rfl
@[simp] theorem State.drawn_key : s.drawn.key = s.key := rfl
@[simp] theorem State.drawn_ports : s.drawn.ports = s.ports := rfl
@[simp] theorem State.drawn_lania : s.drawn.lania = s.lania := rfl
@[simp] theorem State.drawn_cxl : s.drawn.cxl = s.cxl := rfl
@[simp] theorem State.drawn_dict : s.drawn.dict = s.dict := rfl
@[simp] theorem State.drawn_boot : s.drawn.boot = s.boot := rfl
@[simp] theorem State.drawn_power : s.drawn.power = s.power := rfl
@[simp] theorem State.drawn_time : s.drawn.time = s.time := rfl
@[simp] theorem State.drawn_mem : s.drawn.mem = s.mem := rfl
@[simp] theorem State.drawn_spad : s.drawn.spad = s.spad := rfl
@[simp] theorem State.drawn_out : s.drawn.out = s.out := rfl
@[simp] theorem State.drawn_free : s.drawn.free = s.free + 1 := rfl
@[simp] theorem State.drawn_pending : s.drawn.pending = s.pending := rfl
end

end Sys2Proof.Machine
end

