-- ==== Sys2Proof/Laws/Frames.lean ====
section
/-! SUPPORT. Frames: how they compose, and the frames of the operations that count, report and send. -/

namespace Sys2Proof

open Machine

theorem OnlyChanges.refl (ps : List Part) (s : State) : OnlyChanges ps s s := by
  intro p _; cases p <;> simp [samePart]

theorem samePart.trans {p : Part} {s t u : State} (h : samePart p s t) (k : samePart p t u) : samePart p s u := by
  cases p <;> simp_all [samePart]

theorem OnlyChanges.trans {ps : List Part} {s t u : State} (h : OnlyChanges ps s t) (k : OnlyChanges ps t u) :
    OnlyChanges ps s u := fun p hp => samePart.trans (h p hp) (k p hp)

theorem OnlyChanges.mono {ps qs : List Part} {s t : State} (h : OnlyChanges ps s t) (hs : ∀ p ∈ ps, p ∈ qs) :
    OnlyChanges qs s t := fun p hp => h p fun hm => hp (hs p hm)

theorem emit_frame (o : Output) (s : State) : OnlyChanges [.out] s (emit o s) := by
  intro p hp; cases p <;> simp_all [samePart]

theorem bump_frame (k n : Nat) (s : State) : OnlyChanges [.counters] s (bump k n s) := by
  intro p hp; cases p <;> simp_all [samePart, restOf]

theorem logAppend_frame (time code : Nat) (pl : List Nat) (s : State) : OnlyChanges [.log] s (logAppend time code pl s) := by
  intro p hp; cases p <;> simp_all [samePart, restOf, logAppend]

theorem deliver_frame (s : State) : OnlyChanges [.log, .out] s (deliver s) := by
  intro p hp; cases p <;> simp_all [samePart, restOf, deliver]

theorem lossEvent_frame (s : State) : OnlyChanges [.log] s (lossEvent s) := by
  have key : OnlyChanges [.log] s (logAppend s.now 0xD101 [s.dict.lossCount, s.dict.logLost]
      (s.onDict fun d => { d with lossCount := 0, lossRaised := some s.now })) := by
    refine OnlyChanges.trans (t := s.onDict _) ?_ (logAppend_frame _ _ _ _)
    intro p hp; cases p <;> simp_all [samePart, restOf]
  unfold lossEvent
  by_cases h : s.dict.lossCount = 0
  · simp only [h, if_true]; exact .refl _ _
  · rw [if_neg h]
    split <;> split <;> first | exact key | exact .refl _ _

/-- Raising an event changes the log, and what is sent to the sessions it is delivered to. -/
theorem raise_frame (code : Nat) (pl : List Nat) (s : State) : OnlyChanges [.log, .out] s (raise code pl s) := by
  unfold raise
  split
  · intro p hp; cases p <;> simp_all [samePart, restOf] <;> split <;> simp
  · refine OnlyChanges.trans (t := lossEvent (logAppend s.now code pl s)) ?_ (deliver_frame _)
    exact ((logAppend_frame _ _ _ _).trans (lossEvent_frame _)).mono (by simp)

end Sys2Proof
end

