-- ==== Sys2Proof/Laws/Memory.lean ====
section
/-! SUPPORT. Finite maps and byte memories: what a look-up gives after an update, and that every operation keeps the canonical
form. -/

namespace Sys2Proof

namespace FMap

variable {α : Type}

theorem find_set_self (m : FMap α) (k : Nat) (v : α) : find (set m k v) k = some v := by
  induction m with
  | nil => simp [set, find]
  | cons x r ih =>
    obtain ⟨a, b⟩ := x
    simp only [set]
    split
    · simp [find]
    · split
      · simp [find]
      · rename_i h1 h2
        have : ¬ a = k := fun e => h2 e.symm
        simp [find, this, ih]

theorem find_set_ne (m : FMap α) (k j : Nat) (v : α) (h : j ≠ k) : find (set m k v) j = find m j := by
  induction m with
  | nil => simp [set, find, Ne.symm h]
  | cons x r ih =>
    obtain ⟨a, b⟩ := x
    simp only [set]
    split
    · simp [find, Ne.symm h]
    · split
      · rename_i h1 h2; subst h2; simp [find, Ne.symm h]
      · simp only [find]; split <;> simp_all

theorem getD_set_self (m : FMap α) (k : Nat) (v d : α) : getD (set m k v) k d = v := by
  simp [getD, find_set_self]

theorem getD_set_ne (m : FMap α) (k j : Nat) (v d : α) (h : j ≠ k) : getD (set m k v) j d = getD m j d := by
  simp [getD, find_set_ne m k j v h]

theorem find_none_of_lt (m : FMap α) (k : Nat) (h : ∀ x ∈ m, k < x.1) : find m k = none := by
  induction m with
  | nil => rfl
  | cons x r ih =>
    obtain ⟨a, b⟩ := x
    have h1 : k < a := h (a, b) (by simp)
    have : ¬ a = k := by omega
    simp [find, this, ih fun y hy => h y (by simp [hy])]

theorem mem_set {m : FMap α} {k : Nat} {v : α} {x : Nat × α} (h : x ∈ set m k v) : x = (k, v) ∨ x ∈ m := by
  induction m with
  | nil => simpa [set] using h
  | cons y r ih =>
    obtain ⟨a, b⟩ := y
    simp only [set] at h
    split at h
    · simpa using h
    · split at h
      · rename_i h1 h2; simp at h; rcases h with h | h <;> simp [h]
      · simp at h; rcases h with h | h
        · simp [h]
        · rcases ih h with h | h <;> simp [h]

theorem wf_cons {a : Nat} {b : α} {r : FMap α} : Wf ((a, b) :: r) ↔ (∀ x ∈ r, a < x.1) ∧ Wf r := by
  simp [Wf, List.pairwise_cons]

theorem wf_set (m : FMap α) (k : Nat) (v : α) (h : Wf m) : Wf (set m k v) := by
  induction m with
  | nil => simp [set, Wf]
  | cons y r ih =>
    obtain ⟨a, b⟩ := y
    obtain ⟨h1, h2⟩ := wf_cons.mp h
    simp only [set]
    split
    · rename_i hk
      refine wf_cons.mpr ⟨?_, h⟩
      intro x hx
      rcases List.mem_cons.mp hx with rfl | hx
      · exact hk
      · exact lt_trans hk (h1 x hx)
    · split
      · rename_i hk; subst hk; exact wf_cons.mpr ⟨h1, h2⟩
      · refine wf_cons.mpr ⟨?_, ih h2⟩
        intro x hx
        rcases mem_set hx with rfl | hx
        · simp; omega
        · exact h1 x hx

theorem erase_sublist (m : FMap α) (k : Nat) : (erase m k).Sublist m := List.filter_sublist

theorem wf_sublist {m n : FMap α} (hs : n.Sublist m) (h : Wf m) : Wf n := h.sublist (hs.map _)

theorem wf_erase (m : FMap α) (k : Nat) (h : Wf m) : Wf (erase m k) := wf_sublist (erase_sublist m k) h

theorem wf_keep (p : Nat → α → Bool) (m : FMap α) (h : Wf m) : Wf (keep p m) := wf_sublist List.filter_sublist h

theorem find_erase_self (m : FMap α) (k : Nat) : find (erase m k) k = none := by
  induction m with
  | nil => rfl
  | cons y r ih =>
    obtain ⟨a, b⟩ := y
    by_cases h : a = k <;> simp_all [erase, find]

theorem find_erase_ne (m : FMap α) (k j : Nat) (hj : j ≠ k) : find (erase m k) j = find m j := by
  induction m with
  | nil => rfl
  | cons y r ih =>
    obtain ⟨a, b⟩ := y
    by_cases h : a = k
    · subst h; simp_all [erase, find, Ne.symm hj]
    · by_cases h2 : a = j <;> simp_all [erase, find]

end FMap

/-! Byte memories. -/

namespace Mem

theorem wf_nil : Mem.Wf [] := by simp [Mem.Wf, FMap.Wf]

theorem wf_put (m : Mem) (a : Nat) (b : Byte) (h : Mem.Wf m) : Mem.Wf (FMap.put 0 m a b) := by
  unfold FMap.put
  split
  · exact ⟨FMap.wf_erase _ _ h.1, fun x hx => h.2 x ((FMap.erase_sublist m a).subset hx)⟩
  · rename_i hb
    refine ⟨FMap.wf_set _ _ _ h.1, fun x hx => ?_⟩
    rcases FMap.mem_set hx with rfl | hx
    · exact hb
    · exact h.2 x hx

theorem wf_write (m : Mem) (a : Nat) (l : List Byte) (h : Mem.Wf m) : Mem.Wf (Mem.write m a l) := by
  induction l generalizing m a with
  | nil => exact h
  | cons b r ih => exact ih _ _ (wf_put m a b h)

theorem wf_keep (p : Nat → Byte → Bool) (m : Mem) (h : Mem.Wf m) : Mem.Wf (FMap.keep p m) :=
  ⟨FMap.wf_keep p m h.1, fun x hx => h.2 x (List.mem_filter.mp hx).1⟩

theorem wf_zero (m : Mem) (lo n : Nat) (h : Mem.Wf m) : Mem.Wf (Mem.zero m lo n) := wf_keep _ m h

theorem wf_foldl {α : Type} (f : Mem → α → Mem) (hf : ∀ m a, Mem.Wf m → Mem.Wf (f m a)) (l : List α) (m : Mem) (h : Mem.Wf m) :
    Mem.Wf (l.foldl f m) := by
  induction l generalizing m with
  | nil => exact h
  | cons a r ih => exact ih _ (hf m a h)

theorem wf_copy (m : Mem) (src dst n : Nat) (h : Mem.Wf m) : Mem.Wf (Mem.copy m src dst n) :=
  wf_foldl _ (fun m _ h => wf_put m _ _ h) _ _ (wf_zero m dst n h)

theorem byte_put_self (m : Mem) (a : Nat) (b : Byte) : Mem.byte (FMap.put 0 m a b) a = b := by
  unfold FMap.put
  split
  · rename_i hb; simp [Mem.byte, FMap.getD, FMap.find_erase_self m a, hb]
  · exact FMap.getD_set_self _ _ _ _

theorem byte_put_ne (m : Mem) (a c : Nat) (b : Byte) (hc : c ≠ a) : Mem.byte (FMap.put 0 m a b) c = Mem.byte m c := by
  unfold FMap.put
  split
  · simp [Mem.byte, FMap.getD, FMap.find_erase_ne m a c hc]
  · exact FMap.getD_set_ne _ _ _ _ _ hc

/-- A write leaves every byte outside its range alone. -/
theorem byte_write_outside (m : Mem) (a c : Nat) (l : List Byte) (hc : c < a ∨ a + l.length ≤ c) :
    Mem.byte (Mem.write m a l) c = Mem.byte m c := by
  induction l generalizing m a with
  | nil => rfl
  | cons b r ih =>
    simp only [List.length_cons] at hc
    rw [Mem.write, ih _ _ (by omega), byte_put_ne _ _ _ _ (by omega)]

/-- A read after a write gives the byte written. -/
theorem byte_write_inside (m : Mem) (a : Nat) (l : List Byte) (i : Nat) (hi : i < l.length) :
    Mem.byte (Mem.write m a l) (a + i) = l[i] := by
  induction l generalizing m a i with
  | nil => simp at hi
  | cons b r ih =>
    rw [Mem.write]
    cases i with
    | zero => rw [byte_write_outside _ _ _ _ (by omega)]; simpa using byte_put_self m a b
    | succ n =>
      have := ih (FMap.put 0 m a b) (a + 1) n (by simpa using hi)
      rw [show a + (n + 1) = a + 1 + n by omega, this]; simp

end Mem

end Sys2Proof
end

