-- ==== Sys2Proof/Laws/Kept.lean ====
section
/-! SUPPORT. What every operation of the block keeps: the canonical form of the three byte memories, the queue of commands, and the
trace of what has been sent, which only grows. -/

namespace Sys2Proof.Machine

/-- What a change of state keeps. -/
structure Kept (s t : State) : Prop where
  mem : Mem.Wf s.mem → Mem.Wf t.mem
  spad : Mem.Wf s.spad → Mem.Wf t.spad
  image : Mem.Wf s.boot.image → Mem.Wf t.boot.image
  queue : t.pending = s.pending
  out : s.out <:+ t.out

namespace Kept

theorem refl (s : State) : Kept s s := ⟨id, id, id, rfl, List.suffix_refl _⟩

theorem trans {s t u : State} (h : Kept s t) (k : Kept t u) : Kept s u :=
  ⟨fun x => k.mem (h.mem x), fun x => k.spad (h.spad x), fun x => k.image (h.image x), k.queue.trans h.queue,
    h.out.trans k.out⟩

theorem ite {s a b : State} {c : Prop} [Decidable c] (h : Kept s a) (k : Kept s b) : Kept s (if c then a else b) := by
  split <;> assumption

/-- A change that leaves the memories, the queue and the trace alone. -/
theorem same {s t : State} (hm : t.mem = s.mem) (hp : t.spad = s.spad) (hi : t.boot.image = s.boot.image)
    (hq : t.pending = s.pending) (ho : t.out = s.out) : Kept s t := by
  refine ⟨?_, ?_, ?_, hq, ?_⟩ <;> simp_all

theorem forAll {α : Type} {l : List α} {f : α → State → State} (h : ∀ a s, Kept s (f a s)) (s : State) :
    Kept s (forAll l f s) := by
  unfold Sys2Proof.forAll
  induction l generalizing s with
  | nil => exact refl s
  | cons a r ih => exact (h a s).trans (ih _)

/-- A fold whose accumulator holds the state. -/
theorem foldl {α σ : Type} {l : List α} {f : σ → α → σ} (π : σ → State) (h : ∀ z a, Kept (π z) (π (f z a))) (z : σ) :
    Kept (π z) (π (l.foldl f z)) := by
  induction l generalizing z with
  | nil => exact refl _
  | cons a r ih => exact (h z a).trans (ih _)

theorem foldl_snd {α β : Type} {l : List α} {f : β × State → α → β × State} (h : ∀ z a, Kept z.2 (f z a).2) (b : β)
    (s : State) : Kept s (l.foldl f (b, s)).2 := foldl Prod.snd h (b, s)

theorem foldl_fst {α β : Type} {l : List α} {f : State × β → α → State × β} (h : ∀ z a, Kept z.1 (f z a).1) (b : β)
    (s : State) : Kept s (l.foldl f (s, b)).1 := foldl Prod.fst h (s, b)

theorem foldl_snd_snd {α β γ : Type} {l : List α} {f : β × γ × State → α → β × γ × State}
    (h : ∀ z a, Kept z.2.2 (f z a).2.2) (b : β) (c : γ) (s : State) : Kept s (l.foldl f (b, c, s)).2.2 :=
  foldl (fun z => z.2.2) h (b, c, s)

end Kept

theorem onSw_kept (f) (s : State) : Kept s (s.onSw f) := .same rfl rfl rfl rfl rfl
theorem onXlt_kept (f) (s : State) : Kept s (s.onXlt f) := .same rfl rfl rfl rfl rfl
theorem onPool_kept (f) (s : State) : Kept s (s.onPool f) := .same rfl rfl rfl rfl rfl
theorem onCoh_kept (f) (s : State) : Kept s (s.onCoh f) := .same rfl rfl rfl rfl rfl
theorem onFur_kept (f) (s : State) : Kept s (s.onFur f) := .same rfl rfl rfl rfl rfl
theorem onColl_kept (f) (s : State) : Kept s (s.onColl f) := .same rfl rfl rfl rfl rfl
theorem onSync_kept (f) (s : State) : Kept s (s.onSync f) := .same rfl rfl rfl rfl rfl
theorem onChk_kept (f) (s : State) : Kept s (s.onChk f) := .same rfl rfl rfl rfl rfl
theorem onKey_kept (f) (s : State) : Kept s (s.onKey f) := .same rfl rfl rfl rfl rfl
theorem onPorts_kept (f) (s : State) : Kept s (s.onPorts f) := .same rfl rfl rfl rfl rfl
theorem onLania_kept (f) (s : State) : Kept s (s.onLania f) := .same rfl rfl rfl rfl rfl
theorem onCxl_kept (f) (s : State) : Kept s (s.onCxl f) := .same rfl rfl rfl rfl rfl
theorem onDict_kept (f) (s : State) : Kept s (s.onDict f) := .same rfl rfl rfl rfl rfl
theorem onPower_kept (f) (s : State) : Kept s (s.onPower f) := .same rfl rfl rfl rfl rfl
theorem onTime_kept (f) (s : State) : Kept s (s.onTime f) := .same rfl rfl rfl rfl rfl
theorem onBoot_kept (f) (s : State) (h : (f s.boot).image = s.boot.image) : Kept s (s.onBoot f) := .same rfl rfl h rfl rfl
theorem mem_kept (m : Mem) (s : State) (h : Mem.Wf s.mem → Mem.Wf m) : Kept s { s with mem := m } :=
  ⟨h, id, id, rfl, List.suffix_refl _⟩
theorem spad_kept (m : Mem) (s : State) (h : Mem.Wf s.spad → Mem.Wf m) : Kept s { s with spad := m } :=
  ⟨id, h, id, rfl, List.suffix_refl _⟩
theorem drawn_kept (s : State) : Kept s s.drawn := .same rfl rfl rfl rfl rfl
theorem emit_kept (o : Output) (s : State) : Kept s (emit o s) := ⟨id, id, id, rfl, List.suffix_cons _ _⟩
theorem sent_kept (l : List Output) (s : State) : Kept s { s with out := l ++ s.out } := ⟨id, id, id, rfl, List.suffix_append _ _⟩

end Sys2Proof.Machine
end

