-- ==== Sys2Proof/Laws/KeptOps.lean ====
section
/-! SUPPORT. What each operation of Machine/Ops.lean keeps. -/

namespace Sys2Proof.Machine

theorem onPort_kept (p : Nat) (f : Port → Port) (s : State) : Kept s (State.onPort p f s) := by
  unfold State.onPort
  try dsimp only
  repeat' first
    | with_reducible apply Kept.ite
    | with_reducible apply Kept.refl
    | with_reducible assumption
    | with_reducible apply onPorts_kept

theorem onPlot_kept (n : Nat) (f : Plot → Plot) (s : State) : Kept s (State.onPlot n f s) := by
  unfold State.onPlot
  try dsimp only
  repeat' first
    | with_reducible apply Kept.ite
    | with_reducible apply Kept.refl
    | with_reducible assumption
    | with_reducible apply onKey_kept

theorem onCore_kept (c : Nat) (f : Core → Core) (s : State) : Kept s (State.onCore c f s) := by
  unfold State.onCore
  try dsimp only
  repeat' first
    | with_reducible apply Kept.ite
    | with_reducible apply Kept.refl
    | with_reducible assumption
    | with_reducible apply onFur_kept

theorem onThread_kept (c : Nat) (t : Nat) (f : Thread → Thread) (s : State) : Kept s (State.onThread c t f s) := by
  unfold State.onThread
  try dsimp only
  repeat' first
    | with_reducible apply Kept.ite
    | with_reducible apply Kept.refl
    | with_reducible assumption
    | with_reducible apply onCore_kept

theorem bump_kept (key : Nat) (n : Nat) (s : State) : Kept s (bump key n s) := by
  unfold bump
  try dsimp only
  repeat' first
    | with_reducible apply Kept.ite
    | with_reducible apply Kept.refl
    | with_reducible assumption
    | with_reducible apply onDict_kept

theorem logAppend_kept (time : Nat) (code : Nat) (payload : List Nat) (s : State) : Kept s (logAppend time code payload s) := by
  unfold logAppend
  try dsimp only
  repeat' first
    | with_reducible apply Kept.ite
    | with_reducible apply Kept.refl
    | with_reducible assumption
    | with_reducible apply onDict_kept

theorem deliver_kept (s : State) : Kept s (deliver s) := ⟨id, id, id, rfl, List.suffix_append _ _⟩

theorem lossEvent_kept (s : State) : Kept s (lossEvent s) := by
  unfold lossEvent
  try dsimp only
  repeat' first
    | with_reducible apply Kept.ite
    | with_reducible apply Kept.refl
    | with_reducible assumption
    | with_reducible apply logAppend_kept
    | with_reducible apply Kept.trans ?_ (logAppend_kept ..)
    | with_reducible apply onDict_kept

theorem raise_kept (code : Nat) (payload : List Nat) (s : State) : Kept s (raise code payload s) := by
  unfold raise
  try dsimp only
  repeat' first
    | with_reducible apply Kept.ite
    | with_reducible apply Kept.refl
    | with_reducible assumption
    | with_reducible apply deliver_kept
    | with_reducible apply Kept.trans ?_ (deliver_kept ..)
    | with_reducible apply lossEvent_kept
    | with_reducible apply Kept.trans ?_ (lossEvent_kept ..)
    | with_reducible apply logAppend_kept
    | with_reducible apply Kept.trans ?_ (logAppend_kept ..)
    | with_reducible apply onDict_kept

theorem doorbellPut_kept (b : Doorbell) (s : State) : Kept s (doorbellPut b s) := by
  unfold doorbellPut
  try dsimp only
  repeat' first
    | with_reducible apply Kept.ite
    | with_reducible apply Kept.refl
    | with_reducible assumption
    | with_reducible apply unread_kept
    | with_reducible apply Kept.trans ?_ (unread_kept ..)
    | with_reducible apply emit_kept
    | with_reducible apply Kept.trans ?_ (emit_kept ..)
    | with_reducible apply onLania_kept

theorem ringDoorbell_kept (kind : Nat) (key : Nat) (arg : Nat) (s : State) : Kept s (ringDoorbell kind key arg s) := by
  unfold ringDoorbell
  try dsimp only
  repeat' first
    | with_reducible apply Kept.ite
    | with_reducible apply Kept.refl
    | with_reducible assumption
    | with_reducible apply bump_kept
    | with_reducible apply Kept.trans ?_ (bump_kept ..)
    | with_reducible apply doorbellPut_kept
    | with_reducible apply Kept.trans ?_ (doorbellPut_kept ..)
    | with_reducible apply onLania_kept

theorem doorbellDrain_kept (s : State) : Kept s (doorbellDrain s) := by
  unfold doorbellDrain
  try dsimp only
  repeat' first
    | with_reducible apply Kept.ite
    | with_reducible apply Kept.refl
    | with_reducible assumption
    | with_reducible apply doorbellPut_kept
    | with_reducible apply Kept.trans ?_ (doorbellPut_kept ..)
    | with_reducible apply onLania_kept
    | with_reducible apply Kept.trans ?_ (onLania_kept ..)
    | split

theorem regAck_kept (status : Nat) (s : State) : Kept s (regAck status s) := by
  unfold regAck
  try dsimp only
  repeat' first
    | with_reducible apply Kept.ite
    | with_reducible apply Kept.refl
    | with_reducible assumption
    | with_reducible apply emit_kept

theorem viaReg_kept (f : State → State) (s : State) (hf : ∀ s, Kept s (f s)) : Kept s (viaReg f s) := by
  unfold viaReg
  try dsimp only
  repeat' first
    | with_reducible apply Kept.ite
    | with_reducible apply Kept.refl
    | with_reducible assumption
    | with_reducible exact hf _

theorem viaRegIn_kept (on : Bool) (f : State → State) (s : State) (hf : ∀ s, Kept s (f s)) : Kept s (viaRegIn on f s) := by
  unfold viaRegIn
  try dsimp only
  repeat' first
    | with_reducible apply Kept.ite
    | with_reducible apply Kept.refl
    | with_reducible assumption
    | with_reducible apply regAck_kept
    | with_reducible apply Kept.trans ?_ (regAck_kept ..)
    | with_reducible exact hf _

end Sys2Proof.Machine
end

