-- ==== Sys2Proof/Laws/KeptEncode.lean ====
section
/-! SUPPORT. What each operation of Machine/Encode.lean keeps. -/

namespace Sys2Proof.Machine

theorem countReport_kept (w : Who) (r : ArithReport) (s : State) : Kept s (countReport w r s) := by
  unfold countReport
  try dsimp only
  repeat' first
    | with_reducible apply Kept.ite
    | with_reducible apply Kept.refl
    | with_reducible assumption
    | with_reducible apply bump_kept
    | with_reducible apply Kept.trans ?_ (bump_kept ..)
    | with_reducible apply raise_kept
    | with_reducible apply Kept.trans ?_ (raise_kept ..)

theorem probeOne_kept (w : Who) (tfmt : Nat) (b : Nat × ℚ) (s : State) : Kept s (probeOne w tfmt b s) := by
  unfold probeOne
  try dsimp only
  repeat' first
    | with_reducible apply Kept.ite
    | with_reducible apply Kept.refl
    | with_reducible assumption
    | with_reducible apply bump_kept
    | with_reducible apply Kept.trans ?_ (bump_kept ..)
    | with_reducible apply raise_kept
    | with_reducible apply Kept.trans ?_ (raise_kept ..)
    | with_reducible apply onFur_kept

theorem account_kept (w : Who) (tfmt : Nat) (x : Enc) (s : State) : Kept s (account w tfmt x s) := by
  unfold account
  try dsimp only
  repeat' first
    | with_reducible apply Kept.ite
    | with_reducible apply Kept.refl
    | with_reducible assumption
    | with_reducible apply probeOne_kept
    | with_reducible apply Kept.trans ?_ (probeOne_kept ..)
    | with_reducible apply countReport_kept
    | with_reducible apply Kept.trans ?_ (countReport_kept ..)
    | with_reducible apply Kept.trans ?_ (Kept.forAll (fun _ _ => ?_) _)

end Sys2Proof.Machine
end

