-- ==== Sys2Proof/Laws/KeptLink.lean ====
section
/-! SUPPORT. What each operation of Machine/Link.lean keeps. -/

namespace Sys2Proof.Machine

theorem countFrame_kept (p : Nat) (s : State) : Kept s (countFrame p s) := by
  unfold countFrame
  try dsimp only
  repeat' first
    | with_reducible apply Kept.ite
    | with_reducible apply Kept.refl
    | with_reducible assumption
    | with_reducible apply onKey_kept
    | with_reducible apply Kept.trans ?_ (onKey_kept ..)
    | split

theorem framesDealt_kept (p : Nat) (n : Nat) (s : State) : Kept s (framesDealt p n s) := by
  unfold framesDealt
  try dsimp only
  repeat' first
    | with_reducible apply Kept.ite
    | with_reducible apply Kept.refl
    | with_reducible assumption
    | with_reducible apply onPort_kept

theorem frameOut_kept (p : Nat) (i : LinkItem) (s : State) : Kept s (frameOut p i s) := by
  unfold frameOut
  try dsimp only
  repeat' first
    | with_reducible apply Kept.ite
    | with_reducible apply Kept.refl
    | with_reducible assumption
    | with_reducible apply framesDealt_kept
    | with_reducible apply Kept.trans ?_ (framesDealt_kept ..)
    | with_reducible apply countFrame_kept
    | with_reducible apply Kept.trans ?_ (countFrame_kept ..)
    | with_reducible apply onPort_kept
    | with_reducible apply Kept.trans ?_ (onPort_kept ..)
    | with_reducible apply emit_kept
    | with_reducible apply Kept.trans ?_ (emit_kept ..)

theorem linkSend_kept (p : Nat) (i : LinkItem) (s : State) : Kept s (linkSend p i s) := by
  unfold linkSend
  try dsimp only
  repeat' first
    | with_reducible apply Kept.ite
    | with_reducible apply Kept.refl
    | with_reducible assumption
    | with_reducible apply frameOut_kept
    | with_reducible apply Kept.trans ?_ (frameOut_kept ..)
    | with_reducible apply onPort_kept

theorem heldDrain_kept (p : Nat) (fuel : Nat) (s : State) : Kept s (heldDrain p fuel s) := by
  induction fuel generalizing p s with
  | zero => exact Kept.refl _
  | succ _ ih =>
    unfold heldDrain
    try dsimp only
    repeat' first
      | with_reducible apply Kept.ite
      | with_reducible apply Kept.refl
      | with_reducible assumption
      | with_reducible apply frameOut_kept
      | with_reducible apply Kept.trans ?_ (frameOut_kept ..)
      | with_reducible apply onPort_kept
      | with_reducible apply Kept.trans ?_ (onPort_kept ..)
      | with_reducible exact ih ..
      | with_reducible apply Kept.trans ?_ (ih ..)
      | split

theorem replySend_kept (p : Nat) (r : Reply) (s : State) : Kept s (replySend p r s) := by
  unfold replySend
  try dsimp only
  repeat' first
    | with_reducible apply Kept.ite
    | with_reducible apply Kept.refl
    | with_reducible assumption
    | with_reducible apply linkSend_kept
    | with_reducible apply Kept.trans ?_ (linkSend_kept ..)
    | with_reducible apply bump_kept

theorem replyMove_kept (p : Nat) (s t : State) (h : replyMove p s = some t) : Kept s t := by
  unfold replyMove at h
  split at h
  · exact Option.some.inj h ▸ onSw_kept ..
  · split at h
    · exact Option.some.inj h ▸ onSw_kept ..
    · split at h
      · cases h
      · split at h
        · exact Option.some.inj h ▸ (onSw_kept ..).trans (replySend_kept ..)
        · cases h

theorem replyMoves_kept (p : Nat) (n : Nat) (s : State) : Kept s (replyMoves p n s) := by
  induction n generalizing s with
  | zero => exact Kept.refl _
  | succ n ih =>
    unfold replyMoves
    split
    · exact (replyMove_kept _ _ _ ‹_›).trans (ih _)
    · exact Kept.refl _

theorem replyPump_kept (p : Nat) (s : State) : Kept s (replyPump p s) := by
  unfold replyPump
  try dsimp only
  repeat' first
    | with_reducible apply Kept.ite
    | with_reducible apply Kept.refl
    | with_reducible assumption
    | with_reducible apply replyMoves_kept

theorem replyOut_kept (p : Nat) (y : NetReply) (s : State) : Kept s (replyOut p y s) := by
  unfold replyOut
  try dsimp only
  repeat' first
    | with_reducible apply Kept.ite
    | with_reducible apply Kept.refl
    | with_reducible assumption
    | with_reducible apply replySend_kept
    | with_reducible apply Kept.trans ?_ (replySend_kept ..)
    | with_reducible apply replyPump_kept
    | with_reducible apply Kept.trans ?_ (replyPump_kept ..)
    | with_reducible apply onSw_kept

theorem linkDrain_kept (p : Nat) (s : State) : Kept s (linkDrain p s) := by
  unfold linkDrain
  try dsimp only
  repeat' first
    | with_reducible apply Kept.ite
    | with_reducible apply Kept.refl
    | with_reducible assumption
    | with_reducible apply replyPump_kept
    | with_reducible apply Kept.trans ?_ (replyPump_kept ..)
    | with_reducible apply heldDrain_kept

theorem deliverFrom_kept (e : ReplyEntry) (via : Ingress) (r : Reply) (s : State) : Kept s (deliverFrom e via r s) := by
  unfold deliverFrom
  try dsimp only
  repeat' first
    | with_reducible apply Kept.ite
    | with_reducible apply Kept.refl
    | with_reducible assumption
    | with_reducible apply bump_kept
    | with_reducible apply Kept.trans ?_ (bump_kept ..)
    | with_reducible apply replyOut_kept
    | with_reducible apply Kept.trans ?_ (replyOut_kept ..)
    | with_reducible apply emit_kept
    | with_reducible apply Kept.trans ?_ (emit_kept ..)
    | with_reducible apply onColl_kept
    | with_reducible apply Kept.trans ?_ (onColl_kept ..)
    | split

theorem deliverReply_kept (via : Ingress) (r : Reply) (s : State) : Kept s (deliverReply via r s) := by
  unfold deliverReply
  try dsimp only
  repeat' first
    | with_reducible apply Kept.ite
    | with_reducible apply Kept.refl
    | with_reducible assumption
    | with_reducible apply deliverFrom_kept

theorem gateCount_kept (src : Nat) (dst : Nat) (s : State) : Kept s (gateCount src dst s) := by
  unfold gateCount
  try dsimp only
  repeat' first
    | with_reducible apply Kept.ite
    | with_reducible apply Kept.refl
    | with_reducible assumption
    | with_reducible apply onSw_kept

theorem gateAnswered_kept (src : Nat) (dst : Nat) (s : State) : Kept s (gateAnswered src dst s) := by
  unfold gateAnswered
  try dsimp only
  repeat' first
    | with_reducible apply Kept.ite
    | with_reducible apply Kept.refl
    | with_reducible assumption
    | with_reducible apply onSw_kept

theorem gatherOne_kept (ident : Nat) (port : Nat) (status : Nat) (s : State) : Kept s (gatherOne ident port status s) := by
  unfold gatherOne
  try dsimp only
  repeat' first
    | with_reducible apply Kept.ite
    | with_reducible apply Kept.refl
    | with_reducible assumption
    | with_reducible apply deliverFrom_kept
    | with_reducible apply Kept.trans ?_ (deliverFrom_kept ..)
    | with_reducible apply onSw_kept
    | with_reducible apply Kept.trans ?_ (onSw_kept ..)
    | split

theorem answerFrom_kept (e : ReplyEntry) (r : Req) (gather : Option Nat) (rep : Reply) (s : State) : Kept s (answerFrom e r gather rep s) := by
  unfold answerFrom
  try dsimp only
  repeat' first
    | with_reducible apply Kept.ite
    | with_reducible apply Kept.refl
    | with_reducible assumption
    | with_reducible apply gateAnswered_kept
    | with_reducible apply Kept.trans ?_ (gateAnswered_kept ..)
    | with_reducible apply gatherOne_kept
    | with_reducible apply Kept.trans ?_ (gatherOne_kept ..)
    | with_reducible apply deliverFrom_kept
    | with_reducible apply Kept.trans ?_ (deliverFrom_kept ..)
    | split

theorem answer_kept (r : Req) (gather : Option Nat) (rep : Reply) (s : State) : Kept s (answer r gather rep s) := by
  unfold answer
  try dsimp only
  repeat' first
    | with_reducible apply Kept.ite
    | with_reducible apply Kept.refl
    | with_reducible assumption
    | with_reducible apply answerFrom_kept

theorem countRefusal_kept (status : Nat) (s : State) : Kept s (countRefusal status s) := by
  unfold countRefusal
  try dsimp only
  repeat' first
    | with_reducible apply Kept.ite
    | with_reducible apply Kept.refl
    | with_reducible assumption
    | with_reducible apply bump_kept

theorem failReq_kept (r : Req) (gather : Option Nat) (status : Nat) (detail : Nat) (s : State) : Kept s (failReq r gather status detail s) := by
  unfold failReq
  try dsimp only
  repeat' first
    | with_reducible apply Kept.ite
    | with_reducible apply Kept.refl
    | with_reducible assumption
    | with_reducible apply answer_kept
    | with_reducible apply Kept.trans ?_ (answer_kept ..)
    | with_reducible apply countRefusal_kept

theorem failRecord_kept (p : Nat) (f : FwdRec) (status : Nat) (detail : Nat) (s : State) : Kept s (failRecord p f status detail s) := by
  unfold failRecord
  try dsimp only
  repeat' first
    | with_reducible apply Kept.ite
    | with_reducible apply Kept.refl
    | with_reducible assumption
    | with_reducible apply answerFrom_kept
    | with_reducible apply Kept.trans ?_ (answerFrom_kept ..)
    | with_reducible apply countRefusal_kept

theorem refuseReq_kept (r : Req) (status : Nat) (detail : Nat) (s : State) : Kept s (refuseReq r status detail s) := by
  unfold refuseReq
  try dsimp only
  repeat' first
    | with_reducible apply Kept.ite
    | with_reducible apply Kept.refl
    | with_reducible assumption
    | with_reducible apply deliverFrom_kept
    | with_reducible apply Kept.trans ?_ (deliverFrom_kept ..)
    | with_reducible apply countRefusal_kept

theorem dropRecord_kept (p : Nat) (f : FwdRec) (s : State) : Kept s (dropRecord p f s) := by
  unfold dropRecord
  try dsimp only
  repeat' first
    | with_reducible apply Kept.ite
    | with_reducible apply Kept.refl
    | with_reducible assumption
    | with_reducible apply onSw_kept

theorem dropRecords_kept (p : Nat) (s : State) : Kept s (dropRecords p s) := by
  unfold dropRecords
  try dsimp only
  repeat' first
    | with_reducible apply Kept.ite
    | with_reducible apply Kept.refl
    | with_reducible assumption
    | with_reducible apply onSw_kept

end Sys2Proof.Machine
end

