-- ==== Sys2Proof/Laws/KeptSyncOps.lean ====
section
/-! SUPPORT. What each operation of Machine/SyncOps.lean keeps. -/

namespace Sys2Proof.Machine

theorem touch_kept (c : Nat) (s : State) : Kept s (touch c s) := by
  unfold touch
  try dsimp only
  repeat' first
    | with_reducible apply Kept.ite
    | with_reducible apply Kept.refl
    | with_reducible assumption
    | with_reducible apply onSync_kept

theorem sigApply_kept (op : Nat) (h : Header) (data : List Byte) (s : State) : Kept s (sigApply op h data s).2 := by
  unfold sigApply
  try dsimp only
  repeat' first
    | with_reducible apply Kept.ite
    | with_reducible apply Kept.refl
    | with_reducible assumption
    | with_reducible apply raise_kept
    | with_reducible apply Kept.trans ?_ (raise_kept ..)
    | with_reducible apply bump_kept
    | with_reducible apply Kept.trans ?_ (bump_kept ..)
    | with_reducible apply touch_kept
    | with_reducible apply Kept.trans ?_ (touch_kept ..)
    | with_reducible apply onSync_kept
    | with_reducible apply Kept.trans ?_ (onSync_kept ..)
    | split

theorem onWatch_kept (w : Nat) (f : Watch → Watch) (s : State) : Kept s (State.onWatch w f s) := by
  unfold State.onWatch
  try dsimp only
  repeat' first
    | with_reducible apply Kept.ite
    | with_reducible apply Kept.refl
    | with_reducible assumption
    | with_reducible apply onSync_kept

theorem unarm_kept (w : Nat) (s : State) : Kept s (unarm w s) := by
  unfold unarm
  try dsimp only
  repeat' first
    | with_reducible apply Kept.ite
    | with_reducible apply Kept.refl
    | with_reducible assumption
    | with_reducible apply onWatch_kept
    | with_reducible apply Kept.trans ?_ (onWatch_kept ..)
    | with_reducible apply onSync_kept
    | with_reducible apply Kept.trans ?_ (onSync_kept ..)
    | split

theorem arm_kept (w : Nat) (x : Watch) (s : State) : Kept s (arm w x s) := by
  unfold arm
  try dsimp only
  repeat' first
    | with_reducible apply Kept.ite
    | with_reducible apply Kept.refl
    | with_reducible assumption
    | with_reducible apply touch_kept
    | with_reducible apply Kept.trans ?_ (touch_kept ..)
    | with_reducible apply bump_kept
    | with_reducible apply Kept.trans ?_ (bump_kept ..)
    | with_reducible apply onSync_kept

theorem watchCommand_kept (host : Bool) (node : Nat) (plot : Nat) (b : List Byte) (s : State) : Kept s (watchCommand host node plot b s).2 := by
  unfold watchCommand
  try dsimp only
  repeat' first
    | with_reducible apply Kept.ite
    | with_reducible apply Kept.refl
    | with_reducible assumption
    | with_reducible apply arm_kept
    | with_reducible apply Kept.trans ?_ (arm_kept ..)
    | with_reducible apply unarm_kept
    | with_reducible apply Kept.trans ?_ (unarm_kept ..)
    | split

theorem fireLeaves_kept (w : Nat) (x : Watch) (s : State) : Kept s (fireLeaves w x s).2.2 := by
  unfold fireLeaves
  try dsimp only
  repeat' first
    | with_reducible apply Kept.ite
    | with_reducible apply Kept.refl
    | with_reducible assumption
    | with_reducible apply unarm_kept
    | with_reducible apply Kept.trans ?_ (unarm_kept ..)
    | with_reducible apply onWatch_kept
    | with_reducible apply Kept.trans ?_ (onWatch_kept ..)
    | with_reducible apply onSync_kept
    | with_reducible apply Kept.trans ?_ (onSync_kept ..)
    | split

theorem grantBack_kept (c : Nat) (s : State) : Kept s (grantBack c s) := by
  unfold grantBack
  try dsimp only
  repeat' first
    | with_reducible apply Kept.ite
    | with_reducible apply Kept.refl
    | with_reducible assumption
    | with_reducible apply touch_kept
    | with_reducible apply Kept.trans ?_ (touch_kept ..)
    | with_reducible apply onSync_kept

end Sys2Proof.Machine
end

