-- ==== Sys2Proof/Laws/KeptTimeOps.lean ====
section
/-! SUPPORT. What each operation of Machine/TimeOps.lean keeps. -/

namespace Sys2Proof.Machine

theorem timeRequested_kept (src : Nat) (data : List Byte) (s : State) : Kept s (timeRequested src data s) := by
  unfold timeRequested
  try dsimp only
  repeat' first
    | with_reducible apply Kept.ite
    | with_reducible apply Kept.refl
    | with_reducible assumption
    | with_reducible apply onColl_kept

theorem timeUnlock_kept (cause : Nat) (s : State) : Kept s (timeUnlock cause s) := by
  unfold timeUnlock
  try dsimp only
  repeat' first
    | with_reducible apply Kept.ite
    | with_reducible apply Kept.refl
    | with_reducible assumption
    | with_reducible apply raise_kept
    | with_reducible apply Kept.trans ?_ (raise_kept ..)
    | with_reducible apply onTime_kept

theorem timeOffset_kept (offset : Int) (s : State) : Kept s (timeOffset offset s) := by
  unfold timeOffset
  try dsimp only
  repeat' first
    | with_reducible apply Kept.ite
    | with_reducible apply Kept.refl
    | with_reducible assumption
    | with_reducible apply bump_kept
    | with_reducible apply Kept.trans ?_ (bump_kept ..)
    | with_reducible apply raise_kept
    | with_reducible apply Kept.trans ?_ (raise_kept ..)
    | with_reducible apply timeUnlock_kept
    | with_reducible apply Kept.trans ?_ (timeUnlock_kept ..)
    | with_reducible apply onTime_kept
    | with_reducible apply Kept.trans ?_ (onTime_kept ..)
    | with_reducible apply drawn_kept
    | with_reducible apply Kept.trans ?_ (drawn_kept ..)

theorem timeReplied_kept (data : List Byte) (s : State) : Kept s (timeReplied data s) := by
  unfold timeReplied
  try dsimp only
  repeat' first
    | with_reducible apply Kept.ite
    | with_reducible apply Kept.refl
    | with_reducible assumption
    | with_reducible apply timeOffset_kept
    | with_reducible apply Kept.trans ?_ (timeOffset_kept ..)
    | split

theorem timeIntake_kept (src : Nat) (data : List Byte) (s : State) : Kept s (timeIntake src data s) := by
  unfold timeIntake
  try dsimp only
  repeat' first
    | with_reducible apply Kept.ite
    | with_reducible apply Kept.refl
    | with_reducible assumption
    | with_reducible apply timeRequested_kept
    | with_reducible apply Kept.trans ?_ (timeRequested_kept ..)
    | with_reducible apply timeReplied_kept

theorem timeStart_kept (s : State) : Kept s (timeStart s) := by
  unfold timeStart
  try dsimp only
  repeat' first
    | with_reducible apply Kept.ite
    | with_reducible apply Kept.refl
    | with_reducible assumption
    | with_reducible apply timeUnlock_kept
    | with_reducible apply Kept.trans ?_ (timeUnlock_kept ..)
    | with_reducible apply onTime_kept
    | with_reducible apply Kept.trans ?_ (onTime_kept ..)

theorem timeStamp_kept (r : Req) (s : State) : Kept s (timeStamp r s).2 := by
  unfold timeStamp
  try dsimp only
  repeat' first
    | with_reducible apply Kept.ite
    | with_reducible apply Kept.refl
    | with_reducible assumption
    | with_reducible apply onTime_kept
    | with_reducible apply Kept.trans ?_ (onTime_kept ..)
    | split

end Sys2Proof.Machine
end

