-- ==== Sys2Proof/Laws/KeptTranslate.lean ====
section
/-! SUPPORT. What each operation of Machine/Translate.lean keeps. -/

namespace Sys2Proof.Machine

theorem onExt_kept (x : Nat) (f : Extent → Extent) (s : State) : Kept s (State.onExt x f s) := by
  unfold State.onExt
  try dsimp only
  repeat' first
    | with_reducible apply Kept.ite
    | with_reducible apply Kept.refl
    | with_reducible assumption
    | with_reducible apply onPool_kept

theorem meetWalk_kept (line : Nat) (s : State) : Kept s (meetWalk line s) := by
  unfold meetWalk
  try dsimp only
  repeat' first
    | with_reducible apply Kept.ite
    | with_reducible apply Kept.refl
    | with_reducible assumption
    | with_reducible apply onCoh_kept
    | with_reducible apply Kept.trans ?_ (onCoh_kept ..)
    | with_reducible apply drawn_kept
    | with_reducible apply Kept.trans ?_ (drawn_kept ..)
    | split

theorem sendSnoop_kept (line : Nat) (inv : Bool) (s : State) : Kept s (sendSnoop line inv s) := by
  unfold sendSnoop
  try dsimp only
  repeat' first
    | with_reducible apply Kept.ite
    | with_reducible apply Kept.refl
    | with_reducible assumption
    | with_reducible apply bump_kept
    | with_reducible apply Kept.trans ?_ (bump_kept ..)
    | with_reducible apply emit_kept
    | with_reducible apply Kept.trans ?_ (emit_kept ..)
    | with_reducible apply onCoh_kept

theorem filterBar_kept (wr : Bool) (line : Nat) (s : State) : Kept s (filterBar wr line s).2 := by
  unfold filterBar
  try dsimp only
  repeat' first
    | with_reducible apply Kept.ite
    | with_reducible apply Kept.refl
    | with_reducible assumption
    | with_reducible apply meetWalk_kept
    | with_reducible apply Kept.trans ?_ (meetWalk_kept ..)
    | with_reducible apply sendSnoop_kept
    | with_reducible apply Kept.trans ?_ (sendSnoop_kept ..)
    | split

theorem bcvMove_kept (line : Nat) (old : List Byte) (new : List Byte) (s : State) : Kept s (bcvMove line old new s) := by
  unfold bcvMove
  try dsimp only
  repeat' first
    | with_reducible apply Kept.ite
    | with_reducible apply Kept.refl
    | with_reducible assumption
    | with_reducible apply onPool_kept

theorem tierWrite_kept (line : Nat) (old : List Byte) (s : State) : Kept s (tierWrite line old s) := by
  unfold tierWrite
  try dsimp only
  repeat' first
    | with_reducible apply Kept.ite
    | with_reducible apply Kept.refl
    | with_reducible assumption
    | with_reducible apply bcvMove_kept
    | with_reducible apply Kept.trans ?_ (bcvMove_kept ..)
    | with_reducible apply onKey_kept
    | with_reducible apply Kept.trans ?_ (onKey_kept ..)

theorem writeBack_kept (line : Nat) (s : State) : Kept s (writeBack line s) := by
  unfold writeBack
  try dsimp only
  repeat' first
    | with_reducible apply Kept.ite
    | with_reducible apply Kept.refl
    | with_reducible assumption
    | with_reducible apply tierWrite_kept
    | with_reducible apply Kept.trans ?_ (tierWrite_kept ..)
    | with_reducible apply onPool_kept
    | with_reducible apply Kept.trans ?_ (onPool_kept ..)
    | split

theorem chipLookup_kept (line : Nat) (plot : Nat) (s : State) : Kept s (chipLookup line plot s) := by
  unfold chipLookup
  try dsimp only
  repeat' first
    | with_reducible apply Kept.ite
    | with_reducible apply Kept.refl
    | with_reducible assumption
    | with_reducible apply bump_kept

theorem chipAlloc_kept (line : Nat) (plot : Nat) (s : State) : Kept s (chipAlloc line plot s) := by
  unfold chipAlloc
  try dsimp only
  repeat' first
    | with_reducible apply Kept.ite
    | with_reducible apply Kept.refl
    | with_reducible assumption
    | with_reducible apply writeBack_kept
    | with_reducible apply Kept.trans ?_ (writeBack_kept ..)
    | with_reducible apply onPool_kept
    | with_reducible apply Kept.trans ?_ (onPool_kept ..)
    | with_reducible apply drawn_kept
    | with_reducible apply Kept.trans ?_ (drawn_kept ..)

theorem lineStored_kept (line : Nat) (plot : Nat) (old : List Byte) (s : State) : Kept s (lineStored line plot old s) := by
  unfold lineStored
  try dsimp only
  repeat' first
    | with_reducible apply Kept.ite
    | with_reducible apply Kept.refl
    | with_reducible assumption
    | with_reducible apply tierWrite_kept
    | with_reducible apply Kept.trans ?_ (tierWrite_kept ..)
    | with_reducible apply onPool_kept

theorem chipDrop_kept (gone : Nat → Bool) (s : State) : Kept s (chipDrop gone s) :=
  Kept.trans (onPool_kept _ s) (mem_kept _ _ (Mem.wf_foldl _ (fun _ _ => Mem.wf_write _ _ _) _ _))

theorem chipFlush_kept (gone : Nat → Bool) (s : State) : Kept s (chipFlush gone s) := by
  unfold chipFlush
  try dsimp only
  repeat' first
    | with_reducible apply Kept.ite
    | with_reducible apply Kept.refl
    | with_reducible assumption
    | with_reducible apply chipDrop_kept
    | with_reducible apply Kept.trans ?_ (chipDrop_kept ..)
    | with_reducible apply writeBack_kept
    | with_reducible apply Kept.trans ?_ (writeBack_kept ..)
    | with_reducible apply Kept.trans ?_ (Kept.forAll (fun _ _ => ?_) _)

theorem walked_kept (root : Nat) (off : Nat) (s : State) : Kept s (walked root off s) := by
  unfold walked
  try dsimp only
  repeat' first
    | with_reducible apply Kept.ite
    | with_reducible apply Kept.refl
    | with_reducible assumption
    | with_reducible apply chipAlloc_kept
    | with_reducible apply Kept.trans ?_ (chipAlloc_kept ..)
    | with_reducible apply chipLookup_kept
    | with_reducible apply Kept.trans ?_ (chipLookup_kept ..)
    | with_reducible apply Kept.trans ?_ (Kept.forAll (fun _ _ => ?_) _)

theorem hubFill_kept (e : Tlb) (s : State) : Kept s (hubFill e s) := by
  unfold hubFill
  try dsimp only
  repeat' first
    | with_reducible apply Kept.ite
    | with_reducible apply Kept.refl
    | with_reducible assumption
    | with_reducible apply drawn_kept
    | with_reducible apply Kept.trans ?_ (drawn_kept ..)
    | with_reducible apply onXlt_kept
    | with_reducible apply Kept.trans ?_ (onXlt_kept ..)

theorem coreFill_kept (c : Nat) (e : Tlb) (s : State) : Kept s (coreFill c e s) := by
  unfold coreFill
  try dsimp only
  repeat' first
    | with_reducible apply Kept.ite
    | with_reducible apply Kept.refl
    | with_reducible assumption
    | with_reducible apply drawn_kept
    | with_reducible apply Kept.trans ?_ (drawn_kept ..)
    | with_reducible apply onXlt_kept
    | with_reducible apply Kept.trans ?_ (onXlt_kept ..)

theorem fill_kept (core : Option Nat) (e : Tlb) (s : State) : Kept s (fill core e s) := by
  unfold fill
  try dsimp only
  repeat' first
    | with_reducible apply Kept.ite
    | with_reducible apply Kept.refl
    | with_reducible assumption
    | with_reducible apply hubFill_kept
    | with_reducible apply Kept.trans ?_ (hubFill_kept ..)
    | with_reducible apply coreFill_kept
    | with_reducible apply Kept.trans ?_ (coreFill_kept ..)
    | split

theorem discard_kept (core : Option Nat) (ctx : Nat) (page : Nat) (s : State) : Kept s (discard core ctx page s) := by
  unfold discard
  try dsimp only
  repeat' first
    | with_reducible apply Kept.ite
    | with_reducible apply Kept.refl
    | with_reducible assumption
    | with_reducible apply onXlt_kept

theorem lookup_kept (core : Option Nat) (ctx : Nat) (page : Nat) (s : State) : Kept s (lookup core ctx page s).2 := by
  unfold lookup
  try dsimp only
  repeat' first
    | with_reducible apply Kept.ite
    | with_reducible apply Kept.refl
    | with_reducible assumption
    | with_reducible apply coreFill_kept
    | with_reducible apply Kept.trans ?_ (coreFill_kept ..)
    | with_reducible apply bump_kept
    | with_reducible apply Kept.trans ?_ (bump_kept ..)
    | split

theorem beginWait_kept (w : WaitFor) (s : State) : Kept s (beginWait w s) := by
  unfold beginWait
  try dsimp only
  repeat' first
    | with_reducible apply Kept.ite
    | with_reducible apply Kept.refl
    | with_reducible assumption
    | with_reducible apply sendSnoop_kept
    | with_reducible apply Kept.trans ?_ (sendSnoop_kept ..)
    | with_reducible apply onPool_kept
    | with_reducible apply Kept.trans ?_ (onPool_kept ..)
    | split

theorem walkBarred_kept (line : Nat) (w : WaitFor) (s : State) : Kept s (walkBarred line w s).2 := by
  unfold walkBarred
  try dsimp only
  repeat' first
    | with_reducible apply Kept.ite
    | with_reducible apply Kept.refl
    | with_reducible assumption
    | with_reducible apply meetWalk_kept
    | with_reducible apply Kept.trans ?_ (meetWalk_kept ..)
    | with_reducible apply beginWait_kept
    | with_reducible apply Kept.trans ?_ (beginWait_kept ..)
    | split

theorem walkChecks_kept (a : Ask) (faults : Bool) (root : Nat) (s : State) : Kept s (walkChecks a faults root s).2 := by
  unfold walkChecks
  try dsimp only
  repeat' first
    | with_reducible apply Kept.ite
    | with_reducible apply Kept.refl
    | with_reducible assumption
    | with_reducible apply walked_kept
    | with_reducible apply Kept.trans ?_ (walked_kept ..)
    | with_reducible apply bump_kept
    | with_reducible apply Kept.trans ?_ (bump_kept ..)
    | with_reducible apply fill_kept
    | with_reducible apply Kept.trans ?_ (fill_kept ..)
    | with_reducible apply raise_kept
    | with_reducible apply Kept.trans ?_ (raise_kept ..)
    | with_reducible apply walkBarred_kept
    | with_reducible apply Kept.trans ?_ (walkBarred_kept ..)
    | split

theorem barCounted_kept (a : Ask) (st : Nat) (s : State) : Kept s (barCounted a st s) := by
  unfold barCounted
  try dsimp only
  repeat' first
    | with_reducible apply Kept.ite
    | with_reducible apply Kept.refl
    | with_reducible assumption
    | with_reducible apply bump_kept

theorem memCheck_kept (a : Ask) (s : State) : Kept s (memCheck a s).2 := by
  unfold memCheck
  try dsimp only
  repeat' first
    | with_reducible apply Kept.ite
    | with_reducible apply Kept.refl
    | with_reducible assumption
    | with_reducible apply barCounted_kept
    | with_reducible apply Kept.trans ?_ (barCounted_kept ..)
    | with_reducible apply lookup_kept
    | with_reducible apply Kept.trans ?_ (lookup_kept ..)
    | with_reducible apply walkChecks_kept
    | with_reducible apply Kept.trans ?_ (walkChecks_kept ..)
    | with_reducible apply discard_kept
    | with_reducible apply Kept.trans ?_ (discard_kept ..)
    | split

end Sys2Proof.Machine
end

