-- ==== Sys2Proof/Laws/KeptCollect.lean ====
section
/-! SUPPORT. What each operation of Machine/Collect.lean keeps. -/

namespace Sys2Proof.Machine

theorem unitSend_kept (u : UnitOp) (op : Nat) (h : Header) (data : List Byte) (s : State) : Kept s (unitSend u op h data s) := by
  unfold unitSend
  try dsimp only
  repeat' first
    | with_reducible apply Kept.ite
    | with_reducible apply Kept.refl
    | with_reducible assumption
    | with_reducible apply onColl_kept

theorem onGroup_kept (g : Nat) (f : Group → Group) (s : State) : Kept s (State.onGroup g f s) := by
  unfold State.onGroup
  try dsimp only
  repeat' first
    | with_reducible apply Kept.ite
    | with_reducible apply Kept.refl
    | with_reducible assumption
    | with_reducible apply onColl_kept
    | with_reducible apply Kept.trans ?_ (onColl_kept ..)
    | split

theorem onSeq_kept (g : Nat) (n : Nat) (f : CSeq → CSeq) (s : State) : Kept s (State.onSeq g n f s) := by
  unfold State.onSeq
  try dsimp only
  repeat' first
    | with_reducible apply Kept.ite
    | with_reducible apply Kept.refl
    | with_reducible assumption
    | with_reducible apply onGroup_kept

theorem stagePass_kept (x : Group) (q : CSeq) (os : List Nat) (s : State) : Kept s (stagePass x q os s) := by
  unfold stagePass
  try dsimp only
  repeat' first
    | with_reducible apply Kept.ite
    | with_reducible apply Kept.refl
    | with_reducible assumption
    | with_reducible apply lineStored_kept
    | with_reducible apply Kept.trans ?_ (lineStored_kept ..)
    | with_reducible apply chipAlloc_kept
    | with_reducible apply Kept.trans ?_ (chipAlloc_kept ..)
    | with_reducible apply Kept.trans ?_ (Kept.forAll (fun _ _ => ?_) _)

theorem stageDrop_kept (x : Group) (q : CSeq) (os : List Nat) (s : State) : Kept s (stageDrop x q os s) := by
  unfold stageDrop
  try dsimp only
  repeat' first
    | with_reducible apply Kept.ite
    | with_reducible apply Kept.refl
    | with_reducible assumption
    | with_reducible apply chipDrop_kept

theorem arriveAt_kept (g : Nat) (n : Nat) (stage : Nat) (m : Nat) (s : State) : Kept s (arriveAt g n stage m s) := by
  unfold arriveAt
  try dsimp only
  repeat' first
    | with_reducible apply Kept.ite
    | with_reducible apply Kept.refl
    | with_reducible assumption
    | with_reducible apply onSeq_kept

theorem recordStage_kept (g : Nat) (n : Nat) (stage : Nat) (late : Bool) (hubLevel : Bool) (named : Nat) (s : State) : Kept s (recordStage g n stage late hubLevel named s) := by
  unfold recordStage
  try dsimp only
  repeat' first
    | with_reducible apply Kept.ite
    | with_reducible apply Kept.refl
    | with_reducible assumption
    | with_reducible apply onGroup_kept

theorem xchSend_kept (x : Group) (hub : Nat) (payload : List Byte) (s : State) : Kept s (xchSend x hub payload s) := by
  unfold xchSend
  try dsimp only
  repeat' first
    | with_reducible apply Kept.ite
    | with_reducible apply Kept.refl
    | with_reducible assumption
    | with_reducible apply bump_kept
    | with_reducible apply Kept.trans ?_ (bump_kept ..)
    | with_reducible apply unitSend_kept

theorem bodiesOut_kept (x : Group) (g kind n chunk slice hub off : Nat) (l : List (List Byte)) (s : State) :
    Kept s (bodiesOut x g kind n chunk slice hub off l s) := by
  induction l generalizing off s with
  | nil => exact Kept.refl _
  | cons a r ih =>
    unfold bodiesOut
    exact Kept.ite (Kept.refl _) ((xchSend_kept ..).trans (ih ..))

theorem streamOut_kept (x : Group) (g : Nat) (kind : Nat) (n : Nat) (chunk : Nat) (slice : Nat) (hub : Nat) (off : Nat) (l : List Byte) (s : State) : Kept s (streamOut x g kind n chunk slice hub off l s) := by
  unfold streamOut
  try dsimp only
  repeat' first
    | with_reducible apply Kept.ite
    | with_reducible apply Kept.refl
    | with_reducible assumption
    | with_reducible apply bodiesOut_kept

theorem streamAll_kept (x : Group) (g : Nat) (kind : Nat) (n : Nat) (chunk : Nat) (slice : Nat) (l : List Byte) (s : State) : Kept s (streamAll x g kind n chunk slice l s) := by
  unfold streamAll
  try dsimp only
  repeat' first
    | with_reducible apply Kept.ite
    | with_reducible apply Kept.refl
    | with_reducible assumption
    | with_reducible apply streamOut_kept
    | with_reducible apply Kept.trans ?_ (streamOut_kept ..)
    | with_reducible apply Kept.trans ?_ (Kept.forAll (fun _ _ => ?_) _)

theorem ensureSeq_kept (g : Nat) (n : Nat) (s : State) : Kept s (ensureSeq g n s) := by
  unfold ensureSeq
  try dsimp only
  repeat' first
    | with_reducible apply Kept.ite
    | with_reducible apply Kept.refl
    | with_reducible assumption
    | with_reducible apply onGroup_kept

theorem countAbort_kept (status : Nat) (s : State) : Kept s (countAbort status s) := by
  unfold countAbort
  try dsimp only
  repeat' first
    | with_reducible apply Kept.ite
    | with_reducible apply Kept.refl
    | with_reducible assumption
    | with_reducible apply bump_kept
    | with_reducible apply Kept.trans ?_ (bump_kept ..)

theorem abortSeq_kept (g : Nat) (n : Nat) (status : Nat) (named : Nat) (reason : Nat) (hubLevel : Bool) (s : State) : Kept s (abortSeq g n status named reason hubLevel s) := by
  unfold abortSeq
  try dsimp only
  repeat' first
    | with_reducible apply Kept.ite
    | with_reducible apply Kept.refl
    | with_reducible assumption
    | with_reducible apply ensureSeq_kept
    | with_reducible apply Kept.trans ?_ (ensureSeq_kept ..)
    | with_reducible apply onSeq_kept
    | with_reducible apply Kept.trans ?_ (onSeq_kept ..)
    | with_reducible apply countAbort_kept
    | with_reducible apply Kept.trans ?_ (countAbort_kept ..)
    | with_reducible apply raise_kept
    | with_reducible apply Kept.trans ?_ (raise_kept ..)
    | with_reducible apply xchSend_kept
    | with_reducible apply Kept.trans ?_ (xchSend_kept ..)
    | with_reducible apply Kept.trans ?_ (Kept.forAll (fun _ _ => ?_) _)
    | split

theorem abortHeard_kept (g : Nat) (n : Nat) (c : Cause) (s : State) : Kept s (abortHeard g n c s) := by
  unfold abortHeard
  try dsimp only
  repeat' first
    | with_reducible apply Kept.ite
    | with_reducible apply Kept.refl
    | with_reducible assumption
    | with_reducible apply ensureSeq_kept
    | with_reducible apply Kept.trans ?_ (ensureSeq_kept ..)
    | with_reducible apply countAbort_kept
    | with_reducible apply Kept.trans ?_ (countAbort_kept ..)
    | with_reducible apply onSeq_kept
    | with_reducible apply Kept.trans ?_ (onSeq_kept ..)
    | split

theorem sendRecord_kept (u : UnitOp) (x : Group) (m : Member) (n : Nat) (bytes : List Byte) (s : State) : Kept s (sendRecord u x m n bytes s) := by
  unfold sendRecord
  try dsimp only
  repeat' first
    | with_reducible apply Kept.ite
    | with_reducible apply Kept.refl
    | with_reducible assumption
    | with_reducible apply unitSend_kept
    | with_reducible apply Kept.trans ?_ (unitSend_kept ..)
    | with_reducible apply Kept.trans ?_ (Kept.forAll (fun _ _ => ?_) _)

theorem compareSigs_kept (g : Nat) (n : Nat) (x : Group) (s : State) : Kept s (compareSigs g n x s) := by
  unfold compareSigs
  try dsimp only
  repeat' first
    | with_reducible apply Kept.ite
    | with_reducible apply Kept.refl
    | with_reducible assumption
    | with_reducible apply abortSeq_kept
    | with_reducible apply Kept.trans ?_ (abortSeq_kept ..)
    | split

theorem holdDesc_kept (g : Nat) (n : Nat) (m : Nat) (x : Group) (desc : List Byte) (s : State) : Kept s (holdDesc g n m x desc s) := by
  unfold holdDesc
  try dsimp only
  repeat' first
    | with_reducible apply Kept.ite
    | with_reducible apply Kept.refl
    | with_reducible assumption
    | with_reducible apply ensureSeq_kept
    | with_reducible apply Kept.trans ?_ (ensureSeq_kept ..)
    | with_reducible apply onSeq_kept
    | with_reducible apply Kept.trans ?_ (onSeq_kept ..)
    | with_reducible apply arriveAt_kept
    | with_reducible apply Kept.trans ?_ (arriveAt_kept ..)
    | with_reducible apply recordStage_kept
    | with_reducible apply Kept.trans ?_ (recordStage_kept ..)
    | with_reducible apply compareSigs_kept
    | with_reducible apply Kept.trans ?_ (compareSigs_kept ..)
    | with_reducible apply xchSend_kept
    | with_reducible apply Kept.trans ?_ (xchSend_kept ..)
    | with_reducible apply onColl_kept
    | with_reducible apply Kept.trans ?_ (onColl_kept ..)
    | with_reducible apply Kept.trans ?_ (Kept.forAll (fun _ _ => ?_) _)
    | split

theorem collPost_kept (g : Nat) (k : Nat) (slot : Nat) (desc : List Byte) (s : State) : Kept s (collPost g k slot desc s) := by
  unfold collPost
  try dsimp only
  repeat' first
    | with_reducible apply Kept.ite
    | with_reducible apply Kept.refl
    | with_reducible assumption
    | with_reducible apply sendRecord_kept
    | with_reducible apply Kept.trans ?_ (sendRecord_kept ..)
    | with_reducible apply raise_kept
    | with_reducible apply Kept.trans ?_ (raise_kept ..)
    | with_reducible apply bump_kept
    | with_reducible apply Kept.trans ?_ (bump_kept ..)
    | with_reducible apply ensureSeq_kept
    | with_reducible apply Kept.trans ?_ (ensureSeq_kept ..)
    | with_reducible apply onSeq_kept
    | with_reducible apply Kept.trans ?_ (onSeq_kept ..)
    | with_reducible apply abortSeq_kept
    | with_reducible apply Kept.trans ?_ (abortSeq_kept ..)
    | with_reducible apply holdDesc_kept
    | with_reducible apply Kept.trans ?_ (holdDesc_kept ..)
    | split

theorem redColl_kept (h : Header) (data : List Byte) (s : State) : Kept s (redColl h data s).2 := by
  unfold redColl
  try dsimp only
  repeat' first
    | with_reducible apply Kept.ite
    | with_reducible apply Kept.refl
    | with_reducible assumption
    | with_reducible apply bump_kept
    | with_reducible apply Kept.trans ?_ (bump_kept ..)
    | with_reducible apply onSeq_kept
    | with_reducible apply Kept.trans ?_ (onSeq_kept ..)
    | with_reducible apply stagePass_kept
    | with_reducible apply Kept.trans ?_ (stagePass_kept ..)
    | with_reducible apply arriveAt_kept
    | with_reducible apply Kept.trans ?_ (arriveAt_kept ..)
    | with_reducible apply recordStage_kept
    | with_reducible apply Kept.trans ?_ (recordStage_kept ..)
    | with_reducible exact Kept.foldl_snd (fun _ _ => ?_) _ _
    | with_reducible apply Kept.foldl_snd (fun _ _ => ?_) _ _
    | with_reducible apply Kept.foldl_fst (fun _ _ => ?_) _ _
    | with_reducible apply Kept.foldl_snd_snd (fun _ _ => ?_) _ _ _
    | split

theorem throttle_kept (h : Header) (data : List Byte) (s : State) : Kept s (throttle h data s).2 := by
  unfold throttle
  try dsimp only
  repeat' first
    | with_reducible apply Kept.ite
    | with_reducible apply Kept.refl
    | with_reducible assumption
    | with_reducible apply bump_kept
    | with_reducible apply Kept.trans ?_ (bump_kept ..)
    | with_reducible apply ensureSeq_kept
    | with_reducible apply Kept.trans ?_ (ensureSeq_kept ..)
    | with_reducible apply onSeq_kept
    | with_reducible apply Kept.trans ?_ (onSeq_kept ..)
    | with_reducible apply xchSend_kept
    | with_reducible apply Kept.trans ?_ (xchSend_kept ..)
    | with_reducible apply Kept.trans ?_ (Kept.forAll (fun _ _ => ?_) _)
    | split

theorem slowSeq_kept (g : Nat) (n : Nat) (s : State) : Kept s (slowSeq g n s) := by
  unfold slowSeq
  try dsimp only
  repeat' first
    | with_reducible apply Kept.ite
    | with_reducible apply Kept.refl
    | with_reducible assumption
    | with_reducible apply onSeq_kept
    | with_reducible apply Kept.trans ?_ (onSeq_kept ..)
    | with_reducible apply xchSend_kept
    | with_reducible apply Kept.trans ?_ (xchSend_kept ..)
    | with_reducible apply Kept.trans ?_ (Kept.forAll (fun _ _ => ?_) _)
    | split

theorem slowAll_kept (s : State) : Kept s (slowAll s) := by
  unfold slowAll
  try dsimp only
  repeat' first
    | with_reducible apply Kept.ite
    | with_reducible apply Kept.refl
    | with_reducible assumption
    | with_reducible apply slowSeq_kept
    | with_reducible apply Kept.trans ?_ (slowSeq_kept ..)
    | with_reducible apply Kept.trans ?_ (Kept.forAll (fun _ _ => ?_) _)

theorem collStart_kept (g : Nat) (op : Nat) (s : State) : Kept s (collStart g op s) := by
  unfold collStart
  try dsimp only
  repeat' first
    | with_reducible apply Kept.ite
    | with_reducible apply Kept.refl
    | with_reducible assumption
    | with_reducible apply onSeq_kept
    | with_reducible apply Kept.trans ?_ (onSeq_kept ..)
    | with_reducible apply onGroup_kept
    | with_reducible apply Kept.trans ?_ (onGroup_kept ..)
    | with_reducible apply slowSeq_kept
    | with_reducible apply Kept.trans ?_ (slowSeq_kept ..)
    | with_reducible apply onColl_kept
    | with_reducible apply Kept.trans ?_ (onColl_kept ..)
    | with_reducible exact Kept.foldl_snd (fun _ _ => ?_) _ _
    | with_reducible apply Kept.foldl_snd (fun _ _ => ?_) _ _
    | with_reducible apply Kept.foldl_fst (fun _ _ => ?_) _ _
    | with_reducible apply Kept.foldl_snd_snd (fun _ _ => ?_) _ _ _
    | split

theorem collFault_kept (g : Nat) (n : Nat) (named : Nat) (reason : Nat) (op : Nat) (s : State) : Kept s (collFault g n named reason op s) := by
  unfold collFault
  try dsimp only
  repeat' first
    | with_reducible apply Kept.ite
    | with_reducible apply Kept.refl
    | with_reducible assumption
    | with_reducible apply abortSeq_kept
    | with_reducible apply Kept.trans ?_ (abortSeq_kept ..)
    | with_reducible apply raise_kept
    | with_reducible apply Kept.trans ?_ (raise_kept ..)
    | with_reducible apply bump_kept

theorem reported_kept (g : Nat) (n : Nat) (rep : ArithReport) (s : State) : Kept s (reported g n rep s) := by
  unfold reported
  try dsimp only
  repeat' first
    | with_reducible apply Kept.ite
    | with_reducible apply Kept.refl
    | with_reducible assumption
    | with_reducible apply onSeq_kept

theorem partCounted_kept (g : Nat) (n : Nat) (b : List Byte) (x : Group) (accs : List (Arith.Acc × ArithReport)) (send : State → State) (s : State) (hsend : ∀ s, Kept s (send s)) : Kept s (partCounted g n b x accs send s) := by
  unfold partCounted
  try dsimp only
  repeat' first
    | with_reducible apply Kept.ite
    | with_reducible apply Kept.refl
    | with_reducible assumption
    | with_reducible apply countReport_kept
    | with_reducible apply Kept.trans ?_ (countReport_kept ..)
    | with_reducible apply collFault_kept
    | with_reducible apply Kept.trans ?_ (collFault_kept ..)
    | with_reducible apply reported_kept
    | with_reducible apply Kept.trans ?_ (reported_kept ..)
    | with_reducible exact Kept.foldl_snd (fun _ _ => ?_) _ _
    | with_reducible apply Kept.foldl_snd (fun _ _ => ?_) _ _
    | with_reducible apply Kept.foldl_fst (fun _ _ => ?_) _ _
    | with_reducible apply Kept.foldl_snd_snd (fun _ _ => ?_) _ _ _
    | with_reducible exact hsend _
    | with_reducible apply Kept.trans ?_ (hsend _)

theorem partialOut_kept (x : Group) (g : Nat) (n : Nat) (k : Nat) (j : Nat) (hub : Nat) (accs : List Arith.Acc) (s : State) : Kept s (partialOut x g n k j hub accs s) := by
  unfold partialOut
  try dsimp only
  repeat' first
    | with_reducible apply Kept.ite
    | with_reducible apply Kept.refl
    | with_reducible assumption
    | with_reducible apply bodiesOut_kept

theorem sendBodies_kept (g : Nat) (n : Nat) (k : Nat) (x : Group) (q : CSeq) (b : List Byte) (s : State) : Kept s (sendBodies g n k x q b s) := by
  unfold sendBodies
  try dsimp only
  repeat' first
    | with_reducible apply Kept.ite
    | with_reducible apply Kept.refl
    | with_reducible assumption
    | with_reducible apply onSeq_kept
    | with_reducible apply Kept.trans ?_ (onSeq_kept ..)
    | with_reducible apply streamAll_kept
    | with_reducible apply Kept.trans ?_ (streamAll_kept ..)
    | with_reducible apply Kept.trans ?_ (partCounted_kept (hsend := fun _ => ?_) ..)
    | with_reducible apply partialOut_kept
    | with_reducible apply Kept.trans ?_ (partialOut_kept ..)
    | with_reducible apply streamOut_kept
    | with_reducible apply Kept.trans ?_ (streamOut_kept ..)
    | with_reducible apply Kept.trans ?_ (Kept.forAll (fun _ _ => ?_) _)

theorem ringPartials_kept (g : Nat) (n : Nat) (k : Nat) (x : Group) (q : CSeq) (b : List Byte) (s : State) : Kept s (ringPartials g n k x q b s) := by
  unfold ringPartials
  try dsimp only
  repeat' first
    | with_reducible apply Kept.ite
    | with_reducible apply Kept.refl
    | with_reducible assumption
    | with_reducible apply Kept.trans ?_ (partCounted_kept (hsend := fun _ => ?_) ..)
    | with_reducible apply partialOut_kept
    | with_reducible apply Kept.trans ?_ (partialOut_kept ..)
    | with_reducible apply onSeq_kept
    | with_reducible apply Kept.trans ?_ (onSeq_kept ..)
    | with_reducible apply collFault_kept
    | with_reducible apply Kept.trans ?_ (collFault_kept ..)
    | with_reducible apply Kept.trans ?_ (Kept.forAll (fun _ _ => ?_) _)
    | split

theorem encodeSlice_kept (g : Nat) (n : Nat) (k : Nat) (j : Nat) (x : Group) (q : CSeq) (b : List Byte) (s : State) : Kept s (encodeSlice g n k j x q b s) := by
  unfold encodeSlice
  try dsimp only
  repeat' first
    | with_reducible apply Kept.ite
    | with_reducible apply Kept.refl
    | with_reducible assumption
    | with_reducible apply account_kept
    | with_reducible apply Kept.trans ?_ (account_kept ..)
    | with_reducible apply collFault_kept
    | with_reducible apply Kept.trans ?_ (collFault_kept ..)
    | with_reducible apply reported_kept
    | with_reducible apply Kept.trans ?_ (reported_kept ..)
    | with_reducible apply onSeq_kept
    | with_reducible apply Kept.trans ?_ (onSeq_kept ..)
    | with_reducible apply streamAll_kept
    | with_reducible apply Kept.trans ?_ (streamAll_kept ..)
    | split

theorem writeResults_kept (g : Nat) (n : Nat) (k : Nat) (x : Group) (q : CSeq) (b : List Byte) (s : State) : Kept s (writeResults g n k x q b s) := by
  unfold writeResults
  try dsimp only
  repeat' first
    | with_reducible apply Kept.ite
    | with_reducible apply Kept.refl
    | with_reducible assumption
    | with_reducible apply onSeq_kept
    | with_reducible apply Kept.trans ?_ (onSeq_kept ..)
    | with_reducible apply unitSend_kept
    | with_reducible apply Kept.trans ?_ (unitSend_kept ..)
    | with_reducible exact Kept.foldl_snd (fun _ _ => ?_) _ _
    | with_reducible apply Kept.foldl_snd (fun _ _ => ?_) _ _
    | with_reducible apply Kept.foldl_fst (fun _ _ => ?_) _ _
    | with_reducible apply Kept.foldl_snd_snd (fun _ _ => ?_) _ _ _
    | with_reducible apply Kept.trans ?_ (Kept.forAll (fun _ _ => ?_) _)

theorem ringForward_kept (x : Group) (origin : Nat) (payload : List Byte) (s : State) : Kept s (ringForward x origin payload s) := by
  unfold ringForward
  try dsimp only
  repeat' first
    | with_reducible apply Kept.ite
    | with_reducible apply Kept.refl
    | with_reducible assumption
    | with_reducible apply xchSend_kept

theorem keepBody_kept (g : Nat) (n : Nat) (b : XBody) (s : State) : Kept s (keepBody g n b s) := by
  unfold keepBody
  try dsimp only
  repeat' first
    | with_reducible apply Kept.ite
    | with_reducible apply Kept.refl
    | with_reducible assumption
    | with_reducible apply onSeq_kept

theorem xchIntake_kept (hub : Nat) (payload : List Byte) (s : State) : Kept s (xchIntake hub payload s) := by
  unfold xchIntake
  try dsimp only
  repeat' first
    | with_reducible apply Kept.ite
    | with_reducible apply Kept.refl
    | with_reducible assumption
    | with_reducible apply abortSeq_kept
    | with_reducible apply Kept.trans ?_ (abortSeq_kept ..)
    | with_reducible apply ensureSeq_kept
    | with_reducible apply Kept.trans ?_ (ensureSeq_kept ..)
    | with_reducible apply ringForward_kept
    | with_reducible apply Kept.trans ?_ (ringForward_kept ..)
    | with_reducible apply keepBody_kept
    | with_reducible apply Kept.trans ?_ (keepBody_kept ..)
    | with_reducible apply compareSigs_kept
    | with_reducible apply Kept.trans ?_ (compareSigs_kept ..)
    | with_reducible apply onSeq_kept
    | with_reducible apply Kept.trans ?_ (onSeq_kept ..)
    | with_reducible apply abortHeard_kept
    | with_reducible apply Kept.trans ?_ (abortHeard_kept ..)
    | split

theorem finishSeq_kept (g : Nat) (n : Nat) (x : Group) (q : CSeq) (s : State) : Kept s (finishSeq g n x q s) := by
  unfold finishSeq
  try dsimp only
  repeat' first
    | with_reducible apply Kept.ite
    | with_reducible apply Kept.refl
    | with_reducible assumption
    | with_reducible apply sendRecord_kept
    | with_reducible apply Kept.trans ?_ (sendRecord_kept ..)
    | with_reducible apply onSeq_kept
    | with_reducible apply Kept.trans ?_ (onSeq_kept ..)
    | with_reducible apply Kept.trans ?_ (Kept.forAll (fun _ _ => ?_) _)

theorem closeSeq_kept (g : Nat) (n : Nat) (x : Group) (q : CSeq) (s : State) : Kept s (closeSeq g n x q s) := by
  unfold closeSeq
  try dsimp only
  repeat' first
    | with_reducible apply Kept.ite
    | with_reducible apply Kept.refl
    | with_reducible assumption
    | with_reducible apply bump_kept
    | with_reducible apply Kept.trans ?_ (bump_kept ..)
    | with_reducible apply stageDrop_kept
    | with_reducible apply Kept.trans ?_ (stageDrop_kept ..)
    | with_reducible apply onGroup_kept
    | with_reducible apply Kept.trans ?_ (onGroup_kept ..)
    | with_reducible apply onColl_kept
    | with_reducible apply Kept.trans ?_ (onColl_kept ..)

theorem barrierDone_kept (g : Nat) (x : Group) (q : CSeq) (s : State) : Kept s (barrierDone g x q s) := by
  unfold barrierDone
  try dsimp only
  repeat' first
    | with_reducible apply Kept.ite
    | with_reducible apply Kept.refl
    | with_reducible assumption
    | with_reducible apply streamAll_kept
    | with_reducible apply Kept.trans ?_ (streamAll_kept ..)
    | with_reducible apply onSeq_kept

theorem groupTurn_kept (g : Nat) (s : State) : Kept s (groupTurn g s) := by
  unfold groupTurn
  try dsimp only
  repeat' first
    | with_reducible apply Kept.ite
    | with_reducible apply Kept.refl
    | with_reducible assumption
    | with_reducible apply closeSeq_kept
    | with_reducible apply Kept.trans ?_ (closeSeq_kept ..)
    | with_reducible apply finishSeq_kept
    | with_reducible apply Kept.trans ?_ (finishSeq_kept ..)
    | with_reducible apply barrierDone_kept
    | with_reducible apply Kept.trans ?_ (barrierDone_kept ..)
    | split

theorem takeAnswer_kept (a : UnitAnswer) (s : State) : Kept s (takeAnswer a s) := by
  unfold takeAnswer
  try dsimp only
  repeat' first
    | with_reducible apply Kept.ite
    | with_reducible apply Kept.refl
    | with_reducible assumption
    | with_reducible apply onSeq_kept
    | with_reducible apply Kept.trans ?_ (onSeq_kept ..)
    | split

theorem collSettle_kept (s : State) : Kept s (collSettle s) := by
  unfold collSettle
  try dsimp only
  repeat' first
    | with_reducible apply Kept.ite
    | with_reducible apply Kept.refl
    | with_reducible assumption
    | with_reducible apply takeAnswer_kept
    | with_reducible apply Kept.trans ?_ (takeAnswer_kept ..)
    | with_reducible apply groupTurn_kept
    | with_reducible apply Kept.trans ?_ (groupTurn_kept ..)
    | with_reducible apply onColl_kept
    | with_reducible apply Kept.trans ?_ (onColl_kept ..)
    | with_reducible apply Kept.trans ?_ (Kept.forAll (fun _ _ => ?_) _)

end Sys2Proof.Machine
end

