-- ==== Sys2Proof/Laws/KeptPoolOps.lean ====
section
/-! SUPPORT. What each operation of Machine/PoolOps.lean keeps. -/

namespace Sys2Proof.Machine

theorem regionsTouched_kept (x : Nat) (s : State) : Kept s (regionsTouched x s) := by
  unfold regionsTouched
  try dsimp only
  repeat' first
    | with_reducible apply Kept.ite
    | with_reducible apply Kept.refl
    | with_reducible assumption
    | with_reducible apply touch_kept
    | with_reducible apply Kept.trans ?_ (touch_kept ..)
    | with_reducible apply onChk_kept

theorem poolStore_kept (mark : Bool) (pa : Nat) (data : List Byte) (s : State) : Kept s (poolStore mark pa data s) := by
  unfold poolStore
  extract_lets e1 e2
  have k : Kept s e2 := by
    repeat' first
      | with_reducible apply Kept.ite
      | with_reducible apply Kept.refl
      | with_reducible apply Kept.trans ?_ (onExt_kept ..)
      | with_reducible apply Kept.trans ?_ (onKey_kept ..)
      | with_reducible apply regionsTouched_kept
      | split
      | extract_lets
      | (dsimp +zetaDelta only)
  exact k.trans (mem_kept _ _ (Mem.wf_write _ _ _))

theorem frameSnooped_kept (f : Nat) (s : State) : Kept s (frameSnooped f s).2 := by
  unfold frameSnooped
  try dsimp only
  repeat' first
    | with_reducible apply Kept.ite
    | with_reducible apply Kept.refl
    | with_reducible assumption
    | with_reducible apply meetWalk_kept
    | with_reducible apply Kept.trans ?_ (meetWalk_kept ..)
    | with_reducible apply sendSnoop_kept
    | with_reducible apply Kept.trans ?_ (sendSnoop_kept ..)
    | with_reducible apply Kept.trans ?_ (Kept.forAll (fun _ _ => ?_) _)
    | split

theorem copyFrame_kept (src dst : Nat) (s : State) : Kept s (copyFrame src dst s) := by
  unfold copyFrame
  extract_lets e0 e1 e2 e3 e4 e5 e6
  have k1 : Kept s e1 := chipDrop_kept ..
  have k4 : Kept s e4 := k1.trans (mem_kept _ _ (Mem.wf_copy _ _ _ _))
  exact ((k4.trans (onPool_kept ..)).trans (onKey_kept ..)).trans (onPool_kept ..)

theorem markLost_kept (line : Nat) (why : LineLoss) (s : State) : Kept s (markLost line why s) := by
  unfold markLost
  try dsimp only
  repeat' first
    | with_reducible apply Kept.ite
    | with_reducible apply Kept.refl
    | with_reducible assumption
    | with_reducible apply chipDrop_kept
    | with_reducible apply Kept.trans ?_ (chipDrop_kept ..)
    | with_reducible apply bcvMove_kept
    | with_reducible apply Kept.trans ?_ (bcvMove_kept ..)
    | with_reducible apply onPool_kept
    | with_reducible apply Kept.trans ?_ (onPool_kept ..)

theorem retireFrame_kept (f : Nat) (stack : Nat) (s : State) : Kept s (retireFrame f stack s) := by
  unfold retireFrame
  try dsimp only
  repeat' first
    | with_reducible apply Kept.ite
    | with_reducible apply Kept.refl
    | with_reducible assumption
    | with_reducible apply onPool_kept

theorem stored_kept (w : PoolWait) (s : State) : Kept s (stored w s) := by
  unfold stored
  try dsimp only
  repeat' first
    | with_reducible apply Kept.ite
    | with_reducible apply Kept.refl
    | with_reducible assumption
    | with_reducible apply poolStore_kept
    | with_reducible apply Kept.trans ?_ (poolStore_kept ..)
    | with_reducible apply onPool_kept
    | with_reducible apply Kept.trans ?_ (onPool_kept ..)

theorem effectAccess_kept (w : PoolWait) (s : State) : Kept s (effectAccess w s).2 := by
  unfold effectAccess
  try dsimp only
  repeat' first
    | with_reducible apply Kept.ite
    | with_reducible apply Kept.refl
    | with_reducible assumption
    | with_reducible apply stored_kept
    | with_reducible apply Kept.trans ?_ (stored_kept ..)
    | with_reducible apply chipAlloc_kept
    | with_reducible apply Kept.trans ?_ (chipAlloc_kept ..)
    | with_reducible apply lineStored_kept
    | with_reducible apply Kept.trans ?_ (lineStored_kept ..)
    | with_reducible apply collPost_kept
    | with_reducible apply Kept.trans ?_ (collPost_kept ..)
    | split

theorem engAnswer_kept (status : Nat) (b : List Byte) (e : EngRef) (s : State) : Kept s (engAnswer status b e s) := by
  unfold engAnswer
  try dsimp only
  repeat' first
    | with_reducible apply Kept.ite
    | with_reducible apply Kept.refl
    | with_reducible assumption
    | with_reducible apply onThread_kept

theorem unitTakes_kept (key : Nat) (off : Nat) (status : Nat) (b : List Byte) (s : State) : Kept s (unitTakes key off status b s) := by
  unfold unitTakes
  try dsimp only
  repeat' first
    | with_reducible apply Kept.ite
    | with_reducible apply Kept.refl
    | with_reducible assumption
    | with_reducible apply onPool_kept

theorem failWait_kept (w : PoolWait) (st : Nat) (s : State) : Kept s (failWait w st s) := by
  unfold failWait
  try dsimp only
  repeat' first
    | with_reducible apply Kept.ite
    | with_reducible apply Kept.refl
    | with_reducible assumption
    | with_reducible apply unitTakes_kept
    | with_reducible apply Kept.trans ?_ (unitTakes_kept ..)
    | with_reducible apply countRefusal_kept
    | with_reducible apply Kept.trans ?_ (countRefusal_kept ..)
    | with_reducible apply failReq_kept
    | with_reducible apply Kept.trans ?_ (failReq_kept ..)
    | with_reducible apply engAnswer_kept
    | with_reducible apply Kept.trans ?_ (engAnswer_kept ..)
    | with_reducible apply Kept.trans ?_ (Kept.forAll (fun _ _ => ?_) _)
    | split

theorem applyAccess_kept (w : PoolWait) (s : State) : Kept s (applyAccess w s) := by
  unfold applyAccess
  try dsimp only
  repeat' first
    | with_reducible apply Kept.ite
    | with_reducible apply Kept.refl
    | with_reducible assumption
    | with_reducible apply effectAccess_kept
    | with_reducible apply Kept.trans ?_ (effectAccess_kept ..)
    | with_reducible apply unitTakes_kept
    | with_reducible apply Kept.trans ?_ (unitTakes_kept ..)
    | with_reducible apply answer_kept
    | with_reducible apply Kept.trans ?_ (answer_kept ..)
    | with_reducible apply engAnswer_kept
    | with_reducible apply Kept.trans ?_ (engAnswer_kept ..)
    | with_reducible apply Kept.trans ?_ (Kept.forAll (fun _ _ => ?_) _)
    | split

theorem attempt_kept (filled : Option Nat) (w : PoolWait) (s : State) : Kept s (attempt filled w s) := by
  unfold attempt
  try dsimp only
  repeat' first
    | with_reducible apply Kept.ite
    | with_reducible apply Kept.refl
    | with_reducible assumption
    | with_reducible apply meetWalk_kept
    | with_reducible apply Kept.trans ?_ (meetWalk_kept ..)
    | with_reducible apply failWait_kept
    | with_reducible apply Kept.trans ?_ (failWait_kept ..)
    | with_reducible apply beginWait_kept
    | with_reducible apply Kept.trans ?_ (beginWait_kept ..)
    | with_reducible apply applyAccess_kept
    | with_reducible apply Kept.trans ?_ (applyAccess_kept ..)
    | with_reducible apply onPool_kept
    | with_reducible apply Kept.trans ?_ (onPool_kept ..)
    | split

theorem retryPool_kept (filled : Option Nat) (s : State) : Kept s (retryPool filled s) := by
  unfold retryPool
  try dsimp only
  repeat' first
    | with_reducible apply Kept.ite
    | with_reducible apply Kept.refl
    | with_reducible assumption
    | with_reducible apply attempt_kept
    | with_reducible apply Kept.trans ?_ (attempt_kept ..)
    | with_reducible apply onPool_kept
    | with_reducible apply Kept.trans ?_ (onPool_kept ..)
    | with_reducible apply Kept.trans ?_ (Kept.forAll (fun _ _ => ?_) _)

theorem failWaits_kept (p : PoolWait → Bool) (st : Nat) (s : State) : Kept s (failWaits p st s) := by
  unfold failWaits
  try dsimp only
  repeat' first
    | with_reducible apply Kept.ite
    | with_reducible apply Kept.refl
    | with_reducible assumption
    | with_reducible apply failWait_kept
    | with_reducible apply Kept.trans ?_ (failWait_kept ..)
    | with_reducible apply onPool_kept
    | with_reducible apply Kept.trans ?_ (onPool_kept ..)
    | with_reducible apply Kept.trans ?_ (Kept.forAll (fun _ _ => ?_) _)

theorem countAccess_kept (x : Nat) (i : Nat) (s : State) : Kept s (countAccess x i s) := by
  unfold countAccess
  try dsimp only
  repeat' first
    | with_reducible apply Kept.ite
    | with_reducible apply Kept.refl
    | with_reducible assumption
    | with_reducible apply onPool_kept

theorem accepted_kept (r : Req) (pa : Nat) (s : State) : Kept s (accepted r pa s) := by
  unfold accepted
  try dsimp only
  repeat' first
    | with_reducible apply Kept.ite
    | with_reducible apply Kept.refl
    | with_reducible assumption
    | with_reducible apply countAccess_kept
    | with_reducible apply Kept.trans ?_ (countAccess_kept ..)
    | with_reducible apply regionsTouched_kept
    | with_reducible apply Kept.trans ?_ (regionsTouched_kept ..)
    | with_reducible apply chipLookup_kept
    | with_reducible apply Kept.trans ?_ (chipLookup_kept ..)
    | split

theorem piecePut_kept (u : UnitPiece) (s : State) : Kept s (piecePut u s) := by
  unfold piecePut
  try dsimp only
  repeat' first
    | with_reducible apply Kept.ite
    | with_reducible apply Kept.refl
    | with_reducible assumption
    | with_reducible apply onPool_kept

theorem unitDone_kept (key : Nat) (s : State) : Kept s (unitDone key s) := by
  unfold unitDone
  try dsimp only
  repeat' first
    | with_reducible apply Kept.ite
    | with_reducible apply Kept.refl
    | with_reducible assumption
    | with_reducible apply onPool_kept

theorem unitAccess_kept (key : Nat) (off : Nat) (r : Req) (pa : Nat) (view : Option Nat) (s : State) : Kept s (unitAccess key off r pa view s) := by
  unfold unitAccess
  try dsimp only
  repeat' first
    | with_reducible apply Kept.ite
    | with_reducible apply Kept.refl
    | with_reducible assumption
    | with_reducible apply piecePut_kept
    | with_reducible apply Kept.trans ?_ (piecePut_kept ..)
    | with_reducible apply unitTakes_kept
    | with_reducible apply Kept.trans ?_ (unitTakes_kept ..)
    | with_reducible apply attempt_kept
    | with_reducible apply Kept.trans ?_ (attempt_kept ..)
    | with_reducible apply accepted_kept
    | with_reducible apply Kept.trans ?_ (accepted_kept ..)

theorem acceptAccess_kept (r : Req) (pa : Nat) (view : Option Nat) (s : State) : Kept s (acceptAccess r pa view s) := by
  unfold acceptAccess
  try dsimp only
  repeat' first
    | with_reducible apply Kept.ite
    | with_reducible apply Kept.refl
    | with_reducible assumption
    | with_reducible apply failReq_kept
    | with_reducible apply Kept.trans ?_ (failReq_kept ..)
    | with_reducible apply attempt_kept
    | with_reducible apply Kept.trans ?_ (attempt_kept ..)
    | with_reducible apply accepted_kept

theorem poolReach_kept (r : Req) (p : Place) (s : State) : Kept s (poolReach r p s) := by
  unfold poolReach
  try dsimp only
  repeat' first
    | with_reducible apply Kept.ite
    | with_reducible apply Kept.refl
    | with_reducible assumption
    | with_reducible apply answer_kept
    | with_reducible apply Kept.trans ?_ (answer_kept ..)
    | with_reducible apply acceptAccess_kept
    | with_reducible apply Kept.trans ?_ (acceptAccess_kept ..)
    | split

theorem sweepCopies_kept (s : State) : Kept s (sweepCopies s) := by
  unfold sweepCopies
  try dsimp only
  repeat' first
    | with_reducible apply Kept.ite
    | with_reducible apply Kept.refl
    | with_reducible assumption
    | with_reducible apply onPool_kept

theorem retireVersion_kept (x : Nat) (v : Nat) (cause : Nat) (s : State) : Kept s (retireVersion x v cause s) := by
  unfold retireVersion
  try dsimp only
  repeat' first
    | with_reducible apply Kept.ite
    | with_reducible apply Kept.refl
    | with_reducible assumption
    | with_reducible apply onExt_kept
    | with_reducible apply Kept.trans ?_ (onExt_kept ..)
    | with_reducible apply sweepCopies_kept
    | with_reducible apply Kept.trans ?_ (sweepCopies_kept ..)
    | with_reducible apply raise_kept
    | with_reducible apply Kept.trans ?_ (raise_kept ..)
    | with_reducible apply bump_kept
    | with_reducible apply Kept.trans ?_ (bump_kept ..)
    | with_reducible apply onPool_kept
    | with_reducible apply Kept.trans ?_ (onPool_kept ..)
    | with_reducible exact Kept.foldl_snd (fun _ _ => ?_) _ _
    | with_reducible apply Kept.foldl_snd (fun _ _ => ?_) _ _
    | with_reducible apply Kept.foldl_fst (fun _ _ => ?_) _ _
    | with_reducible apply Kept.foldl_snd_snd (fun _ _ => ?_) _ _ _
    | split

theorem copyPressure_kept (x : Nat) (i : Nat) (upTo : Option Nat) (fuel : Nat) (s : State) : Kept s (copyPressure x i upTo fuel s) := by
  induction fuel generalizing x i upTo s with
  | zero => exact Kept.refl _
  | succ _ ih =>
    unfold copyPressure
    try dsimp only
    repeat' first
      | with_reducible apply Kept.ite
      | with_reducible apply Kept.refl
      | with_reducible assumption
      | with_reducible apply retireVersion_kept
      | with_reducible apply Kept.trans ?_ (retireVersion_kept ..)
      | with_reducible exact ih ..
      | with_reducible apply Kept.trans ?_ (ih ..)
      | split

theorem makeCopy_kept (x : Nat) (i : Nat) (upTo : Option Nat) (s : State) : Kept s (makeCopy x i upTo s) := by
  unfold makeCopy
  try dsimp only
  repeat' first
    | with_reducible apply Kept.ite
    | with_reducible apply Kept.refl
    | with_reducible assumption
    | with_reducible apply copyPressure_kept
    | with_reducible apply Kept.trans ?_ (copyPressure_kept ..)
    | with_reducible apply frameSnooped_kept
    | with_reducible apply Kept.trans ?_ (frameSnooped_kept ..)
    | with_reducible apply copyFrame_kept
    | with_reducible apply Kept.trans ?_ (copyFrame_kept ..)
    | with_reducible apply bump_kept
    | with_reducible apply Kept.trans ?_ (bump_kept ..)
    | with_reducible apply onPool_kept
    | with_reducible apply Kept.trans ?_ (onPool_kept ..)
    | split

theorem hostsFail_kept (x : Nat) (st : Nat) (s : State) : Kept s (hostsFail x st s) := by
  unfold hostsFail
  try dsimp only
  repeat' first
    | with_reducible apply Kept.ite
    | with_reducible apply Kept.refl
    | with_reducible assumption
    | with_reducible apply emit_kept
    | with_reducible apply Kept.trans ?_ (emit_kept ..)
    | with_reducible apply onCoh_kept
    | with_reducible apply Kept.trans ?_ (onCoh_kept ..)
    | with_reducible apply Kept.trans ?_ (Kept.forAll (fun _ _ => ?_) _)

end Sys2Proof.Machine
end

