-- ==== Sys2Proof/Laws/KeptVersions.lean ====
section
/-! SUPPORT. What each operation of Machine/Versions.lean keeps. -/

namespace Sys2Proof.Machine

theorem meetExt_kept (x : Nat) (s : State) : Kept s (meetExt x s) := by
  unfold meetExt
  try dsimp only
  repeat' first
    | with_reducible apply Kept.ite
    | with_reducible apply Kept.refl
    | with_reducible assumption
    | with_reducible apply meetWalk_kept
    | with_reducible apply Kept.trans ?_ (meetWalk_kept ..)
    | with_reducible apply Kept.trans ?_ (Kept.forAll (fun _ _ => ?_) _)

theorem publish_kept (src : VerSource) (x : Nat) (v : Nat) (s : State) : Kept s (publish src x v s) := by
  unfold publish
  try dsimp only
  repeat' first
    | with_reducible apply Kept.ite
    | with_reducible apply Kept.refl
    | with_reducible assumption
    | with_reducible apply retireVersion_kept
    | with_reducible apply Kept.trans ?_ (retireVersion_kept ..)
    | with_reducible apply onExt_kept
    | with_reducible apply Kept.trans ?_ (onExt_kept ..)

theorem versionCommand_kept (src : VerSource) (named : Bool) (node : Nat) (plot : Nat) (op : Nat) (x : Nat) (v : Nat) (s : State) : Kept s (versionCommand src named node plot op x v s).2 := by
  unfold versionCommand
  try dsimp only
  repeat' first
    | with_reducible apply Kept.ite
    | with_reducible apply Kept.refl
    | with_reducible assumption
    | with_reducible apply meetExt_kept
    | with_reducible apply Kept.trans ?_ (meetExt_kept ..)
    | with_reducible apply onExt_kept
    | with_reducible apply Kept.trans ?_ (onExt_kept ..)
    | with_reducible apply publish_kept
    | with_reducible apply Kept.trans ?_ (publish_kept ..)
    | with_reducible apply retireVersion_kept
    | with_reducible apply Kept.trans ?_ (retireVersion_kept ..)
    | split

theorem versionOutcome_kept (src : VerSource) (status : Nat) (s : State) : Kept s (versionOutcome src status s) := by
  unfold versionOutcome
  try dsimp only
  repeat' first
    | with_reducible apply Kept.ite
    | with_reducible apply Kept.refl
    | with_reducible assumption
    | with_reducible apply deliverReply_kept
    | with_reducible apply Kept.trans ?_ (deliverReply_kept ..)
    | with_reducible apply onPool_kept
    | with_reducible apply Kept.trans ?_ (onPool_kept ..)
    | split

theorem publishAck_kept (x : Nat) (s : State) : Kept s (publishAck x s) := by
  unfold publishAck
  try dsimp only
  repeat' first
    | with_reducible apply Kept.ite
    | with_reducible apply Kept.refl
    | with_reducible assumption
    | with_reducible apply versionOutcome_kept
    | with_reducible apply Kept.trans ?_ (versionOutcome_kept ..)
    | with_reducible apply onExt_kept
    | with_reducible apply Kept.trans ?_ (onExt_kept ..)
    | split

theorem versionArrives_kept (src : VerSource) (named : Bool) (node : Nat) (plot : Nat) (op : Nat) (x : Nat) (v : Nat) (s : State) : Kept s (versionArrives src named node plot op x v s) := by
  unfold versionArrives
  try dsimp only
  repeat' first
    | with_reducible apply Kept.ite
    | with_reducible apply Kept.refl
    | with_reducible assumption
    | with_reducible apply versionCommand_kept
    | with_reducible apply Kept.trans ?_ (versionCommand_kept ..)
    | with_reducible apply versionOutcome_kept
    | with_reducible apply Kept.trans ?_ (versionOutcome_kept ..)

end Sys2Proof.Machine
end

