-- ==== Sys2Proof/Laws/KeptRequests.lean ====
section
/-! SUPPORT. What each operation of Machine/Requests.lean keeps. -/

namespace Sys2Proof.Machine

theorem pairPicked_kept (plot : Nat) (src : Nat) (dst : Nat) (p : Nat) (s : State) : Kept s (pairPicked plot src dst p s) := by
  unfold pairPicked
  try dsimp only
  repeat' first
    | with_reducible apply Kept.ite
    | with_reducible apply Kept.refl
    | with_reducible assumption
    | with_reducible apply onSw_kept

theorem freeCells_kept (r : Req) (s : State) : Kept s (freeCells r s) := by
  unfold freeCells
  try dsimp only
  repeat' first
    | with_reducible apply Kept.ite
    | with_reducible apply Kept.refl
    | with_reducible assumption
    | with_reducible apply onPort_kept
    | with_reducible apply Kept.trans ?_ (onPort_kept ..)
    | split

theorem setFlow_kept (f : Flow) (s : State) : Kept s (setFlow f s) := by
  unfold setFlow
  try dsimp only
  repeat' first
    | with_reducible apply Kept.ite
    | with_reducible apply Kept.refl
    | with_reducible assumption
    | with_reducible apply onSw_kept

theorem countSpilled_kept (ingress : Nat) (x : Frame) (s : State) : Kept s (countSpilled ingress x s) := by
  unfold countSpilled
  try dsimp only
  repeat' first
    | with_reducible apply Kept.ite
    | with_reducible apply Kept.refl
    | with_reducible assumption
    | with_reducible apply bump_kept
    | with_reducible apply Kept.trans ?_ (bump_kept ..)

theorem enqueue_kept (ingress : Nat) (egress : Nat) (x : Frame) (s : State) : Kept s (enqueue ingress egress x s) := by
  unfold enqueue
  try dsimp only
  repeat' first
    | with_reducible apply Kept.ite
    | with_reducible apply Kept.refl
    | with_reducible assumption
    | with_reducible apply setFlow_kept
    | with_reducible apply Kept.trans ?_ (setFlow_kept ..)
    | with_reducible apply countSpilled_kept
    | with_reducible apply Kept.trans ?_ (countSpilled_kept ..)
    | with_reducible apply freeCells_kept
    | with_reducible apply Kept.trans ?_ (freeCells_kept ..)

theorem leftIngress_kept (x : Frame) (s : State) : Kept s (leftIngress x s) := by
  unfold leftIngress
  try dsimp only
  repeat' first
    | with_reducible apply Kept.ite
    | with_reducible apply Kept.refl
    | with_reducible assumption
    | with_reducible apply freeCells_kept
    | with_reducible apply Kept.trans ?_ (freeCells_kept ..)
    | split

theorem freeStatus_kept (r : Req) (s : State) : Kept s (freeStatus r s) := by
  unfold freeStatus
  try dsimp only
  repeat' first
    | with_reducible apply Kept.ite
    | with_reducible apply Kept.refl
    | with_reducible assumption
    | with_reducible apply deliverReply_kept
    | with_reducible apply Kept.trans ?_ (deliverReply_kept ..)
    | with_reducible apply drawn_kept

theorem spadStore_kept (c : Nat) (off : Nat) (data : List Byte) (s : State) : Kept s (spadStore c off data s) :=
  ⟨id, Mem.wf_write _ _ _, id, rfl, List.suffix_refl _⟩

theorem spadReach_kept (c : Nat) (off : Nat) (r : Req) (s : State) : Kept s (spadReach c off r s) := by
  unfold spadReach
  try dsimp only
  repeat' first
    | with_reducible apply Kept.ite
    | with_reducible apply Kept.refl
    | with_reducible assumption
    | with_reducible apply failReq_kept
    | with_reducible apply Kept.trans ?_ (failReq_kept ..)
    | with_reducible apply spadStore_kept
    | with_reducible apply Kept.trans ?_ (spadStore_kept ..)
    | with_reducible apply answer_kept
    | with_reducible apply Kept.trans ?_ (answer_kept ..)
    | with_reducible apply Kept.trans ?_ (Kept.forAll (fun _ _ => ?_) _)

theorem stallReq_kept (r : Req) (what : Option WaitFor) (s : State) : Kept s (stallReq r what s) := by
  unfold stallReq
  try dsimp only
  repeat' first
    | with_reducible apply Kept.ite
    | with_reducible apply Kept.refl
    | with_reducible assumption
    | with_reducible apply onXlt_kept

theorem memReach_kept (lep : Nat) (r : Req) (s : State) : Kept s (memReach lep r s) := by
  unfold memReach
  try dsimp only
  repeat' first
    | with_reducible apply Kept.ite
    | with_reducible apply Kept.refl
    | with_reducible assumption
    | with_reducible apply stallReq_kept
    | with_reducible apply Kept.trans ?_ (stallReq_kept ..)
    | with_reducible apply failReq_kept
    | with_reducible apply Kept.trans ?_ (failReq_kept ..)
    | with_reducible apply memCheck_kept
    | with_reducible apply Kept.trans ?_ (memCheck_kept ..)
    | with_reducible apply spadReach_kept
    | with_reducible apply Kept.trans ?_ (spadReach_kept ..)
    | with_reducible apply poolReach_kept
    | with_reducible apply Kept.trans ?_ (poolReach_kept ..)
    | split

theorem stallMoves_kept (s : State) : Kept s (stallMoves s) := by
  unfold stallMoves
  try dsimp only
  repeat' first
    | with_reducible apply Kept.ite
    | with_reducible apply Kept.refl
    | with_reducible assumption
    | with_reducible apply memReach_kept
    | with_reducible apply Kept.trans ?_ (memReach_kept ..)
    | with_reducible apply bump_kept
    | with_reducible apply Kept.trans ?_ (bump_kept ..)
    | with_reducible apply onXlt_kept
    | with_reducible apply Kept.trans ?_ (onXlt_kept ..)
    | with_reducible apply Kept.trans ?_ (Kept.forAll (fun _ _ => ?_) _)

theorem coreRefuses_kept (r : Req) (st : Nat) (s : State) : Kept s (coreRefuses r st s) := by
  unfold coreRefuses
  try dsimp only
  repeat' first
    | with_reducible apply Kept.ite
    | with_reducible apply Kept.refl
    | with_reducible assumption
    | with_reducible apply deliverReply_kept
    | with_reducible apply Kept.trans ?_ (deliverReply_kept ..)
    | with_reducible apply bump_kept

theorem coreMessage_kept (c : Nat) (r : Req) (s : State) : Kept s (coreMessage c r s) := by
  unfold coreMessage
  try dsimp only
  repeat' first
    | with_reducible apply Kept.ite
    | with_reducible apply Kept.refl
    | with_reducible assumption
    | with_reducible apply deliverReply_kept
    | with_reducible apply Kept.trans ?_ (deliverReply_kept ..)
    | with_reducible apply coreRefuses_kept
    | with_reducible apply Kept.trans ?_ (coreRefuses_kept ..)
    | with_reducible apply spadStore_kept
    | with_reducible apply Kept.trans ?_ (spadStore_kept ..)
    | with_reducible apply onCore_kept
    | with_reducible apply Kept.trans ?_ (onCore_kept ..)
    | split

theorem poolMessage_kept (r : Req) (s : State) : Kept s (poolMessage r s) := by
  unfold poolMessage
  try dsimp only
  repeat' first
    | with_reducible apply Kept.ite
    | with_reducible apply Kept.refl
    | with_reducible assumption
    | with_reducible apply deliverReply_kept
    | with_reducible apply Kept.trans ?_ (deliverReply_kept ..)
    | with_reducible apply bump_kept
    | with_reducible apply Kept.trans ?_ (bump_kept ..)
    | with_reducible apply versionArrives_kept
    | with_reducible apply Kept.trans ?_ (versionArrives_kept ..)
    | with_reducible apply xchIntake_kept
    | with_reducible apply Kept.trans ?_ (xchIntake_kept ..)
    | with_reducible apply watchCommand_kept
    | with_reducible apply Kept.trans ?_ (watchCommand_kept ..)
    | with_reducible apply countRefusal_kept
    | with_reducible apply Kept.trans ?_ (countRefusal_kept ..)
    | with_reducible apply freeStatus_kept

theorem serveHere_kept (lep : Nat) (r : Req) (s : State) : Kept s (serveHere lep r s) := by
  unfold serveHere
  try dsimp only
  repeat' first
    | with_reducible apply Kept.ite
    | with_reducible apply Kept.refl
    | with_reducible assumption
    | with_reducible apply deliverReply_kept
    | with_reducible apply Kept.trans ?_ (deliverReply_kept ..)
    | with_reducible apply countRefusal_kept
    | with_reducible apply Kept.trans ?_ (countRefusal_kept ..)
    | with_reducible apply redColl_kept
    | with_reducible apply Kept.trans ?_ (redColl_kept ..)
    | with_reducible apply freeStatus_kept
    | with_reducible apply Kept.trans ?_ (freeStatus_kept ..)
    | with_reducible apply throttle_kept
    | with_reducible apply Kept.trans ?_ (throttle_kept ..)
    | with_reducible apply poolMessage_kept
    | with_reducible apply Kept.trans ?_ (poolMessage_kept ..)
    | with_reducible apply coreMessage_kept
    | with_reducible apply Kept.trans ?_ (coreMessage_kept ..)
    | with_reducible apply timeIntake_kept
    | with_reducible apply Kept.trans ?_ (timeIntake_kept ..)
    | with_reducible apply sigApply_kept
    | with_reducible apply Kept.trans ?_ (sigApply_kept ..)
    | with_reducible apply memReach_kept

theorem holdSig_kept (r : Req) (gather : Option Nat) (s : State) : Kept s (holdSig r gather s) := by
  unfold holdSig
  try dsimp only
  repeat' first
    | with_reducible apply Kept.ite
    | with_reducible apply Kept.refl
    | with_reducible assumption
    | with_reducible apply bump_kept
    | with_reducible apply Kept.trans ?_ (bump_kept ..)
    | with_reducible apply onSw_kept

theorem gateTaken_kept (r : Req) (s : State) : Kept s (gateTaken r s) := by
  unfold gateTaken
  try dsimp only
  repeat' first
    | with_reducible apply Kept.ite
    | with_reducible apply Kept.refl
    | with_reducible assumption
    | with_reducible apply gateCount_kept

theorem toFlow_kept (p : Nat) (r : Req) (gather : Option Nat) (tile : Nat) (s : State) : Kept s (toFlow p r gather tile s) := by
  unfold toFlow
  try dsimp only
  repeat' first
    | with_reducible apply Kept.ite
    | with_reducible apply Kept.refl
    | with_reducible assumption
    | with_reducible apply enqueue_kept
    | with_reducible apply Kept.trans ?_ (enqueue_kept ..)
    | with_reducible apply onSw_kept

theorem issueMoves_kept (fuel : Nat) (s : State) : Kept s (issueMoves fuel s) := by
  induction fuel generalizing s with
  | zero => exact Kept.refl _
  | succ _ ih =>
    unfold issueMoves
    try dsimp only
    repeat' first
      | with_reducible apply Kept.ite
      | with_reducible apply Kept.refl
      | with_reducible assumption
      | with_reducible apply enqueue_kept
      | with_reducible apply Kept.trans ?_ (enqueue_kept ..)
      | with_reducible apply onSw_kept
      | with_reducible apply Kept.trans ?_ (onSw_kept ..)
      | with_reducible exact ih ..
      | with_reducible apply Kept.trans ?_ (ih ..)
      | split

theorem enterNode_kept (tile : Nat) (lep : Nat) (r : Req) (s : State) : Kept s (enterNode tile lep r s) := by
  unfold enterNode
  try dsimp only
  repeat' first
    | with_reducible apply Kept.ite
    | with_reducible apply Kept.refl
    | with_reducible assumption
    | with_reducible apply serveHere_kept
    | with_reducible apply Kept.trans ?_ (serveHere_kept ..)
    | with_reducible apply onSw_kept

theorem entryMoves_kept (fuel : Nat) (s : State) : Kept s (entryMoves fuel s) := by
  induction fuel generalizing s with
  | zero => exact Kept.refl _
  | succ _ ih =>
    unfold entryMoves
    try dsimp only
    repeat' first
      | with_reducible apply Kept.ite
      | with_reducible apply Kept.refl
      | with_reducible assumption
      | with_reducible apply failReq_kept
      | with_reducible apply Kept.trans ?_ (failReq_kept ..)
      | with_reducible apply serveHere_kept
      | with_reducible apply Kept.trans ?_ (serveHere_kept ..)
      | with_reducible apply onSw_kept
      | with_reducible apply Kept.trans ?_ (onSw_kept ..)
      | with_reducible exact ih ..
      | with_reducible apply Kept.trans ?_ (ih ..)
      | split

theorem dropFrames_kept (mine : Frame → Bool) (s : State) : Kept s (dropFrames mine s) := by
  unfold dropFrames
  try dsimp only
  repeat' first
    | with_reducible apply Kept.ite
    | with_reducible apply Kept.refl
    | with_reducible assumption
    | with_reducible apply onSw_kept

theorem dispatch_kept (t : Target) (r : Req) (s : State) : Kept s (dispatch t r s) := by
  unfold dispatch
  try dsimp only
  repeat' first
    | with_reducible apply Kept.ite
    | with_reducible apply Kept.refl
    | with_reducible assumption
    | with_reducible apply serveHere_kept
    | with_reducible apply Kept.trans ?_ (serveHere_kept ..)
    | with_reducible apply enterNode_kept
    | with_reducible apply Kept.trans ?_ (enterNode_kept ..)
    | with_reducible apply freeCells_kept
    | with_reducible apply Kept.trans ?_ (freeCells_kept ..)
    | with_reducible apply enqueue_kept
    | with_reducible apply Kept.trans ?_ (enqueue_kept ..)
    | with_reducible apply toFlow_kept
    | with_reducible apply Kept.trans ?_ (toFlow_kept ..)
    | with_reducible apply pairPicked_kept
    | with_reducible apply Kept.trans ?_ (pairPicked_kept ..)
    | split

theorem sowCopy_kept (ident : Nat) (r : Req) (p : Nat) (s : State) : Kept s (sowCopy ident r p s) := by
  unfold sowCopy
  try dsimp only
  repeat' first
    | with_reducible apply Kept.ite
    | with_reducible apply Kept.refl
    | with_reducible assumption
    | with_reducible apply gatherOne_kept
    | with_reducible apply Kept.trans ?_ (gatherOne_kept ..)
    | with_reducible apply bump_kept
    | with_reducible apply Kept.trans ?_ (bump_kept ..)
    | with_reducible apply holdSig_kept
    | with_reducible apply Kept.trans ?_ (holdSig_kept ..)
    | with_reducible apply toFlow_kept
    | with_reducible apply Kept.trans ?_ (toFlow_kept ..)
    | with_reducible apply gateTaken_kept
    | with_reducible apply Kept.trans ?_ (gateTaken_kept ..)

theorem sowStart_kept (r : Req) (s : State) : Kept s (sowStart r s) := by
  unfold sowStart
  try dsimp only
  repeat' first
    | with_reducible apply Kept.ite
    | with_reducible apply Kept.refl
    | with_reducible assumption
    | with_reducible apply bump_kept
    | with_reducible apply Kept.trans ?_ (bump_kept ..)
    | with_reducible apply deliverReply_kept
    | with_reducible apply Kept.trans ?_ (deliverReply_kept ..)
    | with_reducible apply freeCells_kept
    | with_reducible apply Kept.trans ?_ (freeCells_kept ..)
    | with_reducible apply sowCopy_kept
    | with_reducible apply Kept.trans ?_ (sowCopy_kept ..)
    | with_reducible apply onSw_kept
    | with_reducible apply Kept.trans ?_ (onSw_kept ..)
    | with_reducible apply Kept.trans ?_ (Kept.forAll (fun _ _ => ?_) _)

theorem route_kept (first : Bool) (r : Req) (s : State) : Kept s (route first r s) := by
  unfold route
  try dsimp only
  repeat' first
    | with_reducible apply Kept.ite
    | with_reducible apply Kept.refl
    | with_reducible assumption
    | with_reducible apply enqueue_kept
    | with_reducible apply Kept.trans ?_ (enqueue_kept ..)
    | with_reducible apply refuseReq_kept
    | with_reducible apply Kept.trans ?_ (refuseReq_kept ..)
    | with_reducible apply freeCells_kept
    | with_reducible apply Kept.trans ?_ (freeCells_kept ..)
    | with_reducible apply bump_kept
    | with_reducible apply Kept.trans ?_ (bump_kept ..)
    | with_reducible apply sowStart_kept
    | with_reducible apply Kept.trans ?_ (sowStart_kept ..)
    | with_reducible apply holdSig_kept
    | with_reducible apply Kept.trans ?_ (holdSig_kept ..)
    | with_reducible apply dispatch_kept
    | with_reducible apply Kept.trans ?_ (dispatch_kept ..)
    | with_reducible apply gateTaken_kept
    | with_reducible apply Kept.trans ?_ (gateTaken_kept ..)
    | split

theorem countCells_kept (r : Req) (s : State) : Kept s (countCells r s) := by
  unfold countCells
  try dsimp only
  repeat' first
    | with_reducible apply Kept.ite
    | with_reducible apply Kept.refl
    | with_reducible assumption
    | with_reducible apply bump_kept
    | with_reducible apply Kept.trans ?_ (bump_kept ..)
    | split

theorem serve_kept (r : Req) (s : State) : Kept s (serve r s) := by
  unfold serve
  try dsimp only
  repeat' first
    | with_reducible apply Kept.ite
    | with_reducible apply Kept.refl
    | with_reducible assumption
    | with_reducible apply route_kept
    | with_reducible apply Kept.trans ?_ (route_kept ..)
    | with_reducible apply countCells_kept

end Sys2Proof.Machine
end

