-- ==== Sys2Proof/Laws/KeptSwitchOps.lean ====
section
/-! SUPPORT. What each operation of Machine/SwitchOps.lean keeps. -/

namespace Sys2Proof.Machine

theorem replyArrives_kept (p : Nat) (r : Reply) (s : State) : Kept s (replyArrives p r s) := by
  unfold replyArrives
  try dsimp only
  repeat' first
    | with_reducible apply Kept.ite
    | with_reducible apply Kept.refl
    | with_reducible assumption
    | with_reducible apply bump_kept
    | with_reducible apply Kept.trans ?_ (bump_kept ..)
    | with_reducible apply answerFrom_kept
    | with_reducible apply Kept.trans ?_ (answerFrom_kept ..)
    | with_reducible apply dropRecord_kept
    | with_reducible apply Kept.trans ?_ (dropRecord_kept ..)
    | split

theorem recordExpires_kept (p : Nat) (src : Nat) (tag : Nat) (s : State) : Kept s (recordExpires p src tag s) := by
  unfold recordExpires
  try dsimp only
  repeat' first
    | with_reducible apply Kept.ite
    | with_reducible apply Kept.refl
    | with_reducible assumption
    | with_reducible apply failRecord_kept
    | with_reducible apply Kept.trans ?_ (failRecord_kept ..)
    | with_reducible apply dropRecord_kept
    | with_reducible apply Kept.trans ?_ (dropRecord_kept ..)
    | split

theorem gateRelease_kept (src : Nat) (dst : Nat) (s : State) : Kept s (gateRelease src dst s) := by
  unfold gateRelease
  try dsimp only
  repeat' first
    | with_reducible apply Kept.ite
    | with_reducible apply Kept.refl
    | with_reducible assumption
    | with_reducible apply toFlow_kept
    | with_reducible apply Kept.trans ?_ (toFlow_kept ..)
    | with_reducible apply freeCells_kept
    | with_reducible apply Kept.trans ?_ (freeCells_kept ..)
    | with_reducible apply gatherOne_kept
    | with_reducible apply Kept.trans ?_ (gatherOne_kept ..)
    | with_reducible apply failReq_kept
    | with_reducible apply Kept.trans ?_ (failReq_kept ..)
    | with_reducible apply dispatch_kept
    | with_reducible apply Kept.trans ?_ (dispatch_kept ..)
    | with_reducible apply onSw_kept
    | with_reducible apply Kept.trans ?_ (onSw_kept ..)
    | split

theorem served_kept (f : Flow) (x : Frame) (s : State) : Kept s (served f x s) := by
  unfold served
  try dsimp only
  repeat' first
    | with_reducible apply Kept.ite
    | with_reducible apply Kept.refl
    | with_reducible assumption
    | with_reducible apply onSw_kept

theorem intoStage_kept (ingress : Nat) (p : Nat) (x : Frame) (s : State) : Kept s (intoStage ingress p x s) := by
  unfold intoStage
  try dsimp only
  repeat' first
    | with_reducible apply Kept.ite
    | with_reducible apply Kept.refl
    | with_reducible assumption
    | with_reducible apply onSw_kept

theorem passOn_kept (f : Flow) (x : Frame) (s : State) : Kept s (passOn f x s) := by
  unfold passOn
  try dsimp only
  repeat' first
    | with_reducible apply Kept.ite
    | with_reducible apply Kept.refl
    | with_reducible assumption
    | with_reducible apply served_kept
    | with_reducible apply Kept.trans ?_ (served_kept ..)
    | with_reducible apply enterNode_kept
    | with_reducible apply Kept.trans ?_ (enterNode_kept ..)
    | with_reducible apply serveHere_kept
    | with_reducible apply Kept.trans ?_ (serveHere_kept ..)
    | with_reducible apply intoStage_kept
    | with_reducible apply Kept.trans ?_ (intoStage_kept ..)
    | split

theorem headAgain_kept (f : Flow) (s : State) : Kept s (headAgain f s) := by
  unfold headAgain
  try dsimp only
  repeat' first
    | with_reducible apply Kept.ite
    | with_reducible apply Kept.refl
    | with_reducible assumption
    | with_reducible apply route_kept
    | with_reducible apply Kept.trans ?_ (route_kept ..)
    | with_reducible apply setFlow_kept
    | with_reducible apply Kept.trans ?_ (setFlow_kept ..)
    | split

theorem forwardHead_kept (ingress : Nat) (p : Nat) (cls : Nat) (s : State) : Kept s (forwardHead ingress p cls s) := by
  unfold forwardHead
  try dsimp only
  repeat' first
    | with_reducible apply Kept.ite
    | with_reducible apply Kept.refl
    | with_reducible assumption
    | with_reducible apply headAgain_kept
    | with_reducible apply Kept.trans ?_ (headAgain_kept ..)
    | with_reducible apply setFlow_kept
    | with_reducible apply Kept.trans ?_ (setFlow_kept ..)
    | with_reducible apply leftIngress_kept
    | with_reducible apply Kept.trans ?_ (leftIngress_kept ..)
    | with_reducible apply failReq_kept
    | with_reducible apply Kept.trans ?_ (failReq_kept ..)
    | with_reducible apply passOn_kept
    | with_reducible apply Kept.trans ?_ (passOn_kept ..)
    | split

theorem transmit_kept (p : Nat) (s : State) : Kept s (transmit p s) := by
  unfold transmit
  try dsimp only
  repeat' first
    | with_reducible apply Kept.ite
    | with_reducible apply Kept.refl
    | with_reducible assumption
    | with_reducible apply onPort_kept
    | with_reducible apply Kept.trans ?_ (onPort_kept ..)
    | with_reducible apply timeStamp_kept
    | with_reducible apply Kept.trans ?_ (timeStamp_kept ..)
    | with_reducible apply linkSend_kept
    | with_reducible apply Kept.trans ?_ (linkSend_kept ..)
    | with_reducible apply bump_kept
    | with_reducible apply Kept.trans ?_ (bump_kept ..)
    | with_reducible apply onSw_kept
    | with_reducible apply Kept.trans ?_ (onSw_kept ..)
    | split

theorem spillRefused_kept (n : Nat) (full : Bool) (s : State) : Kept s (spillRefused n full s) := by
  unfold spillRefused
  try dsimp only
  repeat' first
    | with_reducible apply Kept.ite
    | with_reducible apply Kept.refl
    | with_reducible assumption
    | with_reducible apply bump_kept
    | with_reducible apply Kept.trans ?_ (bump_kept ..)
    | with_reducible apply raise_kept
    | with_reducible apply Kept.trans ?_ (raise_kept ..)
    | with_reducible apply onSw_kept
    | with_reducible apply Kept.trans ?_ (onSw_kept ..)

theorem spillTest_kept (ingress : Nat) (cls : Nat) (s : State) : Kept s (spillTest ingress cls s) := by
  unfold spillTest
  try dsimp only
  repeat' first
    | with_reducible apply Kept.ite
    | with_reducible apply Kept.refl
    | with_reducible assumption
    | with_reducible apply spillRefused_kept
    | with_reducible apply Kept.trans ?_ (spillRefused_kept ..)
    | with_reducible apply bump_kept
    | with_reducible apply Kept.trans ?_ (bump_kept ..)
    | with_reducible apply setFlow_kept
    | with_reducible apply Kept.trans ?_ (setFlow_kept ..)
    | split

theorem spillRead_kept (ingress : Nat) (p : Nat) (cls : Nat) (intact : Bool) (s : State) : Kept s (spillRead ingress p cls intact s) := by
  unfold spillRead
  try dsimp only
  repeat' first
    | with_reducible apply Kept.ite
    | with_reducible apply Kept.refl
    | with_reducible assumption
    | with_reducible apply setFlow_kept
    | with_reducible apply Kept.trans ?_ (setFlow_kept ..)
    | with_reducible apply leftIngress_kept
    | with_reducible apply Kept.trans ?_ (leftIngress_kept ..)
    | with_reducible apply bump_kept
    | with_reducible apply Kept.trans ?_ (bump_kept ..)
    | with_reducible apply failReq_kept
    | with_reducible apply Kept.trans ?_ (failReq_kept ..)
    | with_reducible apply raise_kept
    | with_reducible apply Kept.trans ?_ (raise_kept ..)
    | with_reducible apply passOn_kept
    | with_reducible apply Kept.trans ?_ (passOn_kept ..)
    | split

theorem spillMoves_kept (fuel : Nat) (s : State) : Kept s (spillMoves fuel s) := by
  induction fuel generalizing s with
  | zero => exact Kept.refl _
  | succ _ ih =>
    unfold spillMoves
    try dsimp only
    repeat' first
      | with_reducible apply Kept.ite
      | with_reducible apply Kept.refl
      | with_reducible assumption
      | with_reducible apply leftIngress_kept
      | with_reducible apply Kept.trans ?_ (leftIngress_kept ..)
      | with_reducible apply countSpilled_kept
      | with_reducible apply Kept.trans ?_ (countSpilled_kept ..)
      | with_reducible apply setFlow_kept
      | with_reducible apply Kept.trans ?_ (setFlow_kept ..)
      | with_reducible exact ih ..
      | with_reducible apply Kept.trans ?_ (ih ..)
      | split

theorem switchMoves_kept (s : State) : Kept s (switchMoves s) := by
  unfold switchMoves
  try dsimp only
  repeat' first
    | with_reducible apply Kept.ite
    | with_reducible apply Kept.refl
    | with_reducible assumption
    | with_reducible apply entryMoves_kept
    | with_reducible apply Kept.trans ?_ (entryMoves_kept ..)
    | with_reducible apply issueMoves_kept
    | with_reducible apply Kept.trans ?_ (issueMoves_kept ..)
    | with_reducible apply replyPump_kept
    | with_reducible apply Kept.trans ?_ (replyPump_kept ..)
    | with_reducible apply spillMoves_kept
    | with_reducible apply Kept.trans ?_ (spillMoves_kept ..)
    | with_reducible apply Kept.trans ?_ (Kept.forAll (fun _ _ => ?_) _)

theorem answerLost_kept (unrecorded : Bool) (first : Packet) (s : State) : Kept s (answerLost unrecorded first s) := by
  unfold answerLost
  try dsimp only
  repeat' first
    | with_reducible apply Kept.ite
    | with_reducible apply Kept.refl
    | with_reducible assumption
    | with_reducible apply failRecord_kept
    | with_reducible apply Kept.trans ?_ (failRecord_kept ..)
    | with_reducible apply dropRecord_kept
    | with_reducible apply Kept.trans ?_ (dropRecord_kept ..)
    | with_reducible apply deliverReply_kept
    | with_reducible apply Kept.trans ?_ (deliverReply_kept ..)
    | split

theorem reclaim_kept (c : LostCell) (s : State) : Kept s (reclaim c s) := by
  unfold reclaim
  try dsimp only
  repeat' first
    | with_reducible apply Kept.ite
    | with_reducible apply Kept.refl
    | with_reducible assumption
    | with_reducible apply onPort_kept
    | with_reducible apply Kept.trans ?_ (onPort_kept ..)
    | with_reducible apply answerLost_kept
    | with_reducible apply Kept.trans ?_ (answerLost_kept ..)
    | with_reducible apply raise_kept
    | with_reducible apply Kept.trans ?_ (raise_kept ..)
    | with_reducible apply bump_kept
    | with_reducible apply Kept.trans ?_ (bump_kept ..)
    | split

theorem judgeTile_kept (net : Nat) (tile : Nat) (n : Nat) (s : State) : Kept s (judgeTile net tile n s) := by
  unfold judgeTile
  try dsimp only
  repeat' first
    | with_reducible apply Kept.ite
    | with_reducible apply Kept.refl
    | with_reducible assumption
    | with_reducible apply raise_kept
    | with_reducible apply Kept.trans ?_ (raise_kept ..)
    | with_reducible apply onSw_kept
    | with_reducible apply Kept.trans ?_ (onSw_kept ..)

theorem audit_kept (found : List LostCell) (s : State) : Kept s (audit found s) := by
  unfold audit
  try dsimp only
  repeat' first
    | with_reducible apply Kept.ite
    | with_reducible apply Kept.refl
    | with_reducible assumption
    | with_reducible apply reclaim_kept
    | with_reducible apply Kept.trans ?_ (reclaim_kept ..)
    | with_reducible apply bump_kept
    | with_reducible apply Kept.trans ?_ (bump_kept ..)
    | with_reducible apply judgeTile_kept
    | with_reducible apply Kept.trans ?_ (judgeTile_kept ..)
    | with_reducible apply onSw_kept
    | with_reducible apply Kept.trans ?_ (onSw_kept ..)
    | with_reducible apply Kept.trans ?_ (Kept.forAll (fun _ _ => ?_) _)

end Sys2Proof.Machine
end

