-- ==== Sys2Proof/Laws/KeptFaultOps.lean ====
section
/-! SUPPORT. What each operation of Machine/FaultOps.lean keeps. -/

namespace Sys2Proof.Machine

theorem queueFullEvent_kept (s : State) : Kept s (queueFullEvent s) := by
  unfold queueFullEvent
  try dsimp only
  repeat' first
    | with_reducible apply Kept.ite
    | with_reducible apply Kept.refl
    | with_reducible assumption
    | with_reducible apply raise_kept
    | with_reducible apply Kept.trans ?_ (raise_kept ..)
    | with_reducible apply onXlt_kept

theorem openEntry_kept (e : FaultEntry) (s : State) : Kept s (openEntry e s) := by
  unfold openEntry
  try dsimp only
  repeat' first
    | with_reducible apply Kept.ite
    | with_reducible apply Kept.refl
    | with_reducible assumption
    | with_reducible apply bump_kept
    | with_reducible apply Kept.trans ?_ (bump_kept ..)
    | with_reducible apply onXlt_kept
    | with_reducible apply Kept.trans ?_ (onXlt_kept ..)
    | split

theorem raiseFault_kept (w : Waiter) (ctx : Nat) (page : Nat) (kind : FaultKind) (wr : Bool) (s : State) : Kept s (raiseFault w ctx page kind wr s) := by
  unfold raiseFault
  try dsimp only
  repeat' first
    | with_reducible apply Kept.ite
    | with_reducible apply Kept.refl
    | with_reducible assumption
    | with_reducible apply bump_kept
    | with_reducible apply Kept.trans ?_ (bump_kept ..)
    | with_reducible apply openEntry_kept
    | with_reducible apply Kept.trans ?_ (openEntry_kept ..)
    | with_reducible apply onXlt_kept
    | with_reducible apply Kept.trans ?_ (onXlt_kept ..)
    | split

theorem recordEnds_kept (s : State) : Kept s (recordEnds s) := by
  unfold recordEnds
  try dsimp only
  repeat' first
    | with_reducible apply Kept.ite
    | with_reducible apply Kept.refl
    | with_reducible assumption
    | with_reducible apply unitDone_kept
    | with_reducible apply Kept.trans ?_ (unitDone_kept ..)
    | with_reducible apply ringDoorbell_kept
    | with_reducible apply Kept.trans ?_ (ringDoorbell_kept ..)
    | with_reducible apply onXlt_kept
    | with_reducible apply Kept.trans ?_ (onXlt_kept ..)
    | split

theorem writeRecord_kept (n : Nat) (e : FaultEntry) (s : State) : Kept s (writeRecord n e s) := by
  unfold writeRecord
  try dsimp only
  repeat' first
    | with_reducible apply Kept.ite
    | with_reducible apply Kept.refl
    | with_reducible assumption
    | with_reducible apply recordEnds_kept
    | with_reducible apply Kept.trans ?_ (recordEnds_kept ..)
    | with_reducible apply unitAccess_kept

theorem nomWritten_kept (s : State) : Kept s (nomWritten s) := by
  unfold nomWritten
  try dsimp only
  repeat' first
    | with_reducible apply Kept.ite
    | with_reducible apply Kept.refl
    | with_reducible assumption
    | with_reducible apply onPool_kept

theorem nomWrites_kept (fuel : Nat) (s : State) : Kept s (nomWrites fuel s) := by
  induction fuel generalizing s with
  | zero => exact Kept.refl _
  | succ _ ih =>
    unfold nomWrites
    try dsimp only
    repeat' first
      | with_reducible apply Kept.ite
      | with_reducible apply Kept.refl
      | with_reducible assumption
      | with_reducible apply unitAccess_kept
      | with_reducible apply Kept.trans ?_ (unitAccess_kept ..)
      | with_reducible apply unitDone_kept
      | with_reducible apply Kept.trans ?_ (unitDone_kept ..)
      | with_reducible apply nomWritten_kept
      | with_reducible apply Kept.trans ?_ (nomWritten_kept ..)
      | with_reducible apply bump_kept
      | with_reducible apply Kept.trans ?_ (bump_kept ..)
      | with_reducible apply onPool_kept
      | with_reducible apply Kept.trans ?_ (onPool_kept ..)
      | with_reducible exact ih ..
      | with_reducible apply Kept.trans ?_ (ih ..)
      | split

theorem nomMoves_kept (s : State) : Kept s (nomMoves s) := by
  unfold nomMoves
  try dsimp only
  repeat' first
    | with_reducible apply Kept.ite
    | with_reducible apply Kept.refl
    | with_reducible assumption
    | with_reducible apply nomWrites_kept
    | with_reducible apply Kept.trans ?_ (nomWrites_kept ..)
    | with_reducible apply ringDoorbell_kept
    | with_reducible apply Kept.trans ?_ (ringDoorbell_kept ..)

theorem beginWalk_kept (core : Nat) (ctx : Nat) (page : Nat) (s : State) : Kept s (beginWalk core ctx page s) := by
  unfold beginWalk
  try dsimp only
  repeat' first
    | with_reducible apply Kept.ite
    | with_reducible apply Kept.refl
    | with_reducible assumption
    | with_reducible apply onXlt_kept

theorem prefetchTile_kept (c : Nat) (ctx : Nat) (base : Nat) (bytes : Nat) (n : Nat) (stride : Int) (k : Nat) (s : State) : Kept s (prefetchTile c ctx base bytes n stride k s) := by
  unfold prefetchTile
  try dsimp only
  repeat' first
    | with_reducible apply Kept.ite
    | with_reducible apply Kept.refl
    | with_reducible assumption
    | with_reducible apply beginWalk_kept
    | with_reducible apply Kept.trans ?_ (beginWalk_kept ..)
    | with_reducible apply Kept.trans ?_ (Kept.forAll (fun _ _ => ?_) _)

theorem prefetch_kept (c : Nat) (t : Nat) (off : Nat) (s : State) : Kept s (prefetch c t off s) := by
  unfold prefetch
  try dsimp only
  repeat' first
    | with_reducible apply Kept.ite
    | with_reducible apply Kept.refl
    | with_reducible assumption
    | with_reducible apply onThread_kept
    | with_reducible apply Kept.trans ?_ (onThread_kept ..)
    | with_reducible apply prefetchTile_kept
    | with_reducible apply Kept.trans ?_ (prefetchTile_kept ..)
    | with_reducible apply Kept.trans ?_ (Kept.forAll (fun _ _ => ?_) _)
    | split

end Sys2Proof.Machine
end

