-- ==== Sys2Proof/Laws/KeptFurMem.lean ====
section
/-! SUPPORT. What each operation of Machine/FurMem.lean keeps. -/

namespace Sys2Proof.Machine

theorem onInc_kept (c : Nat) (t : Nat) (seq : Nat) (f : Inc → Inc) (s : State) : Kept s (State.onInc c t seq f s) := by
  unfold State.onInc
  try dsimp only
  repeat' first
    | with_reducible apply Kept.ite
    | with_reducible apply Kept.refl
    | with_reducible assumption
    | with_reducible apply onThread_kept

theorem poolMeets_kept (off : Nat) (wr : Bool) (r : Req) (pa : Nat) (view : Option Nat) (s : State) : Kept s (poolMeets off wr r pa view s).2 := by
  unfold poolMeets
  try dsimp only
  repeat' first
    | with_reducible apply Kept.ite
    | with_reducible apply Kept.refl
    | with_reducible assumption
    | with_reducible apply meetWalk_kept
    | with_reducible apply Kept.trans ?_ (meetWalk_kept ..)
    | split

theorem issueLine_kept (w : Who6) (line : Option Nat) (off : Nat) (wr : Bool) (a : PoolWait) (s : State) : Kept s (issueLine w line off wr a s) := by
  unfold issueLine
  try dsimp only
  repeat' first
    | with_reducible apply Kept.ite
    | with_reducible apply Kept.refl
    | with_reducible assumption
    | with_reducible apply onThread_kept
    | with_reducible apply Kept.trans ?_ (onThread_kept ..)
    | with_reducible apply bump_kept
    | with_reducible apply Kept.trans ?_ (bump_kept ..)
    | with_reducible apply onInc_kept
    | with_reducible apply Kept.trans ?_ (onInc_kept ..)
    | with_reducible apply attempt_kept
    | with_reducible apply Kept.trans ?_ (attempt_kept ..)
    | with_reducible apply accepted_kept
    | with_reducible apply Kept.trans ?_ (accepted_kept ..)
    | with_reducible apply onPool_kept
    | with_reducible apply Kept.trans ?_ (onPool_kept ..)
    | split

theorem poolRead_kept (w : Who6) (off : Nat) (len : Nat) (s : State) : Kept s (poolRead w off len s).2 := by
  unfold poolRead
  try dsimp only
  repeat' first
    | with_reducible apply Kept.ite
    | with_reducible apply Kept.refl
    | with_reducible assumption
    | with_reducible apply memCheck_kept
    | with_reducible apply Kept.trans ?_ (memCheck_kept ..)
    | with_reducible apply poolMeets_kept
    | with_reducible apply Kept.trans ?_ (poolMeets_kept ..)
    | split

theorem windowCheck_kept (w : Who6) (c : Nat) (off : Nat) (wr : Bool) (s : State) : Kept s (windowCheck w c off wr s).2 := by
  unfold windowCheck
  try dsimp only
  repeat' first
    | with_reducible apply Kept.ite
    | with_reducible apply Kept.refl
    | with_reducible assumption
    | with_reducible apply barCounted_kept
    | with_reducible apply Kept.trans ?_ (barCounted_kept ..)
    | with_reducible apply memCheck_kept
    | with_reducible apply Kept.trans ?_ (memCheck_kept ..)
    | split

theorem streamsMeet_kept (w : Who6) (n : Nat) (off : Nat) (s : State) : Kept s (streamsMeet w n off s) := by
  unfold streamsMeet
  try dsimp only
  repeat' first
    | with_reducible apply Kept.ite
    | with_reducible apply Kept.refl
    | with_reducible assumption
    | with_reducible apply prefetch_kept

theorem readPiece_kept (w : Who6) (got : List (Nat × Nat × Nat × List Byte)) (node : Option Nat) (off : Nat) (len : Nat) (s : State) : Kept s (readPiece w got node off len s).2 := by
  unfold readPiece
  try dsimp only
  repeat' first
    | with_reducible apply Kept.ite
    | with_reducible apply Kept.refl
    | with_reducible assumption
    | with_reducible apply streamsMeet_kept
    | with_reducible apply Kept.trans ?_ (streamsMeet_kept ..)
    | with_reducible apply poolRead_kept
    | with_reducible apply Kept.trans ?_ (poolRead_kept ..)
    | with_reducible apply windowCheck_kept
    | with_reducible apply Kept.trans ?_ (windowCheck_kept ..)
    | split

theorem storePool_kept (w : Who6) (off : Nat) (b : List (Option Byte)) (s : State) : Kept s (storePool w off b s).2 := by
  unfold storePool
  try dsimp only
  repeat' first
    | with_reducible apply Kept.ite
    | with_reducible apply Kept.refl
    | with_reducible assumption
    | with_reducible apply memCheck_kept
    | with_reducible apply Kept.trans ?_ (memCheck_kept ..)
    | with_reducible apply poolMeets_kept
    | with_reducible apply Kept.trans ?_ (poolMeets_kept ..)
    | split

theorem storePiece_kept (w : Who6) (node : Option Nat) (off : Nat) (b : List (Option Byte)) (s : State) : Kept s (storePiece w node off b s).2 := by
  unfold storePiece
  try dsimp only
  repeat' first
    | with_reducible apply Kept.ite
    | with_reducible apply Kept.refl
    | with_reducible assumption
    | with_reducible apply streamsMeet_kept
    | with_reducible apply Kept.trans ?_ (streamsMeet_kept ..)
    | with_reducible apply storePool_kept
    | with_reducible apply Kept.trans ?_ (storePool_kept ..)
    | with_reducible apply windowCheck_kept
    | with_reducible apply Kept.trans ?_ (windowCheck_kept ..)
    | split

theorem writeOut_kept (c : Nat) (l : CLine) (s : State) : Kept s (writeOut c l s) := by
  unfold writeOut
  try dsimp only
  repeat' first
    | with_reducible apply Kept.ite
    | with_reducible apply Kept.refl
    | with_reducible assumption
    | with_reducible apply attempt_kept
    | with_reducible apply Kept.trans ?_ (attempt_kept ..)
    | with_reducible apply accepted_kept

theorem cacheDrop_kept (c : Nat) (l : CLine) (s : State) : Kept s (cacheDrop c l s) := by
  unfold cacheDrop
  try dsimp only
  repeat' first
    | with_reducible apply Kept.ite
    | with_reducible apply Kept.refl
    | with_reducible assumption
    | with_reducible apply onCore_kept

theorem cachePut_kept (c : Nat) (l : CLine) (s : State) : Kept s (cachePut c l s) := by
  unfold cachePut
  try dsimp only
  repeat' first
    | with_reducible apply Kept.ite
    | with_reducible apply Kept.refl
    | with_reducible assumption
    | with_reducible apply onCore_kept

theorem cacheRoom_kept (c : Nat) (l : CLine) (s : State) : Kept s (cacheRoom c l s) := by
  unfold cacheRoom
  try dsimp only
  repeat' first
    | with_reducible apply Kept.ite
    | with_reducible apply Kept.refl
    | with_reducible assumption
    | with_reducible apply cacheDrop_kept
    | with_reducible apply Kept.trans ?_ (cacheDrop_kept ..)
    | with_reducible apply writeOut_kept
    | with_reducible apply Kept.trans ?_ (writeOut_kept ..)
    | with_reducible apply drawn_kept
    | with_reducible apply Kept.trans ?_ (drawn_kept ..)
    | split

theorem unrange_kept (c : Nat) (ctx : Nat) (vline : Nat) (order : Nat) (s : State) : Kept s (unrange c ctx vline order s) := by
  unfold unrange
  try dsimp only
  repeat' first
    | with_reducible apply Kept.ite
    | with_reducible apply Kept.refl
    | with_reducible assumption
    | with_reducible apply onCore_kept

theorem cacheFill_kept (w : Who6) (l : CLine) (s : State) : Kept s (cacheFill w l s) := by
  unfold cacheFill
  try dsimp only
  repeat' first
    | with_reducible apply Kept.ite
    | with_reducible apply Kept.refl
    | with_reducible assumption
    | with_reducible apply unrange_kept
    | with_reducible apply Kept.trans ?_ (unrange_kept ..)
    | with_reducible apply cachePut_kept
    | with_reducible apply Kept.trans ?_ (cachePut_kept ..)
    | with_reducible apply cacheRoom_kept
    | with_reducible apply Kept.trans ?_ (cacheRoom_kept ..)

theorem fillLine_kept (w : Who6) (off : Nat) (pa : Nat) (epoch : Nat) (s : State) : Kept s (fillLine w off pa epoch s) := by
  unfold fillLine
  try dsimp only
  repeat' first
    | with_reducible apply Kept.ite
    | with_reducible apply Kept.refl
    | with_reducible assumption
    | with_reducible apply cacheFill_kept

theorem countLine_kept (w : Who6) (pa : Nat) (s : State) : Kept s (countLine w pa s) := by
  unfold countLine
  try dsimp only
  repeat' first
    | with_reducible apply Kept.ite
    | with_reducible apply Kept.refl
    | with_reducible assumption
    | with_reducible apply chipAlloc_kept
    | with_reducible apply Kept.trans ?_ (chipAlloc_kept ..)
    | with_reducible apply accepted_kept

theorem commitRead_kept (w : Who6) (node : Option Nat) (off : Nat) (s : State) : Kept s (commitRead w node off s) := by
  unfold commitRead
  extract_lets e1
  have k1 : Kept s e1.2 := by
    repeat' first
      | with_reducible apply Kept.ite
      | with_reducible apply Kept.refl
      | with_reducible assumption
      | with_reducible apply bump_kept
      | with_reducible apply Kept.trans ?_ (bump_kept ..)
      | with_reducible apply memCheck_kept
  clear_value e1
  repeat' first
    | with_reducible apply Kept.ite
    | with_reducible apply Kept.refl
    | with_reducible assumption
    | with_reducible apply bump_kept
    | with_reducible apply Kept.trans ?_ (bump_kept ..)
    | with_reducible apply memCheck_kept
    | with_reducible apply Kept.trans ?_ (memCheck_kept ..)
    | with_reducible apply countLine_kept
    | with_reducible apply Kept.trans ?_ (countLine_kept ..)
    | with_reducible apply fillLine_kept
    | with_reducible apply Kept.trans ?_ (fillLine_kept ..)
    | split

theorem storedIn_kept (w : Who6) (ident : Nat) (s : State) : Kept s (storedIn w ident s) := by
  unfold storedIn
  try dsimp only
  repeat' first
    | with_reducible apply Kept.ite
    | with_reducible apply Kept.refl
    | with_reducible assumption
    | with_reducible apply onInc_kept

theorem cacheStore_kept (w : Who6) (off : Nat) (b : List (Option Byte)) (old : CLine) (epoch : Nat) (s : State) : Kept s (cacheStore w off b old epoch s) := by
  unfold cacheStore
  try dsimp only
  repeat' first
    | with_reducible apply Kept.ite
    | with_reducible apply Kept.refl
    | with_reducible assumption
    | with_reducible apply cacheFill_kept

theorem commitPool_kept (w : Who6) (off : Nat) (b : List (Option Byte)) (s : State) : Kept s (commitPool w off b s) := by
  unfold commitPool
  try dsimp only
  repeat' first
    | with_reducible apply Kept.ite
    | with_reducible apply Kept.refl
    | with_reducible assumption
    | with_reducible apply stored_kept
    | with_reducible apply Kept.trans ?_ (stored_kept ..)
    | with_reducible apply writeOut_kept
    | with_reducible apply Kept.trans ?_ (writeOut_kept ..)
    | with_reducible apply cacheStore_kept
    | with_reducible apply Kept.trans ?_ (cacheStore_kept ..)
    | with_reducible apply storedIn_kept
    | with_reducible apply Kept.trans ?_ (storedIn_kept ..)
    | with_reducible apply memCheck_kept
    | with_reducible apply Kept.trans ?_ (memCheck_kept ..)
    | with_reducible apply bump_kept
    | with_reducible apply Kept.trans ?_ (bump_kept ..)
    | with_reducible apply countLine_kept
    | with_reducible apply Kept.trans ?_ (countLine_kept ..)
    | with_reducible apply effectAccess_kept
    | with_reducible apply Kept.trans ?_ (effectAccess_kept ..)
    | with_reducible apply accepted_kept
    | with_reducible apply Kept.trans ?_ (accepted_kept ..)
    | split

theorem spadRuns_kept (c : Nat) (off : Nat) (b : List (Option Byte)) (s : State) : Kept s (spadRuns c off b s) := by
  unfold spadRuns
  try dsimp only
  repeat' first
    | with_reducible apply Kept.ite
    | with_reducible apply Kept.refl
    | with_reducible assumption
    | with_reducible apply spadStore_kept
    | with_reducible apply Kept.trans ?_ (spadStore_kept ..)
    | with_reducible apply Kept.trans ?_ (Kept.forAll (fun _ _ => ?_) _)

theorem commitStore_kept (w : Who6) (node : Option Nat) (off : Nat) (b : List (Option Byte)) (s : State) :
    Kept s (commitStore w node off b s) := by
  unfold commitStore
  split
  · exact spadRuns_kept ..
  · apply Kept.ite (commitPool_kept ..)
    split
    · exact (Kept.ite ((windowCheck_kept ..).trans (bump_kept ..)) (windowCheck_kept ..)).trans (spadRuns_kept ..)
    · exact Kept.refl _

end Sys2Proof.Machine
end

