-- ==== Sys2Proof/Laws/KeptFurRun.lean ====
section
/-! SUPPORT. What each operation of Machine/FurRun.lean keeps. -/

namespace Sys2Proof.Machine

theorem setX_kept (c : Nat) (t : Nat) (i : Nat) (v : U64) (s : State) : Kept s (setX c t i v s) := by
  unfold setX
  try dsimp only
  repeat' first
    | with_reducible apply Kept.ite
    | with_reducible apply Kept.refl
    | with_reducible assumption
    | with_reducible apply onThread_kept

theorem readLine_kept (j : Job) (node : Option Nat) (off : Nat) (len : Nat) (s : State) : Kept s (readLine j node off len s).2 := by
  unfold readLine
  try dsimp only
  repeat' first
    | with_reducible apply Kept.ite
    | with_reducible apply Kept.refl
    | with_reducible assumption
    | with_reducible apply readPiece_kept
    | with_reducible apply Kept.trans ?_ (readPiece_kept ..)
    | split

theorem readSpan_kept (j : Job) (p : Span) (s : State) : Kept s (readSpan j p s).2 := by
  unfold readSpan
  try dsimp only
  repeat' first
    | with_reducible apply Kept.ite
    | with_reducible apply Kept.refl
    | with_reducible assumption
    | with_reducible apply readLine_kept
    | with_reducible apply Kept.trans ?_ (readLine_kept ..)
    | with_reducible exact Kept.foldl_snd (fun _ _ => ?_) _ _
    | with_reducible apply Kept.foldl_snd (fun _ _ => ?_) _ _

theorem readSpans_kept (j : Job) (ps : List Span) (s : State) : Kept s (readSpans j ps s).2 := by
  unfold readSpans
  try dsimp only
  repeat' first
    | with_reducible apply Kept.ite
    | with_reducible apply Kept.refl
    | with_reducible assumption
    | with_reducible apply readSpan_kept
    | with_reducible apply Kept.trans ?_ (readSpan_kept ..)
    | with_reducible exact Kept.foldl_snd (fun _ _ => ?_) _ _
    | with_reducible apply Kept.foldl_snd (fun _ _ => ?_) _ _

theorem unclaim_kept (c : Nat) (t : Nat) (s : State) : Kept s (unclaim c t s) := by
  unfold unclaim
  try dsimp only
  repeat' first
    | with_reducible apply Kept.ite
    | with_reducible apply Kept.refl
    | with_reducible assumption
    | with_reducible apply onCore_kept
    | with_reducible apply Kept.trans ?_ (onCore_kept ..)
    | with_reducible apply onThread_kept
    | with_reducible apply Kept.trans ?_ (onThread_kept ..)
    | split

theorem haltThread_kept (c : Nat) (t : Nat) (s : State) : Kept s (haltThread c t s) := by
  unfold haltThread
  extract_lets e1 e2 e3
  have k1 : Kept s e1 := by
    repeat' first
      | with_reducible apply Kept.ite
      | with_reducible apply Kept.refl
      | with_reducible assumption
      | with_reducible apply unclaim_kept
      | with_reducible apply Kept.trans ?_ (unclaim_kept ..)
      | with_reducible apply onThread_kept
      | with_reducible apply Kept.trans ?_ (onThread_kept ..)
  clear_value e1
  have k2 : Kept s e2 := by
    repeat' first
      | with_reducible apply Kept.ite
      | with_reducible apply Kept.refl
      | with_reducible assumption
      | with_reducible apply unclaim_kept
      | with_reducible apply Kept.trans ?_ (unclaim_kept ..)
      | with_reducible apply onThread_kept
      | with_reducible apply Kept.trans ?_ (onThread_kept ..)
      | with_reducible apply onCore_kept
      | with_reducible apply Kept.trans ?_ (onCore_kept ..)
  clear_value e2
  repeat' first
    | with_reducible apply Kept.ite
    | with_reducible apply Kept.refl
    | with_reducible assumption
    | with_reducible apply unclaim_kept
    | with_reducible apply Kept.trans ?_ (unclaim_kept ..)
    | with_reducible apply onThread_kept
    | with_reducible apply Kept.trans ?_ (onThread_kept ..)
    | with_reducible apply onCore_kept
    | with_reducible apply Kept.trans ?_ (onCore_kept ..)
    | with_reducible apply raise_kept
    | with_reducible apply Kept.trans ?_ (raise_kept ..)

theorem haltCheck_kept (c : Nat) (t : Nat) (s : State) : Kept s (haltCheck c t s) := by
  unfold haltCheck
  try dsimp only
  repeat' first
    | with_reducible apply Kept.ite
    | with_reducible apply Kept.refl
    | with_reducible assumption
    | with_reducible apply haltThread_kept

theorem takeStatus_kept (c : Nat) (t : Nat) (idx : Nat) (status : Nat) (done : Nat) (failed : Nat) (cont : Bool) (s : State) : Kept s (takeStatus c t idx status done failed cont s) := by
  unfold takeStatus
  try dsimp only
  repeat' first
    | with_reducible apply Kept.ite
    | with_reducible apply Kept.refl
    | with_reducible assumption
    | with_reducible apply onThread_kept

theorem finishInc_kept (c : Nat) (t : Nat) (seq : Nat) (status : Nat) (rep : ArithReport) (s : State) : Kept s (finishInc c t seq status rep s) := by
  unfold finishInc
  try dsimp only
  repeat' first
    | with_reducible apply Kept.ite
    | with_reducible apply Kept.refl
    | with_reducible assumption
    | with_reducible apply onThread_kept
    | with_reducible apply Kept.trans ?_ (onThread_kept ..)
    | with_reducible apply haltCheck_kept
    | with_reducible apply Kept.trans ?_ (haltCheck_kept ..)
    | with_reducible apply takeStatus_kept
    | with_reducible apply Kept.trans ?_ (takeStatus_kept ..)
    | split

theorem park_kept (j : Job) (w : IncWait) (s : State) : Kept s (park j w s) := by
  unfold park
  try dsimp only
  repeat' first
    | with_reducible apply Kept.ite
    | with_reducible apply Kept.refl
    | with_reducible assumption
    | with_reducible apply onInc_kept

theorem issueHolds_kept (j : Job) (l : List LineRes) (s : State) : Kept s (issueHolds j l s) := by
  unfold issueHolds
  try dsimp only
  repeat' first
    | with_reducible apply Kept.ite
    | with_reducible apply Kept.refl
    | with_reducible assumption
    | with_reducible apply issueLine_kept
    | with_reducible apply Kept.trans ?_ (issueLine_kept ..)
    | with_reducible apply Kept.trans ?_ (Kept.forAll (fun _ _ => ?_) _)
    | split

theorem parkOn_kept (j : Job) (r : LineRes) (wr : Bool) (s : State) : Kept s (parkOn j r wr s) := by
  unfold parkOn
  try dsimp only
  repeat' first
    | with_reducible apply Kept.ite
    | with_reducible apply Kept.refl
    | with_reducible assumption
    | with_reducible apply raiseFault_kept
    | with_reducible apply Kept.trans ?_ (raiseFault_kept ..)
    | with_reducible apply park_kept
    | with_reducible apply Kept.trans ?_ (park_kept ..)
    | split

theorem parkAll_kept (j : Job) (l : List LineRes) (wr : Bool) (s : State) : Kept s (parkAll j l wr s) := by
  unfold parkAll
  try dsimp only
  repeat' first
    | with_reducible apply Kept.ite
    | with_reducible apply Kept.refl
    | with_reducible assumption
    | with_reducible apply parkOn_kept
    | with_reducible apply Kept.trans ?_ (parkOn_kept ..)
    | with_reducible apply issueHolds_kept

theorem sendTodo_kept (c : Nat) (t : Nat) (fuel : Nat) (s : State) : Kept s (sendTodo c t fuel s) := by
  induction fuel generalizing c t s with
  | zero => exact Kept.refl _
  | succ _ ih =>
    unfold sendTodo
    try dsimp only
    repeat' first
      | with_reducible apply Kept.ite
      | with_reducible apply Kept.refl
      | with_reducible assumption
      | with_reducible apply onThread_kept
      | with_reducible apply Kept.trans ?_ (onThread_kept ..)
      | with_reducible apply onInc_kept
      | with_reducible apply Kept.trans ?_ (onInc_kept ..)
      | with_reducible apply serve_kept
      | with_reducible apply Kept.trans ?_ (serve_kept ..)
      | with_reducible exact ih ..
      | with_reducible apply Kept.trans ?_ (ih ..)
      | split

theorem sendAll_kept (c : Nat) (t : Nat) (s : State) : Kept s (sendAll c t s) := by
  unfold sendAll
  try dsimp only
  repeat' first
    | with_reducible apply Kept.ite
    | with_reducible apply Kept.refl
    | with_reducible assumption
    | with_reducible apply sendTodo_kept

theorem askLines_kept (j : Job) (l : List (Nat × Nat)) (s : State) : Kept s (askLines j l s) := by
  unfold askLines
  try dsimp only
  repeat' first
    | with_reducible apply Kept.ite
    | with_reducible apply Kept.refl
    | with_reducible assumption
    | with_reducible apply onInc_kept
    | with_reducible apply Kept.trans ?_ (onInc_kept ..)
    | with_reducible apply sendAll_kept
    | with_reducible apply Kept.trans ?_ (sendAll_kept ..)
    | with_reducible apply bump_kept
    | with_reducible apply Kept.trans ?_ (bump_kept ..)

theorem askAll_kept (j : Job) (rs : List (Nat × Req)) (s : State) : Kept s (askAll j rs s) := by
  unfold askAll
  try dsimp only
  repeat' first
    | with_reducible apply Kept.ite
    | with_reducible apply Kept.refl
    | with_reducible assumption
    | with_reducible apply onInc_kept
    | with_reducible apply Kept.trans ?_ (onInc_kept ..)
    | with_reducible apply sendAll_kept
    | with_reducible apply Kept.trans ?_ (sendAll_kept ..)

theorem probeStore_kept (j : Job) (x : Store) (s : State) : Kept s (probeStore j x s).2 := by
  unfold probeStore
  try dsimp only
  repeat' first
    | with_reducible apply Kept.ite
    | with_reducible apply Kept.refl
    | with_reducible assumption
    | with_reducible apply storePiece_kept
    | with_reducible apply Kept.trans ?_ (storePiece_kept ..)
    | split

theorem probeStores_kept (j : Job) (l : List Store) (s : State) : Kept s (probeStores j l s).2 := by
  unfold probeStores
  try dsimp only
  repeat' first
    | with_reducible apply Kept.ite
    | with_reducible apply Kept.refl
    | with_reducible assumption
    | with_reducible apply probeStore_kept
    | with_reducible apply Kept.trans ?_ (probeStore_kept ..)
    | with_reducible exact Kept.foldl_snd (fun _ _ => ?_) _ _
    | with_reducible apply Kept.foldl_snd (fun _ _ => ?_) _ _

theorem lineDone_kept (j : Job) (line : Nat) (off : Nat) (st : Nat) (s : State) : Kept s (lineDone j line off st s) := by
  unfold lineDone
  try dsimp only
  repeat' first
    | with_reducible apply Kept.ite
    | with_reducible apply Kept.refl
    | with_reducible assumption
    | with_reducible apply onInc_kept

theorem storeGone_kept (j : Job) (x : StoreRec) (s : State) : Kept s (storeGone j x s) := by
  unfold storeGone
  try dsimp only
  repeat' first
    | with_reducible apply Kept.ite
    | with_reducible apply Kept.refl
    | with_reducible assumption
    | with_reducible apply onInc_kept

theorem storeOne_kept (j : Job) (x : StoreRec) (s : State) : Kept s (storeOne j x s).2 := by
  unfold storeOne
  try dsimp only
  repeat' first
    | with_reducible apply Kept.ite
    | with_reducible apply Kept.refl
    | with_reducible assumption
    | with_reducible apply lineDone_kept
    | with_reducible apply Kept.trans ?_ (lineDone_kept ..)
    | with_reducible apply bump_kept
    | with_reducible apply Kept.trans ?_ (bump_kept ..)
    | with_reducible apply storeGone_kept
    | with_reducible apply Kept.trans ?_ (storeGone_kept ..)
    | with_reducible apply onInc_kept
    | with_reducible apply Kept.trans ?_ (onInc_kept ..)
    | with_reducible apply storePiece_kept
    | with_reducible apply Kept.trans ?_ (storePiece_kept ..)
    | with_reducible apply commitStore_kept
    | with_reducible apply Kept.trans ?_ (commitStore_kept ..)
    | with_reducible apply issueLine_kept
    | with_reducible apply Kept.trans ?_ (issueLine_kept ..)
    | split

theorem storeSome_kept (j : Job) (l : List StoreRec) (r : LineRes) (s : State) : Kept s (storeSome j l r s).2 := by
  induction l generalizing r s with
  | nil => exact Kept.refl _
  | cons x l ih =>
    unfold storeSome
    split
    · exact Kept.refl _
    · extract_lets q stays r'
      have k : Kept s q.2 := storeOne_kept ..
      split
      · exact k
      · exact k.trans (ih ..)

theorem storeRest_kept (j : Job) (s : State) : Kept s (storeRest j s) := by
  unfold storeRest
  split
  · exact Kept.refl _
  · extract_lets q s1
    have k : Kept s s1 := (storeSome_kept ..).trans (onInc_kept ..)
    clear_value s1
    split
    · exact k
    · exact Kept.ite (k.trans (finishInc_kept ..))
        ((Kept.ite (k.trans (parkOn_kept ..)) (k.trans (park_kept ..))).trans (sendAll_kept ..))

theorem makeStores_kept (j : Job) (l : List Store) (rep : ArithReport) (s : State) : Kept s (makeStores j l rep s) := by
  unfold makeStores
  try dsimp only
  repeat' first
    | with_reducible apply Kept.ite
    | with_reducible apply Kept.refl
    | with_reducible assumption
    | with_reducible apply onInc_kept
    | with_reducible apply Kept.trans ?_ (onInc_kept ..)
    | with_reducible apply storeRest_kept
    | with_reducible apply Kept.trans ?_ (storeRest_kept ..)
    | with_reducible apply Kept.trans ?_ (Kept.forAll (fun _ _ => ?_) _)
    | split

theorem replied_kept (c : Nat) (t : Nat) (seq : Nat) (line : Nat) (status : Nat) (s : State) : Kept s (replied c t seq line status s) := by
  unfold replied
  try dsimp only
  repeat' first
    | with_reducible apply Kept.ite
    | with_reducible apply Kept.refl
    | with_reducible assumption
    | with_reducible apply onInc_kept
    | with_reducible apply Kept.trans ?_ (onInc_kept ..)
    | with_reducible apply finishInc_kept
    | with_reducible apply Kept.trans ?_ (finishInc_kept ..)
    | split

theorem takeFills_kept (w : Who6) (s : State) : Kept s (takeFills w s) := by
  unfold takeFills
  try dsimp only
  repeat' first
    | with_reducible apply Kept.ite
    | with_reducible apply Kept.refl
    | with_reducible assumption
    | with_reducible apply onInc_kept
    | with_reducible apply Kept.trans ?_ (onInc_kept ..)
    | with_reducible apply fillLine_kept
    | with_reducible apply Kept.trans ?_ (fillLine_kept ..)
    | with_reducible apply Kept.trans ?_ (Kept.forAll (fun _ _ => ?_) _)
    | split

end Sys2Proof.Machine
end

