-- ==== Sys2Proof/Laws/KeptFurOps.lean ====
section
/-! SUPPORT. What each operation of Machine/FurOps.lean keeps. -/

namespace Sys2Proof.Machine

theorem dataFault_kept (j : Job) (unrepeatable : Bool) (rep : ArithReport) (s : State) : Kept s (dataFault j unrepeatable rep s) := by
  unfold dataFault
  try dsimp only
  repeat' first
    | with_reducible apply Kept.ite
    | with_reducible apply Kept.refl
    | with_reducible assumption
    | with_reducible apply raise_kept
    | with_reducible apply Kept.trans ?_ (raise_kept ..)
    | with_reducible apply bump_kept
    | with_reducible apply Kept.trans ?_ (bump_kept ..)
    | with_reducible apply finishInc_kept
    | with_reducible apply Kept.trans ?_ (finishInc_kept ..)

theorem orderReset_kept (c : Nat) (s : State) : Kept s (orderReset c s) := by
  unfold orderReset
  try dsimp only
  repeat' first
    | with_reducible apply Kept.ite
    | with_reducible apply Kept.refl
    | with_reducible assumption
    | (with_reducible apply onBoot_kept) <;> rfl

theorem retireEngine_kept (c : Nat) (e : Nat) (cause : Nat) (s : State) : Kept s (retireEngine c e cause s) := by
  unfold retireEngine
  try dsimp only
  repeat' first
    | with_reducible apply Kept.ite
    | with_reducible apply Kept.refl
    | with_reducible assumption
    | with_reducible apply onCore_kept
    | with_reducible apply Kept.trans ?_ (onCore_kept ..)
    | with_reducible apply raise_kept
    | with_reducible apply Kept.trans ?_ (raise_kept ..)
    | with_reducible apply bump_kept
    | with_reducible apply Kept.trans ?_ (bump_kept ..)
    | with_reducible apply orderReset_kept
    | with_reducible apply Kept.trans ?_ (orderReset_kept ..)

theorem countTransient_kept (c : Nat) (e : Nat) (s : State) : Kept s (countTransient c e s) := by
  unfold countTransient
  try dsimp only
  repeat' first
    | with_reducible apply Kept.ite
    | with_reducible apply Kept.refl
    | with_reducible assumption
    | with_reducible apply retireEngine_kept
    | with_reducible apply Kept.trans ?_ (retireEngine_kept ..)
    | with_reducible apply onChk_kept
    | with_reducible apply Kept.trans ?_ (onChk_kept ..)

theorem transient_kept (c : Nat) (e : Nat) (kind : Nat) (idx : Nat) (s : State) : Kept s (transient c e kind idx s) := by
  unfold transient
  try dsimp only
  repeat' first
    | with_reducible apply Kept.ite
    | with_reducible apply Kept.refl
    | with_reducible assumption
    | with_reducible apply countTransient_kept
    | with_reducible apply Kept.trans ?_ (countTransient_kept ..)
    | with_reducible apply raise_kept
    | with_reducible apply Kept.trans ?_ (raise_kept ..)
    | with_reducible apply bump_kept

theorem commitSpans_kept (j : Job) (ps : List Span) (s : State) : Kept s (commitSpans j ps s) := by
  unfold commitSpans
  try dsimp only
  repeat' first
    | with_reducible apply Kept.ite
    | with_reducible apply Kept.refl
    | with_reducible assumption
    | with_reducible apply commitRead_kept
    | with_reducible apply Kept.trans ?_ (commitRead_kept ..)
    | with_reducible apply Kept.trans ?_ (Kept.forAll (fun _ _ => ?_) _)

theorem accountOut_kept (w : Who) (o : Out) (s : State) : Kept s (accountOut w o s) := by
  unfold accountOut
  try dsimp only
  repeat' first
    | with_reducible apply Kept.ite
    | with_reducible apply Kept.refl
    | with_reducible assumption
    | with_reducible apply probeOne_kept
    | with_reducible apply Kept.trans ?_ (probeOne_kept ..)
    | with_reducible apply countReport_kept
    | with_reducible apply Kept.trans ?_ (countReport_kept ..)
    | with_reducible apply Kept.trans ?_ (Kept.forAll (fun _ _ => ?_) _)

theorem storeOut_kept (j : Job) (ps : List Span) (o : Out) (s : State) : Kept s (storeOut j ps o s) := by
  unfold storeOut
  try dsimp only
  repeat' first
    | with_reducible apply Kept.ite
    | with_reducible apply Kept.refl
    | with_reducible assumption
    | with_reducible apply probeStores_kept
    | with_reducible apply Kept.trans ?_ (probeStores_kept ..)
    | with_reducible apply parkOn_kept
    | with_reducible apply Kept.trans ?_ (parkOn_kept ..)
    | with_reducible apply finishInc_kept
    | with_reducible apply Kept.trans ?_ (finishInc_kept ..)
    | with_reducible apply makeStores_kept
    | with_reducible apply Kept.trans ?_ (makeStores_kept ..)
    | with_reducible apply accountOut_kept
    | with_reducible apply Kept.trans ?_ (accountOut_kept ..)
    | with_reducible apply commitSpans_kept
    | with_reducible apply Kept.trans ?_ (commitSpans_kept ..)
    | split

theorem reissue_kept (j : Job) (p : Job) (s : State) : Kept s (reissue j p s) := by
  unfold reissue
  try dsimp only
  repeat' first
    | with_reducible apply Kept.ite
    | with_reducible apply Kept.refl
    | with_reducible assumption
    | with_reducible apply unclaim_kept
    | with_reducible apply Kept.trans ?_ (unclaim_kept ..)
    | with_reducible apply onThread_kept
    | with_reducible apply Kept.trans ?_ (onThread_kept ..)

theorem checkFails_kept (j : Job) (rep : ArithReport) (s : State) : Kept s (checkFails j rep s) := by
  unfold checkFails
  try dsimp only
  repeat' first
    | with_reducible apply Kept.ite
    | with_reducible apply Kept.refl
    | with_reducible assumption
    | with_reducible apply raise_kept
    | with_reducible apply Kept.trans ?_ (raise_kept ..)
    | with_reducible apply bump_kept
    | with_reducible apply Kept.trans ?_ (bump_kept ..)
    | with_reducible apply onInc_kept
    | with_reducible apply Kept.trans ?_ (onInc_kept ..)
    | with_reducible apply dataFault_kept
    | with_reducible apply Kept.trans ?_ (dataFault_kept ..)
    | with_reducible apply reissue_kept
    | with_reducible apply Kept.trans ?_ (reissue_kept ..)
    | with_reducible apply park_kept
    | with_reducible apply Kept.trans ?_ (park_kept ..)
    | split

theorem judgeBegins_kept (j : Job) (ovf : Bool) (s : State) : Kept s (judgeBegins j ovf s) := by
  unfold judgeBegins
  try dsimp only
  repeat' first
    | with_reducible apply Kept.ite
    | with_reducible apply Kept.refl
    | with_reducible assumption
    | with_reducible apply dataFault_kept
    | with_reducible apply Kept.trans ?_ (dataFault_kept ..)
    | with_reducible apply park_kept
    | with_reducible apply Kept.trans ?_ (park_kept ..)
    | with_reducible apply reissue_kept
    | with_reducible apply Kept.trans ?_ (reissue_kept ..)
    | split

theorem repeatEnds_kept (j : Job) (ps : List Span) (o : Out) (s : State) : Kept s (repeatEnds j ps o s) := by
  unfold repeatEnds
  try dsimp only
  repeat' first
    | with_reducible apply Kept.ite
    | with_reducible apply Kept.refl
    | with_reducible assumption
    | with_reducible apply storeOut_kept
    | with_reducible apply Kept.trans ?_ (storeOut_kept ..)
    | with_reducible apply transient_kept
    | with_reducible apply Kept.trans ?_ (transient_kept ..)
    | with_reducible apply judgeBegins_kept

theorem judgeEnds_kept (j : Job) (ps : List Span) (o : Out) (s : State) : Kept s (judgeEnds j ps o s) := by
  unfold judgeEnds
  try dsimp only
  repeat' first
    | with_reducible apply Kept.ite
    | with_reducible apply Kept.refl
    | with_reducible assumption
    | with_reducible apply storeOut_kept
    | with_reducible apply Kept.trans ?_ (storeOut_kept ..)
    | with_reducible apply retireEngine_kept
    | with_reducible apply Kept.trans ?_ (retireEngine_kept ..)
    | with_reducible apply dataFault_kept

theorem gatherSpans_kept (j : Job) (ps : List Span) (s : State) :
    (∀ t, gatherSpans j ps s = .error t → Kept s t) ∧ ∀ l t, gatherSpans j ps s = .ok (l, t) → Kept s t := by
  have k := readSpans_kept j ps s
  unfold gatherSpans
  generalize readSpans j ps s = q at k
  refine ⟨fun t h => ?_, fun l t h => ?_⟩ <;> extract_lets ls at h <;> split at h
  · exact Except.error.inj h ▸ (k.trans (issueHolds_kept ..)).trans (askLines_kept ..)
  · split at h
    · exact Except.error.inj h ▸ k.trans (parkAll_kept ..)
    · split at h
      · exact Except.error.inj h ▸ k.trans (finishInc_kept ..)
      · cases h
  · cases h
  · split at h
    · cases h
    · split at h
      · cases h
      · exact (Prod.mk.inj (Except.ok.inj h)).2 ▸ k

theorem runArith_kept (j : Job) (s : State) : Kept s (runArith j s) := by
  unfold runArith
  extract_lets p
  have k := gatherSpans_kept j p.1 s
  split <;> rename_i h
  · exact k.1 _ h
  · exact (k.2 _ _ h).trans (Kept.ite (Kept.ite (checkFails_kept ..) (storeOut_kept ..))
      (Kept.ite (repeatEnds_kept ..) (judgeEnds_kept ..)))

theorem readCopies_kept (j : Job) (a : Option Nat) (d : Option Nat) (l : List (Nat × Nat × Nat)) (s : State) : Kept s (readCopies j a d l s).2.2 := by
  unfold readCopies
  try dsimp only
  repeat' first
    | with_reducible apply Kept.ite
    | with_reducible apply Kept.refl
    | with_reducible assumption
    | with_reducible apply readSpan_kept
    | with_reducible apply Kept.trans ?_ (readSpan_kept ..)
    | with_reducible exact Kept.foldl_snd (fun _ _ => ?_) _ _
    | with_reducible apply Kept.foldl_snd (fun _ _ => ?_) _ _
    | with_reducible apply Kept.foldl_fst (fun _ _ => ?_) _ _
    | with_reducible apply Kept.foldl_snd_snd (fun _ _ => ?_) _ _ _

theorem withCopies_kept (j : Job) (a : Tile) (d : Tile) (l : List (Nat × Nat × Nat)) (k : List Store → State → State) (s : State) (hk : ∀ a s, Kept s (k a s)) : Kept s (withCopies j a d l k s) := by
  unfold withCopies
  try dsimp only
  repeat' first
    | with_reducible apply Kept.ite
    | with_reducible apply Kept.refl
    | with_reducible assumption
    | with_reducible apply readCopies_kept
    | with_reducible apply Kept.trans ?_ (readCopies_kept ..)
    | with_reducible apply askLines_kept
    | with_reducible apply Kept.trans ?_ (askLines_kept ..)
    | with_reducible apply issueHolds_kept
    | with_reducible apply Kept.trans ?_ (issueHolds_kept ..)
    | with_reducible apply parkAll_kept
    | with_reducible apply Kept.trans ?_ (parkAll_kept ..)
    | with_reducible apply commitSpans_kept
    | with_reducible apply Kept.trans ?_ (commitSpans_kept ..)
    | with_reducible exact hk _ _
    | with_reducible apply Kept.trans ?_ (hk _ _)

theorem storeLines_kept (j : Job) (l : List Store) (s : State) : Kept s (storeLines j l s) := by
  unfold storeLines
  try dsimp only
  repeat' first
    | with_reducible apply Kept.ite
    | with_reducible apply Kept.refl
    | with_reducible assumption
    | with_reducible apply makeStores_kept

theorem runCopy_kept (j : Job) (s : State) : Kept s (runCopy j s) := by
  unfold runCopy
  try dsimp only
  repeat' first
    | with_reducible apply Kept.ite
    | with_reducible apply Kept.refl
    | with_reducible assumption
    | with_reducible apply Kept.trans ?_ (withCopies_kept (hk := fun _ _ => ?_) ..)
    | with_reducible apply storeLines_kept

theorem runIndexed_kept (scatter : Bool) (j : Job) (s : State) :
    Kept s (runIndexed scatter j s) := by
  unfold runIndexed
  extract_lets a b d
  have k := gatherSpans_kept j (rowSpans b) s
  split <;> rename_i h
  · exact k.1 _ h
  · exact ((k.2 _ _ h).trans (commitSpans_kept ..)).trans (withCopies_kept _ _ _ _ _ _ fun _ _ => storeLines_kept ..)

theorem runFill_kept (j : Job) (s : State) : Kept s (runFill j s) := by
  unfold runFill
  try dsimp only
  repeat' first
    | with_reducible apply Kept.ite
    | with_reducible apply Kept.refl
    | with_reducible assumption
    | with_reducible apply storeLines_kept

theorem runSow_kept (j : Job) (s : State) : Kept s (runSow j s) := by
  unfold runSow
  try dsimp only
  repeat' first
    | with_reducible apply Kept.ite
    | with_reducible apply Kept.refl
    | with_reducible assumption
    | with_reducible apply finishInc_kept
    | with_reducible apply Kept.trans ?_ (finishInc_kept ..)
    | with_reducible apply Kept.trans ?_ (withCopies_kept (hk := fun _ _ => ?_) ..)
    | with_reducible apply onInc_kept
    | with_reducible apply Kept.trans ?_ (onInc_kept ..)
    | with_reducible apply bump_kept
    | with_reducible apply Kept.trans ?_ (bump_kept ..)
    | with_reducible apply storeRest_kept
    | with_reducible apply Kept.trans ?_ (storeRest_kept ..)
    | with_reducible apply Kept.trans ?_ (Kept.forAll (fun _ _ => ?_) _)
    | split

theorem runSend_kept (j : Job) (s : State) : Kept s (runSend j s) := by
  unfold runSend
  extract_lets ps
  have k := gatherSpans_kept j ps s
  split <;> rename_i h
  · exact k.1 _ h
  · exact (k.2 _ _ h).trans (Kept.ite (finishInc_kept ..) ((commitSpans_kept ..).trans (askAll_kept ..)))

theorem runLdx_kept (j : Job) (s : State) : Kept s (runLdx j s) := by
  unfold runLdx
  extract_lets a
  have k := gatherSpans_kept j [(a.node, a.off, 8)] s
  apply Kept.ite (finishInc_kept ..)
  split <;> rename_i h
  · exact k.1 _ h
  · exact (((k.2 _ _ h).trans (commitSpans_kept ..)).trans (setX_kept ..)).trans (finishInc_kept ..)

theorem runReport_kept (j : Job) (s : State) : Kept s (runReport j s) := by
  unfold runReport
  try dsimp only
  repeat' first
    | with_reducible apply Kept.ite
    | with_reducible apply Kept.refl
    | with_reducible assumption
    | with_reducible apply storeOut_kept

theorem runSignal_kept (op : Nat) (j : Job) (s : State) : Kept s (runSignal op j s) := by
  unfold runSignal
  try dsimp only
  repeat' first
    | with_reducible apply Kept.ite
    | with_reducible apply Kept.refl
    | with_reducible assumption
    | with_reducible apply askAll_kept
    | with_reducible apply Kept.trans ?_ (askAll_kept ..)
    | with_reducible apply finishInc_kept
    | with_reducible apply Kept.trans ?_ (finishInc_kept ..)
    | with_reducible apply windowCheck_kept
    | with_reducible apply Kept.trans ?_ (windowCheck_kept ..)
    | with_reducible apply prefetch_kept
    | with_reducible apply Kept.trans ?_ (prefetch_kept ..)
    | with_reducible apply parkOn_kept
    | with_reducible apply Kept.trans ?_ (parkOn_kept ..)
    | split

theorem atomDone_kept (j : Job) (old : List Byte) (s : State) : Kept s (atomDone j old s) := by
  unfold atomDone
  try dsimp only
  repeat' first
    | with_reducible apply Kept.ite
    | with_reducible apply Kept.refl
    | with_reducible assumption
    | with_reducible apply setX_kept
    | with_reducible apply Kept.trans ?_ (setX_kept ..)
    | with_reducible apply finishInc_kept
    | with_reducible apply Kept.trans ?_ (finishInc_kept ..)

theorem atomSpad_kept (j : Job) (c : Nat) (off : Nat) (r : Req) (s : State) : Kept s (atomSpad j c off r s) := by
  unfold atomSpad
  try dsimp only
  repeat' first
    | with_reducible apply Kept.ite
    | with_reducible apply Kept.refl
    | with_reducible assumption
    | with_reducible apply finishInc_kept
    | with_reducible apply Kept.trans ?_ (finishInc_kept ..)
    | with_reducible apply atomDone_kept
    | with_reducible apply Kept.trans ?_ (atomDone_kept ..)
    | with_reducible apply spadStore_kept

theorem atomPool_kept (j : Job) (r : Req) (s : State) : Kept s (atomPool j r s) := by
  unfold atomPool
  extract_lets w off s1 m
  split
  · split
    · exact atomDone_kept ..
    · exact finishInc_kept ..
    · exact parkOn_kept ..
  · have k1 : Kept s s1 := by
      dsimp +zetaDelta only
      split
      · exact Kept.refl _
      · exact Kept.ite ((cacheDrop_kept ..).trans (writeOut_kept ..)) (cacheDrop_kept ..)
    have km : Kept s m.2 := (k1.trans (prefetch_kept ..)).trans (memCheck_kept ..)
    clear_value m
    split
    · extract_lets q
      have kq : Kept s q.2 := km.trans (poolMeets_kept ..)
      clear_value q
      split
      · exact (((kq.trans (accepted_kept ..)).trans (bump_kept ..)).trans (effectAccess_kept ..)).trans (atomDone_kept ..)
      · exact kq.trans (finishInc_kept ..)
      · exact kq.trans (parkAll_kept ..)
    · split
      · exact km.trans (finishInc_kept ..)
      · exact km.trans (parkOn_kept ..)
    · exact km.trans (finishInc_kept ..)
    · exact km.trans (parkOn_kept ..)
    · exact km.trans (finishInc_kept ..)

theorem runAtom_kept (j : Job) (s : State) : Kept s (runAtom j s) := by
  unfold runAtom
  try dsimp only
  repeat' first
    | with_reducible apply Kept.ite
    | with_reducible apply Kept.refl
    | with_reducible assumption
    | with_reducible apply finishInc_kept
    | with_reducible apply Kept.trans ?_ (finishInc_kept ..)
    | with_reducible apply atomSpad_kept
    | with_reducible apply Kept.trans ?_ (atomSpad_kept ..)
    | with_reducible apply atomPool_kept
    | with_reducible apply Kept.trans ?_ (atomPool_kept ..)
    | with_reducible apply askAll_kept
    | with_reducible apply Kept.trans ?_ (askAll_kept ..)
    | with_reducible apply bump_kept
    | with_reducible apply Kept.trans ?_ (bump_kept ..)
    | with_reducible apply windowCheck_kept
    | with_reducible apply Kept.trans ?_ (windowCheck_kept ..)
    | with_reducible apply prefetch_kept
    | with_reducible apply Kept.trans ?_ (prefetch_kept ..)
    | with_reducible apply parkOn_kept
    | with_reducible apply Kept.trans ?_ (parkOn_kept ..)
    | split

theorem cancelFill_kept (c : Nat) (ctx : Nat) (vline : Nat) (s : State) : Kept s (cancelFill c ctx vline s) := by
  unfold cancelFill
  try dsimp only
  repeat' first
    | with_reducible apply Kept.ite
    | with_reducible apply Kept.refl
    | with_reducible assumption
    | with_reducible apply onCore_kept

theorem flushLine_kept (drop : Bool) (j : Job) (q : Nat × Nat) (s : State) : Kept s (flushLine drop j q s) := by
  unfold flushLine
  try dsimp only
  repeat' first
    | with_reducible apply Kept.ite
    | with_reducible apply Kept.refl
    | with_reducible assumption
    | with_reducible apply cancelFill_kept
    | with_reducible apply Kept.trans ?_ (cancelFill_kept ..)
    | with_reducible apply cacheDrop_kept
    | with_reducible apply Kept.trans ?_ (cacheDrop_kept ..)
    | with_reducible apply cachePut_kept
    | with_reducible apply Kept.trans ?_ (cachePut_kept ..)
    | with_reducible apply onThread_kept
    | with_reducible apply Kept.trans ?_ (onThread_kept ..)
    | with_reducible apply onInc_kept
    | with_reducible apply Kept.trans ?_ (onInc_kept ..)
    | with_reducible apply attempt_kept
    | with_reducible apply Kept.trans ?_ (attempt_kept ..)
    | with_reducible apply accepted_kept
    | with_reducible apply Kept.trans ?_ (accepted_kept ..)
    | split

theorem flushDone_kept (j : Job) (s : State) : Kept s (flushDone j s) := by
  unfold flushDone
  try dsimp only
  repeat' first
    | with_reducible apply Kept.ite
    | with_reducible apply Kept.refl
    | with_reducible assumption
    | with_reducible apply park_kept
    | with_reducible apply Kept.trans ?_ (park_kept ..)
    | with_reducible apply finishInc_kept
    | with_reducible apply Kept.trans ?_ (finishInc_kept ..)
    | split

theorem flush_kept (drop : Bool) (j : Job) (keys : List (Nat × Nat)) (s : State) : Kept s (flush drop j keys s) := by
  unfold flush
  try dsimp only
  repeat' first
    | with_reducible apply Kept.ite
    | with_reducible apply Kept.refl
    | with_reducible assumption
    | with_reducible apply flushDone_kept
    | with_reducible apply Kept.trans ?_ (flushDone_kept ..)
    | with_reducible apply flushLine_kept
    | with_reducible apply Kept.trans ?_ (flushLine_kept ..)
    | with_reducible apply onInc_kept
    | with_reducible apply Kept.trans ?_ (onInc_kept ..)
    | with_reducible apply Kept.trans ?_ (Kept.forAll (fun _ _ => ?_) _)

theorem runFlush_kept (drop : Bool) (j : Job) (s : State) : Kept s (runFlush drop j s) := by
  unfold runFlush
  try dsimp only
  repeat' first
    | with_reducible apply Kept.ite
    | with_reducible apply Kept.refl
    | with_reducible assumption
    | with_reducible apply flush_kept

theorem runRecv_kept (j : Job) (s : State) : Kept s (runRecv j s) := by
  unfold runRecv
  try dsimp only
  repeat' first
    | with_reducible apply Kept.ite
    | with_reducible apply Kept.refl
    | with_reducible assumption
    | with_reducible apply finishInc_kept
    | with_reducible apply Kept.trans ?_ (finishInc_kept ..)
    | with_reducible apply park_kept
    | with_reducible apply Kept.trans ?_ (park_kept ..)
    | with_reducible apply onCore_kept
    | with_reducible apply Kept.trans ?_ (onCore_kept ..)
    | with_reducible apply onThread_kept
    | with_reducible apply Kept.trans ?_ (onThread_kept ..)
    | with_reducible apply setX_kept
    | with_reducible apply Kept.trans ?_ (setX_kept ..)
    | split

theorem wakeWait_kept (j : Job) (s : State) : Kept s (wakeWait j s) := by
  unfold wakeWait
  try dsimp only
  repeat' first
    | with_reducible apply Kept.ite
    | with_reducible apply Kept.refl
    | with_reducible assumption
    | with_reducible apply finishInc_kept
    | with_reducible apply Kept.trans ?_ (finishInc_kept ..)
    | with_reducible apply flush_kept
    | with_reducible apply Kept.trans ?_ (flush_kept ..)
    | split

theorem runWait_kept (j : Job) (s : State) : Kept s (runWait j s) := by
  unfold runWait
  try dsimp only
  repeat' first
    | with_reducible apply Kept.ite
    | with_reducible apply Kept.refl
    | with_reducible assumption
    | with_reducible apply finishInc_kept
    | with_reducible apply Kept.trans ?_ (finishInc_kept ..)
    | with_reducible apply wakeWait_kept
    | with_reducible apply Kept.trans ?_ (wakeWait_kept ..)
    | with_reducible apply onWatch_kept
    | with_reducible apply Kept.trans ?_ (onWatch_kept ..)
    | with_reducible apply park_kept
    | with_reducible apply Kept.trans ?_ (park_kept ..)
    | with_reducible apply arm_kept
    | with_reducible apply Kept.trans ?_ (arm_kept ..)
    | split

theorem clearStatus_kept (c : Nat) (t : Nat) (s : State) : Kept s (clearStatus c t s) := by
  unfold clearStatus
  try dsimp only
  repeat' first
    | with_reducible apply Kept.ite
    | with_reducible apply Kept.refl
    | with_reducible assumption
    | with_reducible apply onThread_kept

theorem armStream_kept (c : Nat) (t : Nat) (d : Desc) (base : U64) (count : U64) (s : State) : Kept s (armStream c t d base count s) := by
  unfold armStream
  try dsimp only
  repeat' first
    | with_reducible apply Kept.ite
    | with_reducible apply Kept.refl
    | with_reducible assumption
    | with_reducible apply onThread_kept

theorem repeatReg_kept (j : Job) (s : State) : Kept s (repeatReg j s) := by
  unfold repeatReg
  try dsimp only
  repeat' first
    | with_reducible apply Kept.ite
    | with_reducible apply Kept.refl
    | with_reducible assumption
    | with_reducible apply setX_kept
    | with_reducible apply Kept.trans ?_ (setX_kept ..)
    | with_reducible apply clearStatus_kept
    | with_reducible apply Kept.trans ?_ (clearStatus_kept ..)
    | with_reducible apply armStream_kept

theorem runJob_kept (j : Job) (s : State) : Kept s (runJob j s) := by
  unfold runJob
  try dsimp only
  repeat' first
    | with_reducible apply Kept.ite
    | with_reducible apply Kept.refl
    | with_reducible assumption
    | with_reducible apply flushDone_kept
    | with_reducible apply Kept.trans ?_ (flushDone_kept ..)
    | with_reducible apply storeRest_kept
    | with_reducible apply Kept.trans ?_ (storeRest_kept ..)
    | with_reducible apply runArith_kept
    | with_reducible apply Kept.trans ?_ (runArith_kept ..)
    | with_reducible apply runCopy_kept
    | with_reducible apply Kept.trans ?_ (runCopy_kept ..)
    | with_reducible apply runIndexed_kept
    | with_reducible apply Kept.trans ?_ (runIndexed_kept ..)
    | with_reducible apply runSow_kept
    | with_reducible apply Kept.trans ?_ (runSow_kept ..)
    | with_reducible apply runSend_kept
    | with_reducible apply Kept.trans ?_ (runSend_kept ..)
    | with_reducible apply runFill_kept
    | with_reducible apply Kept.trans ?_ (runFill_kept ..)
    | with_reducible apply runLdx_kept
    | with_reducible apply Kept.trans ?_ (runLdx_kept ..)
    | with_reducible apply finishInc_kept
    | with_reducible apply Kept.trans ?_ (finishInc_kept ..)
    | with_reducible apply runWait_kept
    | with_reducible apply Kept.trans ?_ (runWait_kept ..)
    | with_reducible apply runSignal_kept
    | with_reducible apply Kept.trans ?_ (runSignal_kept ..)
    | with_reducible apply runReport_kept
    | with_reducible apply Kept.trans ?_ (runReport_kept ..)
    | with_reducible apply runRecv_kept
    | with_reducible apply Kept.trans ?_ (runRecv_kept ..)
    | with_reducible apply runAtom_kept
    | with_reducible apply Kept.trans ?_ (runAtom_kept ..)
    | with_reducible apply runFlush_kept
    | with_reducible apply Kept.trans ?_ (runFlush_kept ..)
    | with_reducible apply repeatReg_kept

theorem rerun_kept (c : Nat) (t : Nat) (seq : Nat) (s : State) : Kept s (rerun c t seq s) := by
  unfold rerun
  try dsimp only
  repeat' first
    | with_reducible apply Kept.ite
    | with_reducible apply Kept.refl
    | with_reducible assumption
    | with_reducible apply runJob_kept
    | with_reducible apply Kept.trans ?_ (runJob_kept ..)
    | split

end Sys2Proof.Machine
end

