-- ==== Sys2Proof/Laws/KeptFurStep.lean ====
section
/-! SUPPORT. What each operation of Machine/FurStep.lean keeps. -/

namespace Sys2Proof.Machine

theorem unread_kept (c : Nat) (t : Nat) (s : State) : Kept s (unread c t s) := by
  unfold unread
  try dsimp only
  repeat' first
    | with_reducible apply Kept.ite
    | with_reducible apply Kept.refl
    | with_reducible assumption
    | with_reducible apply haltCheck_kept
    | with_reducible apply Kept.trans ?_ (haltCheck_kept ..)
    | with_reducible apply takeStatus_kept
    | with_reducible apply Kept.trans ?_ (takeStatus_kept ..)
    | split

theorem issued_kept (c : Nat) (t : Nat) (s : State) : Kept s (issued c t s) := by
  unfold issued
  extract_lets e1 e2 e3
  have k1 : Kept s e1 := by
    repeat' first
      | with_reducible apply Kept.ite
      | with_reducible apply Kept.refl
      | with_reducible assumption
      | with_reducible apply bump_kept
  clear_value e1
  have k2 : Kept s e2 := by
    repeat' first
      | with_reducible apply Kept.ite
      | with_reducible apply Kept.refl
      | with_reducible assumption
      | with_reducible apply bump_kept
      | with_reducible apply Kept.trans ?_ (bump_kept ..)
  clear_value e2
  have k3 : Kept s e3 := by
    repeat' first
      | with_reducible apply Kept.ite
      | with_reducible apply Kept.refl
      | with_reducible assumption
      | with_reducible apply bump_kept
      | with_reducible apply Kept.trans ?_ (bump_kept ..)
      | with_reducible apply onCore_kept
      | with_reducible apply Kept.trans ?_ (onCore_kept ..)
  clear_value e3
  repeat' first
    | with_reducible apply Kept.ite
    | with_reducible apply Kept.refl
    | with_reducible assumption
    | with_reducible apply bump_kept
    | with_reducible apply Kept.trans ?_ (bump_kept ..)
    | with_reducible apply onCore_kept
    | with_reducible apply Kept.trans ?_ (onCore_kept ..)
    | with_reducible apply onThread_kept
    | with_reducible apply Kept.trans ?_ (onThread_kept ..)

theorem issueReg_kept (op : Nat) (c : Nat) (t : Nat) (f : Desc → State → State) (s : State) (hf : ∀ a s, Kept s (f a s)) : Kept s (issueReg op c t f s) := by
  unfold issueReg
  try dsimp only
  repeat' first
    | with_reducible apply Kept.ite
    | with_reducible apply Kept.refl
    | with_reducible assumption
    | with_reducible apply issued_kept
    | with_reducible apply Kept.trans ?_ (issued_kept ..)
    | with_reducible apply unread_kept
    | with_reducible apply Kept.trans ?_ (unread_kept ..)
    | with_reducible exact hf _ _
    | with_reducible apply Kept.trans ?_ (hf _ _)
    | split

theorem issueOp_kept (op : Nat) (c : Nat) (t : Nat) (upset : Bool) (s : State) : Kept s (issueOp op c t upset s) := by
  unfold issueOp
  extract_lets e1 e2 e3 e4
  have k3 : Kept s e3 := by
    repeat' first
      | with_reducible apply Kept.ite
      | with_reducible apply Kept.refl
      | with_reducible assumption
      | with_reducible apply unread_kept
      | with_reducible apply Kept.trans ?_ (unread_kept ..)
      | with_reducible apply issued_kept
      | with_reducible apply Kept.trans ?_ (issued_kept ..)
      | with_reducible apply onThread_kept
      | with_reducible apply Kept.trans ?_ (onThread_kept ..)
  clear_value e3
  have k4 : Kept s e4 := by
    repeat' first
      | with_reducible apply Kept.ite
      | with_reducible apply Kept.refl
      | with_reducible assumption
      | with_reducible apply unread_kept
      | with_reducible apply Kept.trans ?_ (unread_kept ..)
      | with_reducible apply issued_kept
      | with_reducible apply Kept.trans ?_ (issued_kept ..)
      | with_reducible apply onThread_kept
      | with_reducible apply Kept.trans ?_ (onThread_kept ..)
      | with_reducible apply unclaim_kept
      | with_reducible apply Kept.trans ?_ (unclaim_kept ..)
  clear_value e4
  repeat' first
    | with_reducible apply Kept.ite
    | with_reducible apply Kept.refl
    | with_reducible assumption
    | with_reducible apply unread_kept
    | with_reducible apply Kept.trans ?_ (unread_kept ..)
    | with_reducible apply issued_kept
    | with_reducible apply Kept.trans ?_ (issued_kept ..)
    | with_reducible apply onThread_kept
    | with_reducible apply Kept.trans ?_ (onThread_kept ..)
    | with_reducible apply unclaim_kept
    | with_reducible apply Kept.trans ?_ (unclaim_kept ..)
    | with_reducible apply onInc_kept
    | with_reducible apply Kept.trans ?_ (onInc_kept ..)
    | with_reducible apply runJob_kept
    | with_reducible apply Kept.trans ?_ (runJob_kept ..)
    | split

theorem jumpTo_kept (c : Nat) (t : Nat) (n : Nat) (s : State) : Kept s (jumpTo c t n s) := by
  unfold jumpTo
  try dsimp only
  repeat' first
    | with_reducible apply Kept.ite
    | with_reducible apply Kept.refl
    | with_reducible assumption
    | with_reducible apply onThread_kept

theorem doXop_kept (c : Nat) (t : Nat) (d : Desc) (s : State) : Kept s (doXop c t d s) := by
  unfold doXop
  try dsimp only
  repeat' first
    | with_reducible apply Kept.ite
    | with_reducible apply Kept.refl
    | with_reducible assumption
    | with_reducible apply setX_kept

theorem doBrx_kept (c : Nat) (t : Nat) (d : Desc) (s : State) : Kept s (doBrx c t d s) := by
  unfold doBrx
  try dsimp only
  repeat' first
    | with_reducible apply Kept.ite
    | with_reducible apply Kept.refl
    | with_reducible assumption
    | with_reducible apply jumpTo_kept

theorem doBrst_kept (c : Nat) (t : Nat) (d : Desc) (s : State) : Kept s (doBrst c t d s) := by
  unfold doBrst
  try dsimp only
  repeat' first
    | with_reducible apply Kept.ite
    | with_reducible apply Kept.refl
    | with_reducible assumption
    | with_reducible apply jumpTo_kept

theorem doLoop_kept (c : Nat) (t : Nat) (d : Desc) (s : State) : Kept s (doLoop c t d s) := by
  unfold doLoop
  try dsimp only
  repeat' first
    | with_reducible apply Kept.ite
    | with_reducible apply Kept.refl
    | with_reducible assumption
    | with_reducible apply setX_kept
    | with_reducible apply Kept.trans ?_ (setX_kept ..)
    | with_reducible apply jumpTo_kept
    | with_reducible apply Kept.trans ?_ (jumpTo_kept ..)

theorem doHalt_kept (c : Nat) (t : Nat) (s : State) : Kept s (doHalt c t s) := by
  unfold doHalt
  try dsimp only
  repeat' first
    | with_reducible apply Kept.ite
    | with_reducible apply Kept.refl
    | with_reducible assumption
    | with_reducible apply haltCheck_kept
    | with_reducible apply Kept.trans ?_ (haltCheck_kept ..)
    | with_reducible apply onThread_kept

theorem doClrst_kept (c : Nat) (t : Nat) (s : State) : Kept s (doClrst c t s) := by
  unfold doClrst
  try dsimp only
  repeat' first
    | with_reducible apply Kept.ite
    | with_reducible apply Kept.refl
    | with_reducible assumption
    | with_reducible apply clearStatus_kept

theorem doStream_kept (c : Nat) (t : Nat) (d : Desc) (s : State) : Kept s (doStream c t d s) := by
  unfold doStream
  try dsimp only
  repeat' first
    | with_reducible apply Kept.ite
    | with_reducible apply Kept.refl
    | with_reducible assumption
    | with_reducible apply armStream_kept

theorem turns_kept (c : Nat) (t : Nat) (fuel : Nat) (s : State) : Kept s (turns c t fuel s) := by
  induction fuel generalizing c t s with
  | zero => exact Kept.refl _
  | succ _ ih =>
    unfold turns
    try dsimp only
    repeat' first
      | with_reducible apply Kept.ite
      | with_reducible apply Kept.refl
      | with_reducible assumption
      | with_reducible apply rerun_kept
      | with_reducible apply Kept.trans ?_ (rerun_kept ..)
      | with_reducible exact ih ..
      | with_reducible apply Kept.trans ?_ (ih ..)
      | split

theorem fillTurns_kept (c : Nat) (t : Nat) (s : State) : Kept s (fillTurns c t s) := by
  unfold fillTurns
  try dsimp only
  repeat' first
    | with_reducible apply Kept.ite
    | with_reducible apply Kept.refl
    | with_reducible assumption
    | with_reducible apply takeFills_kept
    | with_reducible apply Kept.trans ?_ (takeFills_kept ..)
    | with_reducible apply Kept.trans ?_ (Kept.forAll (fun _ _ => ?_) _)
    | split

theorem poolTurns_kept (c : Nat) (t : Nat) (s : State) : Kept s (poolTurns c t s) := by
  unfold poolTurns
  try dsimp only
  repeat' first
    | with_reducible apply Kept.ite
    | with_reducible apply Kept.refl
    | with_reducible assumption
    | with_reducible apply rerun_kept
    | with_reducible apply Kept.trans ?_ (rerun_kept ..)
    | with_reducible apply bump_kept
    | with_reducible apply Kept.trans ?_ (bump_kept ..)
    | with_reducible apply Kept.trans ?_ (Kept.forAll (fun _ _ => ?_) _)

theorem recvTurns_kept (c : Nat) (fuel : Nat) (s : State) : Kept s (recvTurns c fuel s) := by
  induction fuel generalizing c s with
  | zero => exact Kept.refl _
  | succ _ ih =>
    unfold recvTurns
    try dsimp only
    repeat' first
      | with_reducible apply Kept.ite
      | with_reducible apply Kept.refl
      | with_reducible assumption
      | with_reducible apply rerun_kept
      | with_reducible apply Kept.trans ?_ (rerun_kept ..)
      | with_reducible exact ih ..
      | with_reducible apply Kept.trans ?_ (ih ..)
      | split

theorem furSettle_kept (s : State) : Kept s (furSettle s) := by
  unfold furSettle
  try dsimp only
  repeat' first
    | with_reducible apply Kept.ite
    | with_reducible apply Kept.refl
    | with_reducible assumption
    | with_reducible apply fillTurns_kept
    | with_reducible apply Kept.trans ?_ (fillTurns_kept ..)
    | with_reducible apply poolTurns_kept
    | with_reducible apply Kept.trans ?_ (poolTurns_kept ..)
    | with_reducible apply recvTurns_kept
    | with_reducible apply Kept.trans ?_ (recvTurns_kept ..)
    | with_reducible apply turns_kept
    | with_reducible apply Kept.trans ?_ (turns_kept ..)
    | with_reducible apply sendAll_kept
    | with_reducible apply Kept.trans ?_ (sendAll_kept ..)
    | with_reducible apply Kept.trans ?_ (Kept.forAll (fun _ _ => ?_) _)

theorem lineArrives_kept (c : Nat) (t : Nat) (tag : Nat) (status : Nat) (data : List Byte) (s : State) : Kept s (lineArrives c t tag status data s) := by
  unfold lineArrives
  try dsimp only
  repeat' first
    | with_reducible apply Kept.ite
    | with_reducible apply Kept.refl
    | with_reducible assumption
    | with_reducible apply onInc_kept
    | with_reducible apply Kept.trans ?_ (onInc_kept ..)
    | with_reducible apply rerun_kept
    | with_reducible apply Kept.trans ?_ (rerun_kept ..)
    | with_reducible apply setX_kept
    | with_reducible apply Kept.trans ?_ (setX_kept ..)
    | with_reducible apply replied_kept
    | with_reducible apply Kept.trans ?_ (replied_kept ..)
    | with_reducible apply sendAll_kept
    | with_reducible apply Kept.trans ?_ (sendAll_kept ..)
    | split

theorem wakeThread_kept (w : Nat) (ctr : Nat) (c : Nat) (t : Nat) (rearm : Bool) (s : State) : Kept s (wakeThread w ctr c t rearm s) := by
  unfold wakeThread
  try dsimp only
  repeat' first
    | with_reducible apply Kept.ite
    | with_reducible apply Kept.refl
    | with_reducible assumption
    | with_reducible apply wakeWait_kept
    | with_reducible apply Kept.trans ?_ (wakeWait_kept ..)
    | with_reducible apply onWatch_kept
    | with_reducible apply Kept.trans ?_ (onWatch_kept ..)
    | with_reducible apply raise_kept
    | with_reducible apply Kept.trans ?_ (raise_kept ..)
    | with_reducible apply bump_kept
    | with_reducible apply Kept.trans ?_ (bump_kept ..)
    | split

theorem resumeCheck_kept (c : Nat) (t : Nat) (seq : Nat) (w : IncWait) (tries : Nat) (sound : Bool) (s : State) : Kept s (resumeCheck c t seq w tries sound s) := by
  unfold resumeCheck
  try dsimp only
  repeat' first
    | with_reducible apply Kept.ite
    | with_reducible apply Kept.refl
    | with_reducible assumption
    | with_reducible apply rerun_kept
    | with_reducible apply Kept.trans ?_ (rerun_kept ..)
    | with_reducible apply onInc_kept
    | with_reducible apply Kept.trans ?_ (onInc_kept ..)
    | split

theorem checkRepeated_kept (c : Nat) (d : Issued) (sound : Bool) (s : State) : Kept s (checkRepeated c d sound s) := by
  unfold checkRepeated
  try dsimp only
  repeat' first
    | with_reducible apply Kept.ite
    | with_reducible apply Kept.refl
    | with_reducible assumption
    | with_reducible apply resumeCheck_kept

theorem judgementDone_kept (c : Nat) (d : Issued) (passes : Bool) (s : State) : Kept s (judgementDone c d passes s) := by
  unfold judgementDone
  try dsimp only
  repeat' first
    | with_reducible apply Kept.ite
    | with_reducible apply Kept.refl
    | with_reducible assumption
    | with_reducible apply resumeCheck_kept

end Sys2Proof.Machine
end

