-- ==== Sys2Proof/Laws/KeptHostOps.lean ====
section
/-! SUPPORT. What each operation of Machine/HostOps.lean keeps. -/

namespace Sys2Proof.Machine

theorem hostStore_kept (line : Nat) (data : List Byte) (s : State) : Kept s (hostStore line data s) := by
  unfold hostStore
  try dsimp only
  repeat' first
    | with_reducible apply Kept.ite
    | with_reducible apply Kept.refl
    | with_reducible assumption
    | with_reducible apply attempt_kept
    | with_reducible apply Kept.trans ?_ (attempt_kept ..)
    | with_reducible apply accepted_kept
    | with_reducible apply Kept.trans ?_ (accepted_kept ..)
    | with_reducible apply onPool_kept
    | with_reducible apply Kept.trans ?_ (onPool_kept ..)
    | with_reducible apply onCoh_kept
    | with_reducible apply Kept.trans ?_ (onCoh_kept ..)
    | split

theorem cohEnter_kept (line : Nat) (st : SnoopSt) (s : State) : Kept s (cohEnter line st s) := by
  unfold cohEnter
  try dsimp only
  repeat' first
    | with_reducible apply Kept.ite
    | with_reducible apply Kept.refl
    | with_reducible assumption
    | with_reducible apply onCoh_kept

theorem hostAccepts_kept (w : HostWait) (s : State) : Kept s (hostAccepts w s).2 := by
  unfold hostAccepts
  try dsimp only
  repeat' first
    | with_reducible apply Kept.ite
    | with_reducible apply Kept.refl
    | with_reducible assumption
    | with_reducible apply accepted_kept
    | with_reducible apply Kept.trans ?_ (accepted_kept ..)
    | with_reducible apply emit_kept
    | with_reducible apply Kept.trans ?_ (emit_kept ..)
    | split

theorem hostServes_kept (filled : Option Nat) (w : HostWait) (s : State) : Kept s (hostServes filled w s).2 := by
  unfold hostServes
  try dsimp only
  repeat' first
    | with_reducible apply Kept.ite
    | with_reducible apply Kept.refl
    | with_reducible assumption
    | with_reducible apply meetWalk_kept
    | with_reducible apply Kept.trans ?_ (meetWalk_kept ..)
    | with_reducible apply bump_kept
    | with_reducible apply Kept.trans ?_ (bump_kept ..)
    | with_reducible apply beginWait_kept
    | with_reducible apply Kept.trans ?_ (beginWait_kept ..)
    | with_reducible apply sendSnoop_kept
    | with_reducible apply Kept.trans ?_ (sendSnoop_kept ..)
    | with_reducible apply cohEnter_kept
    | with_reducible apply Kept.trans ?_ (cohEnter_kept ..)
    | with_reducible apply chipAlloc_kept
    | with_reducible apply Kept.trans ?_ (chipAlloc_kept ..)
    | with_reducible apply emit_kept
    | with_reducible apply Kept.trans ?_ (emit_kept ..)
    | split

theorem hostTurns_kept (filled : Option Nat) (fuel : Nat) (s : State) : Kept s (hostTurns filled fuel s) := by
  induction fuel generalizing filled s with
  | zero => exact Kept.refl _
  | succ _ ih =>
    unfold hostTurns
    try dsimp only
    repeat' first
      | with_reducible apply Kept.ite
      | with_reducible apply Kept.refl
      | with_reducible assumption
      | with_reducible apply hostAccepts_kept
      | with_reducible apply Kept.trans ?_ (hostAccepts_kept ..)
      | with_reducible apply hostServes_kept
      | with_reducible apply Kept.trans ?_ (hostServes_kept ..)
      | with_reducible apply onCoh_kept
      | with_reducible apply Kept.trans ?_ (onCoh_kept ..)
      | with_reducible exact ih ..
      | with_reducible apply Kept.trans ?_ (ih ..)
      | split

theorem hostMoves_kept (filled : Option Nat) (s : State) : Kept s (hostMoves filled s) := by
  unfold hostMoves
  try dsimp only
  repeat' first
    | with_reducible apply Kept.ite
    | with_reducible apply Kept.refl
    | with_reducible assumption
    | with_reducible apply hostTurns_kept

theorem hostRead_kept (own : Bool) (line : Nat) (s : State) : Kept s (hostRead own line s) := by
  unfold hostRead
  try dsimp only
  repeat' first
    | with_reducible apply Kept.ite
    | with_reducible apply Kept.refl
    | with_reducible assumption
    | with_reducible apply hostMoves_kept
    | with_reducible apply Kept.trans ?_ (hostMoves_kept ..)
    | with_reducible apply onCoh_kept

theorem cohLeave_kept (line : Nat) (s : State) : Kept s (cohLeave line s) := by
  unfold cohLeave
  try dsimp only
  repeat' first
    | with_reducible apply Kept.ite
    | with_reducible apply Kept.refl
    | with_reducible assumption
    | with_reducible apply hostMoves_kept
    | with_reducible apply Kept.trans ?_ (hostMoves_kept ..)
    | with_reducible apply bump_kept
    | with_reducible apply Kept.trans ?_ (bump_kept ..)
    | with_reducible apply onCoh_kept

theorem dmaTurns_kept (fuel : Nat) (s : State) : Kept s (dmaTurns fuel s) := by
  induction fuel generalizing s with
  | zero => exact Kept.refl _
  | succ _ ih =>
    unfold dmaTurns
    try dsimp only
    repeat' first
      | with_reducible apply Kept.ite
      | with_reducible apply Kept.refl
      | with_reducible assumption
      | with_reducible apply serve_kept
      | with_reducible apply Kept.trans ?_ (serve_kept ..)
      | with_reducible apply onLania_kept
      | with_reducible apply Kept.trans ?_ (onLania_kept ..)
      | with_reducible exact ih ..
      | with_reducible apply Kept.trans ?_ (ih ..)
      | split

theorem dmaMoves_kept (s : State) : Kept s (dmaMoves s) := by
  unfold dmaMoves
  try dsimp only
  repeat' first
    | with_reducible apply Kept.ite
    | with_reducible apply Kept.refl
    | with_reducible assumption
    | with_reducible apply dmaTurns_kept

end Sys2Proof.Machine
end

