-- ==== Sys2Proof/Laws/KeptFaultEnds.lean ====
section
/-! SUPPORT. What each operation of Machine/FaultEnds.lean keeps. -/

namespace Sys2Proof.Machine

theorem replayInc_kept (w : Nat × Nat) (again : Option Nat) (seq : Nat) (s : State) : Kept s (replayInc w again seq s) := by
  unfold replayInc
  try dsimp only
  repeat' first
    | with_reducible apply Kept.ite
    | with_reducible apply Kept.refl
    | with_reducible assumption
    | with_reducible apply rerun_kept
    | with_reducible apply Kept.trans ?_ (rerun_kept ..)
    | with_reducible apply bump_kept
    | with_reducible apply Kept.trans ?_ (bump_kept ..)
    | split

theorem faultOver_kept (e : FaultEntry) (fail : Option Nat) (s : State) : Kept s (faultOver e fail s) := by
  unfold faultOver
  try dsimp only
  repeat' first
    | with_reducible apply Kept.ite
    | with_reducible apply Kept.refl
    | with_reducible assumption
    | with_reducible apply replayInc_kept
    | with_reducible apply Kept.trans ?_ (replayInc_kept ..)
    | with_reducible apply onInc_kept
    | with_reducible apply Kept.trans ?_ (onInc_kept ..)
    | with_reducible apply Kept.trans ?_ (Kept.forAll (fun _ _ => ?_) _)
    | split

theorem faultEnds_kept (n : Nat) (fail : Option Nat) (s : State) : Kept s (faultEnds n fail s) := by
  unfold faultEnds
  try dsimp only
  repeat' first
    | with_reducible apply Kept.ite
    | with_reducible apply Kept.refl
    | with_reducible assumption
    | with_reducible apply faultOver_kept
    | with_reducible apply Kept.trans ?_ (faultOver_kept ..)
    | with_reducible apply onXlt_kept
    | with_reducible apply Kept.trans ?_ (onXlt_kept ..)
    | split

theorem resolveNow_kept (entry : Nat) (fail : Option Nat) (s : State) : Kept s (resolveNow entry fail s) := by
  unfold resolveNow
  try dsimp only
  repeat' first
    | with_reducible apply Kept.ite
    | with_reducible apply Kept.refl
    | with_reducible assumption
    | with_reducible apply faultEnds_kept
    | with_reducible apply Kept.trans ?_ (faultEnds_kept ..)
    | with_reducible apply onXlt_kept

theorem genTakes_kept (gen : U64) (s : State) : Kept s (genTakes gen s) := by
  unfold genTakes
  try dsimp only
  repeat' first
    | with_reducible apply Kept.ite
    | with_reducible apply Kept.refl
    | with_reducible assumption
    | with_reducible apply bump_kept
    | with_reducible apply Kept.trans ?_ (bump_kept ..)
    | with_reducible apply onXlt_kept

theorem genMoves_kept (s : State) : Kept s (genMoves s) := by
  unfold genMoves
  try dsimp only
  repeat' first
    | with_reducible apply Kept.ite
    | with_reducible apply Kept.refl
    | with_reducible assumption
    | with_reducible apply genTakes_kept
    | with_reducible apply Kept.trans ?_ (genTakes_kept ..)
    | with_reducible apply resolveNow_kept
    | with_reducible apply Kept.trans ?_ (resolveNow_kept ..)
    | with_reducible apply onXlt_kept
    | with_reducible apply Kept.trans ?_ (onXlt_kept ..)
    | with_reducible apply Kept.trans ?_ (Kept.forAll (fun _ _ => ?_) _)

theorem faultsFail_kept (p : FaultEntry → Bool) (s : State) : Kept s (faultsFail p s) := by
  unfold faultsFail
  try dsimp only
  repeat' first
    | with_reducible apply Kept.ite
    | with_reducible apply Kept.refl
    | with_reducible assumption
    | with_reducible apply faultEnds_kept
    | with_reducible apply Kept.trans ?_ (faultEnds_kept ..)
    | with_reducible apply faultOver_kept
    | with_reducible apply Kept.trans ?_ (faultOver_kept ..)
    | with_reducible apply onXlt_kept
    | with_reducible apply Kept.trans ?_ (onXlt_kept ..)
    | with_reducible apply Kept.trans ?_ (Kept.forAll (fun _ _ => ?_) _)

theorem openDeferred_kept (s : State) : Kept s (openDeferred s) := by
  unfold openDeferred
  split
  · exact Kept.refl s
  · exact Kept.ite (Kept.refl s) ((onXlt_kept ..).trans (openEntry_kept ..))

end Sys2Proof.Machine
end

