-- ==== Sys2Proof/Laws/KeptFurLoad.lean ====
section
/-! SUPPORT. What each operation of Machine/FurLoad.lean keeps. -/

namespace Sys2Proof.Machine

theorem hubPiece_kept (key : Nat) (ctx : Nat) (plot : Nat) (node : Nat) (op : Nat) (off : Nat) (len : Nat) (data : List Byte) (s : State) : Kept s (hubPiece key ctx plot node op off len data s).2 := by
  unfold hubPiece
  try dsimp only
  repeat' first
    | with_reducible apply Kept.ite
    | with_reducible apply Kept.refl
    | with_reducible assumption
    | with_reducible apply bump_kept
    | with_reducible apply Kept.trans ?_ (bump_kept ..)
    | with_reducible apply memCheck_kept
    | with_reducible apply Kept.trans ?_ (memCheck_kept ..)
    | with_reducible apply unitAccess_kept
    | with_reducible apply Kept.trans ?_ (unitAccess_kept ..)
    | with_reducible apply piecePut_kept
    | with_reducible apply Kept.trans ?_ (piecePut_kept ..)
    | split

theorem hubEnds_kept (key : Nat) (q : HubRes × State) : Kept q.2 (hubEnds key q).2 := by
  unfold hubEnds
  split
  · exact Kept.refl _
  · exact unitDone_kept ..

theorem hubRead_kept (key : Nat) (ctx : Nat) (plot : Nat) (node : Nat) (off : Nat) (len : Nat) (s : State) : Kept s (hubRead key ctx plot node off len s).2 := by
  unfold hubRead
  try dsimp only
  repeat' first
    | with_reducible apply Kept.ite
    | with_reducible apply Kept.refl
    | with_reducible assumption
    | with_reducible apply hubEnds_kept
    | with_reducible apply Kept.trans ?_ (hubEnds_kept ..)
    | with_reducible apply hubPiece_kept
    | with_reducible apply Kept.trans ?_ (hubPiece_kept ..)
    | with_reducible exact Kept.foldl_snd (fun _ _ => ?_) _ _
    | with_reducible apply Kept.foldl_snd (fun _ _ => ?_) _ _
    | with_reducible apply Kept.foldl_fst (fun _ _ => ?_) _ _
    | with_reducible apply Kept.foldl_snd_snd (fun _ _ => ?_) _ _ _
    | split

theorem hubWrite_kept (key : Nat) (ctx : Nat) (plot : Nat) (node : Nat) (off : Nat) (data : List Byte) (s : State) : Kept s (hubWrite key ctx plot node off data s).2 := by
  unfold hubWrite
  try dsimp only
  repeat' first
    | with_reducible apply Kept.ite
    | with_reducible apply Kept.refl
    | with_reducible assumption
    | with_reducible apply hubEnds_kept
    | with_reducible apply Kept.trans ?_ (hubEnds_kept ..)
    | with_reducible apply hubPiece_kept
    | with_reducible apply Kept.trans ?_ (hubPiece_kept ..)
    | with_reducible exact Kept.foldl_snd (fun _ _ => ?_) _ _
    | with_reducible apply Kept.foldl_snd (fun _ _ => ?_) _ _
    | with_reducible apply Kept.foldl_fst (fun _ _ => ?_) _ _
    | with_reducible apply Kept.foldl_snd_snd (fun _ _ => ?_) _ _ _
    | split

theorem hubCommand_kept (c : HubCmd) (q : Bool × State) : Kept q.2 (hubCommand c q) := by
  unfold hubCommand
  apply Kept.trans ?_ (regAck_kept ..)
  split
  · exact Kept.refl _
  · exact onPool_kept ..

theorem furResult_kept (c : Nat) (status : Nat) (reason : Nat) (index : Nat) (s : State) : Kept s (furResult c status reason index s) := by
  unfold furResult
  try dsimp only
  repeat' first
    | with_reducible apply Kept.ite
    | with_reducible apply Kept.refl
    | with_reducible assumption
    | with_reducible apply onCore_kept

theorem loadEnds_kept (c : Nat) (s : State) : Kept s (loadEnds c s) := by
  unfold loadEnds
  try dsimp only
  repeat' first
    | with_reducible apply Kept.ite
    | with_reducible apply Kept.refl
    | with_reducible assumption
    | with_reducible apply unitDone_kept
    | with_reducible apply Kept.trans ?_ (unitDone_kept ..)
    | with_reducible apply furResult_kept
    | with_reducible apply Kept.trans ?_ (furResult_kept ..)
    | with_reducible apply onCore_kept

theorem tilthEnds_kept (c : Nat) (s : State) : Kept s (tilthEnds c s) := by
  unfold tilthEnds
  exact Kept.ite (((onChk_kept ..).trans (onCore_kept ..)).trans (spad_kept _ _ (Mem.wf_zero _ _ _))) (Kept.refl _)

theorem loadStart_kept (c : Nat) (s : State) : Kept s (loadStart c s) := by
  unfold loadStart
  try dsimp only
  repeat' first
    | with_reducible apply Kept.ite
    | with_reducible apply Kept.refl
    | with_reducible assumption
    | with_reducible apply furResult_kept
    | with_reducible apply Kept.trans ?_ (furResult_kept ..)
    | with_reducible apply tilthEnds_kept
    | with_reducible apply Kept.trans ?_ (tilthEnds_kept ..)
    | with_reducible apply onCore_kept
    | with_reducible apply Kept.trans ?_ (onCore_kept ..)

theorem loadRefuse_kept (c : Nat) (reason : Nat) (index : Nat) (s : State) : Kept s (loadRefuse c reason index s) := by
  unfold loadRefuse
  try dsimp only
  repeat' first
    | with_reducible apply Kept.ite
    | with_reducible apply Kept.refl
    | with_reducible assumption
    | with_reducible apply furResult_kept
    | with_reducible apply Kept.trans ?_ (furResult_kept ..)
    | with_reducible apply bump_kept
    | with_reducible apply Kept.trans ?_ (bump_kept ..)
    | with_reducible apply onCore_kept

theorem imagePlaced_kept (c : Nat) (x : Image) (s : State) : Kept s (imagePlaced c x s) := by
  unfold imagePlaced
  try dsimp only
  repeat' first
    | with_reducible apply Kept.ite
    | with_reducible apply Kept.refl
    | with_reducible assumption
    | with_reducible apply spadStore_kept
    | with_reducible apply Kept.trans ?_ (spadStore_kept ..)

theorem loadInstall_kept (c : Nat) (x : Image) (s : State) : Kept s (loadInstall c x s) := by
  unfold loadInstall
  try dsimp only
  repeat' first
    | with_reducible apply Kept.ite
    | with_reducible apply Kept.refl
    | with_reducible assumption
    | with_reducible apply onWatch_kept
    | with_reducible apply Kept.trans ?_ (onWatch_kept ..)
    | with_reducible apply imagePlaced_kept
    | with_reducible apply Kept.trans ?_ (imagePlaced_kept ..)
    | with_reducible apply onCore_kept
    | with_reducible apply Kept.trans ?_ (onCore_kept ..)
    | with_reducible apply furResult_kept
    | with_reducible apply Kept.trans ?_ (furResult_kept ..)
    | with_reducible apply Kept.trans ?_ (Kept.forAll (fun _ _ => ?_) _)

theorem loadDone_kept (c : Nat) (s : State) : Kept s (loadDone c s) := by
  unfold loadDone
  extract_lets e1 e2
  have k2 : Kept s e2.2 := by
    repeat' first
      | with_reducible apply Kept.ite
      | with_reducible apply Kept.refl
      | with_reducible assumption
      | with_reducible apply loadRefuse_kept
      | with_reducible apply Kept.trans ?_ (loadRefuse_kept ..)
      | with_reducible apply hubRead_kept
  clear_value e2
  repeat' first
    | with_reducible apply Kept.ite
    | with_reducible apply Kept.refl
    | with_reducible assumption
    | with_reducible apply loadRefuse_kept
    | with_reducible apply Kept.trans ?_ (loadRefuse_kept ..)
    | with_reducible apply hubRead_kept
    | with_reducible apply Kept.trans ?_ (hubRead_kept ..)
    | with_reducible apply furResult_kept
    | with_reducible apply Kept.trans ?_ (furResult_kept ..)
    | with_reducible apply onCore_kept
    | with_reducible apply Kept.trans ?_ (onCore_kept ..)
    | with_reducible apply loadInstall_kept
    | with_reducible apply Kept.trans ?_ (loadInstall_kept ..)
    | split

theorem coreStart_kept (c : Nat) (mask : Nat) (ctx : Nat) (s : State) : Kept s (coreStart c mask ctx s) := by
  unfold coreStart
  try dsimp only
  repeat' first
    | with_reducible apply Kept.ite
    | with_reducible apply Kept.refl
    | with_reducible assumption
    | with_reducible apply furResult_kept
    | with_reducible apply Kept.trans ?_ (furResult_kept ..)
    | with_reducible apply onThread_kept
    | with_reducible apply Kept.trans ?_ (onThread_kept ..)
    | with_reducible apply onCore_kept
    | with_reducible apply Kept.trans ?_ (onCore_kept ..)
    | with_reducible apply Kept.trans ?_ (Kept.forAll (fun _ _ => ?_) _)
    | split

theorem releaseWatches_kept (c : Nat) (t : Nat) (s : State) : Kept s (releaseWatches c t s) := by
  unfold releaseWatches
  try dsimp only
  repeat' first
    | with_reducible apply Kept.ite
    | with_reducible apply Kept.refl
    | with_reducible assumption
    | with_reducible apply unarm_kept
    | with_reducible apply Kept.trans ?_ (unarm_kept ..)
    | with_reducible apply Kept.trans ?_ (Kept.forAll (fun _ _ => ?_) _)

theorem stopThread_kept (c : Nat) (t : Nat) (s : State) : Kept s (stopThread c t s) := by
  unfold stopThread
  extract_lets e1 e2 e3
  have k1 : Kept s e1 := by
    repeat' first
      | with_reducible apply Kept.ite
      | with_reducible apply Kept.refl
      | with_reducible assumption
      | with_reducible apply releaseWatches_kept
  clear_value e1
  have k2 : Kept s e2 := by
    repeat' first
      | with_reducible apply Kept.ite
      | with_reducible apply Kept.refl
      | with_reducible assumption
      | with_reducible apply releaseWatches_kept
      | with_reducible apply Kept.trans ?_ (releaseWatches_kept ..)
      | with_reducible apply onThread_kept
      | with_reducible apply Kept.trans ?_ (onThread_kept ..)
  clear_value e2
  repeat' first
    | with_reducible apply Kept.ite
    | with_reducible apply Kept.refl
    | with_reducible assumption
    | with_reducible apply releaseWatches_kept
    | with_reducible apply Kept.trans ?_ (releaseWatches_kept ..)
    | with_reducible apply onThread_kept
    | with_reducible apply Kept.trans ?_ (onThread_kept ..)
    | with_reducible apply haltCheck_kept
    | with_reducible apply Kept.trans ?_ (haltCheck_kept ..)
    | with_reducible apply finishInc_kept
    | with_reducible apply Kept.trans ?_ (finishInc_kept ..)
    | with_reducible apply Kept.trans ?_ (Kept.forAll (fun _ _ => ?_) _)

theorem coreStop_kept (c : Nat) (mask : Nat) (s : State) : Kept s (coreStop c mask s) := by
  unfold coreStop
  try dsimp only
  repeat' first
    | with_reducible apply Kept.ite
    | with_reducible apply Kept.refl
    | with_reducible assumption
    | with_reducible apply furResult_kept
    | with_reducible apply Kept.trans ?_ (furResult_kept ..)
    | with_reducible apply stopThread_kept
    | with_reducible apply Kept.trans ?_ (stopThread_kept ..)
    | with_reducible apply Kept.trans ?_ (Kept.forAll (fun _ _ => ?_) _)

theorem dropSlots_kept (c : Nat) (s : State) : Kept s (dropSlots c s) := by
  unfold dropSlots
  try dsimp only
  repeat' first
    | with_reducible apply Kept.ite
    | with_reducible apply Kept.refl
    | with_reducible assumption
    | with_reducible apply bump_kept
    | with_reducible apply Kept.trans ?_ (bump_kept ..)
    | with_reducible apply onCore_kept

theorem dropWatches_kept (c : Nat) (s : State) : Kept s (dropWatches c s) := by
  unfold dropWatches
  try dsimp only
  repeat' first
    | with_reducible apply Kept.ite
    | with_reducible apply Kept.refl
    | with_reducible assumption
    | with_reducible apply onSync_kept

theorem coreUnload_kept (c : Nat) (s : State) : Kept s (coreUnload c s) := by
  unfold coreUnload
  try dsimp only
  repeat' first
    | with_reducible apply Kept.ite
    | with_reducible apply Kept.refl
    | with_reducible assumption
    | with_reducible apply furResult_kept
    | with_reducible apply Kept.trans ?_ (furResult_kept ..)
    | with_reducible apply dropWatches_kept
    | with_reducible apply Kept.trans ?_ (dropWatches_kept ..)
    | with_reducible apply dropSlots_kept
    | with_reducible apply Kept.trans ?_ (dropSlots_kept ..)
    | with_reducible apply onCore_kept
    | with_reducible apply Kept.trans ?_ (onCore_kept ..)

end Sys2Proof.Machine
end

