-- ==== Sys2Proof/Laws/KeptResetOps.lean ====
section
/-! SUPPORT. What each operation of Machine/ResetOps.lean keeps. -/

namespace Sys2Proof.Machine

theorem openerGone_kept (node : Nat) (s : State) : Kept s (openerGone node s) := by
  unfold openerGone
  try dsimp only
  repeat' first
    | with_reducible apply Kept.ite
    | with_reducible apply Kept.refl
    | with_reducible assumption
    | with_reducible apply onPool_kept

theorem abortGroups_kept (p : Group → Option Nat) (reason : Nat) (s : State) : Kept s (abortGroups p reason s) := by
  unfold abortGroups
  try dsimp only
  repeat' first
    | with_reducible apply Kept.ite
    | with_reducible apply Kept.refl
    | with_reducible assumption
    | with_reducible apply abortSeq_kept
    | with_reducible apply Kept.trans ?_ (abortSeq_kept ..)
    | with_reducible apply Kept.trans ?_ (Kept.forAll (fun _ _ => ?_) _)

theorem memberLost_kept (node : Nat) (s : State) : Kept s (memberLost node s) := by
  unfold memberLost
  try dsimp only
  repeat' first
    | with_reducible apply Kept.ite
    | with_reducible apply Kept.refl
    | with_reducible assumption
    | with_reducible apply abortGroups_kept

theorem abortPlot_kept (n : Nat) (s : State) : Kept s (abortPlot n s) := by
  unfold abortPlot
  try dsimp only
  repeat' first
    | with_reducible apply Kept.ite
    | with_reducible apply Kept.refl
    | with_reducible assumption
    | with_reducible apply abortGroups_kept

theorem dropWaiters_kept (c : Nat) (s : State) : Kept s (dropWaiters c s) := by
  unfold dropWaiters
  try dsimp only
  repeat' first
    | with_reducible apply Kept.ite
    | with_reducible apply Kept.refl
    | with_reducible assumption
    | with_reducible apply onXlt_kept

theorem coreDown_kept (c : Nat) (s : State) : Kept s (coreDown c s) := by
  unfold coreDown
  extract_lets e1 e2 e3 e4 e5 e6
  have k1 : Kept s e1 := by
    repeat' first
      | with_reducible apply Kept.ite
      | with_reducible apply Kept.refl
      | with_reducible assumption
      | with_reducible apply tilthEnds_kept
  clear_value e1
  have k3 : Kept s e3 := by
    repeat' first
      | with_reducible apply Kept.ite
      | with_reducible apply Kept.refl
      | with_reducible assumption
      | with_reducible apply tilthEnds_kept
      | with_reducible apply Kept.trans ?_ (tilthEnds_kept ..)
      | with_reducible apply onCore_kept
      | with_reducible apply Kept.trans ?_ (onCore_kept ..)
  clear_value e3
  have k4 : Kept s e4 := by
    repeat' first
      | with_reducible apply Kept.ite
      | with_reducible apply Kept.refl
      | with_reducible assumption
      | with_reducible apply tilthEnds_kept
      | with_reducible apply Kept.trans ?_ (tilthEnds_kept ..)
      | with_reducible apply onCore_kept
      | with_reducible apply Kept.trans ?_ (onCore_kept ..)
      | with_reducible apply writeOut_kept
      | with_reducible apply Kept.trans ?_ (writeOut_kept ..)
      | with_reducible apply loadEnds_kept
      | with_reducible apply Kept.trans ?_ (loadEnds_kept ..)
      | with_reducible apply dropWaiters_kept
      | with_reducible apply Kept.trans ?_ (dropWaiters_kept ..)
      | with_reducible apply dropWatches_kept
      | with_reducible apply Kept.trans ?_ (dropWatches_kept ..)
      | with_reducible apply dropSlots_kept
      | with_reducible apply Kept.trans ?_ (dropSlots_kept ..)
      | with_reducible apply memberLost_kept
      | with_reducible apply Kept.trans ?_ (memberLost_kept ..)
      | with_reducible apply openerGone_kept
      | with_reducible apply Kept.trans ?_ (openerGone_kept ..)
      | with_reducible apply onPool_kept
      | with_reducible apply Kept.trans ?_ (onPool_kept ..)
      | with_reducible apply Kept.trans ?_ (Kept.forAll (fun _ _ => ?_) _)
  clear_value e4
  have k5 : Kept s e5 := by
    repeat' first
      | with_reducible apply Kept.ite
      | with_reducible apply Kept.refl
      | with_reducible assumption
      | with_reducible apply tilthEnds_kept
      | with_reducible apply Kept.trans ?_ (tilthEnds_kept ..)
      | with_reducible apply onCore_kept
      | with_reducible apply Kept.trans ?_ (onCore_kept ..)
      | with_reducible apply writeOut_kept
      | with_reducible apply Kept.trans ?_ (writeOut_kept ..)
      | with_reducible apply loadEnds_kept
      | with_reducible apply Kept.trans ?_ (loadEnds_kept ..)
      | with_reducible apply dropWaiters_kept
      | with_reducible apply Kept.trans ?_ (dropWaiters_kept ..)
      | with_reducible apply dropWatches_kept
      | with_reducible apply Kept.trans ?_ (dropWatches_kept ..)
      | with_reducible apply dropSlots_kept
      | with_reducible apply Kept.trans ?_ (dropSlots_kept ..)
      | with_reducible apply memberLost_kept
      | with_reducible apply Kept.trans ?_ (memberLost_kept ..)
      | with_reducible apply openerGone_kept
      | with_reducible apply Kept.trans ?_ (openerGone_kept ..)
      | with_reducible apply onPool_kept
      | with_reducible apply Kept.trans ?_ (onPool_kept ..)
  clear_value e5
  have k6 : Kept s e6 := by
    repeat' first
      | with_reducible apply Kept.ite
      | with_reducible apply Kept.refl
      | with_reducible assumption
      | with_reducible apply tilthEnds_kept
      | with_reducible apply Kept.trans ?_ (tilthEnds_kept ..)
      | with_reducible apply onCore_kept
      | with_reducible apply Kept.trans ?_ (onCore_kept ..)
      | with_reducible apply writeOut_kept
      | with_reducible apply Kept.trans ?_ (writeOut_kept ..)
      | with_reducible apply loadEnds_kept
      | with_reducible apply Kept.trans ?_ (loadEnds_kept ..)
  clear_value e6
  repeat' first
    | with_reducible apply Kept.ite
    | with_reducible apply Kept.refl
    | with_reducible assumption
    | with_reducible apply tilthEnds_kept
    | with_reducible apply Kept.trans ?_ (tilthEnds_kept ..)
    | with_reducible apply onCore_kept
    | with_reducible apply Kept.trans ?_ (onCore_kept ..)
    | with_reducible apply writeOut_kept
    | with_reducible apply Kept.trans ?_ (writeOut_kept ..)
    | with_reducible apply loadEnds_kept
    | with_reducible apply Kept.trans ?_ (loadEnds_kept ..)
    | with_reducible apply dropWaiters_kept
    | with_reducible apply Kept.trans ?_ (dropWaiters_kept ..)
    | with_reducible apply dropWatches_kept
    | with_reducible apply Kept.trans ?_ (dropWatches_kept ..)
    | with_reducible apply dropSlots_kept
    | with_reducible apply Kept.trans ?_ (dropSlots_kept ..)
    | with_reducible apply memberLost_kept
    | with_reducible apply Kept.trans ?_ (memberLost_kept ..)
    | with_reducible apply openerGone_kept
    | with_reducible apply Kept.trans ?_ (openerGone_kept ..)

theorem coreClear_kept (c : Nat) (s : State) : Kept s (coreClear c s) := by
  unfold coreClear
  extract_lets e1 e2 e3
  have k1 : Kept s e1 := (loadEnds_kept ..).trans (onCore_kept ..)
  have k3 : Kept s e3 := (k1.trans (onXlt_kept ..)).trans (onChk_kept ..)
  exact k3.trans (spad_kept _ _ (Mem.wf_zero _ _ _))

theorem coreReplace_kept (c : Nat) (s : State) : Kept s (coreReplace c s) := by
  unfold coreReplace
  try dsimp only
  repeat' first
    | with_reducible apply Kept.ite
    | with_reducible apply Kept.refl
    | with_reducible assumption
    | with_reducible apply onCore_kept
    | with_reducible apply Kept.trans ?_ (onCore_kept ..)
    | with_reducible apply raise_kept
    | with_reducible apply Kept.trans ?_ (raise_kept ..)
    | with_reducible apply bump_kept
    | with_reducible apply Kept.trans ?_ (bump_kept ..)
    | (with_reducible apply Kept.trans ?_ (onBoot_kept _ _ ?_)) <;> [skip; rfl]
    | with_reducible apply drawn_kept
    | with_reducible apply Kept.trans ?_ (drawn_kept ..)

theorem resetDone_kept (scope : Nat) (target : Nat) (commanded : Bool) (s : State) : Kept s (resetDone scope target commanded s) := by
  unfold resetDone
  try dsimp only
  repeat' first
    | with_reducible apply Kept.ite
    | with_reducible apply Kept.refl
    | with_reducible assumption
    | with_reducible apply raise_kept
    | with_reducible apply Kept.trans ?_ (raise_kept ..)
    | (with_reducible apply Kept.trans ?_ (onBoot_kept _ _ ?_)) <;> [skip; rfl]

theorem resetBegins_kept (r : RstRun) (s : State) : Kept s (resetBegins r s) := by
  unfold resetBegins
  try dsimp only
  repeat' first
    | with_reducible apply Kept.ite
    | with_reducible apply Kept.refl
    | with_reducible assumption
    | (with_reducible apply onBoot_kept) <;> rfl

theorem resetTurn_kept (s : State) : Kept s (resetTurn s) := by
  unfold resetTurn
  try dsimp only
  repeat' first
    | with_reducible apply Kept.ite
    | with_reducible apply Kept.refl
    | with_reducible assumption
    | with_reducible apply coreDown_kept
    | with_reducible apply Kept.trans ?_ (coreDown_kept ..)
    | with_reducible apply resetBegins_kept
    | with_reducible apply Kept.trans ?_ (resetBegins_kept ..)
    | (with_reducible apply onBoot_kept) <;> rfl
    | split

theorem coreResetEnds_kept (c : Nat) (s : State) : Kept s (coreResetEnds c s) := by
  unfold coreResetEnds
  extract_lets e1
  have k1 : Kept s e1 := by
    repeat' first
      | with_reducible apply Kept.ite
      | with_reducible apply Kept.refl
      | with_reducible assumption
      | with_reducible apply bump_kept
      | with_reducible apply Kept.trans ?_ (bump_kept ..)
      | with_reducible apply coreClear_kept
  clear_value e1
  repeat' first
    | with_reducible apply Kept.ite
    | with_reducible apply Kept.refl
    | with_reducible assumption
    | with_reducible apply bump_kept
    | with_reducible apply Kept.trans ?_ (bump_kept ..)
    | with_reducible apply coreClear_kept
    | with_reducible apply Kept.trans ?_ (coreClear_kept ..)
    | with_reducible apply resetTurn_kept
    | with_reducible apply Kept.trans ?_ (resetTurn_kept ..)
    | with_reducible apply resetDone_kept
    | with_reducible apply Kept.trans ?_ (resetDone_kept ..)
    | with_reducible apply coreReplace_kept
    | with_reducible apply Kept.trans ?_ (coreReplace_kept ..)
    | split

theorem deviceReset_kept (keepLog : Bool) (drained : Bool) (s : State) : Kept s (deviceReset keepLog drained s) := by
  unfold deviceReset
  extract_lets e1 e2 e3 e4
  have k1 : Kept s e1 := Kept.ite (Kept.forAll (fun _ _ => writeBack_kept ..) _) (chipDrop_kept ..)
  exact ⟨fun h => Mem.wf_keep (fun a _ => inTier3 a) e1.mem (k1.mem h), fun _ => Mem.wf_nil, fun _ => Mem.wf_nil, k1.queue, k1.out⟩

theorem drainTurn_kept (s : State) : Kept s (drainTurn s) := by
  unfold drainTurn
  try dsimp only
  repeat' first
    | with_reducible apply Kept.ite
    | with_reducible apply Kept.refl
    | with_reducible assumption
    | with_reducible apply deviceReset_kept

theorem engineOff_kept (c : Nat) (e : Nat) (cause : Nat) (s : State) : Kept s (engineOff c e cause s) := by
  unfold engineOff
  try dsimp only
  repeat' first
    | with_reducible apply Kept.ite
    | with_reducible apply Kept.refl
    | with_reducible assumption
    | with_reducible apply onCore_kept
    | with_reducible apply Kept.trans ?_ (onCore_kept ..)
    | with_reducible apply raise_kept
    | with_reducible apply Kept.trans ?_ (raise_kept ..)
    | with_reducible apply bump_kept
    | with_reducible apply Kept.trans ?_ (bump_kept ..)

theorem applyMask_kept (c : Nat) (s : State) : Kept s (applyMask c s) := by
  unfold applyMask
  try dsimp only
  repeat' first
    | with_reducible apply Kept.ite
    | with_reducible apply Kept.refl
    | with_reducible assumption
    | with_reducible apply engineOff_kept
    | with_reducible apply Kept.trans ?_ (engineOff_kept ..)
    | with_reducible apply Kept.trans ?_ (Kept.forAll (fun _ _ => ?_) _)

theorem katReplace_kept (c : Nat) (s : State) : Kept s (katReplace c s) := by
  unfold katReplace
  try dsimp only
  repeat' first
    | with_reducible apply Kept.ite
    | with_reducible apply Kept.refl
    | with_reducible assumption
    | with_reducible apply coreReplace_kept
    | with_reducible apply Kept.trans ?_ (coreReplace_kept ..)
    | with_reducible apply onCore_kept
    | with_reducible apply Kept.trans ?_ (onCore_kept ..)

theorem maskReplace_kept (c : Nat) (s : State) : Kept s (maskReplace c s) := by
  unfold maskReplace
  try dsimp only
  repeat' first
    | with_reducible apply Kept.ite
    | with_reducible apply Kept.refl
    | with_reducible assumption
    | with_reducible apply katReplace_kept

theorem katFails_kept (f : KatFail) (s : State) : Kept s (katFails f s) := by
  unfold katFails
  try dsimp only
  repeat' first
    | with_reducible apply Kept.ite
    | with_reducible apply Kept.refl
    | with_reducible assumption
    | with_reducible apply bump_kept
    | with_reducible apply Kept.trans ?_ (bump_kept ..)
    | with_reducible apply engineOff_kept
    | with_reducible apply Kept.trans ?_ (engineOff_kept ..)
    | with_reducible apply katReplace_kept
    | with_reducible apply Kept.trans ?_ (katReplace_kept ..)
    | with_reducible apply onPort_kept
    | with_reducible apply Kept.trans ?_ (onPort_kept ..)
    | with_reducible apply raise_kept
    | with_reducible apply Kept.trans ?_ (raise_kept ..)
    | (with_reducible apply Kept.trans ?_ (onBoot_kept _ _ ?_)) <;> [skip; rfl]
    | split

end Sys2Proof.Machine
end

