-- ==== Sys2Proof/Laws/KeptPortOps.lean ====
section
/-! SUPPORT. What each operation of Machine/PortOps.lean keeps. -/

namespace Sys2Proof.Machine

theorem onLane_kept (e : Nat) (j : Nat) (f : Lane → Lane) (s : State) : Kept s (State.onLane e j f s) := by
  unfold State.onLane
  try dsimp only
  repeat' first
    | with_reducible apply Kept.ite
    | with_reducible apply Kept.refl
    | with_reducible assumption
    | with_reducible apply onPorts_kept

theorem setLanes_kept (p : Nat) (st : LaneSt) (s : State) : Kept s (setLanes p st s) := by
  unfold setLanes
  try dsimp only
  repeat' first
    | with_reducible apply Kept.ite
    | with_reducible apply Kept.refl
    | with_reducible assumption
    | with_reducible apply onLane_kept
    | with_reducible apply Kept.trans ?_ (onLane_kept ..)
    | with_reducible apply Kept.trans ?_ (Kept.forAll (fun _ _ => ?_) _)

theorem setCdr_kept (p : Nat) (on : Bool) (s : State) : Kept s (setCdr p on s) := by
  unfold setCdr
  try dsimp only
  repeat' first
    | with_reducible apply Kept.ite
    | with_reducible apply Kept.refl
    | with_reducible assumption
    | with_reducible apply onLane_kept
    | with_reducible apply Kept.trans ?_ (onLane_kept ..)
    | with_reducible apply Kept.trans ?_ (Kept.forAll (fun _ _ => ?_) _)

theorem dealLanes_kept (p : Nat) (s : State) : Kept s (dealLanes p s) := by
  unfold dealLanes
  try dsimp only
  repeat' first
    | with_reducible apply Kept.ite
    | with_reducible apply Kept.refl
    | with_reducible assumption
    | with_reducible apply onPort_kept

theorem portDrop_kept (p : Nat) (s : State) : Kept s (portDrop p s) := by
  unfold portDrop
  extract_lets r e1 fr g e2 e3 e4 e5 e6
  have k1 : Kept s e1 := (dropRecords_kept ..).trans (Kept.forAll (fun _ _ => failRecord_kept ..) _)
  have k2 : Kept s e2 := k1.trans (onSw_kept ..)
  have k3 : Kept s e3 := k2.trans (Kept.forAll (fun _ _ => (leftIngress_kept ..).trans (failReq_kept ..)) _)
  have k4 : Kept s e4 := Kept.ite k3 (k3.trans (bump_kept ..))
  have k5 : Kept s e5 := (k4.trans (openerGone_kept ..)).trans (memberLost_kept ..)
  have k6 : Kept s e6 := Kept.ite (k5.trans (timeUnlock_kept ..)) k5
  exact k6.trans (onKey_kept ..)

theorem retrainEvent_kept (p : Nat) (since : Nat) (cause : Nat) (s : State) : Kept s (retrainEvent p since cause s) := by
  unfold retrainEvent
  try dsimp only
  repeat' first
    | with_reducible apply Kept.ite
    | with_reducible apply Kept.refl
    | with_reducible assumption
    | with_reducible apply raise_kept

theorem portDown_kept (p : Nat) (s : State) : Kept s (portDown p s) := by
  unfold portDown
  try dsimp only
  repeat' first
    | with_reducible apply Kept.ite
    | with_reducible apply Kept.refl
    | with_reducible assumption
    | with_reducible apply retrainEvent_kept
    | with_reducible apply Kept.trans ?_ (retrainEvent_kept ..)
    | with_reducible apply onPort_kept
    | with_reducible apply Kept.trans ?_ (onPort_kept ..)
    | with_reducible apply onLane_kept
    | with_reducible apply Kept.trans ?_ (onLane_kept ..)
    | with_reducible apply Kept.trans ?_ (Kept.forAll (fun _ _ => ?_) _)
    | split

theorem portLost_kept (p : Nat) (cause : Nat) (lanes : Nat) (s : State) : Kept s (portLost p cause lanes s) := by
  unfold portLost
  try dsimp only
  repeat' first
    | with_reducible apply Kept.ite
    | with_reducible apply Kept.refl
    | with_reducible assumption
    | with_reducible apply raise_kept
    | with_reducible apply Kept.trans ?_ (raise_kept ..)
    | with_reducible apply bump_kept
    | with_reducible apply Kept.trans ?_ (bump_kept ..)
    | with_reducible apply portDown_kept
    | with_reducible apply Kept.trans ?_ (portDown_kept ..)
    | with_reducible apply portDrop_kept

theorem swapCheck_kept (p : Nat) (s : State) : Kept s (swapCheck p s) := by
  unfold swapCheck
  try dsimp only
  repeat' first
    | with_reducible apply Kept.ite
    | with_reducible apply Kept.refl
    | with_reducible assumption
    | with_reducible apply raise_kept
    | with_reducible apply Kept.trans ?_ (raise_kept ..)
    | with_reducible apply bump_kept
    | with_reducible apply Kept.trans ?_ (bump_kept ..)
    | with_reducible apply Kept.trans ?_ (Kept.forAll (fun _ _ => ?_) _)

theorem portFallow_kept (p : Nat) (reason : Nat) (s : State) : Kept s (portFallow p reason s) := by
  unfold portFallow
  try dsimp only
  repeat' first
    | with_reducible apply Kept.ite
    | with_reducible apply Kept.refl
    | with_reducible assumption
    | with_reducible apply onPort_kept
    | with_reducible apply Kept.trans ?_ (onPort_kept ..)
    | with_reducible apply raise_kept
    | with_reducible apply Kept.trans ?_ (raise_kept ..)
    | with_reducible apply setLanes_kept
    | with_reducible apply Kept.trans ?_ (setLanes_kept ..)
    | with_reducible apply swapCheck_kept
    | with_reducible apply Kept.trans ?_ (swapCheck_kept ..)

theorem sendIdent_kept (p : Nat) (s : State) : Kept s (sendIdent p s) := by
  unfold sendIdent
  try dsimp only
  repeat' first
    | with_reducible apply Kept.ite
    | with_reducible apply Kept.refl
    | with_reducible assumption
    | with_reducible apply linkSend_kept
    | with_reducible apply Kept.trans ?_ (linkSend_kept ..)
    | with_reducible apply onPort_kept

theorem degradedEvent_kept (p : Nat) (lane : Nat) (laid : Nat) (s : State) : Kept s (degradedEvent p lane laid s) := by
  unfold degradedEvent
  try dsimp only
  repeat' first
    | with_reducible apply Kept.ite
    | with_reducible apply Kept.refl
    | with_reducible assumption
    | with_reducible apply raise_kept

theorem activate_kept (p : Nat) (s : State) : Kept s (activate p s) := by
  unfold activate
  extract_lets e1 e2 e3
  have k : Kept s e2 := ((onPort_kept ..).trans (setLanes_kept ..)).trans (dealLanes_kept ..)
  cases e3 with
  | nil => exact k
  | cons i r => exact (k.trans (onPort_kept ..)).trans (degradedEvent_kept ..)

theorem sendKeyx_kept (p : Nat) (gen : Nat) (s : State) : Kept s (sendKeyx p gen s) := by
  unfold sendKeyx
  try dsimp only
  repeat' first
    | with_reducible apply Kept.ite
    | with_reducible apply Kept.refl
    | with_reducible assumption
    | with_reducible apply linkSend_kept
    | with_reducible apply Kept.trans ?_ (linkSend_kept ..)

theorem compareIdent_kept (p : Nat) (s : State) : Kept s (compareIdent p s) := by
  unfold compareIdent
  try dsimp only
  repeat' first
    | with_reducible apply Kept.ite
    | with_reducible apply Kept.refl
    | with_reducible assumption
    | with_reducible apply onPort_kept
    | with_reducible apply Kept.trans ?_ (onPort_kept ..)
    | with_reducible apply portFallow_kept
    | with_reducible apply Kept.trans ?_ (portFallow_kept ..)
    | with_reducible apply sendKeyx_kept
    | with_reducible apply Kept.trans ?_ (sendKeyx_kept ..)
    | with_reducible apply activate_kept
    | with_reducible apply Kept.trans ?_ (activate_kept ..)
    | split

theorem compareAgain_kept (p : Nat) (s : State) : Kept s (compareAgain p s) := by
  unfold compareAgain
  try dsimp only
  repeat' first
    | with_reducible apply Kept.ite
    | with_reducible apply Kept.refl
    | with_reducible assumption
    | with_reducible apply compareIdent_kept

theorem compareAll_kept (s : State) : Kept s (compareAll s) := by
  unfold compareAll
  try dsimp only
  repeat' first
    | with_reducible apply Kept.ite
    | with_reducible apply Kept.refl
    | with_reducible assumption
    | with_reducible apply compareAgain_kept
    | with_reducible apply Kept.trans ?_ (compareAgain_kept ..)
    | with_reducible apply Kept.trans ?_ (Kept.forAll (fun _ _ => ?_) _)

theorem portIdentifies_kept (p : Nat) (s : State) : Kept s (portIdentifies p s) := by
  unfold portIdentifies
  try dsimp only
  repeat' first
    | with_reducible apply Kept.ite
    | with_reducible apply Kept.refl
    | with_reducible assumption
    | with_reducible apply setLanes_kept
    | with_reducible apply Kept.trans ?_ (setLanes_kept ..)
    | with_reducible apply onPort_kept
    | with_reducible apply Kept.trans ?_ (onPort_kept ..)
    | with_reducible apply portFallow_kept
    | with_reducible apply Kept.trans ?_ (portFallow_kept ..)
    | with_reducible apply sendIdent_kept
    | with_reducible apply Kept.trans ?_ (sendIdent_kept ..)

theorem steerSpare_kept (e : Nat) (j : Nat) (k : Nat) (s : State) : Kept s (steerSpare e j k s) := by
  unfold steerSpare
  try dsimp only
  repeat' first
    | with_reducible apply Kept.ite
    | with_reducible apply Kept.refl
    | with_reducible assumption
    | with_reducible apply onLane_kept
    | with_reducible apply Kept.trans ?_ (onLane_kept ..)

theorem laneFails_kept (e : Nat) (j : Nat) (rxLost : Bool) (s : State) : Kept s (laneFails e j rxLost s) := by
  unfold laneFails
  extract_lets e1 e2 e3 e4 e5 e6 e7
  have k4 : Kept s e4 := by
    repeat' first
      | with_reducible apply Kept.ite
      | with_reducible apply Kept.refl
      | with_reducible assumption
      | with_reducible apply dealLanes_kept
      | with_reducible apply Kept.trans ?_ (dealLanes_kept ..)
      | with_reducible apply onLane_kept
  clear_value e4
  have k7 : Kept s e7 := by
    repeat' first
      | with_reducible apply Kept.ite
      | with_reducible apply Kept.refl
      | with_reducible assumption
      | with_reducible apply dealLanes_kept
      | with_reducible apply Kept.trans ?_ (dealLanes_kept ..)
      | with_reducible apply onLane_kept
      | with_reducible apply Kept.trans ?_ (onLane_kept ..)
      | with_reducible apply portLost_kept
      | with_reducible apply Kept.trans ?_ (portLost_kept ..)
      | with_reducible apply degradedEvent_kept
      | with_reducible apply Kept.trans ?_ (degradedEvent_kept ..)
      | with_reducible apply onPort_kept
      | with_reducible apply Kept.trans ?_ (onPort_kept ..)
  clear_value e7
  repeat' first
    | with_reducible apply Kept.ite
    | with_reducible apply Kept.refl
    | with_reducible assumption
    | with_reducible apply dealLanes_kept
    | with_reducible apply Kept.trans ?_ (dealLanes_kept ..)
    | with_reducible apply onLane_kept
    | with_reducible apply Kept.trans ?_ (onLane_kept ..)
    | with_reducible apply portLost_kept
    | with_reducible apply Kept.trans ?_ (portLost_kept ..)
    | with_reducible apply degradedEvent_kept
    | with_reducible apply Kept.trans ?_ (degradedEvent_kept ..)
    | with_reducible apply onPort_kept
    | with_reducible apply Kept.trans ?_ (onPort_kept ..)
    | with_reducible apply steerSpare_kept
    | with_reducible apply Kept.trans ?_ (steerSpare_kept ..)
    | split

theorem laneDies_kept (p : Nat) (lane : Nat) (s : State) : Kept s (laneDies p lane s) := by
  unfold laneDies
  try dsimp only
  repeat' first
    | with_reducible apply Kept.ite
    | with_reducible apply Kept.refl
    | with_reducible assumption
    | with_reducible apply laneFails_kept
    | with_reducible apply Kept.trans ?_ (laneFails_kept ..)
    | split

theorem codesBad_kept (p : Nat) (lane : Nat) (n : Nat) (s : State) : Kept s (codesBad p lane n s) := by
  unfold codesBad
  try dsimp only
  repeat' first
    | with_reducible apply Kept.ite
    | with_reducible apply Kept.refl
    | with_reducible assumption
    | with_reducible apply onPort_kept
    | with_reducible apply Kept.trans ?_ (onPort_kept ..)
    | with_reducible apply laneDies_kept
    | with_reducible apply Kept.trans ?_ (laneDies_kept ..)

theorem countCodewords_kept (p : Nat) (lane : Nat) (l : List Block) (s : State) : Kept s (countCodewords p lane l s) := by
  unfold countCodewords
  try dsimp only
  repeat' first
    | with_reducible apply Kept.ite
    | with_reducible apply Kept.refl
    | with_reducible assumption
    | with_reducible apply bump_kept
    | with_reducible apply Kept.trans ?_ (bump_kept ..)
    | with_reducible apply codesBad_kept
    | with_reducible apply Kept.trans ?_ (codesBad_kept ..)

theorem laneReads_kept (p : Nat) (lane : Nat) (n : Nat) (s : State) : Kept s (laneReads p lane n s) := by
  unfold laneReads
  try dsimp only
  repeat' first
    | with_reducible apply Kept.ite
    | with_reducible apply Kept.refl
    | with_reducible assumption
    | with_reducible apply bump_kept
    | with_reducible apply Kept.trans ?_ (bump_kept ..)
    | with_reducible apply onPort_kept

theorem laneFills_kept (p : Nat) (lane : Nat) (l : List Block) (s : State) : Kept s (laneFills p lane l s) := by
  unfold laneFills
  try dsimp only
  repeat' first
    | with_reducible apply Kept.ite
    | with_reducible apply Kept.refl
    | with_reducible assumption
    | with_reducible apply laneReads_kept
    | with_reducible apply Kept.trans ?_ (laneReads_kept ..)
    | with_reducible apply onPort_kept

theorem blocksArrive_kept (p : Nat) (l : List (Nat × List Block)) (s : State) : Kept s (blocksArrive p l s) := by
  unfold blocksArrive
  try dsimp only
  repeat' first
    | with_reducible apply Kept.ite
    | with_reducible apply Kept.refl
    | with_reducible assumption
    | with_reducible apply laneFills_kept
    | with_reducible apply Kept.trans ?_ (laneFills_kept ..)
    | with_reducible apply countCodewords_kept
    | with_reducible apply Kept.trans ?_ (countCodewords_kept ..)
    | with_reducible apply Kept.trans ?_ (Kept.forAll (fun _ _ => ?_) _)

theorem blockCycle_kept (p : Nat) (s : State) : Kept s (blockCycle p s) := by
  unfold blockCycle
  try dsimp only
  repeat' first
    | with_reducible apply Kept.ite
    | with_reducible apply Kept.refl
    | with_reducible assumption
    | with_reducible apply onPort_kept
    | with_reducible apply Kept.trans ?_ (onPort_kept ..)
    | with_reducible apply laneReads_kept
    | with_reducible apply Kept.trans ?_ (laneReads_kept ..)
    | with_reducible apply emit_kept
    | with_reducible apply Kept.trans ?_ (emit_kept ..)
    | with_reducible apply Kept.trans ?_ (Kept.forAll (fun _ _ => ?_) _)

theorem portTrains_kept (returns : Nat) (p : Nat) (s : State) : Kept s (portTrains returns p s) := by
  unfold portTrains
  try dsimp only
  repeat' first
    | with_reducible apply Kept.ite
    | with_reducible apply Kept.refl
    | with_reducible assumption
    | with_reducible apply onPort_kept
    | with_reducible apply Kept.trans ?_ (onPort_kept ..)
    | with_reducible apply onLane_kept
    | with_reducible apply Kept.trans ?_ (onLane_kept ..)
    | with_reducible apply Kept.trans ?_ (Kept.forAll (fun _ _ => ?_) _)

theorem laneConverges_kept (e : Nat) (l : LaneLock) (s : State) : Kept s (laneConverges e l s) := by
  unfold laneConverges
  try dsimp only
  repeat' first
    | with_reducible apply Kept.ite
    | with_reducible apply Kept.refl
    | with_reducible assumption
    | with_reducible apply onLane_kept
    | with_reducible apply Kept.trans ?_ (onLane_kept ..)
    | with_reducible apply onPort_kept
    | with_reducible apply Kept.trans ?_ (onPort_kept ..)

theorem laneLocks_kept (e : Nat) (j : Nat) (w : LaneWords) (s : State) : Kept s (laneLocks e j w s) := by
  unfold laneLocks
  try dsimp only
  repeat' first
    | with_reducible apply Kept.ite
    | with_reducible apply Kept.refl
    | with_reducible assumption
    | with_reducible apply laneFails_kept
    | with_reducible apply Kept.trans ?_ (laneFails_kept ..)
    | with_reducible apply onLane_kept
    | with_reducible apply Kept.trans ?_ (onLane_kept ..)
    | with_reducible apply portIdentifies_kept
    | with_reducible apply Kept.trans ?_ (portIdentifies_kept ..)
    | split

theorem trainAgain_kept (p : Nat) (s : State) : Kept s (trainAgain p s) := by
  unfold trainAgain
  try dsimp only
  repeat' first
    | with_reducible apply Kept.ite
    | with_reducible apply Kept.refl
    | with_reducible assumption
    | with_reducible apply portTrains_kept
    | with_reducible apply Kept.trans ?_ (portTrains_kept ..)
    | with_reducible apply raise_kept
    | with_reducible apply Kept.trans ?_ (raise_kept ..)
    | with_reducible apply portDown_kept
    | with_reducible apply Kept.trans ?_ (portDown_kept ..)
    | with_reducible apply onPort_kept

theorem trainExpires_kept (p : Nat) (s : State) : Kept s (trainExpires p s) := by
  unfold trainExpires
  try dsimp only
  repeat' first
    | with_reducible apply Kept.ite
    | with_reducible apply Kept.refl
    | with_reducible assumption
    | with_reducible apply trainAgain_kept

theorem slipCircuits_kept (e : Nat) (mask : Nat) (s : State) : Kept s (slipCircuits e mask s) := by
  unfold slipCircuits
  try dsimp only
  repeat' first
    | with_reducible apply Kept.ite
    | with_reducible apply Kept.refl
    | with_reducible assumption
    | with_reducible apply onLane_kept
    | with_reducible apply Kept.trans ?_ (onLane_kept ..)
    | with_reducible apply trainAgain_kept
    | with_reducible apply Kept.trans ?_ (trainAgain_kept ..)
    | with_reducible apply Kept.trans ?_ (Kept.forAll (fun _ _ => ?_) _)

theorem searchEnds_kept (e : Nat) (s : State) : Kept s (searchEnds e s) := by
  unfold searchEnds
  try dsimp only
  repeat' first
    | with_reducible apply Kept.ite
    | with_reducible apply Kept.refl
    | with_reducible assumption
    | with_reducible apply onPorts_kept

theorem searchTurn_kept (e : Nat) (s : State) : Kept s (searchTurn e s) := by
  unfold searchTurn
  try dsimp only
  repeat' first
    | with_reducible apply Kept.ite
    | with_reducible apply Kept.refl
    | with_reducible assumption
    | with_reducible apply searchEnds_kept
    | with_reducible apply Kept.trans ?_ (searchEnds_kept ..)
    | with_reducible apply trainAgain_kept
    | with_reducible apply Kept.trans ?_ (trainAgain_kept ..)
    | with_reducible apply slipCircuits_kept
    | with_reducible apply Kept.trans ?_ (slipCircuits_kept ..)
    | with_reducible apply onPorts_kept
    | with_reducible apply Kept.trans ?_ (onPorts_kept ..)
    | with_reducible apply Kept.trans ?_ (Kept.forAll (fun _ _ => ?_) _)

theorem portSleeps_kept (p : Nat) (s : State) : Kept s (portSleeps p s) := by
  unfold portSleeps
  try dsimp only
  repeat' first
    | with_reducible apply Kept.ite
    | with_reducible apply Kept.refl
    | with_reducible assumption
    | with_reducible apply timeUnlock_kept
    | with_reducible apply Kept.trans ?_ (timeUnlock_kept ..)
    | with_reducible apply linkSend_kept
    | with_reducible apply Kept.trans ?_ (linkSend_kept ..)
    | with_reducible apply onPort_kept
    | with_reducible apply Kept.trans ?_ (onPort_kept ..)

theorem portCommand_kept (p : Nat) (cmd : Nat) (s : State) : Kept s (portCommand p cmd s).2 := by
  unfold portCommand
  extract_lets e1 e2 e3 e4
  have k3 : Kept s e3 := by
    repeat' first
      | with_reducible apply Kept.ite
      | with_reducible apply Kept.refl
      | with_reducible assumption
      | with_reducible apply portTrains_kept
      | with_reducible apply Kept.trans ?_ (portTrains_kept ..)
      | with_reducible apply onPort_kept
  clear_value e3
  have k4 : Kept s e4 := by
    repeat' first
      | with_reducible apply Kept.ite
      | with_reducible apply Kept.refl
      | with_reducible assumption
      | with_reducible apply portTrains_kept
      | with_reducible apply Kept.trans ?_ (portTrains_kept ..)
      | with_reducible apply onPort_kept
  clear_value e4
  repeat' first
    | with_reducible apply Kept.ite
    | with_reducible apply Kept.refl
    | with_reducible assumption
    | with_reducible apply portTrains_kept
    | with_reducible apply Kept.trans ?_ (portTrains_kept ..)
    | with_reducible apply onPort_kept
    | with_reducible apply Kept.trans ?_ (onPort_kept ..)
    | with_reducible apply portLost_kept
    | with_reducible apply Kept.trans ?_ (portLost_kept ..)
    | with_reducible apply portDown_kept
    | with_reducible apply Kept.trans ?_ (portDown_kept ..)
    | with_reducible apply portDrop_kept
    | with_reducible apply Kept.trans ?_ (portDrop_kept ..)
    | with_reducible apply portSleeps_kept
    | with_reducible apply Kept.trans ?_ (portSleeps_kept ..)
    | with_reducible apply portFallow_kept
    | with_reducible apply Kept.trans ?_ (portFallow_kept ..)
    | with_reducible apply compareIdent_kept
    | with_reducible apply Kept.trans ?_ (compareIdent_kept ..)
    | with_reducible apply sendIdent_kept
    | with_reducible apply Kept.trans ?_ (sendIdent_kept ..)
    | split

theorem portByReg_kept (p : Nat) (cmd : Nat) (s : State) : Kept s (portByReg p cmd s) := by
  unfold portByReg
  try dsimp only
  repeat' first
    | with_reducible apply Kept.ite
    | with_reducible apply Kept.refl
    | with_reducible assumption
    | with_reducible apply portCommand_kept
    | with_reducible apply Kept.trans ?_ (portCommand_kept ..)
    | with_reducible apply regAck_kept
    | with_reducible apply Kept.trans ?_ (regAck_kept ..)
    | with_reducible apply onPorts_kept
    | with_reducible apply Kept.trans ?_ (onPorts_kept ..)

theorem portComes_kept (dict : Bool) (p : Nat) (cmd : Nat) (s : State) : Kept s (portComes dict p cmd s) := by
  unfold portComes
  try dsimp only
  repeat' first
    | with_reducible apply Kept.ite
    | with_reducible apply Kept.refl
    | with_reducible assumption
    | with_reducible apply portCommand_kept
    | with_reducible apply Kept.trans ?_ (portCommand_kept ..)
    | with_reducible apply Kept.trans ?_ (viaRegIn_kept (hf := fun _ => ?_) ..)
    | with_reducible apply portByReg_kept

theorem lightComes_kept (p : Nat) (s : State) : Kept s (lightComes p s) := by
  unfold lightComes
  try dsimp only
  repeat' first
    | with_reducible apply Kept.ite
    | with_reducible apply Kept.refl
    | with_reducible assumption
    | with_reducible apply portTrains_kept
    | with_reducible apply Kept.trans ?_ (portTrains_kept ..)
    | with_reducible apply onPort_kept

theorem retrainBegins_kept (p : Nat) (cause : Nat) (s : State) : Kept s (retrainBegins p cause s) := by
  unfold retrainBegins
  try dsimp only
  repeat' first
    | with_reducible apply Kept.ite
    | with_reducible apply Kept.refl
    | with_reducible assumption
    | with_reducible apply bump_kept
    | with_reducible apply Kept.trans ?_ (bump_kept ..)
    | with_reducible apply onPort_kept

theorem linkFrameOut_kept (p : Nat) (s : State) : Kept s (linkFrameOut p s) := by
  unfold linkFrameOut
  try dsimp only
  repeat' first
    | with_reducible apply Kept.ite
    | with_reducible apply Kept.refl
    | with_reducible assumption
    | with_reducible apply framesDealt_kept
    | with_reducible apply Kept.trans ?_ (framesDealt_kept ..)
    | with_reducible apply countFrame_kept
    | with_reducible apply Kept.trans ?_ (countFrame_kept ..)
    | with_reducible apply onPort_kept
    | with_reducible apply Kept.trans ?_ (onPort_kept ..)
    | with_reducible apply retrainBegins_kept
    | with_reducible apply Kept.trans ?_ (retrainBegins_kept ..)
    | with_reducible apply emit_kept
    | with_reducible apply Kept.trans ?_ (emit_kept ..)

theorem creditTurn_kept (p : Nat) (s : State) : Kept s (creditTurn p s) := by
  unfold creditTurn
  try dsimp only
  repeat' first
    | with_reducible apply Kept.ite
    | with_reducible apply Kept.refl
    | with_reducible assumption
    | with_reducible apply linkFrameOut_kept

theorem acceptSeq_kept (p : Nat) (s : State) : Kept s (acceptSeq p s) := by
  unfold acceptSeq
  try dsimp only
  repeat' first
    | with_reducible apply Kept.ite
    | with_reducible apply Kept.refl
    | with_reducible assumption
    | with_reducible apply linkFrameOut_kept
    | with_reducible apply Kept.trans ?_ (linkFrameOut_kept ..)
    | with_reducible apply onPort_kept

theorem dormantSettles_kept (p : Nat) (s : State) : Kept s (dormantSettles p s) := by
  unfold dormantSettles
  try dsimp only
  repeat' first
    | with_reducible apply Kept.ite
    | with_reducible apply Kept.refl
    | with_reducible assumption
    | with_reducible apply setCdr_kept
    | with_reducible apply Kept.trans ?_ (setCdr_kept ..)
    | with_reducible apply setLanes_kept
    | with_reducible apply Kept.trans ?_ (setLanes_kept ..)
    | with_reducible apply onPort_kept

theorem dormantExpires_kept (p : Nat) (s : State) : Kept s (dormantExpires p s) := by
  unfold dormantExpires
  try dsimp only
  repeat' first
    | with_reducible apply Kept.ite
    | with_reducible apply Kept.refl
    | with_reducible assumption
    | with_reducible apply portLost_kept
    | with_reducible apply Kept.trans ?_ (portLost_kept ..)
    | split

theorem planLoaded_kept (s : State) : Kept s (planLoaded s) := by
  unfold planLoaded
  try dsimp only
  repeat' first
    | with_reducible apply Kept.ite
    | with_reducible apply Kept.refl
    | with_reducible assumption
    | with_reducible apply onSw_kept

theorem portWakes_kept (p : Nat) (s : State) : Kept s (portWakes p s) := by
  unfold portWakes
  try dsimp only
  repeat' first
    | with_reducible apply Kept.ite
    | with_reducible apply Kept.refl
    | with_reducible assumption
    | with_reducible apply onPort_kept
    | with_reducible apply Kept.trans ?_ (onPort_kept ..)
    | with_reducible apply setCdr_kept
    | with_reducible apply Kept.trans ?_ (setCdr_kept ..)
    | with_reducible apply portFallow_kept
    | with_reducible apply Kept.trans ?_ (portFallow_kept ..)
    | with_reducible apply linkDrain_kept
    | with_reducible apply Kept.trans ?_ (linkDrain_kept ..)
    | with_reducible apply dealLanes_kept
    | with_reducible apply Kept.trans ?_ (dealLanes_kept ..)
    | with_reducible apply setLanes_kept
    | with_reducible apply Kept.trans ?_ (setLanes_kept ..)

theorem identAgain_kept (p : Nat) (s : State) : Kept s (identAgain p s) := by
  unfold identAgain
  try dsimp only
  repeat' first
    | with_reducible apply Kept.ite
    | with_reducible apply Kept.refl
    | with_reducible assumption
    | with_reducible apply sendIdent_kept

theorem planWaits_kept (p : Nat) (s : State) : Kept s (planWaits p s) := by
  unfold planWaits
  try dsimp only
  repeat' first
    | with_reducible apply Kept.ite
    | with_reducible apply Kept.refl
    | with_reducible assumption
    | with_reducible apply raise_kept
    | with_reducible apply Kept.trans ?_ (raise_kept ..)
    | with_reducible apply onPort_kept
    | with_reducible apply Kept.trans ?_ (onPort_kept ..)
    | split

theorem authFails_kept (p : Nat) (cause : Nat) (s : State) : Kept s (authFails p cause s) := by
  unfold authFails
  try dsimp only
  repeat' first
    | with_reducible apply Kept.ite
    | with_reducible apply Kept.refl
    | with_reducible assumption
    | with_reducible apply portFallow_kept
    | with_reducible apply Kept.trans ?_ (portFallow_kept ..)
    | with_reducible apply raise_kept
    | with_reducible apply Kept.trans ?_ (raise_kept ..)
    | with_reducible apply onPort_kept
    | with_reducible apply Kept.trans ?_ (onPort_kept ..)
    | with_reducible apply onKey_kept

theorem rekeyTurn_kept (p : Nat) (s : State) : Kept s (rekeyTurn p s) := by
  unfold rekeyTurn
  try dsimp only
  repeat' first
    | with_reducible apply Kept.ite
    | with_reducible apply Kept.refl
    | with_reducible assumption
    | with_reducible apply onKey_kept
    | with_reducible apply Kept.trans ?_ (onKey_kept ..)
    | split

theorem keyxTaken_kept (p : Nat) (chain : List Byte) (pub : List Byte) (sig : List Byte) (hub : Bool) (s : State) : Kept s (keyxTaken p chain pub sig hub s) := by
  unfold keyxTaken
  try dsimp only
  repeat' first
    | with_reducible apply Kept.ite
    | with_reducible apply Kept.refl
    | with_reducible assumption
    | with_reducible apply authFails_kept
    | with_reducible apply Kept.trans ?_ (authFails_kept ..)
    | with_reducible apply compareIdent_kept
    | with_reducible apply Kept.trans ?_ (compareIdent_kept ..)
    | with_reducible apply onPort_kept
    | with_reducible apply Kept.trans ?_ (onPort_kept ..)
    | with_reducible apply rekeyTurn_kept
    | with_reducible apply Kept.trans ?_ (rekeyTurn_kept ..)
    | with_reducible apply sendKeyx_kept
    | with_reducible apply Kept.trans ?_ (sendKeyx_kept ..)
    | with_reducible apply onKey_kept

theorem rekeyDue_kept (p : Nat) (s : State) : Kept s (rekeyDue p s) := by
  unfold rekeyDue
  try dsimp only
  repeat' first
    | with_reducible apply Kept.ite
    | with_reducible apply Kept.refl
    | with_reducible assumption
    | with_reducible apply sendKeyx_kept
    | with_reducible apply Kept.trans ?_ (sendKeyx_kept ..)
    | with_reducible apply onKey_kept
    | with_reducible apply Kept.trans ?_ (onKey_kept ..)
    | split

theorem tagFails_kept (p : Nat) (s : State) : Kept s (tagFails p s) := by
  unfold tagFails
  extract_lets e1 e2 e3
  have k3 : Kept s e3 := by
    repeat' first
      | with_reducible apply Kept.ite
      | with_reducible apply Kept.refl
      | with_reducible assumption
      | with_reducible apply bump_kept
      | with_reducible apply Kept.trans ?_ (bump_kept ..)
      | with_reducible apply authFails_kept
      | with_reducible apply Kept.trans ?_ (authFails_kept ..)
      | with_reducible apply onKey_kept
  clear_value e3
  repeat' first
    | with_reducible apply Kept.ite
    | with_reducible apply Kept.refl
    | with_reducible assumption
    | with_reducible apply bump_kept
    | with_reducible apply Kept.trans ?_ (bump_kept ..)
    | with_reducible apply authFails_kept
    | with_reducible apply Kept.trans ?_ (authFails_kept ..)

theorem sendNak_kept (p : Nat) (s : State) : Kept s (sendNak p s) := by
  unfold sendNak
  try dsimp only
  repeat' first
    | with_reducible apply Kept.ite
    | with_reducible apply Kept.refl
    | with_reducible assumption
    | with_reducible apply linkFrameOut_kept
    | with_reducible apply Kept.trans ?_ (linkFrameOut_kept ..)
    | with_reducible apply onPort_kept

theorem packetEnters_kept (p : Nat) (k : Packet) (s : State) : Kept s (packetEnters p k s) := by
  unfold packetEnters
  try dsimp only
  repeat' first
    | with_reducible apply Kept.ite
    | with_reducible apply Kept.refl
    | with_reducible assumption
    | with_reducible apply serve_kept
    | with_reducible apply Kept.trans ?_ (serve_kept ..)
    | with_reducible apply replyArrives_kept
    | with_reducible apply Kept.trans ?_ (replyArrives_kept ..)
    | split

theorem packetRefused_kept (p : Nat) (k : Packet) (s : State) : Kept s (packetRefused p k s) := by
  unfold packetRefused
  try dsimp only
  repeat' first
    | with_reducible apply Kept.ite
    | with_reducible apply Kept.refl
    | with_reducible assumption
    | with_reducible apply refuseReq_kept
    | with_reducible apply Kept.trans ?_ (refuseReq_kept ..)
    | with_reducible apply freeCells_kept
    | with_reducible apply Kept.trans ?_ (freeCells_kept ..)
    | with_reducible apply bump_kept
    | with_reducible apply Kept.trans ?_ (bump_kept ..)
    | split

theorem farCounted_kept (f : Light) (s : State) : Kept s (farCounted f s) := by
  unfold farCounted
  try dsimp only
  repeat' first
    | with_reducible apply Kept.ite
    | with_reducible apply Kept.refl
    | with_reducible assumption
    | with_reducible apply onKey_kept
    | with_reducible apply Kept.trans ?_ (onKey_kept ..)
    | split

theorem frameTaken_kept (f : FrameIn) (k : State → State) (s : State) (hk : ∀ s, Kept s (k s)) : Kept s (frameTaken f k s) := by
  unfold frameTaken
  try dsimp only
  repeat' first
    | with_reducible apply Kept.ite
    | with_reducible apply Kept.refl
    | with_reducible assumption
    | with_reducible apply sendNak_kept
    | with_reducible apply Kept.trans ?_ (sendNak_kept ..)
    | with_reducible apply bump_kept
    | with_reducible apply Kept.trans ?_ (bump_kept ..)
    | with_reducible apply tagFails_kept
    | with_reducible apply Kept.trans ?_ (tagFails_kept ..)
    | with_reducible apply acceptSeq_kept
    | with_reducible apply Kept.trans ?_ (acceptSeq_kept ..)
    | with_reducible apply farCounted_kept
    | with_reducible apply Kept.trans ?_ (farCounted_kept ..)
    | with_reducible exact hk _
    | with_reducible apply Kept.trans ?_ (hk _)

theorem packetsTaken_kept (f : Light) (plot : Nat) (packets : List Packet) (s : State) : Kept s (packetsTaken f plot packets s) := by
  unfold packetsTaken
  try dsimp only
  repeat' first
    | with_reducible apply Kept.ite
    | with_reducible apply Kept.refl
    | with_reducible assumption
    | with_reducible apply packetRefused_kept
    | with_reducible apply Kept.trans ?_ (packetRefused_kept ..)
    | with_reducible apply packetEnters_kept
    | with_reducible apply Kept.trans ?_ (packetEnters_kept ..)
    | with_reducible apply Kept.trans ?_ (Kept.forAll (fun _ _ => ?_) _)

theorem gyciaArrives_kept (f : FrameIn) (plot : Nat) (packets : List Packet) (s : State) : Kept s (gyciaArrives f plot packets s) :=
  frameTaken_kept _ _ _ fun _ => packetsTaken_kept ..

theorem dormantArrives_kept (f : FrameIn) (s : State) : Kept s (dormantArrives f s) := by
  unfold dormantArrives
  try dsimp only
  repeat' first
    | with_reducible apply Kept.ite
    | with_reducible apply Kept.refl
    | with_reducible assumption
    | with_reducible apply Kept.trans ?_ (frameTaken_kept (hk := fun _ => ?_) ..)
    | with_reducible apply onPort_kept

theorem identArrives_kept (f : FrameIn) (body : List Byte) (s : State) : Kept s (identArrives f body s) := by
  unfold identArrives
  try dsimp only
  repeat' first
    | with_reducible apply Kept.ite
    | with_reducible apply Kept.refl
    | with_reducible assumption
    | with_reducible apply Kept.trans ?_ (frameTaken_kept (hk := fun _ => ?_) ..)
    | with_reducible apply compareIdent_kept
    | with_reducible apply Kept.trans ?_ (compareIdent_kept ..)
    | with_reducible apply onPort_kept

theorem keyxArrives_kept (f : FrameIn) (chain : List Byte) (pub : List Byte) (sig : List Byte) (hub : Bool) (s : State) : Kept s (keyxArrives f chain pub sig hub s) := by
  unfold keyxArrives
  try dsimp only
  repeat' first
    | with_reducible apply Kept.ite
    | with_reducible apply Kept.refl
    | with_reducible assumption
    | with_reducible apply Kept.trans ?_ (frameTaken_kept (hk := fun _ => ?_) ..)
    | with_reducible apply keyxTaken_kept

theorem replayAll_kept (p : Nat) (s : State) : Kept s (replayAll p s) := by
  unfold replayAll
  try dsimp only
  repeat' first
    | with_reducible apply Kept.ite
    | with_reducible apply Kept.refl
    | with_reducible assumption
    | with_reducible apply framesDealt_kept
    | with_reducible apply Kept.trans ?_ (framesDealt_kept ..)
    | with_reducible apply bump_kept
    | with_reducible apply Kept.trans ?_ (bump_kept ..)
    | with_reducible apply emit_kept
    | with_reducible apply Kept.trans ?_ (emit_kept ..)
    | with_reducible apply Kept.trans ?_ (Kept.forAll (fun _ _ => ?_) _)

theorem ackFrames_kept (p : Nat) (ack : Nat) (s : State) : Kept s (ackFrames p ack s) := by
  unfold ackFrames
  try dsimp only
  repeat' first
    | with_reducible apply Kept.ite
    | with_reducible apply Kept.refl
    | with_reducible assumption
    | with_reducible apply onPort_kept
    | with_reducible apply Kept.trans ?_ (onPort_kept ..)
    | with_reducible apply rekeyTurn_kept
    | with_reducible apply Kept.trans ?_ (rekeyTurn_kept ..)
    | with_reducible apply onKey_kept
    | with_reducible apply Kept.trans ?_ (onKey_kept ..)
    | split

theorem farDarkSeen_kept (p : Nat) (s : State) : Kept s (farDarkSeen p s) := by
  unfold farDarkSeen
  try dsimp only
  repeat' first
    | with_reducible apply Kept.ite
    | with_reducible apply Kept.refl
    | with_reducible assumption
    | with_reducible apply onPort_kept

theorem farDarkFails_kept (p : Nat) (s : State) : Kept s (farDarkFails p s) := by
  unfold farDarkFails
  try dsimp only
  repeat' first
    | with_reducible apply Kept.ite
    | with_reducible apply Kept.refl
    | with_reducible assumption
    | with_reducible apply laneDies_kept
    | with_reducible apply Kept.trans ?_ (laneDies_kept ..)
    | with_reducible apply onPort_kept
    | with_reducible apply Kept.trans ?_ (onPort_kept ..)
    | with_reducible apply Kept.trans ?_ (Kept.forAll (fun _ _ => ?_) _)

theorem linkArrives_kept (p : Nat) (ack : Nat) (nak : Bool) (mem : Nat) (sig : Nat) (msg : Nat) (red : Nat) (rxlock : Nat) (s : State) : Kept s (linkArrives p ack nak mem sig msg red rxlock s) := by
  unfold linkArrives
  extract_lets e1 e2 e3
  have k1 : Kept s e1 := by
    repeat' first
      | with_reducible apply Kept.ite
      | with_reducible apply Kept.refl
      | with_reducible assumption
      | with_reducible apply ackFrames_kept
  clear_value e1
  have k2 : Kept s e2 := by
    repeat' first
      | with_reducible apply Kept.ite
      | with_reducible apply Kept.refl
      | with_reducible assumption
      | with_reducible apply ackFrames_kept
      | with_reducible apply Kept.trans ?_ (ackFrames_kept ..)
      | with_reducible apply onPort_kept
      | with_reducible apply Kept.trans ?_ (onPort_kept ..)
  clear_value e2
  have k3 : Kept s e3 := by
    repeat' first
      | with_reducible apply Kept.ite
      | with_reducible apply Kept.refl
      | with_reducible assumption
      | with_reducible apply ackFrames_kept
      | with_reducible apply Kept.trans ?_ (ackFrames_kept ..)
      | with_reducible apply onPort_kept
      | with_reducible apply Kept.trans ?_ (onPort_kept ..)
      | with_reducible apply farDarkFails_kept
      | with_reducible apply Kept.trans ?_ (farDarkFails_kept ..)
      | with_reducible apply farDarkSeen_kept
      | with_reducible apply Kept.trans ?_ (farDarkSeen_kept ..)
  clear_value e3
  repeat' first
    | with_reducible apply Kept.ite
    | with_reducible apply Kept.refl
    | with_reducible assumption
    | with_reducible apply ackFrames_kept
    | with_reducible apply Kept.trans ?_ (ackFrames_kept ..)
    | with_reducible apply onPort_kept
    | with_reducible apply Kept.trans ?_ (onPort_kept ..)
    | with_reducible apply farDarkFails_kept
    | with_reducible apply Kept.trans ?_ (farDarkFails_kept ..)
    | with_reducible apply farDarkSeen_kept
    | with_reducible apply Kept.trans ?_ (farDarkSeen_kept ..)
    | with_reducible apply replayAll_kept
    | with_reducible apply Kept.trans ?_ (replayAll_kept ..)
    | with_reducible apply retrainBegins_kept
    | with_reducible apply Kept.trans ?_ (retrainBegins_kept ..)
    | with_reducible apply linkDrain_kept
    | with_reducible apply Kept.trans ?_ (linkDrain_kept ..)

theorem linkTimer_kept (p : Nat) (s : State) : Kept s (linkTimer p s) := by
  unfold linkTimer
  try dsimp only
  repeat' first
    | with_reducible apply Kept.ite
    | with_reducible apply Kept.refl
    | with_reducible assumption
    | with_reducible apply linkFrameOut_kept

theorem ackStalls_kept (p : Nat) (s : State) : Kept s (ackStalls p s) := by
  unfold ackStalls
  try dsimp only
  repeat' first
    | with_reducible apply Kept.ite
    | with_reducible apply Kept.refl
    | with_reducible assumption
    | with_reducible apply retrainBegins_kept

theorem retrainEnds_kept (p : Nat) (s : State) : Kept s (retrainEnds p s) := by
  unfold retrainEnds
  try dsimp only
  repeat' first
    | with_reducible apply Kept.ite
    | with_reducible apply Kept.refl
    | with_reducible assumption
    | with_reducible apply linkDrain_kept
    | with_reducible apply Kept.trans ?_ (linkDrain_kept ..)
    | with_reducible apply replayAll_kept
    | with_reducible apply Kept.trans ?_ (replayAll_kept ..)
    | with_reducible apply retrainEvent_kept
    | with_reducible apply Kept.trans ?_ (retrainEvent_kept ..)
    | with_reducible apply onPort_kept
    | with_reducible apply Kept.trans ?_ (onPort_kept ..)
    | split

theorem retrainExpires_kept (p : Nat) (s : State) : Kept s (retrainExpires p s) := by
  unfold retrainExpires
  try dsimp only
  repeat' first
    | with_reducible apply Kept.ite
    | with_reducible apply Kept.refl
    | with_reducible assumption
    | with_reducible apply portLost_kept
    | with_reducible apply Kept.trans ?_ (portLost_kept ..)
    | split

theorem portMends_kept (p : Nat) (s : State) : Kept s (portMends p s) := by
  unfold portMends
  try dsimp only
  repeat' first
    | with_reducible apply Kept.ite
    | with_reducible apply Kept.refl
    | with_reducible assumption
    | with_reducible apply dealLanes_kept
    | with_reducible apply Kept.trans ?_ (dealLanes_kept ..)
    | with_reducible apply onPort_kept
    | with_reducible apply Kept.trans ?_ (onPort_kept ..)

theorem spareJoins_kept (e : Nat) (k : Nat) (s : State) : Kept s (spareJoins e k s) := by
  unfold spareJoins
  try dsimp only
  repeat' first
    | with_reducible apply Kept.ite
    | with_reducible apply Kept.refl
    | with_reducible assumption
    | with_reducible apply onLane_kept
    | with_reducible apply Kept.trans ?_ (onLane_kept ..)
    | with_reducible apply portMends_kept
    | with_reducible apply Kept.trans ?_ (portMends_kept ..)
    | with_reducible apply raise_kept
    | with_reducible apply Kept.trans ?_ (raise_kept ..)
    | with_reducible apply bump_kept
    | with_reducible apply Kept.trans ?_ (bump_kept ..)
    | split

theorem laneRelocks_kept (e : Nat) (j : Nat) (s : State) : Kept s (laneRelocks e j s) := by
  unfold laneRelocks
  try dsimp only
  repeat' first
    | with_reducible apply Kept.ite
    | with_reducible apply Kept.refl
    | with_reducible assumption
    | with_reducible apply portMends_kept
    | with_reducible apply Kept.trans ?_ (portMends_kept ..)
    | with_reducible apply onLane_kept

theorem signalLost_kept (p : Nat) (lanes : Nat) (s : State) : Kept s (signalLost p lanes s) := by
  unfold signalLost
  try dsimp only
  repeat' first
    | with_reducible apply Kept.ite
    | with_reducible apply Kept.refl
    | with_reducible assumption
    | with_reducible apply portLost_kept
    | with_reducible apply Kept.trans ?_ (portLost_kept ..)
    | with_reducible apply portDown_kept

theorem eyeKeeps_kept (e : Nat) (c : EyeCmd) (s : State) : Kept s (eyeKeeps e c s) := by
  unfold eyeKeeps
  try dsimp only
  repeat' first
    | with_reducible apply Kept.ite
    | with_reducible apply Kept.refl
    | with_reducible assumption
    | with_reducible apply onPorts_kept

theorem eyeBegins_kept (e : Nat) (lanes : Nat) (phase : Nat) (volt : Nat) (eye : Nat) (dwell : Nat) (s : State) : Kept s (eyeBegins e lanes phase volt eye dwell s).2 := by
  unfold eyeBegins
  try dsimp only
  repeat' first
    | with_reducible apply Kept.ite
    | with_reducible apply Kept.refl
    | with_reducible assumption
    | with_reducible apply eyeKeeps_kept
    | with_reducible apply Kept.trans ?_ (eyeKeeps_kept ..)
    | with_reducible apply onPorts_kept
    | with_reducible apply Kept.trans ?_ (onPorts_kept ..)
    | split

theorem eyeEnds_kept (e : Nat) (results : List (Nat × Nat)) (s : State) : Kept s (eyeEnds e results s) := by
  unfold eyeEnds
  try dsimp only
  repeat' first
    | with_reducible apply Kept.ite
    | with_reducible apply Kept.refl
    | with_reducible assumption
    | with_reducible apply onPorts_kept
    | with_reducible apply Kept.trans ?_ (onPorts_kept ..)
    | with_reducible exact Kept.foldl_snd (fun _ _ => ?_) _ _
    | with_reducible apply Kept.foldl_snd (fun _ _ => ?_) _ _
    | with_reducible apply Kept.foldl_fst (fun _ _ => ?_) _ _
    | with_reducible apply Kept.foldl_snd_snd (fun _ _ => ?_) _ _ _
    | split

theorem eyePeriod_kept (results : List (Nat × Nat × Nat × Nat × Nat)) (s : State) : Kept s (eyePeriod results s) := by
  unfold eyePeriod
  try dsimp only
  repeat' first
    | with_reducible apply Kept.ite
    | with_reducible apply Kept.refl
    | with_reducible assumption
    | with_reducible apply onPort_kept
    | with_reducible apply Kept.trans ?_ (onPort_kept ..)
    | with_reducible apply raise_kept
    | with_reducible apply Kept.trans ?_ (raise_kept ..)
    | with_reducible apply onPorts_kept
    | with_reducible apply Kept.trans ?_ (onPorts_kept ..)
    | with_reducible apply Kept.trans ?_ (Kept.forAll (fun _ _ => ?_) _)

theorem healthEvent_kept (e : Nat) (place : Nat) (measure : Nat) (old : Nat) (new : Nat) (v : Int) (s : State) : Kept s (healthEvent e place measure old new v s) := by
  unfold healthEvent
  try dsimp only
  repeat' first
    | with_reducible apply Kept.ite
    | with_reducible apply Kept.refl
    | with_reducible assumption
    | with_reducible apply raise_kept

theorem optMeasure_kept (e : Nat) (pos : Nat) (m : Int × Int × Int) (s : State) : Kept s (optMeasure e pos m s) := by
  unfold optMeasure
  try dsimp only
  repeat' first
    | with_reducible apply Kept.ite
    | with_reducible apply Kept.refl
    | with_reducible assumption
    | with_reducible apply healthEvent_kept
    | with_reducible apply Kept.trans ?_ (healthEvent_kept ..)
    | with_reducible apply laneFails_kept
    | with_reducible apply Kept.trans ?_ (laneFails_kept ..)
    | with_reducible apply onPorts_kept
    | with_reducible apply Kept.trans ?_ (onPorts_kept ..)
    | split

theorem laserMeasure_kept (e : Nat) (f : Nat) (v : Int) (s : State) : Kept s (laserMeasure e f v s) := by
  unfold laserMeasure
  try dsimp only
  repeat' first
    | with_reducible apply Kept.ite
    | with_reducible apply Kept.refl
    | with_reducible assumption
    | with_reducible apply healthEvent_kept
    | with_reducible apply Kept.trans ?_ (healthEvent_kept ..)
    | with_reducible apply raise_kept
    | with_reducible apply Kept.trans ?_ (raise_kept ..)
    | with_reducible apply onPorts_kept

theorem optPoll_kept (e : Nat) (lanes : List (Int × Int × Int)) (lasers : List Int) (s : State) : Kept s (optPoll e lanes lasers s) := by
  unfold optPoll
  try dsimp only
  repeat' first
    | with_reducible apply Kept.ite
    | with_reducible apply Kept.refl
    | with_reducible assumption
    | with_reducible apply optMeasure_kept
    | with_reducible apply Kept.trans ?_ (optMeasure_kept ..)
    | with_reducible apply laserMeasure_kept
    | with_reducible apply Kept.trans ?_ (laserMeasure_kept ..)
    | with_reducible apply onPorts_kept
    | with_reducible apply Kept.trans ?_ (onPorts_kept ..)
    | with_reducible apply Kept.trans ?_ (Kept.forAll (fun _ _ => ?_) _)

theorem groupOff_kept (e : Nat) (s : State) : Kept s (groupOff e s) := by
  unfold groupOff
  try dsimp only
  repeat' first
    | with_reducible apply Kept.ite
    | with_reducible apply Kept.refl
    | with_reducible assumption
    | with_reducible apply portDown_kept
    | with_reducible apply Kept.trans ?_ (portDown_kept ..)
    | with_reducible apply portDrop_kept
    | with_reducible apply Kept.trans ?_ (portDrop_kept ..)
    | with_reducible apply onLane_kept
    | with_reducible apply Kept.trans ?_ (onLane_kept ..)
    | with_reducible apply Kept.trans ?_ (Kept.forAll (fun _ _ => ?_) _)

theorem groupEnable_kept (e : Nat) (s : State) : Kept s (groupEnable e s) := by
  unfold groupEnable
  extract_lets e1 e2 e3
  have k2 : Kept s e2 := by
    repeat' first
      | with_reducible apply Kept.ite
      | with_reducible apply Kept.refl
      | with_reducible assumption
      | with_reducible apply onLane_kept
      | with_reducible apply Kept.trans ?_ (onLane_kept ..)
      | with_reducible apply portTrains_kept
      | with_reducible apply Kept.trans ?_ (portTrains_kept ..)
      | with_reducible apply Kept.trans ?_ (Kept.forAll (fun _ _ => ?_) _)
  clear_value e2
  have k3 : Kept s e3 := by
    repeat' first
      | with_reducible apply Kept.ite
      | with_reducible apply Kept.refl
      | with_reducible assumption
      | with_reducible apply onLane_kept
      | with_reducible apply Kept.trans ?_ (onLane_kept ..)
      | with_reducible apply portTrains_kept
      | with_reducible apply Kept.trans ?_ (portTrains_kept ..)
      | with_reducible apply Kept.trans ?_ (Kept.forAll (fun _ _ => ?_) _)
      | split
      | with_reducible apply sent_kept
      | refine Kept.same rfl rfl rfl rfl rfl
      | dsimp only
  clear_value e3
  repeat' first
    | with_reducible apply Kept.ite
    | with_reducible apply Kept.refl
    | with_reducible assumption
    | with_reducible apply onLane_kept
    | with_reducible apply Kept.trans ?_ (onLane_kept ..)
    | with_reducible apply portTrains_kept
    | with_reducible apply Kept.trans ?_ (portTrains_kept ..)
    | with_reducible apply Kept.trans ?_ (Kept.forAll (fun _ _ => ?_) _)

end Sys2Proof.Machine
end

