-- ==== Sys2Proof/Laws/KeptSettle.lean ====
section
/-! SUPPORT. What each operation of Machine/Settle.lean keeps. -/

namespace Sys2Proof.Machine

theorem firingSend_kept (r : Retry) (s : State) : Kept s (firingSend r s) := by
  unfold firingSend
  try dsimp only
  repeat' first
    | with_reducible apply Kept.ite
    | with_reducible apply Kept.refl
    | with_reducible assumption
    | with_reducible apply unitSend_kept

theorem fire_kept (w : Nat) (x : Watch) (s : State) : Kept s (fire w x s) := by
  unfold fire
  try dsimp only
  repeat' first
    | with_reducible apply Kept.ite
    | with_reducible apply Kept.refl
    | with_reducible assumption
    | with_reducible apply fireLeaves_kept
    | with_reducible apply Kept.trans ?_ (fireLeaves_kept ..)
    | with_reducible apply bump_kept
    | with_reducible apply Kept.trans ?_ (bump_kept ..)
    | with_reducible apply ringDoorbell_kept
    | with_reducible apply Kept.trans ?_ (ringDoorbell_kept ..)
    | with_reducible apply wakeThread_kept
    | with_reducible apply Kept.trans ?_ (wakeThread_kept ..)
    | with_reducible apply firingSend_kept
    | with_reducible apply Kept.trans ?_ (firingSend_kept ..)
    | split

theorem fireSome_kept (fuel : Nat) (s : State) : Kept s (fireSome fuel s) := by
  induction fuel generalizing s with
  | zero => exact Kept.refl _
  | succ _ ih =>
    unfold fireSome
    try dsimp only
    repeat' first
      | with_reducible apply Kept.ite
      | with_reducible apply Kept.refl
      | with_reducible assumption
      | with_reducible apply fire_kept
      | with_reducible apply Kept.trans ?_ (fire_kept ..)
      | with_reducible apply onSync_kept
      | with_reducible apply Kept.trans ?_ (onSync_kept ..)
      | with_reducible exact ih ..
      | with_reducible apply Kept.trans ?_ (ih ..)
      | split

theorem firingLost_kept (r : Retry) (s : State) : Kept s (firingLost r s) := by
  unfold firingLost
  try dsimp only
  repeat' first
    | with_reducible apply Kept.ite
    | with_reducible apply Kept.refl
    | with_reducible assumption
    | with_reducible apply raise_kept
    | with_reducible apply Kept.trans ?_ (raise_kept ..)
    | with_reducible apply bump_kept
    | with_reducible apply Kept.trans ?_ (bump_kept ..)
    | with_reducible apply grantBack_kept
    | with_reducible apply Kept.trans ?_ (grantBack_kept ..)

theorem firingAgain_kept (s : State) : Kept s (firingAgain s) := by
  unfold firingAgain
  try dsimp only
  repeat' first
    | with_reducible apply Kept.ite
    | with_reducible apply Kept.refl
    | with_reducible assumption
    | with_reducible apply firingSend_kept
    | with_reducible apply Kept.trans ?_ (firingSend_kept ..)
    | with_reducible apply onSync_kept
    | with_reducible apply Kept.trans ?_ (onSync_kept ..)
    | split

theorem firingExpires_kept (s : State) : Kept s (firingExpires s) := by
  unfold firingExpires
  try dsimp only
  repeat' first
    | with_reducible apply Kept.ite
    | with_reducible apply Kept.refl
    | with_reducible assumption
    | with_reducible apply firingLost_kept
    | with_reducible apply Kept.trans ?_ (firingLost_kept ..)
    | with_reducible apply onSync_kept
    | with_reducible apply Kept.trans ?_ (onSync_kept ..)
    | split

theorem firingAnswers_kept (s : State) : Kept s (firingAnswers s) := by
  unfold firingAnswers
  try dsimp only
  repeat' first
    | with_reducible apply Kept.ite
    | with_reducible apply Kept.refl
    | with_reducible assumption
    | with_reducible apply onColl_kept
    | with_reducible apply Kept.trans ?_ (onColl_kept ..)
    | with_reducible apply onSync_kept
    | with_reducible apply Kept.trans ?_ (onSync_kept ..)

theorem drainOutbox_kept (fuel : Nat) (s : State) : Kept s (drainOutbox fuel s) := by
  induction fuel generalizing s with
  | zero => exact Kept.refl _
  | succ _ ih =>
    unfold drainOutbox
    try dsimp only
    repeat' first
      | with_reducible apply Kept.ite
      | with_reducible apply Kept.refl
      | with_reducible assumption
      | with_reducible apply serve_kept
      | with_reducible apply Kept.trans ?_ (serve_kept ..)
      | with_reducible apply onColl_kept
      | with_reducible apply Kept.trans ?_ (onColl_kept ..)
      | with_reducible exact ih ..
      | with_reducible apply Kept.trans ?_ (ih ..)
      | split

theorem resume_kept (filled : Option Nat) (s : State) : Kept s (resume filled s) := by
  unfold resume
  try dsimp only
  repeat' first
    | with_reducible apply Kept.ite
    | with_reducible apply Kept.refl
    | with_reducible assumption
    | with_reducible apply sweepCopies_kept
    | with_reducible apply Kept.trans ?_ (sweepCopies_kept ..)
    | with_reducible apply furSettle_kept
    | with_reducible apply Kept.trans ?_ (furSettle_kept ..)
    | with_reducible apply nomMoves_kept
    | with_reducible apply Kept.trans ?_ (nomMoves_kept ..)
    | with_reducible apply recordEnds_kept
    | with_reducible apply Kept.trans ?_ (recordEnds_kept ..)
    | with_reducible apply genMoves_kept
    | with_reducible apply Kept.trans ?_ (genMoves_kept ..)
    | with_reducible apply hostMoves_kept
    | with_reducible apply Kept.trans ?_ (hostMoves_kept ..)
    | with_reducible apply dmaMoves_kept
    | with_reducible apply Kept.trans ?_ (dmaMoves_kept ..)
    | with_reducible apply stallMoves_kept
    | with_reducible apply Kept.trans ?_ (stallMoves_kept ..)
    | with_reducible apply retryPool_kept

theorem settle_kept (s : State) : Kept s (settle s) := by
  unfold settle
  extract_lets e1 e2 e3
  have k1 : Kept s e1 := by
    repeat' first
      | with_reducible apply Kept.ite
      | with_reducible apply Kept.refl
      | with_reducible assumption
      | with_reducible apply switchMoves_kept
      | with_reducible apply Kept.trans ?_ (switchMoves_kept ..)
      | with_reducible apply resume_kept
      | with_reducible apply Kept.trans ?_ (resume_kept ..)
      | with_reducible apply resetTurn_kept
  clear_value e1
  have k2 : Kept s e2 := by
    repeat' first
      | with_reducible apply Kept.ite
      | with_reducible apply Kept.refl
      | with_reducible assumption
      | with_reducible apply switchMoves_kept
      | with_reducible apply Kept.trans ?_ (switchMoves_kept ..)
      | with_reducible apply resume_kept
      | with_reducible apply Kept.trans ?_ (resume_kept ..)
      | with_reducible apply resetTurn_kept
      | with_reducible apply Kept.trans ?_ (resetTurn_kept ..)
      | with_reducible apply drainOutbox_kept
      | with_reducible apply Kept.trans ?_ (drainOutbox_kept ..)
  clear_value e2
  have k3 : Kept s e3 := by
    repeat' first
      | with_reducible apply Kept.ite
      | with_reducible apply Kept.refl
      | with_reducible assumption
      | with_reducible apply switchMoves_kept
      | with_reducible apply Kept.trans ?_ (switchMoves_kept ..)
      | with_reducible apply resume_kept
      | with_reducible apply Kept.trans ?_ (resume_kept ..)
      | with_reducible apply resetTurn_kept
      | with_reducible apply Kept.trans ?_ (resetTurn_kept ..)
      | with_reducible apply drainOutbox_kept
      | with_reducible apply Kept.trans ?_ (drainOutbox_kept ..)
      | with_reducible apply firingAnswers_kept
      | with_reducible apply Kept.trans ?_ (firingAnswers_kept ..)
      | with_reducible apply collSettle_kept
      | with_reducible apply Kept.trans ?_ (collSettle_kept ..)
  clear_value e3
  repeat' first
    | with_reducible apply Kept.ite
    | with_reducible apply Kept.refl
    | with_reducible assumption
    | with_reducible apply switchMoves_kept
    | with_reducible apply Kept.trans ?_ (switchMoves_kept ..)
    | with_reducible apply resume_kept
    | with_reducible apply Kept.trans ?_ (resume_kept ..)
    | with_reducible apply resetTurn_kept
    | with_reducible apply Kept.trans ?_ (resetTurn_kept ..)
    | with_reducible apply drainOutbox_kept
    | with_reducible apply Kept.trans ?_ (drainOutbox_kept ..)
    | with_reducible apply firingAnswers_kept
    | with_reducible apply Kept.trans ?_ (firingAnswers_kept ..)
    | with_reducible apply collSettle_kept
    | with_reducible apply Kept.trans ?_ (collSettle_kept ..)
    | with_reducible apply drainTurn_kept
    | with_reducible apply Kept.trans ?_ (drainTurn_kept ..)

theorem settleLost_kept (s : State) (t : State) : Kept t (settleLost s t) := by
  unfold settleLost
  exact Kept.ite (Kept.refl _) (settle_kept ..)

end Sys2Proof.Machine
end

