-- ==== Sys2Proof/Laws/KeptCompanionOps.lean ====
section
/-! SUPPORT. What each operation of Machine/CompanionOps.lean keeps. -/

namespace Sys2Proof.Machine

theorem hostDiscarded_kept (s : State) : Kept s (hostDiscarded s) := by
  unfold hostDiscarded
  try dsimp only
  repeat' first
    | with_reducible apply Kept.ite
    | with_reducible apply Kept.refl
    | with_reducible assumption
    | with_reducible apply dropFrames_kept
    | with_reducible apply Kept.trans ?_ (dropFrames_kept ..)
    | with_reducible apply gateAnswered_kept
    | with_reducible apply Kept.trans ?_ (gateAnswered_kept ..)
    | with_reducible apply onSw_kept
    | with_reducible apply Kept.trans ?_ (onSw_kept ..)
    | with_reducible apply onXlt_kept
    | with_reducible apply Kept.trans ?_ (onXlt_kept ..)
    | with_reducible apply onPool_kept
    | with_reducible apply Kept.trans ?_ (onPool_kept ..)
    | with_reducible apply Kept.trans ?_ (Kept.forAll (fun _ _ => ?_) _)

theorem companionLost_kept (cause : Nat) (s : State) : Kept s (companionLost cause s) := by
  unfold companionLost
  try dsimp only
  repeat' first
    | with_reducible apply Kept.ite
    | with_reducible apply Kept.refl
    | with_reducible assumption
    | with_reducible apply raise_kept
    | with_reducible apply Kept.trans ?_ (raise_kept ..)
    | with_reducible apply bump_kept
    | with_reducible apply Kept.trans ?_ (bump_kept ..)
    | with_reducible apply hostDiscarded_kept
    | with_reducible apply Kept.trans ?_ (hostDiscarded_kept ..)
    | with_reducible apply unitDone_kept
    | with_reducible apply Kept.trans ?_ (unitDone_kept ..)
    | with_reducible apply faultsFail_kept
    | with_reducible apply Kept.trans ?_ (faultsFail_kept ..)
    | with_reducible apply onLania_kept
    | with_reducible apply Kept.trans ?_ (onLania_kept ..)
    | with_reducible apply onXlt_kept
    | with_reducible apply Kept.trans ?_ (onXlt_kept ..)
    | with_reducible apply onPool_kept
    | with_reducible apply Kept.trans ?_ (onPool_kept ..)
    | with_reducible apply onCoh_kept
    | with_reducible apply Kept.trans ?_ (onCoh_kept ..)

theorem walkFilter_kept (s : State) : Kept s (walkFilter s) := by
  unfold walkFilter
  try dsimp only
  repeat' first
    | with_reducible apply Kept.ite
    | with_reducible apply Kept.refl
    | with_reducible assumption
    | with_reducible apply meetWalk_kept
    | with_reducible apply Kept.trans ?_ (meetWalk_kept ..)
    | with_reducible apply raise_kept
    | with_reducible apply Kept.trans ?_ (raise_kept ..)
    | with_reducible apply onCoh_kept
    | with_reducible apply Kept.trans ?_ (onCoh_kept ..)
    | with_reducible apply Kept.trans ?_ (Kept.forAll (fun _ _ => ?_) _)
    | split

theorem snoopAnswered_kept (line : Nat) (data : Option (List Byte)) (s : State) : Kept s (snoopAnswered line data s) := by
  unfold snoopAnswered
  try dsimp only
  repeat' first
    | with_reducible apply Kept.ite
    | with_reducible apply Kept.refl
    | with_reducible assumption
    | with_reducible apply hostStore_kept
    | with_reducible apply Kept.trans ?_ (hostStore_kept ..)
    | with_reducible apply cohLeave_kept
    | with_reducible apply Kept.trans ?_ (cohLeave_kept ..)
    | with_reducible apply sendSnoop_kept
    | with_reducible apply Kept.trans ?_ (sendSnoop_kept ..)
    | with_reducible apply onCoh_kept
    | with_reducible apply Kept.trans ?_ (onCoh_kept ..)
    | split

theorem hostWriteBack_kept (line : Nat) (data : List Byte) (s : State) : Kept s (hostWriteBack line data s) := by
  unfold hostWriteBack
  try dsimp only
  repeat' first
    | with_reducible apply Kept.ite
    | with_reducible apply Kept.refl
    | with_reducible assumption
    | with_reducible apply meetWalk_kept
    | with_reducible apply Kept.trans ?_ (meetWalk_kept ..)
    | with_reducible apply bump_kept
    | with_reducible apply Kept.trans ?_ (bump_kept ..)
    | with_reducible apply hostStore_kept
    | with_reducible apply Kept.trans ?_ (hostStore_kept ..)
    | with_reducible apply cohLeave_kept
    | with_reducible apply Kept.trans ?_ (cohLeave_kept ..)
    | with_reducible apply emit_kept
    | with_reducible apply Kept.trans ?_ (emit_kept ..)
    | split

theorem hostEvicts_kept (line : Nat) (s : State) : Kept s (hostEvicts line s) := by
  unfold hostEvicts
  try dsimp only
  repeat' first
    | with_reducible apply Kept.ite
    | with_reducible apply Kept.refl
    | with_reducible assumption
    | with_reducible apply meetWalk_kept
    | with_reducible apply Kept.trans ?_ (meetWalk_kept ..)
    | with_reducible apply bump_kept
    | with_reducible apply Kept.trans ?_ (bump_kept ..)
    | with_reducible apply cohLeave_kept
    | with_reducible apply Kept.trans ?_ (cohLeave_kept ..)
    | with_reducible apply emit_kept
    | with_reducible apply Kept.trans ?_ (emit_kept ..)
    | split

theorem snoopExpires_kept (line : Nat) (s : State) : Kept s (snoopExpires line s) := by
  unfold snoopExpires
  try dsimp only
  repeat' first
    | with_reducible apply Kept.ite
    | with_reducible apply Kept.refl
    | with_reducible assumption
    | with_reducible apply companionLost_kept
    | with_reducible apply Kept.trans ?_ (companionLost_kept ..)
    | with_reducible apply raise_kept
    | with_reducible apply Kept.trans ?_ (raise_kept ..)
    | split

theorem orphanResolve_kept (x : Nat) (line : Nat) (data : Option (List Byte)) (s : State) : Kept s (orphanResolve x line data s).2 := by
  unfold orphanResolve
  try dsimp only
  repeat' first
    | with_reducible apply Kept.ite
    | with_reducible apply Kept.refl
    | with_reducible assumption
    | with_reducible apply hostStore_kept
    | with_reducible apply Kept.trans ?_ (hostStore_kept ..)
    | with_reducible apply bump_kept
    | with_reducible apply Kept.trans ?_ (bump_kept ..)
    | with_reducible apply onCoh_kept
    | with_reducible apply Kept.trans ?_ (onCoh_kept ..)
    | split

end Sys2Proof.Machine
end

