-- ==== Sys2Proof/Laws/KeptExtentOps.lean ====
section
/-! SUPPORT. What each operation of Machine/ExtentOps.lean keeps. -/

namespace Sys2Proof.Machine

theorem assignExtent_kept (x : Nat) (plot : Nat) (owner : Nat) (grantAll : Nat) (grantList : Nat) (role : Nat) (versioned : Bool) (s : State) : Kept s (assignExtent x plot owner grantAll grantList role versioned s).2 := by
  unfold assignExtent
  try dsimp only
  repeat' first
    | with_reducible apply Kept.ite
    | with_reducible apply Kept.refl
    | with_reducible assumption
    | with_reducible apply onExt_kept
    | with_reducible apply Kept.trans ?_ (onExt_kept ..)
    | split

theorem regrantExtent_kept (x : Nat) (grantAll : Nat) (grantList : Nat) (s : State) : Kept s (regrantExtent x grantAll grantList s).2 := by
  unfold regrantExtent
  try dsimp only
  repeat' first
    | with_reducible apply Kept.ite
    | with_reducible apply Kept.refl
    | with_reducible assumption
    | with_reducible apply onExt_kept
    | with_reducible apply Kept.trans ?_ (onExt_kept ..)
    | split

theorem extentFlush_kept (x : Nat) (s : State) : Kept s (extentFlush x s) := by
  unfold extentFlush
  try dsimp only
  repeat' first
    | with_reducible apply Kept.ite
    | with_reducible apply Kept.refl
    | with_reducible assumption
    | with_reducible apply writeOut_kept
    | with_reducible apply Kept.trans ?_ (writeOut_kept ..)
    | with_reducible apply onCore_kept
    | with_reducible apply Kept.trans ?_ (onCore_kept ..)
    | with_reducible apply Kept.trans ?_ (Kept.forAll (fun _ _ => ?_) _)

theorem regionsGone_kept (x : Nat) (s : State) : Kept s (regionsGone x s) := by
  unfold regionsGone
  try dsimp only
  repeat' first
    | with_reducible apply Kept.ite
    | with_reducible apply Kept.refl
    | with_reducible assumption
    | with_reducible apply onChk_kept

theorem drainExtent_kept (releasing : Bool) (x : Nat) (s : State) : Kept s (drainExtent releasing x s) := by
  unfold drainExtent
  try dsimp only
  repeat' first
    | with_reducible apply Kept.ite
    | with_reducible apply Kept.refl
    | with_reducible assumption
    | with_reducible apply extentFlush_kept
    | with_reducible apply Kept.trans ?_ (extentFlush_kept ..)
    | with_reducible apply regionsGone_kept
    | with_reducible apply Kept.trans ?_ (regionsGone_kept ..)
    | with_reducible apply onExt_kept
    | with_reducible apply Kept.trans ?_ (onExt_kept ..)
    | with_reducible apply onPool_kept
    | with_reducible apply Kept.trans ?_ (onPool_kept ..)

theorem revokeExtent_kept (x : Nat) (s : State) : Kept s (revokeExtent x s).2 := by
  unfold revokeExtent
  try dsimp only
  repeat' first
    | with_reducible apply Kept.ite
    | with_reducible apply Kept.refl
    | with_reducible assumption
    | with_reducible apply drainExtent_kept
    | with_reducible apply Kept.trans ?_ (drainExtent_kept ..)
    | split

theorem releaseExtent_kept (x : Nat) (s : State) : Kept s (releaseExtent x s).2 := by
  unfold releaseExtent
  try dsimp only
  repeat' first
    | with_reducible apply Kept.ite
    | with_reducible apply Kept.refl
    | with_reducible assumption
    | with_reducible apply drainExtent_kept
    | with_reducible apply Kept.trans ?_ (drainExtent_kept ..)
    | split

theorem tableArrives_kept (x : Nat) (t : DevTable) (s : State) : Kept s (tableArrives x t s) := by
  unfold tableArrives
  extract_lets e1 d fr e2 e3
  have k3 : Kept s e3 := ((onCxl_kept ..).trans (onPool_kept ..)).trans (onKey_kept ..)
  exact k3.trans (mem_kept _ _ fun h => Mem.wf_foldl _ (fun m c hm => Mem.wf_write m c.1 c.2 hm) d _ h)

theorem adoptPlain_kept (o : CapOp) (s : State) : Kept s (adoptPlain o s) := by
  unfold adoptPlain
  try dsimp only
  repeat' first
    | with_reducible apply Kept.ite
    | with_reducible apply Kept.refl
    | with_reducible assumption
    | with_reducible apply onExt_kept
    | with_reducible apply Kept.trans ?_ (onExt_kept ..)
    | with_reducible apply onCxl_kept
    | with_reducible apply Kept.trans ?_ (onCxl_kept ..)
    | with_reducible apply onPool_kept
    | with_reducible apply Kept.trans ?_ (onPool_kept ..)

theorem restoreLatest_kept (x : Nat) (s : State) : Kept s (restoreLatest x s).2 := by
  unfold restoreLatest
  try dsimp only
  repeat' first
    | with_reducible apply Kept.ite
    | with_reducible apply Kept.refl
    | with_reducible assumption
    | with_reducible apply copyFrame_kept
    | with_reducible apply Kept.trans ?_ (copyFrame_kept ..)
    | with_reducible apply onExt_kept
    | with_reducible apply Kept.trans ?_ (onExt_kept ..)
    | with_reducible apply onPool_kept
    | with_reducible apply Kept.trans ?_ (onPool_kept ..)
    | with_reducible apply Kept.trans ?_ (Kept.forAll (fun _ _ => ?_) _)

theorem adoptDone_kept (o : CapOp) (s : State) : Kept s (adoptDone o s) := by
  unfold adoptDone
  try dsimp only
  repeat' first
    | with_reducible apply Kept.ite
    | with_reducible apply Kept.refl
    | with_reducible assumption
    | with_reducible apply adoptPlain_kept
    | with_reducible apply Kept.trans ?_ (adoptPlain_kept ..)
    | with_reducible apply restoreLatest_kept
    | with_reducible apply Kept.trans ?_ (restoreLatest_kept ..)
    | with_reducible apply bump_kept
    | with_reducible apply Kept.trans ?_ (bump_kept ..)
    | with_reducible apply raise_kept
    | with_reducible apply Kept.trans ?_ (raise_kept ..)
    | split

theorem adoptExtent_kept (o : CapOp) (s : State) : Kept s (adoptExtent o s).2 := by
  unfold adoptExtent
  try dsimp only
  repeat' first
    | with_reducible apply Kept.ite
    | with_reducible apply Kept.refl
    | with_reducible assumption
    | with_reducible apply adoptDone_kept
    | with_reducible apply Kept.trans ?_ (adoptDone_kept ..)
    | with_reducible apply onCxl_kept
    | with_reducible apply Kept.trans ?_ (onCxl_kept ..)
    | split

theorem setRetires_kept (k : Nat) (s : State) : Kept s (setRetires k s) := by
  unfold setRetires
  try dsimp only
  repeat' first
    | with_reducible apply Kept.ite
    | with_reducible apply Kept.refl
    | with_reducible assumption
    | with_reducible apply onPool_kept

theorem scrubFrames_kept (x : Nat) (s : State) : Kept s (scrubFrames x s) := by
  unfold scrubFrames
  extract_lets e1 e2 e3 e4 e5 e6 e7
  have k3 : Kept s e3 := bump_kept ..
  have k4 : Kept s e4 := k3.trans (onCoh_kept ..)
  have k5 : Kept s e5 :=
    k4.trans (mem_kept _ _ fun h => Mem.wf_foldl _ (fun _ _ h => Mem.wf_zero _ _ _ h) _ _ (Mem.wf_zero _ _ _ h))
  exact (((k5.trans (chipDrop_kept ..)).trans (onPool_kept ..)).trans (onKey_kept ..)).trans (onPool_kept ..)

theorem scrubEnds_kept (x : Nat) (s : State) : Kept s (scrubEnds x s) := by
  unfold scrubEnds
  extract_lets e1 e2
  have k1 : Kept s e1 := by
    repeat' first
      | with_reducible apply Kept.ite
      | with_reducible apply Kept.refl
      | with_reducible assumption
      | with_reducible apply scrubFrames_kept
  clear_value e1
  have k2 : Kept s e2 := by
    repeat' first
      | with_reducible apply Kept.ite
      | with_reducible apply Kept.refl
      | with_reducible assumption
      | with_reducible apply scrubFrames_kept
      | with_reducible apply Kept.trans ?_ (scrubFrames_kept ..)
      | with_reducible apply setRetires_kept
      | with_reducible apply Kept.trans ?_ (setRetires_kept ..)
      | with_reducible apply raise_kept
      | with_reducible apply Kept.trans ?_ (raise_kept ..)
      | with_reducible apply onPool_kept
      | with_reducible apply Kept.trans ?_ (onPool_kept ..)
  clear_value e2
  repeat' first
    | with_reducible apply Kept.ite
    | with_reducible apply Kept.refl
    | with_reducible assumption
    | with_reducible apply scrubFrames_kept
    | with_reducible apply Kept.trans ?_ (scrubFrames_kept ..)
    | with_reducible apply setRetires_kept
    | with_reducible apply Kept.trans ?_ (setRetires_kept ..)
    | with_reducible apply raise_kept
    | with_reducible apply Kept.trans ?_ (raise_kept ..)

theorem drainExpires_kept (x : Nat) (s : State) : Kept s (drainExpires x s) := by
  unfold drainExpires
  try dsimp only
  repeat' first
    | with_reducible apply Kept.ite
    | with_reducible apply Kept.refl
    | with_reducible assumption
    | with_reducible apply onExt_kept
    | with_reducible apply Kept.trans ?_ (onExt_kept ..)
    | with_reducible apply hostsFail_kept
    | with_reducible apply Kept.trans ?_ (hostsFail_kept ..)
    | with_reducible apply failWaits_kept
    | with_reducible apply Kept.trans ?_ (failWaits_kept ..)
    | with_reducible apply versionOutcome_kept
    | with_reducible apply Kept.trans ?_ (versionOutcome_kept ..)
    | with_reducible apply raise_kept
    | with_reducible apply Kept.trans ?_ (raise_kept ..)
    | with_reducible apply bump_kept
    | with_reducible apply Kept.trans ?_ (bump_kept ..)
    | with_reducible apply Kept.trans ?_ (Kept.forAll (fun _ _ => ?_) _)

theorem extentLeaves_kept (x : Nat) (s : State) : Kept s (extentLeaves x s) := by
  unfold extentLeaves
  try dsimp only
  repeat' first
    | with_reducible apply Kept.ite
    | with_reducible apply Kept.refl
    | with_reducible assumption
    | with_reducible apply chipFlush_kept
    | with_reducible apply Kept.trans ?_ (chipFlush_kept ..)
    | with_reducible apply onCxl_kept
    | with_reducible apply Kept.trans ?_ (onCxl_kept ..)
    | with_reducible apply onPool_kept
    | with_reducible apply Kept.trans ?_ (onPool_kept ..)

theorem drainEnds_kept (x : Nat) (s : State) : Kept s (drainEnds x s) := by
  unfold drainEnds
  try dsimp only
  repeat' first
    | with_reducible apply Kept.ite
    | with_reducible apply Kept.refl
    | with_reducible assumption
    | with_reducible apply onExt_kept
    | with_reducible apply Kept.trans ?_ (onExt_kept ..)
    | with_reducible apply onCxl_kept

theorem deviceAnswers_kept (x : Nat) (confirmed : Bool) (table : Option DevTable) (s : State) : Kept s (deviceAnswers x confirmed table s) := by
  unfold deviceAnswers
  try dsimp only
  repeat' first
    | with_reducible apply Kept.ite
    | with_reducible apply Kept.refl
    | with_reducible assumption
    | with_reducible apply extentLeaves_kept
    | with_reducible apply Kept.trans ?_ (extentLeaves_kept ..)
    | with_reducible apply tableArrives_kept
    | with_reducible apply Kept.trans ?_ (tableArrives_kept ..)
    | with_reducible apply adoptDone_kept
    | with_reducible apply Kept.trans ?_ (adoptDone_kept ..)
    | with_reducible apply onCxl_kept
    | with_reducible apply Kept.trans ?_ (onCxl_kept ..)
    | with_reducible apply onPool_kept
    | with_reducible apply Kept.trans ?_ (onPool_kept ..)
    | split

theorem capacityTaken_kept (x : Nat) (s : State) : Kept s (capacityTaken x s) := by
  unfold capacityTaken
  try dsimp only
  repeat' first
    | with_reducible apply Kept.ite
    | with_reducible apply Kept.refl
    | with_reducible assumption
    | with_reducible apply hostsFail_kept
    | with_reducible apply Kept.trans ?_ (hostsFail_kept ..)
    | with_reducible apply failWaits_kept
    | with_reducible apply Kept.trans ?_ (failWaits_kept ..)
    | with_reducible apply versionOutcome_kept
    | with_reducible apply Kept.trans ?_ (versionOutcome_kept ..)
    | with_reducible apply chipDrop_kept
    | with_reducible apply Kept.trans ?_ (chipDrop_kept ..)
    | with_reducible apply regionsGone_kept
    | with_reducible apply Kept.trans ?_ (regionsGone_kept ..)
    | with_reducible apply raise_kept
    | with_reducible apply Kept.trans ?_ (raise_kept ..)
    | with_reducible apply onCxl_kept
    | with_reducible apply Kept.trans ?_ (onCxl_kept ..)
    | with_reducible apply onPool_kept
    | with_reducible apply Kept.trans ?_ (onPool_kept ..)
    | with_reducible apply Kept.trans ?_ (Kept.forAll (fun _ _ => ?_) _)

theorem extentDict_kept (f : State → Nat × State) (s : State) (hf : ∀ s, Kept s (f s).2) : Kept s (extentDict f s).2 := by
  unfold extentDict
  extract_lets e1
  have k1 : Kept s e1.2 := by
    repeat' first
      | with_reducible apply Kept.ite
      | with_reducible apply Kept.refl
      | with_reducible assumption
      | with_reducible apply onPool_kept
      | with_reducible apply Kept.trans ?_ (onPool_kept ..)
      | with_reducible exact hf _
  clear_value e1
  repeat' first
    | with_reducible apply Kept.ite
    | with_reducible apply Kept.refl
    | with_reducible assumption
    | with_reducible apply onPool_kept
    | with_reducible apply Kept.trans ?_ (onPool_kept ..)
    | with_reducible exact hf _
    | with_reducible apply Kept.trans ?_ (hf _)
    | split

theorem extentReg_kept (f : State → Nat × State) (s : State) (hf : ∀ s, Kept s (f s).2) : Kept s (extentReg f s) := by
  unfold extentReg
  try dsimp only
  repeat' first
    | with_reducible apply Kept.ite
    | with_reducible apply Kept.refl
    | with_reducible assumption
    | with_reducible apply Kept.trans ?_ (extentDict_kept (hf := fun _ => ?_) ..)
    | with_reducible apply onPool_kept
    | with_reducible apply Kept.trans ?_ (onPool_kept ..)
    | with_reducible exact hf _

theorem extentComes_kept (dict : Bool) (f : State → Nat × State) (s : State) (hf : ∀ s, Kept s (f s).2) : Kept s (extentComes dict f s) := by
  unfold extentComes
  try dsimp only
  repeat' first
    | with_reducible apply Kept.ite
    | with_reducible apply Kept.refl
    | with_reducible assumption
    | with_reducible apply settle_kept
    | with_reducible apply Kept.trans ?_ (settle_kept ..)
    | with_reducible apply Kept.trans ?_ (extentDict_kept (hf := fun _ => ?_) ..)
    | with_reducible apply Kept.trans ?_ (viaRegIn_kept (hf := fun _ => ?_) ..)
    | with_reducible apply regAck_kept
    | with_reducible apply Kept.trans ?_ (regAck_kept ..)
    | with_reducible apply Kept.trans ?_ (extentReg_kept (hf := fun _ => ?_) ..)
    | with_reducible exact hf _

end Sys2Proof.Machine
end

