-- ==== Sys2Proof/Laws/KeptHarrow.lean ====
section
/-! SUPPORT. What each operation of Machine/Harrow.lean keeps. -/

namespace Sys2Proof.Machine

theorem tierExpires_kept (q : Nat) (s : State) : Kept s (tierExpires q s) := by
  unfold tierExpires
  try dsimp only
  repeat' first
    | with_reducible apply Kept.ite
    | with_reducible apply Kept.refl
    | with_reducible assumption
    | with_reducible apply failWait_kept
    | with_reducible apply Kept.trans ?_ (failWait_kept ..)
    | with_reducible apply raise_kept
    | with_reducible apply Kept.trans ?_ (raise_kept ..)
    | with_reducible apply onPool_kept
    | with_reducible apply Kept.trans ?_ (onPool_kept ..)
    | with_reducible apply onCoh_kept
    | with_reducible apply Kept.trans ?_ (onCoh_kept ..)
    | with_reducible apply emit_kept
    | with_reducible apply Kept.trans ?_ (emit_kept ..)
    | split

theorem nominatePlot_kept (n : Nat) (s : State) : Kept s (nominatePlot n s) := by
  unfold nominatePlot
  extract_lets q
  have k1 : Kept s q.1 := Kept.foldl_fst (fun z a => by
    split
    · exact Kept.same rfl rfl rfl rfl rfl
    · exact Kept.refl _) _ s
  exact Kept.ite k1 ((k1.trans (bump_kept ..)).trans (raise_kept ..))

theorem decay_kept (s : State) : Kept s (decay s) := by
  unfold decay
  extract_lets e1
  have k1 : Kept s e1 := by
    repeat' first
      | with_reducible apply Kept.ite
      | with_reducible apply Kept.refl
      | with_reducible assumption
      | with_reducible apply nomMoves_kept
      | with_reducible apply Kept.trans ?_ (nomMoves_kept ..)
      | with_reducible apply nominatePlot_kept
      | with_reducible apply Kept.trans ?_ (nominatePlot_kept ..)
      | with_reducible apply onPool_kept
      | with_reducible apply Kept.trans ?_ (onPool_kept ..)
      | with_reducible apply Kept.trans ?_ (Kept.forAll (fun _ _ => ?_) _)
  clear_value e1
  repeat' first
    | with_reducible apply Kept.ite
    | with_reducible apply Kept.refl
    | with_reducible assumption
    | with_reducible apply nomMoves_kept
    | with_reducible apply Kept.trans ?_ (nomMoves_kept ..)
    | with_reducible apply nominatePlot_kept
    | with_reducible apply Kept.trans ?_ (nominatePlot_kept ..)
    | with_reducible apply onPool_kept
    | with_reducible apply Kept.trans ?_ (onPool_kept ..)

theorem poolReg_kept (f : State → State) (s : State) (hf : ∀ s, Kept s (f s)) : Kept s (poolReg f s) := by
  unfold poolReg
  try dsimp only
  repeat' first
    | with_reducible apply Kept.ite
    | with_reducible apply Kept.refl
    | with_reducible assumption
    | with_reducible apply Kept.trans ?_ (viaRegIn_kept (hf := fun _ => ?_) ..)
    | with_reducible apply regAck_kept
    | with_reducible apply Kept.trans ?_ (regAck_kept ..)
    | with_reducible exact hf _

theorem consumeNoms_kept (v : Nat) (s : State) : Kept s (consumeNoms v s) := by
  unfold consumeNoms
  try dsimp only
  repeat' first
    | with_reducible apply Kept.ite
    | with_reducible apply Kept.refl
    | with_reducible assumption
    | with_reducible apply onPool_kept
    | with_reducible apply Kept.trans ?_ (onPool_kept ..)
    | split

theorem meetPage_kept (x : Nat) (i : Nat) (s : State) : Kept s (meetPage x i s) := by
  unfold meetPage
  try dsimp only
  repeat' first
    | with_reducible apply Kept.ite
    | with_reducible apply Kept.refl
    | with_reducible assumption
    | with_reducible apply meetWalk_kept
    | with_reducible apply Kept.trans ?_ (meetWalk_kept ..)
    | with_reducible apply Kept.trans ?_ (Kept.forAll (fun _ _ => ?_) _)

theorem migrate_kept (x : Nat) (i : Nat) (home : Bool) (s : State) : Kept s (migrate x i home s) := by
  unfold migrate
  try dsimp only
  repeat' first
    | with_reducible apply Kept.ite
    | with_reducible apply Kept.refl
    | with_reducible assumption
    | with_reducible apply meetPage_kept
    | with_reducible apply Kept.trans ?_ (meetPage_kept ..)
    | with_reducible apply onPool_kept
    | with_reducible apply Kept.trans ?_ (onPool_kept ..)

theorem migrationFails_kept (rest : List Migration) (s : State) : Kept s (migrationFails rest s) := by
  unfold migrationFails
  try dsimp only
  repeat' first
    | with_reducible apply Kept.ite
    | with_reducible apply Kept.refl
    | with_reducible assumption
    | with_reducible apply onPool_kept

theorem migrationEnds_kept (s : State) : Kept s (migrationEnds s) := by
  unfold migrationEnds
  try dsimp only
  repeat' first
    | with_reducible apply Kept.ite
    | with_reducible apply Kept.refl
    | with_reducible assumption
    | with_reducible apply meetPage_kept
    | with_reducible apply Kept.trans ?_ (meetPage_kept ..)
    | with_reducible apply migrationFails_kept
    | with_reducible apply Kept.trans ?_ (migrationFails_kept ..)
    | with_reducible apply frameSnooped_kept
    | with_reducible apply Kept.trans ?_ (frameSnooped_kept ..)
    | with_reducible apply copyFrame_kept
    | with_reducible apply Kept.trans ?_ (copyFrame_kept ..)
    | with_reducible apply bump_kept
    | with_reducible apply Kept.trans ?_ (bump_kept ..)
    | with_reducible apply chipDrop_kept
    | with_reducible apply Kept.trans ?_ (chipDrop_kept ..)
    | with_reducible apply onPool_kept
    | with_reducible apply Kept.trans ?_ (onPool_kept ..)
    | split

theorem eccLine_kept (a : Nat × Nat × Bool) (s : State) : Kept s (eccLine a s) := by
  unfold eccLine
  try dsimp only
  repeat' first
    | with_reducible apply Kept.ite
    | with_reducible apply Kept.refl
    | with_reducible assumption
    | with_reducible apply bump_kept
    | with_reducible apply Kept.trans ?_ (bump_kept ..)
    | with_reducible apply markLost_kept
    | with_reducible apply Kept.trans ?_ (markLost_kept ..)
    | with_reducible apply retireFrame_kept
    | with_reducible apply Kept.trans ?_ (retireFrame_kept ..)
    | with_reducible apply onPool_kept
    | with_reducible apply Kept.trans ?_ (onPool_kept ..)
    | split

theorem patrolLine_kept (a : Nat × Nat × Bool) (s : State) : Kept s (patrolLine a s) := by
  unfold patrolLine
  try dsimp only
  repeat' first
    | with_reducible apply Kept.ite
    | with_reducible apply Kept.refl
    | with_reducible assumption
    | with_reducible apply eccLine_kept

theorem retirePc_kept (k : Nat) (stack : Nat) (s : State) : Kept s (retirePc k stack s) := by
  unfold retirePc
  try dsimp only
  repeat' first
    | with_reducible apply Kept.ite
    | with_reducible apply Kept.refl
    | with_reducible assumption
    | with_reducible apply setRetires_kept
    | with_reducible apply Kept.trans ?_ (setRetires_kept ..)
    | with_reducible apply raise_kept
    | with_reducible apply Kept.trans ?_ (raise_kept ..)
    | with_reducible apply onPool_kept
    | with_reducible apply Kept.trans ?_ (onPool_kept ..)

theorem retirementEnds_kept (f : Nat) (s : State) : Kept s (retirementEnds f s) := by
  unfold retirementEnds
  try dsimp only
  repeat' first
    | with_reducible apply Kept.ite
    | with_reducible apply Kept.refl
    | with_reducible assumption
    | with_reducible apply frameSnooped_kept
    | with_reducible apply Kept.trans ?_ (frameSnooped_kept ..)
    | with_reducible apply raise_kept
    | with_reducible apply Kept.trans ?_ (raise_kept ..)
    | with_reducible apply bump_kept
    | with_reducible apply Kept.trans ?_ (bump_kept ..)
    | with_reducible apply retirePc_kept
    | with_reducible apply Kept.trans ?_ (retirePc_kept ..)
    | with_reducible apply onPool_kept
    | with_reducible apply Kept.trans ?_ (onPool_kept ..)
    | split

theorem setLost_kept (q : Nat) (lost : Bool) (s : State) : Kept s (setLost q lost s) := by
  unfold setLost
  try dsimp only
  repeat' first
    | with_reducible apply Kept.ite
    | with_reducible apply Kept.refl
    | with_reducible assumption
    | with_reducible apply onPool_kept

theorem cxlLost_kept (q : Nat) (s : State) : Kept s (cxlLost q s) := by
  unfold cxlLost
  try dsimp only
  repeat' first
    | with_reducible apply Kept.ite
    | with_reducible apply Kept.refl
    | with_reducible assumption
    | with_reducible apply raise_kept
    | with_reducible apply Kept.trans ?_ (raise_kept ..)
    | with_reducible apply setLost_kept
    | with_reducible apply Kept.trans ?_ (setLost_kept ..)
    | with_reducible apply onCxl_kept

theorem cxlTrains_kept (q : Nat) (found : Option CxlDev) (s : State) : Kept s (cxlTrains q found s) := by
  unfold cxlTrains
  try dsimp only
  repeat' first
    | with_reducible apply Kept.ite
    | with_reducible apply Kept.refl
    | with_reducible assumption
    | with_reducible apply bump_kept
    | with_reducible apply Kept.trans ?_ (bump_kept ..)
    | with_reducible apply raise_kept
    | with_reducible apply Kept.trans ?_ (raise_kept ..)
    | with_reducible apply setLost_kept
    | with_reducible apply Kept.trans ?_ (setLost_kept ..)
    | with_reducible apply onCxl_kept
    | with_reducible apply Kept.trans ?_ (onCxl_kept ..)
    | split

end Sys2Proof.Machine
end

