-- ==== Sys2Proof/Laws/KeptCheckOps.lean ====
section
/-! SUPPORT. What each operation of Machine/CheckOps.lean keeps. -/

namespace Sys2Proof.Machine

theorem blockInstall_kept (blk : Nat) (reading : List Byte) (s : State) : Kept s (blockInstall blk reading s) := by
  unfold blockInstall
  split
  · exact Kept.refl _
  · exact Kept.forAll (fun _ s => Kept.ite (Kept.refl _) ((mem_kept _ _ (Mem.wf_write _ _ _)).trans (chipAlloc_kept ..))) _

theorem fillDone_kept (blk : Nat) (reading : List Byte) (s : State) : Kept s (fillDone blk reading s) := by
  unfold fillDone
  try dsimp only
  repeat' first
    | with_reducible apply Kept.ite
    | with_reducible apply Kept.refl
    | with_reducible assumption
    | with_reducible apply resume_kept
    | with_reducible apply Kept.trans ?_ (resume_kept ..)
    | with_reducible apply blockInstall_kept
    | with_reducible apply Kept.trans ?_ (blockInstall_kept ..)
    | with_reducible apply bump_kept
    | with_reducible apply Kept.trans ?_ (bump_kept ..)
    | with_reducible apply onPool_kept

theorem mismatchEvent_kept (blk : Nat) (outcome : Nat) (s : State) : Kept s (mismatchEvent blk outcome s) := by
  unfold mismatchEvent
  try dsimp only
  repeat' first
    | with_reducible apply Kept.ite
    | with_reducible apply Kept.refl
    | with_reducible assumption
    | with_reducible apply raise_kept

theorem fillEcc_kept (blk : Nat) (ecc : List (Nat × Nat × Bool)) (s : State) : Kept s (fillEcc blk ecc s) := by
  unfold fillEcc
  try dsimp only
  repeat' first
    | with_reducible apply Kept.ite
    | with_reducible apply Kept.refl
    | with_reducible assumption
    | with_reducible apply eccLine_kept
    | with_reducible apply Kept.trans ?_ (eccLine_kept ..)
    | with_reducible apply Kept.trans ?_ (Kept.forAll (fun _ _ => ?_) _)

theorem fillArrives_kept (blk : Nat) (reading : List Byte) (ecc : List (Nat × Nat × Bool)) (s : State) : Kept s (fillArrives blk reading ecc s) := by
  unfold fillArrives
  try dsimp only
  repeat' first
    | with_reducible apply Kept.ite
    | with_reducible apply Kept.refl
    | with_reducible assumption
    | with_reducible apply fillEcc_kept
    | with_reducible apply Kept.trans ?_ (fillEcc_kept ..)
    | with_reducible apply fillDone_kept
    | with_reducible apply Kept.trans ?_ (fillDone_kept ..)
    | with_reducible apply onChk_kept
    | with_reducible apply Kept.trans ?_ (onChk_kept ..)

theorem regionsFail_kept (x : Nat) (s : State) : Kept s (regionsFail x s) := by
  unfold regionsFail
  try dsimp only
  repeat' first
    | with_reducible apply Kept.ite
    | with_reducible apply Kept.refl
    | with_reducible assumption
    | with_reducible apply onChk_kept

theorem blockLost_kept (blk : Nat) (s : State) : Kept s (blockLost blk s) := by
  unfold blockLost
  extract_lets e1 e2 e3 e4
  have k1 : Kept s e1 := onPool_kept ..
  have k2 : Kept s e2 := k1.trans (failWaits_kept ..)
  have k3 : Kept s e3 := k2.trans (Kept.forAll (fun _ _ => markLost_kept ..) _)
  have k4 : Kept s e4 := by
    dsimp +zetaDelta only
    split
    · exact k3.trans (regionsFail_kept ..)
    · exact k3
  exact ((k4.trans (bump_kept ..)).trans (mismatchEvent_kept ..)).trans (retireFrame_kept ..)

theorem rereadArrives_kept (blk : Nat) (reading : List Byte) (s : State) : Kept s (rereadArrives blk reading s) := by
  unfold rereadArrives
  extract_lets e1 e2
  have k2 : Kept s e2 := by
    repeat' first
      | with_reducible apply Kept.ite
      | with_reducible apply Kept.refl
      | with_reducible assumption
      | with_reducible apply fillDone_kept
      | with_reducible apply Kept.trans ?_ (fillDone_kept ..)
      | with_reducible apply mismatchEvent_kept
      | with_reducible apply Kept.trans ?_ (mismatchEvent_kept ..)
      | with_reducible apply bump_kept
      | with_reducible apply Kept.trans ?_ (bump_kept ..)
      | with_reducible apply blockLost_kept
      | with_reducible apply Kept.trans ?_ (blockLost_kept ..)
      | with_reducible apply onChk_kept
  clear_value e2
  repeat' first
    | with_reducible apply Kept.ite
    | with_reducible apply Kept.refl
    | with_reducible assumption
    | with_reducible apply fillDone_kept
    | with_reducible apply Kept.trans ?_ (fillDone_kept ..)
    | with_reducible apply mismatchEvent_kept
    | with_reducible apply Kept.trans ?_ (mismatchEvent_kept ..)
    | with_reducible apply bump_kept
    | with_reducible apply Kept.trans ?_ (bump_kept ..)
    | with_reducible apply blockLost_kept
    | with_reducible apply Kept.trans ?_ (blockLost_kept ..)

theorem dropFrame_kept (f : Flow) (x : Frame) (s : State) : Kept s (dropFrame f x s) := by
  unfold dropFrame
  try dsimp only
  repeat' first
    | with_reducible apply Kept.ite
    | with_reducible apply Kept.refl
    | with_reducible assumption
    | with_reducible apply leftIngress_kept
    | with_reducible apply Kept.trans ?_ (leftIngress_kept ..)
    | with_reducible apply setFlow_kept

theorem dropHeld_kept (src : Nat) (tag : Nat) (dst : Nat) (s : State) : Kept s (dropHeld src tag dst s) := by
  unfold dropHeld
  try dsimp only
  repeat' first
    | with_reducible apply Kept.ite
    | with_reducible apply Kept.refl
    | with_reducible assumption
    | with_reducible apply onSw_kept

theorem packetLost_kept (p : Packet) (s : State) : Kept s (packetLost p s) := by
  unfold packetLost
  try dsimp only
  repeat' first
    | with_reducible apply Kept.ite
    | with_reducible apply Kept.refl
    | with_reducible assumption
    | with_reducible apply answerLost_kept
    | with_reducible apply Kept.trans ?_ (answerLost_kept ..)
    | with_reducible apply failReq_kept
    | with_reducible apply Kept.trans ?_ (failReq_kept ..)
    | with_reducible apply dropFrame_kept
    | with_reducible apply Kept.trans ?_ (dropFrame_kept ..)
    | with_reducible apply dropHeld_kept
    | with_reducible apply Kept.trans ?_ (dropHeld_kept ..)
    | split

theorem descriptorLost_kept (c : Nat) (d : Issued) (s : State) : Kept s (descriptorLost c d s) := by
  unfold descriptorLost
  try dsimp only
  repeat' first
    | with_reducible apply Kept.ite
    | with_reducible apply Kept.refl
    | with_reducible assumption
    | with_reducible apply finishInc_kept

theorem replayed_kept (path : Nat) (unit : Nat) (o : ReplayOf) (clean : Bool) (s : State) : Kept s (replayed path unit o clean s) := by
  unfold replayed
  try dsimp only
  repeat' first
    | with_reducible apply Kept.ite
    | with_reducible apply Kept.refl
    | with_reducible assumption
    | with_reducible apply bump_kept
    | with_reducible apply Kept.trans ?_ (bump_kept ..)
    | with_reducible apply raise_kept
    | with_reducible apply Kept.trans ?_ (raise_kept ..)
    | with_reducible apply packetLost_kept
    | with_reducible apply Kept.trans ?_ (packetLost_kept ..)
    | with_reducible apply descriptorLost_kept
    | with_reducible apply Kept.trans ?_ (descriptorLost_kept ..)
    | with_reducible apply onChk_kept
    | with_reducible apply Kept.trans ?_ (onChk_kept ..)
    | split

theorem uncorrectable_kept (array : Nat) (index : Nat) (action : Nat) (s : State) : Kept s (uncorrectable array index action s) := by
  unfold uncorrectable
  try dsimp only
  repeat' first
    | with_reducible apply Kept.ite
    | with_reducible apply Kept.refl
    | with_reducible assumption
    | with_reducible apply raise_kept
    | with_reducible apply Kept.trans ?_ (raise_kept ..)
    | with_reducible apply bump_kept

theorem frameLost_kept (ingress : Nat) (egress : Nat) (x : Frame) (s : State) : Kept s (frameLost ingress egress x s) := by
  unfold frameLost
  try dsimp only
  repeat' first
    | with_reducible apply Kept.ite
    | with_reducible apply Kept.refl
    | with_reducible assumption
    | with_reducible apply failReq_kept
    | with_reducible apply Kept.trans ?_ (failReq_kept ..)
    | with_reducible apply raise_kept

theorem dropRecordOf_kept (p : Nat) (r : Req) (s : State) : Kept s (dropRecordOf p r s) := by
  unfold dropRecordOf
  try dsimp only
  repeat' first
    | with_reducible apply Kept.ite
    | with_reducible apply Kept.refl
    | with_reducible assumption
    | with_reducible apply dropRecord_kept
    | with_reducible apply Kept.trans ?_ (dropRecord_kept ..)
    | split

theorem sweepWord_kept (w : SweepWord) (s : State) : Kept s (sweepWord w s) := by
  unfold sweepWord
  try dsimp only
  repeat' first
    | with_reducible apply Kept.ite
    | with_reducible apply Kept.refl
    | with_reducible assumption
    | with_reducible apply bump_kept
    | with_reducible apply Kept.trans ?_ (bump_kept ..)
    | with_reducible apply uncorrectable_kept
    | with_reducible apply Kept.trans ?_ (uncorrectable_kept ..)
    | with_reducible apply frameLost_kept
    | with_reducible apply Kept.trans ?_ (frameLost_kept ..)
    | with_reducible apply dropFrame_kept
    | with_reducible apply Kept.trans ?_ (dropFrame_kept ..)
    | with_reducible apply dropRecordOf_kept
    | with_reducible apply Kept.trans ?_ (dropRecordOf_kept ..)
    | with_reducible apply markLost_kept
    | with_reducible apply Kept.trans ?_ (markLost_kept ..)
    | with_reducible apply chipDrop_kept
    | with_reducible apply Kept.trans ?_ (chipDrop_kept ..)
    | with_reducible apply onCore_kept
    | with_reducible apply Kept.trans ?_ (onCore_kept ..)
    | with_reducible apply discard_kept
    | with_reducible apply Kept.trans ?_ (discard_kept ..)
    | with_reducible apply onSw_kept
    | with_reducible apply Kept.trans ?_ (onSw_kept ..)
    | with_reducible apply onChk_kept
    | with_reducible apply Kept.trans ?_ (onChk_kept ..)
    | split

theorem sweep_kept (words : List SweepWord) (s : State) : Kept s (sweep words s) := by
  unfold sweep
  try dsimp only
  repeat' first
    | with_reducible apply Kept.ite
    | with_reducible apply Kept.refl
    | with_reducible assumption
    | with_reducible apply sweepWord_kept
    | with_reducible apply Kept.trans ?_ (sweepWord_kept ..)
    | with_reducible apply onChk_kept
    | with_reducible apply Kept.trans ?_ (onChk_kept ..)
    | with_reducible apply Kept.trans ?_ (Kept.forAll (fun _ _ => ?_) _)

theorem tilthAccept_kept (b : List Byte) (s : State) : Kept s (tilthAccept b s) := by
  unfold tilthAccept
  try dsimp only
  repeat' first
    | with_reducible apply Kept.ite
    | with_reducible apply Kept.refl
    | with_reducible assumption
    | with_reducible apply raise_kept
    | with_reducible apply Kept.trans ?_ (raise_kept ..)
    | with_reducible apply onChk_kept

theorem tilthWrite_kept (b : List Byte) (s : State) : Kept s (tilthWrite b s).2 := by
  unfold tilthWrite
  try dsimp only
  repeat' first
    | with_reducible apply Kept.ite
    | with_reducible apply Kept.refl
    | with_reducible assumption
    | with_reducible apply tilthAccept_kept
    | with_reducible apply Kept.trans ?_ (tilthAccept_kept ..)
    | with_reducible apply onChk_kept
    | with_reducible apply Kept.trans ?_ (onChk_kept ..)
    | split

theorem tilthResult_kept (status : Nat) (reason : Nat) (s : State) : Kept s (tilthResult status reason s) := by
  unfold tilthResult
  try dsimp only
  repeat' first
    | with_reducible apply Kept.ite
    | with_reducible apply Kept.refl
    | with_reducible assumption
    | with_reducible apply onChk_kept

theorem tilthTry_kept (s : State) : Kept s (tilthTry s).2 := by
  unfold tilthTry
  try dsimp only
  repeat' first
    | with_reducible apply Kept.ite
    | with_reducible apply Kept.refl
    | with_reducible assumption
    | with_reducible apply hubRead_kept
    | with_reducible apply Kept.trans ?_ (hubRead_kept ..)
    | with_reducible apply tilthResult_kept
    | with_reducible apply Kept.trans ?_ (tilthResult_kept ..)
    | with_reducible apply tilthAccept_kept
    | with_reducible apply Kept.trans ?_ (tilthAccept_kept ..)
    | split

theorem tilthLoad_kept (s : State) : Kept s (tilthLoad s) := by
  unfold tilthLoad
  try dsimp only
  repeat' first
    | with_reducible apply Kept.ite
    | with_reducible apply Kept.refl
    | with_reducible assumption
    | with_reducible apply regAck_kept
    | with_reducible apply Kept.trans ?_ (regAck_kept ..)
    | with_reducible apply tilthResult_kept
    | with_reducible apply Kept.trans ?_ (tilthResult_kept ..)
    | with_reducible apply hubCommand_kept
    | with_reducible apply Kept.trans ?_ (hubCommand_kept ..)
    | with_reducible apply tilthTry_kept
    | with_reducible apply Kept.trans ?_ (tilthTry_kept ..)
    | with_reducible apply onChk_kept

theorem tilthPlace_kept (c : Nat) (test : Nat) (s : State) : Kept s (tilthPlace c test s) := by
  unfold tilthPlace
  split
  · exact Kept.refl _
  · extract_lets x e1 e2
    have k1 : Kept s e1 := (spad_kept _ _ (Mem.wf_zero _ _ _)).trans (imagePlaced_kept ..)
    have k2 : Kept s e2 := k1.trans ((spadStore_kept ..).trans (onCore_kept ..))
    exact k2.trans (Kept.forAll (fun _ _ => onThread_kept ..) _)

theorem tilthBegin_kept (target : Nat) (s : State) : Kept s (tilthBegin target s) := by
  unfold tilthBegin
  try dsimp only
  repeat' first
    | with_reducible apply Kept.ite
    | with_reducible apply Kept.refl
    | with_reducible assumption
    | with_reducible apply tilthPlace_kept
    | with_reducible apply Kept.trans ?_ (tilthPlace_kept ..)
    | with_reducible apply onChk_kept
    | with_reducible apply Kept.trans ?_ (onChk_kept ..)
    | split

theorem tilthRunAll_kept (s : State) : Kept s (tilthRunAll s) := by
  unfold tilthRunAll
  try dsimp only
  repeat' first
    | with_reducible apply Kept.ite
    | with_reducible apply Kept.refl
    | with_reducible assumption
    | with_reducible apply tilthResult_kept
    | with_reducible apply Kept.trans ?_ (tilthResult_kept ..)
    | with_reducible apply tilthBegin_kept
    | with_reducible apply Kept.trans ?_ (tilthBegin_kept ..)
    | with_reducible apply Kept.trans ?_ (Kept.forAll (fun _ _ => ?_) _)

theorem tilthTurn_kept (s : State) : Kept s (tilthTurn s) := by
  unfold tilthTurn
  try dsimp only
  repeat' first
    | with_reducible apply Kept.ite
    | with_reducible apply Kept.refl
    | with_reducible assumption
    | with_reducible apply tilthBegin_kept
    | with_reducible apply Kept.trans ?_ (tilthBegin_kept ..)
    | with_reducible exact Kept.foldl_snd (fun _ _ => ?_) _ _
    | with_reducible apply Kept.foldl_snd (fun _ _ => ?_) _ _
    | with_reducible apply Kept.foldl_fst (fun _ _ => ?_) _ _
    | with_reducible apply Kept.foldl_snd_snd (fun _ _ => ?_) _ _ _
    | split

theorem tilthNext_kept (r : TilthRun) (s : State) : Kept s (tilthNext r s) := by
  unfold tilthNext
  try dsimp only
  repeat' first
    | with_reducible apply Kept.ite
    | with_reducible apply Kept.refl
    | with_reducible assumption
    | with_reducible apply tilthPlace_kept
    | with_reducible apply Kept.trans ?_ (tilthPlace_kept ..)
    | with_reducible apply tilthEnds_kept
    | with_reducible apply Kept.trans ?_ (tilthEnds_kept ..)
    | with_reducible apply onChk_kept
    | with_reducible apply Kept.trans ?_ (onChk_kept ..)
    | split

theorem tileSuspect_kept (t : Nat) (s : State) : Kept s (tileSuspect t s) := by
  unfold tileSuspect
  try dsimp only
  repeat' first
    | with_reducible apply Kept.ite
    | with_reducible apply Kept.refl
    | with_reducible assumption
    | with_reducible apply raise_kept
    | with_reducible apply Kept.trans ?_ (raise_kept ..)
    | with_reducible apply onSw_kept
    | with_reducible apply Kept.trans ?_ (onSw_kept ..)
    | with_reducible apply drawn_kept
    | with_reducible apply Kept.trans ?_ (drawn_kept ..)

theorem tilthTested_kept (target : Nat) (test : Nat) (passed : Bool) (s : State) : Kept s (tilthTested target test passed s) := by
  unfold tilthTested
  try dsimp only
  repeat' first
    | with_reducible apply Kept.ite
    | with_reducible apply Kept.refl
    | with_reducible assumption
    | with_reducible apply bump_kept
    | with_reducible apply Kept.trans ?_ (bump_kept ..)
    | with_reducible apply tilthNext_kept
    | with_reducible apply Kept.trans ?_ (tilthNext_kept ..)
    | with_reducible apply raise_kept
    | with_reducible apply Kept.trans ?_ (raise_kept ..)
    | with_reducible apply countTransient_kept
    | with_reducible apply Kept.trans ?_ (countTransient_kept ..)
    | with_reducible apply tilthPlace_kept
    | with_reducible apply Kept.trans ?_ (tilthPlace_kept ..)
    | with_reducible apply tileSuspect_kept
    | with_reducible apply Kept.trans ?_ (tileSuspect_kept ..)
    | with_reducible apply retireEngine_kept
    | with_reducible apply Kept.trans ?_ (retireEngine_kept ..)
    | with_reducible apply onChk_kept
    | with_reducible apply Kept.trans ?_ (onChk_kept ..)
    | split

theorem onRegion_kept (r : Nat) (f : DigestRegion → DigestRegion) (s : State) : Kept s (State.onRegion r f s) := by
  unfold State.onRegion
  try dsimp only
  repeat' first
    | with_reducible apply Kept.ite
    | with_reducible apply Kept.refl
    | with_reducible assumption
    | with_reducible apply onChk_kept

theorem writeRegion_kept (r : Nat) (b : List Byte) (s : State) : Kept s (writeRegion r b s).2 := by
  unfold writeRegion
  try dsimp only
  repeat' first
    | with_reducible apply Kept.ite
    | with_reducible apply Kept.refl
    | with_reducible assumption
    | with_reducible apply onRegion_kept
    | with_reducible apply Kept.trans ?_ (onRegion_kept ..)
    | split

theorem passBegin_kept (r : Nat) (s : State) : Kept s (passBegin r s) := by
  unfold passBegin
  try dsimp only
  repeat' first
    | with_reducible apply Kept.ite
    | with_reducible apply Kept.refl
    | with_reducible assumption
    | with_reducible apply onRegion_kept

theorem digestNow_kept (r : Nat) (s : State) : Kept s (digestNow r s).2 := by
  unfold digestNow
  try dsimp only
  repeat' first
    | with_reducible apply Kept.ite
    | with_reducible apply Kept.refl
    | with_reducible assumption
    | with_reducible apply passBegin_kept
    | with_reducible apply Kept.trans ?_ (passBegin_kept ..)
    | split

theorem digestDue_kept (r : Nat) (s : State) : Kept s (digestDue r s) := by
  unfold digestDue
  try dsimp only
  repeat' first
    | with_reducible apply Kept.ite
    | with_reducible apply Kept.refl
    | with_reducible assumption
    | with_reducible apply passBegin_kept

theorem passReads_kept (p : DigestPass) (s : State) : Kept s (passReads p s) := by
  unfold passReads
  try dsimp only
  repeat' first
    | with_reducible apply Kept.ite
    | with_reducible apply Kept.refl
    | with_reducible assumption
    | with_reducible apply mismatchEvent_kept
    | with_reducible apply Kept.trans ?_ (mismatchEvent_kept ..)
    | with_reducible apply bump_kept
    | with_reducible apply Kept.trans ?_ (bump_kept ..)
    | with_reducible apply blockLost_kept
    | with_reducible apply Kept.trans ?_ (blockLost_kept ..)
    | with_reducible apply Kept.trans ?_ (Kept.forAll (fun _ _ => ?_) _)
    | split

theorem passEnds_kept (p : DigestPass) (s : State) : Kept s (passEnds p s) := by
  unfold passEnds
  try dsimp only
  repeat' first
    | with_reducible apply Kept.ite
    | with_reducible apply Kept.refl
    | with_reducible assumption
    | with_reducible apply passReads_kept
    | with_reducible apply Kept.trans ?_ (passReads_kept ..)
    | with_reducible apply onRegion_kept
    | with_reducible apply Kept.trans ?_ (onRegion_kept ..)
    | with_reducible apply raise_kept
    | with_reducible apply Kept.trans ?_ (raise_kept ..)
    | with_reducible apply bump_kept
    | with_reducible apply Kept.trans ?_ (bump_kept ..)
    | with_reducible apply drawn_kept
    | with_reducible apply Kept.trans ?_ (drawn_kept ..)

end Sys2Proof.Machine
end

