-- ==== Sys2Proof/Laws/KeptTranslation.lean ====
section
/-! SUPPORT. What each operation of Machine/Translation.lean keeps. -/

namespace Sys2Proof.Machine

theorem xltReg_kept (f : State → State) (s : State) (hf : ∀ s, Kept s (f s)) : Kept s (xltReg f s) := by
  unfold xltReg
  try dsimp only
  repeat' first
    | with_reducible apply Kept.ite
    | with_reducible apply Kept.refl
    | with_reducible assumption
    | with_reducible apply Kept.trans ?_ (viaRegIn_kept (hf := fun _ => ?_) ..)
    | with_reducible apply regAck_kept
    | with_reducible apply Kept.trans ?_ (regAck_kept ..)
    | with_reducible exact hf _

theorem ctxResult_kept (status : Nat) (s : State) : Kept s (ctxResult status s) := by
  unfold ctxResult
  try dsimp only
  repeat' first
    | with_reducible apply Kept.ite
    | with_reducible apply Kept.refl
    | with_reducible assumption
    | with_reducible apply onXlt_kept

theorem ctxCreated_kept (s : State) : Kept s (ctxCreated s) := by
  unfold ctxCreated
  try dsimp only
  repeat' first
    | with_reducible apply Kept.ite
    | with_reducible apply Kept.refl
    | with_reducible assumption
    | with_reducible apply onXlt_kept

theorem createCtx_kept (ctx : Nat) (fail : Bool) (s : State) : Kept s (createCtx ctx fail s) := by
  unfold createCtx
  try dsimp only
  repeat' first
    | with_reducible apply Kept.ite
    | with_reducible apply Kept.refl
    | with_reducible assumption
    | with_reducible apply ctxResult_kept
    | with_reducible apply Kept.trans ?_ (ctxResult_kept ..)
    | with_reducible apply ctxCreated_kept
    | with_reducible apply Kept.trans ?_ (ctxCreated_kept ..)
    | with_reducible apply onXlt_kept

theorem destroyCtx_kept (ctx : Nat) (s : State) : Kept s (destroyCtx ctx s) := by
  unfold destroyCtx
  try dsimp only
  repeat' first
    | with_reducible apply Kept.ite
    | with_reducible apply Kept.refl
    | with_reducible assumption
    | with_reducible apply ctxResult_kept
    | with_reducible apply Kept.trans ?_ (ctxResult_kept ..)
    | with_reducible apply faultsFail_kept
    | with_reducible apply Kept.trans ?_ (faultsFail_kept ..)
    | with_reducible apply onXlt_kept
    | with_reducible apply Kept.trans ?_ (onXlt_kept ..)
    | split

theorem freeCtx_kept (ctx : Nat) (s : State) : Kept s (freeCtx ctx s) := by
  unfold freeCtx
  try dsimp only
  repeat' first
    | with_reducible apply Kept.ite
    | with_reducible apply Kept.refl
    | with_reducible assumption
    | with_reducible apply onXlt_kept
    | with_reducible apply Kept.trans ?_ (onXlt_kept ..)
    | with_reducible apply onFur_kept
    | with_reducible apply Kept.trans ?_ (onFur_kept ..)
    | split

theorem publishGen_kept (gen : U64) (s : State) : Kept s (publishGen gen s) := by
  unfold publishGen
  try dsimp only
  repeat' first
    | with_reducible apply Kept.ite
    | with_reducible apply Kept.refl
    | with_reducible assumption
    | with_reducible apply bump_kept
    | with_reducible apply Kept.trans ?_ (bump_kept ..)
    | with_reducible apply genMoves_kept
    | with_reducible apply Kept.trans ?_ (genMoves_kept ..)
    | with_reducible apply onXlt_kept

theorem walksTurn_kept (s : State) : Kept s (walksTurn s) := by
  unfold walksTurn
  try dsimp only
  repeat' first
    | with_reducible apply Kept.ite
    | with_reducible apply Kept.refl
    | with_reducible assumption
    | with_reducible apply onXlt_kept

theorem walkEnds_kept (core : Nat) (ctx : Nat) (page : Nat) (s : State) : Kept s (walkEnds core ctx page s) := by
  unfold walkEnds
  try dsimp only
  repeat' first
    | with_reducible apply Kept.ite
    | with_reducible apply Kept.refl
    | with_reducible assumption
    | with_reducible apply bump_kept
    | with_reducible apply Kept.trans ?_ (bump_kept ..)
    | with_reducible apply walksTurn_kept
    | with_reducible apply Kept.trans ?_ (walksTurn_kept ..)
    | with_reducible apply fill_kept
    | with_reducible apply Kept.trans ?_ (fill_kept ..)
    | with_reducible apply walked_kept
    | with_reducible apply Kept.trans ?_ (walked_kept ..)
    | with_reducible apply walkBarred_kept
    | with_reducible apply Kept.trans ?_ (walkBarred_kept ..)
    | with_reducible apply onXlt_kept
    | with_reducible apply Kept.trans ?_ (onXlt_kept ..)
    | split

theorem recordFault_kept (entry : Nat) (s : State) : Kept s (recordFault entry s) := by
  unfold recordFault
  try dsimp only
  repeat' first
    | with_reducible apply Kept.ite
    | with_reducible apply Kept.refl
    | with_reducible assumption
    | with_reducible apply writeRecord_kept
    | with_reducible apply Kept.trans ?_ (writeRecord_kept ..)
    | split

theorem consumeFaults_kept (v : Nat) (s : State) : Kept s (consumeFaults v s) := by
  unfold consumeFaults
  try dsimp only
  repeat' first
    | with_reducible apply Kept.ite
    | with_reducible apply Kept.refl
    | with_reducible assumption
    | with_reducible apply onXlt_kept
    | with_reducible apply Kept.trans ?_ (onXlt_kept ..)
    | split

theorem resolveFault_kept (entry : Nat) (fail : Option Nat) (s : State) : Kept s (resolveFault entry fail s) := by
  unfold resolveFault
  try dsimp only
  repeat' first
    | with_reducible apply Kept.ite
    | with_reducible apply Kept.refl
    | with_reducible assumption
    | with_reducible apply resolveNow_kept
    | with_reducible apply Kept.trans ?_ (resolveNow_kept ..)
    | with_reducible apply onXlt_kept

theorem expireFault_kept (entry : Nat) (s : State) : Kept s (expireFault entry s) := by
  unfold expireFault
  try dsimp only
  repeat' first
    | with_reducible apply Kept.ite
    | with_reducible apply Kept.refl
    | with_reducible assumption
    | with_reducible apply raise_kept
    | with_reducible apply Kept.trans ?_ (raise_kept ..)
    | with_reducible apply faultEnds_kept
    | with_reducible apply Kept.trans ?_ (faultEnds_kept ..)
    | split

theorem shoot_kept (pages : Nat) (s : State) : Kept s (shoot pages s) := by
  unfold shoot
  try dsimp only
  repeat' first
    | with_reducible apply Kept.ite
    | with_reducible apply Kept.refl
    | with_reducible assumption
    | with_reducible apply onXlt_kept

theorem cacheShoot_kept (p : CLine → Bool) (c : Nat) (s : State) : Kept s (cacheShoot p c s) := by
  unfold cacheShoot
  try dsimp only
  repeat' first
    | with_reducible apply Kept.ite
    | with_reducible apply Kept.refl
    | with_reducible assumption
    | with_reducible apply writeOut_kept
    | with_reducible apply Kept.trans ?_ (writeOut_kept ..)
    | with_reducible apply onCore_kept
    | with_reducible apply Kept.trans ?_ (onCore_kept ..)
    | with_reducible apply Kept.trans ?_ (Kept.forAll (fun _ _ => ?_) _)

theorem coreShot_kept (named : Nat → Nat → Bool) (c : Nat) (s : State) : Kept s (coreShot named c s) := by
  unfold coreShot
  try dsimp only
  repeat' first
    | with_reducible apply Kept.ite
    | with_reducible apply Kept.refl
    | with_reducible assumption
    | with_reducible apply onCore_kept

theorem wrapBegins_kept (s : State) : Kept s (wrapBegins s) := by
  unfold wrapBegins
  try dsimp only
  repeat' first
    | with_reducible apply Kept.ite
    | with_reducible apply Kept.refl
    | with_reducible assumption
    | with_reducible apply writeOut_kept
    | with_reducible apply Kept.trans ?_ (writeOut_kept ..)
    | with_reducible apply cachePut_kept
    | with_reducible apply Kept.trans ?_ (cachePut_kept ..)
    | with_reducible apply onXlt_kept
    | with_reducible apply Kept.trans ?_ (onXlt_kept ..)
    | with_reducible apply Kept.trans ?_ (Kept.forAll (fun _ _ => ?_) _)

theorem advanceNow_kept (s : State) : Kept s (advanceNow s) := by
  unfold advanceNow
  try dsimp only
  repeat' first
    | with_reducible apply Kept.ite
    | with_reducible apply Kept.refl
    | with_reducible assumption
    | with_reducible apply coreShot_kept
    | with_reducible apply Kept.trans ?_ (coreShot_kept ..)
    | with_reducible apply cacheShoot_kept
    | with_reducible apply Kept.trans ?_ (cacheShoot_kept ..)
    | with_reducible apply bump_kept
    | with_reducible apply Kept.trans ?_ (bump_kept ..)
    | with_reducible apply raise_kept
    | with_reducible apply Kept.trans ?_ (raise_kept ..)
    | with_reducible apply onXlt_kept
    | with_reducible apply Kept.trans ?_ (onXlt_kept ..)
    | with_reducible apply drawn_kept
    | with_reducible apply Kept.trans ?_ (drawn_kept ..)
    | with_reducible apply Kept.trans ?_ (Kept.forAll (fun _ _ => ?_) _)

theorem advance_kept (s : State) : Kept s (advance s) := by
  unfold advance
  try dsimp only
  repeat' first
    | with_reducible apply Kept.ite
    | with_reducible apply Kept.refl
    | with_reducible assumption
    | with_reducible apply wrapBegins_kept
    | with_reducible apply Kept.trans ?_ (wrapBegins_kept ..)
    | with_reducible apply advanceNow_kept
    | with_reducible apply Kept.trans ?_ (advanceNow_kept ..)

theorem shootEnds_kept (s : State) : Kept s (shootEnds s) := by
  unfold shootEnds
  try dsimp only
  repeat' first
    | with_reducible apply Kept.ite
    | with_reducible apply Kept.refl
    | with_reducible assumption
    | with_reducible apply ringDoorbell_kept
    | with_reducible apply Kept.trans ?_ (ringDoorbell_kept ..)
    | with_reducible apply bump_kept
    | with_reducible apply Kept.trans ?_ (bump_kept ..)
    | with_reducible apply onXlt_kept
    | with_reducible apply Kept.trans ?_ (onXlt_kept ..)
    | split

end Sys2Proof.Machine
end

