-- ==== Sys2Proof/Laws/KeptKeyOps.lean ====
section
/-! SUPPORT. What each operation of Machine/KeyOps.lean keeps. -/

namespace Sys2Proof.Machine

theorem clusterTurn_kept (k : Nat) (s : State) : Kept s (clusterTurn k s) := by
  unfold clusterTurn
  try dsimp only
  repeat' first
    | with_reducible apply Kept.ite
    | with_reducible apply Kept.refl
    | with_reducible assumption
    | with_reducible apply onPower_kept
    | with_reducible apply Kept.trans ?_ (onPower_kept ..)

theorem clustersTurn_kept (s : State) : Kept s (clustersTurn s) := by
  unfold clustersTurn
  try dsimp only
  repeat' first
    | with_reducible apply Kept.ite
    | with_reducible apply Kept.refl
    | with_reducible assumption
    | with_reducible apply clusterTurn_kept
    | with_reducible apply Kept.trans ?_ (clusterTurn_kept ..)
    | with_reducible apply Kept.trans ?_ (Kept.forAll (fun _ _ => ?_) _)

theorem takeOne_kept (n : Nat) (s : State) : Kept s (takeOne n s) := by
  unfold takeOne
  try dsimp only
  repeat' first
    | with_reducible apply Kept.ite
    | with_reducible apply Kept.refl
    | with_reducible assumption
    | with_reducible apply onExt_kept
    | with_reducible apply Kept.trans ?_ (onExt_kept ..)
    | split

theorem takeShare_kept (n : Nat) (s : State) : Kept s (takeShare n s) := by
  unfold takeShare
  try dsimp only
  repeat' first
    | with_reducible apply Kept.ite
    | with_reducible apply Kept.refl
    | with_reducible assumption
    | with_reducible apply setRetires_kept
    | with_reducible apply Kept.trans ?_ (setRetires_kept ..)
    | with_reducible apply takeOne_kept
    | with_reducible apply Kept.trans ?_ (takeOne_kept ..)
    | with_reducible apply onPool_kept
    | with_reducible apply Kept.trans ?_ (onPool_kept ..)
    | with_reducible apply Kept.trans ?_ (Kept.forAll (fun _ _ => ?_) _)

theorem setOd_kept (key : Nat) (v : Nat) (s : State) : Kept s (setOd key v s) := by
  unfold setOd
  try dsimp only
  repeat' first
    | with_reducible apply Kept.ite
    | with_reducible apply Kept.refl
    | with_reducible assumption
    | with_reducible apply onDict_kept

theorem writeCores_kept (n : Nat) (v : Nat) (s : State) : Kept s (writeCores n v s).2 := by
  unfold writeCores
  try dsimp only
  repeat' first
    | with_reducible apply Kept.ite
    | with_reducible apply Kept.refl
    | with_reducible assumption
    | with_reducible apply clustersTurn_kept
    | with_reducible apply Kept.trans ?_ (clustersTurn_kept ..)
    | with_reducible apply setOd_kept
    | with_reducible apply Kept.trans ?_ (setOd_kept ..)
    | split

theorem waysDrop_kept (n : Nat) (s : State) : Kept s (waysDrop n s) := by
  unfold waysDrop
  try dsimp only
  repeat' first
    | with_reducible apply Kept.ite
    | with_reducible apply Kept.refl
    | with_reducible assumption
    | with_reducible apply writeBack_kept
    | with_reducible apply Kept.trans ?_ (writeBack_kept ..)
    | with_reducible apply onPool_kept
    | with_reducible apply Kept.trans ?_ (onPool_kept ..)
    | with_reducible apply drawn_kept
    | with_reducible apply Kept.trans ?_ (drawn_kept ..)
    | with_reducible apply Kept.trans ?_ (Kept.forAll (fun _ _ => ?_) _)

theorem writeWays_kept (n : Nat) (v : Nat) (s : State) : Kept s (writeWays n v s).2 := by
  unfold writeWays
  try dsimp only
  repeat' first
    | with_reducible apply Kept.ite
    | with_reducible apply Kept.refl
    | with_reducible assumption
    | with_reducible apply setOd_kept
    | with_reducible apply Kept.trans ?_ (setOd_kept ..)
    | with_reducible apply waysDrop_kept
    | with_reducible apply Kept.trans ?_ (waysDrop_kept ..)
    | split

theorem writeSets_kept (n : Nat) (v : Nat) (s : State) : Kept s (writeSets n v s).2 := by
  unfold writeSets
  try dsimp only
  repeat' first
    | with_reducible apply Kept.ite
    | with_reducible apply Kept.refl
    | with_reducible assumption
    | with_reducible apply setOd_kept
    | with_reducible apply Kept.trans ?_ (setOd_kept ..)
    | with_reducible apply takeShare_kept
    | with_reducible apply Kept.trans ?_ (takeShare_kept ..)
    | split

theorem rotatePlot_kept (n : Nat) (s : State) : Kept s (rotatePlot n s) := by
  unfold rotatePlot
  try dsimp only
  repeat' first
    | with_reducible apply Kept.ite
    | with_reducible apply Kept.refl
    | with_reducible assumption
    | with_reducible apply onPlot_kept
    | with_reducible apply Kept.trans ?_ (onPlot_kept ..)
    | with_reducible apply onKey_kept
    | with_reducible apply Kept.trans ?_ (onKey_kept ..)

theorem frameRetired_kept (f : Nat) (s : State) : Kept s (frameRetired f s) := by
  unfold frameRetired
  extract_lets e1 e2 e3
  have k1 : Kept s e1 := chipDrop_kept ..
  have k3 : Kept s e3 := (k1.trans (onPool_kept ..)).trans (onPool_kept ..)
  clear_value e3
  exact k3.trans ((onKey_kept (fun k => { k with frameGen := k.frameGen.erase f }) e3).trans
    (mem_kept _ _ (Mem.wf_zero _ _ _)))

theorem retireOld_kept (n : Nat) (s : State) : Kept s (retireOld n s) := by
  unfold retireOld
  try dsimp only
  repeat' first
    | with_reducible apply Kept.ite
    | with_reducible apply Kept.refl
    | with_reducible assumption
    | with_reducible apply raise_kept
    | with_reducible apply Kept.trans ?_ (raise_kept ..)
    | with_reducible apply onPlot_kept
    | with_reducible apply Kept.trans ?_ (onPlot_kept ..)
    | with_reducible apply frameRetired_kept
    | with_reducible apply Kept.trans ?_ (frameRetired_kept ..)
    | with_reducible apply Kept.trans ?_ (Kept.forAll (fun _ _ => ?_) _)

theorem liftPlot_kept (n : Nat) (s : State) : Kept s (liftPlot n s) := by
  unfold liftPlot
  try dsimp only
  repeat' first
    | with_reducible apply Kept.ite
    | with_reducible apply Kept.refl
    | with_reducible assumption
    | with_reducible apply onPlot_kept
    | with_reducible apply Kept.trans ?_ (onPlot_kept ..)
    | with_reducible apply touch_kept
    | with_reducible apply Kept.trans ?_ (touch_kept ..)
    | with_reducible apply Kept.trans ?_ (Kept.forAll (fun _ _ => ?_) _)

theorem removeCore_kept (c : Nat) (s : State) : Kept s (removeCore c s) := by
  unfold removeCore
  try dsimp only
  repeat' first
    | with_reducible apply Kept.ite
    | with_reducible apply Kept.refl
    | with_reducible assumption
    | with_reducible apply finishInc_kept
    | with_reducible apply Kept.trans ?_ (finishInc_kept ..)
    | with_reducible apply stopThread_kept
    | with_reducible apply Kept.trans ?_ (stopThread_kept ..)
    | with_reducible apply Kept.trans ?_ (Kept.forAll (fun _ _ => ?_) _)

theorem removePlot_kept (n : Nat) (s : State) : Kept s (removePlot n s) := by
  unfold removePlot
  extract_lets e1 e2 e3 e4 e5 e6
  have k1 : Kept s e1 := by
    repeat' first
      | with_reducible apply Kept.ite
      | with_reducible apply Kept.refl
      | with_reducible assumption
      | with_reducible apply onPlot_kept
  clear_value e1
  have k2 : Kept s e2 := by
    repeat' first
      | with_reducible apply Kept.ite
      | with_reducible apply Kept.refl
      | with_reducible assumption
      | with_reducible apply onPlot_kept
      | with_reducible apply Kept.trans ?_ (onPlot_kept ..)
      | with_reducible apply raise_kept
      | with_reducible apply Kept.trans ?_ (raise_kept ..)
  clear_value e2
  have k3 : Kept s e3 := by
    repeat' first
      | with_reducible apply Kept.ite
      | with_reducible apply Kept.refl
      | with_reducible assumption
      | with_reducible apply onPlot_kept
      | with_reducible apply Kept.trans ?_ (onPlot_kept ..)
      | with_reducible apply raise_kept
      | with_reducible apply Kept.trans ?_ (raise_kept ..)
      | with_reducible apply abortPlot_kept
      | with_reducible apply Kept.trans ?_ (abortPlot_kept ..)
      | with_reducible apply removeCore_kept
      | with_reducible apply Kept.trans ?_ (removeCore_kept ..)
      | with_reducible apply faultsFail_kept
      | with_reducible apply Kept.trans ?_ (faultsFail_kept ..)
      | with_reducible apply onSync_kept
      | with_reducible apply Kept.trans ?_ (onSync_kept ..)
      | with_reducible apply onXlt_kept
      | with_reducible apply Kept.trans ?_ (onXlt_kept ..)
      | with_reducible apply Kept.trans ?_ (Kept.forAll (fun _ _ => ?_) _)
  clear_value e3
  have k4 : Kept s e4 := by
    repeat' first
      | with_reducible apply Kept.ite
      | with_reducible apply Kept.refl
      | with_reducible assumption
      | with_reducible apply onPlot_kept
      | with_reducible apply Kept.trans ?_ (onPlot_kept ..)
      | with_reducible apply raise_kept
      | with_reducible apply Kept.trans ?_ (raise_kept ..)
      | with_reducible apply abortPlot_kept
      | with_reducible apply Kept.trans ?_ (abortPlot_kept ..)
      | with_reducible apply removeCore_kept
      | with_reducible apply Kept.trans ?_ (removeCore_kept ..)
      | with_reducible apply faultsFail_kept
      | with_reducible apply Kept.trans ?_ (faultsFail_kept ..)
      | with_reducible apply onSync_kept
      | with_reducible apply Kept.trans ?_ (onSync_kept ..)
  clear_value e4
  have k6 : Kept s e6 := by
    repeat' first
      | with_reducible apply Kept.ite
      | with_reducible apply Kept.refl
      | with_reducible assumption
      | with_reducible apply onPlot_kept
      | with_reducible apply Kept.trans ?_ (onPlot_kept ..)
      | with_reducible apply raise_kept
      | with_reducible apply Kept.trans ?_ (raise_kept ..)
      | with_reducible apply abortPlot_kept
      | with_reducible apply Kept.trans ?_ (abortPlot_kept ..)
      | with_reducible apply removeCore_kept
      | with_reducible apply Kept.trans ?_ (removeCore_kept ..)
      | with_reducible apply faultsFail_kept
      | with_reducible apply Kept.trans ?_ (faultsFail_kept ..)
      | with_reducible apply onSync_kept
      | with_reducible apply Kept.trans ?_ (onSync_kept ..)
      | with_reducible apply onXlt_kept
      | with_reducible apply Kept.trans ?_ (onXlt_kept ..)
  clear_value e6
  repeat' first
    | with_reducible apply Kept.ite
    | with_reducible apply Kept.refl
    | with_reducible assumption
    | with_reducible apply onPlot_kept
    | with_reducible apply Kept.trans ?_ (onPlot_kept ..)
    | with_reducible apply raise_kept
    | with_reducible apply Kept.trans ?_ (raise_kept ..)
    | with_reducible apply abortPlot_kept
    | with_reducible apply Kept.trans ?_ (abortPlot_kept ..)
    | with_reducible apply removeCore_kept
    | with_reducible apply Kept.trans ?_ (removeCore_kept ..)
    | with_reducible apply faultsFail_kept
    | with_reducible apply Kept.trans ?_ (faultsFail_kept ..)

theorem createPlot_kept (n : Nat) (s : State) : Kept s (createPlot n s).2 := by
  unfold createPlot
  try dsimp only
  repeat' first
    | with_reducible apply Kept.ite
    | with_reducible apply Kept.refl
    | with_reducible assumption
    | with_reducible apply onPlot_kept
    | with_reducible apply Kept.trans ?_ (onPlot_kept ..)
    | split

theorem activatePlot_kept (n : Nat) (s : State) : Kept s (activatePlot n s).2 := by
  unfold activatePlot
  try dsimp only
  repeat' first
    | with_reducible apply Kept.ite
    | with_reducible apply Kept.refl
    | with_reducible assumption
    | with_reducible apply takeShare_kept
    | with_reducible apply Kept.trans ?_ (takeShare_kept ..)
    | with_reducible apply onPlot_kept
    | with_reducible apply Kept.trans ?_ (onPlot_kept ..)
    | split

theorem plotCommand_kept (op : Nat) (n : Nat) (force : Bool) (s : State) : Kept s (plotCommand op n force s).2 := by
  unfold plotCommand
  try dsimp only
  repeat' first
    | with_reducible apply Kept.ite
    | with_reducible apply Kept.refl
    | with_reducible assumption
    | with_reducible apply createPlot_kept
    | with_reducible apply Kept.trans ?_ (createPlot_kept ..)
    | with_reducible apply activatePlot_kept
    | with_reducible apply Kept.trans ?_ (activatePlot_kept ..)
    | with_reducible apply rotatePlot_kept
    | with_reducible apply Kept.trans ?_ (rotatePlot_kept ..)
    | with_reducible apply retireOld_kept
    | with_reducible apply Kept.trans ?_ (retireOld_kept ..)
    | with_reducible apply abortPlot_kept
    | with_reducible apply Kept.trans ?_ (abortPlot_kept ..)
    | with_reducible apply raise_kept
    | with_reducible apply Kept.trans ?_ (raise_kept ..)
    | with_reducible apply onPlot_kept
    | with_reducible apply Kept.trans ?_ (onPlot_kept ..)
    | with_reducible apply liftPlot_kept
    | with_reducible apply Kept.trans ?_ (liftPlot_kept ..)
    | with_reducible apply removePlot_kept
    | with_reducible apply Kept.trans ?_ (removePlot_kept ..)
    | split

theorem plotByReg_kept (op : Nat) (n : Nat) (force : Bool) (s : State) : Kept s (plotByReg op n force s) := by
  unfold plotByReg
  extract_lets e1
  have k1 : Kept s e1.2 := by
    repeat' first
      | with_reducible apply Kept.ite
      | with_reducible apply Kept.refl
      | with_reducible assumption
      | with_reducible apply plotCommand_kept
  clear_value e1
  repeat' first
    | with_reducible apply Kept.ite
    | with_reducible apply Kept.refl
    | with_reducible assumption
    | with_reducible apply plotCommand_kept
    | with_reducible apply Kept.trans ?_ (plotCommand_kept ..)
    | with_reducible apply regAck_kept
    | with_reducible apply Kept.trans ?_ (regAck_kept ..)
    | with_reducible apply onKey_kept
    | with_reducible apply Kept.trans ?_ (onKey_kept ..)

theorem plotComes_kept (dict : Bool) (op : Nat) (n : Nat) (force : Bool) (s : State) : Kept s (plotComes dict op n force s) := by
  unfold plotComes
  try dsimp only
  repeat' first
    | with_reducible apply Kept.ite
    | with_reducible apply Kept.refl
    | with_reducible assumption
    | with_reducible apply settle_kept
    | with_reducible apply Kept.trans ?_ (settle_kept ..)
    | with_reducible apply plotCommand_kept
    | with_reducible apply Kept.trans ?_ (plotCommand_kept ..)
    | with_reducible apply Kept.trans ?_ (viaRegIn_kept (hf := fun _ => ?_) ..)
    | with_reducible apply plotByReg_kept

theorem failFrames_kept (n : Nat) (s : State) : Kept s (failFrames n s) := by
  unfold failFrames
  try dsimp only
  repeat' first
    | with_reducible apply Kept.ite
    | with_reducible apply Kept.refl
    | with_reducible assumption
    | with_reducible apply refuseReq_kept
    | with_reducible apply Kept.trans ?_ (refuseReq_kept ..)
    | with_reducible apply leftIngress_kept
    | with_reducible apply Kept.trans ?_ (leftIngress_kept ..)
    | with_reducible apply failReq_kept
    | with_reducible apply Kept.trans ?_ (failReq_kept ..)
    | with_reducible apply dropFrames_kept
    | with_reducible apply Kept.trans ?_ (dropFrames_kept ..)
    | with_reducible apply Kept.trans ?_ (Kept.forAll (fun _ _ => ?_) _)

theorem removeExpires_kept (n : Nat) (s : State) : Kept s (removeExpires n s) := by
  unfold removeExpires
  try dsimp only
  repeat' first
    | with_reducible apply Kept.ite
    | with_reducible apply Kept.refl
    | with_reducible assumption
    | with_reducible apply onPlot_kept
    | with_reducible apply Kept.trans ?_ (onPlot_kept ..)
    | with_reducible apply failWaits_kept
    | with_reducible apply Kept.trans ?_ (failWaits_kept ..)
    | with_reducible apply onExt_kept
    | with_reducible apply Kept.trans ?_ (onExt_kept ..)
    | with_reducible apply versionOutcome_kept
    | with_reducible apply Kept.trans ?_ (versionOutcome_kept ..)
    | with_reducible apply failReq_kept
    | with_reducible apply Kept.trans ?_ (failReq_kept ..)
    | with_reducible apply failFrames_kept
    | with_reducible apply Kept.trans ?_ (failFrames_kept ..)
    | with_reducible apply onXlt_kept
    | with_reducible apply Kept.trans ?_ (onXlt_kept ..)
    | with_reducible apply Kept.trans ?_ (Kept.forAll (fun _ _ => ?_) _)

theorem dropCtxs_kept (n : Nat) (s : State) : Kept s (dropCtxs n s) := by
  unfold dropCtxs
  try dsimp only
  repeat' first
    | with_reducible apply Kept.ite
    | with_reducible apply Kept.refl
    | with_reducible assumption
    | with_reducible apply freeCtx_kept
    | with_reducible apply Kept.trans ?_ (freeCtx_kept ..)
    | with_reducible apply onFur_kept
    | with_reducible apply Kept.trans ?_ (onFur_kept ..)
    | with_reducible apply Kept.trans ?_ (Kept.forAll (fun _ _ => ?_) _)

theorem dropLayout_kept (n : Nat) (s : State) : Kept s (dropLayout n s) := by
  unfold dropLayout
  try dsimp only
  repeat' first
    | with_reducible apply Kept.ite
    | with_reducible apply Kept.refl
    | with_reducible assumption
    | with_reducible apply clustersTurn_kept
    | with_reducible apply Kept.trans ?_ (clustersTurn_kept ..)
    | with_reducible apply onDict_kept

theorem removeEnds_kept (n : Nat) (s : State) : Kept s (removeEnds n s) := by
  unfold removeEnds
  extract_lets e1 e2 e3 e4 e5 e6 e7 e8 e9 e10 e11 e12
  have k4 : Kept s e4 := by
    repeat' first
      | with_reducible apply Kept.ite
      | with_reducible apply Kept.refl
      | with_reducible assumption
      | with_reducible apply coreClear_kept
      | with_reducible apply Kept.trans ?_ (coreClear_kept ..)
      | with_reducible apply dropCtxs_kept
      | with_reducible apply Kept.trans ?_ (dropCtxs_kept ..)
      | with_reducible apply regionsGone_kept
      | with_reducible apply Kept.trans ?_ (regionsGone_kept ..)
      | with_reducible apply onExt_kept
      | with_reducible apply Kept.trans ?_ (onExt_kept ..)
      | with_reducible apply dropLayout_kept
      | with_reducible apply Kept.trans ?_ (dropLayout_kept ..)
      | with_reducible apply portFallow_kept
      | with_reducible apply Kept.trans ?_ (portFallow_kept ..)
      | with_reducible apply raise_kept
      | with_reducible apply Kept.trans ?_ (raise_kept ..)
      | with_reducible apply onPool_kept
  clear_value e4
  have k5 : Kept s e5 := by
    repeat' first
      | with_reducible apply Kept.ite
      | with_reducible apply Kept.refl
      | with_reducible assumption
      | with_reducible apply coreClear_kept
      | with_reducible apply Kept.trans ?_ (coreClear_kept ..)
      | with_reducible apply dropCtxs_kept
      | with_reducible apply Kept.trans ?_ (dropCtxs_kept ..)
      | with_reducible apply regionsGone_kept
      | with_reducible apply Kept.trans ?_ (regionsGone_kept ..)
      | with_reducible apply onExt_kept
      | with_reducible apply Kept.trans ?_ (onExt_kept ..)
      | with_reducible apply dropLayout_kept
      | with_reducible apply Kept.trans ?_ (dropLayout_kept ..)
      | with_reducible apply portFallow_kept
      | with_reducible apply Kept.trans ?_ (portFallow_kept ..)
      | with_reducible apply raise_kept
      | with_reducible apply Kept.trans ?_ (raise_kept ..)
      | with_reducible apply onPool_kept
      | with_reducible apply Kept.trans ?_ (onPool_kept ..)
      | with_reducible apply onSync_kept
      | with_reducible apply Kept.trans ?_ (onSync_kept ..)
      | with_reducible apply onKey_kept
      | with_reducible apply Kept.trans ?_ (onKey_kept ..)
      | with_reducible apply Kept.trans ?_ (Kept.forAll (fun _ _ => ?_) _)
  clear_value e5
  have k7 : Kept s e7 := by
    repeat' first
      | with_reducible apply Kept.ite
      | with_reducible apply Kept.refl
      | with_reducible assumption
      | with_reducible apply coreClear_kept
      | with_reducible apply Kept.trans ?_ (coreClear_kept ..)
      | with_reducible apply dropCtxs_kept
      | with_reducible apply Kept.trans ?_ (dropCtxs_kept ..)
      | with_reducible apply regionsGone_kept
      | with_reducible apply Kept.trans ?_ (regionsGone_kept ..)
      | with_reducible apply onExt_kept
      | with_reducible apply Kept.trans ?_ (onExt_kept ..)
      | with_reducible apply dropLayout_kept
      | with_reducible apply Kept.trans ?_ (dropLayout_kept ..)
      | with_reducible apply portFallow_kept
      | with_reducible apply Kept.trans ?_ (portFallow_kept ..)
      | with_reducible apply raise_kept
      | with_reducible apply Kept.trans ?_ (raise_kept ..)
      | with_reducible apply onPool_kept
      | with_reducible apply Kept.trans ?_ (onPool_kept ..)
      | with_reducible apply onSync_kept
      | with_reducible apply Kept.trans ?_ (onSync_kept ..)
  clear_value e7
  have k8 : Kept s e8 := by
    repeat' first
      | with_reducible apply Kept.ite
      | with_reducible apply Kept.refl
      | with_reducible assumption
      | with_reducible apply coreClear_kept
      | with_reducible apply Kept.trans ?_ (coreClear_kept ..)
      | with_reducible apply dropCtxs_kept
      | with_reducible apply Kept.trans ?_ (dropCtxs_kept ..)
  clear_value e8
  have k9 : Kept s e9 := by
    repeat' first
      | with_reducible apply Kept.ite
      | with_reducible apply Kept.refl
      | with_reducible assumption
      | with_reducible apply coreClear_kept
      | with_reducible apply Kept.trans ?_ (coreClear_kept ..)
      | with_reducible apply dropCtxs_kept
      | with_reducible apply Kept.trans ?_ (dropCtxs_kept ..)
      | with_reducible apply regionsGone_kept
      | with_reducible apply Kept.trans ?_ (regionsGone_kept ..)
      | with_reducible apply onExt_kept
      | with_reducible apply Kept.trans ?_ (onExt_kept ..)
      | with_reducible apply dropLayout_kept
      | with_reducible apply Kept.trans ?_ (dropLayout_kept ..)
      | with_reducible apply portFallow_kept
      | with_reducible apply Kept.trans ?_ (portFallow_kept ..)
      | with_reducible apply raise_kept
      | with_reducible apply Kept.trans ?_ (raise_kept ..)
      | with_reducible apply onPool_kept
      | with_reducible apply Kept.trans ?_ (onPool_kept ..)
      | with_reducible apply onSync_kept
      | with_reducible apply Kept.trans ?_ (onSync_kept ..)
      | with_reducible apply onKey_kept
      | with_reducible apply Kept.trans ?_ (onKey_kept ..)
      | with_reducible apply Kept.trans ?_ (Kept.forAll (fun _ _ => ?_) _)
  clear_value e9
  have k10 : Kept s e10 := by
    repeat' first
      | with_reducible apply Kept.ite
      | with_reducible apply Kept.refl
      | with_reducible assumption
      | with_reducible apply coreClear_kept
      | with_reducible apply Kept.trans ?_ (coreClear_kept ..)
      | with_reducible apply dropCtxs_kept
      | with_reducible apply Kept.trans ?_ (dropCtxs_kept ..)
      | with_reducible apply regionsGone_kept
      | with_reducible apply Kept.trans ?_ (regionsGone_kept ..)
      | with_reducible apply onExt_kept
      | with_reducible apply Kept.trans ?_ (onExt_kept ..)
      | with_reducible apply dropLayout_kept
      | with_reducible apply Kept.trans ?_ (dropLayout_kept ..)
  clear_value e10
  have k11 : Kept s e11 := by
    repeat' first
      | with_reducible apply Kept.ite
      | with_reducible apply Kept.refl
      | with_reducible assumption
      | with_reducible apply coreClear_kept
      | with_reducible apply Kept.trans ?_ (coreClear_kept ..)
      | with_reducible apply dropCtxs_kept
      | with_reducible apply Kept.trans ?_ (dropCtxs_kept ..)
      | with_reducible apply regionsGone_kept
      | with_reducible apply Kept.trans ?_ (regionsGone_kept ..)
      | with_reducible apply onExt_kept
      | with_reducible apply Kept.trans ?_ (onExt_kept ..)
      | with_reducible apply dropLayout_kept
      | with_reducible apply Kept.trans ?_ (dropLayout_kept ..)
      | with_reducible apply portFallow_kept
      | with_reducible apply Kept.trans ?_ (portFallow_kept ..)
      | with_reducible apply raise_kept
      | with_reducible apply Kept.trans ?_ (raise_kept ..)
      | with_reducible apply onPool_kept
      | with_reducible apply Kept.trans ?_ (onPool_kept ..)
      | with_reducible apply onSync_kept
      | with_reducible apply Kept.trans ?_ (onSync_kept ..)
      | with_reducible apply onKey_kept
      | with_reducible apply Kept.trans ?_ (onKey_kept ..)
      | with_reducible apply Kept.trans ?_ (Kept.forAll (fun _ _ => ?_) _)
      | split
  clear_value e11
  repeat' first
    | with_reducible apply Kept.ite
    | with_reducible apply Kept.refl
    | with_reducible assumption
    | with_reducible apply coreClear_kept
    | with_reducible apply Kept.trans ?_ (coreClear_kept ..)
    | with_reducible apply dropCtxs_kept
    | with_reducible apply Kept.trans ?_ (dropCtxs_kept ..)
    | with_reducible apply regionsGone_kept
    | with_reducible apply Kept.trans ?_ (regionsGone_kept ..)
    | with_reducible apply onExt_kept
    | with_reducible apply Kept.trans ?_ (onExt_kept ..)
    | with_reducible apply dropLayout_kept
    | with_reducible apply Kept.trans ?_ (dropLayout_kept ..)
    | with_reducible apply portFallow_kept
    | with_reducible apply Kept.trans ?_ (portFallow_kept ..)
    | with_reducible apply raise_kept
    | with_reducible apply Kept.trans ?_ (raise_kept ..)
    | with_reducible apply onPool_kept
    | with_reducible apply Kept.trans ?_ (onPool_kept ..)
    | with_reducible apply onSync_kept
    | with_reducible apply Kept.trans ?_ (onSync_kept ..)
    | with_reducible apply onKey_kept
    | with_reducible apply Kept.trans ?_ (onKey_kept ..)

theorem removeGoes_kept (n : Nat) (s : State) : Kept s (removeGoes n s) := by
  unfold removeGoes
  try dsimp only
  repeat' first
    | with_reducible apply Kept.ite
    | with_reducible apply Kept.refl
    | with_reducible assumption
    | with_reducible apply removeExpires_kept
    | with_reducible apply Kept.trans ?_ (removeExpires_kept ..)
    | with_reducible apply removeEnds_kept
    | with_reducible apply Kept.trans ?_ (removeEnds_kept ..)

theorem reencrypted_kept (f : Nat) (s : State) : Kept s (reencrypted f s) := by
  unfold reencrypted
  try dsimp only
  repeat' first
    | with_reducible apply Kept.ite
    | with_reducible apply Kept.refl
    | with_reducible assumption
    | with_reducible apply onKey_kept
    | with_reducible apply Kept.trans ?_ (onKey_kept ..)
    | split

theorem rotationEnds_kept (n : Nat) (s : State) : Kept s (rotationEnds n s) := by
  unfold rotationEnds
  try dsimp only
  repeat' first
    | with_reducible apply Kept.ite
    | with_reducible apply Kept.refl
    | with_reducible assumption
    | with_reducible apply bump_kept
    | with_reducible apply Kept.trans ?_ (bump_kept ..)
    | with_reducible apply onPlot_kept
    | with_reducible apply Kept.trans ?_ (onPlot_kept ..)
    | with_reducible apply raise_kept
    | with_reducible apply Kept.trans ?_ (raise_kept ..)
    | with_reducible apply Kept.trans ?_ (Kept.forAll (fun _ _ => ?_) _)

theorem pairPut_kept (i : Nat) (x : PairSlot) (s : State) : Kept s (pairPut i x s) := by
  unfold pairPut
  try dsimp only
  repeat' first
    | with_reducible apply Kept.ite
    | with_reducible apply Kept.refl
    | with_reducible assumption
    | with_reducible apply emit_kept
    | with_reducible apply Kept.trans ?_ (emit_kept ..)
    | with_reducible apply onKey_kept

theorem pairHolds_kept (i : Nat) (ps : List Byte) (s : State) : Kept s (pairHolds i ps s) := by
  unfold pairHolds
  try dsimp only
  repeat' first
    | with_reducible apply Kept.ite
    | with_reducible apply Kept.refl
    | with_reducible assumption
    | with_reducible apply pairPut_kept
    | with_reducible apply Kept.trans ?_ (pairPut_kept ..)
    | with_reducible apply onKey_kept

theorem pairAsk_kept (i : Nat) (s : State) : Kept s (pairAsk i s) := by
  unfold pairAsk
  try dsimp only
  repeat' first
    | with_reducible apply Kept.ite
    | with_reducible apply Kept.refl
    | with_reducible assumption
    | with_reducible apply pairPut_kept
    | with_reducible apply Kept.trans ?_ (pairPut_kept ..)
    | with_reducible apply onKey_kept
    | with_reducible apply Kept.trans ?_ (onKey_kept ..)
    | split
    | with_reducible apply sent_kept
    | refine Kept.same rfl rfl rfl rfl rfl

theorem pairFails_kept (s : State) : Kept s (pairFails s) := by
  unfold pairFails
  try dsimp only
  repeat' first
    | with_reducible apply Kept.ite
    | with_reducible apply Kept.refl
    | with_reducible assumption
    | with_reducible apply raise_kept
    | with_reducible apply Kept.trans ?_ (raise_kept ..)
    | with_reducible apply onKey_kept

theorem pairCheck_kept (s : State) : Kept s (pairCheck s) := by
  unfold pairCheck
  try dsimp only
  repeat' first
    | with_reducible apply Kept.ite
    | with_reducible apply Kept.refl
    | with_reducible assumption
    | with_reducible apply pairHolds_kept
    | with_reducible apply Kept.trans ?_ (pairHolds_kept ..)
    | with_reducible apply pairAsk_kept
    | with_reducible apply Kept.trans ?_ (pairAsk_kept ..)
    | with_reducible apply pairFails_kept
    | with_reducible apply Kept.trans ?_ (pairFails_kept ..)
    | with_reducible apply onKey_kept
    | with_reducible apply Kept.trans ?_ (onKey_kept ..)
    | split

theorem pairGrant_kept (s : State) : Kept s (pairGrant s) := by
  unfold pairGrant
  try dsimp only
  repeat' first
    | with_reducible apply Kept.ite
    | with_reducible apply Kept.refl
    | with_reducible assumption
    | with_reducible apply pairPut_kept
    | with_reducible apply Kept.trans ?_ (pairPut_kept ..)
    | with_reducible apply drawn_kept
    | with_reducible apply Kept.trans ?_ (drawn_kept ..)
    | split

theorem pairTurn_kept (s : State) : Kept s (pairTurn s) := by
  unfold pairTurn
  try dsimp only
  repeat' first
    | with_reducible apply Kept.ite
    | with_reducible apply Kept.refl
    | with_reducible assumption
    | with_reducible apply pairGrant_kept
    | with_reducible apply Kept.trans ?_ (pairGrant_kept ..)
    | with_reducible apply pairCheck_kept

theorem pairOther_kept (x : PairSlot) (s : State) : Kept s (pairOther x s) := by
  unfold pairOther
  try dsimp only
  repeat' first
    | with_reducible apply Kept.ite
    | with_reducible apply Kept.refl
    | with_reducible assumption
    | with_reducible apply onKey_kept
    | with_reducible apply Kept.trans ?_ (onKey_kept ..)
    | split

theorem pairTaken_kept (wrapped : List Byte) (pub : List Byte) (s : State) : Kept s (pairTaken wrapped pub s) := by
  unfold pairTaken
  try dsimp only
  repeat' first
    | with_reducible apply Kept.ite
    | with_reducible apply Kept.refl
    | with_reducible assumption
    | with_reducible apply pairHolds_kept
    | with_reducible apply Kept.trans ?_ (pairHolds_kept ..)
    | with_reducible apply onKey_kept
    | with_reducible apply Kept.trans ?_ (onKey_kept ..)
    | split

theorem pairWritten_kept (w : PairWrite) (s : State) : Kept s (pairWritten w s) := by
  unfold pairWritten
  try dsimp only
  repeat' first
    | with_reducible apply Kept.ite
    | with_reducible apply Kept.refl
    | with_reducible assumption
    | with_reducible apply pairTurn_kept
    | with_reducible apply Kept.trans ?_ (pairTurn_kept ..)
    | with_reducible apply pairOther_kept
    | with_reducible apply Kept.trans ?_ (pairOther_kept ..)
    | with_reducible apply pairTaken_kept
    | with_reducible apply Kept.trans ?_ (pairTaken_kept ..)
    | split

theorem partnerNamed_kept (s : State) : Kept s (partnerNamed s) := by
  unfold partnerNamed
  try dsimp only
  repeat' first
    | with_reducible apply Kept.ite
    | with_reducible apply Kept.refl
    | with_reducible assumption
    | with_reducible apply pairTurn_kept

theorem tier3Scrub_kept (s : State) : Kept s (tier3Scrub s) :=
  ((((chipDrop_kept ..).trans (onKey_kept ..)).trans (onPool_kept ..)).trans (onCxl_kept ..)).trans
    (mem_kept _ _ (Mem.wf_zero _ _ _))

theorem pairReset_kept (s : State) : Kept s (pairReset s).2 := by
  unfold pairReset
  try dsimp only
  repeat' first
    | with_reducible apply Kept.ite
    | with_reducible apply Kept.refl
    | with_reducible assumption
    | with_reducible apply pairCheck_kept
    | with_reducible apply Kept.trans ?_ (pairCheck_kept ..)
    | with_reducible apply tier3Scrub_kept
    | with_reducible apply Kept.trans ?_ (tier3Scrub_kept ..)
    | with_reducible apply onKey_kept
    | with_reducible apply Kept.trans ?_ (onKey_kept ..)
    | split

theorem sessionsEnd_kept (report : Nat) (s : State) : Kept s (sessionsEnd report s) := by
  unfold sessionsEnd
  try dsimp only
  repeat' first
    | with_reducible apply Kept.ite
    | with_reducible apply Kept.refl
    | with_reducible assumption
    | with_reducible apply onDict_kept

theorem keepTenant_kept (a : Attest) (s : State) : Kept s (keepTenant a s) := by
  unfold keepTenant
  try dsimp only
  repeat' first
    | with_reducible apply Kept.ite
    | with_reducible apply Kept.refl
    | with_reducible assumption
    | with_reducible apply sessionsEnd_kept
    | with_reducible apply Kept.trans ?_ (sessionsEnd_kept ..)
    | with_reducible apply onKey_kept
    | with_reducible apply Kept.trans ?_ (onKey_kept ..)
    | with_reducible apply Kept.trans ?_ (Kept.forAll (fun _ _ => ?_) _)

theorem tenantLapses_kept (report : Nat) (s : State) : Kept s (tenantLapses report s) := by
  unfold tenantLapses
  try dsimp only
  repeat' first
    | with_reducible apply Kept.ite
    | with_reducible apply Kept.refl
    | with_reducible assumption
    | with_reducible apply sessionsEnd_kept
    | with_reducible apply Kept.trans ?_ (sessionsEnd_kept ..)
    | with_reducible apply onKey_kept
    | with_reducible apply Kept.trans ?_ (onKey_kept ..)
    | split

theorem attestGo_kept (s : State) : Kept s (attestGo s).2 := by
  unfold attestGo
  try dsimp only
  repeat' first
    | with_reducible apply Kept.ite
    | with_reducible apply Kept.refl
    | with_reducible assumption
    | with_reducible apply onKey_kept
    | with_reducible apply Kept.trans ?_ (onKey_kept ..)
    | split

theorem attestTry_kept (n : Nat) (s : State) : Kept s (attestTry n s).2 := by
  unfold attestTry
  try dsimp only
  repeat' first
    | with_reducible apply Kept.ite
    | with_reducible apply Kept.refl
    | with_reducible assumption
    | with_reducible apply hubRead_kept
    | with_reducible apply Kept.trans ?_ (hubRead_kept ..)
    | with_reducible apply onKey_kept
    | with_reducible apply Kept.trans ?_ (onKey_kept ..)
    | split

theorem attestByReg_kept (n : Nat) (s : State) : Kept s (attestByReg n s) := by
  unfold attestByReg
  try dsimp only
  repeat' first
    | with_reducible apply Kept.ite
    | with_reducible apply Kept.refl
    | with_reducible assumption
    | with_reducible apply regAck_kept
    | with_reducible apply Kept.trans ?_ (regAck_kept ..)
    | with_reducible apply hubCommand_kept
    | with_reducible apply Kept.trans ?_ (hubCommand_kept ..)
    | with_reducible apply attestTry_kept
    | with_reducible apply Kept.trans ?_ (attestTry_kept ..)
    | with_reducible apply onKey_kept

theorem reportTry_kept (s : State) : Kept s (reportTry s).2 := by
  unfold reportTry
  try dsimp only
  repeat' first
    | with_reducible apply Kept.ite
    | with_reducible apply Kept.refl
    | with_reducible assumption
    | with_reducible apply hubWrite_kept
    | with_reducible apply Kept.trans ?_ (hubWrite_kept ..)
    | with_reducible apply bump_kept
    | with_reducible apply Kept.trans ?_ (bump_kept ..)
    | with_reducible apply keepTenant_kept
    | with_reducible apply Kept.trans ?_ (keepTenant_kept ..)
    | with_reducible apply onKey_kept
    | with_reducible apply Kept.trans ?_ (onKey_kept ..)
    | split

theorem reportSigned_kept (dict : Bool) (s : State) : Kept s (reportSigned dict s) := by
  unfold reportSigned
  try dsimp only
  repeat' first
    | with_reducible apply Kept.ite
    | with_reducible apply Kept.refl
    | with_reducible assumption
    | with_reducible apply bump_kept
    | with_reducible apply Kept.trans ?_ (bump_kept ..)
    | with_reducible apply keepTenant_kept
    | with_reducible apply Kept.trans ?_ (keepTenant_kept ..)
    | with_reducible apply reportTry_kept
    | with_reducible apply Kept.trans ?_ (reportTry_kept ..)
    | with_reducible apply onKey_kept
    | with_reducible apply Kept.trans ?_ (onKey_kept ..)
    | with_reducible apply onPool_kept
    | with_reducible apply Kept.trans ?_ (onPool_kept ..)
    | split

theorem debugWrite_kept (b : List Byte) (s : State) : Kept s (debugWrite b s).2 := by
  unfold debugWrite
  try dsimp only
  repeat' first
    | with_reducible apply Kept.ite
    | with_reducible apply Kept.refl
    | with_reducible assumption
    | with_reducible apply raise_kept
    | with_reducible apply Kept.trans ?_ (raise_kept ..)
    | with_reducible apply onKey_kept
    | with_reducible apply Kept.trans ?_ (onKey_kept ..)
    | split

theorem debugTry_kept (ctx : Nat) (off : Nat) (s : State) : Kept s (debugTry ctx off s).2 := by
  unfold debugTry
  try dsimp only
  repeat' first
    | with_reducible apply Kept.ite
    | with_reducible apply Kept.refl
    | with_reducible assumption
    | with_reducible apply hubRead_kept
    | with_reducible apply Kept.trans ?_ (hubRead_kept ..)
    | with_reducible apply debugWrite_kept
    | with_reducible apply Kept.trans ?_ (debugWrite_kept ..)
    | with_reducible apply onKey_kept
    | with_reducible apply Kept.trans ?_ (onKey_kept ..)
    | split

theorem debugByReg_kept (ctx : Nat) (off : Nat) (s : State) : Kept s (debugByReg ctx off s) := by
  unfold debugByReg
  try dsimp only
  repeat' first
    | with_reducible apply Kept.ite
    | with_reducible apply Kept.refl
    | with_reducible assumption
    | with_reducible apply regAck_kept
    | with_reducible apply Kept.trans ?_ (regAck_kept ..)
    | with_reducible apply hubCommand_kept
    | with_reducible apply Kept.trans ?_ (hubCommand_kept ..)
    | with_reducible apply debugTry_kept
    | with_reducible apply Kept.trans ?_ (debugTry_kept ..)
    | with_reducible apply onKey_kept

end Sys2Proof.Machine
end

