-- ==== Sys2Proof/Laws/KeptPowerOps.lean ====
section
/-! SUPPORT. What each operation of Machine/PowerOps.lean keeps. -/

namespace Sys2Proof.Machine

theorem switchLost_kept (s : State) : Kept s (switchLost s) := by
  unfold switchLost
  try dsimp only
  repeat' first
    | with_reducible apply Kept.ite
    | with_reducible apply Kept.refl
    | with_reducible assumption
    | with_reducible apply onSw_kept

theorem domainsOff_kept (s : State) : Kept s (domainsOff s) := by
  unfold domainsOff
  try dsimp only
  repeat' first
    | with_reducible apply Kept.ite
    | with_reducible apply Kept.refl
    | with_reducible assumption
    | with_reducible apply groupOff_kept
    | with_reducible apply Kept.trans ?_ (groupOff_kept ..)
    | with_reducible apply switchLost_kept
    | with_reducible apply Kept.trans ?_ (switchLost_kept ..)
    | (with_reducible apply Kept.trans ?_ (onBoot_kept _ _ ?_)) <;> [skip; rfl]
    | with_reducible apply Kept.trans ?_ (Kept.forAll (fun _ _ => ?_) _)

theorem bootBell_kept (status : Nat) (s : State) : Kept s (bootBell status s) := by
  unfold bootBell
  try dsimp only
  repeat' first
    | with_reducible apply Kept.ite
    | with_reducible apply Kept.refl
    | with_reducible assumption
    | with_reducible apply ringDoorbell_kept

theorem bootEnds_kept (cmd : Nat) (prev : Nat) (status : Nat) (detail : Nat) (s : State) : Kept s (bootEnds cmd prev status detail s) := by
  unfold bootEnds
  try dsimp only
  repeat' first
    | with_reducible apply Kept.ite
    | with_reducible apply Kept.refl
    | with_reducible assumption
    | with_reducible apply bootBell_kept
    | with_reducible apply Kept.trans ?_ (bootBell_kept ..)
    | with_reducible apply raise_kept
    | with_reducible apply Kept.trans ?_ (raise_kept ..)
    | (with_reducible apply onBoot_kept) <;> rfl

theorem enterFaulted_kept (cause : Nat) (s : State) : Kept s (enterFaulted cause s) := by
  unfold enterFaulted
  try dsimp only
  repeat' first
    | with_reducible apply Kept.ite
    | with_reducible apply Kept.refl
    | with_reducible assumption
    | with_reducible apply domainsOff_kept
    | with_reducible apply Kept.trans ?_ (domainsOff_kept ..)
    | with_reducible apply raise_kept
    | with_reducible apply Kept.trans ?_ (raise_kept ..)
    | with_reducible apply bootEnds_kept
    | with_reducible apply Kept.trans ?_ (bootEnds_kept ..)
    | (with_reducible apply Kept.trans ?_ (onBoot_kept _ _ ?_)) <;> [skip; rfl]
    | split

theorem setThrottle_kept (d : Nat) (k : Nat) (s : State) : Kept s (setThrottle d k s) := by
  unfold setThrottle
  try dsimp only
  repeat' first
    | with_reducible apply Kept.ite
    | with_reducible apply Kept.refl
    | with_reducible assumption
    | with_reducible apply bump_kept
    | with_reducible apply Kept.trans ?_ (bump_kept ..)
    | with_reducible apply slowAll_kept
    | with_reducible apply Kept.trans ?_ (slowAll_kept ..)
    | with_reducible apply onPower_kept

theorem clamp_kept (s : State) : Kept s (clamp s) := by
  unfold clamp
  try dsimp only
  repeat' first
    | with_reducible apply Kept.ite
    | with_reducible apply Kept.refl
    | with_reducible assumption
    | with_reducible apply setThrottle_kept
    | with_reducible apply Kept.trans ?_ (setThrottle_kept ..)
    | with_reducible apply onPower_kept
    | with_reducible apply Kept.trans ?_ (onPower_kept ..)

theorem callPlan_kept (s : State) : Kept s (callPlan s) := by
  unfold callPlan
  try dsimp only
  repeat' first
    | with_reducible apply Kept.ite
    | with_reducible apply Kept.refl
    | with_reducible assumption
    | with_reducible apply onPower_kept

theorem alertFalls_kept (s : State) : Kept s (alertFalls s) := by
  unfold alertFalls
  try dsimp only
  repeat' first
    | with_reducible apply Kept.ite
    | with_reducible apply Kept.refl
    | with_reducible assumption
    | with_reducible apply clamp_kept
    | with_reducible apply Kept.trans ?_ (clamp_kept ..)
    | with_reducible apply callPlan_kept
    | with_reducible apply Kept.trans ?_ (callPlan_kept ..)
    | with_reducible apply raise_kept
    | with_reducible apply Kept.trans ?_ (raise_kept ..)
    | with_reducible apply bump_kept
    | with_reducible apply Kept.trans ?_ (bump_kept ..)
    | (with_reducible apply onBoot_kept) <;> rfl
    | with_reducible apply onPower_kept
    | with_reducible apply Kept.trans ?_ (onPower_kept ..)

theorem alertRises_kept (s : State) : Kept s (alertRises s) := by
  unfold alertRises
  try dsimp only
  repeat' first
    | with_reducible apply Kept.ite
    | with_reducible apply Kept.refl
    | with_reducible assumption
    | with_reducible apply callPlan_kept
    | with_reducible apply Kept.trans ?_ (callPlan_kept ..)
    | with_reducible apply raise_kept
    | with_reducible apply Kept.trans ?_ (raise_kept ..)
    | (with_reducible apply onBoot_kept) <;> rfl

theorem raiseThrottle_kept (s : State) : Kept s (raiseThrottle s) := by
  unfold raiseThrottle
  try dsimp only
  repeat' first
    | with_reducible apply Kept.ite
    | with_reducible apply Kept.refl
    | with_reducible assumption
    | with_reducible apply setThrottle_kept
    | with_reducible apply Kept.trans ?_ (setThrottle_kept ..)
    | with_reducible apply onPower_kept
    | with_reducible apply Kept.trans ?_ (onPower_kept ..)
    | split

theorem shedGroup_kept (e : Nat) (s : State) : Kept s (shedGroup e s) := by
  unfold shedGroup
  extract_lets e1 e2
  have k2 : Kept s e2 := by
    repeat' first
      | with_reducible apply Kept.ite
      | with_reducible apply Kept.refl
      | with_reducible assumption
      | with_reducible apply bump_kept
      | with_reducible apply Kept.trans ?_ (bump_kept ..)
      | with_reducible apply portSleeps_kept
      | with_reducible apply Kept.trans ?_ (portSleeps_kept ..)
      | with_reducible apply onPort_kept
      | with_reducible apply Kept.trans ?_ (onPort_kept ..)
      | with_reducible apply onPower_kept
  clear_value e2
  repeat' first
    | with_reducible apply Kept.ite
    | with_reducible apply Kept.refl
    | with_reducible assumption
    | with_reducible apply bump_kept
    | with_reducible apply Kept.trans ?_ (bump_kept ..)
    | with_reducible apply portSleeps_kept
    | with_reducible apply Kept.trans ?_ (portSleeps_kept ..)
    | with_reducible apply onPort_kept
    | with_reducible apply Kept.trans ?_ (onPort_kept ..)
    | with_reducible apply onPower_kept
    | with_reducible apply Kept.trans ?_ (onPower_kept ..)
    | with_reducible apply Kept.trans ?_ (Kept.forAll (fun _ _ => ?_) _)

theorem shedDown_kept (cap : Nat) (fuel : List Nat) (i2 : Nat) (s : State) : Kept s (shedDown cap fuel i2 s) := by
  induction fuel generalizing cap i2 s with
  | nil => exact Kept.refl _
  | cons _ _ ih =>
    unfold shedDown
    try dsimp only
    repeat' first
      | with_reducible apply Kept.ite
      | with_reducible apply Kept.refl
      | with_reducible assumption
      | with_reducible apply shedGroup_kept
      | with_reducible apply Kept.trans ?_ (shedGroup_kept ..)
      | with_reducible exact ih ..
      | with_reducible apply Kept.trans ?_ (ih ..)

theorem wakeGroup_kept (e : Nat) (s : State) : Kept s (wakeGroup e s) := by
  unfold wakeGroup
  extract_lets e1
  have k1 : Kept s e1 := by
    repeat' first
      | with_reducible apply Kept.ite
      | with_reducible apply Kept.refl
      | with_reducible assumption
      | with_reducible apply onPort_kept
      | with_reducible apply Kept.trans ?_ (onPort_kept ..)
      | with_reducible apply onPower_kept
  clear_value e1
  repeat' first
    | with_reducible apply Kept.ite
    | with_reducible apply Kept.refl
    | with_reducible assumption
    | with_reducible apply onPort_kept
    | with_reducible apply Kept.trans ?_ (onPort_kept ..)
    | with_reducible apply onPower_kept
    | with_reducible apply Kept.trans ?_ (onPower_kept ..)
    | with_reducible apply Kept.trans ?_ (Kept.forAll (fun _ _ => ?_) _)

theorem wakeUp_kept (cap : Nat) (fuel : List (Nat × Nat)) (i2 : Nat) (s : State) : Kept s (wakeUp cap fuel i2 s) := by
  induction fuel generalizing cap i2 s with
  | nil => exact Kept.refl _
  | cons _ _ ih =>
    unfold wakeUp
    try dsimp only
    repeat' first
      | with_reducible apply Kept.ite
      | with_reducible apply Kept.refl
      | with_reducible assumption
      | with_reducible apply wakeGroup_kept
      | with_reducible apply Kept.trans ?_ (wakeGroup_kept ..)
      | with_reducible exact ih ..
      | with_reducible apply Kept.trans ?_ (ih ..)

theorem planDone_kept (s : State) : Kept s (planDone s) := by
  unfold planDone
  try dsimp only
  repeat' first
    | with_reducible apply Kept.ite
    | with_reducible apply Kept.refl
    | with_reducible assumption
    | with_reducible apply setThrottle_kept
    | with_reducible apply Kept.trans ?_ (setThrottle_kept ..)
    | with_reducible apply shedDown_kept
    | with_reducible apply Kept.trans ?_ (shedDown_kept ..)
    | with_reducible apply wakeUp_kept
    | with_reducible apply Kept.trans ?_ (wakeUp_kept ..)
    | with_reducible apply raise_kept
    | with_reducible apply Kept.trans ?_ (raise_kept ..)
    | with_reducible apply onPower_kept
    | with_reducible apply Kept.trans ?_ (onPower_kept ..)

theorem powerSampled_kept (watts : List Nat) (island : Nat) (s : State) : Kept s (powerSampled watts island s) := by
  unfold powerSampled
  extract_lets e1 e2 e3 e4 e5 e6 e7
  have k3 : Kept s e3 := by
    repeat' first
      | with_reducible apply Kept.ite
      | with_reducible apply Kept.refl
      | with_reducible assumption
      | with_reducible apply callPlan_kept
      | with_reducible apply Kept.trans ?_ (callPlan_kept ..)
      | with_reducible apply raiseThrottle_kept
      | with_reducible apply Kept.trans ?_ (raiseThrottle_kept ..)
      | with_reducible apply onPower_kept
  clear_value e3
  have k6 : Kept s e6 := by
    repeat' first
      | with_reducible apply Kept.ite
      | with_reducible apply Kept.refl
      | with_reducible assumption
      | with_reducible apply callPlan_kept
      | with_reducible apply Kept.trans ?_ (callPlan_kept ..)
      | with_reducible apply raiseThrottle_kept
      | with_reducible apply Kept.trans ?_ (raiseThrottle_kept ..)
      | with_reducible apply onPower_kept
      | with_reducible apply Kept.trans ?_ (onPower_kept ..)
  clear_value e6
  have k7 : Kept s e7 := by
    repeat' first
      | with_reducible apply Kept.ite
      | with_reducible apply Kept.refl
      | with_reducible assumption
      | with_reducible apply callPlan_kept
      | with_reducible apply Kept.trans ?_ (callPlan_kept ..)
  clear_value e7
  repeat' first
    | with_reducible apply Kept.ite
    | with_reducible apply Kept.refl
    | with_reducible assumption
    | with_reducible apply callPlan_kept
    | with_reducible apply Kept.trans ?_ (callPlan_kept ..)
    | with_reducible apply raiseThrottle_kept
    | with_reducible apply Kept.trans ?_ (raiseThrottle_kept ..)

theorem thermalImposed_kept (s : State) : Kept s (thermalImposed s) := by
  unfold thermalImposed
  try dsimp only
  repeat' first
    | with_reducible apply Kept.ite
    | with_reducible apply Kept.refl
    | with_reducible assumption
    | with_reducible apply callPlan_kept
    | with_reducible apply Kept.trans ?_ (callPlan_kept ..)
    | with_reducible apply raise_kept
    | with_reducible apply Kept.trans ?_ (raise_kept ..)
    | with_reducible apply onPower_kept

theorem thermalClamped_kept (s : State) : Kept s (thermalClamped s) := by
  unfold thermalClamped
  try dsimp only
  repeat' first
    | with_reducible apply Kept.ite
    | with_reducible apply Kept.refl
    | with_reducible assumption
    | with_reducible apply raise_kept
    | with_reducible apply Kept.trans ?_ (raise_kept ..)
    | with_reducible apply clamp_kept
    | with_reducible apply Kept.trans ?_ (clamp_kept ..)
    | with_reducible apply callPlan_kept
    | with_reducible apply Kept.trans ?_ (callPlan_kept ..)
    | with_reducible apply onPower_kept
    | with_reducible apply Kept.trans ?_ (onPower_kept ..)

theorem tempSampled_kept (temps : List Int) (s : State) : Kept s (tempSampled temps s) := by
  unfold tempSampled
  extract_lets e1 e2 e3 e4 e5 e6 e7
  have k2 : Kept s e2 := by
    repeat' first
      | with_reducible apply Kept.ite
      | with_reducible apply Kept.refl
      | with_reducible assumption
      | with_reducible apply bump_kept
  clear_value e2
  have k3 : Kept s e3 := by
    repeat' first
      | with_reducible apply Kept.ite
      | with_reducible apply Kept.refl
      | with_reducible assumption
      | with_reducible apply bump_kept
      | with_reducible apply Kept.trans ?_ (bump_kept ..)
  clear_value e3
  have k5 : Kept s e5 := by
    repeat' first
      | with_reducible apply Kept.ite
      | with_reducible apply Kept.refl
      | with_reducible assumption
      | with_reducible apply bump_kept
      | with_reducible apply Kept.trans ?_ (bump_kept ..)
      | with_reducible apply thermalClamped_kept
      | with_reducible apply Kept.trans ?_ (thermalClamped_kept ..)
      | with_reducible apply thermalImposed_kept
      | with_reducible apply Kept.trans ?_ (thermalImposed_kept ..)
      | with_reducible apply onPower_kept
      | with_reducible apply Kept.trans ?_ (onPower_kept ..)
  clear_value e5
  have k7 : Kept s e7 := by
    repeat' first
      | with_reducible apply Kept.ite
      | with_reducible apply Kept.refl
      | with_reducible assumption
      | with_reducible apply bump_kept
      | with_reducible apply Kept.trans ?_ (bump_kept ..)
      | with_reducible apply thermalClamped_kept
      | with_reducible apply Kept.trans ?_ (thermalClamped_kept ..)
      | with_reducible apply thermalImposed_kept
      | with_reducible apply Kept.trans ?_ (thermalImposed_kept ..)
      | with_reducible apply onPower_kept
      | with_reducible apply Kept.trans ?_ (onPower_kept ..)
  clear_value e7
  repeat' first
    | with_reducible apply Kept.ite
    | with_reducible apply Kept.refl
    | with_reducible assumption
    | with_reducible apply bump_kept
    | with_reducible apply Kept.trans ?_ (bump_kept ..)
    | with_reducible apply thermalClamped_kept
    | with_reducible apply Kept.trans ?_ (thermalClamped_kept ..)
    | with_reducible apply thermalImposed_kept
    | with_reducible apply Kept.trans ?_ (thermalImposed_kept ..)

theorem thermalSteps_kept (s : State) : Kept s (thermalSteps s) := by
  unfold thermalSteps
  try dsimp only
  repeat' first
    | with_reducible apply Kept.ite
    | with_reducible apply Kept.refl
    | with_reducible assumption
    | with_reducible apply callPlan_kept
    | with_reducible apply Kept.trans ?_ (callPlan_kept ..)
    | with_reducible apply raise_kept
    | with_reducible apply Kept.trans ?_ (raise_kept ..)
    | with_reducible apply onPower_kept
    | with_reducible apply Kept.trans ?_ (onPower_kept ..)
    | split

theorem thermalTrips_kept (k : Nat) (s : State) : Kept s (thermalTrips k s) := by
  unfold thermalTrips
  try dsimp only
  repeat' first
    | with_reducible apply Kept.ite
    | with_reducible apply Kept.refl
    | with_reducible assumption
    | with_reducible apply enterFaulted_kept
    | with_reducible apply Kept.trans ?_ (enterFaulted_kept ..)
    | with_reducible apply raise_kept
    | with_reducible apply Kept.trans ?_ (raise_kept ..)
    | split

theorem clusterTested_kept (k : Nat) (fails : List KatFail) (s : State) : Kept s (clusterTested k fails s) := by
  unfold clusterTested
  try dsimp only
  repeat' first
    | with_reducible apply Kept.ite
    | with_reducible apply Kept.refl
    | with_reducible assumption
    | with_reducible apply applyMask_kept
    | with_reducible apply Kept.trans ?_ (applyMask_kept ..)
    | with_reducible apply maskReplace_kept
    | with_reducible apply Kept.trans ?_ (maskReplace_kept ..)
    | with_reducible apply katFails_kept
    | with_reducible apply Kept.trans ?_ (katFails_kept ..)
    | with_reducible apply Kept.trans ?_ (Kept.forAll (fun _ _ => ?_) _)

theorem clusterReady_kept (k : Nat) (fails : List KatFail) (s : State) : Kept s (clusterReady k fails s) := by
  unfold clusterReady
  try dsimp only
  repeat' first
    | with_reducible apply Kept.ite
    | with_reducible apply Kept.refl
    | with_reducible assumption
    | with_reducible apply clusterTested_kept
    | with_reducible apply Kept.trans ?_ (clusterTested_kept ..)
    | with_reducible apply clusterTurn_kept
    | with_reducible apply Kept.trans ?_ (clusterTurn_kept ..)
    | with_reducible apply raise_kept
    | with_reducible apply Kept.trans ?_ (raise_kept ..)
    | (with_reducible apply onBoot_kept) <;> rfl
    | with_reducible apply onPower_kept
    | with_reducible apply Kept.trans ?_ (onPower_kept ..)

theorem clusterDown_kept (k : Nat) (s : State) : Kept s (clusterDown k s) := by
  unfold clusterDown
  try dsimp only
  repeat' first
    | with_reducible apply Kept.ite
    | with_reducible apply Kept.refl
    | with_reducible assumption
    | with_reducible apply raise_kept
    | with_reducible apply Kept.trans ?_ (raise_kept ..)
    | (with_reducible apply onBoot_kept) <;> rfl
    | with_reducible apply onPower_kept
    | with_reducible apply Kept.trans ?_ (onPower_kept ..)

theorem clusterIdles_kept (k : Nat) (s : State) : Kept s (clusterIdles k s) := by
  unfold clusterIdles
  try dsimp only
  repeat' first
    | with_reducible apply Kept.ite
    | with_reducible apply Kept.refl
    | with_reducible assumption
    | with_reducible apply clusterDown_kept
    | with_reducible apply Kept.trans ?_ (clusterDown_kept ..)
    | split

theorem timeSet_kept (v : U64) (s : State) : Kept s (timeSet v s).2 := by
  unfold timeSet
  try dsimp only
  repeat' first
    | with_reducible apply Kept.ite
    | with_reducible apply Kept.refl
    | with_reducible assumption
    | with_reducible apply bump_kept
    | with_reducible apply Kept.trans ?_ (bump_kept ..)
    | with_reducible apply onTime_kept
    | with_reducible apply Kept.trans ?_ (onTime_kept ..)
    | split

end Sys2Proof.Machine
end

