-- ==== Sys2Proof/Laws/KeptBootOps.lean ====
section
/-! SUPPORT. What each operation of Machine/BootOps.lean keeps. -/

namespace Sys2Proof.Machine

theorem bootRefuse_kept (detail : Nat) (s : State) : Kept s (bootRefuse detail s) := by
  unfold bootRefuse
  try dsimp only
  repeat' first
    | with_reducible apply Kept.ite
    | with_reducible apply Kept.refl
    | with_reducible assumption
    | (with_reducible apply onBoot_kept) <;> rfl

theorem bootRuns_kept (r : BootRun) (s : State) : Kept s (bootRuns r s) := by
  unfold bootRuns
  try dsimp only
  repeat' first
    | with_reducible apply Kept.ite
    | with_reducible apply Kept.refl
    | with_reducible assumption
    | (with_reducible apply onBoot_kept) <;> rfl

theorem bootWrite_kept (permitted : DevSt → Bool) (f : State → State) (s : State) (hf : ∀ s, Kept s (f s)) : Kept s (bootWrite permitted f s) := by
  unfold bootWrite
  try dsimp only
  repeat' first
    | with_reducible apply Kept.ite
    | with_reducible apply Kept.refl
    | with_reducible assumption
    | with_reducible apply Kept.trans ?_ (viaReg_kept (hf := fun _ => ?_) ..)
    | with_reducible apply regAck_kept
    | with_reducible apply Kept.trans ?_ (regAck_kept ..)
    | with_reducible apply bootRefuse_kept
    | with_reducible apply Kept.trans ?_ (bootRefuse_kept ..)
    | with_reducible exact hf _

theorem bootLoad_kept (s : State) : Kept s (bootLoad s) := by
  unfold bootLoad
  try dsimp only
  repeat' first
    | with_reducible apply Kept.ite
    | with_reducible apply Kept.refl
    | with_reducible assumption
    | with_reducible apply bootRefuse_kept
    | with_reducible apply Kept.trans ?_ (bootRefuse_kept ..)
    | with_reducible apply bootRuns_kept
    | with_reducible apply Kept.trans ?_ (bootRuns_kept ..)
    | (with_reducible apply onBoot_kept) <;> rfl

theorem bootMeasure_kept (s : State) : Kept s (bootMeasure s) := by
  unfold bootMeasure
  try dsimp only
  repeat' first
    | with_reducible apply Kept.ite
    | with_reducible apply Kept.refl
    | with_reducible assumption
    | with_reducible apply bootRuns_kept
    | with_reducible apply Kept.trans ?_ (bootRuns_kept ..)
    | (with_reducible apply onBoot_kept) <;> rfl
    | (with_reducible apply Kept.trans ?_ (onBoot_kept _ _ ?_)) <;> [skip; rfl]
    | split

theorem bootClock_kept (s : State) : Kept s (bootClock s) := by
  unfold bootClock
  try dsimp only
  repeat' first
    | with_reducible apply Kept.ite
    | with_reducible apply Kept.refl
    | with_reducible assumption
    | with_reducible apply bootRuns_kept

theorem cxlFound_kept (q : Nat) (d : CxlDev) (s : State) : Kept s (cxlFound q d s) := by
  unfold cxlFound
  try dsimp only
  repeat' first
    | with_reducible apply Kept.ite
    | with_reducible apply Kept.refl
    | with_reducible assumption
    | with_reducible apply onCxl_kept

theorem cxlPower_kept (found : List (Option CxlDev)) (s : State) : Kept s (cxlPower found s) := by
  unfold cxlPower
  try dsimp only
  repeat' first
    | with_reducible apply Kept.ite
    | with_reducible apply Kept.refl
    | with_reducible assumption
    | with_reducible apply cxlFound_kept
    | with_reducible apply Kept.trans ?_ (cxlFound_kept ..)
    | with_reducible apply raise_kept
    | with_reducible apply Kept.trans ?_ (raise_kept ..)
    | with_reducible apply pairTurn_kept
    | with_reducible apply Kept.trans ?_ (pairTurn_kept ..)
    | with_reducible apply onCxl_kept
    | with_reducible apply Kept.trans ?_ (onCxl_kept ..)
    | with_reducible apply Kept.trans ?_ (Kept.forAll (fun _ _ => ?_) _)
    | split

theorem bootPower_kept (found : List (Option CxlDev)) (s : State) : Kept s (bootPower found s) := by
  unfold bootPower
  try dsimp only
  repeat' first
    | with_reducible apply Kept.ite
    | with_reducible apply Kept.refl
    | with_reducible assumption
    | with_reducible apply bootRefuse_kept
    | with_reducible apply Kept.trans ?_ (bootRefuse_kept ..)
    | with_reducible apply bootRuns_kept
    | with_reducible apply Kept.trans ?_ (bootRuns_kept ..)
    | with_reducible apply cxlPower_kept
    | with_reducible apply Kept.trans ?_ (cxlPower_kept ..)
    | (with_reducible apply onBoot_kept) <;> rfl
    | split

theorem unpower_kept (l : List Nat) (s : State) : Kept s (unpower l s) := by
  unfold unpower
  try dsimp only
  repeat' first
    | with_reducible apply Kept.ite
    | with_reducible apply Kept.refl
    | with_reducible assumption
    | (with_reducible apply onBoot_kept) <;> rfl

theorem domainFails_kept (d : Nat) (s : State) : Kept s (domainFails d s) := by
  unfold domainFails
  try dsimp only
  repeat' first
    | with_reducible apply Kept.ite
    | with_reducible apply Kept.refl
    | with_reducible assumption
    | with_reducible apply unpower_kept
    | with_reducible apply Kept.trans ?_ (unpower_kept ..)
    | with_reducible apply raise_kept
    | with_reducible apply Kept.trans ?_ (raise_kept ..)
    | with_reducible apply enterFaulted_kept
    | with_reducible apply Kept.trans ?_ (enterFaulted_kept ..)
    | (with_reducible apply onBoot_kept) <;> rfl
    | with_reducible apply onCxl_kept
    | with_reducible apply Kept.trans ?_ (onCxl_kept ..)

theorem stageExpires_kept (d : Nat) (s : State) : Kept s (stageExpires d s) := by
  unfold stageExpires
  try dsimp only
  repeat' first
    | with_reducible apply Kept.ite
    | with_reducible apply Kept.refl
    | with_reducible assumption
    | with_reducible apply domainFails_kept
    | with_reducible apply Kept.trans ?_ (domainFails_kept ..)
    | (with_reducible apply onBoot_kept) <;> rfl
    | split

theorem pcRetired_kept (t : Nat) (k : Nat) (s : State) : Kept s (pcRetired t k s) := by
  unfold pcRetired
  try dsimp only
  repeat' first
    | with_reducible apply Kept.ite
    | with_reducible apply Kept.refl
    | with_reducible assumption
    | with_reducible apply onPool_kept

theorem plotZeroSets_kept (s : State) : Kept s (plotZeroSets s) := by
  unfold plotZeroSets
  try dsimp only
  repeat' first
    | with_reducible apply Kept.ite
    | with_reducible apply Kept.refl
    | with_reducible assumption
    | with_reducible apply setOd_kept

theorem poolInit_kept (s : State) : Kept s (poolInit s) :=
  ((onPool_kept ..).trans (onKey_kept ..)).trans (mem_kept _ _ (Mem.wf_keep _ _))

theorem bootTrain_kept (badPcs : List Nat) (badStacks : List Nat) (s : State) : Kept s (bootTrain badPcs badStacks s) := by
  unfold bootTrain
  try dsimp only
  repeat' first
    | with_reducible apply Kept.ite
    | with_reducible apply Kept.refl
    | with_reducible assumption
    | with_reducible apply bootRuns_kept
    | with_reducible apply Kept.trans ?_ (bootRuns_kept ..)
    | with_reducible apply pcRetired_kept
    | with_reducible apply Kept.trans ?_ (pcRetired_kept ..)
    | with_reducible apply plotZeroSets_kept
    | with_reducible apply Kept.trans ?_ (plotZeroSets_kept ..)
    | with_reducible apply poolInit_kept
    | with_reducible apply Kept.trans ?_ (poolInit_kept ..)
    | (with_reducible apply Kept.trans ?_ (onBoot_kept _ _ ?_)) <;> [skip; rfl]
    | with_reducible apply Kept.trans ?_ (Kept.forAll (fun _ _ => ?_) _)

theorem trainedEntry_kept (s : State) : Kept s (trainedEntry s) := by
  unfold trainedEntry
  try dsimp only
  repeat' first
    | with_reducible apply Kept.ite
    | with_reducible apply Kept.refl
    | with_reducible assumption
    | with_reducible apply groupEnable_kept
    | with_reducible apply Kept.trans ?_ (groupEnable_kept ..)
    | with_reducible apply takeShare_kept
    | with_reducible apply Kept.trans ?_ (takeShare_kept ..)
    | with_reducible apply Kept.trans ?_ (Kept.forAll (fun _ _ => ?_) _)

theorem bootVerify_kept (fails : List KatFail) (s : State) : Kept s (bootVerify fails s) := by
  unfold bootVerify
  try dsimp only
  repeat' first
    | with_reducible apply Kept.ite
    | with_reducible apply Kept.refl
    | with_reducible assumption
    | with_reducible apply applyMask_kept
    | with_reducible apply Kept.trans ?_ (applyMask_kept ..)
    | with_reducible apply katFails_kept
    | with_reducible apply Kept.trans ?_ (katFails_kept ..)
    | with_reducible apply bootRuns_kept
    | with_reducible apply Kept.trans ?_ (bootRuns_kept ..)
    | with_reducible apply maskReplace_kept
    | with_reducible apply Kept.trans ?_ (maskReplace_kept ..)
    | with_reducible apply Kept.trans ?_ (Kept.forAll (fun _ _ => ?_) _)

theorem bootServe_kept (s : State) : Kept s (bootServe s) := by
  unfold bootServe
  try dsimp only
  repeat' first
    | with_reducible apply Kept.ite
    | with_reducible apply Kept.refl
    | with_reducible assumption
    | with_reducible apply bootRuns_kept

theorem serviceEntry_kept (s : State) : Kept s (serviceEntry s) := by
  unfold serviceEntry
  try dsimp only
  repeat' first
    | with_reducible apply Kept.ite
    | with_reducible apply Kept.refl
    | with_reducible assumption
    | with_reducible apply clusterDown_kept
    | with_reducible apply Kept.trans ?_ (clusterDown_kept ..)
    | with_reducible apply Kept.trans ?_ (Kept.forAll (fun _ _ => ?_) _)

theorem restart_kept (drained : Bool) (s : State) : Kept s (restart drained s) := by
  unfold restart
  try dsimp only
  repeat' first
    | with_reducible apply Kept.ite
    | with_reducible apply Kept.refl
    | with_reducible assumption
    | with_reducible apply deviceReset_kept
    | with_reducible apply Kept.trans ?_ (deviceReset_kept ..)
    | with_reducible apply raise_kept

theorem bootCompletes_kept (s : State) : Kept s (bootCompletes s) := by
  unfold bootCompletes
  try dsimp only
  repeat' first
    | with_reducible apply Kept.ite
    | with_reducible apply Kept.refl
    | with_reducible assumption
    | with_reducible apply enterFaulted_kept
    | with_reducible apply Kept.trans ?_ (enterFaulted_kept ..)
    | with_reducible apply trainedEntry_kept
    | with_reducible apply Kept.trans ?_ (trainedEntry_kept ..)
    | with_reducible apply serviceEntry_kept
    | with_reducible apply Kept.trans ?_ (serviceEntry_kept ..)
    | with_reducible apply bootEnds_kept
    | with_reducible apply Kept.trans ?_ (bootEnds_kept ..)
    | (with_reducible apply onBoot_kept) <;> rfl
    | split

theorem powerRises_kept (s : State) : Kept s (powerRises s) := by
  unfold powerRises
  try dsimp only
  repeat' first
    | with_reducible apply Kept.ite
    | with_reducible apply Kept.refl
    | with_reducible assumption
    | (with_reducible apply onBoot_kept) <;> rfl
    | (with_reducible apply Kept.trans ?_ (onBoot_kept _ _ ?_)) <;> [skip; rfl]

theorem powerFalls_kept (s : State) : Kept s (powerFalls s) := by
  unfold powerFalls
  try dsimp only
  repeat' first
    | with_reducible apply Kept.ite
    | with_reducible apply Kept.refl
    | with_reducible assumption
    | with_reducible apply deviceReset_kept
    | with_reducible apply Kept.trans ?_ (deviceReset_kept ..)
    | (with_reducible apply onBoot_kept) <;> rfl
    | (with_reducible apply Kept.trans ?_ (onBoot_kept _ _ ?_)) <;> [skip; rfl]

theorem resetFalls_kept (s : State) : Kept s (resetFalls s) := by
  unfold resetFalls
  try dsimp only
  repeat' first
    | with_reducible apply Kept.ite
    | with_reducible apply Kept.refl
    | with_reducible assumption
    | with_reducible apply deviceReset_kept
    | with_reducible apply Kept.trans ?_ (deviceReset_kept ..)
    | (with_reducible apply onBoot_kept) <;> rfl

theorem resetRises_kept (s : State) : Kept s (resetRises s) := by
  unfold resetRises
  try dsimp only
  repeat' first
    | with_reducible apply Kept.ite
    | with_reducible apply Kept.refl
    | with_reducible assumption
    | (with_reducible apply onBoot_kept) <;> rfl
    | (with_reducible apply Kept.trans ?_ (onBoot_kept _ _ ?_)) <;> [skip; rfl]

theorem pllLocks_kept (s : State) : Kept s (pllLocks s) := by
  unfold pllLocks
  try dsimp only
  repeat' first
    | with_reducible apply Kept.ite
    | with_reducible apply Kept.refl
    | with_reducible assumption
    | (with_reducible apply onBoot_kept) <;> rfl

theorem pllFails_kept (s : State) : Kept s (pllFails s) := by
  unfold pllFails
  try dsimp only
  repeat' first
    | with_reducible apply Kept.ite
    | with_reducible apply Kept.refl
    | with_reducible assumption
    | (with_reducible apply onBoot_kept) <;> rfl

theorem pllLost_kept (s : State) : Kept s (pllLost s) := by
  unfold pllLost
  try dsimp only
  repeat' first
    | with_reducible apply Kept.ite
    | with_reducible apply Kept.refl
    | with_reducible assumption
    | with_reducible apply enterFaulted_kept
    | with_reducible apply Kept.trans ?_ (enterFaulted_kept ..)
    | (with_reducible apply onBoot_kept) <;> rfl

theorem islandReady_kept (fuseOk : Bool) (s : State) : Kept s (islandReady fuseOk s) := by
  unfold islandReady
  try dsimp only
  repeat' first
    | with_reducible apply Kept.ite
    | with_reducible apply Kept.refl
    | with_reducible assumption
    | with_reducible apply enterFaulted_kept
    | with_reducible apply Kept.trans ?_ (enterFaulted_kept ..)
    | (with_reducible apply onBoot_kept) <;> rfl

theorem holdAll_kept (s : State) : Kept s (holdAll s) := by
  unfold holdAll
  try dsimp only
  repeat' first
    | with_reducible apply Kept.ite
    | with_reducible apply Kept.refl
    | with_reducible assumption
    | with_reducible apply portFallow_kept
    | with_reducible apply Kept.trans ?_ (portFallow_kept ..)
    | with_reducible apply Kept.trans ?_ (Kept.forAll (fun _ _ => ?_) _)

theorem trayOpens_kept (s : State) : Kept s (trayOpens s) := by
  unfold trayOpens
  extract_lets e1 e2 e3
  have k1 : Kept s e1 := by
    repeat' first
      | with_reducible apply Kept.ite
      | with_reducible apply Kept.refl
      | with_reducible assumption
      | with_reducible apply restart_kept
      | with_reducible apply Kept.trans ?_ (restart_kept ..)
      | with_reducible apply holdAll_kept
      | with_reducible apply Kept.trans ?_ (holdAll_kept ..)
      | with_reducible apply raise_kept
      | with_reducible apply Kept.trans ?_ (raise_kept ..)
      | (with_reducible apply onBoot_kept) <;> rfl
  clear_value e1
  repeat' first
    | with_reducible apply Kept.ite
    | with_reducible apply Kept.refl
    | with_reducible assumption
    | with_reducible apply restart_kept
    | with_reducible apply Kept.trans ?_ (restart_kept ..)
    | with_reducible apply holdAll_kept
    | with_reducible apply Kept.trans ?_ (holdAll_kept ..)
    | with_reducible apply raise_kept
    | with_reducible apply Kept.trans ?_ (raise_kept ..)
    | with_reducible apply drawn_kept
    | with_reducible apply Kept.trans ?_ (drawn_kept ..)

theorem trayCloses_kept (s : State) : Kept s (trayCloses s) := by
  unfold trayCloses
  try dsimp only
  repeat' first
    | with_reducible apply Kept.ite
    | with_reducible apply Kept.refl
    | with_reducible assumption
    | (with_reducible apply onBoot_kept) <;> rfl

theorem boardWakes_kept (s : State) : Kept s (boardWakes s) := by
  unfold boardWakes
  try dsimp only
  repeat' first
    | with_reducible apply Kept.ite
    | with_reducible apply Kept.refl
    | with_reducible assumption
    | with_reducible apply raise_kept
    | with_reducible apply Kept.trans ?_ (raise_kept ..)
    | with_reducible apply onPort_kept
    | with_reducible apply Kept.trans ?_ (onPort_kept ..)
    | (with_reducible apply onBoot_kept) <;> rfl
    | with_reducible apply Kept.trans ?_ (Kept.forAll (fun _ _ => ?_) _)

theorem resetDict_kept (f : State → Nat × State) (s : State) (hf : ∀ s, Kept s (f s).2) : Kept s (resetDict f s).2 := by
  unfold resetDict
  extract_lets e1
  have k1 : Kept s e1.2 := by
    repeat' first
      | with_reducible apply Kept.ite
      | with_reducible apply Kept.refl
      | with_reducible assumption
      | with_reducible exact hf _
  clear_value e1
  repeat' first
    | with_reducible apply Kept.ite
    | with_reducible apply Kept.refl
    | with_reducible assumption
    | with_reducible exact hf _
    | with_reducible apply Kept.trans ?_ (hf _)
    | split

theorem resetReg_kept (f : State → Nat × State) (s : State) (hf : ∀ s, Kept s (f s).2) : Kept s (resetReg f s) := by
  unfold resetReg
  try dsimp only
  repeat' first
    | with_reducible apply Kept.ite
    | with_reducible apply Kept.refl
    | with_reducible assumption
    | with_reducible apply Kept.trans ?_ (viaReg_kept (hf := fun _ => ?_) ..)
    | with_reducible apply regAck_kept
    | with_reducible apply Kept.trans ?_ (regAck_kept ..)
    | (with_reducible apply onBoot_kept) <;> rfl
    | with_reducible exact hf _

theorem resetCommanded_kept (r : RstRun) (s : State) : Kept s (resetCommanded r s) := by
  unfold resetCommanded
  try dsimp only
  repeat' first
    | with_reducible apply Kept.ite
    | with_reducible apply Kept.refl
    | with_reducible assumption
    | with_reducible apply resetBegins_kept
    | with_reducible apply Kept.trans ?_ (resetBegins_kept ..)
    | (with_reducible apply Kept.trans ?_ (onBoot_kept _ _ ?_)) <;> [skip; rfl]

theorem resetCore_kept (c : Nat) (s : State) : Kept s (resetCore c s).2 := by
  unfold resetCore
  try dsimp only
  repeat' first
    | with_reducible apply Kept.ite
    | with_reducible apply Kept.refl
    | with_reducible assumption
    | with_reducible apply coreDown_kept
    | with_reducible apply Kept.trans ?_ (coreDown_kept ..)
    | with_reducible apply resetCommanded_kept
    | with_reducible apply Kept.trans ?_ (resetCommanded_kept ..)
    | split

theorem resetCluster_kept (k : Nat) (s : State) : Kept s (resetCluster k s).2 := by
  unfold resetCluster
  extract_lets e1 e2
  have k2 : Kept s e2 := by
    repeat' first
      | with_reducible apply Kept.ite
      | with_reducible apply Kept.refl
      | with_reducible assumption
      | with_reducible apply resetCommanded_kept
  clear_value e2
  repeat' first
    | with_reducible apply Kept.ite
    | with_reducible apply Kept.refl
    | with_reducible assumption
    | with_reducible apply resetCommanded_kept
    | with_reducible apply Kept.trans ?_ (resetCommanded_kept ..)
    | with_reducible apply coreDown_kept
    | with_reducible apply Kept.trans ?_ (coreDown_kept ..)
    | with_reducible apply resetDone_kept
    | with_reducible apply Kept.trans ?_ (resetDone_kept ..)
    | with_reducible apply bump_kept
    | with_reducible apply Kept.trans ?_ (bump_kept ..)
    | with_reducible apply Kept.trans ?_ (Kept.forAll (fun _ _ => ?_) _)
    | split

theorem clusterResetEnds_kept (k : Nat) (fails : List KatFail) (s : State) : Kept s (clusterResetEnds k fails s) := by
  unfold clusterResetEnds
  try dsimp only
  repeat' first
    | with_reducible apply Kept.ite
    | with_reducible apply Kept.refl
    | with_reducible assumption
    | with_reducible apply bump_kept
    | with_reducible apply Kept.trans ?_ (bump_kept ..)
    | with_reducible apply coreClear_kept
    | with_reducible apply Kept.trans ?_ (coreClear_kept ..)
    | with_reducible apply resetTurn_kept
    | with_reducible apply Kept.trans ?_ (resetTurn_kept ..)
    | with_reducible apply resetDone_kept
    | with_reducible apply Kept.trans ?_ (resetDone_kept ..)
    | with_reducible apply clusterTested_kept
    | with_reducible apply Kept.trans ?_ (clusterTested_kept ..)
    | with_reducible apply Kept.trans ?_ (Kept.forAll (fun _ _ => ?_) _)

theorem resetPlot_kept (n : Nat) (s : State) : Kept s (resetPlot n s).2 := by
  unfold resetPlot
  extract_lets e1 e2 e3 e4 e5
  have k3 : Kept s e3 := by
    repeat' first
      | with_reducible apply Kept.ite
      | with_reducible apply Kept.refl
      | with_reducible assumption
      | with_reducible apply abortPlot_kept
      | with_reducible apply Kept.trans ?_ (abortPlot_kept ..)
      | with_reducible apply resetCommanded_kept
  clear_value e3
  have k4 : Kept s e4 := by
    repeat' first
      | with_reducible apply Kept.ite
      | with_reducible apply Kept.refl
      | with_reducible assumption
      | with_reducible apply abortPlot_kept
      | with_reducible apply Kept.trans ?_ (abortPlot_kept ..)
      | with_reducible apply resetCommanded_kept
      | with_reducible apply Kept.trans ?_ (resetCommanded_kept ..)
      | with_reducible apply coreDown_kept
      | with_reducible apply Kept.trans ?_ (coreDown_kept ..)
      | with_reducible apply resetDone_kept
      | with_reducible apply Kept.trans ?_ (resetDone_kept ..)
      | with_reducible apply bump_kept
      | with_reducible apply Kept.trans ?_ (bump_kept ..)
      | with_reducible apply onSync_kept
      | with_reducible apply Kept.trans ?_ (onSync_kept ..)
      | with_reducible apply Kept.trans ?_ (Kept.forAll (fun _ _ => ?_) _)
  clear_value e4
  have k5 : Kept s e5 := by
    repeat' first
      | with_reducible apply Kept.ite
      | with_reducible apply Kept.refl
      | with_reducible assumption
      | with_reducible apply abortPlot_kept
      | with_reducible apply Kept.trans ?_ (abortPlot_kept ..)
      | with_reducible apply resetCommanded_kept
      | with_reducible apply Kept.trans ?_ (resetCommanded_kept ..)
      | with_reducible apply coreDown_kept
      | with_reducible apply Kept.trans ?_ (coreDown_kept ..)
      | with_reducible apply resetDone_kept
      | with_reducible apply Kept.trans ?_ (resetDone_kept ..)
      | with_reducible apply bump_kept
      | with_reducible apply Kept.trans ?_ (bump_kept ..)
      | with_reducible apply onSync_kept
      | with_reducible apply Kept.trans ?_ (onSync_kept ..)
  clear_value e5
  repeat' first
    | with_reducible apply Kept.ite
    | with_reducible apply Kept.refl
    | with_reducible assumption
    | with_reducible apply abortPlot_kept
    | with_reducible apply Kept.trans ?_ (abortPlot_kept ..)
    | with_reducible apply resetCommanded_kept
    | with_reducible apply Kept.trans ?_ (resetCommanded_kept ..)
    | with_reducible apply coreDown_kept
    | with_reducible apply Kept.trans ?_ (coreDown_kept ..)
    | with_reducible apply resetDone_kept
    | with_reducible apply Kept.trans ?_ (resetDone_kept ..)
    | with_reducible apply bump_kept
    | with_reducible apply Kept.trans ?_ (bump_kept ..)
    | with_reducible apply onSync_kept
    | with_reducible apply Kept.trans ?_ (onSync_kept ..)
    | with_reducible apply Kept.trans ?_ (Kept.forAll (fun _ _ => ?_) _)
    | split

theorem resetDevice_kept (target : Nat) (s : State) : Kept s (resetDevice target s).2 := by
  unfold resetDevice
  try dsimp only
  repeat' first
    | with_reducible apply Kept.ite
    | with_reducible apply Kept.refl
    | with_reducible assumption
    | with_reducible apply deviceReset_kept
    | with_reducible apply Kept.trans ?_ (deviceReset_kept ..)
    | split

theorem resetDrain_kept (target : Nat) (s : State) : Kept s (resetDrain target s).2 := by
  unfold resetDrain
  try dsimp only
  repeat' first
    | with_reducible apply Kept.ite
    | with_reducible apply Kept.refl
    | with_reducible assumption
    | with_reducible apply abortGroups_kept
    | with_reducible apply Kept.trans ?_ (abortGroups_kept ..)
    | with_reducible apply holdAll_kept
    | with_reducible apply Kept.trans ?_ (holdAll_kept ..)
    | with_reducible apply resetCommanded_kept
    | with_reducible apply Kept.trans ?_ (resetCommanded_kept ..)
    | split

theorem resetCommand_kept (scope : Nat) (drain : Bool) (target : Nat) (s : State) : Kept s (resetCommand scope drain target s).2 := by
  unfold resetCommand
  try dsimp only
  repeat' first
    | with_reducible apply Kept.ite
    | with_reducible apply Kept.refl
    | with_reducible assumption
    | with_reducible apply resetCore_kept
    | with_reducible apply Kept.trans ?_ (resetCore_kept ..)
    | with_reducible apply resetCluster_kept
    | with_reducible apply Kept.trans ?_ (resetCluster_kept ..)
    | with_reducible apply resetPlot_kept
    | with_reducible apply Kept.trans ?_ (resetPlot_kept ..)
    | with_reducible apply resetDrain_kept
    | with_reducible apply Kept.trans ?_ (resetDrain_kept ..)
    | with_reducible apply resetDevice_kept
    | with_reducible apply Kept.trans ?_ (resetDevice_kept ..)
    | split

theorem retrainStarts_kept (t : Nat) (k : Nat) (s : State) : Kept s (retrainStarts t k s) := by
  unfold retrainStarts
  try dsimp only
  repeat' first
    | with_reducible apply Kept.ite
    | with_reducible apply Kept.refl
    | with_reducible assumption
    | (with_reducible apply onBoot_kept) <;> rfl

theorem retrainSteps_kept (t : Nat) (fails : Bool) (s : State) : Kept s (retrainSteps t fails s) := by
  unfold retrainSteps
  try dsimp only
  repeat' first
    | with_reducible apply Kept.ite
    | with_reducible apply Kept.refl
    | with_reducible assumption
    | with_reducible apply raise_kept
    | with_reducible apply Kept.trans ?_ (raise_kept ..)
    | with_reducible apply retirePc_kept
    | with_reducible apply Kept.trans ?_ (retirePc_kept ..)
    | with_reducible apply bump_kept
    | with_reducible apply Kept.trans ?_ (bump_kept ..)
    | (with_reducible apply onBoot_kept) <;> rfl
    | split

theorem stackLost_kept (t : Nat) (cause : Nat) (s : State) : Kept s (stackLost t cause s) := by
  unfold stackLost
  try dsimp only
  repeat' first
    | with_reducible apply Kept.ite
    | with_reducible apply Kept.refl
    | with_reducible assumption
    | with_reducible apply raise_kept
    | with_reducible apply Kept.trans ?_ (raise_kept ..)
    | with_reducible apply abortSeq_kept
    | with_reducible apply Kept.trans ?_ (abortSeq_kept ..)
    | with_reducible apply onPool_kept
    | with_reducible apply Kept.trans ?_ (onPool_kept ..)
    | (with_reducible apply Kept.trans ?_ (onBoot_kept _ _ ?_)) <;> [skip; rfl]
    | with_reducible apply Kept.trans ?_ (Kept.forAll (fun _ _ => ?_) _)

theorem railLeaves_kept (rail : Nat) (mv : Nat) (us : Nat) (s : State) : Kept s (railLeaves rail mv us s) := by
  unfold railLeaves
  try dsimp only
  repeat' first
    | with_reducible apply Kept.ite
    | with_reducible apply Kept.refl
    | with_reducible assumption
    | with_reducible apply raise_kept
    | with_reducible apply Kept.trans ?_ (raise_kept ..)
    | with_reducible apply stackLost_kept
    | with_reducible apply Kept.trans ?_ (stackLost_kept ..)
    | (with_reducible apply onBoot_kept) <;> rfl
    | with_reducible apply Kept.trans ?_ (Kept.forAll (fun _ _ => ?_) _)

theorem watchdogBites_kept (s : State) : Kept s (watchdogBites s) := by
  unfold watchdogBites
  try dsimp only
  repeat' first
    | with_reducible apply Kept.ite
    | with_reducible apply Kept.refl
    | with_reducible assumption
    | with_reducible apply raise_kept
    | with_reducible apply Kept.trans ?_ (raise_kept ..)
    | (with_reducible apply onBoot_kept) <;> rfl
    | with_reducible apply onDict_kept
    | with_reducible apply Kept.trans ?_ (onDict_kept ..)
    | with_reducible apply Kept.trans ?_ (Kept.forAll (fun _ _ => ?_) _)

theorem flushHeld_kept (s : State) : Kept s (flushHeld s) := by
  unfold flushHeld
  try dsimp only
  repeat' first
    | with_reducible apply Kept.ite
    | with_reducible apply Kept.refl
    | with_reducible assumption
    | with_reducible apply deliver_kept
    | with_reducible apply Kept.trans ?_ (deliver_kept ..)
    | with_reducible apply lossEvent_kept
    | with_reducible apply Kept.trans ?_ (lossEvent_kept ..)
    | with_reducible apply logAppend_kept
    | with_reducible apply Kept.trans ?_ (logAppend_kept ..)
    | with_reducible apply onDict_kept
    | with_reducible apply Kept.trans ?_ (onDict_kept ..)
    | with_reducible apply Kept.trans ?_ (Kept.forAll (fun _ _ => ?_) _)

theorem mgmtReturns_kept (s : State) : Kept s (mgmtReturns s) := by
  unfold mgmtReturns
  try dsimp only
  repeat' first
    | with_reducible apply Kept.ite
    | with_reducible apply Kept.refl
    | with_reducible assumption
    | with_reducible apply flushHeld_kept
    | with_reducible apply Kept.trans ?_ (flushHeld_kept ..)
    | with_reducible apply raise_kept
    | with_reducible apply Kept.trans ?_ (raise_kept ..)
    | (with_reducible apply onBoot_kept) <;> rfl
    | with_reducible apply onPorts_kept
    | with_reducible apply Kept.trans ?_ (onPorts_kept ..)

end Sys2Proof.Machine
end

