-- ==== Sys2Proof/Laws/KeptCollectives.lean ====
section
/-! SUPPORT. What each operation of Machine/Collectives.lean keeps. -/

namespace Sys2Proof.Machine

theorem writeGroup_kept (g : Nat) (image : List Byte) (s : State) : Kept s (writeGroup g image s).2 := by
  unfold writeGroup
  try dsimp only
  repeat' first
    | with_reducible apply Kept.ite
    | with_reducible apply Kept.refl
    | with_reducible assumption
    | with_reducible apply onColl_kept
    | with_reducible apply Kept.trans ?_ (onColl_kept ..)
    | split

theorem abortCommand_kept (g : Nat) (n : Nat) (s : State) : Kept s (abortCommand g n s).2 := by
  unfold abortCommand
  try dsimp only
  repeat' first
    | with_reducible apply Kept.ite
    | with_reducible apply Kept.refl
    | with_reducible assumption
    | with_reducible apply abortSeq_kept
    | with_reducible apply Kept.trans ?_ (abortSeq_kept ..)
    | split

theorem abortReg_kept (g : Nat) (n : Nat) (s : State) : Kept s (abortReg g n s) := by
  unfold abortReg
  try dsimp only
  repeat' first
    | with_reducible apply Kept.ite
    | with_reducible apply Kept.refl
    | with_reducible assumption
    | with_reducible apply abortCommand_kept
    | with_reducible apply Kept.trans ?_ (abortCommand_kept ..)
    | with_reducible apply onColl_kept
    | with_reducible apply Kept.trans ?_ (onColl_kept ..)

theorem starts_kept (g : Nat) (op : Nat) (s : State) : Kept s (starts g op s) := by
  unfold starts
  try dsimp only
  repeat' first
    | with_reducible apply Kept.ite
    | with_reducible apply Kept.refl
    | with_reducible assumption
    | with_reducible apply settle_kept
    | with_reducible apply Kept.trans ?_ (settle_kept ..)
    | with_reducible apply collStart_kept

theorem chunkUpsets_kept (x : Group) (n : Nat) (upsets : Nat) (vePasses : Bool) (op : Nat) (s : State) : Kept s (chunkUpsets x n upsets vePasses op s).2 := by
  unfold chunkUpsets
  try dsimp only
  repeat' first
    | with_reducible apply Kept.ite
    | with_reducible apply Kept.refl
    | with_reducible assumption
    | with_reducible apply transient_kept
    | with_reducible apply Kept.trans ?_ (transient_kept ..)
    | with_reducible apply retireEngine_kept
    | with_reducible apply Kept.trans ?_ (retireEngine_kept ..)
    | split

theorem chunkRuns_kept (g : Nat) (k : Nat) (x : Group) (q : CSeq) (b : List Byte) (s : State) : Kept s (chunkRuns g k x q b s) := by
  unfold chunkRuns
  try dsimp only
  repeat' first
    | with_reducible apply Kept.ite
    | with_reducible apply Kept.refl
    | with_reducible assumption
    | with_reducible apply sendBodies_kept
    | with_reducible apply Kept.trans ?_ (sendBodies_kept ..)
    | with_reducible apply ringPartials_kept
    | with_reducible apply Kept.trans ?_ (ringPartials_kept ..)
    | with_reducible apply encodeSlice_kept
    | with_reducible apply Kept.trans ?_ (encodeSlice_kept ..)
    | with_reducible apply recordStage_kept
    | with_reducible apply Kept.trans ?_ (recordStage_kept ..)
    | with_reducible apply reported_kept
    | with_reducible apply Kept.trans ?_ (reported_kept ..)
    | with_reducible apply writeResults_kept
    | with_reducible apply Kept.trans ?_ (writeResults_kept ..)

theorem chunkGo_kept (g : Nat) (k : Nat) (upsets : Nat) (vePasses : Bool) (s : State) : Kept s (chunkGo g k upsets vePasses s) := by
  unfold chunkGo
  try dsimp only
  repeat' first
    | with_reducible apply Kept.ite
    | with_reducible apply Kept.refl
    | with_reducible assumption
    | with_reducible apply abortSeq_kept
    | with_reducible apply Kept.trans ?_ (abortSeq_kept ..)
    | with_reducible apply collFault_kept
    | with_reducible apply Kept.trans ?_ (collFault_kept ..)
    | with_reducible apply chunkUpsets_kept
    | with_reducible apply Kept.trans ?_ (chunkUpsets_kept ..)
    | with_reducible apply chunkRuns_kept
    | with_reducible apply Kept.trans ?_ (chunkRuns_kept ..)
    | split

theorem resultAnswered_kept (a : UnitAnswer) (s : State) : Kept s (resultAnswered a s) := by
  unfold resultAnswered
  try dsimp only
  repeat' first
    | with_reducible apply Kept.ite
    | with_reducible apply Kept.refl
    | with_reducible assumption
    | with_reducible apply onSeq_kept
    | with_reducible apply Kept.trans ?_ (onSeq_kept ..)
    | with_reducible apply abortSeq_kept
    | with_reducible apply Kept.trans ?_ (abortSeq_kept ..)
    | split

theorem chunkDone_kept (g : Nat) (k : Nat) (s : State) : Kept s (chunkDone g k s) := by
  unfold chunkDone
  try dsimp only
  repeat' first
    | with_reducible apply Kept.ite
    | with_reducible apply Kept.refl
    | with_reducible assumption
    | with_reducible apply stageDrop_kept
    | with_reducible apply Kept.trans ?_ (stageDrop_kept ..)
    | with_reducible apply bump_kept
    | with_reducible apply Kept.trans ?_ (bump_kept ..)
    | with_reducible apply onSeq_kept
    | with_reducible apply Kept.trans ?_ (onSeq_kept ..)
    | with_reducible exact Kept.foldl_snd (fun _ _ => ?_) _ _
    | with_reducible apply Kept.foldl_snd (fun _ _ => ?_) _ _
    | with_reducible apply Kept.foldl_fst (fun _ _ => ?_) _ _
    | with_reducible apply Kept.foldl_snd_snd (fun _ _ => ?_) _ _ _
    | split

theorem chunkWrites_kept (g : Nat) (k : Nat) (s : State) : Kept s (chunkWrites g k s) := by
  unfold chunkWrites
  try dsimp only
  repeat' first
    | with_reducible apply Kept.ite
    | with_reducible apply Kept.refl
    | with_reducible assumption
    | with_reducible apply chunkDone_kept
    | with_reducible apply Kept.trans ?_ (chunkDone_kept ..)
    | with_reducible apply resultAnswered_kept
    | with_reducible apply Kept.trans ?_ (resultAnswered_kept ..)
    | with_reducible apply onColl_kept
    | with_reducible apply Kept.trans ?_ (onColl_kept ..)
    | with_reducible apply Kept.trans ?_ (Kept.forAll (fun _ _ => ?_) _)

theorem recordAnswered_kept (g : Nat) (n : Nat) (m : Nat) (s : State) : Kept s (recordAnswered g n m s) := by
  unfold recordAnswered
  try dsimp only
  repeat' first
    | with_reducible apply Kept.ite
    | with_reducible apply Kept.refl
    | with_reducible assumption
    | with_reducible apply unitSend_kept
    | with_reducible apply Kept.trans ?_ (unitSend_kept ..)
    | with_reducible apply onSeq_kept
    | with_reducible apply Kept.trans ?_ (onSeq_kept ..)
    | with_reducible apply onColl_kept
    | with_reducible apply Kept.trans ?_ (onColl_kept ..)
    | split

theorem exchangeArrives_kept (kind : Nat) (hub : Nat) (payload : List Byte) (s : State) : Kept s (exchangeArrives kind hub payload s) := by
  unfold exchangeArrives
  try dsimp only
  repeat' first
    | with_reducible apply Kept.ite
    | with_reducible apply Kept.refl
    | with_reducible assumption
    | with_reducible apply settle_kept
    | with_reducible apply Kept.trans ?_ (settle_kept ..)
    | with_reducible apply xchIntake_kept

theorem deadlineGroup_kept (g : Nat) (s : State) : Kept s (deadlineGroup g s) := by
  unfold deadlineGroup
  try dsimp only
  repeat' first
    | with_reducible apply Kept.ite
    | with_reducible apply Kept.refl
    | with_reducible assumption
    | with_reducible apply recordStage_kept
    | with_reducible apply Kept.trans ?_ (recordStage_kept ..)
    | with_reducible apply raise_kept
    | with_reducible apply Kept.trans ?_ (raise_kept ..)
    | with_reducible apply abortSeq_kept
    | with_reducible apply Kept.trans ?_ (abortSeq_kept ..)
    | split

end Sys2Proof.Machine
end

