-- ==== Sys2Proof/Laws/KeptPrograms.lean ====
section
/-! SUPPORT. What each operation of Machine/Programs.lean keeps. -/

namespace Sys2Proof.Machine

theorem descriptorIssues_kept (op : Nat) (core : Nat) (thread : Nat) (upset : Bool) (s : State) : Kept s (descriptorIssues op core thread upset s) := by
  unfold descriptorIssues
  try dsimp only
  repeat' first
    | with_reducible apply Kept.ite
    | with_reducible apply Kept.refl
    | with_reducible assumption
    | with_reducible apply settle_kept
    | with_reducible apply Kept.trans ?_ (settle_kept ..)
    | with_reducible apply issueOp_kept

theorem probeClear_kept (mask : Nat) (s : State) : Kept s (probeClear mask s) := by
  unfold probeClear
  try dsimp only
  repeat' first
    | with_reducible apply Kept.ite
    | with_reducible apply Kept.refl
    | with_reducible assumption
    | with_reducible apply onFur_kept

end Sys2Proof.Machine
end

