-- ==== Sys2Proof/Laws/KeptDictTable.lean ====
section
/-! SUPPORT. What each operation of Machine/DictTable.lean keeps. -/

namespace Sys2Proof.Machine

theorem onTrue_kept (f : State → Nat × State) (v : Nat) (s : State) (hf : ∀ s, Kept s (f s).2) : Kept s (onTrue f v s).2 := by
  unfold onTrue
  extract_lets e1
  have k1 : Kept s e1.2 := by
    repeat' first
      | with_reducible apply Kept.ite
      | with_reducible apply Kept.refl
      | with_reducible assumption
      | with_reducible exact hf _
  clear_value e1
  repeat' first
    | with_reducible apply Kept.ite
    | with_reducible apply Kept.refl
    | with_reducible assumption
    | with_reducible exact hf _
    | with_reducible apply Kept.trans ?_ (hf _)
    | split

theorem freshCounters_kept (before : State) (n : Nat) (s : State) : Kept s (freshCounters before n s) := by
  unfold freshCounters
  exact onSync_kept ..

theorem writeCounters_kept (index : Nat) (ok : State → Nat → Nat → Bool) (sub : Nat) (b : List Byte) (s : State) : Kept s (writeCounters index ok sub b s).2 := by
  unfold writeCounters
  try dsimp only
  repeat' first
    | with_reducible apply Kept.ite
    | with_reducible apply Kept.refl
    | with_reducible assumption
    | with_reducible apply freshCounters_kept
    | with_reducible apply Kept.trans ?_ (freshCounters_kept ..)
    | with_reducible apply setOd_kept
    | with_reducible apply Kept.trans ?_ (setOd_kept ..)
    | split

theorem shareAgain_kept (sub : Nat) (s : State) : Kept s (shareAgain sub s) := by
  unfold shareAgain
  try dsimp only
  repeat' first
    | with_reducible apply Kept.ite
    | with_reducible apply Kept.refl
    | with_reducible assumption
    | with_reducible apply takeShare_kept

theorem writePortPlot_kept (sub : Nat) (b : List Byte) (s : State) : Kept s (writePortPlot sub b s).2 := by
  unfold writePortPlot
  try dsimp only
  repeat' first
    | with_reducible apply Kept.ite
    | with_reducible apply Kept.refl
    | with_reducible assumption
    | with_reducible apply compareAgain_kept
    | with_reducible apply Kept.trans ?_ (compareAgain_kept ..)
    | with_reducible apply setOd_kept
    | with_reducible apply Kept.trans ?_ (setOd_kept ..)
    | split

theorem writeWiring_kept (sub : Nat) (b : List Byte) (s : State) : Kept s (writeWiring sub b s).2 := by
  unfold writeWiring
  try dsimp only
  repeat' first
    | with_reducible apply Kept.ite
    | with_reducible apply Kept.refl
    | with_reducible assumption
    | with_reducible apply compareAgain_kept
    | with_reducible apply Kept.trans ?_ (compareAgain_kept ..)
    | with_reducible apply onDict_kept
    | with_reducible apply Kept.trans ?_ (onDict_kept ..)
    | split

theorem writeGrants_kept (g : Nat) (b : List Byte) (s : State) : Kept s (writeGrants g b s).2 := by
  unfold writeGrants
  try dsimp only
  repeat' first
    | with_reducible apply Kept.ite
    | with_reducible apply Kept.refl
    | with_reducible assumption
    | with_reducible apply onPool_kept
    | with_reducible apply Kept.trans ?_ (onPool_kept ..)
    | split

theorem extentRecord_kept (b : List Byte) (s : State) : Kept s (extentRecord b s).2 := by
  unfold extentRecord
  try dsimp only
  repeat' first
    | with_reducible apply Kept.ite
    | with_reducible apply Kept.refl
    | with_reducible assumption
    | with_reducible apply Kept.trans ?_ (extentDict_kept (hf := fun _ => ?_) ..)
    | with_reducible apply assignExtent_kept
    | with_reducible apply Kept.trans ?_ (assignExtent_kept ..)
    | with_reducible apply revokeExtent_kept
    | with_reducible apply Kept.trans ?_ (revokeExtent_kept ..)
    | with_reducible apply regrantExtent_kept
    | with_reducible apply Kept.trans ?_ (regrantExtent_kept ..)
    | with_reducible apply releaseExtent_kept
    | with_reducible apply Kept.trans ?_ (releaseExtent_kept ..)
    | with_reducible apply adoptExtent_kept
    | with_reducible apply Kept.trans ?_ (adoptExtent_kept ..)
    | split

theorem orphanRecord_kept (b : List Byte) (s : State) : Kept s (orphanRecord b s).2 := by
  unfold orphanRecord
  try dsimp only
  repeat' first
    | with_reducible apply Kept.ite
    | with_reducible apply Kept.refl
    | with_reducible assumption
    | with_reducible apply orphanResolve_kept

theorem plotRecord_kept (b : List Byte) (s : State) : Kept s (plotRecord b s).2 := by
  unfold plotRecord
  try dsimp only
  repeat' first
    | with_reducible apply Kept.ite
    | with_reducible apply Kept.refl
    | with_reducible assumption
    | with_reducible apply plotCommand_kept

theorem resetRecord_kept (b : List Byte) (s : State) : Kept s (resetRecord b s).2 := by
  unfold resetRecord
  try dsimp only
  repeat' first
    | with_reducible apply Kept.ite
    | with_reducible apply Kept.refl
    | with_reducible assumption
    | with_reducible apply Kept.trans ?_ (resetDict_kept (hf := fun _ => ?_) ..)
    | with_reducible apply resetCommand_kept

end Sys2Proof.Machine
end

