-- ==== Sys2Proof/Laws/KeptObjects.lean ====
section
/-! SUPPORT. What the objects of the dictionary keep when they are written. -/

namespace Sys2Proof.Machine

/-- A write of an object keeps what every operation keeps. -/
def Obj.Keeps (o : Obj) : Prop := ∀ x j b s, Kept s (o.apply x j b s).2

theorem shown_keeps (o : Obj) (h : o.apply = fun _ _ _ s => (Adp.readOnly, s)) : o.Keeps := by
  intro x j b s; rw [h]; exact Kept.refl _

theorem oConst_keeps (index first last : Nat) (typ : ObjType) (f : Nat → Nat) : (oConst index first last typ f).Keeps :=
  shown_keeps _ rfl
theorem oBytes_keeps (index sub : Nat) (typ : ObjType) (b : List Byte) : (oBytes index sub typ b).Keeps := shown_keeps _ rfl
theorem oShow_keeps (index first last : Nat) (typ : ObjType) (f : State → Nat → Nat) :
    (oShow index first last typ f).Keeps := shown_keeps _ rfl
theorem oImage_keeps (index first last : Nat) (typ : ObjType) (f : State → Surface → Nat → List Byte) :
    (oImage index first last typ f).Keeps := shown_keeps _ rfl
theorem oCount_keeps (index last : Nat) : (oCount index last).Keeps := shown_keeps _ rfl
theorem oSel_keeps (index sub : Nat) (typ : ObjType) (dflt : Nat) (ok : Nat → Bool) : (oSel index sub typ dflt ok).Keeps :=
  shown_keeps _ rfl

theorem raw_keeps {o : Obj} (h : ∀ x j b s, Kept s (o.apply x j b s).2) : o.Keeps := h
theorem gated_keeps {o : Obj} (h : o.Keeps) : o.gated.Keeps := h
theorem apart_keeps {o : Obj} (h : o.Keeps) : o.apart.Keeps := h
theorem ofPlots_keeps {o : Obj} (h : o.Keeps) : o.ofPlots.Keeps := h

theorem oSet_keeps (index first last : Nat) (typ : ObjType) (dflt : Nat → Nat) (ok : State → Nat → Nat → Bool)
    (gate : State → Nat → Bool) (after : Nat → State → State) (h : ∀ j s, Kept s (after j s)) :
    (oSet index first last typ dflt ok gate after).Keeps := by
  intro x j b s
  unfold oSet
  dsimp only
  repeat' split
  · exact Kept.refl _
  · exact Kept.refl _
  · exact (setOd_kept ..).trans (h ..)

theorem oRw_keeps (index sub : Nat) (typ : ObjType) (dflt lo hi : Nat) : (oRw index sub typ dflt lo hi).Keeps :=
  oSet_keeps _ _ _ _ _ _ _ _ fun _ _ => Kept.refl _

theorem oKeep_keeps (index first last size : Nat) (gate : State → Nat → Bool) (after : Nat → State → State)
    (h : ∀ j s, Kept s (after j s)) : (oKeep index first last size gate after).Keeps := by
  intro x j b s
  unfold oKeep
  dsimp only
  split
  · exact Kept.refl _
  · exact (onDict_kept ..).trans (h ..)

theorem oCmd_keeps (index first last : Nat) (typ : ObjType) (f : Surface → Nat → Nat → State → Nat × State)
    (h : ∀ x j v s, Kept s (f x j v s).2) : (oCmd index first last typ f).Keeps := fun _ _ _ _ => h ..

theorem oSend_keeps (index sub : Nat) (typ : ObjType) (size : Nat → Bool) (f : Surface → List Byte → State → Nat × State)
    (h : ∀ x b s, Kept s (f x b s).2) : (oSend index sub typ size f).Keeps := fun _ _ _ _ => h ..

theorem nil_keep : ∀ o ∈ ([] : List Obj), o.Keeps := List.forall_mem_nil _
theorem cons_keep {o : Obj} {l : List Obj} (h : o.Keeps) (k : ∀ o ∈ l, o.Keeps) : ∀ x ∈ o :: l, x.Keeps :=
  List.forall_mem_cons.mpr ⟨h, k⟩

theorem objsIdentity_keep : ∀ o ∈ objsIdentity, o.Keeps := by
  unfold objsIdentity
  repeat' with_reducible first
    | exact nil_keep
    | refine cons_keep ?_ ?_
    | exact oConst_keeps ..
    | exact oBytes_keeps ..
    | exact oShow_keeps ..
    | exact oRw_keeps ..
    | refine gated_keeps ?_
    | apply oSet_keeps (h := fun _ _ => ?_)
    | apply oKeep_keeps (h := fun _ _ => ?_)
    | apply Kept.refl

theorem objsDevice_keep : ∀ o ∈ objsDevice, o.Keeps := by
  unfold objsDevice
  repeat' with_reducible first
    | exact nil_keep
    | refine cons_keep ?_ ?_
    | exact oBytes_keeps ..
    | exact oShow_keeps ..
    | exact oImage_keeps ..
    | exact oRw_keeps ..
    | refine gated_keeps ?_
    | apply oSet_keeps (h := fun _ _ => ?_)
    | apply Kept.refl
    | apply compareAll_kept

theorem planCompared_kept (s : State) : Kept s (compareAll (planLoaded s)) := (planLoaded_kept s).trans (compareAll_kept _)

theorem objsPorts_keep : ∀ o ∈ objsPorts, o.Keeps := by
  unfold objsPorts
  repeat' with_reducible first
    | exact nil_keep
    | refine cons_keep ?_ ?_
    | exact oConst_keeps ..
    | exact oShow_keeps ..
    | exact oImage_keeps ..
    | exact oRw_keeps ..
    | refine gated_keeps ?_
    | refine apart_keeps ?_
    | apply oSet_keeps (h := fun _ _ => ?_)
    | apply oCmd_keeps (h := fun _ _ _ _ => ?_)
    | apply Kept.refl
    | apply planCompared_kept
    | apply compareAll_kept
    | apply portCommand_kept
    | apply writePortPlot_kept
    | apply writeWiring_kept
    | refine raw_keeps fun _ _ _ _ => ?_

theorem objsSwitch_keep : ∀ o ∈ objsSwitch, o.Keeps := by
  unfold objsSwitch
  repeat' with_reducible first
    | exact nil_keep
    | refine cons_keep ?_ ?_
    | exact oConst_keeps ..
    | exact oShow_keeps ..
    | exact oRw_keeps ..
    | refine gated_keeps ?_
    | refine ofPlots_keeps ?_
    | apply oSet_keeps (h := fun _ _ => ?_)
    | apply Kept.refl
    | apply shareAgain_kept

theorem objsTranslation_keep : ∀ o ∈ objsTranslation, o.Keeps := by
  unfold objsTranslation
  repeat' with_reducible first
    | exact nil_keep
    | refine cons_keep ?_ ?_
    | exact oConst_keeps ..
    | exact oShow_keeps ..
    | exact oRw_keeps ..
    | refine gated_keeps ?_
    | refine ofPlots_keeps ?_
    | apply oSet_keeps (h := fun _ _ => ?_)
    | apply Kept.refl

theorem objsPool_keep : ∀ o ∈ objsPool, o.Keeps := by
  unfold objsPool
  repeat' with_reducible first
    | exact nil_keep
    | refine cons_keep ?_ ?_
    | exact oConst_keeps ..
    | exact oShow_keeps ..
    | exact oImage_keeps ..
    | exact oSel_keeps ..
    | exact oRw_keeps ..
    | refine gated_keeps ?_
    | refine apart_keeps ?_
    | apply oSet_keeps (h := fun _ _ => ?_)
    | apply oSend_keeps (h := fun _ _ _ => ?_)
    | apply Kept.refl
    | apply extentRecord_kept
    | apply orphanRecord_kept
    | apply writeGrants_kept
    | refine raw_keeps fun _ _ _ _ => ?_

theorem objsFurrow_keep : ∀ o ∈ objsFurrow, o.Keeps := by
  unfold objsFurrow
  repeat' with_reducible first
    | exact nil_keep
    | refine cons_keep ?_ ?_
    | exact oConst_keeps ..
    | exact oShow_keeps ..
    | exact oImage_keeps ..
    | refine gated_keeps ?_
    | refine apart_keeps ?_
    | refine ofPlots_keeps ?_
    | apply oSet_keeps (h := fun _ _ => ?_)
    | apply oCmd_keeps (h := fun _ _ _ _ => ?_)
    | apply Kept.refl
    | apply probeClear_kept

theorem objsCollectives_keep : ∀ o ∈ objsCollectives, o.Keeps := by
  unfold objsCollectives
  repeat' with_reducible first
    | exact nil_keep
    | refine cons_keep ?_ ?_
    | exact oConst_keeps ..
    | exact oImage_keeps ..
    | exact oSel_keeps ..
    | exact oRw_keeps ..
    | refine gated_keeps ?_
    | refine ofPlots_keeps ?_
    | apply oSet_keeps (h := fun _ _ => ?_)
    | apply oCmd_keeps (h := fun _ _ _ _ => ?_)
    | apply Kept.refl
    | apply shareAgain_kept
    | apply abortCommand_kept
    | apply writeGroup_kept
    | apply writeCounters_kept
    | refine raw_keeps fun _ _ _ _ => ?_

theorem objsSecurity_keep : ∀ o ∈ objsSecurity, o.Keeps := by
  unfold objsSecurity
  repeat' with_reducible first
    | exact nil_keep
    | refine cons_keep ?_ ?_
    | exact oBytes_keeps ..
    | exact oShow_keeps ..
    | exact oImage_keeps ..
    | exact oRw_keeps ..
    | refine ofPlots_keeps ?_
    | apply oSet_keeps (h := fun _ _ => ?_)
    | apply oKeep_keeps (h := fun _ _ => ?_)
    | apply oCmd_keeps (h := fun _ _ _ _ => ?_)
    | apply oSend_keeps (h := fun _ _ _ => ?_)
    | apply Kept.refl
    | apply onTrue_kept (hf := fun _ => ?_)
    | apply compareAll_kept
    | apply partnerNamed_kept
    | apply plotRecord_kept
    | apply debugWrite_kept
    | apply pairReset_kept
    | apply attestGo_kept
    | apply writeCores_kept
    | apply writeWays_kept
    | apply writeSets_kept
    | apply onKey_kept
    | split
    | refine raw_keeps fun _ _ _ _ => ?_

theorem objsIntegrity_keep : ∀ o ∈ objsIntegrity, o.Keeps := by
  unfold objsIntegrity
  repeat' with_reducible first
    | exact nil_keep
    | refine cons_keep ?_ ?_
    | exact oConst_keeps ..
    | exact oShow_keeps ..
    | exact oImage_keeps ..
    | exact oSel_keeps ..
    | exact oRw_keeps ..
    | apply oSet_keeps (h := fun _ _ => ?_)
    | apply oCmd_keeps (h := fun _ _ _ _ => ?_)
    | apply oSend_keeps (h := fun _ _ _ => ?_)
    | apply Kept.refl
    | apply onTrue_kept (hf := fun _ => ?_)
    | apply tilthWrite_kept
    | apply digestNow_kept
    | apply writeRegion_kept
    | refine raw_keeps fun _ _ _ _ => ?_

theorem objsPower_keep : ∀ o ∈ objsPower, o.Keeps := by
  unfold objsPower
  repeat' with_reducible first
    | exact nil_keep
    | refine cons_keep ?_ ?_
    | exact oConst_keeps ..
    | exact oShow_keeps ..
    | exact oImage_keeps ..
    | exact oRw_keeps ..
    | apply oSet_keeps (h := fun _ _ => ?_)
    | apply oCmd_keeps (h := fun _ _ _ _ => ?_)
    | apply oSend_keeps (h := fun _ _ _ => ?_)
    | apply Kept.refl
    | apply callPlan_kept
    | apply resetRecord_kept
    | apply timeSet_kept

theorem objsCounters_keep : ∀ o ∈ objsCounters, o.Keeps := by
  unfold objsCounters
  repeat' with_reducible first
    | exact nil_keep
    | refine cons_keep ?_ ?_
    | exact oConst_keeps ..
    | exact oShow_keeps ..
    | exact oImage_keeps ..
    | exact oCount_keeps ..
    | exact oSel_keeps ..

theorem objects_keep : ∀ o ∈ objects, o.Keeps := by
  intro o ho
  simp only [objects, List.mem_append] at ho
  rcases ho with h | h | h | h | h | h | h | h | h | h | h | h
  · exact objsIdentity_keep o h
  · exact objsDevice_keep o h
  · exact objsPorts_keep o h
  · exact objsSwitch_keep o h
  · exact objsTranslation_keep o h
  · exact objsPool_keep o h
  · exact objsFurrow_keep o h
  · exact objsCollectives_keep o h
  · exact objsSecurity_keep o h
  · exact objsIntegrity_keep o h
  · exact objsPower_keep o h
  · exact objsCounters_keep o h

end Sys2Proof.Machine
end

