-- ==== Sys2Proof/Laws/KeptDictOps.lean ====
section
/-! SUPPORT. What each operation of Machine/DictOps.lean keeps. -/

namespace Sys2Proof.Machine

theorem dictRead_kept (who : Option Nat) (index sub : Nat) (x : Surface) (s : State) :
    Kept s (dictRead who index sub x s).state := by
  unfold dictRead refuse
  dsimp only
  repeat' first
    | exact Kept.refl _
    | split

theorem dictApply_kept (o : Obj) (ho : o.Keeps) (sub : Nat) (b : List Byte) (x : Surface) (s : State) :
    Kept s (dictApply o sub b x s).state := by
  unfold dictApply refuse; repeat' split
  all_goals first | exact Kept.refl _ | exact ho ..

theorem locate_keeps (index sub : Nat) (o : Obj) (h : locate index sub = .ok o) : o.Keeps := by
  unfold locate at h
  repeat' split at h
  · cases h
  · cases h; exact fun _ _ _ _ => Kept.refl _
  · cases h
  · cases h
    rename_i hf
    exact objects_keep _ (List.mem_filter.mp (List.mem_of_find?_eq_some hf)).1

theorem writable_keeps (who : Option Nat) (index sub : Nat) (o : Obj) (h : writable who index sub = .ok o) : o.Keeps := by
  unfold writable at h
  split at h
  · cases h
  · rename_i hl
    repeat' split at h
    all_goals cases h
    exact locate_keeps _ _ _ hl

theorem dictWrite_kept (who : Option Nat) (index sub : Nat) (b : List Byte) (x : Surface) (s : State) :
    Kept s (dictWrite who index sub b x s).state := by
  unfold dictWrite
  split
  · exact Kept.refl _
  · rename_i h
    split
    · exact Kept.refl _
    · exact dictApply_kept _ (writable_keeps _ _ _ _ h) ..

theorem dictReadBlock_kept (who : Option Nat) (n index sub off : Nat) (x : Surface) (s : State) :
    Kept s (dictReadBlock who n index sub off x s).state := by
  unfold dictReadBlock refuse
  dsimp only
  repeat' first
    | exact Kept.refl _
    | split

theorem dictWriteBlock_kept (who : Option Nat) (last : Bool) (index sub off : Nat) (b : List Byte) (x : Surface) (s : State) :
    Kept s (dictWriteBlock who last index sub off b x s).state := by
  unfold dictWriteBlock
  split
  · exact Kept.refl _
  · rename_i h
    dsimp only
    repeat' first
      | exact Kept.refl _
      | exact dictApply_kept _ (writable_keeps _ _ _ _ h) ..
      | split

theorem dictDo_kept (op : DictOp) (who : Option Nat) (n : Nat) (last : Bool) (index sub off : Nat) (b : List Byte) (x : Surface)
    (s : State) : Kept s (dictDo op who n last index sub off b x s).state := by
  unfold dictDo
  repeat' split
  · exact dictRead_kept ..
  · exact dictWrite_kept ..
  · exact dictReadBlock_kept ..
  · exact Kept.refl _
  · exact dictWriteBlock_kept ..

theorem mbEnds_kept (d : DictDone) : Kept d.state (mbEnds d) :=
  (onDict_kept ..).trans ((bump_kept ..).trans (ringDoorbell_kept ..))

theorem mbRun_kept (op : Nat) (last : Bool) (len : Nat) (off : Nat) (s : State) : Kept s (mbRun op last len off s) := by
  unfold mbRun
  extract_lets x i b d
  have k : Kept s d.state := by
    dsimp +zetaDelta only [refuse]
    repeat' split
    · exact Kept.refl _
    · exact Kept.refl _
    all_goals exact dictDo_kept ..
  clear_value d
  exact (Kept.ite (k.trans (mbEnds_kept ..)) k).trans (settle_kept _)

theorem mbCommand_kept (op : Nat) (last : Bool) (len : Nat) (off : Nat) (s : State) : Kept s (mbCommand op last len off s) := by
  unfold mbCommand
  try dsimp only
  repeat' first
    | with_reducible apply Kept.ite
    | with_reducible apply Kept.refl
    | with_reducible assumption
    | with_reducible apply Kept.trans ?_ (viaReg_kept (hf := fun _ => ?_) ..)
    | with_reducible apply regAck_kept
    | with_reducible apply Kept.trans ?_ (regAck_kept ..)
    | with_reducible apply mbRun_kept
    | with_reducible apply Kept.trans ?_ (mbRun_kept ..)
    | with_reducible apply onDict_kept
    | with_reducible apply Kept.trans ?_ (onDict_kept ..)

theorem mgmtBack_kept (s : State) : Kept s (mgmtBack s) := by
  unfold mgmtBack
  extract_lets e1
  have k1 : Kept s e1 := by
    repeat' first
      | with_reducible apply Kept.ite
      | with_reducible apply Kept.refl
      | with_reducible assumption
      | with_reducible apply mgmtReturns_kept
  clear_value e1
  repeat' first
    | with_reducible apply Kept.ite
    | with_reducible apply Kept.refl
    | with_reducible assumption
    | with_reducible apply mgmtReturns_kept
    | with_reducible apply Kept.trans ?_ (mgmtReturns_kept ..)
    | with_reducible apply mbRun_kept
    | with_reducible apply Kept.trans ?_ (mbRun_kept ..)
    | with_reducible apply onDict_kept
    | with_reducible apply Kept.trans ?_ (onDict_kept ..)
    | split

end Sys2Proof.Machine
end

