-- ==== Sys2Proof/Laws/KeptAdpOps.lean ====
section
/-! SUPPORT. What each operation of Machine/AdpOps.lean keeps. -/

namespace Sys2Proof.Machine

theorem onSession_kept (num : Nat) (f : Session → Session) (s : State) : Kept s (State.onSession num f s) := by
  unfold State.onSession
  try dsimp only
  repeat' first
    | with_reducible apply Kept.ite
    | with_reducible apply Kept.refl
    | with_reducible assumption
    | with_reducible apply onDict_kept

theorem closeSession_kept (num : Nat) (cause : Nat) (s : State) : Kept s (closeSession num cause s) := by
  unfold closeSession
  try dsimp only
  repeat' first
    | with_reducible apply Kept.ite
    | with_reducible apply Kept.refl
    | with_reducible assumption
    | with_reducible apply raise_kept
    | with_reducible apply Kept.trans ?_ (raise_kept ..)
    | with_reducible apply onDict_kept

theorem authFailed_kept (src : Nat) (s : State) : Kept s (authFailed src s) := by
  unfold authFailed
  try dsimp only
  repeat' first
    | with_reducible apply Kept.ite
    | with_reducible apply Kept.refl
    | with_reducible assumption
    | with_reducible apply bump_kept
    | with_reducible apply Kept.trans ?_ (bump_kept ..)
    | with_reducible apply authFails_kept
    | with_reducible apply Kept.trans ?_ (authFails_kept ..)
    | with_reducible apply raise_kept
    | with_reducible apply Kept.trans ?_ (raise_kept ..)
    | with_reducible apply onDict_kept
    | with_reducible apply Kept.trans ?_ (onDict_kept ..)

theorem reservedAnswer_kept (typ : Nat) (tagged : Bool) (m : AdpMsg) (s : State) : Kept s (reservedAnswer typ tagged m s) := by
  unfold reservedAnswer
  try dsimp only
  repeat' first
    | with_reducible apply Kept.ite
    | with_reducible apply Kept.refl
    | with_reducible assumption
    | with_reducible apply emit_kept

theorem respond_kept (r : AdpResp) (s : State) : Kept s (respond r s) := by
  unfold respond
  try dsimp only
  repeat' first
    | with_reducible apply Kept.ite
    | with_reducible apply Kept.refl
    | with_reducible assumption
    | with_reducible apply bump_kept
    | with_reducible apply Kept.trans ?_ (bump_kept ..)
    | with_reducible apply onSession_kept
    | with_reducible apply Kept.trans ?_ (onSession_kept ..)
    | with_reducible apply emit_kept
    | with_reducible apply Kept.trans ?_ (emit_kept ..)

theorem intake_kept (typ : Nat) (m : AdpMsg) (fresh : Session → State → State) (s : State) (hfresh : ∀ a s, Kept s (fresh a s)) : Kept s (intake typ m fresh s) := by
  unfold intake
  try dsimp only
  repeat' first
    | with_reducible apply Kept.ite
    | with_reducible apply Kept.refl
    | with_reducible assumption
    | with_reducible apply reservedAnswer_kept
    | with_reducible apply Kept.trans ?_ (reservedAnswer_kept ..)
    | with_reducible apply authFailed_kept
    | with_reducible apply Kept.trans ?_ (authFailed_kept ..)
    | with_reducible apply onSession_kept
    | with_reducible apply Kept.trans ?_ (onSession_kept ..)
    | with_reducible apply bump_kept
    | with_reducible apply Kept.trans ?_ (bump_kept ..)
    | with_reducible apply emit_kept
    | with_reducible apply Kept.trans ?_ (emit_kept ..)
    | with_reducible exact hfresh _ _
    | with_reducible apply Kept.trans ?_ (hfresh _ _)
    | split

theorem adpRequest_kept (op : DictOp) (typ : Nat) (m : AdpMsg) (s : State) : Kept s (adpRequest op typ m s) := by
  unfold adpRequest
  exact intake_kept _ _ _ _ fun _ _ =>
    (((dictDo_kept ..).trans (onSession_kept ..)).trans (respond_kept ..)).trans (settle_kept _)

theorem heartbeatIn_kept (m : AdpMsg) (s : State) : Kept s (heartbeatIn m s) := by
  unfold heartbeatIn
  try dsimp only
  repeat' first
    | with_reducible apply Kept.ite
    | with_reducible apply Kept.refl
    | with_reducible assumption
    | with_reducible apply Kept.trans ?_ (intake_kept (hfresh := fun _ _ => ?_) ..)
    | with_reducible apply respond_kept

theorem closeIn_kept (own : Bool) (m : AdpMsg) (s : State) : Kept s (closeIn own m s) := by
  unfold closeIn
  try dsimp only
  repeat' first
    | with_reducible apply Kept.ite
    | with_reducible apply Kept.refl
    | with_reducible assumption
    | with_reducible apply closeSession_kept
    | with_reducible apply Kept.trans ?_ (closeSession_kept ..)
    | with_reducible apply Kept.trans ?_ (intake_kept (hfresh := fun _ _ => ?_) ..)
    | with_reducible apply respond_kept
    | with_reducible apply Kept.trans ?_ (respond_kept ..)
    | with_reducible apply emit_kept
    | with_reducible apply Kept.trans ?_ (emit_kept ..)
    | split

theorem sessionExpires_kept (num : Nat) (s : State) : Kept s (sessionExpires num s) := by
  unfold sessionExpires
  try dsimp only
  repeat' first
    | with_reducible apply Kept.ite
    | with_reducible apply Kept.refl
    | with_reducible assumption
    | with_reducible apply closeSession_kept
    | with_reducible apply Kept.trans ?_ (closeSession_kept ..)
    | split

theorem preBeat_kept (s : State) : Kept s (preBeat s) := by
  unfold preBeat
  try dsimp only
  repeat' first
    | with_reducible apply Kept.ite
    | with_reducible apply Kept.refl
    | with_reducible assumption
    | with_reducible apply emit_kept
    | with_reducible apply Kept.trans ?_ (emit_kept ..)
    | with_reducible apply onDict_kept

theorem sessionBeat_kept (num : Nat) (s : State) : Kept s (sessionBeat num s) := by
  unfold sessionBeat
  try dsimp only
  repeat' first
    | with_reducible apply Kept.ite
    | with_reducible apply Kept.refl
    | with_reducible assumption
    | with_reducible apply onSession_kept
    | with_reducible apply Kept.trans ?_ (onSession_kept ..)
    | with_reducible apply emit_kept
    | with_reducible apply Kept.trans ?_ (emit_kept ..)
    | split

theorem eventAcked_kept (num : Nat) (seq : Nat) (tagOk : Bool) (s : State) : Kept s (eventAcked num seq tagOk s) := by
  unfold eventAcked
  try dsimp only
  repeat' first
    | with_reducible apply Kept.ite
    | with_reducible apply Kept.refl
    | with_reducible assumption
    | with_reducible apply authFailed_kept
    | with_reducible apply Kept.trans ?_ (authFailed_kept ..)
    | with_reducible apply onSession_kept
    | with_reducible apply Kept.trans ?_ (onSession_kept ..)
    | with_reducible apply deliver_kept
    | with_reducible apply Kept.trans ?_ (deliver_kept ..)
    | with_reducible apply onDict_kept
    | with_reducible apply Kept.trans ?_ (onDict_kept ..)
    | split

theorem eventAgain_kept (num : Nat) (s : State) : Kept s (eventAgain num s) := by
  unfold eventAgain
  try dsimp only
  repeat' first
    | with_reducible apply Kept.ite
    | with_reducible apply Kept.refl
    | with_reducible assumption
    | with_reducible apply onSession_kept
    | with_reducible apply Kept.trans ?_ (onSession_kept ..)
    | with_reducible apply emit_kept
    | with_reducible apply Kept.trans ?_ (emit_kept ..)
    | split

theorem openAnswer_kept (m : AdpMsg) (num : Nat) (result : Nat) (body : List Byte) (s : State) :
    Kept s (openAnswer m num result body s) :=
  ((Kept.ite (Kept.refl _) (bump_kept ..)).trans (onDict_kept ..)).trans (sent_kept _ _)

theorem openSession_kept (x : Session) (kind : Nat) (first8 : Nat) (s : State) : Kept s (openSession x kind first8 s) := by
  unfold openSession
  try dsimp only
  repeat' first
    | with_reducible apply Kept.ite
    | with_reducible apply Kept.refl
    | with_reducible assumption
    | with_reducible apply raise_kept
    | with_reducible apply Kept.trans ?_ (raise_kept ..)
    | with_reducible apply bump_kept
    | with_reducible apply Kept.trans ?_ (bump_kept ..)
    | with_reducible apply onDict_kept

theorem openManager_kept (m : AdpMsg) (s : State) : Kept s (openManager m s) := by
  unfold openManager
  extract_lets e1 e2 e3 e4 e5 e6 e7 e8 e9 e10 e11 e12 e13 e14
  have k12 : Kept s e12 := by
    repeat' first
      | with_reducible apply Kept.ite
      | with_reducible apply Kept.refl
      | with_reducible assumption
      | with_reducible apply openAnswer_kept
      | with_reducible apply Kept.trans ?_ (openAnswer_kept ..)
      | with_reducible apply openSession_kept
      | with_reducible apply Kept.trans ?_ (openSession_kept ..)
      | with_reducible apply drawn_kept
      | with_reducible apply Kept.trans ?_ (drawn_kept ..)
  clear_value e12
  have k13 : Kept s e13 := by
    repeat' first
      | with_reducible apply Kept.ite
      | with_reducible apply Kept.refl
      | with_reducible assumption
      | with_reducible apply openAnswer_kept
      | with_reducible apply Kept.trans ?_ (openAnswer_kept ..)
  clear_value e13
  have k14 : Kept s e14 := by
    repeat' first
      | with_reducible apply Kept.ite
      | with_reducible apply Kept.refl
      | with_reducible assumption
      | with_reducible apply openAnswer_kept
      | with_reducible apply Kept.trans ?_ (openAnswer_kept ..)
      | with_reducible apply openSession_kept
      | with_reducible apply Kept.trans ?_ (openSession_kept ..)
      | with_reducible apply drawn_kept
      | with_reducible apply Kept.trans ?_ (drawn_kept ..)
      | (with_reducible apply Kept.trans ?_ (onBoot_kept _ _ ?_)) <;> [skip; rfl]
  clear_value e14
  repeat' first
    | with_reducible apply Kept.ite
    | with_reducible apply Kept.refl
    | with_reducible assumption
    | with_reducible apply openAnswer_kept
    | with_reducible apply Kept.trans ?_ (openAnswer_kept ..)
    | with_reducible apply openSession_kept
    | with_reducible apply Kept.trans ?_ (openSession_kept ..)

theorem openTenant_kept (m : AdpMsg) (s : State) : Kept s (openTenant m s) := by
  unfold openTenant
  try dsimp only
  repeat' first
    | with_reducible apply Kept.ite
    | with_reducible apply Kept.refl
    | with_reducible assumption
    | with_reducible apply openAnswer_kept
    | with_reducible apply Kept.trans ?_ (openAnswer_kept ..)
    | with_reducible apply openSession_kept
    | with_reducible apply Kept.trans ?_ (openSession_kept ..)
    | with_reducible apply drawn_kept
    | with_reducible apply Kept.trans ?_ (drawn_kept ..)
    | split

theorem openIn_kept (m : AdpMsg) (s : State) : Kept s (openIn m s) := by
  unfold openIn
  try dsimp only
  repeat' first
    | with_reducible apply Kept.ite
    | with_reducible apply Kept.refl
    | with_reducible assumption
    | with_reducible apply reservedAnswer_kept
    | with_reducible apply Kept.trans ?_ (reservedAnswer_kept ..)
    | with_reducible apply bump_kept
    | with_reducible apply Kept.trans ?_ (bump_kept ..)
    | with_reducible apply openManager_kept
    | with_reducible apply Kept.trans ?_ (openManager_kept ..)
    | with_reducible apply openTenant_kept
    | with_reducible apply Kept.trans ?_ (openTenant_kept ..)
    | with_reducible apply openAnswer_kept
    | with_reducible apply Kept.trans ?_ (openAnswer_kept ..)
    | split
    | with_reducible apply sent_kept

theorem openExpires_kept (nonce : List Byte) (seq : Nat) (s : State) : Kept s (openExpires nonce seq s) := by
  unfold openExpires
  try dsimp only
  repeat' first
    | with_reducible apply Kept.ite
    | with_reducible apply Kept.refl
    | with_reducible assumption
    | with_reducible apply onDict_kept

theorem transferExpires_kept (who : Option Nat) (s : State) : Kept s (transferExpires who s) := by
  unfold transferExpires
  try dsimp only
  repeat' first
    | with_reducible apply Kept.ite
    | with_reducible apply Kept.refl
    | with_reducible assumption
    | with_reducible apply onSession_kept
    | with_reducible apply Kept.trans ?_ (onSession_kept ..)
    | with_reducible apply onDict_kept
    | with_reducible apply Kept.trans ?_ (onDict_kept ..)
    | split

theorem beaconIn_kept (s : State) : Kept s (beaconIn s) := by
  unfold beaconIn
  try dsimp only
  repeat' first
    | with_reducible apply Kept.ite
    | with_reducible apply Kept.refl
    | with_reducible assumption
    | with_reducible apply onDict_kept

theorem beaconLost_kept (s : State) : Kept s (beaconLost s) := by
  unfold beaconLost
  try dsimp only
  repeat' first
    | with_reducible apply Kept.ite
    | with_reducible apply Kept.refl
    | with_reducible assumption
    | with_reducible apply onDict_kept

theorem neighbourIn_kept (target : List Byte) (s : State) : Kept s (neighbourIn target s) := by
  unfold neighbourIn
  try dsimp only
  repeat' first
    | with_reducible apply Kept.ite
    | with_reducible apply Kept.refl
    | with_reducible assumption
    | with_reducible apply emit_kept

end Sys2Proof.Machine
end

