-- ==== Sys2Proof/Laws/KeptClock.lean ====
section
/-! SUPPORT. What each operation of Machine/Clock.lean keeps. -/

namespace Sys2Proof.Machine

theorem exchange_kept (s : State) : Kept s (exchange s) := by
  unfold exchange
  extract_lets e1 e2
  have k2 : Kept s e2 := by
    repeat' first
      | with_reducible apply Kept.ite
      | with_reducible apply Kept.refl
      | with_reducible assumption
      | with_reducible apply timeStart_kept
      | with_reducible apply Kept.trans ?_ (timeStart_kept ..)
      | with_reducible apply settle_kept
      | with_reducible apply Kept.trans ?_ (settle_kept ..)
      | with_reducible apply serve_kept
      | with_reducible apply Kept.trans ?_ (serve_kept ..)
      | with_reducible apply onTime_kept
  clear_value e2
  repeat' first
    | with_reducible apply Kept.ite
    | with_reducible apply Kept.refl
    | with_reducible assumption
    | with_reducible apply timeStart_kept
    | with_reducible apply Kept.trans ?_ (timeStart_kept ..)
    | with_reducible apply settle_kept
    | with_reducible apply Kept.trans ?_ (settle_kept ..)
    | with_reducible apply serve_kept
    | with_reducible apply Kept.trans ?_ (serve_kept ..)

end Sys2Proof.Machine
end

