-- ==== Sys2Proof/Laws/KeptGycia.lean ====
section
/-! SUPPORT. What each operation of Machine/Gycia.lean keeps. -/

namespace Sys2Proof.Machine

theorem requestArrives_kept (r : Req) (s : State) : Kept s (requestArrives r s) := by
  unfold requestArrives
  try dsimp only
  repeat' first
    | with_reducible apply Kept.ite
    | with_reducible apply Kept.refl
    | with_reducible assumption
    | with_reducible apply settle_kept
    | with_reducible apply Kept.trans ?_ (settle_kept ..)
    | with_reducible apply serve_kept

end Sys2Proof.Machine
end

