-- ==== Sys2Proof/Laws/KeptLaniaOps.lean ====
section
/-! SUPPORT. What each operation of Machine/LaniaOps.lean keeps. -/

namespace Sys2Proof.Machine

theorem imageStore_kept (off : Nat) (data : List Byte) (s : State) : Kept s (imageStore off data s) :=
  ⟨id, id, fun h => Mem.wf_foldl _ (fun _ _ h => Mem.wf_put _ _ _ h) _ _ h, rfl, List.suffix_refl _⟩

theorem dmaQueue_kept (l : List Req) (s : State) : Kept s (dmaQueue l s) := by
  unfold dmaQueue
  try dsimp only
  repeat' first
    | with_reducible apply Kept.ite
    | with_reducible apply Kept.refl
    | with_reducible assumption
    | with_reducible apply dmaMoves_kept
    | with_reducible apply Kept.trans ?_ (dmaMoves_kept ..)
    | with_reducible apply onLania_kept

theorem dma_kept (write : Bool) (ctx : Nat) (off : Nat) (len : Nat) (data : List Byte) (s : State) : Kept s (dma write ctx off len data s) := by
  unfold dma
  try dsimp only
  repeat' first
    | with_reducible apply Kept.ite
    | with_reducible apply Kept.refl
    | with_reducible assumption
    | with_reducible apply imageStore_kept
    | with_reducible apply Kept.trans ?_ (imageStore_kept ..)
    | with_reducible apply dmaQueue_kept
    | with_reducible apply Kept.trans ?_ (dmaQueue_kept ..)
    | with_reducible apply emit_kept
    | with_reducible apply Kept.trans ?_ (emit_kept ..)

theorem ringRead_kept (base : Nat) (size : Nat) (off : Nat) (len : Nat) (s : State) : Kept s (ringRead base size off len s) := by
  unfold ringRead
  try dsimp only
  repeat' first
    | with_reducible apply Kept.ite
    | with_reducible apply Kept.refl
    | with_reducible assumption
    | with_reducible apply emit_kept

theorem hostData_kept (kind : HostData) (ctx : Nat) (off : Nat) (len : Nat) (data : List Byte) (s : State) : Kept s (hostData kind ctx off len data s) := by
  unfold hostData
  try dsimp only
  repeat' first
    | with_reducible apply Kept.ite
    | with_reducible apply Kept.refl
    | with_reducible assumption
    | with_reducible apply dma_kept
    | with_reducible apply Kept.trans ?_ (dma_kept ..)
    | with_reducible apply ringRead_kept
    | with_reducible apply Kept.trans ?_ (ringRead_kept ..)
    | split

theorem laneFailsLania_kept (lane : Nat) (s : State) : Kept s (laneFailsLania lane s) := by
  unfold laneFailsLania
  try dsimp only
  repeat' first
    | with_reducible apply Kept.ite
    | with_reducible apply Kept.refl
    | with_reducible assumption
    | with_reducible apply raise_kept
    | with_reducible apply Kept.trans ?_ (raise_kept ..)
    | with_reducible apply onLania_kept
    | with_reducible apply Kept.trans ?_ (onLania_kept ..)

theorem linkLost_kept (s : State) : Kept s (linkLost s) := by
  unfold linkLost
  try dsimp only
  repeat' first
    | with_reducible apply Kept.ite
    | with_reducible apply Kept.refl
    | with_reducible assumption
    | with_reducible apply companionLost_kept
    | with_reducible apply Kept.trans ?_ (companionLost_kept ..)
    | with_reducible apply onLania_kept

theorem linkTrains_kept (s : State) : Kept s (linkTrains s) := by
  unfold linkTrains
  try dsimp only
  repeat' first
    | with_reducible apply Kept.ite
    | with_reducible apply Kept.refl
    | with_reducible assumption
    | with_reducible apply onLania_kept

theorem consumeBells_kept (v : Nat) (s : State) : Kept s (consumeBells v s) := by
  unfold consumeBells
  try dsimp only
  repeat' first
    | with_reducible apply Kept.ite
    | with_reducible apply Kept.refl
    | with_reducible assumption
    | with_reducible apply unread_kept
    | with_reducible apply Kept.trans ?_ (unread_kept ..)
    | with_reducible apply onLania_kept
    | with_reducible apply Kept.trans ?_ (onLania_kept ..)
    | split

theorem bellBase_kept (v : Nat) (s : State) : Kept s (bellBase v s) := by
  unfold bellBase
  try dsimp only
  repeat' first
    | with_reducible apply Kept.ite
    | with_reducible apply Kept.refl
    | with_reducible assumption
    | with_reducible apply onLania_kept

theorem heartbeat_kept (v : U64) (s : State) : Kept s (heartbeat v s) := by
  unfold heartbeat
  try dsimp only
  repeat' first
    | with_reducible apply Kept.ite
    | with_reducible apply Kept.refl
    | with_reducible assumption
    | with_reducible apply raise_kept
    | with_reducible apply Kept.trans ?_ (raise_kept ..)
    | with_reducible apply onLania_kept

theorem heartbeatExpires_kept (s : State) : Kept s (heartbeatExpires s) := by
  unfold heartbeatExpires
  try dsimp only
  repeat' first
    | with_reducible apply Kept.ite
    | with_reducible apply Kept.refl
    | with_reducible assumption
    | with_reducible apply companionLost_kept
    | with_reducible apply Kept.trans ?_ (companionLost_kept ..)
    | split

end Sys2Proof.Machine
end

