-- ==== Sys2Proof/Laws/KeptVersionCmds.lean ====
section
/-! SUPPORT. What each operation of Machine/VersionCmds.lean keeps. -/

namespace Sys2Proof.Machine

theorem versionRegister_kept (op : Nat) (node : Nat) (ext : Nat) (s : State) : Kept s (versionRegister op node ext s) := by
  unfold versionRegister
  try dsimp only
  repeat' first
    | with_reducible apply Kept.ite
    | with_reducible apply Kept.refl
    | with_reducible assumption
    | with_reducible apply versionOutcome_kept
    | with_reducible apply Kept.trans ?_ (versionOutcome_kept ..)
    | with_reducible apply versionArrives_kept
    | with_reducible apply Kept.trans ?_ (versionArrives_kept ..)
    | split

theorem versionComes_kept (op : Nat) (src : VerSource) (ext : Nat) (version : Nat) (s : State) : Kept s (versionComes op src ext version s) := by
  unfold versionComes
  try dsimp only
  repeat' first
    | with_reducible apply Kept.ite
    | with_reducible apply Kept.refl
    | with_reducible assumption
    | with_reducible apply settle_kept
    | with_reducible apply Kept.trans ?_ (settle_kept ..)
    | with_reducible apply serve_kept
    | with_reducible apply Kept.trans ?_ (serve_kept ..)
    | with_reducible apply Kept.trans ?_ (viaRegIn_kept (hf := fun _ => ?_) ..)
    | with_reducible apply regAck_kept
    | with_reducible apply Kept.trans ?_ (regAck_kept ..)
    | with_reducible apply versionRegister_kept
    | with_reducible apply Kept.trans ?_ (versionRegister_kept ..)
    | with_reducible apply onPool_kept
    | with_reducible apply Kept.trans ?_ (onPool_kept ..)
    | split

theorem copyMade_kept (x : Nat) (i : Nat) (s : State) : Kept s (copyMade x i s) := by
  unfold copyMade
  try dsimp only
  repeat' first
    | with_reducible apply Kept.ite
    | with_reducible apply Kept.refl
    | with_reducible assumption
    | with_reducible apply makeCopy_kept
    | with_reducible apply Kept.trans ?_ (makeCopy_kept ..)
    | with_reducible exact Kept.foldl_snd (fun _ _ => ?_) _ _
    | with_reducible apply Kept.foldl_snd (fun _ _ => ?_) _ _
    | with_reducible apply Kept.foldl_fst (fun _ _ => ?_) _ _
    | with_reducible apply Kept.foldl_snd_snd (fun _ _ => ?_) _ _ _
    | split

end Sys2Proof.Machine
end

