-- ==== Sys2Proof/Laws/KeptWatches.lean ====
section
/-! SUPPORT. What each operation of Machine/Watches.lean keeps. -/

namespace Sys2Proof.Machine

theorem watchRegister_kept (cmd : List Byte) (s : State) : Kept s (watchRegister cmd s) := by
  unfold watchRegister
  try dsimp only
  repeat' first
    | with_reducible apply Kept.ite
    | with_reducible apply Kept.refl
    | with_reducible assumption
    | with_reducible apply watchCommand_kept
    | with_reducible apply Kept.trans ?_ (watchCommand_kept ..)
    | with_reducible apply onSync_kept
    | with_reducible apply Kept.trans ?_ (onSync_kept ..)

theorem watchArrives_kept (op : Nat) (src : WatchSource) (cmd : List Byte) (s : State) : Kept s (watchArrives op src cmd s) := by
  unfold watchArrives
  try dsimp only
  repeat' first
    | with_reducible apply Kept.ite
    | with_reducible apply Kept.refl
    | with_reducible assumption
    | with_reducible apply settle_kept
    | with_reducible apply Kept.trans ?_ (settle_kept ..)
    | with_reducible apply serve_kept
    | with_reducible apply Kept.trans ?_ (serve_kept ..)
    | with_reducible apply Kept.trans ?_ (viaRegIn_kept (hf := fun _ => ?_) ..)
    | with_reducible apply regAck_kept
    | with_reducible apply Kept.trans ?_ (regAck_kept ..)
    | with_reducible apply watchRegister_kept
    | with_reducible apply Kept.trans ?_ (watchRegister_kept ..)
    | split

end Sys2Proof.Machine
end

