-- ==== Sys2Proof/Laws/KeptRegOps.lean ====
section
/-! SUPPORT. What each operation of Machine/RegOps.lean keeps. -/

namespace Sys2Proof.Machine

theorem regKeeps_kept (s : State) : Kept s (regKeeps s) := by
  unfold regKeeps
  try dsimp only
  repeat' first
    | with_reducible apply Kept.ite
    | with_reducible apply Kept.refl
    | with_reducible assumption
    | with_reducible apply regAck_kept

theorem regPlain_kept (w : RegW) (old : State → Nat) (f : Nat → State → State) (s : State) (hf : ∀ a s, Kept s (f a s)) : Kept s (regPlain w old f s) := by
  unfold regPlain
  try dsimp only
  repeat' first
    | with_reducible apply Kept.ite
    | with_reducible apply Kept.refl
    | with_reducible assumption
    | with_reducible apply regAck_kept
    | with_reducible apply Kept.trans ?_ (regAck_kept ..)
    | with_reducible exact hf _ _

theorem regCmd_kept (w : RegW) (f : Nat → State → State) (s : State) (hf : ∀ a s, Kept s (f a s)) : Kept s (regCmd w f s) := by
  unfold regCmd
  try dsimp only
  repeat' first
    | with_reducible apply Kept.ite
    | with_reducible apply Kept.refl
    | with_reducible assumption
    | with_reducible apply regAck_kept
    | with_reducible apply Kept.trans ?_ (regAck_kept ..)
    | with_reducible exact hf _ _
    | with_reducible apply Kept.trans ?_ (hf _ _)
    | split

theorem regDo_kept (w : RegW) (f : Nat → State → State) (s : State) (hf : ∀ a s, Kept s (f a s)) : Kept s (regDo w f s) := by
  unfold regDo
  try dsimp only
  repeat' first
    | with_reducible apply Kept.ite
    | with_reducible apply Kept.refl
    | with_reducible assumption
    | with_reducible apply Kept.trans ?_ (regCmd_kept (hf := fun _ _ => ?_) ..)
    | with_reducible apply regAck_kept
    | with_reducible apply Kept.trans ?_ (regAck_kept ..)
    | with_reducible exact hf _ _

theorem mirrored_kept (l : List (Nat × Nat × List Byte)) (s : State) : Kept s (mirrored l s).2 :=
  Kept.foldl_snd (fun _ _ => by
    split
    · exact Kept.refl _
    · exact dictWrite_kept ..) _ _

theorem regMirror_kept (off : Nat) (l : List (Nat × Nat × List Byte)) (s : State) : Kept s (regMirror off l s) := by
  unfold regMirror
  try dsimp only
  repeat' first
    | with_reducible apply Kept.ite
    | with_reducible apply Kept.refl
    | with_reducible assumption
    | with_reducible apply mirrored_kept
    | with_reducible apply Kept.trans ?_ (mirrored_kept ..)
    | with_reducible apply regAck_kept
    | with_reducible apply Kept.trans ?_ (regAck_kept ..)
    | with_reducible apply onDict_kept

theorem bootCode_kept (v : Nat) (s : State) : Kept s (bootCode v s) := by
  unfold bootCode
  try dsimp only
  repeat' first
    | with_reducible apply Kept.ite
    | with_reducible apply Kept.refl
    | with_reducible assumption
    | with_reducible apply Kept.trans ?_ (bootWrite_kept (hf := fun _ => ?_) ..)
    | with_reducible apply bootLoad_kept
    | with_reducible apply Kept.trans ?_ (bootLoad_kept ..)
    | with_reducible apply bootMeasure_kept
    | with_reducible apply Kept.trans ?_ (bootMeasure_kept ..)
    | with_reducible apply bootClock_kept
    | with_reducible apply Kept.trans ?_ (bootClock_kept ..)
    | with_reducible apply bootPower_kept
    | with_reducible apply Kept.trans ?_ (bootPower_kept ..)
    | with_reducible apply bootTrain_kept
    | with_reducible apply Kept.trans ?_ (bootTrain_kept ..)
    | with_reducible apply bootVerify_kept
    | with_reducible apply Kept.trans ?_ (bootVerify_kept ..)
    | with_reducible apply bootServe_kept
    | with_reducible apply Kept.trans ?_ (bootServe_kept ..)
    | with_reducible apply restart_kept
    | with_reducible apply Kept.trans ?_ (restart_kept ..)
    | split
    | with_reducible apply sent_kept
    | refine Kept.same rfl rfl rfl rfl rfl

theorem ctxCode_kept (v : Nat) (s : State) : Kept s (ctxCode v s) := by
  unfold ctxCode
  try dsimp only
  repeat' first
    | with_reducible apply Kept.ite
    | with_reducible apply Kept.refl
    | with_reducible assumption
    | with_reducible apply createCtx_kept
    | with_reducible apply Kept.trans ?_ (createCtx_kept ..)
    | with_reducible apply destroyCtx_kept
    | with_reducible apply Kept.trans ?_ (destroyCtx_kept ..)
    | with_reducible apply ctxResult_kept
    | with_reducible apply Kept.trans ?_ (ctxResult_kept ..)
    | split

theorem extentCode_kept (v : Nat) (s : State) : Kept s (extentCode v s) := by
  unfold extentCode
  try dsimp only
  repeat' first
    | with_reducible apply Kept.ite
    | with_reducible apply Kept.refl
    | with_reducible assumption
    | with_reducible apply Kept.trans ?_ (extentReg_kept (hf := fun _ => ?_) ..)
    | with_reducible apply assignExtent_kept
    | with_reducible apply Kept.trans ?_ (assignExtent_kept ..)
    | with_reducible apply revokeExtent_kept
    | with_reducible apply Kept.trans ?_ (revokeExtent_kept ..)
    | with_reducible apply regrantExtent_kept
    | with_reducible apply Kept.trans ?_ (regrantExtent_kept ..)
    | with_reducible apply releaseExtent_kept
    | with_reducible apply Kept.trans ?_ (releaseExtent_kept ..)
    | with_reducible apply adoptExtent_kept
    | with_reducible apply Kept.trans ?_ (adoptExtent_kept ..)
    | split

theorem furCode_kept (c : Nat) (v : Nat) (s : State) : Kept s (furCode c v s) := by
  unfold furCode
  try dsimp only
  repeat' first
    | with_reducible apply Kept.ite
    | with_reducible apply Kept.refl
    | with_reducible assumption
    | with_reducible apply loadStart_kept
    | with_reducible apply Kept.trans ?_ (loadStart_kept ..)
    | with_reducible apply coreStart_kept
    | with_reducible apply Kept.trans ?_ (coreStart_kept ..)
    | with_reducible apply settle_kept
    | with_reducible apply Kept.trans ?_ (settle_kept ..)
    | with_reducible apply coreStop_kept
    | with_reducible apply Kept.trans ?_ (coreStop_kept ..)
    | with_reducible apply coreUnload_kept
    | with_reducible apply Kept.trans ?_ (coreUnload_kept ..)
    | with_reducible apply furResult_kept
    | with_reducible apply Kept.trans ?_ (furResult_kept ..)
    | split

theorem regWatch_kept (w : RegW) (o : Nat) (s : State) : Kept s (regWatch w o s) := by
  unfold regWatch
  try dsimp only
  repeat' first
    | with_reducible apply Kept.ite
    | with_reducible apply Kept.refl
    | with_reducible assumption
    | with_reducible apply regAck_kept
    | with_reducible apply Kept.trans ?_ (regAck_kept ..)
    | with_reducible apply settle_kept
    | with_reducible apply Kept.trans ?_ (settle_kept ..)
    | with_reducible apply watchRegister_kept
    | with_reducible apply Kept.trans ?_ (watchRegister_kept ..)
    | with_reducible apply onSync_kept

/-- What a register's write does, when it has one, keeps what every operation keeps. -/
def WriteKept (x : Option (State → State)) : Prop := ∀ f, x = some f → ∀ s, Kept s (f s)

theorem writeKept_none : WriteKept none := fun _ h => nomatch h
theorem writeKept_some {f : State → State} (h : ∀ s, Kept s (f s)) : WriteKept (some f) := fun _ e => Option.some.inj e ▸ h
theorem writeKept_ite {c : Prop} [Decidable c] {a b : Option (State → State)} (h : WriteKept a) (k : WriteKept b) :
    WriteKept (if c then a else b) := by split <;> assumption

theorem writeKept_snd_ite {c : Prop} [Decidable c] {a b : Bool × Option (State → State)} (h : WriteKept a.2)
    (k : WriteKept b.2) : WriteKept (if c then a else b).2 := by split <;> assumption

theorem regBoot_writeKept (w : RegW) (o : Nat) : WriteKept (regBoot w o) := by
  unfold regBoot
  repeat' first
    | with_reducible apply writeKept_none
    | with_reducible apply writeKept_ite
    | with_reducible refine writeKept_some fun s => ?_
    | with_reducible apply regKeeps_kept
    | with_reducible apply Kept.ite
    | with_reducible apply Kept.refl
    | with_reducible apply Kept.trans ?_ (regAck_kept ..)
    | with_reducible apply Kept.trans ?_ (settle_kept ..)
    | with_reducible apply regCmd_kept (hf := fun _ _ => ?_)
    | with_reducible apply regDo_kept (hf := fun _ _ => ?_)
    | with_reducible apply regPlain_kept (hf := fun _ _ => ?_)
    | with_reducible apply regMirror_kept
    | with_reducible apply bootCode_kept
    | (with_reducible apply onBoot_kept) <;> rfl
    | with_reducible apply resetReg_kept (hf := fun _ => ?_)
    | with_reducible apply resetCommand_kept
    | split

theorem regPwr_writeKept (w : RegW) (o : Nat) : WriteKept (regPwr w o) := by
  unfold regPwr
  repeat' first
    | with_reducible apply writeKept_none
    | with_reducible apply writeKept_ite
    | with_reducible refine writeKept_some fun s => ?_
    | with_reducible apply regKeeps_kept
    | with_reducible apply Kept.ite
    | with_reducible apply Kept.refl
    | with_reducible apply Kept.trans ?_ (regAck_kept ..)
    | with_reducible apply Kept.trans ?_ (settle_kept ..)
    | with_reducible apply regCmd_kept (hf := fun _ _ => ?_)
    | with_reducible apply regDo_kept (hf := fun _ _ => ?_)
    | with_reducible apply regPlain_kept (hf := fun _ _ => ?_)
    | with_reducible apply regMirror_kept
    | with_reducible apply bootCode_kept
    | split

theorem regPort_writeKept (w : RegW) (e o : Nat) : WriteKept (regPort w e o) := by
  unfold regPort
  repeat' first
    | with_reducible apply writeKept_none
    | with_reducible apply writeKept_ite
    | with_reducible refine writeKept_some fun s => ?_
    | with_reducible apply eyeKeeps_kept
    | with_reducible apply regKeeps_kept
    | with_reducible apply Kept.ite
    | with_reducible apply Kept.refl
    | with_reducible apply Kept.trans ?_ (regAck_kept ..)
    | with_reducible apply Kept.trans ?_ (settle_kept ..)
    | with_reducible apply regCmd_kept (hf := fun _ _ => ?_)
    | with_reducible apply regDo_kept (hf := fun _ _ => ?_)
    | with_reducible apply regPlain_kept (hf := fun _ _ => ?_)
    | with_reducible apply regMirror_kept
    | with_reducible apply bootCode_kept
    | with_reducible apply slipCircuits_kept
    | with_reducible apply portByReg_kept
    | with_reducible apply eyeBegins_kept
    | split

theorem regSwc_writeKept (w : RegW) (o : Nat) : WriteKept (regSwc w o) := by
  unfold regSwc
  repeat' first
    | with_reducible apply writeKept_none
    | with_reducible apply writeKept_ite
    | with_reducible refine writeKept_some fun s => ?_
    | with_reducible apply regKeeps_kept
    | with_reducible apply Kept.ite
    | with_reducible apply Kept.refl
    | with_reducible apply Kept.trans ?_ (regAck_kept ..)
    | with_reducible apply Kept.trans ?_ (settle_kept ..)
    | with_reducible apply regCmd_kept (hf := fun _ _ => ?_)
    | with_reducible apply regDo_kept (hf := fun _ _ => ?_)
    | with_reducible apply regPlain_kept (hf := fun _ _ => ?_)
    | with_reducible apply regMirror_kept
    | with_reducible apply bootCode_kept
    | split

theorem regXlt_writeKept (w : RegW) (o : Nat) : WriteKept (regXlt w o) := by
  unfold regXlt
  repeat' first
    | with_reducible apply writeKept_none
    | with_reducible apply writeKept_ite
    | with_reducible refine writeKept_some fun s => ?_
    | with_reducible apply regKeeps_kept
    | with_reducible apply Kept.ite
    | with_reducible apply Kept.refl
    | with_reducible apply Kept.trans ?_ (regAck_kept ..)
    | with_reducible apply Kept.trans ?_ (settle_kept ..)
    | with_reducible apply regCmd_kept (hf := fun _ _ => ?_)
    | with_reducible apply regDo_kept (hf := fun _ _ => ?_)
    | with_reducible apply regPlain_kept (hf := fun _ _ => ?_)
    | with_reducible apply regMirror_kept
    | with_reducible apply bootCode_kept
    | with_reducible apply onXlt_kept
    | with_reducible apply ctxCode_kept
    | with_reducible apply publishGen_kept
    | with_reducible apply shoot_kept
    | with_reducible apply consumeFaults_kept
    | with_reducible apply resolveFault_kept
    | split

theorem regPool_writeKept (w : RegW) (o : Nat) : WriteKept (regPool w o) := by
  unfold regPool
  repeat' first
    | with_reducible apply writeKept_none
    | with_reducible apply writeKept_ite
    | with_reducible refine writeKept_some fun s => ?_
    | with_reducible apply regKeeps_kept
    | with_reducible apply Kept.ite
    | with_reducible apply Kept.refl
    | with_reducible apply Kept.trans ?_ (regAck_kept ..)
    | with_reducible apply Kept.trans ?_ (settle_kept ..)
    | with_reducible apply regCmd_kept (hf := fun _ _ => ?_)
    | with_reducible apply regDo_kept (hf := fun _ _ => ?_)
    | with_reducible apply regPlain_kept (hf := fun _ _ => ?_)
    | with_reducible apply regMirror_kept
    | with_reducible apply bootCode_kept
    | with_reducible apply onPool_kept
    | with_reducible apply extentCode_kept
    | with_reducible apply versionRegister_kept
    | with_reducible apply migrate_kept
    | with_reducible apply consumeNoms_kept
    | split

theorem regFur_writeKept (w : RegW) (c o : Nat) : WriteKept (regFur w c o) := by
  unfold regFur
  repeat' first
    | with_reducible apply writeKept_none
    | with_reducible apply writeKept_ite
    | with_reducible refine writeKept_some fun s => ?_
    | with_reducible apply regKeeps_kept
    | with_reducible apply Kept.ite
    | with_reducible apply Kept.refl
    | with_reducible apply Kept.trans ?_ (regAck_kept ..)
    | with_reducible apply Kept.trans ?_ (settle_kept ..)
    | with_reducible apply regCmd_kept (hf := fun _ _ => ?_)
    | with_reducible apply regDo_kept (hf := fun _ _ => ?_)
    | with_reducible apply regPlain_kept (hf := fun _ _ => ?_)
    | with_reducible apply regMirror_kept
    | with_reducible apply bootCode_kept
    | with_reducible apply onCore_kept
    | with_reducible apply furCode_kept
    | split

theorem regColl_writeKept (w : RegW) (o : Nat) : WriteKept (regColl w o) := by
  unfold regColl
  repeat' first
    | with_reducible apply writeKept_none
    | with_reducible apply writeKept_ite
    | with_reducible refine writeKept_some fun s => ?_
    | with_reducible apply regKeeps_kept
    | with_reducible apply Kept.ite
    | with_reducible apply Kept.refl
    | with_reducible apply Kept.trans ?_ (regAck_kept ..)
    | with_reducible apply Kept.trans ?_ (settle_kept ..)
    | with_reducible apply regCmd_kept (hf := fun _ _ => ?_)
    | with_reducible apply regDo_kept (hf := fun _ _ => ?_)
    | with_reducible apply regPlain_kept (hf := fun _ _ => ?_)
    | with_reducible apply regMirror_kept
    | with_reducible apply bootCode_kept
    | with_reducible apply abortReg_kept
    | split

theorem regSync_writeKept (w : RegW) (o : Nat) : WriteKept (regSync w o) := by
  unfold regSync
  repeat' first
    | with_reducible apply writeKept_none
    | with_reducible apply writeKept_ite
    | with_reducible refine writeKept_some fun s => ?_
    | with_reducible apply regKeeps_kept
    | with_reducible apply Kept.ite
    | with_reducible apply Kept.refl
    | with_reducible apply Kept.trans ?_ (regAck_kept ..)
    | with_reducible apply Kept.trans ?_ (settle_kept ..)
    | with_reducible apply regCmd_kept (hf := fun _ _ => ?_)
    | with_reducible apply regDo_kept (hf := fun _ _ => ?_)
    | with_reducible apply regPlain_kept (hf := fun _ _ => ?_)
    | with_reducible apply regMirror_kept
    | with_reducible apply bootCode_kept
    | with_reducible apply onSync_kept
    | with_reducible apply regWatch_kept
    | split

theorem regChk_writeKept (w : RegW) (o : Nat) : WriteKept (regChk w o) := by
  unfold regChk
  repeat' first
    | with_reducible apply writeKept_none
    | with_reducible apply writeKept_ite
    | with_reducible refine writeKept_some fun s => ?_
    | with_reducible apply regKeeps_kept
    | with_reducible apply Kept.ite
    | with_reducible apply Kept.refl
    | with_reducible apply Kept.trans ?_ (regAck_kept ..)
    | with_reducible apply Kept.trans ?_ (settle_kept ..)
    | with_reducible apply regCmd_kept (hf := fun _ _ => ?_)
    | with_reducible apply regDo_kept (hf := fun _ _ => ?_)
    | with_reducible apply regPlain_kept (hf := fun _ _ => ?_)
    | with_reducible apply regMirror_kept
    | with_reducible apply bootCode_kept
    | with_reducible apply onChk_kept
    | with_reducible apply tilthLoad_kept
    | with_reducible apply tilthRunAll_kept
    | with_reducible apply tilthResult_kept
    | split

theorem regKey_writeKept (w : RegW) (o : Nat) : WriteKept (regKey w o) := by
  unfold regKey
  repeat' first
    | with_reducible apply writeKept_none
    | with_reducible apply writeKept_ite
    | with_reducible refine writeKept_some fun s => ?_
    | with_reducible apply regKeeps_kept
    | with_reducible apply Kept.ite
    | with_reducible apply Kept.refl
    | with_reducible apply Kept.trans ?_ (regAck_kept ..)
    | with_reducible apply Kept.trans ?_ (settle_kept ..)
    | with_reducible apply regCmd_kept (hf := fun _ _ => ?_)
    | with_reducible apply regDo_kept (hf := fun _ _ => ?_)
    | with_reducible apply regPlain_kept (hf := fun _ _ => ?_)
    | with_reducible apply regMirror_kept
    | with_reducible apply bootCode_kept
    | with_reducible apply plotByReg_kept
    | with_reducible apply onKey_kept
    | with_reducible apply attestByReg_kept
    | with_reducible apply debugByReg_kept
    | split

theorem regDict_writeKept (w : RegW) (o : Nat) : WriteKept (regDict w o) := by
  unfold regDict
  repeat' first
    | with_reducible apply writeKept_none
    | with_reducible apply writeKept_ite
    | with_reducible refine writeKept_some fun s => ?_
    | with_reducible apply regKeeps_kept
    | with_reducible apply Kept.ite
    | with_reducible apply Kept.refl
    | with_reducible apply Kept.trans ?_ (regAck_kept ..)
    | with_reducible apply Kept.trans ?_ (settle_kept ..)
    | with_reducible apply regCmd_kept (hf := fun _ _ => ?_)
    | with_reducible apply regDo_kept (hf := fun _ _ => ?_)
    | with_reducible apply regPlain_kept (hf := fun _ _ => ?_)
    | with_reducible apply regMirror_kept
    | with_reducible apply bootCode_kept
    | with_reducible apply onDict_kept
    | with_reducible apply mbCommand_kept
    | split

theorem regDbq_writeKept (w : RegW) (o : Nat) : WriteKept (regDbq w o) := by
  unfold regDbq
  repeat' first
    | with_reducible apply writeKept_none
    | with_reducible apply writeKept_ite
    | with_reducible refine writeKept_some fun s => ?_
    | with_reducible apply regKeeps_kept
    | with_reducible apply Kept.ite
    | with_reducible apply Kept.refl
    | with_reducible apply Kept.trans ?_ (regAck_kept ..)
    | with_reducible apply Kept.trans ?_ (settle_kept ..)
    | with_reducible apply regCmd_kept (hf := fun _ _ => ?_)
    | with_reducible apply regDo_kept (hf := fun _ _ => ?_)
    | with_reducible apply regPlain_kept (hf := fun _ _ => ?_)
    | with_reducible apply regMirror_kept
    | with_reducible apply bootCode_kept
    | with_reducible apply bellBase_kept
    | with_reducible apply consumeBells_kept
    | with_reducible apply heartbeat_kept
    | split

theorem regBlock_writeKept (w : RegW) (s : State) : WriteKept (regBlock w s).2 := by
  unfold regBlock
  dsimp only
  repeat' first
    | with_reducible exact regBoot_writeKept ..
    | with_reducible exact regPwr_writeKept ..
    | with_reducible exact regPort_writeKept ..
    | with_reducible exact regSwc_writeKept ..
    | with_reducible exact regXlt_writeKept ..
    | with_reducible exact regPool_writeKept ..
    | with_reducible exact regFur_writeKept ..
    | with_reducible exact regColl_writeKept ..
    | with_reducible exact regSync_writeKept ..
    | with_reducible exact regChk_writeKept ..
    | with_reducible exact regKey_writeKept ..
    | with_reducible exact regDict_writeKept ..
    | with_reducible exact regDbq_writeKept ..
    | with_reducible exact writeKept_none
    | with_reducible refine writeKept_snd_ite ?_ ?_

theorem regWriteAt_kept (w : RegW) (s : State) : Kept s (regWriteAt w s) := by
  unfold regWriteAt
  refine viaReg_kept _ _ fun s => Kept.ite (regAck_kept ..) ?_
  have k := regBlock_writeKept w s
  extract_lets q
  apply Kept.ite (regAck_kept ..)
  split
  · exact (bump_kept ..).trans (regAck_kept ..)
  · rename_i f h
    exact k f h s

end Sys2Proof.Machine
end

