-- ==== Sys2Proof/Laws/KeptRegReads.lean ====
section
/-! SUPPORT. What each operation of Machine/RegReads.lean keeps. -/

namespace Sys2Proof.Machine

theorem regReadAt_kept (off : Nat) (size : Nat) (s : State) : Kept s (regReadAt off size s) := by
  unfold regReadAt
  try dsimp only
  repeat' first
    | with_reducible apply Kept.ite
    | with_reducible apply Kept.refl
    | with_reducible assumption
    | with_reducible apply Kept.trans ?_ (viaReg_kept (hf := fun _ => ?_) ..)
    | with_reducible apply bump_kept
    | with_reducible apply Kept.trans ?_ (bump_kept ..)
    | with_reducible apply emit_kept
    | with_reducible apply Kept.trans ?_ (emit_kept ..)
    | with_reducible apply drawn_kept
    | with_reducible apply Kept.trans ?_ (drawn_kept ..)
    | split

end Sys2Proof.Machine
end

