-- ==== Sys2Proof/Laws/KeptTick.lean ====
section
/-! SUPPORT. What each operation of Machine/Tick.lean keeps. -/

namespace Sys2Proof.Machine

theorem stallCounts_kept (s : State) : Kept s (stallCounts s) := by
  unfold stallCounts
  try dsimp only
  repeat' first
    | with_reducible apply Kept.ite
    | with_reducible apply Kept.refl
    | with_reducible assumption
    | with_reducible apply bump_kept
    | with_reducible apply Kept.trans ?_ (bump_kept ..)
    | with_reducible apply onXlt_kept
    | with_reducible apply Kept.trans ?_ (onXlt_kept ..)
    | with_reducible apply Kept.trans ?_ (Kept.forAll (fun _ _ => ?_) _)

theorem blockCycles_kept (s : State) : Kept s (blockCycles s) := by
  unfold blockCycles
  try dsimp only
  repeat' first
    | with_reducible apply Kept.ite
    | with_reducible apply Kept.refl
    | with_reducible assumption
    | with_reducible apply blockCycle_kept
    | with_reducible apply Kept.trans ?_ (blockCycle_kept ..)
    | with_reducible apply Kept.trans ?_ (Kept.forAll (fun _ _ => ?_) _)

theorem portTurns_kept (s : State) : Kept s (portTurns s) := by
  unfold portTurns
  try dsimp only
  repeat' first
    | with_reducible apply Kept.ite
    | with_reducible apply Kept.refl
    | with_reducible assumption
    | with_reducible apply searchTurn_kept
    | with_reducible apply Kept.trans ?_ (searchTurn_kept ..)
    | with_reducible apply farDarkFails_kept
    | with_reducible apply Kept.trans ?_ (farDarkFails_kept ..)
    | with_reducible apply creditTurn_kept
    | with_reducible apply Kept.trans ?_ (creditTurn_kept ..)
    | with_reducible apply settleLost_kept
    | with_reducible apply Kept.trans ?_ (settleLost_kept ..)
    | with_reducible apply Kept.trans ?_ (Kept.forAll (fun _ _ => ?_) _)

theorem hubCmdTry_kept (c : HubCmd) (s : State) : Kept s (hubCmdTry c s).2 := by
  cases c
  · exact tilthTry_kept ..
  · exact attestTry_kept ..
  · exact reportTry_kept ..
  · exact debugTry_kept ..

theorem hubTurns_kept (s : State) : Kept s (hubTurns s) := by
  unfold hubTurns
  try dsimp only
  repeat' first
    | with_reducible apply Kept.ite
    | with_reducible apply Kept.refl
    | with_reducible assumption
    | with_reducible apply hubCmdTry_kept
    | with_reducible apply Kept.trans ?_ (hubCmdTry_kept ..)
    | with_reducible apply onPool_kept
    | with_reducible apply Kept.trans ?_ (onPool_kept ..)
    | with_reducible apply Kept.trans ?_ (Kept.forAll (fun _ _ => ?_) _)

theorem periodEnds_kept (before : Nat) (s : State) : Kept s (periodEnds before s) := by
  unfold periodEnds
  try dsimp only
  repeat' first
    | with_reducible apply Kept.ite
    | with_reducible apply Kept.refl
    | with_reducible assumption
    | with_reducible apply queueFullEvent_kept

theorem tick_kept (s : State) : Kept s (tick s) := by
  unfold tick
  refine Kept.ite ?_ (Kept.refl s)
  have k : Kept s { blockCycles (stallCounts s) with time := s.time.cycle } :=
    ((stallCounts_kept s).trans (blockCycles_kept _)).trans (onTime_kept (fun _ => s.time.cycle) _)
  exact ((k.trans (periodEnds_kept ..)).trans (hubTurns_kept ..)).trans (portTurns_kept ..)

end Sys2Proof.Machine
end

