-- ==== Sys2Proof/Laws/Requests.lean ====
section
/-! SUPPORT. Where a request that passes the hub's checks arrives. -/

namespace Sys2Proof

open Machine

/-- What says whether the way of a request into its node is free is the same in two states. -/
structure SameWay (u v : State) : Prop where
  flows : v.sw.flows = u.sw.flows
  entry : v.sw.entry = u.sw.entry
  pool : v.pool = u.pool
  dict : v.dict = u.dict

theorem gateCount_sameWay (src dst : Nat) (u : State) : SameWay u (gateCount src dst u) := by
  unfold gateCount
  repeat' split
  all_goals exact ⟨rfl, rfl, rfl, rfl⟩

theorem gateTaken_sameWay (r : Req) (u : State) : SameWay u (gateTaken r u) := by
  unfold gateTaken
  split
  · exact gateCount_sameWay ..
  · exact ⟨rfl, rfl, rfl, rfl⟩

theorem freeCells_sameWay (r : Req) (u : State) : SameWay u (freeCells r u) := by
  unfold freeCells
  split <;> exact ⟨rfl, rfl, rfl, rfl⟩

theorem SameWay.entryAt {u v : State} (h : SameWay u v) (t : Nat) : v.entryAt t = u.entryAt t := by
  simp only [State.entryAt, h.entry]

theorem SameWay.entryRoom {u v : State} (h : SameWay u v) (t : Nat) (r : Req) : entryRoom v t r = entryRoom u t r := by
  have hq : ∀ n, serviceQuota v n = serviceQuota u n := fun n => by simp only [serviceQuota, cfg, h.dict]
  have he : ∀ n, entryUsed v t n = entryUsed u t n := fun n => by simp only [entryUsed, h.entryAt]
  simp only [Machine.entryRoom, he, hq, h.entryAt]

theorem SameWay.nodeTakes {u v : State} (h : SameWay u v) (r : Req) : nodeTakes v r = nodeTakes u r := by
  simp only [Machine.nodeTakes, h.pool]

/-- A request that passes every check of the hub is served by its node. -/
theorem serve_passes (r0 r : Req) (s u : State) (lep : Nat) (hr : r = normalise s r0) (hu : u = countCells r s)
    (h : Passes u r lep) : serve r0 s = serveHere lep r (atNode u r) := by
  subst hr hu
  obtain ⟨ht, hb, hg, hm, hs, hw⟩ := h
  simp only [serve, route, ht, hb, hg, if_neg hm, if_neg hs, Bool.and_false, Bool.or_false, dispatch, Bool.false_eq_true, if_false]
  have g := gateTaken_sameWay (normalise s r0) (countCells (normalise s r0) s)
  have f := freeCells_sameWay (normalise s r0) (gateTaken (normalise s r0) (countCells (normalise s r0) s))
  revert hw
  unfold wayFree atNode entryTile
  cases hv : (normalise s r0).via with
  | port p =>
    intro hw
    simp only [Bool.and_eq_true, List.isEmpty_iff] at hw
    obtain ⟨⟨⟨h1, h2⟩, h3⟩, h4⟩ := hw
    simp only [g.flows, g.entryRoom, h1, h2, Bool.and_self, if_true, enterNode, f.nodeTakes, g.nodeTakes, h3, f.entryAt, g.entryAt, h4,
      List.any_nil, Bool.not_false]
  | _ => intro _; simp only [freeCells, hv]

end Sys2Proof
end

