-- ==== Sys2Proof/WellFormed.lean ====
section
/-! DEFINITION. Which commands the hub can be sent: each operand within the width the manual gives the field it fills. The
meanings do not depend on this check; it says what a sender may put into the queue. -/

namespace Sys2Proof

/-- Ports 0-127 (R325). -/
def portOk (p : Nat) : Bool := p < 128
/-- What a frame comes in on. -/
def lightOk (l : Light) : Bool := portOk l.port && l.kind < 16 && l.counter < 2 ^ 64
/-- A sequenced frame as it comes in. -/
def frameOk (f : FrameIn) : Bool := lightOk f.light && f.seq < 4096
/-- Cores 0-63 (R199). -/
def coreOk (c : Nat) : Bool := c < 64
/-- Threads 0-15 of cores 0-63 (R199). -/
def threadOk (c t : Nat) : Bool := c < 64 && t < 16
/-- Optical engines 0-15 and their circuits 0-33 (R325). -/
def laneOk (e j : Nat) : Bool := e < 16 && j < 34
/-- Extent numbers are 16 bits (R119). -/
def extOk (x : Nat) : Bool := x < 0x10000
/-- Contexts are 16 bits (R90). -/
def ctxOk (c : Nat) : Bool := c < 0x10000
/-- Groups 0-4,095 (R224). -/
def groupOk (g : Nat) : Bool := g < 4096
/-- Plots 0-15, four bits (R28). -/
def plotOk (n : Nat) : Bool := n < 16
/-- Flow coordinates: ingress tile 0-143, egress port 0-127 or 128, class 0-3 (R62, R71). -/
def flowOk (i e c : Nat) : Bool := i < 144 && e < 129 && c < 4
/-- Core clusters 0-7 (R200). -/
def clusterOk (k : Nat) : Bool := k < 8
/-- CXL ports 0-3 (R360). -/
def cxlOk (q : Nat) : Bool := q < 4
/-- A line number: a 48-bit physical address divided by 128 (R117). -/
def lineOk (l : Nat) : Bool := l < 2 ^ 41

/-- A port, or a thread of a core, where a request enters (R29). -/
def Ingress.ok : Ingress → Bool
  | .port p => portOk p
  | .core c t => threadOk c t
  | .host => true
  | .mgmt => true
  | .unit => true

/-- The header fields within their widths (Table 2-3). -/
def Header.ok (h : Header) : Bool :=
  h.plot < 16 && h.sow < 4 && h.sowix < 16 && h.len < 4096 && h.tag < 0x10000 && h.ctx < 0x10000 &&
  h.dst < 0x10000 && h.src < 0x10000 && h.opb < 0x10000 && h.opc < 2 ^ 32

/-- A request: its ingress, its header and its payload of LEN bytes at most (R28, R31). -/
def reqOk (via : Ingress) (h : Header) (data : List Byte) : Bool := via.ok && h.ok && decide (data.length < 4096)

/-- The reply fields within their widths (Table 2-9). -/
def Reply.ok (r : Reply) : Bool :=
  r.op < 256 && r.plot < 16 && r.status < 256 && r.len < 4096 && r.tag < 0x10000 && r.ctx < 0x10000 &&
  r.dst < 0x10000 && r.src < 0x10000 && r.detail < 2 ^ 32

/-- The ADP header fields within their widths, and a body of at most 1,356 bytes (R369). -/
def AdpMsg.ok (m : AdpMsg) : Bool :=
  m.version < 256 && m.session < 2 ^ 32 && m.seq < 2 ^ 64 && m.index < 0x10000 && m.sub < 256 && m.off < 2 ^ 32 &&
  decide (m.body.length ≤ 1356)

/-- The fields of an ASSIGN or ADOPT within their widths (Table 5-6). -/
def assignOk (ext plot owner gAll gList role : Nat) : Bool :=
  extOk ext && plotOk plot && owner < 0x10000 && gAll < 4 && gList < 1024 && role < 4

/-- Well-formed commands. -/
def Instr.wf : Instr → Bool
  | .read v h d | .write v h d | .writeMasked v h d | .atomSwap v h d | .atomCas v h d | .atomAdd v h d
  | .atomMin v h d | .atomMax v h d | .atomAnd v h d | .atomOr v h d | .atomXor v h d | .sigAdd v h d | .sigMax v h d
  | .msgSend v h d | .collNotice v h d | .redAdd v h d | .redMin v h d | .redMax v h d | .redColl v h d => reqOk v h d
  | .sowing v op h d => reqOk v h d && op < 256 && h.sow != 0
  | .rdData p r | .atomData p r | .ack p r => portOk p && r.ok
  | .forwardTimeout p src tag => portOk p && src < 0x10000 && tag < 0x10000
  | .sigGateRelease src dst => src < 0x10000 && dst < 0x10000
  | .frameForward i e c | .spillReadback i e c _ => flowOk i e c
  | .spillEntry i c => flowOk i 0 c
  | .gleanerAudit _ => true
  | .egressFrameTransmit p => portOk p
  | .ctxCreate c _ | .ctxDestroy c | .ctxSlotFreed c => ctxOk c
  | .genPublish _ => true
  | .walkComplete c x page => c < 65 && ctxOk x && page < 2 ^ 32
  | .faultRecordWrite e | .faultResolveRetry e | .faultExpired e => e < 4096
  | .faultResolveFail e st => e < 4096 && st < 256
  | .faultDeferredRecord | .faultDoorbellRepeat | .epochAdvance | .shootComplete => true
  | .fqConsume v => v < 4096
  | .shootCmd n => n < 2 ^ 32
  | .extentAssign _ x p o ga gl r _ | .extentAdopt _ x p o ga gl r _ | .extentAdoptForce _ x p o ga gl r _ =>
      assignOk x p o ga gl r
  | .extentRevoke _ x | .extentRelease _ x | .drainTimeout x | .drainComplete x | .scrubDone x => extOk x
  | .extentRegrant _ x ga gl => extOk x && ga < 4 && gl < 1024
  | .tierTimeout q | .cxlPortLost q | .cxlRetrain q _ => cxlOk q
  | .versionOpen _ x v | .versionClose _ x v | .versionPublish _ x v | .versionRetire _ x v => extOk x && v < 2 ^ 48
  | .publishComplete x => extOk x
  | .copyOnWriteDone x p | .migrateCmd x p | .migrateHome x p => extOk x && p < 4096
  | .decayPeriodEnd | .migrateDone | .filterWalkDone => true
  | .nomConsume v => v < 1024
  | .patrolRead ls => ls.all fun l => lineOk l.1
  | .frameRetireDone f | .reencryptFrameDone f => f < 2 ^ 32
  | .rdShared l | .rdOwn l | .cleanEvict l | .snoopTimeout l => lineOk l
  | .wrBack l d => lineOk l && d.length == 128
  | .snoopResponse l d => lineOk l && (d.getD (List.replicate 128 0)).length == 128
  | .orphanAdopt x l => extOk x && lineOk l
  | .orphanWrite x l d => extOk x && lineOk l && d.length == 128
  | .nop c t | .halt c t | .jump c t | .loop c t | .brst c t | .brx c t | .xop c t | .ldx c t | .fence c t | .wait c t
  | .signal c t | .clrst c t | .report c t | .stream c t | .recv c t | .atom c t | .sigmaxDesc c t | .inval c t
  | .wback c t | .copy c t | .gather c t | .scatter c t | .sow c t | .send c t | .fill c t | .ewise c t | .scale c t
  | .dequant c t | .cast c t | .bcheck c t | .rcheck c t | .lcheck c t | .digest c t => threadOk c t
  | .dot c t _ | .reduce c t _ | .quant c t _ | .smaxp c t _ | .topk c t _ | .accadd c t _ | .decodeDesc c t _ =>
      threadOk c t
  | .remoteLineArrival c t g st _ => threadOk c t && g < 0x10000 && st < 256
  | .coreLoad c | .loadComplete c | .coreUnload c | .coreResetDone c => coreOk c
  | .coreStart c m x => coreOk c && m < 0x10000 && ctxOk x
  | .coreStop c m => coreOk c && m < 0x10000
  | .probeReset m => m < 0x200
  | .groupDefine _ | .groupUndefine _ => true
  | .groupAbort g sq => groupOk (g.getD 0) && sq < 2 ^ 32
  | .collDescriptorPost g k sl d => groupOk g && k < 2048 && sl < 256 && d.length == 128
  | .allReduce g | .reduceScatter g | .allGather g | .broadcast g | .collReduce g | .allToAll g | .barrier g => groupOk g
  | .chunkReady g _ _ | .chunkWritten g _ => groupOk g
  | .collectiveSignal g sq m => groupOk g && sq < 2 ^ 32 && m < 2048
  | .xchSignature h p | .xchPartial h p | .xchResult h p | .xchData h p | .xchNotice h p | .xchAbort h p
  | .xchDone h p => h < 256 && decide (p.length ≤ 4096)
  | .settleTimeExpiry g sq => groupOk g && sq < 2 ^ 32
  | .deadlineCheck | .watchFiring | .firingRetry | .firingRetryTimeout => true
  | .watchArm _ c | .watchDisarm _ c => c.length == 32
  | .unitReplay p _ _ _ => p < 256
  | .arraySweep _ => true
  | .blockFillComplete _ ⟨d, _⟩ | .blockRereadComplete _ d => d.length == 4096
  | .checkRepeatDone c d _ | .judgementDone c d _ => threadOk c d.thread
  | .tilthLoad | .tilthRun | .tilthSchedule | .digestNow => true
  | .tilthImage d => decide (d.length ≤ 2 ^ 23)
  | .tilthTestDone g _ _ => g < 192
  | .digestInterval r => r < 256
  | .digestPassDone d => d.region < 256
  | .plotCreate _ n | .plotActivate _ n | .plotRotate _ n | .plotRetireold _ n _ | .plotFence _ n | .plotLift _ n
  | .plotRemove _ n | .plotRemoveDrained n | .rotationComplete n => plotOk n
  | .tier3PairReset | .pairRecordSlotWritten _ | .attestReportSigned _ => true
  | .keyxFrame f _ pub _ _ => frameOk f && pub.length == 56
  | .linkRekey p => portOk p
  | .attestRequest n => plotOk (n.getD 0)
  | .tenantSessionExpiry _ => true
  | .debugToken _ c o => ctxOk c && o < 2 ^ 48
  | .portEnable _ p | .portDisable _ p | .portDormant _ p | .portWake _ p | .portHold _ p | .portRelease _ p => portOk p
  | .lightDetected p | .trainingTimeout p | .identResend p | .planWaitTimeout p | .dormantSettle p
  | .dormantTimeout p | .wakeSequenceDone p | .linkFrameTimer p | .ackStallTimeout p | .retrainComplete p
  | .retrainTimeout p => portOk p
  | .laneConverged e ⟨j, _⟩ => laneOk e j
  | .laneFailure e j _ | .spareJoined e j | .laneRelock e j => laneOk e j
  | .laneAlock e j w => laneOk e j && (match w with
      | .locked l c => l < 8 && c < 256
      | .lost => true)
  | .portSlipCmd e m => e < 16 && m < 2 ^ 34
  | .identFrame f b => frameOk f && b.length == 64
  | .dormantFrame f => frameOk f
  | .gyciaFrame l sq n _ _ _ => lightOk l && sq < 4096 && plotOk n
  | .linkFrame l a _ m s g r x =>
      lightOk l && a < 4096 && m < 2 ^ 32 && s < 2 ^ 32 && g < 2 ^ 32 && r < 2 ^ 32 && x < 256
  | .portLost p _ => portOk p
  | .eyeScanPoint e m _ _ _ _ => e < 16 && m < 2 ^ 34
  | .eyePointDone e _ => e < 16
  | .eyeScanPeriod _ => true
  | .optHealthPoll e ls fs => e < 16 && decide (ls.length ≤ 32) && decide (fs.length ≤ 2)
  | .laserInputLoss e f _ => e < 16 && f < 2
  | .regWrite o n _ => o < 2 ^ 26 && n < 16
  | .laniaDma _ c _ n _ => ctxOk c && decide (n ≤ 4096)
  | .laniaLaneFail l => l < 16
  | .laniaLinkLost | .laniaLinkTrained | .doorbellWrite | .heartbeatTimeout => true
  | .dbqConsume v => v < 1024
  | .dbqHeartbeat _ => true
  | .deviceCapacityEvent x _ | .capacityRemoved x => extOk x
  | .adpRead m | .adpWrite m | .adpReadBlock m | .adpWriteBlock m | .adpHeartbeat m | .sessionOpen m
  | .sessionClose _ m => m.ok
  | .eventAck n q _ => n < 2 ^ 32 && q < 2 ^ 64
  | .eventResend n | .sessionHeartbeatTimer n | .adpSessionTimeout n => n < 2 ^ 32
  | .blockTransferTimeout n => n.getD 0 < 2 ^ 32
  | .sessionOpenPartsExpiry n q => n.length == 32 && q < 2 ^ 64
  | .presessionHeartbeat | .plcaFallback | .plcaBeacon | .mbRead => true
  | .neighbourDiscovery t _ => t.length == 16
  | .mbWrite n => n < 8192
  | .mbReadBlock n o | .mbWriteBlock _ n o => n < 8192 && o < 2 ^ 32
  | .powerGoodRise | .powerGoodFall | .resetNAssert | .resetNRelease | .pllLock | .pllLockTimeout | .pllLockLost
  | .islandReady _ | .bootLoad | .bootMeasure | .bootClock | .bootServe | .bootRestart | .bootCommandComplete => true
  | .bootPower l => decide (l.length ≤ 4)
  | .powerStageTimeout d => d < 36
  | .bootTrain ps ts => (ps.all fun p => p < 256) && ts.all fun t => t < 8
  | .bootVerify _ => true
  | .resetCore _ c => c < 256
  | .resetCluster _ k => k < 256
  | .clusterResetDone k _ | .clusterPowerOnDone k _ | .clusterPowerOff k => clusterOk k
  | .resetPlot _ n => n < 256
  | .resetDevice _ t | .resetDeviceDrain t => t < 256
  | .hbmRetrainStart t c => t < 8 && c < 32
  | .hbmRetrainStep t _ => t < 8
  | .watchdogExpiry | .mgmtRestartDone | .capAlertAssert | .capAlertRelease | .powerPlanDone | .thermalCapStep => true
  | .powerSample w _ => w.length == 36
  | .tempSample t => t.length == 40
  | .thermalTrip k => k < 40
  | .timeExchange => true
  | .timeRequest n d => n < 0x10000 && d.length == 32
  | .timeReply d => d.length == 32
  | .timeSet _ => true
  | .hbmStackLost t _ => t < 8
  | .trayUnseated | .traySeated | .boardWake => true
  | .railOutOfRange r _ _ => r < 11

end Sys2Proof
end

