-- ==== Sys2Proof/Tests/Slice0.lean ====
section
/-! SUPPORT. Tests: the checks of WellFormed refuse ill-formed commands, worked examples of the spec, and for each statement with
hypotheses a state and operands that meet them. -/

open Sys2Proof Sys2Proof.Machine

namespace Sys2Proof.Tests

/-- Settings of plot 0: HubIdentifier 1 and every core. -/
def wide : FMap Nat := [(0x200101, 1), (0x911001, 2 ^ 64 - 1)]

/-- A hub in SERVICE with every domain powered, HubIdentifier 1, the companion attached, every core and two ways of the channel sets
plot 0's. -/
def hub : State :=
  { State.reset with
    boot := { State.reset.boot with st := .service, powered := 2 ^ 36 - 1 }
    lania := { State.reset.lania with up := true, trained := true, comp := .attached }
    time := { State.reset.time with now := 10000000000 }
    dict := { State.reset.dict with od := wide } }

/-- The hub with extent 0 assigned to plot 0, owned by node 0xC1, and context 0 whose page 0 is frame 0 of it and page 1 the first page
of core 0's scratchpad. -/
def mapped : State :=
  { hub with
    pool := { hub.pool with exts := [(0, { state := .assigned, plot := 0, owner := 0xC1 })] }
    xlt := { hub.xlt with
      ctxs := [(0, { root := 0, fail := false })]
      hubTlb := [{ ctx := 0, page := 0, size := 16, leaf := 0x1D }, { ctx := 0, page := 1, size := 16, leaf := 0x11D }] } }

/-- A header of the host's requests to a node of hub 1, at an offset. -/
def hdr (lep off len : Nat) : Header := { plot := 0, len, dst := 0x100 + lep, opa := BitVec.ofNat 48 off }

/-- A program with one queue of two slots and one descriptor, a HALT. -/
def progA : Prog :=
  { threads := 1, tes := 1, ve := false, me := false, watches := [], dataBytes := 0, tlBytes := 0, entry := 0, codePages := 1,
    streams := [], queues := [{ num := 0, off := 4096, slotBytes := 128, slots := 2 }], tensors := [], descs := [] }

/-- The hub with that program loaded into core 0. -/
def loaded : State := { hub with fur := { cores := [(0, { st := .loaded, prog := some progA })] } }

/-- The hub with port 2 ACTIVE, an end point of plot 0 attached that has every feature. -/
def ported : State :=
  { hub with
    ports := { hub.ports with ports := [(2, { st := .active, enabled := true, peer := List.replicate 64 0xFF, credits := { mem := 32, sig := 8, msg := 16, red := 16 } })] }
    dict := { hub.dict with
      od := [(0x200101, 1), (0x310003, 0), (0x911001, 2 ^ 64 - 1)]
      odBytes := [(0x320003, natLe 1 1 ++ List.replicate 31 0)] } }

/-- The header of a sowing to row 0. -/
def sowHdr : Header := { hdr 0 0 32 with sow := 1, sowix := 0 }

/-- The same with a forward record of a READ of the host to port 2. -/
def awaiting : State :=
  { ported with
    sw := { ported.sw with
      records := [(2, [{ req := { via := .host, op := 1, h := { hdr 2 0 32 with src := 0x1C1, tag := 7 } }, since := 0, gather := none }])] } }

/-- A SIG_ADD of the host to port 2's end point that the gate has held. -/
def heldSig : Req := { via := .host, op := 0x60, h := { hdr 2 64 8 with src := 0x1C1 }, data := natLe 8 5 }

/-- A READ of the host to port 2 as a frame, its flow, and the hub with that flow. -/
def frameA : Frame := { req := { via := .host, op := 1, h := { hdr 2 0 32 with src := 0x1C1, tag := 7 } }, cells := 1, gather := none }
def flowA : Flow := { ingress := 128, egress := 2, cls := 0, queue := [frameA] }
def flowing : State := { ported with sw := { ported.sw with flows := [flowA] } }

/-- A gather record with two outcomes open, the forward record of one of its copies, and a READ of port 2 to node 0xC0 as a frame and
its flow. -/
def gatherA : Gather := { ident := 4, tile := 128, req := { via := .host, op := 0x20, h := { sowHdr with src := 0x1C1, tag := 7 } }, sent := 2, open_ := 2 }
def copyA : FwdRec := { req := { via := .host, op := 0x20, h := { hdr 2 0 32 with src := 0x1C1, tag := 7 } }, since := 0, gather := some 4 }
def frameN : Frame := { req := { via := .port 2, op := 1, h := { hdr 0xC0 0 32 with src := 0x102, tag := 7 } }, cells := 1, gather := none }
def flowN : Flow := { ingress := 2, egress := 0x1C0, cls := 0, queue := [frameN] }

/-- A copy of a SIG_ADD sowing from port 2 to its own end point. -/
def sigCopy : Req := { via := .port 2, op := 0x60, h := { hdr 2 64 8 with src := 0x102, sow := 2, sowix := 2 }, data := natLe 8 5 }

/-- A cell of tile 5 that no list holds. -/
def lostA : LostCell := { net := 0, tile := 5, spill := false, cell := 9, cls := 0, first := none }

/-- A flow of 600 cells at ingress 0, and the hub with it, a spill share and a SERVICE extent. -/
def flowB : Flow := { ingress := 0, egress := 2, cls := 0, queue := List.replicate 6 { frameA with cells := 100 } }
def crowded : State :=
  { ported with
    sw := { ported.sw with flows := [flowB] }
    pool := { ported.pool with exts := (List.range 4).map fun i => (i, { state := .assigned, plot := 0, role := 2 }) } }

/-- A mirror whose one level-4 table at 0 leads to a level-3 leaf, with a prefetch walk of core 0 under way. -/
def walking : State :=
  { mapped with
    mem := [(0, 1), (1, 0x10), (4096, 0x1D)]
    xlt := { mapped.xlt with hubTlb := [], walks := [{ core := 0, ctx := 0, page := 1, epoch := 0 }] }
    dict := { hub.dict with od := [(0x200101, 1), (0x502003, 2 ^ 20), (0x911001, 2 ^ 64 - 1)] } }

/-- An outstanding fault of core 0's thread 0, and the hub with it and the fault queue enabled. -/
def faultA : FaultEntry :=
  { ctx := 0, page := 9, kind := .notMapped, needWr := false, waiters := [{ core := 0, thread := 0, engine := 0 }], epoch := 0, since := 100 }
def faulted : State :=
  { mapped with xlt := { mapped.xlt with fqEnable := true, fqBase := 8, faults := [(0, faultA)] } }

/-- The hub with a request that waits at the pool, accepted in epoch 0. -/
def versionWait : State :=
  { mapped with pool := { mapped.pool with waiting := [{ req := { via := .host, op := 1, h := hdr 0xC0 0 32 }, pa := 0, what := .block 0, since := 0, epoch := 0, latest := 0, copy := none, view := none }] } }

/-- The hub with both tier 3 heads in service and extent 0x4000 held and ASSIGNED to plot 0. -/
def heldTier3 : State :=
  { hub with
    cxl := { hub.cxl with ports := [(2, { st := 1, capacity := 2 ^ 42 }), (3, { st := 1, capacity := 2 ^ 42 })], owned := [0x4000] }
    key := { hub.key with pairState := 1 }
    pool := { hub.pool with exts := [(0x4000, { state := .assigned, held := true, plot := 0, owner := 0xC1 })] } }

/-- Extent 0 versioned at version 1, whose PUBLISH waits to be acknowledged. -/
def versioned : State :=
  { mapped with pool := { mapped.pool with exts := [(0, { state := .assigned, plot := 0, owner := 0xC1, versioned := true, latest := 1
                                                          versions := [{ num := 1, openers := [] }], publishing := [(.reg 0xC1, 1)] })] } }

/-- Extent 0 with a RESERVE extent of tier 2 beside it, a frame of which is the target of migrations. -/
def reserved : State :=
  { mapped with
    pool := { mapped.pool with
      exts := [(0, { state := .assigned, plot := 0, owner := 0xC1 }), (0x1000, { state := .assigned, plot := 0, owner := 0xC0, role := 1 })]
      migTarget := 0x2000000 }
    cxl := { mapped.cxl with ports := [(0, { st := 1, capacity := 2 ^ 40 })] } }

/-- A descriptor of an opcode whose fields are all zero. -/
def dsc (op : Nat) : Desc :=
  { op, te := 0, rnd := 0, sub := 0, dep := 0, opa := 0, opb := 0, opd := 0, opc := 0, imm := 0, cont := false, imm2 := 0, imm3 := 0, imm64 := 0 }
/-- A tensor record of the scratchpad: one row of one FP32 element at an offset. -/
def word1 (off : Nat) : Tensor :=
  { base := off, local_ := true, perThread := false, tfmt := 0x0B, rows := 1, cols := 1, node := 0, stride := 4, step := 0, tscale := 0x3F800000, soff := 0 }
/-- A program of one descriptor, with three words of scratchpad as its tensors and the pool's first word as the fourth, and one watch. -/
def progD (d : Desc) : Prog :=
  { progA with dataBytes := 65536, descs := [d], watches := [5]
               tensors := [word1 0, word1 8, word1 16, { word1 0 with local_ := false, node := 0xC0 }, { word1 26 with tfmt := 0x0A, stride := 2 }, { word1 32 with stride := 32, tfmt := 3, cols := 1 }, { word1 64 with cols := 2, stride := 8 }, { word1 96 with stride := 32, tfmt := 3 }] }
/-- The mapped hub with core 0's thread 0 about to issue a descriptor. -/
def issuing (d : Desc) : State :=
  { mapped with
    spad := Mem.write [] 0 [0, 0, 0x80, 0x3F, 0, 0, 0, 0, 0, 0, 0, 0x40]
    fur := { cores := [(0, { st := .running, prog := some (progD d), threads := [(0, { running := true, halted := false })] })] } }

/-- The same with an earlier descriptor that awaits answers. -/
def busy (d : Desc) : State :=
  { issuing d with
    fur := { cores := [(0, { (issuing d).core 0 with threads := [(0, { running := true, halted := false, seq := 1, incs := [{ seq := 0, idx := 5, xs := [], wait := .replies }] })] })] } }

/-- Such a descriptor as core 0's thread 0 issues it in a state. -/
def jobIn (d : Desc) (s : State) : Job :=
  let j : Job := { c := 0, t := 0, prog := progD d, d, inc := newInc s 0 0 d.op false }
  { j with inc := { j.inc with range := flushKeys (started s j) j } }

/-- The same with the engine upset. -/
def upsetIn (d : Desc) (s : State) : Job := { jobIn d s with inc := newInc s 0 0 d.op true }

/-- The same with an earlier load whose line is at the pool. -/
def busyLoad (d : Desc) : State :=
  { issuing d with
    fur := { cores := [(0, { (issuing d).core 0 with threads := [(0, { running := true, halted := false, seq := 1, incs := [{ seq := 0, idx := 5, xs := [], wait := .pool, pool := [{ ident := 0, off := 384, wr := false, pa := 384, epoch := 0 }] }] })] })] } }

/-- The image of a program whose one descriptor is a HALT: header and descriptor. -/
def haltImage : List Byte :=
  [0xA7, 0x46, 1, 0, 1, 0, 0, 0, 1, 0, 0, 0, 0x80, 0, 0, 0] ++ List.replicate 48 0 ++ [1] ++ List.replicate 31 0
/-- Core 0 loading 96 bytes from the start of context 0. -/
def loading : State :=
  { mapped with
    mem := Mem.write [] 0 haltImage
    pool := { mapped.pool with exts := [(0, { state := .assigned, plot := 0, owner := 0x80 })] }
    fur := { cores := [(0, { loading := true, resDone := false, srcCtx := 0, srcOff := 0, loadLen := 96 })] } }

/-- The image that defines group 5 of plot 0 with one member, port 2's end point, DEPTH 2, a window of one 64 KiB chunk, its queue in
extent 0. -/
def imageA : List Byte :=
  [5, 0, 1, 0, 2, 0, 0, 0, 0x10, 0, 0, 0, 100, 0, 0, 0] ++ List.replicate 8 0 ++ [1] ++ List.replicate 39 0 ++
  [2, 1, 0, 0, 0xC0, 1, 2, 0] ++ List.replicate 8 0 ++ [3, 0xFF] ++ List.replicate 14 0
/-- The signature of a BROADCAST of 32 FP32 elements from member 0, sequence 0, and its descriptor. -/
def sigA : List Byte := [5, 0x40, 0x0B, 0x0B, 0, 0, 0, 0, 32, 0, 0, 0, 0, 0, 0, 0]
def descA : List Byte := sigA ++ List.replicate 112 0
/-- That group, with a digest of zeros. -/
def groupA : Group :=
  { image := imageA, plot := 0, members := [{ node := 0x102, cctx := 0, cnode := 0x1C0, cslots := 2, coff := 0, sigoff := 0xFF03 }], depth := 2
    ring := false, anchor := 0, chunkLog := 0, window := 1, deadline := 100, qext := 0, qoff := 0, cores := 1, digest := List.replicate 8 0 }
/-- Its sequence 0, executing with its window open. -/
def seqA : CSeq := { seq := 0, sig := some sigA, posts := [(0, descA)], exec := true, start := 0, entered := [(0, 0)] }
/-- Port 2's hub with extent 0 plot 0's and a group. -/
def grouped (x : Group) : State :=
  { ported with
    pool := { ported.pool with exts := [(0, { state := .assigned, plot := 0, owner := 0xC1 })] }
    coll := { ported.coll with groups := [(5, x)] } }
/-- The group whose next sequence, of an operation, waits to start; the sequence; and the hub with a staging extent for it. -/
def startQ (op : Nat) : CSeq := { seqA with sig := some ([5, BitVec.ofNat 8 (16 * op)] ++ sigA.drop 2), exec := false, entered := [] }
def startA (op : Nat) : Group := { groupA with seqs := [startQ op] }
def starting (op : Nat) : State :=
  { grouped (startA op) with pool := { ported.pool with exts := [(0, { state := .assigned, plot := 0, owner := 0xC1 }), (1, { state := .assigned, plot := 0, owner := 0xC0, role := 2 })] } }
/-- A request of port 2's end point to the hub's node 0xC0 for group 5, sequence 0. -/
def collHdr (len : Nat) : Header := { plot := 0, len, dst := 0x1C0, src := 0x102, opb := 5, opc := 0 }
/-- The contribution to chunk 0 staged whole: 32 elements of zero and their check value. -/
def stagedA : FMap Byte := (List.range 128).map (fun i => (i, 0)) ++ (List.range 128).map fun i => (69632 + i, 0)
/-- That sequence as an ALL_REDUCE whose contribution to chunk 0 is staged whole. -/
def reduceSeqA : CSeq := { seqA with sig := some ([5, 0x10] ++ sigA.drop 2), stage := stagedA }
/-- Group 5 with a second member at hub 2, node 0x200. -/
def groupB : Group :=
  { groupA with members := groupA.members ++ [{ node := 0x200, cctx := 0, cnode := 0x2C0, cslots := 2, coff := 0, sigoff := 0xFF03 }] }
/-- An exchange message of group 5, sequence 0, from hub 2. -/
def xchA (body : List Byte) : List Byte := [0x50] ++ List.replicate 31 0 ++ body
/-- A Tilth image of 128 zero bytes to be read from the start of context 0. -/
def tilthA : State := { mapped with chk := { mapped.chk with srcCtx := 0, srcOff := 0, tilthLen := 128 } }
/-- The same with the image's line held by the host in the filter. -/
def tilthWaits : State := { tilthA with coh := { tilthA.coh with filter := [(0, { st := .modified, order := 0 })] } }
/-- The hub with plot 1 in a state and a way. -/
def plotted (x : Plot) : State :=
  { hub with
    key := { hub.key with plots := [(0, { st := .active, rot := 1 }), (1, x)] }
    dict := { hub.dict with od := wide ++ [(0x911102, 4)] } }
/-- Port 2's hub with port 2 in a state, and lane circuits that differ from their reset. -/
def prt (x : Port) (l : FMap Lane) : State := { ported with ports := { ported.ports with ports := [(2, x)], lanes := l } }
/-- Circuits 8 to 11 of engine 0, training, all but circuit 8 with a converged equaliser and ALOCK. -/
def trainingLanes : FMap Lane :=
  [(8, { st := .training, pos := 8, eq := true })] ++ [9, 10, 11].map fun j => (j, { st := .training, pos := j, cdr := true, eq := true, alock := true, lane := j - 8 })
/-- The IDENT of an end point's port 0 with four lanes. -/
def identA : List Byte := List.replicate 17 0 ++ [2, 0, 0, 0, 3, 0, 4] ++ List.replicate 40 0
/-- A serial that is not this hub's. -/
theorem otherSerial_ne (l : List Byte) : takePad 16 ((takePad 16 l).map fun b => b + 1) ≠ takePad 16 l := by
  intro h
  have h0 := congrArg (fun x => x[0]?) h
  cases l <;> simp [takePad] at h0
/-- A partner's serial stands in slot 1 of a pair record whose slot 0 is this hub's. -/
theorem pairPlace_other (s : State) (x : List Byte) (h0 : s.key.pair.slot0.serial = mySerial) (h1 : s.key.pair.slot1.serial = x) (hx : x ≠ mySerial) : pairPlace s x = some 1 := by
  simp [pairPlace, PairRec.find, PairRec.slot, h0, h1, hx, Ne.symm hx]
/-- Port 2's hub with the port identifying itself, an anchor for its far end. -/
def identing : State := { prt { st := .identifying, ident := identA } [] with dict := { ported.dict with od := [(0x200101, 1), (0x200102, 0), (0x310003, 0), (0x911001, 2 ^ 64 - 1)], odBytes := ported.dict.odBytes ++ [(0x902001, [1])] } }
/-- Circuits 8 to 11 of engine 0 in use, those of a list failed. -/
def litLanes (l : List Nat) : FMap Lane := [8, 9, 10, 11].map fun j => (j, { st := .active, pos := j, failed := l.contains j })
/-- The hub with one open MANAGER session, and a message of it. -/
def sessA : Session := { num := 1, lastSeq := 4, heard := 5, beat := 5, hubSeq := 2 }
def managed (x : Session) : State := { hub with dict := { hub.dict with sessions := [x], lastSession := 1 } }
def msgA (index sub : Nat) (body : List Byte) : AdpMsg := { session := 1, seq := 5, index, sub, body }
/-- A Tilth set of one test of a kind, whose program takes one thread and whose expected check value is that of a block of zeros; the hub with
it loaded, and with a run of it on a target. -/
def testA (kind : Nat) : TilthTest := { target := kind, short := false, prog := (0, 96), input := (96, 8), expect := (104, 1), maxTime := 1000 }
def setA (kind : Nat) : TilthSet := { setId := 1, seq := 1, digest := [], image := haltImage ++ List.replicate 8 7 ++ List.replicate 8 0, tests := [testA kind] }
def tested (kind : Nat) : State := { hub with chk := { hub.chk with tilth := some (setA kind) } }
def runA (target : Nat) (again : Bool) : TilthRun := { target, test := 0, te := 0, since := 9999999999, again }
def ran (kind target : Nat) (again : Bool) : State := { hub with chk := { hub.chk with tilth := some (setA kind), runs := [runA target again] } }
/-- A digest pass of a region of one extent that runs. -/
def passA (x : DigestRegion) : State := { hub with chk := { hub.chk with regions := [(0, { x with first := 0, count := 1, enable := true, interval := 5, running := true })] } }

end Sys2Proof.Tests

open Sys2Proof.Tests

section
set_option Elab.async false

/-! Ill-formed commands that the checks of WellFormed refuse, one for each check. -/

/-- A port number above 127, a core above 63, a thread above 15. -/
theorem test_wf_port : (Instr.linkRekey 128).wf = false := by decide
theorem test_wf_core : (Instr.coreLoad 64).wf = false := by decide
theorem test_wf_thread : (Instr.nop 0 16).wf = false := by decide
/-- An engine's lane, an extent, a context, a group, a plot, a flow, a cluster, a CXL port and a line out of range. -/
theorem test_wf_lane : (Instr.laneConverged 16 ⟨0, true⟩).wf = false := by decide
theorem test_wf_circuit : (Instr.laneConverged 0 ⟨34, true⟩).wf = false := by decide
theorem test_wf_extent : (Instr.scrubDone 0x10000).wf = false := by decide
theorem test_wf_context : (Instr.ctxDestroy 0x10000).wf = false := by decide
theorem test_wf_group : (Instr.allReduce 4096).wf = false := by decide
theorem test_wf_plot : (Instr.plotRemoveDrained 16).wf = false := by decide
theorem test_wf_flow : (Instr.frameForward 144 0 0).wf = false := by decide
theorem test_wf_class : (Instr.spillEntry 0 4).wf = false := by decide
theorem test_wf_cluster : (Instr.clusterPowerOff 8).wf = false := by decide
theorem test_wf_cxl : (Instr.cxlPortLost 4).wf = false := by decide
theorem test_wf_line : (Instr.rdShared (2 ^ 41)).wf = false := by decide
/-- An ingress that no port has, a header field beyond its width, a payload longer than LEN can say. -/
theorem test_wf_ingress : (Instr.read (.port 128) {} []).wf = false := by decide
theorem test_wf_header : (Instr.read .host { len := 4096 } []).wf = false := by decide
theorem test_wf_payload : (Instr.write .host {} (List.replicate 4096 0)).wf = false := by decide +kernel
theorem test_wf_sowing : (Instr.sowing .host 0x20 {} []).wf = false := by decide
/-- A reply's field, a dictionary message's body, an ASSIGN's field beyond its width. -/
theorem test_wf_reply : (Instr.ack 0 { status := 256 }).wf = false := by decide
theorem test_wf_adp : (Instr.adpRead { body := List.replicate 1357 0 }).wf = false := by decide +kernel
theorem test_wf_assign : (Instr.extentAssign true 0 0 0 4 0 0 false).wf = false := by decide
/-- Lists of a fixed length: a line, a check block, a descriptor, a watch command, an IDENT frame, a sample of powers. -/
theorem test_wf_data : (Instr.wrBack 0 []).wf = false := by decide
theorem test_wf_block : (Instr.blockFillComplete 0 ⟨[], []⟩).wf = false := by decide
theorem test_wf_descriptor : (Instr.collDescriptorPost 0 0 0 []).wf = false := by decide
theorem test_wf_watch : (Instr.watchArm .reg []).wf = false := by decide
theorem test_wf_ident : (Instr.identFrame { light := { port := 0 }, seq := 0 } []).wf = false := by decide
theorem test_wf_power : (Instr.powerSample [] 0).wf = false := by decide
/-- A well-formed command is accepted. -/
theorem test_wf_accepts : (Instr.read .host { dst := 0x1C0, len := 128 } []).wf = true := by decide

/-! Worked values of the spec. -/

/-- E2M1 codes 0 to 7 are 0, 0.5, 1, 1.5, 2, 3, 4 and 6, in halves (Table 7-1). -/
theorem test_e2m1_values : (List.range 8).map (Arith.elemDec 0) = [0, 1, 2, 3, 4, 6, 8, 12].map Arith.Elem.fin := by decide
/-- A dot product of two EB32 FP4 operands over two blocks is 8.0 in E4M3, code 0x50 (the example of chapter 7). -/
def fp4Tile (scale : Nat) : Tile :=
  { node := none, off := 0, base := 0, rows := 1, cols := 64, stride := 32, tfmt := 0x10, tscale := scale, soff := 0 }
def fp4A : TData := { t := fp4Tile 0x3F000000, bytes := [[0xC3, 0x71] ++ List.replicate 14 0 ++ [0x07] ++ List.replicate 15 0, [0x7A, 0x7C]] }
def fp4B : TData := { t := fp4Tile 0x40000000, bytes := [[0x56, 0x1A] ++ List.replicate 14 0 ++ [0x09] ++ List.replicate 15 0, [0x85, 0x78]] }
def dotOut (tfmt : Nat) : Tile :=
  { node := none, off := 0, base := 0, rows := 1, cols := 1, stride := 32, tfmt, tscale := 0x3F800000, soff := 0 }
theorem test_dot_e4m3 : ((evalDot {} 0 fp4A fp4B [] (dotOut 0x03)).writes.map fun w => w.2.2).flatten = [0x50] := by decide +kernel

/-- Two atomics on a counter line that holds 99: U64, operand 1, give 100 and the old value 99, then 101 and 100 (Table 2-16). -/
theorem test_atomic_add :
    accessBytes 0x42 { len := 8, opb := 2 } (natLe 8 1) (natLe 8 99) = (natLe 8 100, natLe 8 99) ∧
    accessBytes 0x42 { len := 8, opb := 2 } (natLe 8 1) (natLe 8 100) = (natLe 8 101, natLe 8 100) := by decide

/-- The check value of the key block whose first words are 3 and 0x10 (the example of chapter 11). -/
theorem test_bcv_key_block : bcv [3, 0, 0, 0, 0x10, 0, 0, 0] = 0xE3000003A5 := by decide +kernel

/-- At reset nothing waits, no block is powered but the always-on ones, and the memories list nothing. -/
theorem test_reset_idle : State.reset.pending = [] ∧ State.reset.mem = [] ∧ State.reset.spad = [] := by decide

/-- The hypotheses of StepRunsFrontCommand can be met. -/
theorem test_stepRunsFrontCommand_witness :
  ∃ (s : State) (c : Instr) (rest : List Instr), s.pending = c :: rest :=
  ⟨{ State.reset with pending := [.timeExchange] }, .timeExchange, [], (by decide +kernel)⟩

/-- The hypotheses of EmptyQueueTick can be met. -/
theorem test_emptyQueueTick_witness :
  (∃ (s : State), s.pending = []) ∧
  (∃ (s : State), s.pending = [] ∧ clockRuns s = true ∧ PortsQuiet s ∧ s.pool.hubCmds = [] ∧ s.xlt.deferSeen =
    false ∧ s.xlt.deferred = []) ∧
  (∃ (s : State), s.pending = [] ∧ clockRuns s = true ∧ PortsQuiet s ∧ s.pool.hubCmds = [] ∧ s.xlt.deferSeen =
    false ∧ s.xlt.deferred = [] ∧ (s.ports.ports.map Prod.fst).Nodup) :=
  ⟨⟨State.reset, (by decide +kernel)⟩,
   ⟨ported, (by decide +kernel), (by decide +kernel), (by decide +kernel), (by decide +kernel),
      (by decide +kernel)⟩,
   ⟨{ ported with ports := { ported.ports with ports := [(2, { ported.port 2 with slots := 65530, dealt := [0, 1], freedSent := (ported.port 2).freed })] } },
      (by decide +kernel), (by decide +kernel), (by decide +kernel), (by decide +kernel), (by decide +kernel),
      (by decide +kernel)⟩⟩

/-- The hypotheses of StepKeepsMemoriesCanonical can be met. -/
theorem test_stepKeepsMemoriesCanonical_witness :
  ∃ (s t : State), Canonical s ∧ step s = .next t :=
  ⟨State.reset, tick State.reset, (by decide +kernel), rfl⟩

/-- The hypotheses of StepTakesOneCommand can be met. -/
theorem test_stepTakesOneCommand_witness :
  ∃ (s t : State), step s = .next t :=
  ⟨State.reset, tick State.reset, rfl⟩

/-- The hypotheses of TraceOnlyGrows can be met. -/
theorem test_traceOnlyGrows_witness :
  ∃ (s t : State), step s = .next t :=
  ⟨State.reset, tick State.reset, rfl⟩

/-- The hypotheses of SettleLeavesCalm can be met. -/
theorem test_settleLeavesCalm_witness :
  ∃ (s : State), Calm s :=
  ⟨State.reset, (by decide +kernel)⟩

/-- The hypotheses of RequestCommandsEnterTheHub can be met. -/
theorem test_requestCommandsEnterTheHub_witness :
  (∃ (i : Instr) (r : Req) (s : State), requestOf i = some r) ∧
  (∃ (i : Instr) (r0 r : Req) (s : State) (st d : Nat), requestOf i = some r0 ∧ r = normalise s r0 ∧ target
    (countCells r s) r = .refuse st d) :=
  ⟨⟨.read .host (hdr 0xC0 0 8) [], _, hub, rfl⟩,
   ⟨.read .host (hdr 0xC5 0 32) [], _, _, hub, St.unreachable, 0xFF01, rfl, rfl, (by decide +kernel)⟩⟩

/-- The hypotheses of RequestsAtScratchpad can be met. -/
theorem test_requestsAtScratchpad_witness :
  ∃ (i : Instr) (r0 r : Req) (s u w : State) (c off : Nat), requestOf i = some r0 ∧ r = normalise s r0 ∧ u =
    countCells r s ∧ (opClass r.op = 0 ∨ opClass r.op = 1 ∨ opReduce r.op = true) ∧ c < 64 ∧ Passes u r (0x80 + c) ∧
    ((atNode u r).core c).resetting = false ∧ corePlot (atNode u r) c = some r.h.plot ∧ w = (memCheck (askOf r (some
    c) (some c)) (atNode u r)).2 ∧ stallAhead (atNode u r) r = false ∧ (memCheck (askOf r (some c) (some c)) (atNode
    u r)).1 = .spad off ∧ inCode w c off = false ∧ ((opReads r.op = true → badIn w c off (spanOf r.op r.h) = false)) :=
  ⟨.atomAdd .host (hdr 0x80 65536 4) (natLe 4 5), _, _, mapped, _, _, 0, 0, rfl, rfl, rfl, (by decide +kernel),
      (by decide +kernel), (by decide +kernel), (by decide +kernel), (by decide +kernel), rfl, (by decide +kernel),
      (by decide +kernel), (by decide +kernel), (by decide +kernel)⟩

/-- The hypotheses of RequestsAtPool can be met. -/
theorem test_requestsAtPool_witness :
  ∃ (i : Instr) (r0 r : Req) (s u w : State) (lep pa : Nat) (view : Option Nat), requestOf i = some r0 ∧ r =
    normalise s r0 ∧ u = countCells r s ∧ (opClass r.op = 0 ∨ opReduce r.op = true ∨ (opClass r.op = 1 ∧ lep ≠
    0xC0)) ∧ 0xC0 ≤ lep ∧ (lep = 0xC0 ∨ r.h.plot = 0) ∧ Passes u r lep ∧ w = (memCheck (askOf r none none) (atNode u
    r)).2 ∧ stallAhead (atNode u r) r = false ∧ (memCheck (askOf r none none) (atNode u r)).1 = .pool (.at pa view)
    ∧ slotRefuses r pa w = false ∧ w.coh.walkSince = none ∧ obstacle none (acceptRec r pa view w) (accepted r pa w)
    = .none ∧ ((opWrites r.op = true → paSlot (stored (acceptRec r pa view w) (accepted r pa w)) pa = none)) :=
  ⟨.write .host (hdr 0xC0 128 128) (List.replicate 128 5), _, _, mapped, _, _, 0xC0, 128, none, rfl, rfl, rfl,
      (by decide +kernel), (by decide +kernel), (by decide +kernel), (by decide +kernel), rfl, (by decide +kernel),
      (by decide +kernel), (by decide +kernel), (by decide +kernel), (by decide +kernel), (by decide +kernel)⟩

/-- The hypotheses of SignalsAtHubCounters can be met. -/
theorem test_signalsAtHubCounters_witness :
  (∃ (via : Ingress) (h : Header) (data : List Byte) (r : Req) (s u : State) (c k : Nat), r = normalise s
    { via, op := 0x60, h, data } ∧ u = countCells r s ∧ Passes u r 0xC0 ∧ c = r.h.opa.toNat ∧ k = fieldAt data 0 8 ∧
    c < 65536 ∧ ctrIn s r.h.plot c = true ∧ ctrVal s c + k < 2 ^ 64) ∧
  (∃ (via : Ingress) (h : Header) (data : List Byte) (r : Req) (s u : State) (c k : Nat), r = normalise s
    { via, op := 0x60, h, data } ∧ u = countCells r s ∧ Passes u r 0xC0 ∧ c = r.h.opa.toNat ∧ k = fieldAt data 0 8 ∧
    c < 65536 ∧ ctrIn s r.h.plot c = true ∧ 2 ^ 64 ≤ ctrVal s c + k) ∧
  (∃ (via : Ingress) (h : Header) (data : List Byte) (r : Req) (s u : State) (c k : Nat), r = normalise s
    { via, op := 0x61, h, data } ∧ u = countCells r s ∧ Passes u r 0xC0 ∧ c = r.h.opa.toNat ∧ k = fieldAt data 0 8 ∧
    c < 65536 ∧ ctrIn s r.h.plot c = true) :=
  ⟨⟨.host, hdr 0xC0 0xFF03 8, natLe 8 5, _, hub, _, 0xFF03, 5, rfl, rfl, (by decide +kernel),
      (by decide +kernel), (by decide +kernel), (by decide +kernel), (by decide +kernel), (by decide +kernel)⟩,
   ⟨.host, hdr 0xC0 0xFF03 8, natLe 8 5, _,
      { hub with sync := { hub.sync with ctrs := [(0xFF03, 0xFFFFFFFFFFFFFFFF)] } }, _, 0xFF03, 5, rfl, rfl,
      (by decide +kernel), (by decide +kernel), (by decide +kernel), (by decide +kernel), (by decide +kernel),
      (by decide +kernel)⟩,
   ⟨.host, hdr 0xC0 0xFF03 8, natLe 8 5, _, hub, _, 0xFF03, 5, rfl, rfl, (by decide +kernel),
      (by decide +kernel), (by decide +kernel), (by decide +kernel), (by decide +kernel)⟩⟩

/-- The hypotheses of MessageIntoReceiveSlot can be met. -/
theorem test_messageIntoReceiveSlot_witness :
  (∃ (via : Ingress) (h : Header) (data : List Byte) (r : Req) (s u : State) (c i : Nat) (p : Prog) (d :
    QueueDecl), r = normalise s { via, op := 0x80, h, data } ∧ u = countCells r s ∧ Passes u r (0x80 + c) ∧ c < 64 ∧
    (s.core c).resetting = false ∧ corePlot s c = some r.h.plot ∧ (s.core c).prog = some p ∧ ((p.queues.find? fun d
    => d.num == queueOf r.h) = some d) ∧ ((s.core c).st = .loaded ∨ (s.core c).st = .running) ∧ r.h.len + 16 ≤
    d.slotBytes ∧ freeSlot s c d = some i) ∧
  (∃ (via : Ingress) (h : Header) (data : List Byte) (r : Req) (s u : State) (c : Nat) (p : Prog) (d : QueueDecl),
    r = normalise s { via, op := 0x80, h, data } ∧ u = countCells r s ∧ Passes u r (0x80 + c) ∧ c < 64 ∧ (s.core
    c).resetting = false ∧ corePlot s c = some r.h.plot ∧ (s.core c).prog = some p ∧ ((p.queues.find? fun d => d.num
    == queueOf r.h) = some d) ∧ freeSlot s c d = none) :=
  ⟨⟨.host, hdr 0x80 0 8, natLe 8 5, _, loaded, _, 0, 0, progA,
      { num := 0, off := 4096, slotBytes := 128, slots := 2 }, rfl, rfl, (by decide +kernel), (by decide +kernel),
      (by decide +kernel), (by decide +kernel), (by decide +kernel), (by decide +kernel), (by decide +kernel),
      (by decide +kernel), (by decide +kernel)⟩,
   ⟨.host, hdr 0x80 0 8, natLe 8 5, _,
      { loaded with fur := { cores := [(0, { loaded.core 0 with slots := [(0, .filled 0), (1, .claimed)] })] } }, _,
      0, progA, { num := 0, off := 4096, slotBytes := 128, slots := 2 }, rfl, rfl, (by decide +kernel),
      (by decide +kernel), (by decide +kernel), (by decide +kernel), (by decide +kernel), (by decide +kernel),
      (by decide +kernel)⟩⟩

/-- The hypotheses of SowingStarts can be met. -/
theorem test_sowingStarts_witness :
  (∃ (via : Ingress) (op : Nat) (h : Header) (data : List Byte) (r : Req) (s u : State), r = normalise s
    { via, op, h, data } ∧ u = countCells r s ∧ target u r = .sow ∧ blocked u r = false ∧ gatherRoom u (sowTile u r)
    = true ∧ sowPorts u r ≠ [] ∧ (∀ p ∈ sowPorts u r, lacksFeature u p r = none) ∧ (∀ x ∈ tileFrames u (sowTile u
    r), x.gather ≠ some u.sw.nextGather) ∧ (sowTile u r < 128 ∨ (issueRoom u (sowTile u r)
    { req := r, cells := cellsOf data, gather := some u.sw.nextGather } = true ∧ u.sw.issueKept = [] ∧ ∀ p ∈
    sowPorts u r, nodeAhead u (sowTile u r) p { req := r, cells := cellsOf data, gather := some u.sw.nextGather } =
    false))) ∧
  (∃ (via : Ingress) (op : Nat) (h : Header) (data : List Byte) (r : Req) (s u : State), r = normalise s
    { via, op, h, data } ∧ u = countCells r s ∧ target u r = .sow ∧ blocked u r = false ∧ gatherRoom u (sowTile u r)
    = true ∧ sowPorts u r = []) :=
  ⟨⟨.host, 0x80, { sowHdr with sow := 2, sowix := 2 }, List.replicate 32 1, _, ported, _, rfl, rfl,
      (by decide +kernel), (by decide +kernel), (by decide +kernel), (by decide +kernel), (by decide +kernel),
      (by decide +kernel), (by decide +kernel)⟩,
   ⟨.host, 0x80, { sowHdr with sow := 2, sowix := 2 }, List.replicate 32 1, _, hub, _, rfl, rfl,
      (by decide +kernel), (by decide +kernel), (by decide +kernel), (by decide +kernel)⟩⟩

/-- The hypotheses of LateReplyIsDiscarded can be met. -/
theorem test_lateReplyIsDiscarded_witness :
  ∃ (i : Instr) (p : Nat) (r : Reply) (s : State), replyOf i = some (p, r) ∧ carriesReplies s p = true ∧
    (((s.records p).find? fun f => f.is r.dst r.tag && f.req.h.dst == r.src) = none) :=
  ⟨.rdData 2 { dst := 0x1C1, tag := 7, data := List.replicate 32 1 }, 2,
      { op := Op.rdData, dst := 0x1C1, tag := 7, data := List.replicate 32 1 }, ported, rfl, (by decide +kernel),
      (by decide +kernel)⟩

/-- The hypotheses of ReplyReleasesItsRecord can be met. -/
theorem test_replyReleasesItsRecord_witness :
  (∃ (i : Instr) (p : Nat) (r : Reply) (s : State) (f : FwdRec), replyOf i = some (p, r) ∧ carriesReplies s p =
    true ∧ (((s.records p).find? fun f => f.is r.dst r.tag && f.req.h.dst == r.src) = some f) ∧ f.gather = none) ∧
  (∃ (i : Instr) (p g : Nat) (r : Reply) (s : State) (f : FwdRec) (x y : Gather), replyOf i = some (p, r) ∧
    carriesReplies s p = true ∧ (((s.records p).find? fun f => f.is r.dst r.tag && f.req.h.dst == r.src) = some f) ∧
    f.gather = some g ∧ ((s.sw.gathers.find? fun x => x.ident == g) = some x) ∧ r.status = St.ok ∧ y =
    { x with open_ := x.open_ - 1 }) ∧
  (∃ (p src tag : Nat) (s : State) (f : FwdRec), (((s.records p).find? fun f => f.is src tag) = some f) ∧ f.gather
    = none ∧ elapsed s f.since (forwardTimeoutNs s) = true) ∧
  (∃ (p src tag : Nat) (s : State) (f : FwdRec), (((s.records p).find? fun f => f.is src tag) = some f) ∧ elapsed s
    f.since (forwardTimeoutNs s) = false) :=
  ⟨⟨.rdData 2 { dst := 0x1C1, src := 0x102, tag := 7, data := List.replicate 32 1 }, 2,
      { op := Op.rdData, dst := 0x1C1, src := 0x102, tag := 7, data := List.replicate 32 1 }, awaiting,
      { req := { via := .host, op := 1, h := { hdr 2 0 32 with src := 0x1C1, tag := 7 } }, since := 0, gather := none },
      rfl, (by decide +kernel), (by decide +kernel), (by decide +kernel)⟩,
   ⟨.ack 2 { dst := 0x1C1, src := 0x102, tag := 7 }, 2, 4,
      { op := Op.ack, dst := 0x1C1, src := 0x102, tag := 7 },
      { awaiting with sw := { awaiting.sw with gathers := [gatherA], records := [(2, [copyA])] } }, copyA, gatherA,
      _, rfl, (by decide +kernel), (by decide +kernel), (by decide +kernel), (by decide +kernel),
      (by decide +kernel), rfl⟩,
   ⟨2, 0x1C1, 7, awaiting,
      { req := { via := .host, op := 1, h := { hdr 2 0 32 with src := 0x1C1, tag := 7 } }, since := 0, gather := none },
      (by decide +kernel), (by decide +kernel), (by decide +kernel)⟩,
   ⟨2, 0x1C1, 7, { awaiting with time := { awaiting.time with now := 5 } },
      { req := { via := .host, op := 1, h := { hdr 2 0 32 with src := 0x1C1, tag := 7 } }, since := 0, gather := none },
      (by decide +kernel), (by decide +kernel)⟩⟩

/-- The hypotheses of SignalGateHoldsAndReleases can be met. -/
theorem test_signalGateHoldsAndReleases_witness :
  (∃ (i : Instr) (r0 r : Req) (s u : State), requestOf i = some r0 ∧ opClass r0.op = 1 ∧ r = normalise s r0 ∧ u =
    countCells r s ∧ ((∃ lep, target u r = .here lep) ∨ (∃ p, target u r = .egress p)) ∧ blocked u r = false ∧
    gateFull u r = false ∧ r.via ≠ .unit ∧ s.chk.badMeta.contains (.gate r.h.src r.h.dst) = false ∧ sigHeld u r =
    true) ∧
  (∃ (src dst p : Nat) (s u : State) (x : HeldSig), ((s.sw.heldSigs.find? fun x => x.req.h.src == src &&
    x.req.h.dst == dst) = some x) ∧ x.gather = none ∧ gateOpen s src dst = 0 ∧ gateAhead s src dst = false ∧ u =
    { s with sw := { s.sw with heldSigs := dropFirst (fun y => y.req.h.src == src && y.req.h.dst == dst) s.sw.heldSigs } }
    ∧ target s x.req = .egress p ∧ s.flow (ingressTile x.req p) p (opClass x.req.op) = none ∧ (ingressTile x.req p <
    128 ∨ (issueRoom u (ingressTile x.req p) { req := x.req, cells := cellsOf x.req.data, gather := none } = true ∧
    nodeAhead u (ingressTile x.req p) p { req := x.req, cells := cellsOf x.req.data, gather := none } = false ∧
    s.sw.issueKept = []))) ∧
  (∃ (src dst lep : Nat) (s : State) (x : HeldSig), ((s.sw.heldSigs.find? fun x => x.req.h.src == src &&
    x.req.h.dst == dst) = some x) ∧ x.gather = none ∧ gateOpen s src dst = 0 ∧ gateAhead s src dst = false ∧ target
    s x.req = .here lep ∧ entryTile x.req lep = none) ∧
  (∃ (src dst g : Nat) (s : State) (x : HeldSig), ((s.sw.heldSigs.find? fun x => x.req.h.src == src && x.req.h.dst
    == dst) = some x) ∧ x.gather = some g ∧ gateOpen s src dst = 0 ∧ gateAhead s src dst = false ∧ portServes s
    (lepOf dst) = true ∧ gatherTile s g < 128) ∧
  (∃ (src dst : Nat) (s : State), (gateOpen s src dst ≠ 0 ∨ gateAhead s src dst = true)) :=
  ⟨⟨.sigAdd .host (hdr 0xC0 0xFF03 8) (natLe 8 5), _, _,
      { hub with sw := { hub.sw with gate := [{ src := 0x1C1, dst := 0x1C0, count := 1 }] } }, _, rfl,
      (by decide +kernel), rfl, rfl, Or.inl ⟨0xC0, by decide +kernel⟩, (by decide +kernel), (by decide +kernel),
      (by decide +kernel), (by decide +kernel), (by decide +kernel)⟩,
   ⟨0x1C1, 0x102, 2, { ported with sw := { ported.sw with heldSigs := [{ req := heldSig, gather := none }] } },
      _, { req := heldSig, gather := none }, (by decide +kernel), (by decide +kernel), (by decide +kernel),
      (by decide +kernel), rfl, (by decide +kernel), (by decide +kernel), (by decide +kernel)⟩,
   ⟨0x1C1, 0x1C0, 0xC0,
      { hub with sw := { hub.sw with heldSigs := [{ req := { heldSig with h := { heldSig.h with dst := 0x1C0 } }, gather := none }] } },
      { req := { heldSig with h := { heldSig.h with dst := 0x1C0 } }, gather := none }, (by decide +kernel),
      (by decide +kernel), (by decide +kernel), (by decide +kernel), (by decide +kernel), (by decide +kernel)⟩,
   ⟨0x102, 0x102, 4,
      { ported with sw := { ported.sw with heldSigs := [{ req := sigCopy, gather := some 4 }], gathers := [{ gatherA with tile := 2 }] } },
      { req := sigCopy, gather := some 4 }, (by decide +kernel), (by decide +kernel), (by decide +kernel),
      (by decide +kernel), (by decide +kernel), (by decide +kernel)⟩,
   ⟨0x1C1, 0x102, { ported with sw := { ported.sw with gate := [{ src := 0x1C1, dst := 0x102, count := 1 }] } },
      (by decide +kernel)⟩⟩

/-- The hypotheses of FramesCrossTheSwitch can be met. -/
theorem test_framesCrossTheSwitch_witness :
  (∃ (i p k : Nat) (s : State) (f : Flow) (x : Frame) (rest : List Frame), s.flow i p k = some f ∧ f.queue = x ::
    rest ∧ f.spilled = false ∧ p < 128 ∧ frameBarred s p x = none ∧ granted s f = true) ∧
  (∃ (i p k : Nat) (s : State) (f : Flow) (x : Frame) (rest : List Frame), s.flow i p k = some f ∧ f.queue = x ::
    rest ∧ f.spilled = false ∧ 256 ≤ p ∧ frameBarred s p x = none ∧ granted s f = true) ∧
  (∃ (i k : Nat) (s : State) (f : Flow) (x : Frame) (before rest : List Frame), s.flow i 128 k = some f ∧ waitSplit
    s [] f.queue = some (before, x, rest)) ∧
  (∃ (i p k st d : Nat) (s : State) (f : Flow) (x : Frame) (rest : List Frame), s.flow i p k = some f ∧ f.queue = x
    :: rest ∧ f.spilled = false ∧ p ≠ 128 ∧ x.gather = none ∧ frameBarred s p x = some (st, d)) ∧
  (∃ (p i : Nat) (s : State) (x : Frame), stageNext s p (s.staged p) = some (i, x) ∧ portServes s p = true ∧
    (s.port p).held = [] ∧ canFrame s p (.request x.req) = true ∧ x.req.via ≠ .mgmt) ∧
  (∃ (p i : Nat) (s : State) (x : Frame), stageNext s p (s.staged p) = some (i, x)) ∧
  (∃ (p : Nat) (s : State), stageNext s p (s.staged p) = none) :=
  ⟨⟨128, 2, 0, flowing, flowA, frameA, [], (by decide +kernel), (by decide +kernel), (by decide +kernel),
      (by decide +kernel), (by decide +kernel), (by decide +kernel)⟩,
   ⟨2, 0x1C0, 0, { ported with sw := { ported.sw with flows := [flowN] } }, flowN, frameN, [],
      (by decide +kernel), (by decide +kernel), (by decide +kernel), (by decide +kernel), (by decide +kernel),
      (by decide +kernel)⟩,
   ⟨2, 0, { mapped with sw := { mapped.sw with flows := [{ flowN with egress := 128 }] } },
      { flowN with egress := 128 }, frameN, [], [], (by decide +kernel), (by decide +kernel)⟩,
   ⟨128, 2, 0, St.unreachable, 0x201, { flowing with ports := hub.ports }, flowA, frameA, [],
      (by decide +kernel), (by decide +kernel), (by decide +kernel), (by decide +kernel), (by decide +kernel),
      (by decide +kernel)⟩,
   ⟨2, 128, { ported with sw := { ported.sw with stage := [(2, [(128, frameA)])] } }, frameA,
      (by decide +kernel), (by decide +kernel), (by decide +kernel), (by decide +kernel), (by decide +kernel)⟩,
   ⟨2, 128, { ported with sw := { ported.sw with stage := [(2, [(128, frameA)])] } }, frameA,
      (by decide +kernel)⟩,
   ⟨3, { ported with sw := { ported.sw with stage := [(3, [(128, frameA)])] } }, (by decide +kernel)⟩⟩

/-- The hypotheses of SpillEntryAndReadback can be met. -/
theorem test_spillEntryAndReadback_witness :
  (∃ (i k : Nat) (s : State) (f : Flow), ((s.sw.flows.find? fun f => f.ingress == i && f.cls == k && spillWanted s
    f f.plot) = some f) ∧ spillUsed s f.plot + 64 ≤ spillShareCells s f.plot ∧ (s.sw.flows.filter
    Flow.spilled).length < 4096) ∧
  (∃ (i p k : Nat) (s : State) (f : Flow) (x : Frame) (rest : List Frame), s.flow i p k = some f ∧ f.spilled = true
    ∧ f.queue = [] ∧ f.spill = x :: rest ∧ x.onChip = false ∧ p < 128 ∧ frameBarred s p x = none ∧ granted s f =
    true) ∧
  (∃ (i p k : Nat) (s : State) (f : Flow) (x : Frame) (rest : List Frame), s.flow i p k = some f ∧ f.spilled = true
    ∧ f.queue = [] ∧ f.spill = x :: rest ∧ x.onChip = false ∧ x.gather = none) :=
  ⟨⟨0, 0, crowded, flowB, (by decide +kernel), (by decide +kernel), (by decide +kernel)⟩,
   ⟨0, 2, 0,
      { ported with sw := { ported.sw with flows := [{ ingress := 0, egress := 2, cls := 0, spilled := true, spill := [{ frameA with onChip := false }] }] } },
      { ingress := 0, egress := 2, cls := 0, spilled := true, spill := [{ frameA with onChip := false }] },
      { frameA with onChip := false }, [], (by decide +kernel), (by decide +kernel), (by decide +kernel),
      (by decide +kernel), (by decide +kernel), (by decide +kernel), (by decide +kernel), (by decide +kernel)⟩,
   ⟨0, 2, 0,
      { ported with sw := { ported.sw with flows := [{ ingress := 0, egress := 2, cls := 0, spilled := true, spill := [{ frameA with onChip := false }] }] } },
      { ingress := 0, egress := 2, cls := 0, spilled := true, spill := [{ frameA with onChip := false }] },
      { frameA with onChip := false }, [], (by decide +kernel), (by decide +kernel), (by decide +kernel),
      (by decide +kernel), (by decide +kernel), (by decide +kernel)⟩⟩

/-- The hypotheses of GleanerAudits can be met. -/
theorem test_gleanerAudits_witness :
  (∃ (found : List LostCell) (s : State), elapsed s s.sw.lastAudit 100000000 = true ∧ (∀ c ∈ found, accounted s c =
    false) ∧ (∀ c ∈ found, s.sw.unaccounted.any (sameCell c) = false) ∧ s.sw.reclaimStreak = []) ∧
  (∃ (found : List LostCell) (s : State), elapsed s s.sw.lastAudit 100000000 = true ∧ (∀ c ∈ found, accounted s c =
    true) ∧ s.sw.reclaimStreak = []) ∧
  (∃ (found : List LostCell) (s : State), elapsed s s.sw.lastAudit 100000000 = false) ∧
  (∃ (c d : LostCell) (s : State), elapsed s s.sw.lastAudit 100000000 = true ∧ s.sw.unaccounted = [d] ∧ sameCell c
    d = true ∧ c.net = 0 ∧ c.tile < 128 ∧ c.spill = false ∧ c.first = none ∧ accounted s c = false) :=
  ⟨⟨[lostA], hub, (by decide +kernel), (by decide +kernel), (by decide +kernel), (by decide +kernel)⟩,
   ⟨[{ lostA with cell := 100000 }], hub, (by decide +kernel), (by decide +kernel), (by decide +kernel)⟩,
   ⟨[], { hub with time := { hub.time with now := 5 } }, (by decide +kernel)⟩,
   ⟨lostA, lostA, { hub with sw := { hub.sw with unaccounted := [lostA] } }, (by decide +kernel),
      (by decide +kernel), (by decide +kernel), (by decide +kernel), (by decide +kernel), (by decide +kernel),
      (by decide +kernel), (by decide +kernel)⟩⟩

/-- The hypotheses of ContextCommands can be met. -/
theorem test_contextCommands_witness :
  (∃ (ctx n : Nat) (fail : Bool) (s : State), s.lania.up = true ∧ csOn s = true ∧ s.xlt.ctxs.find ctx = none ∧
    s.xlt.ctxs.length < 4096 ∧ ctxPlot s ctx = some n ∧ mirrorLo s ≤ 2 ^ 12 * s.xlt.ctxRoot ∧ 2 ^ 12 * s.xlt.ctxRoot
    < mirrorHi s) ∧
  (∃ (ctx : Nat) (c : Ctx) (s : State), s.lania.up = true ∧ csOn s = true ∧ s.xlt.ctxs.find ctx = some c ∧
    c.draining = false ∧ (∀ kv ∈ s.xlt.faults, kv.2.ctx ≠ ctx) ∧ (∀ e ∈ s.xlt.deferred, e.ctx ≠ ctx)) ∧
  (∃ (ctx : Nat) (c : Ctx) (s : State), s.xlt.ctxs.find ctx = some c ∧ c.draining = true ∧ ctxBusy s ctx = false) :=
  ⟨⟨5, 0, false,
      { hub with xlt := { hub.xlt with ctxRoot := 1 }, dict := { hub.dict with od := [(0x200101, 1), (0x502003, 2 ^ 20), (0x911001, 2 ^ 64 - 1)] } },
      (by decide +kernel), (by decide +kernel), (by decide +kernel), (by decide +kernel), (by decide +kernel),
      (by decide +kernel), (by decide +kernel)⟩,
   ⟨0, { root := 0, fail := false }, mapped, (by decide +kernel), (by decide +kernel), (by decide +kernel),
      (by decide +kernel), (by decide +kernel), (by decide +kernel)⟩,
   ⟨0, { root := 0, fail := false, draining := true },
      { mapped with xlt := { mapped.xlt with ctxs := [(0, { root := 0, fail := false, draining := true })] } },
      (by decide +kernel), (by decide +kernel), (by decide +kernel)⟩⟩

/-- The hypotheses of GenerationsAndWalks can be met. -/
theorem test_generationsAndWalks_witness :
  (∃ (g : U64) (s : State), s.lania.up = true ∧ csOn s = true ∧ s.xlt.genAck.toNat < g.toNat ∧ s.xlt.genWaits = []
    ∧ s.xlt.resolves = [] ∧ laniaWrites s = false) ∧
  (∃ (g : U64) (s : State), s.lania.up = true ∧ csOn s = true ∧ s.xlt.genAck.toNat < g.toNat ∧ laniaWrites s = true) ∧
  (∃ (g : U64) (s : State), s.lania.up = true ∧ csOn s = true ∧ g.toNat ≤ s.xlt.genAck.toNat) ∧
  (∃ (core ctx page size e : Nat) (w : Walk) (c : Ctx) (s : State), (((s.xlt.walks.take 256).find? fun w => w.core
    == core && w.ctx == ctx && w.page == page) = some w) ∧ s.xlt.wrapping = false ∧ w.epoch = s.xlt.epoch ∧
    s.xlt.ctxs.find ctx = some c ∧ c.draining = false ∧ walk s c.root (page * frameBytes) = .leaf size e) ∧
  (∃ (core ctx page : Nat) (w : Walk) (s : State), (((s.xlt.walks.take 256).find? fun w => w.core == core && w.ctx
    == ctx && w.page == page) = some w) ∧ s.xlt.wrapping = false ∧ w.epoch ≠ s.xlt.epoch) :=
  ⟨⟨5, mapped, (by decide +kernel), (by decide +kernel), (by decide +kernel), (by decide +kernel),
      (by decide +kernel)⟩,
   ⟨5,
      { mapped with lania := { mapped.lania with dmas := [[{ via := .host, op := 0x20, h := hdr 0xC0 0 32 }]] } },
      (by decide +kernel), (by decide +kernel), (by decide +kernel), (by decide +kernel)⟩,
   ⟨0, mapped, (by decide +kernel), (by decide +kernel), (by decide +kernel)⟩,
   ⟨0, 0, 1, 30, 0x1D, { core := 0, ctx := 0, page := 1, epoch := 0 }, { root := 0, fail := false }, walking,
      (by decide +kernel), (by decide +kernel), (by decide +kernel), (by decide +kernel), (by decide +kernel),
      (by decide +kernel)⟩,
   ⟨0, 0, 1, { core := 0, ctx := 0, page := 1, epoch := 0 },
      { walking with xlt := { walking.xlt with epoch := 3 } }, (by decide +kernel), (by decide +kernel),
      (by decide +kernel)⟩⟩

/-- The hypotheses of FaultQueueCommands can be met. -/
theorem test_faultQueueCommands_witness :
  (∃ (n : Nat) (e : FaultEntry) (s : State) (r : Req), s.xlt.faults.find n = some e ∧ n < 4096 ∧ e.recorded = false
    ∧ s.xlt.fqEnable = true ∧ s.xlt.fqCount < 4096 ∧ elapsed s e.since (cfg 0x504004 200 s) = true ∧ recordBusy s =
    none ∧ r = unitReq s 0 (nodeOf s 0xC0) Op.write 0 0 64 0 (faultRecord s n e) ∧ slotRefuses r (faultSlot s) s =
    false ∧ s.coh.walkSince = none ∧ obstacle none (acceptRec r (faultSlot s) none s) (accepted r (faultSlot s) s) =
    .none) ∧
  (∃ (n : Nat) (e : FaultEntry) (rest : List FaultEntry) (s : State), s.xlt.deferred = e :: rest ∧ faultRoom s =
    true ∧ freeEntry s = some n) ∧
  (∃ (s : State), faultRoom s = false) ∧
  (∃ (s : State), s.xlt.fqCount ≠ 0 ∧ elapsed s s.xlt.fqRung (cfg 0x504002 2000 s) = true) ∧
  (∃ (s : State), s.xlt.fqCount = 0) ∧
  (∃ (s : State), elapsed s s.xlt.fqRung (cfg 0x504002 2000 s) = false) ∧
  (∃ (v k : Nat) (s : State), s.lania.up = true ∧ csOn s = true ∧ v < 4096 ∧ k = (v + 4096 - s.xlt.fqCons) % 4096 ∧
    v ≠ s.xlt.fqCons ∧ k ≤ s.xlt.fqCount) ∧
  (∃ (v : Nat) (s : State), s.lania.up = true ∧ csOn s = true ∧ v < 4096 ∧ v ≠ s.xlt.fqCons ∧ s.xlt.fqCount < (v +
    4096 - s.xlt.fqCons) % 4096) :=
  ⟨⟨0, faultA, faulted, _, (by decide +kernel), (by decide +kernel), (by decide +kernel), (by decide +kernel),
      (by decide +kernel), (by decide +kernel), (by decide +kernel), rfl, (by decide +kernel), (by decide +kernel),
      (by decide +kernel)⟩,
   ⟨1, faultA, [], { faulted with xlt := { faulted.xlt with deferred := [faultA] } }, (by decide +kernel),
      (by decide +kernel), (by decide +kernel)⟩,
   ⟨{ faulted with xlt := { faulted.xlt with deferred := [faultA], fqCount := 4096 } }, (by decide +kernel)⟩,
   ⟨{ faulted with xlt := { faulted.xlt with fqCount := 1 } }, (by decide +kernel), (by decide +kernel)⟩,
   ⟨hub, (by decide +kernel)⟩,
   ⟨{ faulted with xlt := { faulted.xlt with fqCount := 1, fqRung := hub.now } }, (by decide +kernel)⟩,
   ⟨1, 1, { faulted with xlt := { faulted.xlt with fqCount := 1 } }, (by decide +kernel), (by decide +kernel),
      (by decide +kernel), (by decide +kernel), (by decide +kernel), (by decide +kernel)⟩,
   ⟨2, faulted, (by decide +kernel), (by decide +kernel), (by decide +kernel), (by decide +kernel),
      (by decide +kernel)⟩⟩

/-- The hypotheses of FaultsAreResolved can be met. -/
theorem test_faultsAreResolved_witness :
  (∃ (n : Nat) (e : FaultEntry) (s : State), s.lania.up = true ∧ csOn s = true ∧ s.xlt.genWaits = [] ∧
    s.xlt.faults.find n = some e) ∧
  (∃ (n st : Nat) (e : FaultEntry) (s : State), s.lania.up = true ∧ csOn s = true ∧ s.xlt.genWaits = [] ∧
    s.xlt.faults.find n = some e ∧ (st = St.translation ∨ st = St.protection ∨ st = St.withdrawn)) ∧
  (∃ (n : Nat) (s : State), s.lania.up = true ∧ csOn s = true ∧ s.xlt.genWaits = [] ∧ s.xlt.faults.find n = none) ∧
  (∃ (n st : Nat) (s : State), s.lania.up = true ∧ csOn s = true ∧ s.xlt.genWaits = [] ∧ (s.xlt.faults.find n =
    none ∨ ¬ (st = St.translation ∨ st = St.protection ∨ st = St.withdrawn))) ∧
  (∃ (n st : Nat) (s : State), s.lania.up = true ∧ csOn s = true ∧ s.xlt.genWaits ≠ []) ∧
  (∃ (n : Nat) (e : FaultEntry) (s u : State), s.xlt.faults.find n = some e ∧ elapsed s e.since (1000000 * cfg
    0x504003 1000 s) = true ∧ u = faultOver e (some St.translation)
    { s with xlt := { s.xlt with faults := s.xlt.faults.erase n } }) ∧
  (∃ (n : Nat) (e : FaultEntry) (s : State), s.xlt.faults.find n = some e ∧ elapsed s e.since (1000000 * cfg
    0x504003 1000 s) = false) :=
  ⟨⟨0, faultA, faulted, (by decide +kernel), (by decide +kernel), (by decide +kernel), (by decide +kernel)⟩,
   ⟨0, St.protection, faultA, faulted, (by decide +kernel), (by decide +kernel), (by decide +kernel),
      (by decide +kernel), (by decide +kernel)⟩,
   ⟨7, faulted, (by decide +kernel), (by decide +kernel), (by decide +kernel), (by decide +kernel)⟩,
   ⟨0, St.state, faulted, (by decide +kernel), (by decide +kernel), (by decide +kernel), (by decide +kernel)⟩,
   ⟨0, St.protection, { faulted with xlt := { faulted.xlt with genWaits := [5] } }, (by decide +kernel),
      (by decide +kernel), (by decide +kernel)⟩,
   ⟨0, faultA, faulted, _, (by decide +kernel), (by decide +kernel), rfl⟩,
   ⟨0, faultA, { faulted with time := { faulted.time with now := 300 } }, (by decide +kernel),
      (by decide +kernel)⟩⟩

/-- The hypotheses of ShootDowns can be met. -/
theorem test_shootDowns_witness :
  (∃ (k : Nat) (c : Ctx) (s : State), s.lania.up = true ∧ csOn s = true ∧ 0 < k ∧ s.xlt.shootPage + k ≤ 2 ^ 32 ∧
    s.xlt.shootQueue.length < 64 ∧ s.xlt.ctxs.find s.xlt.shootCtx = some c ∧ c.draining = false ∧ s.lania.comp ≠
    .lost) ∧
  (∃ (k : Nat) (s : State), s.lania.up = true ∧ csOn s = true ∧ 0 < k ∧ s.xlt.shootPage + k ≤ 2 ^ 32 ∧ 64 ≤
    s.xlt.shootQueue.length) ∧
  (∃ (k : Nat) (s : State), s.lania.up = true ∧ csOn s = true ∧ 0 < k ∧ 2 ^ 32 < s.xlt.shootPage + k) ∧
  (∃ (k : Nat) (s : State), s.lania.up = true ∧ csOn s = true ∧ 0 < k ∧ s.xlt.shootPage + k ≤ 2 ^ 32 ∧ ctxLive s
    s.xlt.shootCtx = false) ∧
  (∃ (k : Nat) (s : State), s.lania.up = true ∧ csOn s = true ∧ 0 < k ∧ s.xlt.shootPage + k ≤ 2 ^ 32 ∧ s.lania.comp
    = .lost) ∧
  (∃ (s : State), s.xlt.shootQueue ≠ [] ∧ s.xlt.genWaits = [] ∧ s.xlt.epoch + 1 < 2 ^ 32 ∧ elapsed s
    s.xlt.lastAdvance 100000 = true ∧ inFlight s (fun e => e == (s.xlt.epoch + 1 + 2 ^ 32 - 32) % 2 ^ 32) = false ∧
    ((∀ kc ∈ s.fur.cores, ∀ l ∈ kc.2.cache, l.dirty = true → (s.xlt.shootQueue.any fun q => q.names l.ctx (l.vline *
    128 / 65536)) = false))) ∧
  (∃ (s : State), (s.xlt.shootQueue = [] ∨ s.xlt.genWaits ≠ [] ∨ (s.xlt.epoch + 1 < 2 ^ 32 ∧ inFlight s (fun e => e
    == (s.xlt.epoch + 1 + 2 ^ 32 - 32) % 2 ^ 32) = true))) ∧
  (∃ (q : Shoot) (rest : List Shoot) (s : State), s.xlt.shootOpen = q :: rest ∧ inFlight s (fun e => epochBefore e
    q.epoch) = true) ∧
  (∃ (q : Shoot) (rest : List Shoot) (s : State), s.xlt.shootOpen = q :: rest ∧ inFlight s (fun e => epochBefore e
    q.epoch) = false) :=
  ⟨⟨2, { root := 0, fail := false }, mapped, (by decide +kernel), (by decide +kernel), (by decide +kernel),
      (by decide +kernel), (by decide +kernel), (by decide +kernel), (by decide +kernel), (by decide +kernel)⟩,
   ⟨2,
      { mapped with xlt := { mapped.xlt with shootQueue := List.replicate 64 { ctx := 0, page := 0, count := 1, epoch := 1 } } },
      (by decide +kernel), (by decide +kernel), (by decide +kernel), (by decide +kernel), (by decide +kernel)⟩,
   ⟨4294967297, mapped, (by decide +kernel), (by decide +kernel), (by decide +kernel), (by decide +kernel)⟩,
   ⟨2, { mapped with xlt := { mapped.xlt with shootCtx := 9 } }, (by decide +kernel), (by decide +kernel),
      (by decide +kernel), (by decide +kernel), (by decide +kernel)⟩,
   ⟨2, { mapped with lania := { mapped.lania with comp := .lost } }, (by decide +kernel), (by decide +kernel),
      (by decide +kernel), (by decide +kernel), (by decide +kernel)⟩,
   ⟨{ mapped with xlt := { mapped.xlt with shootQueue := [{ ctx := 0, page := 0, count := 1, epoch := 1 }] } },
      (by decide +kernel), (by decide +kernel), (by decide +kernel), (by decide +kernel), (by decide +kernel),
      (by decide +kernel)⟩,
   ⟨mapped, Or.inl rfl⟩,
   ⟨{ ctx := 0, page := 0, count := 1, epoch := 1 }, [],
      { versionWait with xlt := { versionWait.xlt with epoch := 1, shootOpen := [{ ctx := 0, page := 0, count := 1, epoch := 1 }] } },
      (by decide +kernel), (by decide +kernel)⟩,
   ⟨{ ctx := 0, page := 0, count := 1, epoch := 1 }, [],
      { mapped with xlt := { mapped.xlt with epoch := 1, shootOpen := [{ ctx := 0, page := 0, count := 1, epoch := 1 }] } },
      (by decide +kernel), (by decide +kernel)⟩⟩

/-- The hypotheses of ExtentCommandsTakeEffect can be met. -/
theorem test_extentCommandsTakeEffect_witness :
  (∃ (dict ver : Bool) (x plot owner ga gl role : Nat) (s : State), inService s = true ∧ extentBusy s = false ∧
    (dict = true ∨ (s.lania.up = true ∧ csOn s = true)) ∧ x < 0x5000 ∧ (s.ext x).state = .free ∧ extPresent s x =
    true ∧ extLocal s x = true ∧ extReserved s x = false ∧ setClosed s x = false ∧ assignBad s x plot owner ga role
    = false) ∧
  (∃ (dict : Bool) (x : Nat) (s : State), inService s = true ∧ extentBusy s = false ∧ (dict = true ∨ (s.lania.up =
    true ∧ csOn s = true)) ∧ x < 0x5000 ∧ (s.ext x).state = .assigned ∧ ((s.ext x).role = 0 ∨ ((s.ext x).role = 1 ∧
    reserveUsed s x = false)) ∧ (∀ kc ∈ s.fur.cores, ∀ l ∈ kc.2.cache, l.dirty = false)) ∧
  (∃ (dict : Bool) (x ga gl : Nat) (s : State), inService s = true ∧ extentBusy s = false ∧ (dict = true ∨
    (s.lania.up = true ∧ csOn s = true)) ∧ x < 0x5000 ∧ (s.ext x).state = .assigned ∧ (s.ext x).role = 0 ∧ ga ≠ 3 ∧
    grantWritten s gl = true) ∧
  (∃ (dict : Bool) (x : Nat) (s : State), inService s = true ∧ extentBusy s = false ∧ (dict = true ∨ (s.lania.up =
    true ∧ csOn s = true)) ∧ extTier x = 3 ∧ x < 0x5000 ∧ (s.ext x).state = .assigned ∧ (s.ext x).role < 2 ∧ (∀ kc ∈
    s.fur.cores, ∀ l ∈ kc.2.cache, l.dirty = false)) ∧
  (∃ (dict ver : Bool) (x plot owner ga gl role : Nat) (s : State) (o : CapOp), o =
    { ext := x, kind := 0, plot := plot, owner := owner, grantAll := ga, grantList := gl, role := role, versioned := ver }
    ∧ inService s = true ∧ extentBusy s = false ∧ (dict = true ∨ (s.lania.up = true ∧ csOn s = true)) ∧ extTier x =
    3 ∧ x < 0x5000 ∧ (s.ext x).held = false ∧ extPresent s x = true ∧ extReserved s x = false ∧ (role = 1 ∨
    copyElsewhere s x = false) ∧ assignBad s x plot owner ga role = false ∧ s.cxl.owned.contains x = false) ∧
  (∃ (dict ver : Bool) (x plot owner ga gl role : Nat) (s : State) (o : CapOp), o =
    { ext := x, kind := 1, plot := plot, owner := owner, grantAll := ga, grantList := gl, role := role, versioned := ver }
    ∧ inService s = true ∧ extentBusy s = false ∧ (dict = true ∨ (s.lania.up = true ∧ csOn s = true)) ∧ extTier x =
    3 ∧ x < 0x5000 ∧ (s.ext x).held = false ∧ extPresent s x = true ∧ extReserved s x = false ∧ (role = 1 ∨
    copyElsewhere s x = false) ∧ assignBad s x plot owner ga role = false ∧ s.cxl.owned.contains x = false) :=
  ⟨⟨false, true, 1, 0, 0xC1, 2, 0, 0, hub, (by decide +kernel), (by decide +kernel), Or.inr (by decide +kernel),
      (by decide +kernel), (by decide +kernel), (by decide +kernel), (by decide +kernel), (by decide +kernel),
      (by decide +kernel), (by decide +kernel)⟩,
   ⟨true, 0, mapped, (by decide +kernel), (by decide +kernel), Or.inl rfl, (by decide +kernel),
      (by decide +kernel), (by decide +kernel), (by decide +kernel)⟩,
   ⟨true, 0, 1, 0, mapped, (by decide +kernel), (by decide +kernel), Or.inl rfl, (by decide +kernel),
      (by decide +kernel), (by decide +kernel), (by decide +kernel), (by decide +kernel)⟩,
   ⟨true, 0x4000, heldTier3, (by decide +kernel), (by decide +kernel), Or.inl rfl, (by decide +kernel),
      (by decide +kernel), (by decide +kernel), (by decide +kernel), (by decide +kernel)⟩,
   ⟨true, false, 0x4001, 0, 0xC1, 0, 0, 0, heldTier3, _, rfl, (by decide +kernel), (by decide +kernel),
      Or.inl rfl, (by decide +kernel), (by decide +kernel), (by decide +kernel), (by decide +kernel),
      (by decide +kernel), Or.inr (by decide +kernel), (by decide +kernel), (by decide +kernel)⟩,
   ⟨true, false, 0x4001, 0, 0xC1, 0, 0, 0, heldTier3, _, rfl, (by decide +kernel), (by decide +kernel),
      Or.inl rfl, (by decide +kernel), (by decide +kernel), (by decide +kernel), (by decide +kernel),
      (by decide +kernel), Or.inr (by decide +kernel), (by decide +kernel), (by decide +kernel)⟩⟩

/-- The hypotheses of ExtentsDrainScrubAndMove can be met. -/
theorem test_extentsDrainScrubAndMove_witness :
  (∃ (x : Nat) (s : State), (s.ext x).state = .draining ∧ (s.ext x).drainExpired = false ∧ elapsed s (s.ext
    x).drainSince (1000 * cfg 0x602001 1000 s) = true) ∧
  (∃ (x : Nat) (s : State), (s.ext x).state = .draining ∧ inflight s x = 0 ∧ (s.ext x).releasing = false) ∧
  (∃ (x : Nat) (s : State), (s.ext x).state = .draining ∧ inflight s x = 0 ∧ (s.ext x).releasing = true ∧
    ((s.cxl.ops.any fun o => o.ext == x) = false)) ∧
  (∃ (x b : Nat) (s : State), s.power.paused = false ∧ (s.ext x).state = .scrubbing ∧ ((extTier x = 2 → (s.cxlPort
    (extCxl x)).st = 1)) ∧ ((extTier x = 3 → tier3Up s = true)) ∧ extBase x = some b) ∧
  (∃ (x : Nat) (o : CapOp) (table : Option DevTable) (s u : State) (d : DevTable), ((s.cxl.ops.find? fun o => o.ext
    == x) = some o) ∧ o.kind = 0 ∧ (u = (table.map fun y => tableArrives x y s).getD s) ∧ d = u.cxl.kept.getD x {} ∧
    (o.role = 1 ∨ copyElsewhere u x = false)) ∧
  (∃ (x : Nat) (o : CapOp) (table : Option DevTable) (s u : State) (d : DevTable), ((s.cxl.ops.find? fun o => o.ext
    == x) = some o) ∧ o.kind = 1 ∧ o.role = 0 ∧ o.versioned = true ∧ (u = (table.map fun y => tableArrives x y
    s).getD s) ∧ d = u.cxl.kept.getD x {} ∧ copyElsewhere u x = false) ∧
  (∃ (x : Nat) (o : CapOp) (table : Option DevTable) (s : State), ((s.cxl.ops.find? fun o => o.ext == x) = some o)
    ∧ o.kind = 2) ∧
  (∃ (x : Nat) (o : CapOp) (table : Option DevTable) (s : State), ((s.cxl.ops.find? fun o => o.ext == x) = some o)
    ∧ o.kind ≠ 2) ∧
  (∃ (x : Nat) (s : State), (s.ext x).held = true ∧ ((s.pool.waiting.filter fun w => paExt s w.pa == some x) = [])
    ∧ (s.ext x).publishing = []) :=
  ⟨⟨0,
      { mapped with pool := { mapped.pool with exts := [(0, { state := .draining, plot := 0, owner := 0xC1 })] } },
      (by decide +kernel), (by decide +kernel), (by decide +kernel)⟩,
   ⟨0,
      { mapped with pool := { mapped.pool with exts := [(0, { state := .draining, plot := 0, owner := 0xC1 })] } },
      (by decide +kernel), (by decide +kernel), (by decide +kernel)⟩,
   ⟨0x4000,
      { heldTier3 with pool := { heldTier3.pool with exts := [(0x4000, { state := .draining, held := true, releasing := true, plot := 0 })] } },
      (by decide +kernel), (by decide +kernel), (by decide +kernel), (by decide +kernel)⟩,
   ⟨0, 0,
      { mapped with mem := [(5, 7)], pool := { mapped.pool with exts := [(0, { state := .scrubbing, plot := 0, owner := 0xC1 })] } },
      (by decide +kernel), (by decide +kernel), (by decide +kernel), (by decide +kernel), (by decide +kernel)⟩,
   ⟨0x4001, { ext := 0x4001, kind := 0, plot := 0, owner := 0xC1 }, some
      { latest := 2, versions := [1, 2], data := [(0x400200000000, [7])] },
      { heldTier3 with cxl := { heldTier3.cxl with ops := [{ ext := 0x4001, kind := 0, plot := 0, owner := 0xC1 }] } },
      _, _, (by decide +kernel), (by decide +kernel), rfl, rfl, Or.inr (by decide +kernel)⟩,
   ⟨0x4001, { ext := 0x4001, kind := 1, plot := 0, owner := 0xC1, versioned := true }, some
      { latest := 2, versions := [1, 2], data := [(0x400200000000, [7])] },
      { heldTier3 with cxl := { heldTier3.cxl with ops := [{ ext := 0x4001, kind := 1, plot := 0, owner := 0xC1, versioned := true }] } },
      _, _, (by decide +kernel), (by decide +kernel), (by decide +kernel), (by decide +kernel), rfl, rfl,
      (by decide +kernel)⟩,
   ⟨0x4000, { ext := 0x4000, kind := 2 }, none,
      { heldTier3 with cxl := { heldTier3.cxl with ops := [{ ext := 0x4000, kind := 2 }] } }, (by decide +kernel),
      (by decide +kernel)⟩,
   ⟨0x4001, { ext := 0x4001, kind := 0, plot := 0, owner := 0xC1 }, none,
      { heldTier3 with cxl := { heldTier3.cxl with ops := [{ ext := 0x4001, kind := 0, plot := 0, owner := 0xC1 }] } },
      (by decide +kernel), (by decide +kernel)⟩,
   ⟨0x4000, heldTier3, (by decide +kernel), (by decide +kernel), (by decide +kernel)⟩⟩

/-- The hypotheses of VersionCommands can be met. -/
theorem test_versionCommands_witness :
  (∃ (nd x v n : Nat) (s : State), s.lania.up = true ∧ csOn s = true ∧ nd < 256 ∧ x < 65536 ∧ v < 2 ^ 48 ∧ nodePlot
    s nd = some n ∧ (s.ext x).versioned = true ∧ (s.ext x).state ≠ .draining ∧ poolChecks s x (workFrame s x 0) n
    (lepOf (nodeOf s nd)) false true = none ∧ (((s.ext x).versions.any fun w => w.num == v) = true)) ∧
  (∃ (nd x v n : Nat) (s : State), s.lania.up = true ∧ csOn s = true ∧ nd < 256 ∧ x < 65536 ∧ 0 < v ∧ v ≤ (s.ext
    x).latest ∧ (s.ext x).latest < 2 ^ 48 ∧ nodePlot s nd = some n ∧ (s.ext x).versioned = true ∧ (s.ext x).state ≠
    .draining ∧ poolChecks s x (workFrame s x 0) n (lepOf (nodeOf s nd)) false true = none) ∧
  (∃ (nd x v n : Nat) (s u : State), s.lania.up = true ∧ csOn s = true ∧ nd < 256 ∧ x < 65536 ∧ v = (s.ext
    x).latest + 1 ∧ v < 2 ^ 48 ∧ nodePlot s nd = some n ∧ (s.ext x).versioned = true ∧ (s.ext x).state ≠ .draining ∧
    poolChecks s x (workFrame s x 0) n (lepOf (nodeOf s nd)) false true = none ∧ u = meetExt x s ∧ extOrphaned u x =
    false) ∧
  (∃ (nd x v n : Nat) (s : State), s.lania.up = true ∧ csOn s = true ∧ nd < 256 ∧ x < 65536 ∧ v < 2 ^ 48 ∧ nodePlot
    s nd = some n ∧ (s.ext x).versioned = true ∧ (s.ext x).state ≠ .draining ∧ poolChecks s x (workFrame s x 0) n
    (lepOf (nodeOf s nd)) false true = none ∧ (((s.ext x).versions.any fun w => w.num == v) = true)) ∧
  (∃ (x v nd : Nat) (rest : List (VerSource × Nat)) (s : State), (s.ext x).publishing = (.reg nd, v) :: rest ∧
    publishSettled s x v = true) ∧
  (∃ (x v : Nat) (src : VerSource) (rest : List (VerSource × Nat)) (s : State), (s.ext x).publishing = (src, v) ::
    rest ∧ publishSettled s x v = false) :=
  ⟨⟨0xC1, 0, 1, 0, versioned, (by decide +kernel), (by decide +kernel), (by decide +kernel), (by decide +kernel),
      (by decide +kernel), (by decide +kernel), (by decide +kernel), (by decide +kernel), (by decide +kernel),
      (by decide +kernel)⟩,
   ⟨0xC1, 0, 1, 0, versioned, (by decide +kernel), (by decide +kernel), (by decide +kernel), (by decide +kernel),
      (by decide +kernel), (by decide +kernel), (by decide +kernel), (by decide +kernel), (by decide +kernel),
      (by decide +kernel), (by decide +kernel)⟩,
   ⟨0xC1, 0, _, 0,
      { versioned with pool := { versioned.pool with exts := [(0, { state := .assigned, plot := 0, owner := 0xC1, versioned := true, latest := 16, versions := [{ num := 2, openers := [0x1C1] }, { num := 9, openers := [] }] })] } },
      _, (by decide +kernel), (by decide +kernel), (by decide +kernel), (by decide +kernel), rfl,
      (by decide +kernel), (by decide +kernel), (by decide +kernel), (by decide +kernel), (by decide +kernel), rfl,
      (by decide +kernel)⟩,
   ⟨0xC1, 0, 1, 0, versioned, (by decide +kernel), (by decide +kernel), (by decide +kernel), (by decide +kernel),
      (by decide +kernel), (by decide +kernel), (by decide +kernel), (by decide +kernel), (by decide +kernel),
      (by decide +kernel)⟩,
   ⟨0, 1, 0xC1, [], versioned, (by decide +kernel), (by decide +kernel)⟩,
   ⟨0, 1, .reg 0xC1, [],
      { versioned with pool := { versioned.pool with waiting := [{ req := { op := 0x20 }, pa := 0, what := .frameCopy 0, since := 0, epoch := 0, latest := 0 }] } },
      (by decide +kernel), (by decide +kernel)⟩⟩

/-- The hypotheses of HarrowMovesPages can be met. -/
theorem test_harrowMovesPages_witness :
  (∃ (x i f : Nat) (s : State), s.lania.up = true ∧ csOn s = true ∧ (s.ext x).state = .assigned ∧ (s.ext x).role =
    0 ∧ extTier x ≠ 3 ∧ i < 4096 ∧ f = s.pool.migTarget ∧ migrationTarget s x i false f = true ∧ pageBusy s x i =
    false ∧ pageOrphaned s x i = false ∧ ((s.pool.migrations.any fun m => (m.ext == x && m.page == i) || m.target ==
    f) = false)) ∧
  (∃ (x i : Nat) (s : State), s.lania.up = true ∧ csOn s = true ∧ ((s.ext x).state ≠ .assigned ∨ (s.ext x).role ≠ 0
    ∨ extTier x = 3 ∨ 4096 ≤ i ∨ migrationTarget s x i false (s.pool.migTarget) = false ∨ pageBusy s x i = true ∨
    pageOrphaned s x i = true)) ∧
  (∃ (x i f : Nat) (s : State), s.lania.up = true ∧ csOn s = true ∧ (s.ext x).state = .assigned ∧ (s.ext x).role =
    0 ∧ extTier x ≠ 3 ∧ i < 4096 ∧ f = homeFrame x i ∧ migrationTarget s x i true f = true ∧ pageBusy s x i = false
    ∧ pageOrphaned s x i = false ∧ ((s.pool.migrations.any fun m => (m.ext == x && m.page == i) || m.target == f) =
    false)) ∧
  (∃ (x i : Nat) (s : State), s.lania.up = true ∧ csOn s = true ∧ ((s.ext x).state ≠ .assigned ∨ (s.ext x).role ≠ 0
    ∨ extTier x = 3 ∨ 4096 ≤ i ∨ migrationTarget s x i true (homeFrame x i) = false ∨ pageBusy s x i = true ∨
    pageOrphaned s x i = true)) ∧
  (∃ (m : Migration) (rest : List Migration) (s : State), s.power.paused = false ∧ s.pool.migrations = m :: rest ∧
    pageBusy s m.ext m.page = false ∧ pageOrphaned s m.ext m.page = false ∧ migrationTarget s m.ext m.page m.home
    m.target = true ∧ (∀ kv ∈ s.coh.filter, kv.1 / 512 ≠ workFrame s m.ext m.page) ∧ workFrame s m.ext m.page ≠
    m.target ∧ Mem.Wf s.mem) ∧
  (∃ (m : Migration) (rest : List Migration) (s : State), s.power.paused = false ∧ s.pool.migrations = m :: rest ∧
    pageBusy s m.ext m.page = false ∧ (pageOrphaned s m.ext m.page = true ∨ migrationTarget s m.ext m.page m.home
    m.target = false)) ∧
  (∃ (x i : Nat) (s : State), copyAsked s x i = []) ∧
  (∃ (x i v f : Nat) (s : State), copyAsked s x i = [v] ∧ ((s.pool.waiting.any fun w => opWrites w.req.op && paExt
    s w.pa == some x && decide (w.latest < v) && w.pa / frameBytes == workFrame s x i) = false) ∧ (∀ kv ∈
    s.coh.filter, kv.1 / 512 ≠ workFrame s x i) ∧ copyFor s x i (some v) = some v ∧ copyTarget s x i = some f ∧ f ≠
    workFrame s x i ∧ Mem.Wf s.mem) ∧
  (∃ (s : State), elapsed s s.pool.decaySince (1000000 * cfg 0x603001 1000 s) = true ∧ cfg 0x603006 1 s = 0) ∧
  (∃ (s : State), elapsed s s.pool.decaySince (1000000 * cfg 0x603001 1000 s) = true) ∧
  (∃ (s : State), elapsed s s.pool.decaySince (1000000 * cfg 0x603001 1000 s) = false) ∧
  (∃ (v k : Nat) (s : State), s.lania.up = true ∧ csOn s = true ∧ v < 1024 ∧ k = (v + 1024 - s.pool.nomCons) % 1024
    ∧ v ≠ s.pool.nomCons ∧ k ≤ s.pool.nomCount) :=
  ⟨⟨0, 1, _, reserved, (by decide +kernel), (by decide +kernel), (by decide +kernel), (by decide +kernel),
      (by decide +kernel), (by decide +kernel), rfl, (by decide +kernel), (by decide +kernel), (by decide +kernel),
      (by decide +kernel)⟩,
   ⟨1, 1, reserved, (by decide +kernel), (by decide +kernel), (by decide +kernel)⟩,
   ⟨0, 1, _, { reserved with pool := { reserved.pool with frames := [(1, .free), (0x2000000, .working 0 1)] } },
      (by decide +kernel), (by decide +kernel), (by decide +kernel), (by decide +kernel), (by decide +kernel),
      (by decide +kernel), rfl, (by decide +kernel), (by decide +kernel), (by decide +kernel), (by decide +kernel)⟩,
   ⟨1, 1, reserved, (by decide +kernel), (by decide +kernel), (by decide +kernel)⟩,
   ⟨{ ext := 0, page := 1, target := 0x2000000, home := false }, [],
      { reserved with pool := { reserved.pool with migrations := [{ ext := 0, page := 1, target := 0x2000000, home := false }] } },
      (by decide +kernel), (by decide +kernel), (by decide +kernel), (by decide +kernel), (by decide +kernel),
      (by decide +kernel), (by decide +kernel), (by decide +kernel)⟩,
   ⟨{ ext := 0, page := 1, target := 5, home := false }, [],
      { reserved with pool := { reserved.pool with migrations := [{ ext := 0, page := 1, target := 5, home := false }] } },
      (by decide +kernel), (by decide +kernel), (by decide +kernel), (by decide +kernel)⟩,
   ⟨0, 1, mapped, (by decide +kernel)⟩,
   ⟨0, 1, 1, 0x2000000,
      { versioned with pool := { versioned.pool with exts := versioned.pool.exts ++ reserved.pool.exts.tail, waiting := [{ req := {}, pa := 65536, what := .copyPage 0 1, since := 0, epoch := 0, latest := 1, copy := some 1 }] }, cxl := reserved.cxl },
      (by decide +kernel), (by decide +kernel), (by decide +kernel), (by decide +kernel), (by decide +kernel),
      (by decide +kernel), (by decide +kernel)⟩,
   ⟨{ hub with dict := { hub.dict with od := [(0x200101, 1), (0x603006, 0)] } }, (by decide +kernel),
      (by decide +kernel)⟩,
   ⟨hub, (by decide +kernel)⟩,
   ⟨{ hub with pool := { hub.pool with decaySince := hub.now } }, (by decide +kernel)⟩,
   ⟨1, 1, { hub with pool := { hub.pool with nomCount := 1 } }, (by decide +kernel), (by decide +kernel),
      (by decide +kernel), (by decide +kernel), (by decide +kernel), (by decide +kernel)⟩⟩

/-- The hypotheses of PoolLossAndRetirement can be met. -/
theorem test_poolLossAndRetirement_witness :
  (∃ (line n x : Nat) (s : State), s.power.paused = false ∧ line * 128 < 0x010000000000 ∧ extOf (line * 128) = some
    x ∧ 0 < n ∧ s.pool.corrected.getD (line / 512) 0 + n ≤ cfg 0x605002 16 s) ∧
  (∃ (line n x : Nat) (s : State), s.power.paused = false ∧ line * 128 < 0x010000000000 ∧ extOf (line * 128) = some
    x) ∧
  (∃ (f st : Nat) (s : State), s.pool.retiring.find f = some st ∧ (∀ kv ∈ s.coh.filter, kv.1 / 512 ≠ f)) ∧
  (∃ (q b since : Nat) (w : PoolWait) (rest : List PoolWait) (s : State), s.pool.waiting = w :: rest ∧ w.what =
    .block b ∧ cxlOf s (b * 4096) = q ∧ s.pool.fills.find b = some since ∧ elapsed s since (1000 * cfg 0x602001 1000
    s) = true ∧ elapsed s w.since (1000 * cfg 0x602001 1000 s) = true) ∧
  (∃ (q : Nat) (s : State), (∀ w ∈ s.pool.waiting, elapsed s w.since (1000 * cfg 0x602001 1000 s) = false)) ∧
  (∃ (q : Nat) (s : State), q < 2 ∧ (s.cxlPort q).st = 1) ∧
  (∃ (q : Nat) (s : State), (q = 2 ∨ q = 3) ∧ (s.cxlPort q).st = 1) ∧
  (∃ (q : Nat) (s : State), (s.cxlPort q).st ≠ 1) ∧
  (∃ (q : Nat) (d : CxlDev) (s : State), (s.cxlPort q).lost = true ∧ (s.cxlPort q).st ≠ 2 ∧ elapsed s (s.cxlPort
    q).tried 100000000 = true ∧ takePad 8 d.serial ≠ (s.cxlPort q).serial) ∧
  (∃ (q : Nat) (s : State), (s.cxlPort q).lost = true ∧ (s.cxlPort q).st ≠ 2 ∧ elapsed s (s.cxlPort q).tried
    100000000 = true) ∧
  (∃ (q : Nat) (d : CxlDev) (s : State), q < 2 ∧ (s.cxlPort q).lost = true ∧ (s.cxlPort q).st ≠ 2 ∧ elapsed s
    (s.cxlPort q).tried 100000000 = true ∧ takePad 8 d.serial = (s.cxlPort q).serial ∧ d.powerLoss = false) :=
  ⟨⟨4, 2, 0, hub, (by decide +kernel), (by decide +kernel), (by decide +kernel), (by decide +kernel),
      (by decide +kernel)⟩,
   ⟨4, 0, 0, hub, (by decide +kernel), (by decide +kernel), (by decide +kernel)⟩,
   ⟨4, 8, { hub with pool := { hub.pool with retiring := [(4, 8)] } }, (by decide +kernel), (by decide +kernel)⟩,
   ⟨0, 0x20000000, 0,
      { req := { via := .host, op := 1 }, pa := 0x20000000000, what := .block 0x20000000, since := 0, epoch := 0 },
      [],
      { hub with pool := { hub.pool with waiting := [{ req := { via := .host, op := 1 }, pa := 0x20000000000, what := .block 0x20000000, since := 0, epoch := 0 }], fills := [(0x20000000, 0)] } },
      (by decide +kernel), (by decide +kernel), (by decide +kernel), (by decide +kernel), (by decide +kernel),
      (by decide +kernel)⟩,
   ⟨0, hub, (by decide +kernel)⟩,
   ⟨0, { hub with cxl := { hub.cxl with ports := [(0, { st := 1, capacity := 2 ^ 40 })] } }, (by decide +kernel),
      (by decide +kernel)⟩,
   ⟨2, heldTier3, (by decide +kernel), (by decide +kernel)⟩,
   ⟨0, hub, (by decide +kernel)⟩,
   ⟨0, { serial := List.replicate 8 1, capacity := 2 ^ 40, powerLoss := false },
      { hub with cxl := { hub.cxl with ports := [(0, { st := 0, lost := true, capacity := 2 ^ 40 })] } },
      (by decide +kernel), (by decide +kernel), (by decide +kernel), (by decide +kernel)⟩,
   ⟨0, { hub with cxl := { hub.cxl with ports := [(0, { st := 0, lost := true, capacity := 2 ^ 40 })] } },
      (by decide +kernel), (by decide +kernel), (by decide +kernel)⟩,
   ⟨0, { serial := List.replicate 8 0, capacity := 2 ^ 40, powerLoss := false },
      { hub with cxl := { hub.cxl with ports := [(0, { st := 0, lost := true, capacity := 2 ^ 40 })] } },
      (by decide +kernel), (by decide +kernel), (by decide +kernel), (by decide +kernel), (by decide +kernel),
      (by decide +kernel)⟩⟩

/-- The hypotheses of HostCoherentTransactions can be met. -/
theorem test_hostCoherentTransactions_witness :
  (∃ (line : Nat) (s : State), s.lania.up = true ∧ s.coh.walkSince = none ∧ poolPlace s (line * 128) 0 (nodeOf s
    0xC1) false = .ok (.at (line * 128) none) ∧ (snoopSt s line = none ∨ snoopSt s line = some .shared) ∧
    s.coh.hostWaits = [] ∧ hostPool none line (accepted (hostReq s) (line * 128) s) = .none ∧ s.coh.filter.length <
    2097152) ∧
  (∃ (line st : Nat) (s : State), s.lania.up = true ∧ s.coh.walkSince = none ∧ poolPlace s (line * 128) 0 (nodeOf s
    0xC1) false = .error st ∧ s.coh.hostWaits = []) ∧
  (∃ (line : Nat) (s : State), s.lania.up = true ∧ s.coh.walkSince = none ∧ poolPlace s (line * 128) 0 (nodeOf s
    0xC1) true = .ok (.at (line * 128) none) ∧ (snoopSt s line = none ∨ snoopSt s line = some .shared) ∧
    s.coh.hostWaits = [] ∧ hostPool none line (accepted (hostReq s) (line * 128) s) = .none ∧ s.coh.filter.length <
    2097152) ∧
  (∃ (line st : Nat) (s : State), s.lania.up = true ∧ s.coh.walkSince = none ∧ poolPlace s (line * 128) 0 (nodeOf s
    0xC1) true = .error st ∧ s.coh.hostWaits = []) ∧
  (∃ (line : Nat) (data : List Byte) (s : State) (r : Req), s.lania.up = true ∧ s.coh.walkSince = none ∧ (snoopSt s
    line = some .exclusive ∨ snoopSt s line = some .modified) ∧ ((s.coh.snoops.any fun q => q.1 == line) = false) ∧
    s.coh.hostWaits = [] ∧ lineRevoked s line = false ∧ r =
    { via := .unit, op := Op.write, h := { len := 128, tag := 2 ^ 16, src := nodeOf s 0xC1, dst := nodeOf s 0xC0 }, data := takePad 128 data }
    ∧ obstacle none (acceptRec r (line * 128) none s) (accepted r (line * 128)
    { s with coh := { s.coh with filter := s.coh.filter.erase line }, pool := { s.pool with waiting := [] } }) =
    .none ∧ paSlot s (line * 128) = none ∧ s.coll.unitOps.find 65536 = none) ∧
  (∃ (line : Nat) (data : List Byte) (s : State), s.lania.up = true ∧ s.coh.walkSince = none ∧ (snoopSt s line =
    some .exclusive ∨ snoopSt s line = some .modified) ∧ ((s.coh.snoops.any fun q => q.1 == line) = false) ∧
    s.coh.hostWaits = [] ∧ lineRevoked s line = true) ∧
  (∃ (line : Nat) (s : State), s.lania.up = true ∧ s.coh.walkSince = none ∧ (snoopSt s line = some .shared ∨
    snoopSt s line = some .exclusive ∨ snoopSt s line = some .modified) ∧ ((s.coh.snoops.any fun q => q.1 == line) =
    false) ∧ s.coh.hostWaits = []) :=
  ⟨⟨3, mapped, (by decide +kernel), (by decide +kernel), (by decide +kernel), (by decide +kernel),
      (by decide +kernel), (by decide +kernel), (by decide +kernel)⟩,
   ⟨3, St.protection, hub, (by decide +kernel), (by decide +kernel), (by decide +kernel), (by decide +kernel)⟩,
   ⟨3, mapped, (by decide +kernel), (by decide +kernel), (by decide +kernel), (by decide +kernel),
      (by decide +kernel), (by decide +kernel), (by decide +kernel)⟩,
   ⟨3, St.protection, hub, (by decide +kernel), (by decide +kernel), (by decide +kernel), (by decide +kernel)⟩,
   ⟨3, List.replicate 128 7,
      { mapped with coh := { mapped.coh with filter := [(3, { st := .exclusive, order := 0 })] } }, _,
      (by decide +kernel), (by decide +kernel), (by decide +kernel), (by decide +kernel), (by decide +kernel),
      (by decide +kernel), rfl, (by decide +kernel), (by decide +kernel), (by decide +kernel)⟩,
   ⟨3, List.replicate 128 7,
      { mapped with pool := { mapped.pool with exts := [(0, { state := .draining, plot := 0, owner := 0xC1 })] }, coh := { mapped.coh with filter := [(3, { st := .exclusive, order := 0 })] } },
      (by decide +kernel), (by decide +kernel), (by decide +kernel), (by decide +kernel), (by decide +kernel),
      (by decide +kernel)⟩,
   ⟨3, { mapped with coh := { mapped.coh with filter := [(3, { st := .exclusive, order := 0 })] } },
      (by decide +kernel), (by decide +kernel), (by decide +kernel), (by decide +kernel), (by decide +kernel)⟩⟩

/-- The hypotheses of SnoopsAndOrphans can be met. -/
theorem test_snoopsAndOrphans_witness :
  (∃ (line k : Nat) (d : List Byte) (s : State) (r : Req), ((s.coh.snoops.find? fun q => q.1 == line) = some (line,
    true, k)) ∧ r =
    { via := .unit, op := Op.write, h := { len := 128, tag := 2 ^ 16, src := nodeOf s 0xC1, dst := nodeOf s 0xC0 }, data := takePad 128 d }
    ∧ obstacle none (acceptRec r (line * 128) none s) (accepted r (line * 128)
    { s with coh := { s.coh with filter := s.coh.filter.erase line }, pool := { s.pool with waiting := [] } }) =
    .none ∧ paSlot s (line * 128) = none ∧ s.coll.unitOps.find 65536 = none ∧ s.coh.hostWaits = []) ∧
  (∃ (line k : Nat) (e : Snoop) (s : State), ((s.coh.snoops.find? fun q => q.1 == line) = some (line, false, k)) ∧
    s.coh.filter.find line = some e ∧ s.coh.hostWaits = []) ∧
  (∃ (line k : Nat) (s : State), ((s.coh.snoops.find? fun q => q.1 == line) = some (line, true, k)) ∧
    s.coh.hostWaits = []) ∧
  (∃ (line k : Nat) (inv : Bool) (s : State), ((s.coh.snoops.find? fun q => q.1 == line) = some (line, inv, k)) ∧
    elapsed s k (1000 * cfg 0x631002 20 s) = true ∧ s.lania.comp ≠ .lost ∧ s.xlt.faults = [] ∧ s.xlt.deferred = []) ∧
  (∃ (line k : Nat) (inv : Bool) (s : State), ((s.coh.snoops.find? fun q => q.1 == line) = some (line, inv, k)) ∧
    elapsed s k (1000 * cfg 0x631002 20 s) = false) ∧
  (∃ (k : Nat) (s : State), s.coh.walkSince = some k) ∧
  (∃ (x b line : Nat) (m : Bool) (s : State), inService s = true ∧ x ≤ 0x4FFF ∧ extBase x = some b ∧ line < 2 ^ 21
    ∧ snoopSt s (b / 128 + line) = some (.orphaned m)) ∧
  (∃ (x b line : Nat) (m : Bool) (d : List Byte) (s : State) (r : Req), inService s = true ∧ x ≤ 0x4FFF ∧ extBase x
    = some b ∧ line < 2 ^ 21 ∧ snoopSt s (b / 128 + line) = some (.orphaned m) ∧ r =
    { via := .unit, op := Op.write, h := { len := 128, tag := 2 ^ 16, src := nodeOf s 0xC1, dst := nodeOf s 0xC0 }, data := takePad 128 d }
    ∧ obstacle none (acceptRec r ((b / 128 + line) * 128) none s) (accepted r ((b / 128 + line) * 128)
    { s with coh := { s.coh with filter := s.coh.filter.erase (b / 128 + line) }, pool := { s.pool with waiting := [] } })
    = .none ∧ paSlot s ((b / 128 + line) * 128) = none ∧ s.coll.unitOps.find 65536 = none) :=
  ⟨⟨3, 100, List.replicate 128 7,
      { mapped with coh := { mapped.coh with filter := [(3, { st := .exclusive, order := 0 })], snoops := [(3, true, 100)] } },
      _, (by decide +kernel), rfl, (by decide +kernel), (by decide +kernel), (by decide +kernel),
      (by decide +kernel)⟩,
   ⟨3, 100, { st := .exclusive, order := 0 },
      { mapped with coh := { mapped.coh with filter := [(3, { st := .exclusive, order := 0 })], snoops := [(3, false, 100)] } },
      (by decide +kernel), (by decide +kernel), (by decide +kernel)⟩,
   ⟨3, 100,
      { mapped with coh := { mapped.coh with filter := [(3, { st := .shared, order := 0 })], snoops := [(3, true, 100)] } },
      (by decide +kernel), (by decide +kernel)⟩,
   ⟨3, 100, true,
      { mapped with coh := { mapped.coh with filter := [(3, { st := .shared, order := 0 })], snoops := [(3, true, 100)] } },
      (by decide +kernel), (by decide +kernel), (by decide +kernel), (by decide +kernel), (by decide +kernel)⟩,
   ⟨3, 10000000000, true, { mapped with coh := { mapped.coh with snoops := [(3, true, 10000000000)] } },
      (by decide +kernel), (by decide +kernel)⟩,
   ⟨0,
      { mapped with coh := { mapped.coh with filter := [(3, { st := .shared, order := 0 }), (4, { st := .modified, order := 1 })], walkSince := some 0 } },
      (by decide +kernel)⟩,
   ⟨0, 0, 3, true,
      { mapped with coh := { mapped.coh with filter := [(3, { st := .orphaned true, order := 0 })] } },
      (by decide +kernel), (by decide +kernel), (by decide +kernel), (by decide +kernel), (by decide +kernel)⟩,
   ⟨0, 0, 3, true, List.replicate 128 9,
      { mapped with coh := { mapped.coh with filter := [(3, { st := .orphaned true, order := 0 })] } }, _,
      (by decide +kernel), (by decide +kernel), (by decide +kernel), (by decide +kernel), (by decide +kernel), rfl,
      (by decide +kernel), (by decide +kernel), (by decide +kernel)⟩⟩

/-- The hypotheses of SequencerOpcodesComplete can be met. -/
theorem test_sequencerOpcodesComplete_witness :
  (∃ (c r : Nat) (p : Prog) (d : Desc) (s : State), ready s c r = some (p, d) ∧ d.op = 0x00) ∧
  (∃ (c r : Nat) (p : Prog) (d : Desc) (s : State), ready s c r = some (p, d) ∧ d.op = 0x01 ∧ (s.thread c r).incs ≠
    []) ∧
  (∃ (c r : Nat) (p : Prog) (d : Desc) (s : State), ready s c r = some (p, d) ∧ d.op = 0x01 ∧ (s.thread c r).incs =
    []) ∧
  (∃ (c r : Nat) (p : Prog) (d : Desc) (s : State), ready s c r = some (p, d) ∧ d.op = 0x02) ∧
  (∃ (c r : Nat) (p : Prog) (d : Desc) (s : State) (x : U64) (y : Thread), ready s c r = some (p, d) ∧ d.op = 0x03
    ∧ opdIx d.opa ≠ 0 ∧ x = xreg (s.thread c r).xs (opdIx d.opa) - 1 ∧ (s.thread c r).xs.length = 15 ∧ y =
    { movedOn s c r with xs := listSet (s.thread c r).xs (opdIx d.opa - 1) x }) ∧
  (∃ (c r : Nat) (p : Prog) (d : Desc) (s : State), ready s c r = some (p, d) ∧ d.op = 0x03 ∧ opdIx d.opa = 0) ∧
  (∃ (c r : Nat) (p : Prog) (d : Desc) (s : State), ready s c r = some (p, d) ∧ d.op = 0x04) ∧
  (∃ (c r a b : Nat) (p : Prog) (d : Desc) (s : State), ready s c r = some (p, d) ∧ d.op = 0x05 ∧ a = (xreg
    (s.thread c r).xs (opdIx d.opa)).toNat ∧ b = (if opdIx d.opb = 0 then d.imm64 else xreg (s.thread c r).xs (opdIx
    d.opb)).toNat) ∧
  (∃ (c r a b v : Nat) (p : Prog) (d : Desc) (s : State), ready s c r = some (p, d) ∧ d.op = 0x06 ∧ a = (xreg
    (s.thread c r).xs (opdIx d.opa)).toNat ∧ b = (if opdIx d.opb = 0 then d.imm64 else xreg (s.thread c r).xs (opdIx
    d.opb)).toNat ∧ ((d.sub = 0 ∧ v = b) ∨ (d.sub = 1 ∧ v = (a + b) % 2 ^ 64) ∨ (d.sub = 2 ∧ v = (a + (2 ^ 64 - b))
    % 2 ^ 64) ∨ (d.sub = 3 ∧ v = a * b % 2 ^ 64) ∨ (d.sub = 6 ∧ v = a &&& b) ∨ (d.sub = 7 ∧ v = min a b) ∨ (d.sub =
    4 ∧ v = if b < 64 then a * 2 ^ b % 2 ^ 64 else 0) ∨ (d.sub = 5 ∧ v = if b < 64 then a / 2 ^ b else 0) ∨ (d.sub =
    8 ∧ d.imm2 < 64 ∧ d.imm3 < 64 ∧ v = a / 2 ^ d.imm2 % 2 ^ d.imm3))) ∧
  (∃ (c r : Nat) (p : Prog) (d : Desc) (s : State), ready s c r = some (p, d) ∧ d.op = 0x0B) ∧
  (∃ (c r : Nat) (p : Prog) (d : Desc) (s : State), ready s c r = some (p, d) ∧ d.op = 0x0D) :=
  ⟨⟨0, 0, progD (dsc 0), dsc 0, issuing (dsc 0), (by decide +kernel), (by decide +kernel)⟩,
   ⟨0, 0, progD (dsc 1), dsc 1, busy (dsc 1), (by decide +kernel), (by decide +kernel), (by decide +kernel)⟩,
   ⟨0, 0, progD (dsc 1), dsc 1, issuing (dsc 1), (by decide +kernel), (by decide +kernel), (by decide +kernel)⟩,
   ⟨0, 0, progD (dsc 2), dsc 2, issuing (dsc 2), (by decide +kernel), (by decide +kernel)⟩,
   ⟨0, 0, progD { dsc 3 with opa := 0x100 }, { dsc 3 with opa := 0x100 }, issuing { dsc 3 with opa := 0x100 }, _,
      _, (by decide +kernel), (by decide +kernel), (by decide +kernel), rfl, (by decide +kernel), rfl⟩,
   ⟨0, 0, progD (dsc 3), dsc 3, issuing (dsc 3), (by decide +kernel), (by decide +kernel), (by decide +kernel)⟩,
   ⟨0, 0, progD (dsc 4), dsc 4, issuing (dsc 4), (by decide +kernel), (by decide +kernel)⟩,
   ⟨0, 0, 0, 7, progD { dsc 5 with imm64 := 7, sub := 2 }, { dsc 5 with imm64 := 7, sub := 2 }, issuing
      { dsc 5 with imm64 := 7, sub := 2 }, (by decide +kernel), (by decide +kernel), (by decide +kernel),
      (by decide +kernel)⟩,
   ⟨0, 0, 0, 7, 7, progD { dsc 6 with imm64 := 7, opd := 0x100 }, { dsc 6 with imm64 := 7, opd := 0x100 },
      issuing { dsc 6 with imm64 := 7, opd := 0x100 }, (by decide +kernel), (by decide +kernel),
      (by decide +kernel), (by decide +kernel), (by decide +kernel)⟩,
   ⟨0, 0, progD (dsc 0x0B), dsc 0x0B, issuing (dsc 0x0B), (by decide +kernel), (by decide +kernel)⟩,
   ⟨0, 0, progD (dsc 0x0D), dsc 0x0D, issuing (dsc 0x0D), (by decide +kernel), (by decide +kernel)⟩⟩

/-- The hypotheses of DescriptorRunsOnIssue can be met. -/
theorem test_descriptorRunsOnIssue_witness :
  (∃ (i : Instr) (op : Nat) (upset : Bool) (j : Job) (s : State), issueOf i = some (op, j.c, j.t, upset) ∧
    opRegister op = false ∧ Issues s op upset j) ∧
  (∃ (i : Instr) (op : Nat) (upset : Bool) (j : Job) (s : State), issueOf i = some (op, j.c, j.t, upset) ∧
    opRegister op = false ∧ ready s j.c j.t = some (j.prog, j.d) ∧ j.d.op = op ∧ IsNew s j.d.op upset j ∧ behind
    (started s j) j = true) :=
  ⟨⟨.fence 0 0, 8, false, jobIn (dsc 8) (issuing (dsc 8)), issuing (dsc 8), (by decide +kernel), rfl,
      (by decide +kernel)⟩,
   ⟨.fence 0 0, 8, false, jobIn (dsc 8) (busy (dsc 8)), busy (dsc 8), (by decide +kernel), rfl,
      (by decide +kernel), (by decide +kernel), (by decide +kernel), (by decide +kernel)⟩⟩

/-- The hypotheses of ArithmeticOnScratchpad can be met. -/
theorem test_arithmeticOnScratchpad_witness :
  (∃ (j : Job) (s : State) (a b d : Tile) (o : Out), Issues s 0x30 false j ∧ a = j.tile (started s j) j.d.opa ∧ b =
    j.tile (started s j) j.d.opb ∧ d = j.tile (started s j) j.d.opd ∧ (LocalReads s j.c (a.spans ++ b.spans ++ (if
    bitOf j.d.sub 2 then d.imageSpans else if bitOf j.d.sub 1 then d.spans else []))) ∧ (o = evalDot j.mode j.d.sub
    { t := a, bytes := localBytes s j.c a.spans } { t := b, bytes := localBytes s j.c b.spans } (localBytes s j.c
    (if bitOf j.d.sub 2 then d.imageSpans else if bitOf j.d.sub 1 then d.spans else [])) d) ∧ o.fails = false ∧
    LocalWrites s j.c o.writes) ∧
  (∃ (j : Job) (u : Bool) (s : State) (a d : Tile) (o : Out), Issues s 0x31 u j ∧ a = j.tile (started s j) j.d.opa
    ∧ d = j.tile (started s j) j.d.opd ∧ LocalReads s j.c (a.spans) ∧ o = evalReduce j.mode j.d.sub
    { t := a, bytes := localBytes s j.c a.spans } d ∧ (u && autoChecked j (localBytes s j.c (a.spans)) (started s
    j)) = false ∧ o.fails = false ∧ LocalWrites s j.c o.writes) ∧
  (∃ (j : Job) (s : State) (a b d : Tile) (o : Out), Issues s 0x32 false j ∧ a = j.tile (started s j) j.d.opa ∧ b =
    j.tile (started s j) j.d.opb ∧ d = j.tile (started s j) j.d.opd ∧ LocalReads s j.c (a.spans ++ b.spans) ∧ o =
    evalEwise j.mode j.d.sub { t := a, bytes := localBytes s j.c a.spans }
    { t := b, bytes := localBytes s j.c b.spans } d ∧ LocalWrites s j.c o.writes) ∧
  (∃ (j : Job) (s : State) (a b d : Tile) (o : Out), Issues s 0x33 false j ∧ a = j.tile (started s j) j.d.opa ∧ b =
    j.tile (started s j) j.d.opb ∧ d = j.tile (started s j) j.d.opd ∧ LocalReads s j.c (a.spans ++ b.spans) ∧ o =
    evalScale j.mode { t := a, bytes := localBytes s j.c a.spans } { t := b, bytes := localBytes s j.c b.spans } d ∧
    LocalWrites s j.c o.writes) ∧
  (∃ (j : Job) (s : State) (a d : Tile) (o : Out), Issues s 0x34 false j ∧ a = j.tile (started s j) j.d.opa ∧ d =
    j.tile (started s j) j.d.opd ∧ bitOf j.d.sub 0 = false ∧ LocalReads s j.c (a.spans) ∧ o = evalQuant j.mode
    { t := a, bytes := localBytes s j.c a.spans } d ∧ o.fails = false ∧ LocalWrites s j.c o.writes) ∧
  (∃ (j : Job) (s : State) (a d : Tile) (o : Out), Issues s 0x34 false j ∧ a = j.tile (started s j) j.d.opa ∧ d =
    j.tile (started s j) j.d.opd ∧ bitOf j.d.sub 0 = true ∧ LocalReads s j.c (a.imageSpans) ∧ o = evalQuantImages
    j.mode (localBytes s j.c a.imageSpans) d ∧ o.fails = false ∧ LocalWrites s j.c o.writes) ∧
  (∃ (j : Job) (s : State) (a d : Tile) (o : Out), Issues s 0x35 false j ∧ a = j.tile (started s j) j.d.opa ∧ d =
    j.tile (started s j) j.d.opd ∧ LocalReads s j.c (a.spans) ∧ o = evalCast j.mode
    { t := a, bytes := localBytes s j.c a.spans } d ∧ LocalWrites s j.c o.writes) ∧
  (∃ (j : Job) (s : State) (a b c d : Tile) (o : Out), Issues s 0x36 false j ∧ a = j.tile (started s j) j.d.opa ∧ b
    = j.tile (started s j) j.d.opb ∧ c = j.tile (started s j) j.d.opc ∧ d = j.tile (started s j) j.d.opd ∧
    LocalReads s j.c (a.spans ++ b.spans ++ c.spans) ∧ o = evalSmaxp j.mode
    { t := a, bytes := localBytes s j.c a.spans } { t := b, bytes := localBytes s j.c b.spans }
    { t := c, bytes := localBytes s j.c c.spans } d (if j.d.imm % 16 = 0 then a.cols else (xreg j.inc.xs (j.d.imm %
    16)).toNat) ∧ o.fails = false ∧ LocalWrites s j.c o.writes) ∧
  (∃ (j : Job) (s : State) (a c d : Tile) (o : Out), Issues s 0x37 false j ∧ a = j.tile (started s j) j.d.opa ∧ c =
    j.tile (started s j) j.d.opc ∧ d = j.tile (started s j) j.d.opd ∧ LocalReads s j.c (a.spans) ∧ o = evalTopk
    j.mode { t := a, bytes := localBytes s j.c a.spans } d c j.d.imm ∧ o.fails = false ∧ LocalWrites s j.c o.writes) ∧
  (∃ (j : Job) (u : Bool) (s : State) (a b d : Tile) (o : Out), Issues s 0x38 u j ∧ a = j.tile (started s j)
    j.d.opa ∧ b = j.tile (started s j) j.d.opb ∧ d = j.tile (started s j) j.d.opd ∧ LocalReads s j.c (a.imageSpans
    ++ b.imageSpans) ∧ o = evalAccadd (localBytes s j.c a.imageSpans) (localBytes s j.c b.imageSpans) d ∧ (u &&
    autoChecked j (localBytes s j.c (a.imageSpans ++ b.imageSpans)) (started s j)) = false ∧ o.fails = false ∧
    LocalWrites s j.c o.writes) ∧
  (∃ (j : Job) (s : State) (a d : Tile) (o : Out), Issues s 0x39 false j ∧ a = j.tile (started s j) j.d.opa ∧ d =
    j.tile (started s j) j.d.opd ∧ LocalReads s j.c (a.spans) ∧ o = evalDecode
    { t := a, bytes := localBytes s j.c a.spans } d (signed 16 j.d.imm) ∧ o.fails = false ∧ LocalWrites s j.c
    o.writes) ∧
  (∃ (j : Job) (s : State) (a d : Tile) (o : Out), Issues s 0x3A false j ∧ a = j.tile (started s j) j.d.opa ∧ d =
    j.tile (started s j) j.d.opd ∧ LocalReads s j.c (a.spans) ∧ o = evalCast j.mode
    { t := a, bytes := localBytes s j.c a.spans } d ∧ LocalWrites s j.c o.writes) ∧
  (∃ (j : Job) (s : State) (a : Tile) (o : Out), Issues s 0x40 false j ∧ a = j.tile (started s j) j.d.opa ∧ j.d.sub
    = 1 ∧ LocalReads s j.c (rowSpans a) ∧ o =
    { writes := [(none, bcheckAt j a, ((bcvs (blocksOf (localBytes s j.c (rowSpans a)).flatten.length) (localBytes s j.c (rowSpans a)).flatten).map (natLe 8)).flatten)] }
    ∧ LocalWrites s j.c o.writes) ∧
  (∃ (j : Job) (s : State) (a : Tile) (o : Out), Issues s 0x40 false j ∧ a = j.tile (started s j) j.d.opa ∧ j.d.sub
    ≠ 1 ∧ LocalReads s j.c (rowSpans a ++ [(a.node, bcheckAt j a, 8 * blocksOf (a.rows * a.rowBytes))]) ∧ o =
    evalBcheck false a (localBytes s j.c (rowSpans a)).flatten (spadRead s j.c (bcheckAt j a) (8 * blocksOf (a.rows
    * a.rowBytes))) (bcheckAt j a) ∧ o.fails = false ∧ LocalWrites s j.c o.writes) ∧
  (∃ (j : Job) (s : State) (a : Tile) (o : Out), Issues s 0x41 false j ∧ a = j.tile (started s j) j.d.opa ∧
    LocalReads s j.c (a.spans) ∧ o = evalRcheck { t := a, bytes := localBytes s j.c a.spans } j.d.imm2 j.d.imm3 ∧
    o.fails = false ∧ LocalWrites s j.c o.writes) ∧
  (∃ (j : Job) (s : State) (a d : Tile) (o : Out), Issues s 0x42 false j ∧ a = j.tile (started s j) j.d.opa ∧ d =
    j.tile (started s j) j.d.opd ∧ LocalReads s j.c (a.spans ++ d.imageSpans) ∧ o = evalLcheck
    { t := a, bytes := localBytes s j.c a.spans } (localBytes s j.c d.imageSpans) ∧ o.fails = false ∧ LocalWrites s
    j.c o.writes) ∧
  (∃ (j : Job) (s : State) (a d : Tile), Issues s 0x43 false j ∧ a = j.tile (started s j) j.d.opa ∧ d = j.tile
    (started s j) j.d.opd ∧ LocalReads s j.c (rowSpans a) ∧ d.node = none ∧ d.off + 64 ≤ regionEnd s j.c) :=
  ⟨⟨jobIn { dsc 0x30 with opa := 4, opb := 4, opd := 2 } (issuing
      { dsc 0x30 with opa := 4, opb := 4, opd := 2 }), issuing { dsc 0x30 with opa := 4, opb := 4, opd := 2 }, _, _,
      _, _, (by decide +kernel), rfl, rfl, rfl, (by decide +kernel), rfl, (by decide +kernel), (by decide +kernel)⟩,
   ⟨jobIn { dsc 0x31 with opa := 6, opd := 1, sub := 1 } (issuing
      { dsc 0x31 with opa := 6, opd := 1, sub := 1 }), false, issuing
      { dsc 0x31 with opa := 6, opd := 1, sub := 1 }, _, _, _, (by decide +kernel), rfl, rfl, (by decide +kernel),
      rfl, (by decide +kernel), (by decide +kernel), (by decide +kernel)⟩,
   ⟨jobIn { dsc 0x32 with opb := 1, opd := 2 } (issuing { dsc 0x32 with opb := 1, opd := 2 }), issuing
      { dsc 0x32 with opb := 1, opd := 2 }, _, _, _, _, (by decide +kernel), rfl, rfl, rfl, (by decide +kernel),
      rfl, (by decide +kernel)⟩,
   ⟨jobIn { dsc 0x33 with opb := 1, opd := 2 } (issuing { dsc 0x33 with opb := 1, opd := 2 }), issuing
      { dsc 0x33 with opb := 1, opd := 2 }, _, _, _, _, (by decide +kernel), rfl, rfl, rfl, (by decide +kernel),
      rfl, (by decide +kernel)⟩,
   ⟨jobIn { dsc 0x34 with opd := 5 } (issuing { dsc 0x34 with opd := 5 }), issuing { dsc 0x34 with opd := 5 }, _,
      _, _, (by decide +kernel), rfl, rfl, (by decide +kernel), (by decide +kernel), rfl, (by decide +kernel),
      (by decide +kernel)⟩,
   ⟨jobIn { dsc 0x34 with opa := 7, opd := 5, sub := 1 } (issuing
      { dsc 0x34 with opa := 7, opd := 5, sub := 1 }), issuing { dsc 0x34 with opa := 7, opd := 5, sub := 1 }, _, _,
      _, (by decide +kernel), rfl, rfl, (by decide +kernel), (by decide +kernel), rfl, (by decide +kernel),
      (by decide +kernel)⟩,
   ⟨jobIn { dsc 0x35 with opa := 5, opd := 2 } (issuing { dsc 0x35 with opa := 5, opd := 2 }), issuing
      { dsc 0x35 with opa := 5, opd := 2 }, _, _, _, (by decide +kernel), rfl, rfl, (by decide +kernel), rfl,
      (by decide +kernel)⟩,
   ⟨jobIn { dsc 0x36 with opa := 0, opb := 1, opc := 6, opd := 2, imm := 1 } (issuing
      { dsc 0x36 with opa := 0, opb := 1, opc := 6, opd := 2, imm := 1 }), issuing
      { dsc 0x36 with opa := 0, opb := 1, opc := 6, opd := 2, imm := 1 }, _, _, _, _, _, (by decide +kernel), rfl,
      rfl, rfl, rfl, (by decide +kernel), rfl, (by decide +kernel), (by decide +kernel)⟩,
   ⟨jobIn { dsc 0x37 with opa := 6, opc := 1, opd := 2, imm := 1 } (issuing
      { dsc 0x37 with opa := 6, opc := 1, opd := 2, imm := 1 }), issuing
      { dsc 0x37 with opa := 6, opc := 1, opd := 2, imm := 1 }, _, _, _, _, (by decide +kernel), rfl, rfl, rfl,
      (by decide +kernel), rfl, (by decide +kernel), (by decide +kernel)⟩,
   ⟨jobIn { dsc 0x38 with opa := 5, opb := 7, opd := 7 } (issuing
      { dsc 0x38 with opa := 5, opb := 7, opd := 7 }), false, issuing
      { dsc 0x38 with opa := 5, opb := 7, opd := 7 }, _, _, _, _, (by decide +kernel), rfl, rfl, rfl,
      (by decide +kernel), rfl, (by decide +kernel), (by decide +kernel), (by decide +kernel)⟩,
   ⟨jobIn { dsc 0x39 with opa := 5, opd := 7 } (issuing { dsc 0x39 with opa := 5, opd := 7 }), issuing
      { dsc 0x39 with opa := 5, opd := 7 }, _, _, _, (by decide +kernel), rfl, rfl, (by decide +kernel), rfl,
      (by decide +kernel), (by decide +kernel)⟩,
   ⟨jobIn { dsc 0x3A with opa := 4, opd := 2 } (issuing { dsc 0x3A with opa := 4, opd := 2 }), issuing
      { dsc 0x3A with opa := 4, opd := 2 }, _, _, _, (by decide +kernel), rfl, rfl, (by decide +kernel), rfl,
      (by decide +kernel)⟩,
   ⟨jobIn { dsc 0x40 with imm2 := 16, sub := 1 } (issuing { dsc 0x40 with imm2 := 16, sub := 1 }), issuing
      { dsc 0x40 with imm2 := 16, sub := 1 }, _, _, (by decide +kernel), rfl, (by decide +kernel),
      (by decide +kernel), rfl, (by decide +kernel)⟩,
   ⟨jobIn { dsc 0x40 with imm2 := 8, opa := 6 } (issuing { dsc 0x40 with imm2 := 8, opa := 6 }), issuing
      { dsc 0x40 with imm2 := 8, opa := 6 }, _, _, (by decide +kernel), rfl, (by decide +kernel),
      (by decide +kernel), rfl, (by decide +kernel), (by decide +kernel)⟩,
   ⟨jobIn { dsc 0x41 with imm2 := 0, imm3 := 0x40000000 } (issuing
      { dsc 0x41 with imm2 := 0, imm3 := 0x40000000 }), issuing { dsc 0x41 with imm2 := 0, imm3 := 0x40000000 }, _,
      _, (by decide +kernel), rfl, (by decide +kernel), rfl, (by decide +kernel), (by decide +kernel)⟩,
   ⟨jobIn { dsc 0x42 with opa := 5, opd := 7 } (issuing { dsc 0x42 with opa := 5, opd := 7 }), issuing
      { dsc 0x42 with opa := 5, opd := 7 }, _, _, _, (by decide +kernel), rfl, rfl, (by decide +kernel), rfl,
      (by decide +kernel), (by decide +kernel)⟩,
   ⟨jobIn { dsc 0x43 with opd := 2 } (issuing { dsc 0x43 with opd := 2 }), issuing { dsc 0x43 with opd := 2 }, _,
      _, (by decide +kernel), rfl, rfl, (by decide +kernel), (by decide +kernel), (by decide +kernel)⟩⟩

/-- The hypotheses of MovesOnScratchpad can be met. -/
theorem test_movesOnScratchpad_witness :
  (∃ (j : Job) (s : State) (a d : Tile) (ws : List (Option Nat × Nat × List Byte)), Issues s 0x20 false j ∧ a =
    j.tile (started s j) j.d.opa ∧ d = j.tile (started s j) j.d.opd ∧ d.node = none ∧ LocalReads s j.c (rowSpans a)
    ∧ (ws = rowWrites d a.rows fun r => spadRead s j.c (a.row r) a.rowBytes) ∧ LocalWrites s j.c ws) ∧
  (∃ (j : Job) (s : State) (a b d : Tile) (k : Nat → Nat) (ws : List (Option Nat × Nat × List Byte)), Issues s 0x21
    false j ∧ a = j.tile (started s j) j.d.opa ∧ b = j.tile (started s j) j.d.opb ∧ d = j.tile (started s j) j.d.opd
    ∧ d.node = none ∧ LocalReads s j.c (rowSpans b) ∧ k = (fun i => fieldAt (localBytes s j.c (rowSpans b)).flatten
    (4 * i) 4) ∧ (LocalReads s j.c ((List.range d.rows).map fun i => (a.node, a.row (k i), a.rowBytes))) ∧ (ws =
    rowWrites d d.rows fun i => spadRead s j.c (a.row (k i)) a.rowBytes) ∧ LocalWrites s j.c ws) ∧
  (∃ (j : Job) (s : State) (a b d : Tile) (k : Nat → Nat) (ws : List (Option Nat × Nat × List Byte)), Issues s 0x22
    false j ∧ a = j.tile (started s j) j.d.opa ∧ b = j.tile (started s j) j.d.opb ∧ d = j.tile (started s j) j.d.opd
    ∧ LocalReads s j.c (rowSpans b) ∧ k = (fun i => fieldAt (localBytes s j.c (rowSpans b)).flatten (4 * i) 4) ∧
    LocalReads s j.c (rowSpans a) ∧ (ws = (List.range a.rows).map fun i => (none, d.row (k i), spadRead s j.c (a.row
    i) a.rowBytes)) ∧ LocalWrites s j.c ws ∧ d.node = none) ∧
  (∃ (j : Job) (s : State) (d : Tile) (ws : List (Option Nat × Nat × List Byte)), Issues s 0x25 false j ∧ d =
    j.tile (started s j) j.d.opd ∧ d.node = none ∧ (ws = rowWrites d d.rows fun _ => (List.range d.rowBytes).map fun
    i => (natLe 8 j.d.imm64.toNat).getD (i % 8) 0) ∧ LocalWrites s j.c ws) ∧
  (∃ (j : Job) (s : State) (d : Tile) (ws : List (Option Nat × Nat × List Byte)), Issues s 0x0C false j ∧ d =
    j.tile (started s j) j.d.opd ∧ d.node = none ∧ ws = [(none, d.off, (s.thread j.c j.t).image s.now)] ∧
    LocalWrites s j.c ws) ∧
  (∃ (j : Job) (s : State) (a : Tile), Issues s 0x07 false j ∧ a = j.tile (started s j) j.d.opa ∧ a.off % 8 = 0 ∧
    LocalReads s j.c [(a.node, a.off, 8)]) ∧
  (∃ (j : Job) (s : State) (a : Tile), Issues s 0x07 false j ∧ a = j.tile (started s j) j.d.opa ∧ a.off % 8 ≠ 0 ∧
    j.d.cont = true) :=
  ⟨⟨jobIn { dsc 0x20 with opd := 1 } (issuing { dsc 0x20 with opd := 1 }), issuing { dsc 0x20 with opd := 1 }, _,
      _, _, (by decide +kernel), rfl, rfl, (by decide +kernel), (by decide +kernel), rfl, (by decide +kernel)⟩,
   ⟨jobIn { dsc 0x21 with opb := 2, opd := 1 } (issuing { dsc 0x21 with opb := 2, opd := 1 }), issuing
      { dsc 0x21 with opb := 2, opd := 1 }, _, _, _, _, _, (by decide +kernel), rfl, rfl, rfl, (by decide +kernel),
      (by decide +kernel), rfl, (by decide +kernel), rfl, (by decide +kernel)⟩,
   ⟨jobIn { dsc 0x22 with opb := 2, opd := 1 } (issuing { dsc 0x22 with opb := 2, opd := 1 }), issuing
      { dsc 0x22 with opb := 2, opd := 1 }, _, _, _, _, _, (by decide +kernel), rfl, rfl, rfl, (by decide +kernel),
      rfl, (by decide +kernel), rfl, (by decide +kernel), (by decide +kernel)⟩,
   ⟨jobIn { dsc 0x25 with opd := 2, imm64 := 0x1122334455667788 } (issuing
      { dsc 0x25 with opd := 2, imm64 := 0x1122334455667788 }), issuing
      { dsc 0x25 with opd := 2, imm64 := 0x1122334455667788 }, _, _, (by decide +kernel), rfl, (by decide +kernel),
      rfl, (by decide +kernel)⟩,
   ⟨jobIn { dsc 0x0C with opd := 2 } (issuing { dsc 0x0C with opd := 2 }), issuing { dsc 0x0C with opd := 2 }, _,
      _, (by decide +kernel), rfl, (by decide +kernel), rfl, (by decide +kernel)⟩,
   ⟨jobIn { dsc 0x07 with opd := 0x300, opa := 1 } (issuing { dsc 0x07 with opd := 0x300, opa := 1 }), issuing
      { dsc 0x07 with opd := 0x300, opa := 1 }, _, (by decide +kernel), rfl, (by decide +kernel),
      (by decide +kernel)⟩,
   ⟨jobIn { dsc 0x07 with opd := 0x300, opa := 4, cont := true } (issuing
      { dsc 0x07 with opd := 0x300, opa := 4, cont := true }), issuing
      { dsc 0x07 with opd := 0x300, opa := 4, cont := true }, _, (by decide +kernel), rfl, (by decide +kernel),
      (by decide +kernel)⟩⟩

/-- The hypotheses of FurrowUnitsComplete can be met. -/
theorem test_furrowUnitsComplete_witness :
  (∃ (j : Job) (s : State), Issues s 0x08 false j) ∧
  (∃ (j : Job) (s : State) (a : Tile) (r : Req) (x : List Byte × List Byte), Issues s 0x11 false j ∧ a = j.tile
    (started s j) j.d.opa ∧ r = atomReq (started s j) j a ∧ a.off % r.h.len = 0 ∧ 0 < r.h.len ∧ LocalReads s j.c
    [(a.node, a.off, r.h.len)] ∧ x = accessBytes r.op r.h r.data (spadRead s j.c a.off r.h.len) ∧ x.1.length ≤
    r.h.len) ∧
  (∃ (j : Job) (s : State) (q : QueueDecl) (i n d : Nat) (hd : List Byte), Issues s 0x10 false j ∧ n = j.d.imm % 8
    ∧ j.prog.queues.find? (fun x => x.num == n) = some q ∧ oldestFilled (started s j) j.c n = some i ∧ recvFirst
    (started s j) j.c n j.inc.order = true ∧ badIn s j.c (q.off + i * q.slotBytes) 16 = false ∧ hd = spadRead s j.c
    (q.off + i * q.slotBytes) 16 ∧ d = opdIx j.d.opd) ∧
  (∃ (j : Job) (s : State) (q : QueueDecl) (n : Nat), Issues s 0x10 false j ∧ n = j.d.imm % 8 ∧ j.prog.queues.find?
    (fun x => x.num == n) = some q ∧ ((oldestFilled (started s j) j.c n = none ∨ recvFirst (started s j) j.c n
    j.inc.order = false))) ∧
  (∃ (j : Job) (s : State) (w ctr thr step : Nat), Issues s 0x09 false j ∧ j.prog.watches[j.d.imm2 % 512]? = some w
    ∧ ctr = j.d.imm % 65536 + (xreg (s.thread j.c j.t).xs (opdIx j.d.opb)).toNat ∧ thr = ((xreg (s.thread j.c
    j.t).xs (opdIx j.d.opc)).toNat + j.d.imm64.toNat) % 2 ^ 64 ∧ step = j.d.imm2 / 2 ^ 16 % 2 ^ 16 ∧
    s.chk.badMeta.contains (.watch w) = false ∧ (((s.watch w).st ≠ .armed ∨ ((s.watch w).thread = j.t ∧ ¬ ((s.watch
    w).mode = .rearm ∧ j.d.sub = 2)))) ∧ ctrIn s (plotOfCore s j.c) ctr = true ∧ ¬ (j.d.sub = 2 ∧ step = 0)) ∧
  (∃ (j : Job) (s : State) (w : Nat), Issues s 0x09 false j ∧ j.prog.watches[j.d.imm2 % 512]? = some w ∧ (s.watch
    w).st = .armed ∧ (s.watch w).thread = j.t ∧ (s.watch w).mode = .rearm ∧ j.d.sub = 2 ∧ 0 < (s.watch w).pending ∧
    ((j.d.imm3 = 0 ∨ opdUse j.d.opa = false)) ∧ s.chk.badMeta.contains (.watch w) = false) ∧
  (∃ (j : Job) (s : State), Issues s 0x14 false j ∧ (∀ q ∈ j.inc.range, (cacheLine s j.c q.1 q.2).map CLine.dirty ≠
    some true)) ∧
  (∃ (j : Job) (s : State) (l : CLine), Issues s 0x14 false j ∧ (s.core j.c).cache = [l] ∧ l.dirty = true ∧
    j.inc.range = [(l.ctx, l.vline)] ∧ s.coh.walkSince = none ∧ obstacle none (lineWrite (started s j) j.c l)
    (started s j) = .none ∧ l.data.length = 128) ∧
  (∃ (j : Job) (s : State), Issues s 0x13 false j ∧ (∀ q ∈ j.inc.range, (cacheLine s j.c q.1 q.2).map CLine.dirty =
    some false)) ∧
  (∃ (j : Job) (s : State), Issues s 0x13 false j ∧ (∀ q ∈ j.inc.range, cacheLine s j.c q.1 q.2 = none)) ∧
  (∃ (j : Job) (s : State) (l : CLine), Issues s 0x13 false j ∧ (s.core j.c).cache = [l] ∧ l.dirty = true ∧
    j.inc.range = [(l.ctx, l.vline)] ∧ s.coh.walkSince = none ∧ obstacle none (lineWrite (started s j) j.c l)
    (started s j) = .none ∧ l.data.length = 128) :=
  ⟨⟨jobIn (dsc 8) (issuing (dsc 8)), issuing (dsc 8), (by decide +kernel)⟩,
   ⟨jobIn { dsc 0x11 with opa := 1, opd := 0x300, sub := 2, imm64 := 5 } (issuing
      { dsc 0x11 with opa := 1, opd := 0x300, sub := 2, imm64 := 5 }), issuing
      { dsc 0x11 with opa := 1, opd := 0x300, sub := 2, imm64 := 5 }, _, _, _, (by decide +kernel), rfl, rfl,
      (by decide +kernel), (by decide +kernel), (by decide +kernel), rfl, (by decide +kernel)⟩,
   ⟨jobIn { dsc 0x10 with opd := 0x100 }
      { issuing { dsc 0x10 with opd := 0x100 } with fur := { cores := [(0, { (issuing { dsc 0x10 with opd := 0x100 }).core 0 with slots := [(1, .filled 3)] })] } },
      { issuing { dsc 0x10 with opd := 0x100 } with fur := { cores := [(0, { (issuing { dsc 0x10 with opd := 0x100 }).core 0 with slots := [(1, .filled 3)] })] } },
      { num := 0, off := 4096, slotBytes := 128, slots := 2 }, 1, 0, 1, _, (by decide +kernel), (by decide +kernel),
      (by decide +kernel), (by decide +kernel), (by decide +kernel), (by decide +kernel), rfl, (by decide +kernel)⟩,
   ⟨jobIn (dsc 0x10) (issuing (dsc 0x10)), issuing (dsc 0x10),
      { num := 0, off := 4096, slotBytes := 128, slots := 2 }, 0, (by decide +kernel), (by decide +kernel),
      (by decide +kernel), (by decide +kernel)⟩,
   ⟨jobIn { dsc 0x09 with imm := 0xFF03, imm64 := 4 } (issuing { dsc 0x09 with imm := 0xFF03, imm64 := 4 }),
      issuing { dsc 0x09 with imm := 0xFF03, imm64 := 4 }, 5, 0xFF03, 4, 0, (by decide +kernel),
      (by decide +kernel), (by decide +kernel), (by decide +kernel), (by decide +kernel), (by decide +kernel),
      (by decide +kernel), (by decide +kernel), (by decide +kernel)⟩,
   ⟨jobIn { dsc 0x09 with sub := 2, imm2 := 0x10000 }
      { issuing { dsc 0x09 with sub := 2, imm2 := 0x10000 } with sync := { mapped.sync with watches := [(5, { st := .armed, mode := .rearm, thread := 0, pending := 2 })] } },
      { issuing { dsc 0x09 with sub := 2, imm2 := 0x10000 } with sync := { mapped.sync with watches := [(5, { st := .armed, mode := .rearm, thread := 0, pending := 2 })] } },
      5, (by decide +kernel), (by decide +kernel), (by decide +kernel), (by decide +kernel), (by decide +kernel),
      (by decide +kernel), (by decide +kernel), (by decide +kernel), (by decide +kernel)⟩,
   ⟨jobIn { dsc 0x14 with sub := 0 }
      { issuing { dsc 0x14 with sub := 0 } with fur := { cores := [(0, { (issuing { dsc 0x14 with sub := 0 }).core 0 with cache := [{ ctx := 0, vline := 3, pline := 3, data := List.replicate 128 1, dirty := false, epoch := 0 }] })] } },
      { issuing { dsc 0x14 with sub := 0 } with fur := { cores := [(0, { (issuing { dsc 0x14 with sub := 0 }).core 0 with cache := [{ ctx := 0, vline := 3, pline := 3, data := List.replicate 128 1, dirty := false, epoch := 0 }] })] } },
      (by decide +kernel), (by decide +kernel)⟩,
   ⟨jobIn { dsc 0x14 with sub := 1 }
      { issuing { dsc 0x14 with sub := 1 } with fur := { cores := [(0, { (issuing { dsc 0x14 with sub := 1 }).core 0 with cache := [{ ctx := 0, vline := 3, pline := 3, data := List.replicate 128 1, dirty := true, epoch := 0 }] })] } },
      { issuing { dsc 0x14 with sub := 1 } with fur := { cores := [(0, { (issuing { dsc 0x14 with sub := 1 }).core 0 with cache := [{ ctx := 0, vline := 3, pline := 3, data := List.replicate 128 1, dirty := true, epoch := 0 }] })] } },
      { ctx := 0, vline := 3, pline := 3, data := List.replicate 128 1, dirty := true, epoch := 0 },
      (by decide +kernel), (by decide +kernel), (by decide +kernel), (by decide +kernel), (by decide +kernel),
      (by decide +kernel), (by decide +kernel)⟩,
   ⟨jobIn { dsc 0x13 with sub := 0 }
      { issuing { dsc 0x13 with sub := 0 } with fur := { cores := [(0, { (issuing { dsc 0x13 with sub := 0 }).core 0 with cache := [{ ctx := 0, vline := 3, pline := 3, data := List.replicate 128 1, dirty := false, epoch := 0 }] })] } },
      { issuing { dsc 0x13 with sub := 0 } with fur := { cores := [(0, { (issuing { dsc 0x13 with sub := 0 }).core 0 with cache := [{ ctx := 0, vline := 3, pline := 3, data := List.replicate 128 1, dirty := false, epoch := 0 }] })] } },
      (by decide +kernel), (by decide +kernel)⟩,
   ⟨jobIn { dsc 0x13 with sub := 1 } (busyLoad { dsc 0x13 with sub := 1 }), busyLoad { dsc 0x13 with sub := 1 },
      (by decide +kernel), (by decide +kernel)⟩,
   ⟨jobIn { dsc 0x13 with sub := 1 }
      { issuing { dsc 0x13 with sub := 1 } with fur := { cores := [(0, { (issuing { dsc 0x13 with sub := 1 }).core 0 with cache := [{ ctx := 0, vline := 3, pline := 3, data := List.replicate 128 1, dirty := true, epoch := 0 }] })] } },
      { issuing { dsc 0x13 with sub := 1 } with fur := { cores := [(0, { (issuing { dsc 0x13 with sub := 1 }).core 0 with cache := [{ ctx := 0, vline := 3, pline := 3, data := List.replicate 128 1, dirty := true, epoch := 0 }] })] } },
      { ctx := 0, vline := 3, pline := 3, data := List.replicate 128 1, dirty := true, epoch := 0 },
      (by decide +kernel), (by decide +kernel), (by decide +kernel), (by decide +kernel), (by decide +kernel),
      (by decide +kernel), (by decide +kernel)⟩⟩

/-- The hypotheses of FurrowRequestsAreSent can be met. -/
theorem test_furrowRequestsAreSent_witness :
  (∃ (j : Job) (s : State) (n off tag : Nat) (rq : Req) (u : State), Issues s 0x0A false j ∧ testing s j.c = false
    ∧ n = j.node ∧ hereCore (started s j) n = none ∧ off = ((j.x (opdIx j.d.opa)).toNat + j.d.imm) % 2 ^ 48 ∧ (∀ i ∈
    (s.thread j.c j.t).incs, i.todo = []) ∧ linesHeld s j.c j.t < 32 ∧ tag = j.t * 4096 + (s.thread j.c j.t).nextTag
    % 4096 ∧ rq =
    { via := .core j.c j.t, op := Op.sigAdd, h := { plot := plotOfCore s j.c, len := 8, tag, ctx := (s.thread j.c j.t).ctx, dst := n, src := nodeOf s (0x80 + j.c), opa := BitVec.ofNat 48 off }, data := natLe 8 j.d.imm64.toNat }
    ∧ (u = (started s j).onThread j.c j.t fun y =>
    { y with nextTag := y.nextTag + 1, incs := (s.thread j.c j.t).incs ++ [{ j.inc with wait := .replies, wrote := true, asked := [(tag, 0, n, off)] }] })) ∧
  (∃ (j : Job) (s : State) (n off tag : Nat) (rq : Req) (u : State), Issues s 0x12 false j ∧ testing s j.c = false
    ∧ n = j.node ∧ hereCore (started s j) n = none ∧ off = ((j.x (opdIx j.d.opa)).toNat + j.d.imm) % 2 ^ 48 ∧ (∀ i ∈
    (s.thread j.c j.t).incs, i.todo = []) ∧ linesHeld s j.c j.t < 32 ∧ tag = j.t * 4096 + (s.thread j.c j.t).nextTag
    % 4096 ∧ rq =
    { via := .core j.c j.t, op := Op.sigMax, h := { plot := plotOfCore s j.c, len := 8, tag, ctx := (s.thread j.c j.t).ctx, dst := n, src := nodeOf s (0x80 + j.c), opa := BitVec.ofNat 48 off }, data := natLe 8 j.d.imm64.toNat }
    ∧ (u = (started s j).onThread j.c j.t fun y =>
    { y with nextTag := y.nextTag + 1, incs := (s.thread j.c j.t).incs ++ [{ j.inc with wait := .replies, wrote := true, asked := [(tag, 0, n, off)] }] })) ∧
  (∃ (j : Job) (s : State) (n off k : Nat) (q : (LineRes × Nat) × State), Issues s 0x0A false j ∧ testing s j.c =
    false ∧ n = j.node ∧ hereCore (started s j) n = some k ∧ off = ((j.x (opdIx j.d.opa)).toNat + j.d.imm) % 2 ^ 48
    ∧ q = windowCheck (j.who (started s j)) k off true (prefetch j.c j.t off (started s j)) ∧ q.1.1.parks = false) ∧
  (∃ (j : Job) (s : State) (n off k : Nat) (q : (LineRes × Nat) × State), Issues s 0x12 false j ∧ testing s j.c =
    false ∧ n = j.node ∧ hereCore (started s j) n = some k ∧ off = ((j.x (opdIx j.d.opa)).toNat + j.d.imm) % 2 ^ 48
    ∧ q = windowCheck (j.who (started s j)) k off true (prefetch j.c j.t off (started s j)) ∧ q.1.1.parks = false) ∧
  (∃ (j : Job) (s : State) (n off tag q : Nat) (b : List Byte) (rq : Req) (u : State), Issues s 0x24 false j ∧
    testing s j.c = false ∧ n = j.node ∧ off = (j.x (opdIx j.d.opc)).toNat % 2 ^ 48 ∧ (∀ i ∈ (s.thread j.c
    j.t).incs, i.todo = []) ∧ linesHeld s j.c j.t < 32 ∧ tag = j.t * 4096 + (s.thread j.c j.t).nextTag % 4096 ∧ q =
    (if opdIx j.d.opb = 0 then j.d.imm else (j.x (opdIx j.d.opb)).toNat) % 256 ∧ LocalReads s j.c (rowSpans (j.tile
    (started s j) j.d.opa)) ∧ b = (localBytes s j.c (rowSpans (j.tile (started s j) j.d.opa))).flatten ∧ rq =
    { via := .core j.c j.t, op := Op.msgSend, h := { plot := plotOfCore s j.c, len := b.length, tag, ctx := (s.thread j.c j.t).ctx, dst := n, src := nodeOf s (0x80 + j.c), opa := BitVec.ofNat 48 off, opb := q * 256 }, data := b }
    ∧ (u = (started s j).onThread j.c j.t fun y =>
    { y with nextTag := y.nextTag + 1, incs := (s.thread j.c j.t).incs ++ [{ j.inc with wait := .replies, wrote := true, asked := [(tag, 0, n, off)] }] })) ∧
  (∃ (j : Job) (s : State) (a d : Tile) (ls : List Store) (f : Store → Req) (u : State), Issues s 0x23 false j ∧
    testing s j.c = false ∧ a = j.tile (started s j) j.d.opa ∧ d = j.tile (started s j) j.d.opd ∧ LocalReads s j.c
    (rowSpans a) ∧ (ls = mergeStores ((rowCopies a d ((List.range a.rows).map fun r => (r, r))).map fun q =>
    { node := some (nodeOf s 0), off := q.1, data := (spadRead s j.c q.2.2 q.2.1).map some })) ∧ (f = fun q =>
    { op := (maskedWrite q.off q.data).1, h := { plot := plotOfCore s j.c, len := (maskedWrite q.off q.data).2.2.1, ctx := (s.thread j.c j.t).ctx, dst := nodeOf s 0, src := nodeOf s (0x80 + j.c), opa := BitVec.ofNat 48 (maskedWrite q.off q.data).2.1, sow := j.d.sub, sowix := j.d.imm % 16 }, via := .core j.c j.t, data := (maskedWrite q.off q.data).2.2.2 })
    ∧ ls ≠ [] ∧ (u = (bump 0xC40802 ls.length (started s j)).onThread j.c j.t fun y =>
    { y with incs := (s.thread j.c j.t).incs ++ [{ j.inc with wait := .replies, wrote := true, todo := ls.zipIdx.map fun p => (p.2, f p.1) }] })) :=
  ⟨⟨jobIn { dsc 0x0A with imm2 := 0x2C0, imm := 9, imm64 := 5 } (issuing
      { dsc 0x0A with imm2 := 0x2C0, imm := 9, imm64 := 5 }), issuing
      { dsc 0x0A with imm2 := 0x2C0, imm := 9, imm64 := 5 }, 0x2C0, 9, 0, _, _, (by decide +kernel),
      (by decide +kernel), (by decide +kernel), (by decide +kernel), (by decide +kernel), (by decide +kernel),
      (by decide +kernel), (by decide +kernel), rfl, rfl⟩,
   ⟨jobIn { dsc 0x12 with imm2 := 0x2C0, imm := 9, imm64 := 5 } (issuing
      { dsc 0x12 with imm2 := 0x2C0, imm := 9, imm64 := 5 }), issuing
      { dsc 0x12 with imm2 := 0x2C0, imm := 9, imm64 := 5 }, 0x2C0, 9, 0, _, _, (by decide +kernel),
      (by decide +kernel), (by decide +kernel), (by decide +kernel), (by decide +kernel), (by decide +kernel),
      (by decide +kernel), (by decide +kernel), rfl, rfl⟩,
   ⟨jobIn { dsc 0x0A with imm2 := 0x180, imm := 65536, imm64 := 5 } (issuing
      { dsc 0x0A with imm2 := 0x180, imm := 65536, imm64 := 5 }), issuing
      { dsc 0x0A with imm2 := 0x180, imm := 65536, imm64 := 5 }, _, _, 0, _, (by decide +kernel),
      (by decide +kernel), rfl, (by decide +kernel), rfl, rfl, (by decide +kernel)⟩,
   ⟨jobIn { dsc 0x12 with imm2 := 0x180, imm := 65536, imm64 := 5 } (issuing
      { dsc 0x12 with imm2 := 0x180, imm := 65536, imm64 := 5 }), issuing
      { dsc 0x12 with imm2 := 0x180, imm := 65536, imm64 := 5 }, _, _, 0, _, (by decide +kernel),
      (by decide +kernel), rfl, (by decide +kernel), rfl, rfl, (by decide +kernel)⟩,
   ⟨jobIn { dsc 0x24 with imm2 := 0x2C0, imm := 9 } (issuing { dsc 0x24 with imm2 := 0x2C0, imm := 9 }), issuing
      { dsc 0x24 with imm2 := 0x2C0, imm := 9 }, 0x2C0, 0, 0, 9, _, _, _, (by decide +kernel), (by decide +kernel),
      (by decide +kernel), (by decide +kernel), (by decide +kernel), (by decide +kernel), (by decide +kernel),
      (by decide +kernel), (by decide +kernel), rfl, rfl, rfl⟩,
   ⟨jobIn { dsc 0x23 with opd := 1, sub := 1, imm := 2 } (issuing
      { dsc 0x23 with opd := 1, sub := 1, imm := 2 }), issuing { dsc 0x23 with opd := 1, sub := 1, imm := 2 }, _, _,
      _, _, _, (by decide +kernel), (by decide +kernel), rfl, rfl, (by decide +kernel), rfl, rfl,
      (by decide +kernel), rfl⟩⟩

/-- The hypotheses of RepliesReachDescriptors can be met. -/
theorem test_repliesReachDescriptors_witness :
  (∃ (c r tag st : Nat) (data : List Byte) (i : Inc) (line node off : Nat) (j : Job) (x : Thread) (s : State),
    askedBy s c r tag = some (i, line, node, off) ∧ s.inc c r i.seq = some i ∧ jobOf s c r i = some j ∧ x = s.thread
    c r ∧ (∀ y ∈ x.incs, y.todo = []) ∧ x.ending = false ∧ i.wrote = false ∧ i.asked.filter (fun a => a.1 != tag) ≠
    []) ∧
  (∃ (c r tag st : Nat) (data : List Byte) (s : State), askedBy s c r tag = none) ∧
  (∃ (c r tag st : Nat) (data : List Byte) (i : Inc) (line node off : Nat) (s : State), askedBy s c r tag = some
    (i, line, node, off) ∧ s.inc c r i.seq = some i ∧ i.wrote = false ∧ i.todo = [] ∧ i.asked.filter (fun a => a.1
    != tag) = []) ∧
  (∃ (c r tag st : Nat) (data : List Byte) (i : Inc) (line node off : Nat) (j : Job) (x : Thread) (s : State),
    askedBy s c r tag = some (i, line, node, off) ∧ s.inc c r i.seq = some i ∧ jobOf s c r i = some j ∧ x = s.thread
    c r ∧ (∀ y ∈ x.incs, y.todo = []) ∧ x.ending = false ∧ st = St.ok ∧ i.wrote = true ∧ i.rest = [] ∧ i.pool = [] ∧
    i.asked.filter (fun a => a.1 != tag) = [] ∧ i.failed = 0 ∧ i.status = St.ok ∧ j.d.op ≠ 0x11) ∧
  (∃ (c r tag st : Nat) (data : List Byte) (i : Inc) (line node off : Nat) (j : Job) (x : Thread) (s : State),
    askedBy s c r tag = some (i, line, node, off) ∧ s.inc c r i.seq = some i ∧ jobOf s c r i = some j ∧ x = s.thread
    c r ∧ (∀ y ∈ x.incs, y.todo = []) ∧ x.ending = false ∧ st = St.ok ∧ i.wrote = true ∧ i.rest = [] ∧ i.pool = [] ∧
    i.asked.filter (fun a => a.1 != tag) = [] ∧ i.failed = 0 ∧ i.status = St.ok ∧ j.d.op = 0x11 ∧ bitOf j.d.imm2 4 =
    false) ∧
  (∃ (c r tag st : Nat) (data : List Byte) (i : Inc) (line node off : Nat) (j : Job) (x : Thread) (s : State),
    askedBy s c r tag = some (i, line, node, off) ∧ s.inc c r i.seq = some i ∧ jobOf s c r i = some j ∧ x = s.thread
    c r ∧ (∀ y ∈ x.incs, y.todo = []) ∧ x.ending = false ∧ st ≠ St.ok ∧ i.wrote = true ∧ i.rest = [] ∧ i.pool = [] ∧
    i.asked.filter (fun a => a.1 != tag) = [] ∧ i.failed = 0 ∧ j.d.cont = true ∧ x.status = St.ok) ∧
  (∃ (c r tag st : Nat) (data : List Byte) (i : Inc) (line node off : Nat) (j : Job) (x : Thread) (s : State),
    askedBy s c r tag = some (i, line, node, off) ∧ s.inc c r i.seq = some i ∧ jobOf s c r i = some j ∧ x = s.thread
    c r ∧ (∀ y ∈ x.incs, y.todo = []) ∧ x.ending = false ∧ st ≠ St.ok ∧ i.wrote = true ∧ i.rest = [] ∧ i.pool = [] ∧
    i.asked.filter (fun a => a.1 != tag) = [] ∧ i.failed = 0 ∧ j.d.cont = false ∧ x.status = St.ok ∧ x.running =
    true ∧ x.incs.filter (fun y => y.seq != i.seq) = []) :=
  ⟨⟨0, 0, 7, 0, [],
      { seq := 0, idx := 0, xs := [], wait := .replies, wrote := false, asked := [(7, 0, 0x202, 0), (8, 1, 0x202, 128)] },
      0, 0x202, 0,
      { c := 0, t := 0, prog := progD (dsc 0x20), d := (dsc 0x20), inc := { seq := 0, idx := 0, xs := [], wait := .replies, wrote := false, asked := [(7, 0, 0x202, 0), (8, 1, 0x202, 128)] } },
      _,
      { issuing (dsc 0x20) with fur := { cores := [(0, { (issuing (dsc 0x20)).core 0 with threads := [(0, { running := true, halted := false, seq := 1, incs := [{ seq := 0, idx := 0, xs := [], wait := .replies, wrote := false, asked := [(7, 0, 0x202, 0), (8, 1, 0x202, 128)] }] })] })] } },
      (by decide +kernel), (by decide +kernel), rfl, rfl, (by decide +kernel), (by decide +kernel),
      (by decide +kernel), (by decide +kernel)⟩,
   ⟨0, 0, 7, 0, [], hub, (by decide +kernel)⟩,
   ⟨0, 0, 7, 0, [],
      { seq := 0, idx := 0, xs := [], wait := .replies, wrote := false, asked := [(7, 0, 0x202, 0)] }, 0, 0x202, 0,
      { issuing { dsc 0x20 with opd := 1 } with fur := { cores := [(0, { (issuing { dsc 0x20 with opd := 1 }).core 0 with threads := [(0, { running := true, halted := false, seq := 1, incs := [{ seq := 0, idx := 0, xs := [], wait := .replies, wrote := false, asked := [(7, 0, 0x202, 0)] }] })] })] } },
      (by decide +kernel), (by decide +kernel), (by decide +kernel), (by decide +kernel), (by decide +kernel)⟩,
   ⟨0, 0, 7, 0, [],
      { seq := 0, idx := 0, xs := [], wait := .replies, wrote := true, asked := [(7, 0, 0x202, 0)] }, 0, 0x202, 0,
      { c := 0, t := 0, prog := progD (dsc 0x0A), d := (dsc 0x0A), inc := { seq := 0, idx := 0, xs := [], wait := .replies, wrote := true, asked := [(7, 0, 0x202, 0)] } },
      _,
      { issuing (dsc 0x0A) with fur := { cores := [(0, { (issuing (dsc 0x0A)).core 0 with threads := [(0, { running := true, halted := false, seq := 1, incs := [{ seq := 0, idx := 0, xs := [], wait := .replies, wrote := true, asked := [(7, 0, 0x202, 0)] }] })] })] } },
      (by decide +kernel), (by decide +kernel), rfl, rfl, (by decide +kernel), (by decide +kernel),
      (by decide +kernel), (by decide +kernel), (by decide +kernel), (by decide +kernel), (by decide +kernel),
      (by decide +kernel), (by decide +kernel), (by decide +kernel)⟩,
   ⟨0, 0, 7, 0, [1, 2],
      { seq := 0, idx := 0, xs := [], wait := .replies, wrote := true, asked := [(7, 0, 0x202, 0)] }, 0, 0x202, 0,
      { c := 0, t := 0, prog := progD (dsc 0x11), d := (dsc 0x11), inc := { seq := 0, idx := 0, xs := [], wait := .replies, wrote := true, asked := [(7, 0, 0x202, 0)] } },
      _,
      { issuing (dsc 0x11) with fur := { cores := [(0, { (issuing (dsc 0x11)).core 0 with threads := [(0, { running := true, halted := false, seq := 1, incs := [{ seq := 0, idx := 0, xs := [], wait := .replies, wrote := true, asked := [(7, 0, 0x202, 0)] }] })] })] } },
      (by decide +kernel), (by decide +kernel), rfl, rfl, (by decide +kernel), (by decide +kernel),
      (by decide +kernel), (by decide +kernel), (by decide +kernel), (by decide +kernel), (by decide +kernel),
      (by decide +kernel), (by decide +kernel), (by decide +kernel), (by decide +kernel)⟩,
   ⟨0, 0, 7, 0x10, [],
      { seq := 0, idx := 0, xs := [], wait := .replies, wrote := true, asked := [(7, 0, 0x202, 0)] }, 0, 0x202, 0,
      { c := 0, t := 0, prog := progD { dsc 0x0A with cont := true }, d := { dsc 0x0A with cont := true }, inc := { seq := 0, idx := 0, xs := [], wait := .replies, wrote := true, asked := [(7, 0, 0x202, 0)] } },
      _,
      { issuing { dsc 0x0A with cont := true } with fur := { cores := [(0, { (issuing { dsc 0x0A with cont := true }).core 0 with threads := [(0, { running := true, halted := false, seq := 1, incs := [{ seq := 0, idx := 0, xs := [], wait := .replies, wrote := true, asked := [(7, 0, 0x202, 0)] }] })] })] } },
      (by decide +kernel), (by decide +kernel), rfl, rfl, (by decide +kernel), (by decide +kernel),
      (by decide +kernel), (by decide +kernel), (by decide +kernel), (by decide +kernel), (by decide +kernel),
      (by decide +kernel), (by decide +kernel), (by decide +kernel)⟩,
   ⟨0, 0, 7, 0x10, [],
      { seq := 0, idx := 0, xs := [], wait := .replies, wrote := true, asked := [(7, 0, 0x202, 0)] }, 0, 0x202, 0,
      { c := 0, t := 0, prog := progD (dsc 0x0A), d := (dsc 0x0A), inc := { seq := 0, idx := 0, xs := [], wait := .replies, wrote := true, asked := [(7, 0, 0x202, 0)] } },
      _,
      { issuing (dsc 0x0A) with fur := { cores := [(0, { (issuing (dsc 0x0A)).core 0 with threads := [(0, { running := true, halted := false, seq := 1, incs := [{ seq := 0, idx := 0, xs := [], wait := .replies, wrote := true, asked := [(7, 0, 0x202, 0)] }] })] })] } },
      (by decide +kernel), (by decide +kernel), rfl, rfl, (by decide +kernel), (by decide +kernel),
      (by decide +kernel), (by decide +kernel), (by decide +kernel), (by decide +kernel), (by decide +kernel),
      (by decide +kernel), (by decide +kernel), (by decide +kernel), (by decide +kernel), (by decide +kernel)⟩⟩

/-- The hypotheses of RepeatsAndJudgements can be met. -/
theorem test_repeatsAndJudgements_witness :
  (∃ (c e : Nat) (d : Issued) (j : Job) (o : Out) (x : Thread) (s : State), (s.inc c d.thread d.seq).filter (fun i
    => i.wait == .repeat_) = some j.inc ∧ jobOf s c d.thread j.inc = some j ∧ producing s j = false ∧ 0x30 ≤ j.d.op
    ∧ j.inc.wrote = false ∧ x = s.thread c d.thread ∧ x.ending = false ∧ e = judged s j ∧ LocalReads s c (planOf s
    j).1 ∧ o = (planOf s j).2 (localBytes s c (planOf s j).1) ∧ j.inc.status = St.ok ∧ j.inc.todo = [] ∧ j.inc.asked
    = [] ∧ j.inc.pool = [] ∧ o.fails = false ∧ LocalWrites s c o.writes ∧ (if s.chk.day = s.now / 86400000000000
    then s.chk.transients.getD (8 * c + e) 0 else 0) < cfg 0xA02001 8 s) ∧
  (∃ (c e : Nat) (d : Issued) (j : Job) (o : Out) (x : Thread) (s : State), (s.inc c d.thread d.seq).filter (fun i
    => i.wait == .repeat_) = some j.inc ∧ jobOf s c d.thread j.inc = some j ∧ producing s j = false ∧ 0x30 ≤ j.d.op
    ∧ j.inc.wrote = false ∧ x = s.thread c d.thread ∧ x.ending = false ∧ e = judged s j ∧ LocalReads s c (planOf s
    j).1 ∧ o = (planOf s j).2 (localBytes s c (planOf s j).1) ∧ (¬ (e = 5 ∨ e = 6)) ∧ (judgedByTe s c e && opCheck
    j.d) = false) ∧
  (∃ (c e : Nat) (d : Issued) (j : Job) (o : Out) (x : Thread) (s : State), (s.inc c d.thread d.seq).filter (fun i
    => i.wait == .judge) = some j.inc ∧ jobOf s c d.thread j.inc = some j ∧ producing s j = false ∧ 0x30 ≤ j.d.op ∧
    j.inc.wrote = false ∧ x = s.thread c d.thread ∧ x.ending = false ∧ e = judged s j ∧ LocalReads s c (planOf s
    j).1 ∧ o = (planOf s j).2 (localBytes s c (planOf s j).1) ∧ j.inc.status = St.ok ∧ j.inc.todo = [] ∧ j.inc.asked
    = [] ∧ j.inc.pool = [] ∧ o.fails = false ∧ LocalWrites s c o.writes ∧ e < 4 ∧ 1 < (workingTes (s.core c)).length) ∧
  (∃ (c e : Nat) (d : Issued) (j : Job) (o : Out) (x : Thread) (s : State), (s.inc c d.thread d.seq).filter (fun i
    => i.wait == .judge) = some j.inc ∧ jobOf s c d.thread j.inc = some j ∧ producing s j = false ∧ 0x30 ≤ j.d.op ∧
    j.inc.wrote = false ∧ x = s.thread c d.thread ∧ x.ending = false ∧ e = judged s j ∧ LocalReads s c (planOf s
    j).1 ∧ o = (planOf s j).2 (localBytes s c (planOf s j).1) ∧ ¬ (e < 4 ∧ 1 < (workingTes (s.core c)).length) ∧
    x.status = St.ok ∧ j.d.cont = true) ∧
  (∃ (c e : Nat) (d : Issued) (j : Job) (o : Out) (x : Thread) (s : State), (s.inc c d.thread d.seq).filter (fun i
    => i.wait == .judge) = some j.inc ∧ jobOf s c d.thread j.inc = some j ∧ producing s j = false ∧ 0x30 ≤ j.d.op ∧
    j.inc.wrote = false ∧ x = s.thread c d.thread ∧ x.ending = false ∧ e = judged s j ∧ LocalReads s c (planOf s
    j).1 ∧ o = (planOf s j).2 (localBytes s c (planOf s j).1) ∧ 4 ≤ e ∧ e ≠ 5 ∧ e ≠ 6) ∧
  (∃ (c e : Nat) (d : Issued) (j : Job) (o : Out) (x : Thread) (s : State), (s.inc c d.thread d.seq).filter (fun i
    => i.wait == .judge) = some j.inc ∧ jobOf s c d.thread j.inc = some j ∧ producing s j = false ∧ 0x30 ≤ j.d.op ∧
    j.inc.wrote = false ∧ x = s.thread c d.thread ∧ x.ending = false ∧ e = judged s j ∧ LocalReads s c (planOf s
    j).1 ∧ o = (planOf s j).2 (localBytes s c (planOf s j).1) ∧ e < 4 ∧ (workingTes (s.core c)).length ≤ 1) ∧
  (∃ (c : Nat) (d : Issued) (sound : Bool) (s : State), (s.inc c d.thread d.seq).filter (fun i => i.wait ==
    .repeat_) = none) ∧
  (∃ (c : Nat) (d : Issued) (passes : Bool) (s : State), (s.inc c d.thread d.seq).filter (fun i => i.wait ==
    .judge) = none) :=
  ⟨⟨0, 4, { thread := 0, seq := 0 },
      { c := 0, t := 0, prog := progD { dsc 0x32 with opb := 1, opd := 2 }, d := { dsc 0x32 with opb := 1, opd := 2 }, inc := { seq := 0, idx := 0, xs := [], wait := .repeat_ } },
      _, _,
      { issuing { dsc 0x32 with opb := 1, opd := 2 } with fur := { cores := [(0, { (issuing { dsc 0x32 with opb := 1, opd := 2 }).core 0 with threads := [(0, { running := true, halted := false, seq := 1, incs := [{ seq := 0, idx := 0, xs := [], wait := .repeat_ }] })] })] } },
      (by decide +kernel), rfl, (by decide +kernel), (by decide +kernel), (by decide +kernel), rfl,
      (by decide +kernel), (by decide +kernel), (by decide +kernel), rfl, (by decide +kernel), (by decide +kernel),
      (by decide +kernel), (by decide +kernel), (by decide +kernel), (by decide +kernel), (by decide +kernel)⟩,
   ⟨0, 4, { thread := 0, seq := 0 },
      { c := 0, t := 0, prog := progD { dsc 0x32 with opb := 1, opd := 2 }, d := { dsc 0x32 with opb := 1, opd := 2 }, inc := { seq := 0, idx := 0, xs := [], wait := .repeat_ } },
      _, _,
      { issuing { dsc 0x32 with opb := 1, opd := 2 } with fur := { cores := [(0, { (issuing { dsc 0x32 with opb := 1, opd := 2 }).core 0 with threads := [(0, { running := true, halted := false, seq := 1, incs := [{ seq := 0, idx := 0, xs := [], wait := .repeat_ }] })] })] } },
      (by decide +kernel), rfl, (by decide +kernel), (by decide +kernel), (by decide +kernel), rfl,
      (by decide +kernel), (by decide +kernel), (by decide +kernel), rfl, (by decide +kernel), (by decide +kernel)⟩,
   ⟨0, 0, { thread := 0, seq := 0 },
      { c := 0, t := 0, prog := progD { dsc 0x30 with opa := 4, opb := 4, opd := 2 }, d := { dsc 0x30 with opa := 4, opb := 4, opd := 2 }, inc := { seq := 0, idx := 0, xs := [], wait := .judge } },
      _, _,
      { issuing { dsc 0x30 with opa := 4, opb := 4, opd := 2 } with fur := { cores := [(0, { (issuing { dsc 0x30 with opa := 4, opb := 4, opd := 2 }).core 0 with threads := [(0, { running := true, halted := false, seq := 1, incs := [{ seq := 0, idx := 0, xs := [], wait := .judge }] })] })] } },
      (by decide +kernel), rfl, (by decide +kernel), (by decide +kernel), (by decide +kernel), rfl,
      (by decide +kernel), (by decide +kernel), (by decide +kernel), rfl, (by decide +kernel), (by decide +kernel),
      (by decide +kernel), (by decide +kernel), (by decide +kernel), (by decide +kernel), (by decide +kernel),
      (by decide +kernel)⟩,
   ⟨0, 4, { thread := 0, seq := 0 },
      { c := 0, t := 0, prog := progD { dsc 0x32 with opb := 1, opd := 2, cont := true }, d := { dsc 0x32 with opb := 1, opd := 2, cont := true }, inc := { seq := 0, idx := 0, xs := [], wait := .judge } },
      _, _,
      { issuing { dsc 0x32 with opb := 1, opd := 2, cont := true } with fur := { cores := [(0, { (issuing { dsc 0x32 with opb := 1, opd := 2, cont := true }).core 0 with threads := [(0, { running := true, halted := false, seq := 1, incs := [{ seq := 0, idx := 0, xs := [], wait := .judge }] })] })] } },
      (by decide +kernel), rfl, (by decide +kernel), (by decide +kernel), (by decide +kernel), rfl,
      (by decide +kernel), (by decide +kernel), (by decide +kernel), rfl, (by decide +kernel), (by decide +kernel),
      (by decide +kernel)⟩,
   ⟨0, 4, { thread := 0, seq := 0 },
      { c := 0, t := 0, prog := progD { dsc 0x32 with opb := 1, opd := 2 }, d := { dsc 0x32 with opb := 1, opd := 2 }, inc := { seq := 0, idx := 0, xs := [], wait := .judge } },
      _, _,
      { issuing { dsc 0x32 with opb := 1, opd := 2 } with fur := { cores := [(0, { (issuing { dsc 0x32 with opb := 1, opd := 2 }).core 0 with threads := [(0, { running := true, halted := false, seq := 1, incs := [{ seq := 0, idx := 0, xs := [], wait := .judge }] })] })] } },
      (by decide +kernel), rfl, (by decide +kernel), (by decide +kernel), (by decide +kernel), rfl,
      (by decide +kernel), (by decide +kernel), (by decide +kernel), rfl, (by decide +kernel), (by decide +kernel),
      (by decide +kernel)⟩,
   ⟨0, 0, { thread := 0, seq := 0 },
      { c := 0, t := 0, prog := progD { dsc 0x30 with opa := 4, opb := 4, opd := 2 }, d := { dsc 0x30 with opa := 4, opb := 4, opd := 2 }, inc := { seq := 0, idx := 0, xs := [], wait := .judge } },
      _, _,
      { issuing { dsc 0x30 with opa := 4, opb := 4, opd := 2 } with fur := { cores := [(0, { (issuing { dsc 0x30 with opa := 4, opb := 4, opd := 2 }).core 0 with teRetired := 14, threads := [(0, { running := true, halted := false, seq := 1, incs := [{ seq := 0, idx := 0, xs := [], wait := .judge }] })] })] } },
      (by decide +kernel), rfl, (by decide +kernel), (by decide +kernel), (by decide +kernel), rfl,
      (by decide +kernel), (by decide +kernel), (by decide +kernel), rfl, (by decide +kernel), (by decide +kernel)⟩,
   ⟨0, { thread := 0, seq := 0 }, true, hub, (by decide +kernel)⟩,
   ⟨0, { thread := 0, seq := 0 }, true, hub, (by decide +kernel)⟩⟩

/-- The hypotheses of ProgramsLoadStartStop can be met. -/
theorem test_programsLoadStartStop_witness :
  (∃ (c : Nat) (s : State), s.lania.up = true ∧ coreOn s c = true ∧ (s.core c).st = .empty ∧ (s.core c).resetting =
    false ∧ (s.core c).loading = false ∧ (∀ r ∈ s.chk.runs, r.target ≠ c)) ∧
  (∃ (c : Nat) (b : List Byte) (x : Image) (u s : State), (s.core c).loading = true ∧ corePlot s c ≠ none ∧ ctxPlot
    s (s.core c).srcCtx = corePlot s c ∧ hubRead c (s.core c).srcCtx (plotOfCore s c) (nodeOf s (0x80 + c)) (s.core
    c).srcOff (s.core c).loadLen s = (.ok b, u) ∧ x = imageOf b ∧ loadCheck u c (s.core c).loadLen x = none) ∧
  (∃ (c why ix : Nat) (b : List Byte) (u s : State), (s.core c).loading = true ∧ corePlot s c ≠ none ∧ ctxPlot s
    (s.core c).srcCtx = corePlot s c ∧ hubRead c (s.core c).srcCtx (plotOfCore s c) (nodeOf s (0x80 + c)) (s.core
    c).srcOff (s.core c).loadLen s = (.ok b, u) ∧ loadCheck u c (s.core c).loadLen (imageOf b) = some (why, ix)) ∧
  (∃ (c mask ctx : Nat) (p : Prog) (x : Core) (s : State), s.lania.up = true ∧ coreOn s c = true ∧ x = s.core c ∧
    x.prog = some p ∧ x.resetting = false ∧ (x.st = .loaded ∨ x.st = .running) ∧ 0 < mask ∧ mask < 2 ^ p.threads ∧
    p.threads ≤ 16 ∧ ((∀ t < p.threads, bitOf mask t = true → (x.thread t).running = false)) ∧ ctxPlot s ctx =
    corePlot s c) ∧
  (∃ (c mask r : Nat) (x : Core) (s : State), s.lania.up = true ∧ coreOn s c = true ∧ x = s.core c ∧ x.st =
    .running ∧ x.resetting = false ∧ r < 16 ∧ mask = 2 ^ r ∧ (x.thread r).running = true ∧ (x.thread r).incs = [] ∧
    (x.thread r).claimed = none ∧ ((∀ kv ∈ s.sync.watches, kv.2.st = .armed → kv.2.core ≠ some c))) ∧
  (∃ (c : Nat) (s : State), s.lania.up = true ∧ coreOn s c = true ∧ (s.core c).st = .loaded ∧ (s.core c).resetting
    = false) ∧
  (∃ (c : Nat) (s : State), s.lania.up = true ∧ coreOn s c = true ∧ ((s.core c).st ≠ .empty ∨ (s.core c).resetting
    = true ∨ (s.core c).loading = true)) ∧
  (∃ (c : Nat) (s : State), s.lania.up = true ∧ coreOn s c = false) ∧
  (∃ (c mask ctx : Nat) (s : State), s.lania.up = true ∧ coreOn s c = true ∧ ((s.core c).prog = none ∨ (s.core
    c).resetting = true ∨ ((s.core c).st ≠ .loaded ∧ (s.core c).st ≠ .running))) ∧
  (∃ (c mask ctx : Nat) (s : State), s.lania.up = true ∧ coreOn s c = false) ∧
  (∃ (c mask : Nat) (s : State), s.lania.up = true ∧ coreOn s c = true ∧ ((s.core c).st ≠ .running ∨ (s.core
    c).resetting = true)) ∧
  (∃ (c mask : Nat) (s : State), s.lania.up = true ∧ coreOn s c = false) ∧
  (∃ (c : Nat) (s : State), s.lania.up = true ∧ coreOn s c = true ∧ ((s.core c).st ≠ .loaded ∨ (s.core c).resetting
    = true)) ∧
  (∃ (c : Nat) (s : State), s.lania.up = true ∧ coreOn s c = false) ∧
  (∃ (c mask ctx : Nat) (p : Prog) (s : State), s.lania.up = true ∧ coreOn s c = true ∧ (s.core c).prog = some p ∧
    (s.core c).resetting = false ∧ ((s.core c).st = .loaded ∨ (s.core c).st = .running) ∧ ((∀ r < 16, bitOf mask r =
    true → r < p.threads ∧ ((s.core c).thread r).running = false)) ∧ ctxPlot s ctx ≠ corePlot s c) ∧
  (∃ (c : Nat) (r : TilthRun) (s : State), s.lania.up = true ∧ coreOn s c = true ∧ (s.core c).st = .empty ∧ (s.core
    c).resetting = false ∧ (s.core c).loading = false ∧ r ∈ s.chk.runs ∧ r.target = c) :=
  ⟨⟨3, hub, (by decide +kernel), (by decide +kernel), (by decide +kernel), (by decide +kernel),
      (by decide +kernel), (by decide +kernel)⟩,
   ⟨0, haltImage, _, (hubRead 0 0 0 (nodeOf loading 0x80) 0 96 loading).2, loading, (by decide +kernel),
      (by decide +kernel), (by decide +kernel), (by decide +kernel), rfl, (by decide +kernel)⟩,
   ⟨0, 1, 0, List.replicate 96 (0 : Byte), (hubRead 0 0 0 (nodeOf loading 0x80) 0 96
      { loading with mem := [] }).2, { loading with mem := [] }, (by decide +kernel), (by decide +kernel),
      (by decide +kernel), (by decide +kernel), (by decide +kernel)⟩,
   ⟨0, 1, 0, progA, loaded.core 0, loaded, (by decide +kernel), (by decide +kernel), (by decide +kernel),
      (by decide +kernel), (by decide +kernel), (by decide +kernel), (by decide +kernel), (by decide +kernel),
      (by decide +kernel), (by decide +kernel), (by decide +kernel)⟩,
   ⟨0, 1, 0, (issuing (dsc 0)).core 0, issuing (dsc 0), (by decide +kernel), (by decide +kernel),
      (by decide +kernel), (by decide +kernel), (by decide +kernel), (by decide +kernel), (by decide +kernel),
      (by decide +kernel), (by decide +kernel), (by decide +kernel), (by decide +kernel)⟩,
   ⟨0, loaded, (by decide +kernel), (by decide +kernel), (by decide +kernel), (by decide +kernel)⟩,
   ⟨0, loaded, (by decide +kernel), (by decide +kernel), (by decide +kernel)⟩,
   ⟨0, { hub with boot := { hub.boot with powered := 0 } }, (by decide +kernel), (by decide +kernel)⟩,
   ⟨0, 1, 0, hub, (by decide +kernel), (by decide +kernel), (by decide +kernel)⟩,
   ⟨0, 1, 0, { hub with boot := { hub.boot with powered := 0 } }, (by decide +kernel), (by decide +kernel)⟩,
   ⟨0, 1, loaded, (by decide +kernel), (by decide +kernel), (by decide +kernel)⟩,
   ⟨0, 1, { hub with boot := { hub.boot with powered := 0 } }, (by decide +kernel), (by decide +kernel)⟩,
   ⟨0, hub, (by decide +kernel), (by decide +kernel), (by decide +kernel)⟩,
   ⟨0, { hub with boot := { hub.boot with powered := 0 } }, (by decide +kernel), (by decide +kernel)⟩,
   ⟨0, 1, 0x1000, progA, loaded, (by decide +kernel), (by decide +kernel), (by decide +kernel),
      (by decide +kernel), (by decide +kernel), (by decide +kernel), (by decide +kernel)⟩,
   ⟨3, { test := 0, target := 3, since := 0 },
      { hub with chk := { hub.chk with runs := [{ test := 0, target := 3, since := 0 }] } }, (by decide +kernel),
      (by decide +kernel), (by decide +kernel), (by decide +kernel), (by decide +kernel), (by decide +kernel),
      (by decide +kernel)⟩⟩

/-- The hypotheses of GroupsAreDefinedAndAborted can be met. -/
theorem test_groupsAreDefinedAndAborted_witness :
  (∃ (g : Nat) (image : List Byte) (s : State), g = groupSelected s ∧ image.length = 64 + 32 * (fieldAt image 0 4 /
    2 ^ 16 % 2 ^ 11) ∧ 0 < fieldAt image 0 4 / 2 ^ 16 % 2 ^ 11 ∧ inService s = true ∧ groupState s g < 2 ∧ groupBad
    s g image (groupOf image) = false) ∧
  (∃ (g : Nat) (image : List Byte) (s : State), g = groupSelected s ∧ image.length = 64 ∧ fieldAt image 0 4 / 2 ^
    16 % 2 ^ 11 = 0 ∧ groupBad s g image (groupOf image) = false ∧ inService s = true ∧ groupState s g < 2) ∧
  (∃ (image : List Byte) (s : State), (image.length ≠ 64 + 32 * (fieldAt image 0 4 / 2 ^ 16 % 2 ^ 11) ∨ inService s
    = false ∨ 2 ≤ groupState s (groupSelected s) ∨ (0 < fieldAt image 0 4 / 2 ^ 16 % 2 ^ 11 ∧ groupBad s
    (groupSelected s) image (groupOf image) = true))) ∧
  (∃ (image : List Byte) (s : State), (image.length ≠ 64 ∨ inService s = false ∨ 2 ≤ groupState s (groupSelected
    s))) ∧
  (∃ (g n : Nat) (s : State), g < 4096 ∧ s.lania.up = true ∧ csOn s = true ∧ (((s.group g).bind fun x => x.find
    n).any CSeq.underWay = false)) ∧
  (∃ (n : Nat) (s : State), (((s.group (groupSelected s)).bind fun x => x.find n).any CSeq.underWay = false)) ∧
  (∃ (reg : Option Nat) (g n : Nat) (x : Group) (q : CSeq) (s : State), (reg = none ∧ g = groupSelected s ∨ (reg =
    some g ∧ g < 4096 ∧ s.lania.up = true ∧ csOn s = true)) ∧ inService s = true ∧ s.group g = some x ∧ x.find n =
    some q ∧ q.underWay = true ∧ q.cause = none) :=
  ⟨⟨5, imageA,
      { grouped groupA with coll := {}, dict := { ported.dict with mb := { ported.dict.mb with sel := [(0x810101, 5)] } } },
      (by decide +kernel), (by decide +kernel), (by decide +kernel), (by decide +kernel), (by decide +kernel),
      (by decide +kernel)⟩,
   ⟨5, imageA.take 2 ++ [0, 0] ++ (imageA.take 64).drop 4,
      { grouped groupA with dict := { ported.dict with mb := { ported.dict.mb with sel := [(0x810101, 5)] } } },
      (by decide +kernel), (by decide +kernel), (by decide +kernel), (by decide +kernel), (by decide +kernel),
      (by decide +kernel)⟩,
   ⟨[], hub, (by decide +kernel)⟩,
   ⟨[], State.reset, (by decide +kernel)⟩,
   ⟨5, 0, hub, (by decide +kernel), (by decide +kernel), (by decide +kernel), (by decide +kernel)⟩,
   ⟨0, hub, (by decide +kernel)⟩,
   ⟨some 5, 5, 0, { groupA with seqs := [seqA] }, seqA, grouped { groupA with seqs := [seqA] },
      Or.inr (by decide +kernel), (by decide +kernel), (by decide +kernel), (by decide +kernel),
      (by decide +kernel), (by decide +kernel)⟩⟩

/-- The hypotheses of CollectivesPostAndStart can be met. -/
theorem test_collectivesPostAndStart_witness :
  (∃ (g k slot n m : Nat) (desc : List Byte) (x : Group) (mem : Member) (s : State), s.group g = some x ∧ (locals s
    x)[k]? = some (m, mem) ∧ desc.length = 128 ∧ n = fieldAt desc 4 4 ∧ (n + 2 ^ 32 - x.next) % 2 ^ 32 < x.depth ∧
    x.depth < 2 ^ 31 ∧ n % x.depth = slot ∧ fieldAt desc 0 2 % 4096 = g ∧ x.find n = none ∧ descBad x desc = false ∧
    others s x = [] ∧ x.hubs = [hubId s]) ∧
  (∃ (g k slot n m : Nat) (desc : List Byte) (x : Group) (mem : Member) (s : State), s.group g = some x ∧ (locals s
    x)[k]? = some (m, mem) ∧ desc.length = 128 ∧ n = fieldAt desc 4 4 ∧ 2 ^ 31 ≤ (n + 2 ^ 32 - x.next) % 2 ^ 32) ∧
  (∃ (g k slot n m : Nat) (desc : List Byte) (x : Group) (mem : Member) (s : State), s.group g = some x ∧ (locals s
    x)[k]? = some (m, mem) ∧ desc.length = 128 ∧ n = fieldAt desc 4 4 ∧ (n + 2 ^ 32 - x.next) % 2 ^ 32 < 2 ^ 31 ∧
    (x.depth ≤ (n + 2 ^ 32 - x.next) % 2 ^ 32 ∨ n % x.depth ≠ slot ∨ fieldAt desc 0 2 % 4096 ≠ g ∨ (∃ q, x.find n =
    some q ∧ ∃ p ∈ q.posts, p.1 = m))) ∧
  (∃ (g k slot n m : Nat) (desc : List Byte) (x : Group) (mem : Member) (q : CSeq) (b : List Byte) (s : State),
    s.group g = some x ∧ (locals s x)[k]? = some (m, mem) ∧ desc.length = 128 ∧ n = fieldAt desc 4 4 ∧ (n + 2 ^ 32 -
    x.next) % 2 ^ 32 < x.depth ∧ x.depth < 2 ^ 31 ∧ n % x.depth = slot ∧ fieldAt desc 0 2 % 4096 = g ∧ descBad x
    desc = false ∧ x.find n = some q ∧ (∀ p ∈ q.posts, p.1 ≠ m) ∧ q.sig = some b ∧ b ≠ desc.take 16 ∧ q.cause = none) ∧
  (∃ (g : Nat) (x : Group) (q : CSeq) (s : State), startsNext s g 1 = true ∧ s.group g = some x ∧ x.find x.next =
    some q ∧ throttled s = false) ∧
  (∃ (g : Nat) (s : State), startsNext s g 1 = false) ∧
  (∃ (g : Nat) (x : Group) (q : CSeq) (s : State), startsNext s g 2 = true ∧ s.group g = some x ∧ x.find x.next =
    some q ∧ throttled s = false) ∧
  (∃ (g : Nat) (s : State), startsNext s g 2 = false) ∧
  (∃ (g : Nat) (x : Group) (q : CSeq) (s : State), startsNext s g 3 = true ∧ s.group g = some x ∧ x.find x.next =
    some q ∧ throttled s = false) ∧
  (∃ (g : Nat) (s : State), startsNext s g 3 = false) ∧
  (∃ (g : Nat) (x : Group) (q : CSeq) (s : State), startsNext s g 4 = true ∧ s.group g = some x ∧ x.find x.next =
    some q ∧ throttled s = false) ∧
  (∃ (g : Nat) (s : State), startsNext s g 4 = false) ∧
  (∃ (g : Nat) (x : Group) (q : CSeq) (s : State), startsNext s g 5 = true ∧ s.group g = some x ∧ x.find x.next =
    some q ∧ throttled s = false) ∧
  (∃ (g : Nat) (s : State), startsNext s g 5 = false) ∧
  (∃ (g : Nat) (x : Group) (q : CSeq) (s : State), startsNext s g 6 = true ∧ s.group g = some x ∧ x.find x.next =
    some q ∧ throttled s = false) ∧
  (∃ (g : Nat) (s : State), startsNext s g 6 = false) ∧
  (∃ (g : Nat) (x : Group) (q : CSeq) (s : State), startsNext s g 7 = true ∧ s.group g = some x ∧ x.find x.next =
    some q ∧ throttled s = false) ∧
  (∃ (g : Nat) (s : State), startsNext s g 7 = false) ∧
  (∃ (i : Instr) (g op : Nat) (x : Group) (q : CSeq) (s : State), (op, i) ∈ [(1, .allReduce g), (2, .reduceScatter
    g), (3, .allGather g), (4, .broadcast g), (5, .collReduce g), (6, .allToAll g), (7, .barrier g)] ∧ startsNext s
    g op = true ∧ s.group g = some x ∧ x.find x.next = some q ∧ others s x = [] ∧ throttled s = true) :=
  ⟨⟨5, 0, 0, 0, 0, descA, groupA,
      { node := 0x102, cctx := 0, cnode := 0x1C0, cslots := 2, coff := 0, sigoff := 0xFF03 }, grouped groupA,
      (by decide +kernel), (by decide +kernel), (by decide +kernel), (by decide +kernel), (by decide +kernel),
      (by decide +kernel), (by decide +kernel), (by decide +kernel), (by decide +kernel), (by decide +kernel),
      (by decide +kernel), (by decide +kernel)⟩,
   ⟨5, 0, 0, 0, 0, descA, { groupA with next := 1 },
      { node := 0x102, cctx := 0, cnode := 0x1C0, cslots := 2, coff := 0, sigoff := 0xFF03 }, grouped
      { groupA with next := 1 }, (by decide +kernel), (by decide +kernel), (by decide +kernel), (by decide +kernel),
      (by decide +kernel)⟩,
   ⟨5, 0, 1, 0, 0, descA, groupA,
      { node := 0x102, cctx := 0, cnode := 0x1C0, cslots := 2, coff := 0, sigoff := 0xFF03 }, grouped groupA,
      (by decide +kernel), (by decide +kernel), (by decide +kernel), (by decide +kernel), (by decide +kernel),
      Or.inr (Or.inl (by decide))⟩,
   ⟨5, 0, 0, 0, 0, descA, { groupA with seqs := [{ seqA with posts := [], sig := some (sigA.take 8) }] },
      { node := 0x102, cctx := 0, cnode := 0x1C0, cslots := 2, coff := 0, sigoff := 0xFF03 },
      { seqA with posts := [], sig := some (sigA.take 8) }, sigA.take 8, grouped
      { groupA with seqs := [{ seqA with posts := [], sig := some (sigA.take 8) }] }, (by decide +kernel),
      (by decide +kernel), (by decide +kernel), (by decide +kernel), (by decide +kernel), (by decide +kernel),
      (by decide +kernel), (by decide +kernel), (by decide +kernel), (by decide +kernel), (by decide +kernel),
      (by decide +kernel), (by decide +kernel), (by decide +kernel)⟩,
   ⟨5, startA 1, startQ 1, starting 1, (by decide +kernel), (by decide +kernel), (by decide +kernel),
      (by decide +kernel)⟩,
   ⟨5, hub, (by decide +kernel)⟩,
   ⟨5, startA 2, startQ 2, starting 2, (by decide +kernel), (by decide +kernel), (by decide +kernel),
      (by decide +kernel)⟩,
   ⟨5, hub, (by decide +kernel)⟩,
   ⟨5, startA 3, startQ 3, starting 3, (by decide +kernel), (by decide +kernel), (by decide +kernel),
      (by decide +kernel)⟩,
   ⟨5, hub, (by decide +kernel)⟩,
   ⟨5, startA 4, startQ 4, starting 4, (by decide +kernel), (by decide +kernel), (by decide +kernel),
      (by decide +kernel)⟩,
   ⟨5, hub, (by decide +kernel)⟩,
   ⟨5, startA 5, startQ 5, starting 5, (by decide +kernel), (by decide +kernel), (by decide +kernel),
      (by decide +kernel)⟩,
   ⟨5, hub, (by decide +kernel)⟩,
   ⟨5, startA 6, startQ 6, starting 6, (by decide +kernel), (by decide +kernel), (by decide +kernel),
      (by decide +kernel)⟩,
   ⟨5, hub, (by decide +kernel)⟩,
   ⟨5, startA 7, startQ 7, starting 7, (by decide +kernel), (by decide +kernel), (by decide +kernel),
      (by decide +kernel)⟩,
   ⟨5, hub, (by decide +kernel)⟩,
   ⟨.broadcast 5, 5, 4, startA 4, startQ 4, { starting 4 with power := { (starting 4).power with duty := 8 } },
      by simp, (by decide +kernel), (by decide +kernel), (by decide +kernel), (by decide +kernel),
      (by decide +kernel)⟩⟩

/-- The hypotheses of ContributionsAndChunks can be met. -/
theorem test_contributionsAndChunks_witness :
  (∃ (via : Ingress) (h : Header) (data : List Byte) (r : Req) (s u : State) (x : Group) (q : CSeq) (b : List Byte)
    (m : Nat) (mem : Member) (k off : Nat), r = normalise s { via, op := 0xA8, h, data } ∧ u = countCells r s ∧
    Passes u r 0xC0 ∧ s.group (r.h.opb % 4096) = some x ∧ (locals s x).find? (fun l => l.2.node == r.h.src) = some
    (m, mem) ∧ x.find r.h.opc = some q ∧ q.cause = none ∧ q.exec = true ∧ q.sig = some b ∧ contributes b m = true ∧
    k = r.h.opa.toNat / x.cstride ∧ off = r.h.opa.toNat % x.cstride ∧ inWindow x q b k = true ∧ q.writing.find k =
    none ∧ expected x (sigCt b) (chunkLen x b k) off r.h.len = true ∧ (∀ i < r.h.len, q.stage.find (stageOff x
    (localIx s x m) k (off + i)) = none) ∧ data.length = r.h.len) ∧
  (∃ (via : Ingress) (h : Header) (data : List Byte) (r : Req) (s u : State), r = normalise s
    { via, op := 0xA8, h, data } ∧ u = countCells r s ∧ Passes u r 0xC0 ∧ (((s.group (r.h.opb % 4096)).all fun x =>
    !(locals s x).any fun l => l.2.node == r.h.src) = true)) ∧
  (∃ (via : Ingress) (h : Header) (data : List Byte) (r : Req) (s u : State) (x : Group) (q : CSeq) (b : List Byte)
    (m : Nat) (mem : Member) (k off : Nat), r = normalise s { via, op := 0xA8, h, data } ∧ u = countCells r s ∧
    Passes u r 0xC0 ∧ s.group (r.h.opb % 4096) = some x ∧ (locals s x).find? (fun l => l.2.node == r.h.src) = some
    (m, mem) ∧ x.find r.h.opc = some q ∧ q.sig = some b ∧ contributes b m = true ∧ k = r.h.opa.toNat / x.cstride ∧
    off = r.h.opa.toNat % x.cstride ∧ (q.cause ≠ none ∨ q.exec = false ∨ inWindow x q b k = false ∨ q.writing.find k
    ≠ none ∨ expected x (sigCt b) (chunkLen x b k) off r.h.len = false ∨ ∃ i < r.h.len, q.stage.find (stageOff x
    (localIx s x m) k (off + i)) ≠ none)) ∧
  (∃ (via : Ingress) (h : Header) (data : List Byte) (r : Req) (s u : State) (x : Group) (q : CSeq) (m : Nat) (mem
    : Member) (f : Nat), r = normalise s { via, op := 0x81, h, data } ∧ u = countCells r s ∧ Passes u r 0xC0 ∧
    s.group (r.h.opb % 4096) = some x ∧ (locals s x).find? (fun l => l.2.node == r.h.src) = some (m, mem) ∧ x.find
    r.h.opc = some q ∧ (q.exec = true ∨ (r.h.opc + 2 ^ 32 - x.next) % 2 ^ 32 < x.depth) ∧ f = fieldAt data 0 4 / 16
    % 16 ∧ 2 ≤ f ∧ f ≤ 4 ∧ fieldAt data 0 4 % 16 = 1) ∧
  (∃ (via : Ingress) (h : Header) (data : List Byte) (r : Req) (s u : State) (x : Group) (m f : Nat) (mem :
    Member), r = normalise s { via, op := 0x81, h, data } ∧ u = countCells r s ∧ Passes u r 0xC0 ∧ s.group (r.h.opb
    % 4096) = some x ∧ (locals s x).find? (fun l => l.2.node == r.h.src) = some (m, mem) ∧ f = fieldAt data 0 4 / 16
    % 16 ∧ (f < 2 ∨ 4 < f ∨ fieldAt data 0 4 % 16 ≠ 1 ∨ (x.find r.h.opc = none ∧ x.depth ≤ (r.h.opc + 2 ^ 32 -
    x.next) % 2 ^ 32))) ∧
  (∃ (g k upsets : Nat) (ve : Bool) (x : Group) (q : CSeq) (b : List Byte) (s : State) (m : Nat), s.group g = some
    x ∧ x.find x.next = some q ∧ q.sig = some b ∧ chunkHere s x q b k = true ∧ collCores s x ≠ [] ∧ q.sent.find k =
    none ∧ badContribution s x q b k = some m) ∧
  (∃ (g k upsets : Nat) (ve : Bool) (x : Group) (q : CSeq) (b : List Byte) (s : State), s.group g = some x ∧ x.find
    x.next = some q ∧ q.sig = some b ∧ chunkHere s x q b k = true ∧ badContribution s x q b k = none ∧ opReduces
    (sigOp b) = true ∧ collCores s x ≠ [] ∧ (2 < upsets ∨ (upsets = 2 ∧ (collCores s x).length = 1))) ∧
  (∃ (g k upsets : Nat) (ve : Bool) (x : Group) (q : CSeq) (b : List Byte) (s : State), s.group g = some x ∧ x.find
    x.next = some q ∧ q.sig = some b ∧ chunkHere s x q b k = true ∧ badContribution s x q b k = none ∧ collCores s x
    = []) ∧
  (∃ (g k upsets : Nat) (ve : Bool) (s : State), (((s.group g).all fun x => (x.find x.next).all fun q => !chunkHere
    s x q (q.sig.getD []) k) = true)) ∧
  (∃ (g k : Nat) (ve : Bool) (x : Group) (q : CSeq) (b : List Byte) (s : State) (u v : State) (p w : CSeq), s.group
    g = some x ∧ x.find x.next = some q ∧ q.sig = some b ∧ chunkHere s x q b k = true ∧ badContribution s x q b k =
    none ∧ collCores s x ≠ [] ∧ x.multi = false ∧ u = (if opReduces (sigOp b) then encodeSlice g x.next k (x.hubIx
    (hubId s)) x q b s else s) ∧ v = (if (locals s x).any (fun m => contributes b m.1) then u else recordStage g
    x.next (k + 1) false false (sigRoot b) u) ∧ (((u.group g).bind fun y => y.find x.next) = some p) ∧ (((v.group
    g).bind fun y => y.find x.next) = some w) ∧ p.cause = none ∧ ((∀ m ∈ locals s x, (memberPieces u x p b k
    m.1).isSome = true ∧ (receives b m.1 = true → ∃ z ∈ p.posts, z.1 = m.1)))) ∧
  (∃ (g k : Nat) (s : State), (∀ a ∈ s.coll.answers, isResult g k a.op = false) ∧ ((((s.group g).bind fun x =>
    x.find x.next).all fun q => q.writing.find k != some 0 || q.written.contains k) = true)) ∧
  (∃ (g k : Nat) (x : Group) (q : CSeq) (a : UnitAnswer) (m : Nat) (s : State), s.group g = some x ∧ x.find x.next
    = some q ∧ a.op = .result g x.next k m ∧ s.coll.answers = [a] ∧ q.writing.find k = some 2 ∧ k ∉ q.written ∧
    q.cause = none ∧ a.status = St.ok) ∧
  (∃ (g k : Nat) (x : Group) (q : CSeq) (a : UnitAnswer) (m : Nat) (s : State), s.group g = some x ∧ x.find x.next
    = some q ∧ a.op = .result g x.next k m ∧ s.coll.answers = [a] ∧ q.writing.find k = some 2 ∧ k ∉ q.written ∧
    q.cause = none ∧ a.status ≠ St.ok ∧ m ≠ 0x7FF) ∧
  (∃ (g n m : Nat) (s : State), (∀ a ∈ s.coll.answers, a.op ≠ .record g n m)) ∧
  (∃ (g n m : Nat) (x : Group) (q : CSeq) (a : UnitAnswer) (y : Member) (s : State), s.group g = some x ∧ x.find n
    = some q ∧ a.op = .record g n m ∧ s.coll.answers = [a] ∧ (∀ kv ∈ s.coll.unitOps, kv.2 ≠ .record g n m) ∧
    x.members[m]? = some y) :=
  ⟨⟨.port 2, collHdr 128, List.replicate 128 0, _, grouped { groupA with seqs := [seqA] }, _,
      { groupA with seqs := [seqA] }, seqA, sigA, 0,
      { node := 0x102, cctx := 0, cnode := 0x1C0, cslots := 2, coff := 0, sigoff := 0xFF03 }, 0, 0, rfl, rfl,
      (by decide +kernel), (by decide +kernel), (by decide +kernel), (by decide +kernel), (by decide +kernel),
      (by decide +kernel), (by decide +kernel), (by decide +kernel), (by decide +kernel), (by decide +kernel),
      (by decide +kernel), (by decide +kernel), (by decide +kernel), (by decide +kernel), (by decide +kernel)⟩,
   ⟨.port 2, collHdr 128, List.replicate 128 0, _, ported, _, rfl, rfl, (by decide +kernel), (by decide +kernel)⟩,
   ⟨.port 2, collHdr 128, List.replicate 128 0, _, grouped { groupA with seqs := [{ seqA with exec := false }] },
      _, { groupA with seqs := [{ seqA with exec := false }] }, { seqA with exec := false }, sigA, 0,
      { node := 0x102, cctx := 0, cnode := 0x1C0, cslots := 2, coff := 0, sigoff := 0xFF03 }, 0, 0, rfl, rfl,
      (by decide +kernel), (by decide +kernel), (by decide +kernel), (by decide +kernel), (by decide +kernel),
      (by decide +kernel), (by decide +kernel), (by decide +kernel), Or.inr (Or.inl rfl)⟩,
   ⟨.port 2, collHdr 16, [0x21] ++ List.replicate 15 0, _, grouped { groupA with seqs := [seqA] }, _,
      { groupA with seqs := [seqA] }, seqA, 0,
      { node := 0x102, cctx := 0, cnode := 0x1C0, cslots := 2, coff := 0, sigoff := 0xFF03 }, 2, rfl, rfl,
      (by decide +kernel), (by decide +kernel), (by decide +kernel), (by decide +kernel), (by decide +kernel),
      (by decide +kernel), (by decide +kernel), (by decide +kernel)⟩,
   ⟨.port 2, collHdr 16, [0x51] ++ List.replicate 15 0, _, grouped { groupA with seqs := [seqA] }, _,
      { groupA with seqs := [seqA] }, 0, 5,
      { node := 0x102, cctx := 0, cnode := 0x1C0, cslots := 2, coff := 0, sigoff := 0xFF03 }, rfl, rfl,
      (by decide +kernel), (by decide +kernel), (by decide +kernel), (by decide +kernel), (by decide +kernel)⟩,
   ⟨5, 0, 0, true, { groupA with seqs := [{ seqA with stage := (stagedA.set 69632 1) }] },
      { seqA with stage := (stagedA.set 69632 1) }, sigA, grouped
      { groupA with seqs := [{ seqA with stage := (stagedA.set 69632 1) }] }, 0, (by decide +kernel),
      (by decide +kernel), (by decide +kernel), (by decide +kernel), (by decide +kernel), (by decide +kernel),
      (by decide +kernel)⟩,
   ⟨5, 0, 3, true, { groupA with seqs := [reduceSeqA] }, reduceSeqA, [5, 0x10] ++ sigA.drop 2, grouped
      { groupA with seqs := [reduceSeqA] }, (by decide +kernel), (by decide +kernel), (by decide +kernel),
      (by decide +kernel), (by decide +kernel), (by decide +kernel), (by decide +kernel), (by decide +kernel)⟩,
   ⟨5, 0, 0, true, { groupA with seqs := [{ seqA with stage := stagedA }], cores := 0 },
      { seqA with stage := stagedA }, sigA, grouped
      { groupA with seqs := [{ seqA with stage := stagedA }], cores := 0 }, (by decide +kernel),
      (by decide +kernel), (by decide +kernel), (by decide +kernel), (by decide +kernel), (by decide +kernel)⟩,
   ⟨5, 0, 0, true, hub, (by decide +kernel)⟩,
   ⟨5, 0, true, { groupA with seqs := [{ seqA with stage := stagedA }] }, { seqA with stage := stagedA }, sigA,
      grouped { groupA with seqs := [{ seqA with stage := stagedA }] }, _, _, { seqA with stage := stagedA },
      { seqA with stage := stagedA }, (by decide +kernel), (by decide +kernel), (by decide +kernel),
      (by decide +kernel), (by decide +kernel), (by decide +kernel), (by decide +kernel), rfl, rfl,
      (by decide +kernel), (by decide +kernel), (by decide +kernel), (by decide +kernel)⟩,
   ⟨5, 0, hub, (by decide +kernel), (by decide +kernel)⟩,
   ⟨5, 0, { groupA with seqs := [{ seqA with writing := [(0, 2)] }] }, { seqA with writing := [(0, 2)] },
      { op := .result 5 0 0 0, status := 0, detail := 0, time := 0 }, 0,
      { grouped { groupA with seqs := [{ seqA with writing := [(0, 2)] }] } with coll := { (grouped { groupA with seqs := [{ seqA with writing := [(0, 2)] }] }).coll with answers := [{ op := .result 5 0 0 0, status := 0, detail := 0, time := 0 }] } },
      (by decide +kernel), (by decide +kernel), (by decide +kernel), (by decide +kernel), (by decide +kernel),
      (by decide +kernel), (by decide +kernel), (by decide +kernel)⟩,
   ⟨5, 0, { groupA with seqs := [{ seqA with writing := [(0, 2)] }] }, { seqA with writing := [(0, 2)] },
      { op := .result 5 0 0 0, status := 0x20, detail := 0, time := 0 }, 0,
      { grouped { groupA with seqs := [{ seqA with writing := [(0, 2)] }] } with coll := { (grouped { groupA with seqs := [{ seqA with writing := [(0, 2)] }] }).coll with answers := [{ op := .result 5 0 0 0, status := 0x20, detail := 0, time := 0 }] } },
      (by decide +kernel), (by decide +kernel), (by decide +kernel), (by decide +kernel), (by decide +kernel),
      (by decide +kernel), (by decide +kernel), (by decide +kernel), (by decide +kernel)⟩,
   ⟨5, 0, 0, hub, (by decide +kernel)⟩,
   ⟨5, 0, 0, { groupA with seqs := [{ seqA with finish := [(0, .record)] }] },
      { seqA with finish := [(0, .record)] }, { op := .record 5 0 0, status := 0, detail := 0, time := 0 },
      { node := 0x102, cctx := 0, cnode := 0x1C0, cslots := 2, coff := 0, sigoff := 0xFF03 },
      { grouped { groupA with seqs := [{ seqA with finish := [(0, .record)] }] } with coll := { (grouped { groupA with seqs := [{ seqA with finish := [(0, .record)] }] }).coll with answers := [{ op := .record 5 0 0, status := 0, detail := 0, time := 0 }] } },
      (by decide +kernel), (by decide +kernel), (by decide +kernel), (by decide +kernel), (by decide +kernel),
      (by decide +kernel)⟩⟩

/-- The hypotheses of ExchangeBetweenHubs can be met. -/
theorem test_exchangeBetweenHubs_witness :
  (∃ (hub g n : Nat) (payload : List Byte) (x : Group) (q : CSeq) (s : State), g = fieldAt payload 0 4 / 16 % 4096
    ∧ n = fieldAt payload 4 4 ∧ s.group g = some x ∧ hub ∈ x.hubs ∧ hub ≠ hubId s ∧ (n + 2 ^ 32 - x.next) % 2 ^ 32 <
    2 ^ 31 ∧ 32 ≤ payload.length ∧ x.find n = some q ∧ q.cause = none ∧ slice payload 24 8 = takePad 8 x.digest ∧
    q.sig = some (takePad 16 (payload.drop 32)) ∧ q.sigs = []) ∧
  (∃ (hub g n : Nat) (payload : List Byte) (x : Group) (q : CSeq) (s : State), g = fieldAt payload 0 4 / 16 % 4096
    ∧ n = fieldAt payload 4 4 ∧ s.group g = some x ∧ hub ∈ x.hubs ∧ hub ≠ hubId s ∧ (n + 2 ^ 32 - x.next) % 2 ^ 32 <
    2 ^ 31 ∧ 32 ≤ payload.length ∧ x.find n = some q ∧ q.cause = none ∧ slice payload 24 8 = takePad 8 x.digest) ∧
  (∃ (hub g n : Nat) (payload : List Byte) (x : Group) (q : CSeq) (s : State), g = fieldAt payload 0 4 / 16 % 4096
    ∧ n = fieldAt payload 4 4 ∧ s.group g = some x ∧ hub ∈ x.hubs ∧ hub ≠ hubId s ∧ (n + 2 ^ 32 - x.next) % 2 ^ 32 <
    2 ^ 31 ∧ 32 ≤ payload.length ∧ x.find n = some q ∧ q.cause = none ∧ x.ring = false ∧ slice payload 24 8 =
    takePad 8 x.digest) ∧
  (∃ (hub g n : Nat) (payload : List Byte) (x : Group) (q : CSeq) (s : State), g = fieldAt payload 0 4 / 16 % 4096
    ∧ n = fieldAt payload 4 4 ∧ s.group g = some x ∧ hub ∈ x.hubs ∧ hub ≠ hubId s ∧ (n + 2 ^ 32 - x.next) % 2 ^ 32 <
    2 ^ 31 ∧ 32 ≤ payload.length ∧ x.find n = some q ∧ q.cause = none ∧ x.ring = false ∧ slice payload 24 8 =
    takePad 8 x.digest) ∧
  (∃ (hub g n : Nat) (payload : List Byte) (x : Group) (q : CSeq) (s : State), g = fieldAt payload 0 4 / 16 % 4096
    ∧ n = fieldAt payload 4 4 ∧ s.group g = some x ∧ hub ∈ x.hubs ∧ hub ≠ hubId s ∧ (n + 2 ^ 32 - x.next) % 2 ^ 32 <
    2 ^ 31 ∧ 32 ≤ payload.length ∧ x.find n = some q ∧ q.cause = none ∧ slice payload 24 8 = takePad 8 x.digest) ∧
  (∃ (hub g n : Nat) (payload : List Byte) (x : Group) (q : CSeq) (s : State) (w : Nat), g = fieldAt payload 0 4 /
    16 % 4096 ∧ n = fieldAt payload 4 4 ∧ s.group g = some x ∧ hub ∈ x.hubs ∧ hub ≠ hubId s ∧ (n + 2 ^ 32 - x.next)
    % 2 ^ 32 < 2 ^ 31 ∧ 32 ≤ payload.length ∧ x.find n = some q ∧ q.cause = none ∧ slice payload 24 8 = takePad 8
    x.digest ∧ w = fieldAt payload 20 4) ∧
  (∃ (hub g n : Nat) (payload : List Byte) (x : Group) (q : CSeq) (s : State), g = fieldAt payload 0 4 / 16 % 4096
    ∧ n = fieldAt payload 4 4 ∧ s.group g = some x ∧ hub ∈ x.hubs ∧ hub ≠ hubId s ∧ (n + 2 ^ 32 - x.next) % 2 ^ 32 <
    2 ^ 31 ∧ 32 ≤ payload.length ∧ x.find n = some q ∧ q.cause = none ∧ x.ring = false ∧ slice payload 24 8 =
    takePad 8 x.digest) ∧
  (∃ (i : Instr) (hub g n : Nat) (payload : List Byte) (x : Group) (q : CSeq) (s : State), g = fieldAt payload 0 4
    / 16 % 4096 ∧ n = fieldAt payload 4 4 ∧ s.group g = some x ∧ hub ∈ x.hubs ∧ hub ≠ hubId s ∧ (n + 2 ^ 32 -
    x.next) % 2 ^ 32 < 2 ^ 31 ∧ 32 ≤ payload.length ∧ x.find n = some q ∧ q.cause = none ∧ slice payload 24 8 ≠
    takePad 8 x.digest ∧ i ∈ [.xchSignature hub payload, .xchPartial hub payload, .xchResult hub payload, .xchData
    hub payload, .xchNotice hub payload, .xchAbort hub payload, .xchDone hub payload]) ∧
  (∃ (hub g n : Nat) (payload : List Byte) (x : Group) (q : CSeq) (s : State), g = fieldAt payload 0 4 / 16 % 4096
    ∧ n = fieldAt payload 4 4 ∧ s.group g = some x ∧ hub ∈ x.hubs ∧ hub ≠ hubId s ∧ (n + 2 ^ 32 - x.next) % 2 ^ 32 <
    2 ^ 31 ∧ 32 ≤ payload.length ∧ x.find n = some q ∧ q.cause = none ∧ x.ring = true ∧ slice payload 24 8 = takePad
    8 x.digest) ∧
  (∃ (hub g n : Nat) (payload : List Byte) (x : Group) (q : CSeq) (s : State), g = fieldAt payload 0 4 / 16 % 4096
    ∧ n = fieldAt payload 4 4 ∧ s.group g = some x ∧ hub ∈ x.hubs ∧ hub ≠ hubId s ∧ (n + 2 ^ 32 - x.next) % 2 ^ 32 <
    2 ^ 31 ∧ 32 ≤ payload.length ∧ x.find n = some q ∧ q.cause = none ∧ x.ring = true ∧ ((opReduces (sigOp
    (q.sig.getD [])) = false ∨ fieldAt payload 16 4 / 2 ^ 26 ≠ x.hubIx (hubId s))) ∧ slice payload 24 8 = takePad 8
    x.digest) ∧
  (∃ (hub g n : Nat) (payload : List Byte) (x : Group) (q : CSeq) (s : State), g = fieldAt payload 0 4 / 16 % 4096
    ∧ n = fieldAt payload 4 4 ∧ s.group g = some x ∧ hub ∈ x.hubs ∧ hub ≠ hubId s ∧ (n + 2 ^ 32 - x.next) % 2 ^ 32 <
    2 ^ 31 ∧ 32 ≤ payload.length ∧ x.find n = some q ∧ q.cause = none ∧ x.ring = true ∧ slice payload 24 8 = takePad
    8 x.digest) ∧
  (∃ (hub g n : Nat) (payload : List Byte) (x : Group) (q : CSeq) (s : State) (w : Nat) (c d : Cause), g = fieldAt
    payload 0 4 / 16 % 4096 ∧ n = fieldAt payload 4 4 ∧ s.group g = some x ∧ hub ∈ x.hubs ∧ hub ≠ hubId s ∧ (n + 2 ^
    32 - x.next) % 2 ^ 32 < 2 ^ 31 ∧ 32 ≤ payload.length ∧ x.find n = some q ∧ q.cause = some d ∧ slice payload 24 8
    = takePad 8 x.digest ∧ w = fieldAt payload 20 4 ∧ c =
    { status := w % 256, named := w / 2 ^ 8 % 2 ^ 11, reason := w / 2 ^ 19 % 2 ^ 5, hubLevel := bitOf w 24, time := fieldAt (payload.drop 32) 0 8, hub := x.hubIx hub }) ∧
  (∃ (i : Instr) (hub g : Nat) (payload : List Byte) (s : State), g = fieldAt payload 0 4 / 16 % 4096 ∧ i ∈
    [.xchSignature hub payload, .xchPartial hub payload, .xchResult hub payload, .xchData hub payload, .xchNotice
    hub payload, .xchAbort hub payload, .xchDone hub payload] ∧ (hub = hubId s ∨ s.group g = none ∨ ∃ x, s.group g =
    some x ∧ (hub ∉ x.hubs ∨ 2 ^ 31 ≤ (fieldAt payload 4 4 + 2 ^ 32 - x.next) % 2 ^ 32)) ∧ 4 ≤ payload.length) :=
  ⟨⟨2, 5, 0, xchA sigA, { groupB with seqs := [seqA] }, seqA, grouped { groupB with seqs := [seqA] },
      (by decide +kernel), (by decide +kernel), (by decide +kernel), (by decide +kernel), (by decide +kernel),
      (by decide +kernel), (by decide +kernel), (by decide +kernel), (by decide +kernel), (by decide +kernel),
      (by decide +kernel), (by decide +kernel)⟩,
   ⟨2, 5, 0, xchA [1, 2], { groupB with seqs := [seqA] }, seqA, grouped { groupB with seqs := [seqA] },
      (by decide +kernel), (by decide +kernel), (by decide +kernel), (by decide +kernel), (by decide +kernel),
      (by decide +kernel), (by decide +kernel), (by decide +kernel), (by decide +kernel), (by decide +kernel)⟩,
   ⟨2, 5, 0, xchA [1, 2], { groupB with seqs := [seqA] }, seqA, grouped { groupB with seqs := [seqA] },
      (by decide +kernel), (by decide +kernel), (by decide +kernel), (by decide +kernel), (by decide +kernel),
      (by decide +kernel), (by decide +kernel), (by decide +kernel), (by decide +kernel), (by decide +kernel),
      (by decide +kernel)⟩,
   ⟨2, 5, 0, xchA [1, 2], { groupB with seqs := [seqA] }, seqA, grouped { groupB with seqs := [seqA] },
      (by decide +kernel), (by decide +kernel), (by decide +kernel), (by decide +kernel), (by decide +kernel),
      (by decide +kernel), (by decide +kernel), (by decide +kernel), (by decide +kernel), (by decide +kernel),
      (by decide +kernel)⟩,
   ⟨2, 5, 0, xchA [], { groupB with seqs := [seqA] }, seqA, grouped { groupB with seqs := [seqA] },
      (by decide +kernel), (by decide +kernel), (by decide +kernel), (by decide +kernel), (by decide +kernel),
      (by decide +kernel), (by decide +kernel), (by decide +kernel), (by decide +kernel), (by decide +kernel)⟩,
   ⟨2, 5, 0, xchA (natLe 8 77), { groupB with seqs := [seqA] }, seqA, grouped { groupB with seqs := [seqA] }, 0,
      (by decide +kernel), (by decide +kernel), (by decide +kernel), (by decide +kernel), (by decide +kernel),
      (by decide +kernel), (by decide +kernel), (by decide +kernel), (by decide +kernel), (by decide +kernel),
      (by decide +kernel)⟩,
   ⟨2, 5, 0, xchA [], { groupB with seqs := [seqA] }, seqA, grouped { groupB with seqs := [seqA] },
      (by decide +kernel), (by decide +kernel), (by decide +kernel), (by decide +kernel), (by decide +kernel),
      (by decide +kernel), (by decide +kernel), (by decide +kernel), (by decide +kernel), (by decide +kernel),
      (by decide +kernel)⟩,
   ⟨.xchDone 2 (xchA []), 2, 5, 0, xchA [], { groupB with seqs := [seqA], digest := List.replicate 8 1 }, seqA,
      grouped { groupB with seqs := [seqA], digest := List.replicate 8 1 }, (by decide +kernel),
      (by decide +kernel), (by decide +kernel), (by decide +kernel), (by decide +kernel), (by decide +kernel),
      (by decide +kernel), (by decide +kernel), (by decide +kernel), (by decide +kernel), (by decide +kernel)⟩,
   ⟨2, 5, 0, xchA [1, 2], { groupB with seqs := [seqA], ring := true }, seqA, grouped
      { groupB with seqs := [seqA], ring := true }, (by decide +kernel), (by decide +kernel), (by decide +kernel),
      (by decide +kernel), (by decide +kernel), (by decide +kernel), (by decide +kernel), (by decide +kernel),
      (by decide +kernel), (by decide +kernel), (by decide +kernel)⟩,
   ⟨2, 5, 0, xchA [1, 2], { groupB with seqs := [seqA], ring := true }, seqA, grouped
      { groupB with seqs := [seqA], ring := true }, (by decide +kernel), (by decide +kernel), (by decide +kernel),
      (by decide +kernel), (by decide +kernel), (by decide +kernel), (by decide +kernel), (by decide +kernel),
      (by decide +kernel), (by decide +kernel), Or.inl (by decide +kernel), (by decide +kernel)⟩,
   ⟨2, 5, 0, xchA [1, 2], { groupB with seqs := [seqA], ring := true }, seqA, grouped
      { groupB with seqs := [seqA], ring := true }, (by decide +kernel), (by decide +kernel), (by decide +kernel),
      (by decide +kernel), (by decide +kernel), (by decide +kernel), (by decide +kernel), (by decide +kernel),
      (by decide +kernel), (by decide +kernel), (by decide +kernel)⟩,
   ⟨2, 5, 0, xchA (natLe 8 77),
      { groupB with seqs := [{ seqA with cause := some { status := 3, named := 0, reason := 1, hubLevel := false, time := 99, hub := 0 } }] },
      { seqA with cause := some { status := 3, named := 0, reason := 1, hubLevel := false, time := 99, hub := 0 } },
      grouped
      { groupB with seqs := [{ seqA with cause := some { status := 3, named := 0, reason := 1, hubLevel := false, time := 99, hub := 0 } }] },
      0, _, { status := 3, named := 0, reason := 1, hubLevel := false, time := 99, hub := 0 }, (by decide +kernel),
      (by decide +kernel), (by decide +kernel), (by decide +kernel), (by decide +kernel), (by decide +kernel),
      (by decide +kernel), (by decide +kernel), (by decide +kernel), (by decide +kernel), (by decide +kernel), rfl⟩,
   ⟨.xchDone 2 (xchA []), 2, 5, xchA [], ported, (by decide +kernel), by simp,
      Or.inr (Or.inl (by decide +kernel)), (by decide +kernel)⟩⟩

/-- The hypotheses of CollectivesEnd can be met. -/
theorem test_collectivesEnd_witness :
  (∃ (g : Nat) (x : Group) (q : CSeq) (s : State), s.group g = some x ∧ x.find x.next = some q ∧ q.finish = [] ∧
    q.cause.isSome = true ∧ writesAnswered q = true ∧ (x.multi = false ∨ q.known + 4000 ≤ s.now) ∧ locals s x ≠ [] ∧
    fenced s x.plot = false) ∧
  (∃ (g : Nat) (x : Group) (q : CSeq) (s : State), s.group g = some x ∧ x.find x.next = some q ∧ q.finish = [] ∧
    q.cause.isSome = true ∧ writesAnswered q = true ∧ (x.multi = false ∨ q.known + 4000 ≤ s.now) ∧ (locals s x = []
    ∨ fenced s x.plot = true)) ∧
  (∃ (g n : Nat) (s : State), (s.group g).bind (fun x => x.find n) = none) ∧
  (∃ (g : Nat) (x : Group) (q : CSeq) (s : State), s.group g = some x ∧ x.find x.next = some q ∧ q.finish = [] ∧
    q.cause.isSome = true ∧ x.multi = true ∧ s.now < q.known + 4000) ∧
  (∃ (g : Nat) (x : Group) (q : CSeq) (s : State) (stage step name waited : Nat) (level : Bool), s.group g = some x
    ∧ ((∀ kv ∈ s.coll.groups, kv.1 ≠ g → ∀ r ∈ kv.2.find kv.2.next, r.exec = true → r.cause = none → overdue s kv.2
    r = [])) ∧ x.find x.next = some q ∧ q.exec = true ∧ q.cause = none ∧ (overdue s x q).head? = some (stage, step,
    name, level, waited)) ∧
  (∃ (s : State), ((∀ kv ∈ s.coll.groups, ∀ q, kv.2.find kv.2.next = some q → q.exec = true → q.cause = none →
    overdue s kv.2 q = []))) :=
  ⟨⟨5,
      { groupA with seqs := [{ seqA with cause := some { status := 3, named := 0, reason := 1, hubLevel := false, time := 0, hub := 0 } }] },
      { seqA with cause := some { status := 3, named := 0, reason := 1, hubLevel := false, time := 0, hub := 0 } },
      grouped
      { groupA with seqs := [{ seqA with cause := some { status := 3, named := 0, reason := 1, hubLevel := false, time := 0, hub := 0 } }] },
      (by decide +kernel), (by decide +kernel), (by decide +kernel), (by decide +kernel), (by decide +kernel),
      Or.inl (by decide +kernel), (by decide +kernel), (by decide +kernel)⟩,
   ⟨5,
      { groupA with members := [], seqs := [{ seqA with cause := some { status := 3, named := 0, reason := 1, hubLevel := false, time := 0, hub := 0 } }] },
      { seqA with cause := some { status := 3, named := 0, reason := 1, hubLevel := false, time := 0, hub := 0 } },
      grouped
      { groupA with members := [], seqs := [{ seqA with cause := some { status := 3, named := 0, reason := 1, hubLevel := false, time := 0, hub := 0 } }] },
      (by decide +kernel), (by decide +kernel), (by decide +kernel), (by decide +kernel), (by decide +kernel),
      Or.inl (by decide +kernel), Or.inl (by decide +kernel)⟩,
   ⟨5, 0, hub, (by decide +kernel)⟩,
   ⟨5,
      { groupB with seqs := [{ { seqA with cause := some { status := 3, named := 0, reason := 1, hubLevel := false, time := 0, hub := 0 } } with known := 9999999999 }] },
      { { seqA with cause := some { status := 3, named := 0, reason := 1, hubLevel := false, time := 0, hub := 0 } } with known := 9999999999 },
      grouped
      { groupB with seqs := [{ { seqA with cause := some { status := 3, named := 0, reason := 1, hubLevel := false, time := 0, hub := 0 } } with known := 9999999999 }] },
      (by decide +kernel), (by decide +kernel), (by decide +kernel), (by decide +kernel), (by decide +kernel),
      (by decide +kernel)⟩,
   ⟨5, { groupA with seqs := [seqA] }, seqA, grouped { groupA with seqs := [seqA] }, 1, 2, 0, 10000000000, false,
      (by decide +kernel), (by decide +kernel), (by decide +kernel), (by decide +kernel), (by decide +kernel),
      (by decide +kernel)⟩,
   ⟨grouped { groupA with seqs := [] }, by decide +kernel⟩⟩

/-- The hypotheses of WatchesArmFireAndRetry can be met. -/
theorem test_watchesArmFireAndRetry_witness :
  (∃ (cmd : List Byte) (w ctr md act tn : Nat) (s : State), ctr = fieldAt cmd 2 2 ∧ w = fieldAt cmd 4 4 ∧
    cmd.length = 32 ∧ w < 2 ^ 14 ∧ fieldAt cmd 1 1 = 0 ∧ fieldAt cmd 30 2 = 0 ∧ s.lania.up = true ∧ csOn s = true ∧
    ctrIn s 0 ctr = true ∧ watchIn s 0 w = true ∧ md = fieldAt cmd 0 1 / 16 % 4 ∧ act = fieldAt cmd 0 1 / 64 ∧ md <
    3 ∧ tn = fieldAt cmd 20 2 ∧ act < 2 ∧ ¬ (md = 2 ∧ fieldAt cmd 16 4 = 0) ∧ hubOf tn = hubId s ∧ lepInPlot s
    (lepOf tn) 0 = true ∧ s.chk.badMeta.contains (.watch w) = false ∧ (s.watch w).st = .free) ∧
  (∃ (cmd : List Byte) (w ctr md act : Nat) (s : State), ctr = fieldAt cmd 2 2 ∧ w = fieldAt cmd 4 4 ∧ cmd.length =
    32 ∧ w < 2 ^ 14 ∧ fieldAt cmd 1 1 = 0 ∧ fieldAt cmd 30 2 = 0 ∧ s.lania.up = true ∧ csOn s = true ∧ ctrIn s 0 ctr
    = true ∧ watchIn s 0 w = true ∧ md = fieldAt cmd 0 1 / 16 % 4 ∧ act = fieldAt cmd 0 1 / 64 ∧ md < 3 ∧ act < 2 ∧
    ¬ (md = 2 ∧ fieldAt cmd 16 4 = 0) ∧ hubOf (fieldAt cmd 20 2) = hubId s ∧ lepInPlot s (lepOf (fieldAt cmd 20 2))
    0 = true ∧ s.chk.badMeta.contains (.watch w) = false ∧ (s.watch w).st = .armed ∧ (s.watch w).owner = nodeOf s
    0xC1 ∧ (s.watch w).core = none) ∧
  (∃ (cmd : List Byte) (w ctr md act : Nat) (s : State), ctr = fieldAt cmd 2 2 ∧ w = fieldAt cmd 4 4 ∧ cmd.length =
    32 ∧ s.lania.up = true ∧ csOn s = true ∧ md = fieldAt cmd 0 1 / 16 % 4 ∧ act = fieldAt cmd 0 1 / 64 ∧ (md = 3 ∨
    2 ≤ act ∨ 2 ^ 14 ≤ w ∨ fieldAt cmd 1 1 ≠ 0 ∨ fieldAt cmd 30 2 ≠ 0 ∨ (md = 2 ∧ fieldAt cmd 16 4 = 0))) ∧
  (∃ (cmd : List Byte) (w ctr md act : Nat) (s : State), ctr = fieldAt cmd 2 2 ∧ w = fieldAt cmd 4 4 ∧ cmd.length =
    32 ∧ s.lania.up = true ∧ csOn s = true ∧ md = fieldAt cmd 0 1 / 16 % 4 ∧ act = fieldAt cmd 0 1 / 64 ∧ (md = 3 ∨
    2 ≤ act ∨ 2 ^ 14 ≤ w ∨ fieldAt cmd 1 1 ≠ 0 ∨ fieldAt cmd 30 2 ≠ 0 ∨ (md = 2 ∧ fieldAt cmd 16 4 = 0))) ∧
  (∃ (cmd : List Byte) (w ctr md act : Nat) (s : State), ctr = fieldAt cmd 2 2 ∧ w = fieldAt cmd 4 4 ∧ cmd.length =
    32 ∧ s.lania.up = true ∧ csOn s = true ∧ md = fieldAt cmd 0 1 / 16 % 4 ∧ act = fieldAt cmd 0 1 / 64 ∧ w < 2 ^ 14
    ∧ fieldAt cmd 1 1 = 0 ∧ fieldAt cmd 30 2 = 0 ∧ md < 3 ∧ ¬ (md = 2 ∧ fieldAt cmd 16 4 = 0) ∧ act < 2 ∧ (ctrIn s 0
    ctr = false ∨ watchIn s 0 w = false ∨ (hubOf (fieldAt cmd 20 2) = hubId s ∧ lepInPlot s (lepOf (fieldAt cmd 20
    2)) 0 = false))) ∧
  (∃ (cmd : List Byte) (w ctr md act : Nat) (s : State), ctr = fieldAt cmd 2 2 ∧ w = fieldAt cmd 4 4 ∧ cmd.length =
    32 ∧ s.lania.up = true ∧ csOn s = true ∧ md = fieldAt cmd 0 1 / 16 % 4 ∧ act = fieldAt cmd 0 1 / 64 ∧ w < 2 ^ 14
    ∧ fieldAt cmd 1 1 = 0 ∧ fieldAt cmd 30 2 = 0 ∧ md < 3 ∧ ¬ (md = 2 ∧ fieldAt cmd 16 4 = 0) ∧ act < 2 ∧ (ctrIn s 0
    ctr = false ∨ watchIn s 0 w = false ∨ (hubOf (fieldAt cmd 20 2) = hubId s ∧ lepInPlot s (lepOf (fieldAt cmd 20
    2)) 0 = false))) ∧
  (∃ (cmd : List Byte) (w ctr md act : Nat) (s : State), ctr = fieldAt cmd 2 2 ∧ w = fieldAt cmd 4 4 ∧ cmd.length =
    32 ∧ s.lania.up = true ∧ csOn s = true ∧ md = fieldAt cmd 0 1 / 16 % 4 ∧ act = fieldAt cmd 0 1 / 64 ∧ w < 2 ^ 14
    ∧ fieldAt cmd 1 1 = 0 ∧ fieldAt cmd 30 2 = 0 ∧ md < 3 ∧ ¬ (md = 2 ∧ fieldAt cmd 16 4 = 0) ∧ act < 2 ∧ ctrIn s 0
    ctr = true ∧ watchIn s 0 w = true ∧ hubOf (fieldAt cmd 20 2) ≠ hubId s) ∧
  (∃ (cmd : List Byte) (w ctr md act : Nat) (s : State), ctr = fieldAt cmd 2 2 ∧ w = fieldAt cmd 4 4 ∧ cmd.length =
    32 ∧ s.lania.up = true ∧ csOn s = true ∧ md = fieldAt cmd 0 1 / 16 % 4 ∧ act = fieldAt cmd 0 1 / 64 ∧ w < 2 ^ 14
    ∧ fieldAt cmd 1 1 = 0 ∧ fieldAt cmd 30 2 = 0 ∧ md < 3 ∧ ¬ (md = 2 ∧ fieldAt cmd 16 4 = 0) ∧ act < 2 ∧ ctrIn s 0
    ctr = true ∧ watchIn s 0 w = true ∧ hubOf (fieldAt cmd 20 2) ≠ hubId s) ∧
  (∃ (cmd : List Byte) (w ctr md act : Nat) (s : State), ctr = fieldAt cmd 2 2 ∧ w = fieldAt cmd 4 4 ∧ cmd.length =
    32 ∧ s.lania.up = true ∧ csOn s = true ∧ md = fieldAt cmd 0 1 / 16 % 4 ∧ act = fieldAt cmd 0 1 / 64 ∧ w < 2 ^ 14
    ∧ fieldAt cmd 1 1 = 0 ∧ fieldAt cmd 30 2 = 0 ∧ md < 3 ∧ ctrIn s 0 ctr = true ∧ watchIn s 0 w = true ∧ act < 2 ∧
    ¬ (md = 2 ∧ fieldAt cmd 16 4 = 0) ∧ hubOf (fieldAt cmd 20 2) = hubId s ∧ lepInPlot s (lepOf (fieldAt cmd 20 2))
    0 = true ∧ s.chk.badMeta.contains (.watch w) = false ∧ (s.watch w).st ≠ .free) ∧
  (∃ (cmd : List Byte) (w ctr md act : Nat) (s : State), ctr = fieldAt cmd 2 2 ∧ w = fieldAt cmd 4 4 ∧ cmd.length =
    32 ∧ s.lania.up = true ∧ csOn s = true ∧ md = fieldAt cmd 0 1 / 16 % 4 ∧ act = fieldAt cmd 0 1 / 64 ∧ w < 2 ^ 14
    ∧ fieldAt cmd 1 1 = 0 ∧ fieldAt cmd 30 2 = 0 ∧ md < 3 ∧ ctrIn s 0 ctr = true ∧ watchIn s 0 w = true ∧ act < 2 ∧
    ¬ (md = 2 ∧ fieldAt cmd 16 4 = 0) ∧ hubOf (fieldAt cmd 20 2) = hubId s ∧ lepInPlot s (lepOf (fieldAt cmd 20 2))
    0 = true ∧ s.chk.badMeta.contains (.watch w) = false ∧ (s.watch w).st ≠ .free ∧ ((s.watch w).st = .reserved ∨
    (s.watch w).owner ≠ nodeOf s 0xC1)) ∧
  (∃ (cmd : List Byte) (w ctr md act : Nat) (s : State), ctr = fieldAt cmd 2 2 ∧ w = fieldAt cmd 4 4 ∧ cmd.length =
    32 ∧ s.lania.up = true ∧ csOn s = true ∧ md = fieldAt cmd 0 1 / 16 % 4 ∧ act = fieldAt cmd 0 1 / 64 ∧ w < 2 ^ 14
    ∧ fieldAt cmd 1 1 = 0 ∧ fieldAt cmd 30 2 = 0 ∧ md < 3 ∧ ctrIn s 0 ctr = true ∧ watchIn s 0 w = true ∧ act < 2 ∧
    ¬ (md = 2 ∧ fieldAt cmd 16 4 = 0) ∧ hubOf (fieldAt cmd 20 2) = hubId s ∧ lepInPlot s (lepOf (fieldAt cmd 20 2))
    0 = true ∧ s.chk.badMeta.contains (.watch w) = false ∧ (s.watch w).st = .free) ∧
  (∃ (via : Ingress) (h : Header) (cmd : List Byte) (s : State), cmd.length = 32) ∧
  (∃ (via : Ingress) (h : Header) (cmd : List Byte) (s : State), cmd.length = 32) ∧
  (∃ (s : State), (∀ c ∈ s.sync.touched, nextFiring s c = none)) ∧
  (∃ (c w : Nat) (x : Watch) (s : State), s.sync.touched = [c] ∧ s.sync.watches = [(w, x)] ∧ nextFiring s c = some
    (w, x) ∧ x.act = .doorbell ∧ x.core = none ∧ x.mode = .once) ∧
  (∃ (c w k : Nat) (x : Watch) (s : State), s.sync.touched = [c] ∧ s.sync.watches = [(w, x)] ∧ nextFiring s c =
    some (w, x) ∧ x.act = .wake ∧ x.core = some k ∧ x.mode = .once) ∧
  (∃ (c w : Nat) (x : Watch) (s : State), s.sync.touched = [c] ∧ s.sync.watches = [(w, x)] ∧ nextFiring s c = some
    (w, x) ∧ x.act = .msg ∧ x.core = none ∧ x.mode = .once) ∧
  (∃ (c w : Nat) (x : Watch) (s : State), s.sync.touched = [c] ∧ s.sync.watches = [(w, x)] ∧ nextFiring s c = some
    (w, x) ∧ x.act = .msg ∧ x.core = none ∧ x.mode = .claim) ∧
  (∃ (c w : Nat) (x : Watch) (s : State), s.sync.touched = [c] ∧ s.sync.watches = [(w, x)] ∧ nextFiring s c = some
    (w, x) ∧ x.act = .msg ∧ x.core = none ∧ x.mode = .rearm ∧ x.thr + x.step < 2 ^ 64 ∧ ctrVal s c < x.thr + x.step) ∧
  (∃ (s : State), (∀ r ∈ s.sync.retries.head?, s.now < r.sent + 1000)) ∧
  (∃ (r : Retry) (l : List Retry) (s : State), s.sync.retries = r :: l ∧ r.sent + 1000 ≤ s.now) ∧
  (∃ (a b : List Retry) (r : Retry) (d : Nat) (s : State), s.sync.retries = a ++ r :: b ∧ (∀ q ∈ a, ∀ e ∈ q.since,
    s.now < e + 1000 * cfg 0x821001 1000 s) ∧ r.since = some d ∧ d + 1000 * cfg 0x821001 1000 s ≤ s.now) ∧
  (∃ (s : State), (∀ q ∈ s.sync.retries, ∀ e ∈ q.since, s.now < e + 1000 * cfg 0x821001 1000 s)) :=
  ⟨⟨[0x41, 0, 3, 0xFF, 5, 0x3F] ++ List.replicate 2 0 ++ [4] ++ List.replicate 11 0 ++ [0x80, 1] ++
      List.replicate 10 0, 0x3F05, 0xFF03, 0, 1, 0x180, hub, (by decide +kernel), (by decide +kernel),
      (by decide +kernel), (by decide +kernel), (by decide +kernel), (by decide +kernel), (by decide +kernel),
      (by decide +kernel), (by decide +kernel), (by decide +kernel), (by decide +kernel), (by decide +kernel),
      (by decide +kernel), (by decide +kernel), (by decide +kernel), (by decide +kernel), (by decide +kernel),
      (by decide +kernel), (by decide +kernel), (by decide +kernel)⟩,
   ⟨[0x42, 0, 3, 0xFF, 5, 0x3F] ++ List.replicate 2 0 ++ [4] ++ List.replicate 11 0 ++ [0x80, 1] ++
      List.replicate 10 0, 0x3F05, 0xFF03, 0, 1,
      { hub with sync := { hub.sync with watches := [(0x3F05, { st := .armed, owner := 0x1C1 })] } },
      (by decide +kernel), (by decide +kernel), (by decide +kernel), (by decide +kernel), (by decide +kernel),
      (by decide +kernel), (by decide +kernel), (by decide +kernel), (by decide +kernel), (by decide +kernel),
      (by decide +kernel), (by decide +kernel), (by decide +kernel), (by decide +kernel), (by decide +kernel),
      (by decide +kernel), (by decide +kernel), (by decide +kernel), (by decide +kernel), (by decide +kernel),
      (by decide +kernel)⟩,
   ⟨[0x71] ++ List.replicate 31 0, 0, 0, 3, 1, hub, (by decide +kernel), (by decide +kernel),
      (by decide +kernel), (by decide +kernel), (by decide +kernel), (by decide +kernel), (by decide +kernel),
      Or.inl rfl⟩,
   ⟨[0x72] ++ List.replicate 31 0, 0, 0, 3, 1, hub, (by decide +kernel), (by decide +kernel),
      (by decide +kernel), (by decide +kernel), (by decide +kernel), (by decide +kernel), (by decide +kernel),
      Or.inl rfl⟩,
   ⟨[0x41] ++ List.replicate 31 0, 0, 0, 0, 1, hub, (by decide +kernel), (by decide +kernel),
      (by decide +kernel), (by decide +kernel), (by decide +kernel), (by decide +kernel), (by decide +kernel),
      (by decide +kernel), (by decide +kernel), (by decide +kernel), (by decide +kernel), (by decide +kernel),
      (by decide +kernel), (by decide +kernel)⟩,
   ⟨[0x42] ++ List.replicate 31 0, 0, 0, 0, 1, hub, (by decide +kernel), (by decide +kernel),
      (by decide +kernel), (by decide +kernel), (by decide +kernel), (by decide +kernel), (by decide +kernel),
      (by decide +kernel), (by decide +kernel), (by decide +kernel), (by decide +kernel), (by decide +kernel),
      (by decide +kernel), (by decide +kernel)⟩,
   ⟨[0x01, 0, 3, 0xFF, 5, 0x3F] ++ List.replicate 26 0, 0x3F05, 0xFF03, 0, 0, hub, (by decide +kernel),
      (by decide +kernel), (by decide +kernel), (by decide +kernel), (by decide +kernel), (by decide +kernel),
      (by decide +kernel), (by decide +kernel), (by decide +kernel), (by decide +kernel), (by decide +kernel),
      (by decide +kernel), (by decide +kernel), (by decide +kernel), (by decide +kernel), (by decide +kernel)⟩,
   ⟨[0x02, 0, 3, 0xFF, 5, 0x3F] ++ List.replicate 26 0, 0x3F05, 0xFF03, 0, 0, hub, (by decide +kernel),
      (by decide +kernel), (by decide +kernel), (by decide +kernel), (by decide +kernel), (by decide +kernel),
      (by decide +kernel), (by decide +kernel), (by decide +kernel), (by decide +kernel), (by decide +kernel),
      (by decide +kernel), (by decide +kernel), (by decide +kernel), (by decide +kernel), (by decide +kernel)⟩,
   ⟨[0x41, 0, 3, 0xFF, 5, 0x3F] ++ List.replicate 2 0 ++ [4] ++ List.replicate 11 0 ++ [0x80, 1] ++
      List.replicate 10 0, 0x3F05, 0xFF03, 0, 1,
      { hub with sync := { hub.sync with watches := [(0x3F05, { st := .armed, owner := 0x1C1 })] } },
      (by decide +kernel), (by decide +kernel), (by decide +kernel), (by decide +kernel), (by decide +kernel),
      (by decide +kernel), (by decide +kernel), (by decide +kernel), (by decide +kernel), (by decide +kernel),
      (by decide +kernel), (by decide +kernel), (by decide +kernel), (by decide +kernel), (by decide +kernel),
      (by decide +kernel), (by decide +kernel), (by decide +kernel), (by decide +kernel)⟩,
   ⟨[0x41, 0, 3, 0xFF, 5, 0x3F] ++ List.replicate 2 0 ++ [4] ++ List.replicate 11 0 ++ [0x80, 1] ++
      List.replicate 10 0, 0x3F05, 0xFF03, 0, 1,
      { hub with sync := { hub.sync with watches := [(0x3F05, { st := .reserved, owner := 0x180 })] } },
      (by decide +kernel), (by decide +kernel), (by decide +kernel), (by decide +kernel), (by decide +kernel),
      (by decide +kernel), (by decide +kernel), (by decide +kernel), (by decide +kernel), (by decide +kernel),
      (by decide +kernel), (by decide +kernel), (by decide +kernel), (by decide +kernel), (by decide +kernel),
      (by decide +kernel), (by decide +kernel), (by decide +kernel), (by decide +kernel), (by decide +kernel)⟩,
   ⟨[0x41, 0, 3, 0xFF, 5, 0x3F] ++ List.replicate 2 0 ++ [4] ++ List.replicate 11 0 ++ [0x80, 1] ++
      List.replicate 10 0, 0x3F05, 0xFF03, 0, 1, hub, (by decide +kernel), (by decide +kernel), (by decide +kernel),
      (by decide +kernel), (by decide +kernel), (by decide +kernel), (by decide +kernel), (by decide +kernel),
      (by decide +kernel), (by decide +kernel), (by decide +kernel), (by decide +kernel), (by decide +kernel),
      (by decide +kernel), (by decide +kernel), (by decide +kernel), (by decide +kernel), (by decide +kernel),
      (by decide +kernel)⟩,
   ⟨.port 2, hdr 0xC0 0 32, List.replicate 32 0, ported, (by decide +kernel)⟩,
   ⟨.port 2, hdr 0xC0 0 32, List.replicate 32 0, ported, (by decide +kernel)⟩,
   ⟨{ hub with sync := { hub.sync with touched := [0xFF03] } }, (by decide +kernel)⟩,
   ⟨0xFF03, 0x3F05,
      { st := .armed, mode := .once, act := .doorbell, ctr := 0xFF03, thr := 4, step := 5, core := none, owner := 0x1C1 },
      { hub with sync := { hub.sync with touched := [0xFF03], ctrs := [(0xFF03, 4)], watches := [(0x3F05, { st := .armed, mode := .once, act := .doorbell, ctr := 0xFF03, thr := 4, step := 5, core := none, owner := 0x1C1 })] } },
      (by decide +kernel), (by decide +kernel), (by decide +kernel), (by decide +kernel), (by decide +kernel),
      (by decide +kernel)⟩,
   ⟨0xFF03, 0x3F05, 0,
      { st := .armed, mode := .once, act := .wake, ctr := 0xFF03, thr := 4, step := 5, core := some 0, owner := 0x1C1 },
      { hub with sync := { hub.sync with touched := [0xFF03], ctrs := [(0xFF03, 4)], watches := [(0x3F05, { st := .armed, mode := .once, act := .wake, ctr := 0xFF03, thr := 4, step := 5, core := some 0, owner := 0x1C1 })] } },
      (by decide +kernel), (by decide +kernel), (by decide +kernel), (by decide +kernel), (by decide +kernel),
      (by decide +kernel)⟩,
   ⟨0xFF03, 0x3F05,
      { st := .armed, mode := .once, act := .msg, ctr := 0xFF03, thr := 4, step := 5, tnode := 0x180, owner := 0x1C1 },
      { hub with sync := { hub.sync with touched := [0xFF03], ctrs := [(0xFF03, 4)], watches := [(0x3F05, { st := .armed, mode := .once, act := .msg, ctr := 0xFF03, thr := 4, step := 5, tnode := 0x180, owner := 0x1C1 })] } },
      (by decide +kernel), (by decide +kernel), (by decide +kernel), (by decide +kernel), (by decide +kernel),
      (by decide +kernel)⟩,
   ⟨0xFF03, 0x3F05,
      { st := .armed, mode := .claim, act := .msg, ctr := 0xFF03, thr := 4, step := 5, tnode := 0x180, owner := 0x1C1 },
      { hub with sync := { hub.sync with touched := [0xFF03], ctrs := [(0xFF03, 1)], watches := [(0x3F05, { st := .armed, mode := .claim, act := .msg, ctr := 0xFF03, thr := 4, step := 5, tnode := 0x180, owner := 0x1C1 })] } },
      (by decide +kernel), (by decide +kernel), (by decide +kernel), (by decide +kernel), (by decide +kernel),
      (by decide +kernel)⟩,
   ⟨0xFF03, 0x3F05,
      { st := .armed, mode := .rearm, act := .msg, ctr := 0xFF03, thr := 4, step := 5, tnode := 0x180, owner := 0x1C1 },
      { hub with sync := { hub.sync with touched := [0xFF03], ctrs := [(0xFF03, 4)], watches := [(0x3F05, { st := .armed, mode := .rearm, act := .msg, ctr := 0xFF03, thr := 4, step := 5, tnode := 0x180, owner := 0x1C1 })] } },
      (by decide +kernel), (by decide +kernel), (by decide +kernel), (by decide +kernel), (by decide +kernel),
      (by decide +kernel), (by decide +kernel), (by decide +kernel)⟩,
   ⟨hub, (by decide +kernel)⟩,
   ⟨{ watch := 0x3F05, ctr := 0xFF03, tnode := 0x180, tqueue := 0, tag := 0, plot := 0, data := [], claim := false, since := some 0, sent := 0 },
      [],
      { hub with sync := { hub.sync with retries := [{ watch := 0x3F05, ctr := 0xFF03, tnode := 0x180, tqueue := 0, tag := 0, plot := 0, data := [], claim := false, since := some 0, sent := 0 }] } },
      (by decide +kernel), (by decide +kernel)⟩,
   ⟨[], [],
      { watch := 0x3F05, ctr := 0xFF03, tnode := 0x180, tqueue := 0, tag := 0, plot := 0, data := [], claim := true, since := some 0, sent := 0 },
      0,
      { hub with sync := { hub.sync with retries := [{ watch := 0x3F05, ctr := 0xFF03, tnode := 0x180, tqueue := 0, tag := 0, plot := 0, data := [], claim := true, since := some 0, sent := 0 }], grants := [(0xFF03, 2)] } },
      (by decide +kernel), (by decide +kernel), (by decide +kernel), (by decide +kernel)⟩,
   ⟨hub, (by decide +kernel)⟩⟩

/-- The hypotheses of IntegrityUnitActs can be met. -/
theorem test_integrityUnitActs_witness :
  (∃ (path unit : Nat) (o : ReplayOf) (s : State), s.chk.replays.getD (2 ^ 32 * path + unit % 2 ^ 32) 0 < 2) ∧
  (∃ (path unit c : Nat) (d : Issued) (s : State), 2 ≤ s.chk.replays.getD (2 ^ 32 * path + unit % 2 ^ 32) 0 ∧ s.inc
    c d.thread d.seq = none) ∧
  (∃ (path unit c : Nat) (d : Issued) (i : Inc) (p : Prog) (x : Desc) (s : State), 2 ≤ s.chk.replays.getD (2 ^ 32 *
    path + unit % 2 ^ 32) 0 ∧ s.inc c d.thread d.seq = some i ∧ (s.core c).prog = some p ∧ p.descs[i.idx]? = some x
    ∧ x.cont = true ∧ (s.thread c d.thread).ending = false ∧ (s.thread c d.thread).status = St.ok) ∧
  (∃ (path unit : Nat) (o : ReplayOf) (p : Packet) (via : Ingress) (u s : State), 2 ≤ s.chk.replays.getD (2 ^ 32 *
    path + unit % 2 ^ 32) 0 ∧ o = .packet via p ∧ u = raise 0xA101 ([path, unit] ++ replayFields s o)
    { s with chk := { s.chk with replays := s.chk.replays.erase (2 ^ 32 * path + unit % 2 ^ 32) } }) ∧
  (∃ (n array index : Nat) (s : State), s.chk.lastSweep + 10000000000 ≤ s.now) ∧
  (∃ (index c word : Nat) (s : State), s.chk.lastSweep + 10000000000 ≤ s.now ∧ word < 2 ^ 18) ∧
  (∃ (blk : Nat) (b : List Byte) (ecc : List (Nat × Nat × Bool)) (u s : State), filling s blk = true ∧
    s.chk.rereads.contains blk = false ∧ (u = forAll (ecc.filter fun a => a.1 / 32 == blk) eccLine s) ∧ readingGood
    u blk b = true ∧ paExt u (blk * 4096) ≠ none) ∧
  (∃ (blk : Nat) (b : List Byte) (ecc : List (Nat × Nat × Bool)) (u s : State), filling s blk = true ∧
    s.chk.rereads.contains blk = false ∧ (u = forAll (ecc.filter fun a => a.1 / 32 == blk) eccLine s) ∧ readingGood
    u blk b = false) ∧
  (∃ (blk : Nat) (b : List Byte) (ecc : List (Nat × Nat × Bool)) (s : State), (filling s blk = false ∨
    s.chk.rereads.contains blk = true)) ∧
  (∃ (blk : Nat) (b : List Byte) (s : State), (filling s blk = false ∨ s.chk.rereads.contains blk = false)) ∧
  (∃ (blk : Nat) (b : List Byte) (s : State), filling s blk = true ∧ s.chk.rereads.contains blk = true ∧
    readingGood s blk b = false) ∧
  (∃ (blk : Nat) (b : List Byte) (s : State), filling s blk = true ∧ s.chk.rereads.contains blk = true ∧
    readingGood s blk b = true ∧ paExt s (blk * 4096) ≠ none) ∧
  (∃ (b : List Byte) (s : State), trainedUp s = true) ∧
  (∃ (b : List Byte) (u s : State), s.lania.up = true ∧ csOn s = true ∧ trainedUp s = true ∧ hubRead 64
    s.chk.srcCtx 0 (nodeOf s 0xC1) s.chk.srcOff s.chk.tilthLen { s with chk := { s.chk with tilthDone := false } } =
    (.ok b, u)) ∧
  (∃ (u s : State), s.lania.up = true ∧ csOn s = true ∧ trainedUp s = true ∧ hubRead 64 s.chk.srcCtx 0 (nodeOf s
    0xC1) s.chk.srcOff s.chk.tilthLen { s with chk := { s.chk with tilthDone := false } } = (.wait, u) ∧
    u.pool.hubCmds.contains .tilth = false) ∧
  (∃ (b : List Byte) (s : State), trainedUp s = false) ∧
  (∃ (s : State), s.lania.up = true ∧ csOn s = true ∧ trainedUp s = false) ∧
  (∃ (st : Nat) (u s : State), s.lania.up = true ∧ csOn s = true ∧ trainedUp s = true ∧ hubRead 64 s.chk.srcCtx 0
    (nodeOf s 0xC1) s.chk.srcOff s.chk.tilthLen { s with chk := { s.chk with tilthDone := false } } = (.fail st, u)) ∧
  (∃ (s : State), s.lania.up = true ∧ csOn s = true ∧ s.chk.tilth = none) ∧
  (∃ (s : State), (cfg 0xA03001 86400 s = 0 ∨ firmwareDown s = true ∨ ∀ k < 192, tilthAvailable s k = true → 0 <
    tilthLast s k ∧ s.now < tilthLast s k + cfg 0xA03001 86400 s * 1000000000)) ∧
  (∃ (s : State), (inService s = false ∨ passRuns s = true ∨ (s.region (s.dict.mb.sel.getD 0xA04001 0)).count = 0)) ∧
  (∃ (r : Nat) (s : State), (inService s = false ∨ (s.region r).enable = false ∨ (s.region r).running = true ∨
    s.power.paused = true ∨ firmwareDown s = true ∨ ((s.region r).begun = true ∧ s.now < (s.region r).start +
    (s.region r).interval * 1000000000))) ∧
  (∃ (r : Nat) (l : List Nat) (bad : Option Nat) (s : State), ((s.region r).running = false ∨ s.power.paused = true
    ∨ firmwareDown s = true)) ∧
  (∃ (r : Nat) (s : State), (s.region r).running = true ∧ s.power.paused = false ∧ firmwareDown s = false ∧
    (s.region r).gone = false ∧ (s.region r).failed = false ∧ (s.region r).changed = true) ∧
  (∃ (r : Nat) (s : State), (s.region r).running = true ∧ s.power.paused = false ∧ firmwareDown s = false ∧
    ((s.region r).gone = true ∨ (s.region r).failed = true)) ∧
  (∃ (x : TilthSet) (k : Nat) (s : State), s.lania.up = true ∧ csOn s = true ∧ s.chk.tilth = some x ∧ k < 192 ∧
    tilthAvailable s k = true) ∧
  (∃ (k i e : Nat) (l : List (Nat × Nat)) (s : State), firmwareDown s = false ∧ cfg 0xA03001 86400 s ≠ 0 ∧ k < 192
    ∧ tilthAvailable s k = true ∧ tilthLast s k = 0 ∧ ((∀ j, j < k → tilthAvailable s j = false)) ∧ tilthSteps s k =
    (i, e) :: l) ∧
  (∃ (k i e : Nat) (l : List (Nat × Nat)) (b : List Byte) (y : TilthTest) (x : Image) (s : State), firmwareDown s =
    false ∧ cfg 0xA03001 86400 s ≠ 0 ∧ k < 64 ∧ tilthAvailable s k = true ∧ tilthLast s k = 0 ∧ ((∀ j, j < k →
    tilthAvailable s j = false)) ∧ tilthSteps s k = (i, e) :: l ∧ tilthOf s i = some (b, y) ∧ x = imageOf (slice b
    y.prog.1 y.prog.2)) ∧
  (∃ (r : Nat) (s : State), inService s = true ∧ passRuns s = false ∧ r = s.dict.mb.sel.getD 0xA04001 0 ∧ (s.region
    r).count ≠ 0) ∧
  (∃ (r : Nat) (s : State), inService s = true ∧ (s.region r).enable = true ∧ (s.region r).running = false ∧
    s.power.paused = false ∧ firmwareDown s = false ∧ (s.region r).start + (s.region r).interval * 1000000000 ≤
    s.now) ∧
  (∃ (r : Nat) (d : List Byte) (s : State), (s.region r).running = true ∧ s.power.paused = false ∧ firmwareDown s =
    false ∧ (s.region r).gone = false ∧ (s.region r).failed = false ∧ (s.region r).changed = false ∧ d = digestBcvs
    (regionBcvs s (s.region r))) :=
  ⟨⟨3, 5, .descriptor 0 { thread := 0, seq := 0 },
      { hub with chk := { hub.chk with replays := [(2 ^ 32 * 3 + 5, 1)] } }, (by decide +kernel)⟩,
   ⟨3, 5, 0, { thread := 0, seq := 0 }, { hub with chk := { hub.chk with replays := [(2 ^ 32 * 3 + 5, 2)] } },
      (by decide +kernel), (by decide +kernel)⟩,
   ⟨3, 5, 0, { thread := 0, seq := 0 }, { seq := 0, idx := 0, xs := [], wait := .replies }, progD
      { dsc 0 with cont := true }, { dsc 0 with cont := true },
      { busy { dsc 0 with cont := true } with chk := { hub.chk with replays := [(2 ^ 32 * 3 + 5, 2)] }, fur := { cores := [(0, { (issuing { dsc 0 with cont := true }).core 0 with threads := [(0, { running := true, halted := false, seq := 1, incs := [{ seq := 0, idx := 0, xs := [], wait := .replies }] })] })] } },
      (by decide +kernel), (by decide +kernel), (by decide +kernel), (by decide +kernel), (by decide +kernel),
      (by decide +kernel), (by decide +kernel)⟩,
   ⟨3, 5, _, .reply { op := Op.ack, dst := 0x1C1, tag := 7 }, .host, _,
      { hub with chk := { hub.chk with replays := [(2 ^ 32 * 3 + 5, 2)] } }, (by decide +kernel), rfl, rfl⟩,
   ⟨2, 1, 7, hub, (by decide +kernel)⟩,
   ⟨4, 2, 9, hub, (by decide +kernel), (by decide +kernel)⟩,
   ⟨0, List.replicate 4096 0, [], _,
      { mapped with pool := { mapped.pool with fills := [(0, 0)] }, chk := { mapped.chk with rereads := [] } },
      (by decide +kernel), (by decide +kernel), rfl, (by decide +kernel), (by decide +kernel)⟩,
   ⟨0, 1 :: List.replicate 4095 0, [], _,
      { mapped with pool := { mapped.pool with fills := [(0, 0)] }, chk := { mapped.chk with rereads := [] } },
      (by decide +kernel), (by decide +kernel), rfl, (by decide +kernel)⟩,
   ⟨0, [], [], hub, (by decide +kernel)⟩,
   ⟨0, [], hub, (by decide +kernel)⟩,
   ⟨0, 1 :: List.replicate 4095 0,
      { mapped with pool := { mapped.pool with fills := [(0, 0)] }, chk := { mapped.chk with rereads := [0] } },
      (by decide +kernel), (by decide +kernel), (by decide +kernel)⟩,
   ⟨0, List.replicate 4096 0,
      { mapped with pool := { mapped.pool with fills := [(0, 0)] }, chk := { mapped.chk with rereads := [0] } },
      (by decide +kernel), (by decide +kernel), (by decide +kernel), (by decide +kernel)⟩,
   ⟨[], hub, (by decide +kernel)⟩,
   ⟨List.replicate 128 0, (hubRead 64 0 0 0x1C1 0 128
      { tilthA with chk := { tilthA.chk with tilthDone := false } }).2, tilthA, (by decide +kernel),
      (by decide +kernel), (by decide +kernel), (by decide +kernel)⟩,
   ⟨(hubRead 64 0 0 0x1C1 0 128 { tilthWaits with chk := { tilthWaits.chk with tilthDone := false } }).2,
      tilthWaits, (by decide +kernel), (by decide +kernel), (by decide +kernel), (by decide +kernel),
      (by decide +kernel)⟩,
   ⟨[], State.reset, (by decide +kernel)⟩,
   ⟨{ hub with boot := { hub.boot with st := .island } }, (by decide +kernel), (by decide +kernel),
      (by decide +kernel)⟩,
   ⟨St.translation, (hubRead 64 0 0 0x1C1 0 128
      { tilthA with xlt := hub.xlt, chk := { tilthA.chk with tilthDone := false } }).2,
      { tilthA with xlt := hub.xlt }, (by decide +kernel), (by decide +kernel), (by decide +kernel),
      (by decide +kernel)⟩,
   ⟨hub, (by decide +kernel), (by decide +kernel), (by decide +kernel)⟩,
   ⟨hub, (by decide +kernel)⟩,
   ⟨hub, (by decide +kernel)⟩,
   ⟨0, hub, (by decide +kernel)⟩,
   ⟨0, [], none, hub, (by decide +kernel)⟩,
   ⟨0,
      { hub with chk := { hub.chk with regions := [(0, { first := 0, count := 1, enable := true, interval := 5, running := true, changed := true })] } },
      (by decide +kernel), (by decide +kernel), (by decide +kernel), (by decide +kernel), (by decide +kernel),
      (by decide +kernel)⟩,
   ⟨0,
      { hub with chk := { hub.chk with regions := [(0, { first := 0, count := 1, enable := true, interval := 5, running := true, gone := true })] } },
      (by decide +kernel), (by decide +kernel), (by decide +kernel), (by decide +kernel)⟩,
   ⟨setA 4, 0, tested 4, (by decide +kernel), (by decide +kernel), (by decide +kernel), (by decide +kernel),
      (by decide +kernel)⟩,
   ⟨0, 0, 0, [], tested 4, (by decide +kernel), (by decide +kernel), (by decide +kernel), (by decide +kernel),
      (by decide +kernel), fun _ h => absurd h (Nat.not_lt_zero _), (by decide +kernel)⟩,
   ⟨0, 0, 0, [], (setA 4).image, testA 4, _, tested 4, (by decide +kernel), (by decide +kernel),
      (by decide +kernel), (by decide +kernel), (by decide +kernel), fun _ h => absurd h (Nat.not_lt_zero _),
      (by decide +kernel), (by decide +kernel), rfl⟩,
   ⟨0,
      { hub with chk := { hub.chk with regions := [(0, { first := 0, count := 1, enable := true, interval := 5 })] } },
      (by decide +kernel), (by decide +kernel), (by decide +kernel), (by decide +kernel)⟩,
   ⟨0,
      { hub with chk := { hub.chk with regions := [(0, { first := 0, count := 1, enable := true, interval := 5 })] } },
      (by decide +kernel), (by decide +kernel), (by decide +kernel), (by decide +kernel), (by decide +kernel),
      (by decide +kernel)⟩,
   ⟨0, _,
      { hub with chk := { hub.chk with regions := [(0, { first := 0, count := 1, enable := true, interval := 5, running := true })] } },
      (by decide +kernel), (by decide +kernel), (by decide +kernel), (by decide +kernel), (by decide +kernel),
      (by decide +kernel), rfl⟩⟩

/-- The hypotheses of FailingTestsAreRepeated can be met. -/
theorem test_failingTestsAreRepeated_witness :
  (∃ (k i e : Nat) (p : Bool) (r : TilthRun) (b : List Byte) (y : TilthTest) (s : State), s.chk.runs.find? (fun x
    => x.target == k && x.test == i) = some r ∧ tilthOf s i = some (b, y) ∧ e = testEngine y.target r.te ∧ r.again =
    false ∧ tilthPasses s r p = false) ∧
  (∃ (k i e : Nat) (p : Bool) (r : TilthRun) (b : List Byte) (y : TilthTest) (s : State), s.chk.runs.find? (fun x
    => x.target == k && x.test == i) = some r ∧ tilthOf s i = some (b, y) ∧ e = testEngine y.target r.te ∧ r.again =
    true ∧ tilthPasses s r p = true ∧ k < 64) ∧
  (∃ (k i e : Nat) (p : Bool) (r : TilthRun) (b : List Byte) (y : TilthTest) (s : State), s.chk.runs.find? (fun x
    => x.target == k && x.test == i) = some r ∧ tilthOf s i = some (b, y) ∧ e = testEngine y.target r.te ∧ r.again =
    true ∧ tilthPasses s r p = true ∧ 64 ≤ k) ∧
  (∃ (k i e : Nat) (p : Bool) (r : TilthRun) (b : List Byte) (y : TilthTest) (s : State), s.chk.runs.find? (fun x
    => x.target == k && x.test == i) = some r ∧ tilthOf s i = some (b, y) ∧ e = testEngine y.target r.te ∧ r.again =
    true ∧ tilthPasses s r p = false ∧ k < 64) ∧
  (∃ (k i e : Nat) (p : Bool) (r : TilthRun) (b : List Byte) (y : TilthTest) (s : State), s.chk.runs.find? (fun x
    => x.target == k && x.test == i) = some r ∧ tilthOf s i = some (b, y) ∧ e = testEngine y.target r.te ∧ r.again =
    true ∧ tilthPasses s r p = false ∧ 64 ≤ k) ∧
  (∃ (k i e : Nat) (p : Bool) (r : TilthRun) (b : List Byte) (y : TilthTest) (s : State), s.chk.runs.find? (fun x
    => x.target == k && x.test == i) = some r ∧ tilthOf s i = some (b, y) ∧ e = testEngine y.target r.te ∧ r.again =
    false ∧ tilthPasses s r p = true) ∧
  (∃ (p : Bool) (r : TilthRun) (b : List Byte) (y : TilthTest) (s : State), tilthOf s r.test = some (b, y)) ∧
  (∃ (k i : Nat) (p : Bool) (s : State), s.chk.runs.find? (fun x => x.target == k && x.test == i) = none) :=
  ⟨⟨64, 0, 7, false, runA 64 false, (setA 5).image, testA 5, ran 5 64 false, (by decide +kernel),
      (by decide +kernel), (by decide +kernel), (by decide +kernel), (by decide +kernel)⟩,
   ⟨0, 0, 6, true, runA 0 true, (setA 4).image, testA 4, ran 4 0 true, (by decide +kernel), (by decide +kernel),
      (by decide +kernel), (by decide +kernel), (by decide +kernel), (by decide +kernel)⟩,
   ⟨64, 0, 7, true, runA 64 true, (setA 5).image, testA 5, ran 5 64 true, (by decide +kernel),
      (by decide +kernel), (by decide +kernel), (by decide +kernel), (by decide +kernel), (by decide +kernel)⟩,
   ⟨0, 0, 6, false, { runA 0 true with since := 0 }, (setA 4).image, testA 4,
      { tested 4 with chk := { (tested 4).chk with runs := [{ runA 0 true with since := 0 }] } },
      (by decide +kernel), (by decide +kernel), (by decide +kernel), (by decide +kernel), (by decide +kernel),
      (by decide +kernel)⟩,
   ⟨64, 0, 7, false, runA 64 true, (setA 5).image, testA 5, ran 5 64 true, (by decide +kernel),
      (by decide +kernel), (by decide +kernel), (by decide +kernel), (by decide +kernel), (by decide +kernel)⟩,
   ⟨0, 0, 6, true, runA 0 false, (setA 4).image, testA 4, ran 4 0 false, (by decide +kernel),
      (by decide +kernel), (by decide +kernel), (by decide +kernel), (by decide +kernel)⟩,
   ⟨true, runA 64 true, (setA 5).image, testA 5, ran 5 64 true, (by decide +kernel)⟩,
   ⟨0, 0, true, hub, (by decide +kernel)⟩⟩

/-- The hypotheses of PlotCommandsTakeEffect can be met. -/
theorem test_plotCommandsTakeEffect_witness :
  (∃ (dict : Bool) (n : Nat) (s : State), (dict = false → s.lania.up = true ∧ csOn s = true) ∧ 1 ≤ n ∧ n ≤ 8 ∧
    (s.plot n).st = .empty ∧ inService s = true) ∧
  (∃ (dict : Bool) (n : Nat) (s : State), (dict = false → s.lania.up = true ∧ csOn s = true) ∧ 1 ≤ n ∧ n ≤ 8 ∧
    (s.plot n).st = .forming ∧ 0 < plotWayCount s n) ∧
  (∃ (dict : Bool) (n : Nat) (s : State), (dict = false → s.lania.up = true ∧ csOn s = true) ∧ n ≤ 8 ∧ (s.plot
    n).st = .active ∧ (s.plot n).rotating = false ∧ (plotTier3 s n).Nodup) ∧
  (∃ (dict : Bool) (n : Nat) (s : State), (dict = false → s.lania.up = true ∧ csOn s = true) ∧ 1 ≤ n ∧ n ≤ 8 ∧
    (s.plot n).st = .active ∧ (s.plot n).rotating = true) ∧
  (∃ (dict : Bool) (n : Nat) (s : State), (dict = false → s.lania.up = true ∧ csOn s = true) ∧ 1 ≤ n ∧ n ≤ 8 ∧
    (s.plot n).st = .active ∧ (∀ kv ∈ s.coll.groups, kv.2.plot = n → kv.2.seqs.filter CSeq.underWay = [])) ∧
  (∃ (dict : Bool) (n : Nat) (s : State), (dict = false → s.lania.up = true ∧ csOn s = true) ∧ 1 ≤ n ∧ n ≤ 8 ∧
    (s.plot n).st = .hedged) ∧
  (∃ (dict : Bool) (n : Nat) (s : State), (dict = false → s.lania.up = true ∧ csOn s = true) ∧ 1 ≤ n ∧ n ≤ 8 ∧
    ((s.plot n).st = .active ∨ (s.plot n).st = .hedged ∨ (s.plot n).st = .forming) ∧ (∀ kv ∈ s.coll.groups,
    kv.2.plot = n → kv.2.seqs.filter CSeq.underWay = []) ∧ coresOf s n = [] ∧ s.xlt.faults = [] ∧ s.xlt.deferred =
    []) ∧
  (∃ (n : Nat) (s : State), (s.plot n).st = .removing ∧ s.now < (s.plot n).since + 1000 * cfg 0x602001 1000 s ∧
    plotInFlight s n = false ∧ (∀ p ∈ List.range 128, portPlot s p ≠ n)) ∧
  (∃ (n : Nat) (s : State), (s.plot n).rotating = true ∧ (s.plot n).st = .active ∧ oldFrames s n = [] ∧ spillOld s
    n = false) ∧
  (∃ (f g x : Nat) (s : State), s.key.frameGen.find f = some g ∧ extOf (f * frameBytes) = some x ∧ g ≠ genNow s x ∧
    s.power.paused = false ∧ extLost s x = false ∧ (s.plot (s.ext x).plot).st = .active) ∧
  (∃ (dict : Bool) (n : Nat) (s : State), (dict = false → s.lania.up = true ∧ csOn s = true) ∧ (n = 0 ∨ 8 < n ∨
    (s.plot n).st ≠ .empty ∨ inService s = false)) ∧
  (∃ (dict : Bool) (n : Nat) (s : State), (dict = false → s.lania.up = true ∧ csOn s = true) ∧ (n = 0 ∨ 8 < n ∨
    (s.plot n).st ≠ .forming ∨ plotWayCount s n = 0)) ∧
  (∃ (dict : Bool) (n : Nat) (s : State), (dict = false → s.lania.up = true ∧ csOn s = true) ∧ (8 < n ∨ (s.plot
    n).st ≠ .active ∨ (s.plot n).rotating = true)) ∧
  (∃ (dict : Bool) (n : Nat) (force : Bool) (s : State), (dict = false → s.lania.up = true ∧ csOn s = true) ∧ (n =
    0 ∨ 8 < n ∨ force = false ∨ (s.plot n).st ≠ .active ∨ (s.plot n).rotating = false)) ∧
  (∃ (dict : Bool) (n : Nat) (s : State), (dict = false → s.lania.up = true ∧ csOn s = true) ∧ (n = 0 ∨ 8 < n ∨
    (s.plot n).st ≠ .active)) ∧
  (∃ (dict : Bool) (n : Nat) (s : State), (dict = false → s.lania.up = true ∧ csOn s = true) ∧ (n = 0 ∨ 8 < n ∨
    (s.plot n).st ≠ .hedged)) ∧
  (∃ (dict : Bool) (n : Nat) (s : State), (dict = false → s.lania.up = true ∧ csOn s = true) ∧ (n = 0 ∨ 8 < n ∨
    ((s.plot n).st ≠ .forming ∧ (s.plot n).st ≠ .active ∧ (s.plot n).st ≠ .hedged))) ∧
  (∃ (dict : Bool) (n : Nat) (u s : State), (dict = false → s.lania.up = true ∧ csOn s = true) ∧ 1 ≤ n ∧ n ≤ 8 ∧
    (s.plot n).st = .active ∧ (u = abortPlot n (raise 0x9105 [n, 0] (s.onPlot n fun x => { x with st := .hedged })))) ∧
  (∃ (dict : Bool) (n : Nat) (u s : State), (dict = false → s.lania.up = true ∧ csOn s = true) ∧ 1 ≤ n ∧ n ≤ 8 ∧
    ((s.plot n).st = .active ∨ (s.plot n).st = .hedged ∨ (s.plot n).st = .forming) ∧ u = removePlot n s) ∧
  (∃ (n : Nat) (s : State), ((s.plot n).st ≠ .removing ∨ (s.now < (s.plot n).since + 1000 * cfg 0x602001 1000 s ∧
    plotInFlight s n = true))) ∧
  (∃ (n : Nat) (s : State), (s.plot n).st = .removing ∧ s.now < (s.plot n).since + 1000 * cfg 0x602001 1000 s ∧
    plotInFlight s n = false) ∧
  (∃ (n : Nat) (u s : State), (s.plot n).st = .removing ∧ (s.plot n).since + 1000 * cfg 0x602001 1000 s ≤ s.now ∧ u
    = removeExpires n s) ∧
  (∃ (n : Nat) (s : State), ((s.plot n).rotating = false ∨ (s.plot n).st ≠ .active ∨ oldFrames s n ≠ [] ∨ spillOld
    s n = true)) ∧
  (∃ (f : Nat) (s : State), ((∀ g ∈ s.key.frameGen.find f, ∀ x ∈ extOf (f * frameBytes), g = genNow s x ∨
    s.power.paused = true ∨ extLost s x = true ∨ (s.plot (s.ext x).plot).st ≠ .active))) :=
  ⟨⟨false, 1, hub, (by decide +kernel), (by decide +kernel), (by decide +kernel), (by decide +kernel),
      (by decide +kernel)⟩,
   ⟨false, 1, plotted { st := .forming }, (by decide +kernel), (by decide +kernel), (by decide +kernel),
      (by decide +kernel), (by decide +kernel)⟩,
   ⟨false, 0, { heldTier3 with key := { heldTier3.key with plots := [(0, { st := .active, rot := 1 })] } },
      (by decide +kernel), (by decide +kernel), (by decide +kernel), (by decide +kernel), (by decide +kernel)⟩,
   ⟨false, 1,
      { plotted { st := .active, rot := 2, rotating := true } with pool := { hub.pool with exts := [(0, { state := .assigned, plot := 1, owner := 0xC1 })] }, key := { (plotted { st := .active, rot := 2, rotating := true }).key with frameGen := [(0, 1)] } },
      (by decide +kernel), (by decide +kernel), (by decide +kernel), (by decide +kernel), (by decide +kernel)⟩,
   ⟨false, 1, plotted { st := .active, rot := 1 }, (by decide +kernel), (by decide +kernel), (by decide +kernel),
      (by decide +kernel), (by decide +kernel)⟩,
   ⟨false, 1, plotted { st := .hedged, rot := 1 }, (by decide +kernel), (by decide +kernel), (by decide +kernel),
      (by decide +kernel)⟩,
   ⟨false, 1, plotted { st := .active, rot := 1 }, (by decide +kernel), (by decide +kernel), (by decide +kernel),
      Or.inl rfl, (by decide +kernel), (by decide +kernel), (by decide +kernel), (by decide +kernel)⟩,
   ⟨1,
      { plotted { st := .removing, since := 9999999999 } with pool := { hub.pool with exts := [(0, { state := .assigned, plot := 1, owner := 0xC1 })] } },
      (by decide +kernel), (by decide +kernel), (by decide +kernel), (by decide +kernel)⟩,
   ⟨1, plotted { st := .active, rot := 2, rotating := true }, (by decide +kernel), (by decide +kernel),
      (by decide +kernel), (by decide +kernel)⟩,
   ⟨0, 1, 0,
      { plotted { st := .active, rot := 2, rotating := true } with pool := { hub.pool with exts := [(0, { state := .assigned, plot := 1, owner := 0xC1 })] }, key := { (plotted { st := .active, rot := 2, rotating := true }).key with frameGen := [(0, 1)] } },
      (by decide +kernel), (by decide +kernel), (by decide +kernel), (by decide +kernel), (by decide +kernel),
      (by decide +kernel)⟩,
   ⟨false, 0, hub, (by decide +kernel), (by decide +kernel)⟩,
   ⟨false, 0, hub, (by decide +kernel), (by decide +kernel)⟩,
   ⟨false, 9, hub, (by decide +kernel), (by decide +kernel)⟩,
   ⟨false, 0, false, hub, (by decide +kernel), (by decide +kernel)⟩,
   ⟨false, 0, hub, (by decide +kernel), (by decide +kernel)⟩,
   ⟨false, 0, hub, (by decide +kernel), (by decide +kernel)⟩,
   ⟨false, 0, hub, (by decide +kernel), (by decide +kernel)⟩,
   ⟨false, 1, _, plotted { st := .active, rot := 1 }, (by decide +kernel), (by decide +kernel),
      (by decide +kernel), (by decide +kernel), rfl⟩,
   ⟨false, 1, _, plotted { st := .active, rot := 1 }, (by decide +kernel), (by decide +kernel),
      (by decide +kernel), Or.inl rfl, rfl⟩,
   ⟨1, hub, (by decide +kernel)⟩,
   ⟨1, plotted { st := .removing, since := 9999999999 }, (by decide +kernel), (by decide +kernel),
      (by decide +kernel)⟩,
   ⟨1, _, plotted { st := .removing, since := 0 }, (by decide +kernel), (by decide +kernel), rfl⟩,
   ⟨1, hub, (by decide +kernel)⟩,
   ⟨0, hub, (by decide +kernel)⟩⟩

/-- The hypotheses of KeysAndAttestation can be met. -/
theorem test_keysAndAttestation_witness :
  (∃ (s : State), inService s = true ∧ s.pool.exts.any (fun kv => extTier kv.1 == 3 && kv.2.state == .assigned) =
    false) ∧
  (∃ (serial pub chain : List Byte) (s : State), s.key.pairState ≠ 1 ∧ pairReach s = false) ∧
  (∃ (i : Nat) (serial pub chain : List Byte) (s : State), pairPlace s (takePad 16 serial) = some i) ∧
  (∃ (serial wrapped : List Byte) (s : State), s.key.pairState ≠ 1 ∧ pairReach s = false) ∧
  (∃ (w pub : List Byte) (i : Nat) (s : State), s.key.pairState = 2 ∧ s.key.pair.find mySerial = some i) ∧
  (∃ (f : FrameIn) (chain pub sig : List Byte) (far : Bool) (p : Nat) (v : State) (l : LinkKey) (good : Bool) (w s
    : State), FrameTaken s f ∧ v = frameIn s f ∧ p = f.light.port ∧ (v.port p).st.serves = true ∧ (anchorsFor v
    far).isEmpty = false ∧ good = (far == (wiringKind v p == 2) && Config.chainVerifies (anchorsFor v far) chain &&
    Config.ed448Verify (Config.chainKey chain) pub sig) ∧ l = (v.key.links.find p).getD {} ∧ w =
    { v with key := { v.key with links := v.key.links.set p { l with rekey := true, next := some (linkKey v p (l.gen + 1) pub) } } }) ∧
  (∃ (p : Nat) (l : LinkKey) (s : State), s.key.links.find p = some l ∧ (s.port p).st.serves = true ∧ l.rekey =
    false ∧ ((l.since + cfg 0x902101 3600 s * 1000000000 ≤ s.now ∨ 2 ^ 40 ≤ l.txCount ∨ 2 ^ 40 ≤ l.rxCount))) ∧
  (∃ (p : Nat) (l : LinkKey) (b : List Byte) (s : State), s.key.links.find p = some l ∧ (s.port p).st.serves = true
    ∧ l.rekey = false ∧ l.since + cfg 0x902101 3600 s * 1000000000 ≤ s.now ∧ b = takePad 56 (linkPublic s p (l.gen +
    1)) ++ takePad 114 (Config.ed448Sign (takePad 56 (linkPublic s p (l.gen + 1)))) ++ Config.certificateChain) ∧
  (∃ (s : State), (inService s = false ∨ (∃ kv ∈ s.pool.exts, extTier kv.1 = 3 ∧ kv.2.state = .assigned))) ∧
  (∃ (i : Nat) (serial pub chain : List Byte) (u s : State), s.key.pairState = 1 ∧ pairReach s = false ∧
    partnerSerial s = takePad 16 serial ∧ pairPlace s (takePad 16 serial) = some i ∧ u =
    { s with key := { s.key with pair := s.key.pair.put i { serial := takePad 16 serial, area := .ask pub chain } } }) ∧
  (∃ (w pub : List Byte) (s : State), ((s.key.pairState ≠ 2 ∨ s.key.pair.find mySerial = none))) ∧
  (∃ (f : FrameIn) (chain pub sig : List Byte) (far : Bool) (p : Nat) (v s : State), FrameTaken s f ∧ v = frameIn s
    f ∧ p = f.light.port ∧ (v.port p).st.serves = false ∧ (((v.port p).st ≠ .identifying ∨ hubIdObj v = 0xFFFF ∨
    planeObj v = 0xFF ∨ (v.port p).ident = [] ∨ (v.port p).keyed = true ∨ (v.port p).planWait ≠ none))) ∧
  (∃ (f : FrameIn) (chain pub sig : List Byte) (far : Bool) (p : Nat) (v s : State), FrameTaken s f ∧ v = frameIn s
    f ∧ p = f.light.port ∧ (v.port p).st.serves = true ∧ ((anchorsFor v far = [] ∨ (far == (wiringKind v p == 2)) =
    false ∨ Config.chainVerifies (anchorsFor v far) chain = false ∨ Config.ed448Verify (Config.chainKey chain) pub
    sig = false))) ∧
  (∃ (f : FrameIn) (chain pub sig : List Byte) (far : Bool) (p : Nat) (v : State) (good : Bool) (s : State),
    FrameTaken s f ∧ v = frameIn s f ∧ p = f.light.port ∧ (v.port p).st = .identifying ∧ hubIdObj v ≠ 0xFFFF ∧
    planeObj v ≠ 0xFF ∧ (v.port p).ident ≠ [] ∧ identFails v p (v.port p).ident = none ∧ (v.port p).planWait = none
    ∧ (v.port p).keyed = false ∧ anchorsFor v far ≠ [] ∧ good = (far == (wiringKind v p == 2) &&
    Config.chainVerifies (anchorsFor v far) chain && Config.ed448Verify (Config.chainKey chain) pub sig)) ∧
  (∃ (p : Nat) (s : State), ((∀ l ∈ s.key.links.find p, (s.port p).st.serves = false ∨ l.rekey = true ∨ (s.now <
    l.since + cfg 0x902101 3600 s * 1000000000 ∧ l.txCount < 2 ^ 40 ∧ l.rxCount < 2 ^ 40)))) ∧
  (∃ (s : State), (inService s = false ∨ s.key.attNonce = [] ∨ s.key.attPeer = [] ∨ s.key.attDict.isSome = true)) ∧
  (∃ (n : Nat) (s : State), s.lania.up = true ∧ csOn s = true ∧ (attestBusy s = true ∨ inService s = false ∨ 8 < n)) ∧
  (∃ (n st : Nat) (u s : State), s.lania.up = true ∧ csOn s = true ∧ attestBusy s = false ∧ inService s = true ∧ n
    ≤ 8 ∧ hubRead 65 s.key.attSrcCtx 0 (nodeOf s 0xC1) s.key.attSrcOff 120
    { s with key := { s.key with attDone := false } } = (.fail st, u)) ∧
  (∃ (dict : Bool) (s : State), if dict = true then s.key.attDict = none else s.key.attReg = none) ∧
  (∃ (a : Attest) (s : State), s.key.attReg = some a) ∧
  (∃ (n : Nat) (s : State), ((∀ k ∈ s.key.tenants, k.num = n → s.now < k.since + 600000000000))) ∧
  (∃ (b : List Byte) (ctx off : Nat) (s : State), (b.length ≠ 202 ∨ debugGate s = false)) ∧
  (∃ (ctx off : Nat) (s : State), s.lania.up = true ∧ csOn s = true ∧ debugGate s = false) ∧
  (∃ (ctx off st : Nat) (u s : State), s.lania.up = true ∧ csOn s = true ∧ debugGate s = true ∧ hubRead 67 ctx 0
    (nodeOf s 0xC1) off 202 s = (.fail st, u)) ∧
  (∃ (s : State), inService s = true ∧ s.key.attNonce ≠ [] ∧ s.key.attPeer ≠ [] ∧ s.key.attDict = none) ∧
  (∃ (n : Nat) (b : List Byte) (u s : State), s.lania.up = true ∧ csOn s = true ∧ attestBusy s = false ∧ inService
    s = true ∧ n ≤ 8 ∧ hubRead 65 s.key.attSrcCtx 0 (nodeOf s 0xC1) s.key.attSrcOff 120
    { s with key := { s.key with attDone := false } } = (.ok b, u)) ∧
  (∃ (n : Nat) (u s : State), s.lania.up = true ∧ csOn s = true ∧ attestBusy s = false ∧ inService s = true ∧ n ≤ 8
    ∧ hubRead 65 s.key.attSrcCtx 0 (nodeOf s 0xC1) s.key.attSrcOff 120
    { s with key := { s.key with attDone := false } } = (.wait, u) ∧ u.pool.hubCmds.contains (.attest n) = false) ∧
  (∃ (a : Attest) (s : State), s.key.attDict = some a) ∧
  (∃ (n : Nat) (k : TenantKey) (s : State), s.key.tenants.find? (fun x => x.num == n) = some k ∧ k.since +
    600000000000 ≤ s.now) ∧
  (∃ (b : List Byte) (ctx off : Nat) (good : Bool) (s : State), b.length = 202 ∧ debugGate s = true ∧ good =
    (decide (b.take 16 = takePad 16 Config.serialNumber) && decide (slice b 16 64 = debugChallenge s) &&
    Config.ed448Verify Config.debugKey (b.take 88) (b.drop 88))) ∧
  (∃ (ctx off : Nat) (b : List Byte) (good : Bool) (u s : State), s.lania.up = true ∧ csOn s = true ∧ debugGate s =
    true ∧ hubRead 67 ctx 0 (nodeOf s 0xC1) off 202 s = (.ok b, u) ∧ b.length = 202 ∧ debugGate u = true ∧ good =
    (decide (b.take 16 = takePad 16 Config.serialNumber) && decide (slice b 16 64 = debugChallenge u) &&
    Config.ed448Verify Config.debugKey (b.take 88) (b.drop 88))) ∧
  (∃ (ctx off : Nat) (u s : State), s.lania.up = true ∧ csOn s = true ∧ debugGate s = true ∧ hubRead 67 ctx 0
    (nodeOf s 0xC1) off 202 s = (.wait, u) ∧ u.pool.hubCmds.contains (.debug ctx off) = false) :=
  ⟨⟨{ hub with mem := [(5, 1), (0x040000000001, 7)] }, (by decide +kernel), (by decide +kernel)⟩,
   ⟨[1], [2], [3], hub, (by decide +kernel), (by decide +kernel)⟩,
   ⟨1, mySerial.map fun b => b + 1, [2], [3],
      { hub with key := { hub.key with pair := { slot0 := { serial := mySerial }, slot1 := { serial := takePad 16 (mySerial.map fun b => b + 1) } } } },
      pairPlace_other _ _ rfl rfl (otherSerial_ne _)⟩,
   ⟨[1], [2], hub, (by decide +kernel), (by decide +kernel)⟩,
   ⟨[1], [2], 0,
      { hub with key := { hub.key with pairState := 2, pair := { slot0 := { serial := mySerial } } } },
      (by decide +kernel), by simp [PairRec.find, PairRec.slot]⟩,
   ⟨{ light := { port := 2 }, seq := 1 }, [1], [2], [3], true, 2, _, _, _, _, ported, (by decide +kernel), rfl,
      (by decide +kernel), (by decide +kernel), (by decide +kernel), rfl, rfl, rfl⟩,
   ⟨2, { gen := 1, ready := true, txCount := 2 ^ 40 },
      { ported with key := { ported.key with links := [(2, { gen := 1, ready := true, txCount := 2 ^ 40 })] } },
      (by decide +kernel), (by decide +kernel), (by decide +kernel), Or.inr (Or.inl (by decide +kernel))⟩,
   ⟨2, { gen := 1, ready := true }, _,
      { ported with time := { ported.time with now := 4000000000000 }, key := { ported.key with links := [(2, { gen := 1, ready := true })] } },
      (by decide +kernel), (by decide +kernel), (by decide +kernel), (by decide +kernel), rfl⟩,
   ⟨State.reset, Or.inl (by decide +kernel)⟩,
   ⟨1, mySerial.map fun b => b + 1, [2], [3], _,
      { hub with key := { hub.key with pairState := 1, pair := { slot0 := { serial := mySerial }, slot1 := { serial := takePad 16 (mySerial.map fun b => b + 1) } } }, dict := { hub.dict with odBytes := [(0x903001, takePad 16 (mySerial.map fun b => b + 1))] } },
      (by decide +kernel), (by decide +kernel), rfl, pairPlace_other _ _ rfl rfl (otherSerial_ne _), rfl⟩,
   ⟨[1], [2], hub, Or.inl (by decide)⟩,
   ⟨{ light := { port := 2 }, seq := 1 }, [1], [2], [3], true, 2, _, prt { st := .identifying } [],
      (by decide +kernel), rfl, (by decide +kernel), (by decide +kernel), by decide⟩,
   ⟨{ light := { port := 2 }, seq := 1 }, [1], [2], [3], false, 2, _, ported, (by decide +kernel), rfl,
      (by decide +kernel), (by decide +kernel), Or.inl (by decide)⟩,
   ⟨{ light := { port := 2 }, seq := 1 }, [1], [2], [3], true, 2, _, _, identing, (by decide +kernel), rfl,
      (by decide +kernel), (by decide +kernel), (by decide +kernel), (by decide +kernel), (by decide +kernel),
      (by decide +kernel), (by decide +kernel), (by decide +kernel), (by decide +kernel), rfl⟩,
   ⟨2, hub, (by decide +kernel)⟩,
   ⟨hub, (by decide +kernel)⟩,
   ⟨9, hub, (by decide +kernel), (by decide +kernel), (by decide +kernel)⟩,
   ⟨0, St.translation, (hubRead 65 0 0 0x1C1 0 120 { hub with key := { hub.key with attDone := false } }).2, hub,
      (by decide +kernel), (by decide +kernel), (by decide +kernel), (by decide +kernel), (by decide +kernel),
      (by decide +kernel)⟩,
   ⟨true, hub, (by decide +kernel)⟩,
   ⟨{ plot := 0, nonce := [1], peer := [2], num := 1 },
      { hub with key := { hub.key with attReg := some { plot := 0, nonce := [1], peer := [2], num := 1 } } },
      (by decide +kernel)⟩,
   ⟨1, hub, (by decide +kernel)⟩,
   ⟨[], 0, 0, hub, (by decide +kernel)⟩,
   ⟨0, 0, hub, (by decide +kernel), (by decide +kernel), (by decide +kernel)⟩,
   ⟨0, 0, St.translation, (hubRead 67 0 0 0x1C1 0 202 { hub with boot := { hub.boot with st := .loaded } }).2,
      { hub with boot := { hub.boot with st := .loaded } }, (by decide +kernel), (by decide +kernel),
      (by decide +kernel), (by decide +kernel)⟩,
   ⟨{ hub with key := { hub.key with attNonce := [1], attPeer := [2] } }, (by decide +kernel),
      (by decide +kernel), (by decide +kernel), (by decide +kernel)⟩,
   ⟨0, List.replicate 120 0, (hubRead 65 0 0 0x1C1 0 120
      { mapped with key := { mapped.key with attDone := false } }).2, mapped, (by decide +kernel),
      (by decide +kernel), (by decide +kernel), (by decide +kernel), (by decide +kernel), (by decide +kernel)⟩,
   ⟨0, (hubRead 65 0 0 0x1C1 0 120 { tilthWaits with key := { tilthWaits.key with attDone := false } }).2,
      tilthWaits, (by decide +kernel), (by decide +kernel), (by decide +kernel), (by decide +kernel),
      (by decide +kernel), (by decide +kernel), (by decide +kernel)⟩,
   ⟨{ plot := 0, nonce := [1], peer := [2], num := 1 },
      { hub with key := { hub.key with attDict := some { plot := 0, nonce := [1], peer := [2], num := 1 } } },
      (by decide +kernel)⟩,
   ⟨1, { num := 1, plot := 0, nonce := [], key := [], since := 5 },
      { hub with time := { hub.time with now := 700000000000 }, key := { hub.key with tenants := [{ num := 1, plot := 0, nonce := [], key := [], since := 5 }] } },
      (by decide +kernel), (by decide +kernel)⟩,
   ⟨List.replicate 202 0, 0, 0, _, { hub with boot := { hub.boot with st := .loaded } }, (by decide +kernel),
      (by decide +kernel), rfl⟩,
   ⟨0, 0, List.replicate 202 0, _, (hubRead 67 0 0 0x1C1 0 202
      { mapped with boot := { hub.boot with st := .loaded } }).2,
      { mapped with boot := { hub.boot with st := .loaded } }, (by decide +kernel), (by decide +kernel),
      (by decide +kernel), (by decide +kernel), (by decide +kernel), (by decide +kernel), rfl⟩,
   ⟨0, 0, (hubRead 67 0 0 0x1C1 0 202 { tilthWaits with boot := { hub.boot with st := .loaded } }).2,
      { tilthWaits with boot := { hub.boot with st := .loaded } }, (by decide +kernel), (by decide +kernel),
      (by decide +kernel), (by decide +kernel), (by decide +kernel)⟩⟩

/-- The hypotheses of PortsTrainAndIdentify can be met. -/
theorem test_portsTrainAndIdentify_witness :
  (∃ (dict : Bool) (p : Nat) (s : State), (dict = false → s.lania.up = true) ∧ portCan s p = true ∧ (s.port p).st =
    .down) ∧
  (∃ (dict : Bool) (p : Nat) (s : State), (dict = false → s.lania.up = true) ∧ portCan s p = true ∧ (s.port p).st ≠
    .down ∧ (s.port p).st.serves = false) ∧
  (∃ (dict : Bool) (p : Nat) (s : State), (dict = false → s.lania.up = true) ∧ portCan s p = true ∧ (s.port
    p).st.serves = true) ∧
  (∃ (dict : Bool) (p : Nat) (s : State), (dict = false → s.lania.up = true) ∧ portCan s p = true ∧ canSleep s p =
    true) ∧
  (∃ (dict : Bool) (p : Nat) (s : State), (dict = false → s.lania.up = true) ∧ portCan s p = true ∧ (s.port p).st =
    .dormant ∧ shedHolds s p = false) ∧
  (∃ (dict : Bool) (p : Nat) (s : State), (dict = false → s.lania.up = true) ∧ portCan s p = true ∧ ((s.port p).st
    = .identifying ∨ (s.port p).st.serves = true)) ∧
  (∃ (dict : Bool) (p : Nat) (s : State), (dict = false → s.lania.up = true) ∧ portCan s p = true ∧ (s.port p).st =
    .fallow ∧ (s.port p).ident = []) ∧
  (∃ (dict : Bool) (p : Nat) (r : Nat) (s : State), (dict = false → s.lania.up = true) ∧ portCan s p = true ∧
    (s.port p).st = .fallow ∧ (s.port p).ident ≠ [] ∧ hubIdObj s ≠ 0xFFFF ∧ planeObj s ≠ 0xFF ∧ identFails s p
    (s.port p).ident = some r) ∧
  (∃ (p : Nat) (s : State), portCan s p = true ∧ (s.port p).st = .down ∧ (s.port p).enabled = true) ∧
  (∃ (p : Nat) (s : State), portCan s p = true ∧ (s.port p).st = .dormant ∧ (s.port p).settled = true ∧ shedHolds s
    p = false) ∧
  (∃ (e p : Nat) (l : LaneLock) (s : State), p = portAt s e (s.lane e l.circuit).pos ∧ (s.lane e l.circuit).st =
    .training ∧ (s.lane e l.circuit).pos < 32 ∧ (s.lane e l.circuit).joining = none ∧ (s.port p).st = .training) ∧
  (∃ (e k : Nat) (l : LaneLock) (s : State), (s.lane e l.circuit).st = .training ∧ (s.lane e l.circuit).pos ≠ 0x3F
    ∧ (s.lane e l.circuit).joining = some k) ∧
  (∃ (e j n c p : Nat) (s : State), p = portAt s e (s.lane e j).pos ∧ (s.lane e j).st = .training ∧ (s.lane e
    j).pos < 32 ∧ (s.lane e j).eq = true ∧ (s.lane e j).joining = none ∧ (s.port p).st = .aligning ∧ (portCircuits s
    p).any (fun i => i != j && !(s.lane e i).alock) = true) ∧
  (∃ (e j n c p : Nat) (u s : State), p = portAt s e (s.lane e j).pos ∧ (s.lane e j).st = .training ∧ (s.lane e
    j).pos < 32 ∧ (s.lane e j).eq = true ∧ (s.lane e j).joining = none ∧ (s.port p).st = .aligning ∧ (portCircuits s
    p).all (fun i => i == j || (s.lane e i).alock) = true ∧ (u = s.onLane e j fun x =>
    { x with alock := true, lane := n % 8, skew := (codewordNow s + 256 - c % 256) % 256 }) ∧ lanesOrdered u p =
    true ∧ lanesDeskew u p = true ∧ (s.port p).katHeld = false ∧ (s.port p).settled = false ∧ (s.port p).waking =
    false) ∧
  (∃ (e mask : Nat) (s : State), s.lania.up = true ∧ domainOn s e = true ∧ (∀ j ∈ List.range 34, bitOf mask j =
    true → (s.lane e j).slip ≠ 5439 ∨ (s.lane e j).pos = 0x3F ∨ (s.port (portAt s e (s.lane e j).pos)).st ≠
    .aligning)) ∧
  (∃ (e mask j p : Nat) (s : State), s.lania.up = true ∧ domainOn s e = true ∧ j < 34 ∧ bitOf mask j = true ∧
    (s.lane e j).slip = 5439 ∧ (s.lane e j).pos ≠ 0x3F ∧ p = portAt s e (s.lane e j).pos ∧ (s.port p).st = .aligning) ∧
  (∃ (p : Nat) (s : State), firmwareDown s = false ∧ ((s.port p).st = .training ∨ (s.port p).st = .aligning) ∧
    (s.port p).trainSince + 20000000 < s.now ∧ (s.port p).returns < 2) ∧
  (∃ (p : Nat) (s : State), firmwareDown s = false ∧ ((s.port p).st = .training ∨ (s.port p).st = .aligning) ∧
    (s.port p).trainSince + 20000000 < s.now ∧ 2 ≤ (s.port p).returns) ∧
  (∃ (f : FrameIn) (p r : Nat) (body : List Byte) (v s : State), FrameTaken s f ∧ v = frameIn s f ∧ p =
    f.light.port ∧ (v.port p).st = .identifying ∧ hubIdObj v ≠ 0xFFFF ∧ planeObj v ≠ 0xFF ∧ takePad 64 body = body ∧
    body ≠ [] ∧ identFails v p body = some r) ∧
  (∃ (f : FrameIn) (p : Nat) (body : List Byte) (v s : State), FrameTaken s f ∧ v = frameIn s f ∧ p = f.light.port
    ∧ (v.port p).st = .identifying ∧ hubIdObj v ≠ 0xFFFF ∧ planeObj v ≠ 0xFF ∧ takePad 64 body = body ∧ body ≠ [] ∧
    identFails v p body = none ∧ wiringKind v p = 1 ∧ (v.port p).keyed = true ∧ portPlot v p ≠ 0xFF) ∧
  (∃ (p : Nat) (s : State), (s.port p).st = .identifying ∧ (s.port p).planWait = none ∧ (s.port p).ident = [] ∧
    (s.port p).identSent + 10000 ≤ s.now) ∧
  (∃ (p w : Nat) (s : State), (s.port p).planWait = some w ∧ (s.port p).st = .identifying ∧ (s.port p).planRaised =
    false ∧ w + 100000000 ≤ s.now) ∧
  (∃ (dict : Bool) (p : Nat) (s : State), (dict = false → s.lania.up = true ∧ domainOn s (p / 8) = true) ∧ (portCan
    s p = false ∨ (s.port p).st ≠ .down)) ∧
  (∃ (dict : Bool) (p : Nat) (s : State), (dict = false → s.lania.up = true ∧ domainOn s (p / 8) = true) ∧ (portCan
    s p = false ∨ (s.port p).st = .down)) ∧
  (∃ (dict : Bool) (p : Nat) (s : State), (dict = false → s.lania.up = true ∧ domainOn s (p / 8) = true) ∧ (portCan
    s p = false ∨ canSleep s p = false)) ∧
  (∃ (dict : Bool) (p : Nat) (s : State), (dict = false → s.lania.up = true ∧ domainOn s (p / 8) = true) ∧ (portCan
    s p = false ∨ (s.port p).st ≠ .dormant ∨ shedHolds s p = true)) ∧
  (∃ (dict : Bool) (p : Nat) (s : State), (dict = false → s.lania.up = true ∧ domainOn s (p / 8) = true) ∧ (portCan
    s p = false ∨ ((s.port p).st ≠ .identifying ∧ (s.port p).st.serves = false))) ∧
  (∃ (dict : Bool) (p : Nat) (s : State), (dict = false → s.lania.up = true ∧ domainOn s (p / 8) = true) ∧ (portCan
    s p = false ∨ (s.port p).st ≠ .fallow)) ∧
  (∃ (dict : Bool) (p : Nat) (u s : State), (dict = false → s.lania.up = true) ∧ portCan s p = true ∧ (s.port p).st
    = .fallow ∧ (s.port p).ident ≠ [] ∧ (u = compareIdent p (s.onPort p fun y =>
    { y with st := .identifying, reason := 0, katHeld := false }))) ∧
  (∃ (p : Nat) (s : State), (portCan s p = false ∨ ((s.port p).st ≠ .down ∧ (s.port p).st ≠ .dormant) ∨ ((s.port
    p).st = .down ∧ (s.port p).enabled = false) ∨ ((s.port p).st = .dormant ∧ ((s.port p).settled = false ∨
    shedHolds s p = true)))) ∧
  (∃ (e : Nat) (l : LaneLock) (s : State), ((s.lane e l.circuit).st ≠ .training ∨ (s.lane e l.circuit).pos = 0x3F ∨
    ((s.lane e l.circuit).joining = none ∧ (s.port (portAt s e (s.lane e l.circuit).pos)).st ≠ .training))) ∧
  (∃ (e j n c : Nat) (s : State), ((s.lane e j).st ≠ .training ∨ (s.lane e j).eq = false ∨ (s.lane e j).pos = 0x3F
    ∨ ((s.lane e j).joining = none ∧ (s.port (portAt s e (s.lane e j).pos)).st ≠ .aligning))) ∧
  (∃ (e j : Nat) (s : State), (s.lane e j).pos = 0x3F) ∧
  (∃ (e j n c p : Nat) (u s : State), p = portAt s e (s.lane e j).pos ∧ (s.lane e j).st = .training ∧ (s.lane e
    j).pos < 32 ∧ (s.lane e j).eq = true ∧ (s.lane e j).joining = none ∧ (s.port p).st = .aligning ∧ (portCircuits s
    p).all (fun i => i == j || (s.lane e i).alock) = true ∧ (u = s.onLane e j fun x =>
    { x with alock := true, lane := n % 8, skew := (codewordNow s + 256 - c % 256) % 256 }) ∧ lanesOrdered u p =
    true ∧ lanesDeskew u p = true) ∧
  (∃ (e j n c p : Nat) (u s : State), p = portAt s e (s.lane e j).pos ∧ (s.lane e j).st = .training ∧ (s.lane e
    j).pos < 32 ∧ (s.lane e j).eq = true ∧ (s.lane e j).joining = none ∧ (s.port p).st = .aligning ∧ (portCircuits s
    p).all (fun i => i == j || (s.lane e i).alock) = true ∧ (u = s.onLane e j fun x =>
    { x with alock := true, lane := n % 8, skew := (codewordNow s + 256 - c % 256) % 256 }) ∧ (lanesOrdered u p =
    false ∨ lanesDeskew u p = false)) ∧
  (∃ (e j n c k : Nat) (s : State), (s.lane e j).st = .training ∧ (s.lane e j).pos ≠ 0x3F ∧ (s.lane e j).eq = true
    ∧ (s.lane e j).joining = some k) ∧
  (∃ (e j : Nat) (s : State), (s.lane e j).pos ≠ 0x3F) ∧
  (∃ (e j p : Nat) (s : State), p = portAt s e (s.lane e j).pos ∧ (s.lane e j).pos ≠ 0x3F ∧ (s.port p).st.holds =
    false) ∧
  (∃ (e mask : Nat) (s : State), s.lania.up = true ∧ domainOn s e = false) ∧
  (∃ (p : Nat) (s : State), (firmwareDown s = true ∨ ((s.port p).st ≠ .training ∧ (s.port p).st ≠ .aligning) ∨
    s.now ≤ (s.port p).trainSince + 20000000)) ∧
  (∃ (f : FrameIn) (p : Nat) (body : List Byte) (v s : State), FrameTaken s f ∧ v = frameIn s f ∧ p = f.light.port
    ∧ (v.port p).st ≠ .identifying) ∧
  (∃ (f : FrameIn) (p : Nat) (body : List Byte) (v s : State), FrameTaken s f ∧ v = frameIn s f ∧ p = f.light.port
    ∧ (v.port p).st = .identifying) ∧
  (∃ (f : FrameIn) (body : List Byte) (s : State), ¬FrameTaken s f) ∧
  (∃ (p w : Nat) (s : State), (s.port p).st = .identifying ∧ (s.port p).planWait = some w ∧ (s.port p).identSent +
    1000000 ≤ s.now) ∧
  (∃ (p : Nat) (s : State), ((s.port p).st ≠ .identifying ∨ s.now < (s.port p).identSent + 10000 ∨ ((s.port
    p).planWait.isSome = true ∧ s.now < (s.port p).identSent + 1000000) ∨ ((s.port p).planWait = none ∧ (s.port
    p).ident ≠ []))) ∧
  (∃ (p : Nat) (s : State), ((s.port p).st ≠ .identifying ∨ (s.port p).planRaised = true ∨ ∀ w ∈ (s.port
    p).planWait, s.now < w + 100000000)) :=
  ⟨⟨false, 2, prt {} [], (by decide +kernel), (by decide +kernel), (by decide +kernel)⟩,
   ⟨false, 2, prt { st := .training, enabled := true } [], (by decide +kernel), (by decide +kernel),
      (by decide +kernel), (by decide +kernel)⟩,
   ⟨false, 2, ported, (by decide +kernel), (by decide +kernel), (by decide +kernel)⟩,
   ⟨false, 2, ported, (by decide +kernel), (by decide +kernel), (by decide +kernel)⟩,
   ⟨false, 2, prt { st := .dormant } [], (by decide +kernel), (by decide +kernel), (by decide +kernel),
      (by decide +kernel)⟩,
   ⟨false, 2, ported, (by decide +kernel), (by decide +kernel), Or.inr rfl⟩,
   ⟨false, 2, prt { st := .fallow, reason := 1 } [], (by decide +kernel), (by decide +kernel),
      (by decide +kernel), (by decide +kernel)⟩,
   ⟨false, 2, 2,
      { prt { st := .fallow, reason := 1, ident := [0] } [] with dict := { hub.dict with od := [(0x200101, 1), (0x200102, 0), (0x911001, 2 ^ 64 - 1)], odBytes := [] } },
      (by decide +kernel), (by decide +kernel), (by decide +kernel), (by decide +kernel), (by decide +kernel),
      (by decide +kernel), (by decide +kernel)⟩,
   ⟨2, prt { enabled := true } [], (by decide +kernel), (by decide +kernel), (by decide +kernel)⟩,
   ⟨2, prt { st := .dormant, settled := true } [], (by decide +kernel), (by decide +kernel), (by decide +kernel),
      (by decide +kernel)⟩,
   ⟨0, 2, { circuit := 8 }, prt { st := .training, enabled := true } trainingLanes, (by decide +kernel),
      (by decide +kernel), (by decide +kernel), (by decide +kernel), (by decide +kernel)⟩,
   ⟨0, 8, { circuit := 32 }, prt { st := .degraded } [(8, { st := .off, pos := 0x3F, failed := true }), (32,
      { st := .training, pos := 8, joining := some 8, failed := true })], (by decide +kernel), (by decide +kernel),
      (by decide +kernel)⟩,
   ⟨0, 9, 1, 4, 2, prt { st := .aligning, enabled := true } trainingLanes, (by decide +kernel),
      (by decide +kernel), (by decide +kernel), (by decide +kernel), (by decide +kernel), (by decide +kernel),
      (by decide +kernel)⟩,
   ⟨0, 8, 0, codewordNow ported, 2, _, prt { st := .aligning, enabled := true } trainingLanes,
      (by decide +kernel), (by decide +kernel), (by decide +kernel), (by decide +kernel), (by decide +kernel),
      (by decide +kernel), (by decide +kernel), rfl, (by decide +kernel), (by decide +kernel), (by decide +kernel),
      (by decide +kernel), (by decide +kernel)⟩,
   ⟨0, 768, prt { st := .aligning } [(8, { st := .training, pos := 8, slip := 5438 })], (by decide +kernel),
      (by decide +kernel), (by decide +kernel)⟩,
   ⟨0, 768, 8, 2, prt { st := .aligning } [(8, { st := .training, pos := 8, slip := 5439 })],
      (by decide +kernel), (by decide +kernel), (by decide +kernel), (by decide +kernel), (by decide +kernel),
      (by decide +kernel), (by decide +kernel), (by decide +kernel)⟩,
   ⟨2, prt { st := .training, returns := 1 } [], (by decide +kernel), Or.inl rfl, (by decide +kernel),
      (by decide +kernel)⟩,
   ⟨2, prt { st := .training, returns := 2 } [], (by decide +kernel), Or.inl rfl, (by decide +kernel),
      (by decide +kernel)⟩,
   ⟨{ light := { port := 2 }, seq := 1 }, 2, 4, List.replicate 64 0, _,
      { prt { st := .identifying } [] with dict := { ported.dict with od := [(0x200101, 1), (0x200102, 0), (0x310003, 0), (0x911001, 2 ^ 64 - 1)] } },
      (by decide +kernel), rfl, (by decide +kernel), (by decide +kernel), (by decide +kernel), (by decide +kernel),
      (by decide +kernel), (by decide +kernel), (by decide +kernel)⟩,
   ⟨{ light := { port := 2 }, seq := 1 }, 2, identA, _,
      { prt { st := .identifying, keyed := true } [] with dict := { ported.dict with od := [(0x200101, 1), (0x200102, 0), (0x310003, 0), (0x911001, 2 ^ 64 - 1)] } },
      (by decide +kernel), rfl, (by decide +kernel), (by decide +kernel), (by decide +kernel), (by decide +kernel),
      (by decide +kernel), (by decide +kernel), (by decide +kernel), (by decide +kernel), (by decide +kernel),
      (by decide +kernel)⟩,
   ⟨2, prt { st := .identifying } [], (by decide +kernel), (by decide +kernel), (by decide +kernel),
      (by decide +kernel)⟩,
   ⟨2, 5, prt { st := .identifying, planWait := some 5 } [], (by decide +kernel), (by decide +kernel),
      (by decide +kernel), (by decide +kernel)⟩,
   ⟨false, 2, ported, (by decide +kernel), (by decide +kernel)⟩,
   ⟨false, 2, prt {} [], (by decide +kernel), (by decide +kernel)⟩,
   ⟨false, 2, prt {} [], (by decide +kernel), (by decide +kernel)⟩,
   ⟨false, 2, ported, (by decide +kernel), (by decide +kernel)⟩,
   ⟨false, 2, prt {} [], (by decide +kernel), (by decide +kernel)⟩,
   ⟨false, 2, ported, (by decide +kernel), (by decide +kernel)⟩,
   ⟨false, 2, _, prt { st := .fallow, reason := 1, ident := [0] } [], (by decide +kernel), (by decide +kernel),
      (by decide +kernel), (by decide +kernel), rfl⟩,
   ⟨2, ported, (by decide +kernel)⟩,
   ⟨0, { circuit := 8 }, ported, (by decide +kernel)⟩,
   ⟨0, 8, 0, 0, ported, (by decide +kernel)⟩,
   ⟨0, 32, ported, (by decide +kernel)⟩,
   ⟨0, 8, 0, codewordNow ported, 2, _, prt { st := .aligning, enabled := true } trainingLanes,
      (by decide +kernel), (by decide +kernel), (by decide +kernel), (by decide +kernel), (by decide +kernel),
      (by decide +kernel), (by decide +kernel), rfl, (by decide +kernel), (by decide +kernel)⟩,
   ⟨0, 8, 1, 0, 2, _, prt { st := .aligning, enabled := true } trainingLanes, (by decide +kernel),
      (by decide +kernel), (by decide +kernel), (by decide +kernel), (by decide +kernel), (by decide +kernel),
      (by decide +kernel), rfl, Or.inl (by decide +kernel)⟩,
   ⟨0, 32, 0, 0, 8, prt { st := .degraded } [(8, { st := .off, pos := 0x3F, failed := true }), (32,
      { st := .training, pos := 8, joining := some 8, failed := true, eq := true })], (by decide +kernel),
      (by decide +kernel), (by decide +kernel), (by decide +kernel)⟩,
   ⟨0, 8, ported, (by decide +kernel)⟩,
   ⟨0, 8, 2, prt { st := .aligning, enabled := true } trainingLanes, (by decide +kernel), (by decide +kernel),
      (by decide +kernel)⟩,
   ⟨0, 1, { hub with boot := { hub.boot with powered := 0 } }, (by decide +kernel), (by decide +kernel)⟩,
   ⟨2, ported, (by decide +kernel)⟩,
   ⟨{ light := { port := 2 }, seq := 1 }, 2, [], _, ported, (by decide +kernel), rfl, (by decide +kernel),
      (by decide +kernel)⟩,
   ⟨{ light := { port := 2 }, seq := 1 }, 2, [], _, prt { st := .identifying } [], (by decide +kernel), rfl,
      (by decide +kernel), (by decide +kernel)⟩,
   ⟨{ light := { port := 2 }, seq := 1 }, [], hub, (by decide +kernel)⟩,
   ⟨2, 0, prt { st := .identifying, planWait := some 0 } [], (by decide +kernel), (by decide +kernel),
      (by decide +kernel)⟩,
   ⟨2, ported, (by decide +kernel)⟩,
   ⟨2, ported, (by decide +kernel)⟩⟩

/-- The hypotheses of LinksCarryFrames can be met. -/
theorem test_linksCarryFrames_witness :
  (∃ (f : FrameIn) (p : Nat) (u : State) (l : LinkKey) (v s : State), FrameTaken s f ∧ p = f.light.port ∧ u =
    blocksArrive p f.light.blocks s ∧ v = frameIn s f ∧ l = (u.key.links.find p).getD {}) ∧
  (∃ (f : FrameIn) (p : Nat) (v s : State), FrameTaken s f ∧ v = frameIn s f ∧ p = f.light.port) ∧
  (∃ (f : FrameIn) (s : State), ¬FrameTaken s f) ∧
  (∃ (f : FrameIn) (chain pub sig : List Byte) (far : Bool) (s : State), ¬FrameTaken s f) ∧
  (∃ (p : Nat) (s : State), (s.port p).st = .dormant ∧ (s.port p).settled = false ∧ (s.port p).waking = false ∧
    (s.port p).farDormant = true ∧ (s.port p).replay = [] ∧ s.records p = []) ∧
  (∃ (p d : Nat) (s : State), (s.port p).dormantSince = some d ∧ (s.port p).st = .dormant ∧ (s.port p).settled =
    false ∧ s.records p ≠ [] ∧ d + 1000000 ≤ s.now) ∧
  (∃ (p : Nat) (s : State), (s.port p).st = .dormant ∧ (s.port p).waking = true ∧ (s.port p).held = [] ∧ repliesAt
    s p = 0 ∧ portPlot s p ≠ 0xFF) ∧
  (∃ (l : Light) (p seq plot : Nat) (tagOk : Bool) (ks : List Packet) (u : State) (k : LinkKey) (s : State), p =
    l.port ∧ u = blocksArrive p l.blocks s ∧ linkUp u p = true ∧ (u.port p).naksOut < 7 ∧ k = (u.key.links.find
    p).getD {}) ∧
  (∃ (l : Light) (p seq plot : Nat) (tagOk : Bool) (ks : List Packet) (u s : State), p = l.port ∧ u = blocksArrive
    p l.blocks s ∧ linkUp u p = true ∧ 7 ≤ (u.port p).naksOut ∧ (u.port p).retrain = none) ∧
  (∃ (l : Light) (f : FrameIn) (p seq op : Nat) (h : Header) (data : List Byte) (v s : State), p = l.port ∧ l.kind
    = 0 ∧ f = { light := l, seq } ∧ FrameTaken s f ∧ v = frameIn s f ∧ isUplink v p = false) ∧
  (∃ (l : Light) (p ack mem sig msg red lock : Nat) (f : SentFrame) (a m : List SentFrame) (u s : State), p =
    l.port ∧ u = blocksArrive p l.blocks s ∧ linkUp u p = true ∧ (u.port p).held = [] ∧ repliesAt u p = 0 ∧ (∀ i ∈
    (u.port p).dealt, bitOf (lock % 256) i = true) ∧ (u.port p).replay = a ++ f :: m ∧ f.seq = ack % 4096 ∧ (∀ g ∈
    a, g.seq ≠ ack % 4096)) ∧
  (∃ (l : Light) (p ack mem sig msg red lock i j d : Nat) (u s : State), p = l.port ∧ u = blocksArrive p l.blocks s
    ∧ linkUp u p = true ∧ (u.port p).st.holds = true ∧ i ∈ (u.port p).dealt ∧ bitOf (lock % 256) i = false ∧ (u.port
    p).farDark.find i = some d ∧ d + 10000 ≤ u.now ∧ laneCircuit u p i = some j ∧ portAt u (p / 8) (u.lane (p / 8)
    j).pos = p ∧ (u.lane (p / 8) j).failed = false) ∧
  (∃ (l : Light) (p ack mem sig msg red lock : Nat) (u s : State), p = l.port ∧ u = blocksArrive p l.blocks s ∧
    linkUp u p = true ∧ (∀ f ∈ (u.port p).replay, f.seq ≠ ack % 4096) ∧ (∀ i ∈ (u.port p).dealt, bitOf (lock % 256)
    i = true) ∧ (u.port p).retrain = none ∧ 7 ≤ (u.port p).naks) ∧
  (∃ (p : Nat) (k : LinkKey) (s : State), linkUp s p = true ∧ ((s.port p).nakSent = false ∨ (s.port p).naksOut < 7)
    ∧ k = (s.key.links.find p).getD {} ∧ (s.port p).linkSent + 1000 ≤ s.now) ∧
  (∃ (p : Nat) (s : State), linkUp s p = true ∧ (s.port p).retrain = none ∧ (s.port p).replay ≠ [] ∧ (s.port
    p).ackTime + 20000 ≤ s.now) ∧
  (∃ (p d c : Nat) (s : State), (s.port p).retrain = some (d, c) ∧ (s.port p).held = [] ∧ repliesAt s p = 0) ∧
  (∃ (p d c : Nat) (s : State), (s.port p).retrain = some (d, c) ∧ d + 1000 * cfg 0x302002 2000 s ≤ s.now) ∧
  (∃ (p : Nat) (s : State), ((s.port p).st ≠ .dormant ∨ (s.port p).settled = true ∨ (s.port p).waking = true ∨
    (s.port p).farDormant = false ∨ (s.port p).replay ≠ [] ∨ s.records p ≠ [])) ∧
  (∃ (p : Nat) (s : State), ((s.port p).st ≠ .dormant ∨ (s.port p).settled = true ∨ s.records p = [] ∨ ∀ d ∈
    (s.port p).dormantSince, s.now < d + 1000000)) ∧
  (∃ (p : Nat) (s : State), ((s.port p).st ≠ .dormant ∨ (s.port p).waking = false)) ∧
  (∃ (p : Nat) (u s : State), (s.port p).st = .dormant ∧ (s.port p).waking = true ∧ (u = setCdr p true (s.onPort p
    fun y =>
    { y with st := .active, waking := false, settled := false, dormantSince := none, farDormant := false, ackTime := s.now }))) ∧
  (∃ (l : Light) (p seq plot : Nat) (intact tagOk : Bool) (ks : List Packet) (u s : State), p = l.port ∧ u =
    blocksArrive p l.blocks s ∧ linkUp u p = false) ∧
  (∃ (l : Light) (p ack mem sig msg red lock : Nat) (nak : Bool) (u s : State), p = l.port ∧ u = blocksArrive p
    l.blocks s ∧ linkUp u p = false) ∧
  (∃ (p lane ty ack mem sig msg red lock : Nat) (nak : Bool) (u s : State), portLit s p = true ∧ lane < laneCount s
    p ∧ ty ∉ [0x1E, 0x2D, 0x4B, 0x55, 0x78] ∧ (s.port p).elastic.find lane = some (.control ty :: List.replicate 31
    .data) ∧ (u = bump (0xC42400 + p + 1) 1 (s.onPort p fun x =>
    { x with elastic := x.elastic.set lane (List.replicate 32 .data) }))) ∧
  (∃ (p lane ack mem sig msg red lock : Nat) (nak : Bool) (u s : State), portLit s p = true ∧ lane < laneCount s p
    ∧ ((s.port p).badCodes.getD lane []).length = 16 ∧ (∀ t ∈ (s.port p).badCodes.getD lane [], s.now < t + 1000000)
    ∧ (s.port p).elastic.getD lane [] = [] ∧ (u = laneDies p lane ((bump (0xC42100 + p + 1) 1 s).onPort p fun x =>
    { x with badCodes := x.badCodes.set lane (s.now :: (s.port p).badCodes.getD lane []) }))) ∧
  (∃ (l : Light) (p seq plot : Nat) (tagOk : Bool) (ks : List Packet) (u s : State), p = l.port ∧ u = blocksArrive
    p l.blocks s ∧ linkUp u p = true ∧ (tagOk = false ∨ phaseHeld u p l.phase = false)) ∧
  (∃ (l : Light) (f : FrameIn) (p seq plot : Nat) (ks : List Packet) (v s : State), p = l.port ∧ f =
    { light := l, seq } ∧ FrameTaken s f ∧ v = frameIn s f ∧ l.kind = 0 ∧ (isUplink v p = false ∨ ∀ k ∈ ks,
    Packet.plot k = plot ∧ plot = portPlot v p)) ∧
  (∃ (l : Light) (f : FrameIn) (p seq plot : Nat) (ks : List Packet) (v s : State), p = l.port ∧ f =
    { light := l, seq } ∧ FrameTaken s f ∧ v = frameIn s f ∧ l.kind ≠ 0) ∧
  (∃ (l : Light) (f : FrameIn) (p seq plot : Nat) (ks : List Packet) (v s : State), p = l.port ∧ f =
    { light := l, seq } ∧ FrameTaken s f ∧ v = frameIn s f ∧ l.kind = 0 ∧ isUplink v p = true ∧ (∃ k ∈ ks,
    Packet.plot k ≠ plot ∨ plot ≠ portPlot v p)) ∧
  (∃ (l : Light) (p seq plot : Nat) (ks : List Packet) (u s : State), p = l.port ∧ u = blocksArrive p l.blocks s ∧
    linkUp u p = true ∧ phaseHeld u p l.phase = true ∧ ((u.port p).rxSeq + 4096 - seq % 4096) % 4096 < 2048) ∧
  (∃ (l : Light) (p seq plot : Nat) (ks : List Packet) (u s : State), p = l.port ∧ u = blocksArrive p l.blocks s ∧
    linkUp u p = true ∧ phaseHeld u p l.phase = true ∧ seq % 4096 ≠ ((u.port p).rxSeq + 1) % 4096 ∧ 2048 ≤ ((u.port
    p).rxSeq + 4096 - seq % 4096) % 4096) ∧
  (∃ (l : Light) (p ack mem sig msg red lock : Nat) (u s : State), p = l.port ∧ u = blocksArrive p l.blocks s ∧
    linkUp u p = true ∧ (∀ f ∈ (u.port p).replay, f.seq ≠ ack % 4096) ∧ (∀ i ∈ (u.port p).dealt, bitOf (lock % 256)
    i = true) ∧ (u.port p).retrain = none ∧ (u.port p).naks < 7) ∧
  (∃ (p : Nat) (s : State), (linkUp s p = false ∨ s.now < (s.port p).linkSent + 1000)) ∧
  (∃ (p : Nat) (s : State), (linkUp s p = false ∨ (s.port p).retrain.isSome = true ∨ (s.port p).replay = [] ∨ s.now
    < (s.port p).ackTime + 20000)) ∧
  (∃ (p : Nat) (s : State), (s.port p).retrain = none) ∧
  (∃ (p : Nat) (s : State), (∀ r ∈ (s.port p).retrain, s.now < r.1 + 1000 * cfg 0x302002 2000 s)) :=
  ⟨⟨{ light := { port := 2 }, seq := 1 }, 2, _, _, _, ported, (by decide +kernel), (by decide +kernel), rfl, rfl,
      rfl⟩,
   ⟨{ light := { port := 2 }, seq := 1 }, 2, _, ported, (by decide +kernel), rfl, (by decide +kernel)⟩,
   ⟨{ light := { port := 2 }, seq := 1 }, hub, (by decide +kernel)⟩,
   ⟨{ light := { port := 2 }, seq := 1 }, [], [], [], true, hub, (by decide +kernel)⟩,
   ⟨2, prt { st := .dormant, farDormant := true } [], (by decide +kernel), (by decide +kernel),
      (by decide +kernel), (by decide +kernel), (by decide +kernel), (by decide +kernel)⟩,
   ⟨2, 5,
      { awaiting with ports := { awaiting.ports with ports := [(2, { st := .dormant, dormantSince := some 5 })] } },
      (by decide +kernel), (by decide +kernel), (by decide +kernel), List.cons_ne_nil _ _, (by decide +kernel)⟩,
   ⟨2, prt { st := .dormant, waking := true } [], (by decide +kernel), (by decide +kernel), (by decide +kernel),
      (by decide +kernel), (by decide +kernel)⟩,
   ⟨{ port := 2 }, 2, 1, 0, true, [], _, _, ported, (by decide +kernel), rfl, (by decide +kernel),
      (by decide +kernel), rfl⟩,
   ⟨{ port := 2 }, 2, 1, 0, true, [], _,
      { ported with ports := { ported.ports with ports := [(2, { ported.port 2 with naksOut := 7 })] } },
      (by decide +kernel), rfl, (by decide +kernel), (by decide +kernel), (by decide +kernel)⟩,
   ⟨{ port := 2 }, _, 2, 1, 1, hdr 0xC0 0 32, [], _, ported, (by decide +kernel), (by decide +kernel), rfl,
      (by decide +kernel), rfl, (by decide +kernel)⟩,
   ⟨{ port := 2 }, 2, 5, 3, 1, 0, 0, 15, { seq := 5, bytes := 64, item := .dormant },
      [{ seq := 4, bytes := 64, item := .dormant }], [{ seq := 6, bytes := 64, item := .dormant }], _, prt
      { st := .active, replay := [4, 5, 6].map fun n => { seq := n, bytes := 64, item := .dormant }, credits := { mem := 2 } }
      [], (by decide +kernel), rfl, (by decide +kernel), (by decide +kernel), (by decide +kernel),
      (by decide +kernel), (by decide +kernel), (by decide +kernel), (by decide +kernel)⟩,
   ⟨{ port := 2 }, 2, 5, 0, 0, 0, 0, 14, 0, 8, 5, _,
      { prt { st := .active, dealt := [0, 1, 2, 3], farDark := [(0, 5)] } (litLanes []) with time := { ported.time with now := 20000 } },
      (by decide +kernel), rfl, (by decide +kernel), (by decide +kernel), (by decide +kernel), (by decide +kernel),
      (by decide +kernel), (by decide +kernel), (by decide +kernel), (by decide +kernel), (by decide +kernel)⟩,
   ⟨{ port := 2 }, 2, 3, 0, 0, 0, 0, 15, _, prt
      { st := .active, replay := [{ seq := 4, bytes := 64, item := .dormant }], naks := 7 } [], (by decide +kernel),
      rfl, (by decide +kernel), (by decide +kernel), (by decide +kernel), (by decide +kernel), (by decide +kernel)⟩,
   ⟨2, _, ported, (by decide +kernel), Or.inl rfl, rfl, (by decide +kernel)⟩,
   ⟨2, prt { st := .active, replay := [{ seq := 4, bytes := 64, item := .dormant }] } [], (by decide +kernel),
      (by decide +kernel), (by decide +kernel), (by decide +kernel)⟩,
   ⟨2, 5, 1, prt
      { st := .active, retrain := some (5, 1), replay := [{ seq := 4, bytes := 64, item := .dormant }] } [],
      (by decide +kernel), (by decide +kernel), (by decide +kernel)⟩,
   ⟨2, 5, 1, prt { st := .active, retrain := some (5, 1) } [], (by decide +kernel), (by decide +kernel)⟩,
   ⟨2, hub, Or.inl (by decide +kernel)⟩,
   ⟨2, hub, Or.inl (by decide +kernel)⟩,
   ⟨2, hub, (by decide +kernel)⟩,
   ⟨2, _, prt { st := .dormant, waking := true } [], (by decide +kernel), (by decide +kernel), rfl⟩,
   ⟨{ port := 2 }, 2, 1, 0, true, true, [], _, hub, (by decide +kernel), rfl, (by decide +kernel)⟩,
   ⟨{ port := 2 }, 2, 3, 0, 0, 0, 0, 15, true, _, hub, (by decide +kernel), rfl, (by decide +kernel)⟩,
   ⟨2, 0, 0x99, 3, 0, 0, 0, 0, 15, true, _, prt
      { st := .active, elastic := [(0, .control 0x99 :: List.replicate 31 .data)] } [], (by decide +kernel),
      (by decide +kernel), (by decide +kernel), (by decide +kernel), rfl⟩,
   ⟨2, 0, 3, 0, 0, 0, 0, 15, true, _, prt { ported.port 2 with badCodes := [(0, List.replicate 16 ported.now)] }
      (litLanes []), (by decide +kernel), (by decide +kernel), (by decide +kernel), (by decide +kernel),
      (by decide +kernel), rfl⟩,
   ⟨{ port := 2 }, 2, 1, 0, false, [], _, ported, (by decide +kernel), rfl, (by decide +kernel), Or.inl rfl⟩,
   ⟨{ port := 2 }, _, 2, 1, 0, [], _, ported, (by decide +kernel), rfl, (by decide +kernel), rfl,
      (by decide +kernel), Or.inr (by simp)⟩,
   ⟨{ port := 2, kind := 7 }, _, 2, 1, 0, [], _, ported, (by decide +kernel), rfl, (by decide +kernel), rfl,
      (by decide +kernel)⟩,
   ⟨{ port := 2 }, _, 2, 1, 1, [.reply { op := Op.ack, dst := 0x1C1, tag := 7 }], _,
      { ported with dict := { ported.dict with odBytes := [(0x320003, natLe 1 2 ++ List.replicate 31 0)] } },
      (by decide +kernel), rfl, (by decide +kernel), rfl, (by decide +kernel), (by decide +kernel),
      (by decide +kernel)⟩,
   ⟨{ port := 2 }, 2, 0, 0, [], _, ported, (by decide +kernel), rfl, (by decide +kernel), (by decide +kernel),
      (by decide +kernel)⟩,
   ⟨{ port := 2 }, 2, 2, 0, [], _, ported, (by decide +kernel), rfl, (by decide +kernel), (by decide +kernel),
      (by decide +kernel), (by decide +kernel)⟩,
   ⟨{ port := 2 }, 2, 3, 0, 0, 0, 0, 15, _, prt
      { st := .active, replay := [{ seq := 4, bytes := 64, item := .dormant }] } [], (by decide +kernel), rfl,
      (by decide +kernel), (by decide +kernel), (by decide +kernel), (by decide +kernel), (by decide +kernel)⟩,
   ⟨2, hub, (by decide +kernel)⟩,
   ⟨2, hub, (by decide +kernel)⟩,
   ⟨2, hub, (by decide +kernel)⟩,
   ⟨2, hub, (by decide +kernel)⟩⟩

/-- The hypotheses of LanesAndOptics can be met. -/
theorem test_lanesAndOptics_witness :
  (∃ (e j p n : Nat) (rx : Bool) (s : State), p = portAt s e (s.lane e j).pos ∧ (s.lane e j).pos < 32 ∧ j < 34 ∧
    (s.lane e j).failed = false ∧ (s.port p).st.holds = true ∧ n = ((soundCircuits s p).filter (fun i => i !=
    j)).length ∧ laneMin s p ≤ n ∧ (s.port p).st.serves = true) ∧
  (∃ (e j p n : Nat) (rx : Bool) (s : State), p = portAt s e (s.lane e j).pos ∧ (s.lane e j).pos < 32 ∧ j < 34 ∧
    (s.lane e j).failed = false ∧ (s.port p).st.holds = true ∧ n = ((soundCircuits s p).filter (fun i => i !=
    j)).length ∧ n < laneMin s p) ∧
  (∃ (e j k p : Nat) (s : State), (s.lane e k).joining = some j ∧ p = portAt s e (s.lane e k).pos ∧ (s.lane e
    k).pos < 32 ∧ j < 34 ∧ k < 34 ∧ j ≠ k ∧ (bitOf (features s p) 5 = true ∨ ((s.lane e k).eq = true ∧ (s.lane e
    k).alock = true))) ∧
  (∃ (e j p : Nat) (s : State), p = portAt s e (s.lane e j).pos ∧ (s.lane e j).pos < 32 ∧ (s.lane e j).failed =
    true ∧ (s.lane e j).retired = false ∧ (s.lane e j).joining = none) ∧
  (∃ (p lanes : Nat) (s : State), lanes < laneMin s p ∧ (s.port p).st.holds = true) ∧
  (∃ (e lanes phase volt eye dwell : Nat) (s : State), s.lania.up = true ∧ domainOn s e = true ∧ eye < 3 ∧ 16 ≤
    dwell ∧ dwell ≤ 40) ∧
  (∃ (e lanes phase volt eye dwell : Nat) (s : State), s.lania.up = true ∧ domainOn s e = true ∧ (eye = 3 ∨ dwell <
    16 ∨ 40 < dwell)) ∧
  (∃ (e j v : Nat) (r : EyeRun) (s : State), s.ports.eyeRun.find e = some r ∧ r.start + 2 ^ r.dwell * 2 / 425 ≤
    s.now ∧ j < 34 ∧ bitOf r.mask j = true) ∧
  (∃ (p lane eye width height : Nat) (s : State), firmwareDown s = false ∧ cfg 0x304001 3600 s ≠ 0 ∧
    s.ports.eyeScanned + cfg 0x304001 3600 s * 1000000000 ≤ s.now ∧ lane ∈ (s.port p).dealt) ∧
  (∃ (e : Nat) (a b c : Int) (s : State), firmwareDown s = false ∧ domainOn s e = true ∧ s.ports.optPolled.getD e 0
    + 10000000 ≤ s.now ∧ levelOf (rxAt s a) (s.opt e 0).rxLevel ≠ 3) ∧
  (∃ (e j : Nat) (a b c : Int) (s : State), firmwareDown s = false ∧ domainOn s e = true ∧ s.ports.optPolled.getD e
    0 + 10000000 ≤ s.now ∧ levelOf (rxAt s a) (s.opt e 0).rxLevel = 3 ∧ circuitAt s e 0 = some j ∧ (s.lane e
    j).failed = false ∧ (s.port (portAt s e 0)).st.holds = true) ∧
  (∃ (e f : Nat) (v : Int) (old new : Nat) (s : State), old = (s.ports.lasers.getD (2 * e + f) (0, 0)).2 ∧ new =
    levelOf (laserAt v) old) ∧
  (∃ (e j : Nat) (rx : Bool) (s : State), ((s.lane e j).pos = 0x3F ∨ (s.lane e j).failed = true ∨ (s.port (portAt s
    e (s.lane e j).pos)).st.holds = false)) ∧
  (∃ (e j p n : Nat) (rx : Bool) (s : State), p = portAt s e (s.lane e j).pos ∧ (s.lane e j).pos < 32 ∧ j < 34 ∧
    (s.lane e j).failed = false ∧ ((s.port p).st = .identifying ∨ (s.port p).st = .fallow) ∧ n = ((soundCircuits s
    p).filter (fun i => i != j)).length ∧ laneMin s p ≤ n) ∧
  (∃ (e k : Nat) (s : State), (s.lane e k).joining = none) ∧
  (∃ (e j k p : Nat) (s : State), (s.lane e k).joining = some j ∧ p = portAt s e (s.lane e k).pos ∧ bitOf (features
    s p) 5 = false ∧ ((s.lane e k).eq = false ∨ (s.lane e k).alock = false)) ∧
  (∃ (e j : Nat) (s : State), ((s.lane e j).failed = false ∨ (s.lane e j).retired = true ∨ (s.lane e j).pos = 0x3F
    ∨ (s.lane e j).joining.isSome = true)) ∧
  (∃ (p lanes : Nat) (s : State), lanes < laneMin s p ∧ (s.port p).retrain = none ∧ ((s.port p).st = .training ∨
    (s.port p).st = .aligning)) ∧
  (∃ (p lanes : Nat) (s : State), (laneMin s p ≤ lanes ∨ (s.port p).st = .down ∨ (s.port p).st = .dormant)) ∧
  (∃ (e lanes phase volt eye dwell : Nat) (s : State), s.lania.up = true ∧ domainOn s e = false) ∧
  (∃ (e : Nat) (l : List (Nat × Nat)) (s : State), (∀ r ∈ s.ports.eyeRun.find e, s.now < r.start + 2 ^ r.dwell * 2
    / 425)) ∧
  (∃ (e : Nat) (l : List (Nat × Nat)) (r : EyeRun) (s : State), s.ports.eyeRun.find e = some r ∧ r.start + 2 ^
    r.dwell * 2 / 425 ≤ s.now) ∧
  (∃ (l : List (Nat × Nat × Nat × Nat × Nat)) (s : State), (firmwareDown s = true ∨ cfg 0x304001 3600 s = 0 ∨ s.now
    < s.ports.eyeScanned + cfg 0x304001 3600 s * 1000000000)) ∧
  (∃ (l : List (Nat × Nat × Nat × Nat × Nat)) (s : State), firmwareDown s = false ∧ cfg 0x304001 3600 s ≠ 0 ∧
    s.ports.eyeScanned + cfg 0x304001 3600 s * 1000000000 ≤ s.now) ∧
  (∃ (e : Nat) (l : List (Int × Int × Int)) (m : List Int) (s : State), (firmwareDown s = true ∨ domainOn s e =
    false ∨ s.now < s.ports.optPolled.getD e 0 + 10000000)) ∧
  (∃ (e : Nat) (l : List (Int × Int × Int)) (m : List Int) (s : State), firmwareDown s = false ∧ domainOn s e =
    true ∧ s.ports.optPolled.getD e 0 + 10000000 ≤ s.now ∧ (∀ q ∈ (l.take 32).zipIdx, levelOf (rxAt s q.1.1) (s.opt
    e q.2).rxLevel ≠ 3)) :=
  ⟨⟨0, 8, 2, 3, true, prt (ported.port 2) (litLanes []), (by decide +kernel), (by decide +kernel),
      (by decide +kernel), (by decide +kernel), (by decide +kernel), (by decide +kernel), (by decide +kernel),
      (by decide +kernel)⟩,
   ⟨0, 8, 2, 2, true, prt { st := .degraded } (litLanes [9]), (by decide +kernel), (by decide +kernel),
      (by decide +kernel), (by decide +kernel), (by decide +kernel), (by decide +kernel), (by decide +kernel)⟩,
   ⟨0, 8, 32, 2, prt { st := .degraded } [(8, { st := .off, pos := 0x3F, failed := true }), (32,
      { st := .training, pos := 8, joining := some 8, failed := true, eq := true, alock := true })],
      (by decide +kernel), (by decide +kernel), (by decide +kernel), (by decide +kernel), (by decide +kernel),
      (by decide +kernel), Or.inr (by decide +kernel)⟩,
   ⟨0, 8, 2, prt { st := .degraded } [(8, { st := .off, pos := 8, failed := true })], (by decide +kernel),
      (by decide +kernel), (by decide +kernel), (by decide +kernel), (by decide +kernel)⟩,
   ⟨2, 2, ported, (by decide +kernel), (by decide +kernel)⟩,
   ⟨0, 256, 1, 2, 2, 40, ported, (by decide +kernel), (by decide +kernel), (by decide +kernel),
      (by decide +kernel), (by decide +kernel)⟩,
   ⟨0, 256, 1, 2, 2, 41, ported, (by decide +kernel), (by decide +kernel), Or.inr (Or.inr (by decide))⟩,
   ⟨0, 8, 7, { mask := 256, phase := 0, volt := 0, eye := 1, dwell := 16, start := 5 },
      { ported with ports := { ported.ports with eyeRun := [(0, { mask := 256, phase := 0, volt := 0, eye := 1, dwell := 16, start := 5 })] } },
      (by decide +kernel), (by decide +kernel), (by decide +kernel), (by decide +kernel)⟩,
   ⟨2, 1, 0, 11, 9,
      { prt { st := .active, dealt := [0, 1] } [] with time := { hub.time with now := 3600000000000 } },
      (by decide +kernel), (by decide +kernel), (by decide +kernel), (by decide +kernel)⟩,
   ⟨0, -900, -4000, 0, ported, (by decide +kernel), (by decide +kernel), (by decide +kernel),
      (by decide +kernel)⟩,
   ⟨0, 0, -1600, -4000, 0,
      { ported with ports := { ported.ports with ports := [(0, { ported.port 2 with dealt := [0, 1, 2, 3] })], lanes := [(0, { st := .active, pos := 0 })] } },
      (by decide +kernel), (by decide +kernel), (by decide +kernel), (by decide +kernel), (by decide +kernel),
      (by decide +kernel), (by decide +kernel)⟩,
   ⟨0, 1, 1300, _, _, ported, rfl, rfl⟩,
   ⟨0, 8, true, hub, (by decide +kernel)⟩,
   ⟨0, 8, 2, 3, true, prt { ported.port 2 with st := .identifying } (litLanes []), (by decide +kernel),
      (by decide +kernel), (by decide +kernel), (by decide +kernel), Or.inl rfl, (by decide +kernel),
      (by decide +kernel)⟩,
   ⟨0, 32, hub, (by decide +kernel)⟩,
   ⟨0, 8, 32, 2, prt { st := .degraded } [(8, { st := .off, pos := 0x3F, failed := true }), (32,
      { st := .training, pos := 8, joining := some 8, failed := true })], (by decide +kernel), (by decide +kernel),
      (by decide +kernel), Or.inl rfl⟩,
   ⟨0, 8, hub, (by decide +kernel)⟩,
   ⟨2, 2, prt { st := .training, enabled := true } [], (by decide +kernel), (by decide +kernel), Or.inl rfl⟩,
   ⟨2, 2, hub, (by decide +kernel)⟩,
   ⟨0, 256, 1, 2, 2, 40, { hub with boot := { hub.boot with powered := 0 } }, (by decide +kernel),
      (by decide +kernel)⟩,
   ⟨0, [], hub, (by decide +kernel)⟩,
   ⟨0, [], { mask := 256, phase := 0, volt := 0, eye := 1, dwell := 16, start := 5 },
      { ported with ports := { ported.ports with eyeRun := [(0, { mask := 256, phase := 0, volt := 0, eye := 1, dwell := 16, start := 5 })] } },
      (by decide +kernel), (by decide +kernel)⟩,
   ⟨[], hub, (by decide +kernel)⟩,
   ⟨[], { prt { st := .active, dealt := [0, 1] } [] with time := { hub.time with now := 3600000000000 } },
      (by decide +kernel), (by decide +kernel), (by decide +kernel)⟩,
   ⟨0, [], [], State.reset, (by decide +kernel)⟩,
   ⟨0, [], [], ported, (by decide +kernel), (by decide +kernel), (by decide +kernel), (by decide +kernel)⟩⟩

/-- The hypotheses of LaniaAndDoorbells can be met. -/
theorem test_laniaAndDoorbells_witness :
  (∃ (off size : Nat) (v : U64) (s : State), s.lania.up = true ∧ ((size ≠ 4 ∧ size ≠ 8) ∨ off % size ≠ 0)) ∧
  (∃ (off size : Nat) (v : U64) (s : State), s.lania.up = true ∧ (size = 4 ∨ size = 8) ∧ off % size = 0 ∧ (regBlock
    { off, size, v := v.toNat } s).1 = false) ∧
  (∃ (off size : Nat) (v : U64) (s : State), s.lania.up = true ∧ (size = 4 ∨ size = 8) ∧ off % size = 0 ∧ (regBlock
    { off, size, v := v.toNat } s).1 = true ∧ (regBlock { off, size, v := v.toNat } s).2.isNone = true) ∧
  (∃ (off size : Nat) (s : State), s.lania.up = true ∧ ((size ≠ 4 ∧ size ≠ 8) ∨ off % size ≠ 0)) ∧
  (∃ (off size : Nat) (s : State), s.lania.up = true ∧ (size = 4 ∨ size = 8) ∧ off % size = 0 ∧ (regBlock
    { off, size, v := 0 } s).1 = false) ∧
  (∃ (off size : Nat) (s : State), s.lania.up = true ∧ (size = 4 ∨ size = 8) ∧ off % size = 0 ∧ (regBlock
    { off, size, v := 0 } s).1 = true ∧ (regView s (off / 8 * 8)).isNone = true) ∧
  (∃ (off size : Nat) (x : RegView) (s : State), s.lania.up = true ∧ (size = 4 ∨ size = 8) ∧ off % size = 0 ∧
    (regBlock { off, size, v := 0 } s).1 = true ∧ regView s (off / 8 * 8) = some x) ∧
  (∃ (s : State), s.lania.up = true ∧ csOn s = true) ∧
  (∃ (off size : Nat) (v : U64) (s : State), s.lania.up = true ∧ csOn s = true ∧ ((off = 0x600108 ∧ size = 8) ∨
    (off = 0x600108 ∧ size = 4) ∨ (off = 0x60010C ∧ size = 4))) ∧
  (∃ (c : Nat) (off : U48) (data : List Byte) (s : State), s.lania.up = true ∧ 128 ≤ data.length ∧ data.length ≤
    4096 ∧ s.boot.st = .island) ∧
  (∃ (c len : Nat) (off : U48) (s : State), s.lania.up = true ∧ 128 ≤ len ∧ len ≤ 4096 ∧ s.boot.st = .island) ∧
  (∃ (c : Nat) (off : U48) (data : List Byte) (u s : State), s.lania.up = true ∧ data.length = 128 ∧ off.toNat %
    128 = 0 ∧ trainedUp s = true ∧ s.lania.dmas = [] ∧ dmaBusy s = false ∧ u = serve
    { via := .host, op := Op.write, h := { ctx := c, dst := nodeOf s 0xC0, len := 128, opa := off }, data }
    { s with lania := { s.lania with dmas := [[]] } }) ∧
  (∃ (c : Nat) (off : U48) (u s : State), s.lania.up = true ∧ off.toNat % 128 = 0 ∧ trainedUp s = true ∧
    s.lania.dmas = [] ∧ dmaBusy s = false ∧ u = serve
    { via := .host, op := Op.read, h := { ctx := c, dst := nodeOf s 0xC0, len := 128, opa := off } }
    { s with lania := { s.lania with dmas := [[]] } }) ∧
  (∃ (w : Bool) (c len : Nat) (off : U48) (data : List Byte) (s : State), s.lania.up = true ∧ trainedUp s = true ∧
    128 ≤ len ∧ len ≤ 4096 ∧ 128 ≤ data.length ∧ data.length ≤ 4096 ∧ dmaBusy s = true ∧ s.lania.dmas.length < 1024) ∧
  (∃ (c len : Nat) (off : U48) (data : List Byte) (s : State), s.lania.up = true ∧ trainedUp s = true ∧ 128 ≤ len ∧
    len ≤ 4096 ∧ 128 ≤ data.length ∧ data.length ≤ 4096 ∧ 1024 ≤ s.lania.dmas.length) ∧
  (∃ (c off len : Nat) (a : U48) (data : List Byte) (s : State), s.lania.up = true ∧ csOn s = true ∧ off = a.toNat) ∧
  (∃ (c len : Nat) (a : U48) (data : List Byte) (s : State), s.lania.up = true ∧ csOn s = false) ∧
  (∃ (l half : Nat) (s : State), s.lania.up = true ∧ l < 16 ∧ s.lania.badLanes = [] ∧ s.lania.width = 16 ∧ half =
    (if l < 8 then 1 else 0)) ∧
  (∃ (s : State), s.lania.up = true ∧ s.lania.trained = true ∧ s.lania.comp ≠ .lost ∧ s.xlt.faults = [] ∧
    s.xlt.deferred = []) ∧
  (∃ (b : Nat) (s : State), s.lania.beat = some b ∧ b + 1000 * cfg 0x204001 1000 s < s.now ∧ s.lania.comp ≠ .lost ∧
    s.xlt.faults = [] ∧ s.xlt.deferred = []) ∧
  (∃ (s : State), s.boot.st ≠ .off ∧ s.boot.st ≠ .starting) ∧
  (∃ (b : Doorbell) (l : List Doorbell) (s : State), s.lania.waiting = b :: l ∧ s.lania.enable = true ∧
    s.lania.unread.length < 1024) ∧
  (∃ (v k : Nat) (s : State), s.lania.up = true ∧ consumed s.lania.cons (v % 1024) 1024 s.lania.unread.length =
    some k) ∧
  (∃ (v : U64) (s : State), s.lania.up = true) ∧
  (∃ (w : HostData) (off size c len v l : Nat) (a : U48) (data : List Byte) (x : RegData) (y : U64) (s : State),
    s.lania.up = false) ∧
  (∃ (off size : Nat) (v : U64) (s : State), s.lania.up = true ∧ (size = 4 ∨ size = 8) ∧ off % size = 0 ∧ (regBlock
    { off, size, v := v.toNat } s).1 = true ∧ (regBlock { off, size, v := v.toNat } s).2.isSome = true) ∧
  (∃ (w : Bool) (c len n : Nat) (off : U48) (data : List Byte) (s : State), s.lania.up = true ∧ n = (if w then
    data.length else len) ∧ (n < 128 ∨ 4096 < n)) ∧
  (∃ (w : Bool) (c len n : Nat) (off : U48) (data : List Byte) (s : State), s.lania.up = true ∧ n = (if w then
    data.length else len) ∧ 128 ≤ n ∧ n ≤ 4096 ∧ s.boot.st ≠ .island ∧ trainedUp s = false) ∧
  (∃ (c len : Nat) (off : U48) (data : List Byte) (s : State), s.lania.up = true ∧ trainedUp s = true ∧ 128 ≤ len ∧
    len ≤ 4096 ∧ 128 ≤ data.length ∧ data.length ≤ 4096 ∧ s.lania.dmas.length < 1024) ∧
  (∃ (l : Nat) (u s : State), s.lania.up = true ∧ l < 16 ∧ s.lania.badLanes.contains l = false ∧ s.lania.width ≠ 8
    ∧ (u = s.onLania fun x => { x with badLanes := x.badLanes ++ [l] })) ∧
  (∃ (l : Nat) (s : State), s.lania.up = true ∧ s.lania.badLanes.contains l = false ∧ l < 16 ∧ s.lania.width = 8) ∧
  (∃ (l : Nat) (s : State), (16 ≤ l ∨ s.lania.badLanes.contains l = true)) ∧
  (∃ (s : State), s.lania.up = true ∧ s.lania.trained = true) ∧
  (∃ (s : State), s.lania.up = true ∧ (s.lania.trained = false ∨ s.lania.comp = .lost)) ∧
  (∃ (s : State), (s.boot.st = .off ∨ s.boot.st = .starting)) ∧
  (∃ (s : State), (s.lania.waiting = [] ∨ s.lania.enable = false ∨ 1024 ≤ s.lania.unread.length)) ∧
  (∃ (v : Nat) (s : State), s.lania.up = true ∧ consumed s.lania.cons (v % 1024) 1024 s.lania.unread.length = none) ∧
  (∃ (s : State), (s.lania.beat.isNone = true ∨ s.now ≤ s.lania.beat.getD 0 + 1000 * cfg 0x204001 1000 s ∨
    s.lania.comp = .lost)) ∧
  (∃ (b : Nat) (s : State), s.lania.beat = some b ∧ b + 1000 * cfg 0x204001 1000 s < s.now) :=
  ⟨⟨0x600104, 8, 1, hub, (by decide +kernel), Or.inr (by decide)⟩,
   ⟨0x600108, 8, 1, { hub with boot := { hub.boot with powered := 0 } }, (by decide +kernel), Or.inr rfl,
      (by decide +kernel), (by decide +kernel)⟩,
   ⟨0x600400, 8, 1, hub, (by decide +kernel), Or.inr rfl, (by decide +kernel), (by decide +kernel),
      (by decide +kernel)⟩,
   ⟨0x600104, 8, hub, (by decide +kernel), Or.inr (by decide)⟩,
   ⟨0x600108, 8, { hub with boot := { hub.boot with powered := 0 } }, (by decide +kernel), Or.inr rfl,
      (by decide +kernel), (by decide +kernel)⟩,
   ⟨0x600400, 8, hub, (by decide +kernel), Or.inr rfl, (by decide +kernel), (by decide +kernel),
      (by decide +kernel)⟩,
   ⟨0x50000C, 4, { wo := 2 ^ 19 - 1 }, hub, (by decide +kernel), Or.inl rfl, (by decide +kernel),
      (by decide +kernel), (by decide +kernel)⟩,
   ⟨{ hub with pool := { hub.pool with verArg := 0x123456789ABC } }, (by decide +kernel), (by decide +kernel)⟩,
   ⟨0x60010C, 4, 0x12345, { hub with pool := { hub.pool with verArg := 7 } }, (by decide +kernel),
      (by decide +kernel), Or.inr (Or.inr ⟨rfl, rfl⟩)⟩,
   ⟨0, 0x3FFFFFF, List.replicate 128 7, { hub with boot := { hub.boot with st := .island } },
      (by decide +kernel), (by decide +kernel), (by decide +kernel), (by decide +kernel)⟩,
   ⟨0, 128, 5, { hub with boot := { hub.boot with st := .island, image := [(5, 7)] } }, (by decide +kernel),
      (by decide +kernel), (by decide +kernel), (by decide +kernel)⟩,
   ⟨0, 0x100, List.replicate 128 7, _, hub, (by decide +kernel), (by decide +kernel), (by decide +kernel),
      (by decide +kernel), (by decide +kernel), (by decide +kernel), rfl⟩,
   ⟨0, 0x100, _, hub, (by decide +kernel), (by decide +kernel), (by decide +kernel), (by decide +kernel),
      (by decide +kernel), rfl⟩,
   ⟨true, 0, 128, 0x100, List.replicate 128 7,
      { hub with xlt := { hub.xlt with stalled := [({ via := .host, op := 0, h := {} }, 0, none)] } },
      (by decide +kernel), (by decide +kernel), (by decide +kernel), (by decide +kernel), (by decide +kernel),
      (by decide +kernel)⟩,
   ⟨0, 128, 0x100, List.replicate 128 7, { hub with lania := { hub.lania with dmas := List.replicate 1024 [] } },
      (by decide +kernel), (by decide +kernel), (by decide +kernel), (by decide +kernel), (by decide +kernel)⟩,
   ⟨0, _, 4, 5, [], { hub with mem := [(5, 7)] }, (by decide +kernel), (by decide +kernel), rfl⟩,
   ⟨0, 4, 5, [], { hub with boot := { hub.boot with powered := 0 } }, (by decide +kernel), (by decide +kernel)⟩,
   ⟨15, 0, hub, (by decide +kernel), (by decide +kernel), (by decide +kernel), (by decide +kernel),
      (by decide +kernel)⟩,
   ⟨hub, (by decide +kernel), (by decide +kernel), (by decide +kernel), (by decide +kernel), (by decide +kernel)⟩,
   ⟨5, { hub with lania := { hub.lania with beat := some 5 } }, (by decide +kernel), (by decide +kernel),
      (by decide +kernel), (by decide +kernel), (by decide +kernel)⟩,
   ⟨{ hub with lania := { hub.lania with up := false } }, (by decide +kernel), (by decide +kernel)⟩,
   ⟨{ kind := 2, key := 0, arg := 7, time := 5 }, [],
      { hub with lania := { hub.lania with waiting := [{ kind := 2, key := 0, arg := 7, time := 5 }], enable := true, prod := 1023 } },
      (by decide +kernel), (by decide +kernel), (by decide +kernel)⟩,
   ⟨1024, 1, { hub with lania := { hub.lania with cons := 1023, unread := [(2, 0), (3, 0)] } },
      (by decide +kernel), (by decide +kernel)⟩,
   ⟨9, { hub with lania := { hub.lania with comp := .lost } }, (by decide +kernel)⟩,
   ⟨.write, 0x600108, 8, 0, 0, 1, 3, 0, List.replicate 128 7, .write 9, 9,
      { hub with lania := { hub.lania with up := false } }, (by decide +kernel)⟩,
   ⟨0x600108, 8, 1, hub, (by decide +kernel), Or.inr rfl, (by decide +kernel), (by decide +kernel),
      (by decide +kernel)⟩,
   ⟨false, 0, 4097, 4097, 0, [], hub, (by decide +kernel), (by decide +kernel), Or.inr (by decide)⟩,
   ⟨false, 0, 128, 128, 0, [], { hub with boot := { hub.boot with st := .powered } }, (by decide +kernel),
      (by decide +kernel), (by decide +kernel), (by decide +kernel), (by decide +kernel), (by decide +kernel)⟩,
   ⟨0, 4096, 0x180, List.replicate 256 7, hub, (by decide +kernel), (by decide +kernel), (by decide +kernel),
      (by decide +kernel), (by decide +kernel)⟩,
   ⟨7, _, hub, (by decide +kernel), (by decide +kernel), (by decide +kernel), (by decide +kernel), rfl⟩,
   ⟨3, { hub with lania := { hub.lania with width := 8, badLanes := [12] } }, (by decide +kernel),
      (by decide +kernel), (by decide +kernel), (by decide +kernel)⟩,
   ⟨16, hub, Or.inl (by decide)⟩,
   ⟨hub, (by decide +kernel), (by decide +kernel)⟩,
   ⟨{ hub with lania := { hub.lania with trained := false } }, (by decide +kernel), Or.inl rfl⟩,
   ⟨{ hub with boot := { hub.boot with st := .starting } }, Or.inr rfl⟩,
   ⟨{ hub with lania := { hub.lania with waiting := [{ kind := 2, key := 0, arg := 7, time := 5 }], enable := false } },
      Or.inr (Or.inl rfl)⟩,
   ⟨3, { hub with lania := { hub.lania with cons := 1, unread := [(2, 0)] } }, (by decide +kernel),
      (by decide +kernel)⟩,
   ⟨{ hub with lania := { hub.lania with beat := none } }, Or.inl rfl⟩,
   ⟨5, { hub with lania := { hub.lania with beat := some 5 } }, (by decide +kernel), (by decide +kernel)⟩⟩

/-- The hypotheses of RequestsOfTheDictionary can be met. -/
theorem test_requestsOfTheDictionary_witness :
  (∃ (m : AdpMsg) (x : Session) (s : State), agentUp s = true ∧ m.linkLocal = true ∧ m.reserved = false ∧ m.version
    = 1 ∧ s.session m.session = some x ∧ m.tagOk = true ∧ x.kept.find? (fun k => k.1 == m.seq) = none ∧ x.lastSeq <
    m.seq) ∧
  (∃ (m : AdpMsg) (x : Session) (s : State), agentUp s = true ∧ m.linkLocal = true ∧ m.reserved = false ∧ m.version
    = 1 ∧ s.session m.session = some x ∧ m.tagOk = true ∧ x.kept.find? (fun k => k.1 == m.seq) = none ∧ x.lastSeq <
    m.seq) ∧
  (∃ (m : AdpMsg) (x : Session) (s : State), agentUp s = true ∧ m.linkLocal = true ∧ m.reserved = false ∧ m.version
    = 1 ∧ s.session m.session = some x ∧ m.tagOk = true ∧ x.kept.find? (fun k => k.1 == m.seq) = none ∧ x.lastSeq <
    m.seq) ∧
  (∃ (m : AdpMsg) (x : Session) (s : State), agentUp s = true ∧ m.linkLocal = true ∧ m.reserved = false ∧ m.version
    = 1 ∧ s.session m.session = some x ∧ m.tagOk = true ∧ x.kept.find? (fun k => k.1 == m.seq) = none ∧ x.lastSeq <
    m.seq ∧ m.body.length ≤ 1024) ∧
  (∃ (m : AdpMsg) (x : Session) (s : State), agentUp s = true ∧ m.linkLocal = true ∧ m.reserved = false ∧ m.version
    = 1 ∧ s.session m.session = some x ∧ m.tagOk = true ∧ x.kept.find? (fun k => k.1 == m.seq) = none ∧ x.lastSeq <
    m.seq ∧ x.tenant = none ∧ m.index = 0x1200 ∧ m.sub = 2) ∧
  (∃ (m : AdpMsg) (v : Nat) (x : Session) (s : State), agentUp s = true ∧ m.linkLocal = true ∧ m.reserved = false ∧
    m.version = 1 ∧ s.session m.session = some x ∧ m.tagOk = true ∧ x.kept.find? (fun k => k.1 == m.seq) = none ∧
    x.lastSeq < m.seq ∧ x.tenant = none ∧ m.index = 0x1200 ∧ m.sub = 2 ∧ m.body = natLe 4 v ∧ 100 ≤ v ∧ v ≤ 10000) ∧
  (∃ (m : AdpMsg) (k : Nat × AdpResp) (x : Session) (s : State), agentUp s = true ∧ m.linkLocal = true ∧ m.reserved
    = false ∧ m.version = 1 ∧ s.session m.session = some x ∧ m.tagOk = true ∧ x.kept.find? (fun k => k.1 == m.seq) =
    some k) ∧
  (∃ (m : AdpMsg) (d : Nat) (x : Session) (s : State), agentUp s = true ∧ m.linkLocal = true ∧ m.reserved = false ∧
    m.version = 1 ∧ s.session m.session = some x ∧ m.tagOk = false ∧ s.dict.authRaised = some d ∧ s.now < d +
    1000000000) ∧
  (∃ (s : State), s.lania.up = true ∧ s.dict.mbDone = true ∧ agentUp s = true) ∧
  (∃ (n : Nat) (s : State), s.lania.up = true ∧ s.dict.mbDone = true ∧ agentUp s = true ∧ n ≤ 4096) ∧
  (∃ (n off : Nat) (s : State), s.lania.up = true ∧ s.dict.mbDone = true ∧ agentUp s = true ∧ n ≤ 4096) ∧
  (∃ (last : Bool) (n off : Nat) (s : State), s.lania.up = true ∧ s.dict.mbDone = true ∧ agentUp s = true ∧ n ≤
    4096) ∧
  (∃ (last : Bool) (n off : Nat) (s : State), s.lania.up = true ∧ s.dict.mbDone = false) ∧
  (∃ (m : AdpMsg) (s : State), (agentUp s = false ∨ m.linkLocal = false)) ∧
  (∃ (m : AdpMsg) (tagged : Bool) (s : State), agentUp s = true ∧ m.linkLocal = true ∧ (m.reserved = true ∨
    m.version ≠ 1) ∧ tagged = ((s.session m.session).isSome && m.tagOk)) ∧
  (∃ (m : AdpMsg) (s : State), agentUp s = true ∧ m.linkLocal = true ∧ m.reserved = false ∧ m.version = 1 ∧
    ((s.session m.session).isNone = true ∨ m.tagOk = false)) ∧
  (∃ (m : AdpMsg) (k : Nat × AdpResp) (x : Session) (s : State), agentUp s = true ∧ m.linkLocal = true ∧ m.reserved
    = false ∧ m.version = 1 ∧ s.session m.session = some x ∧ m.tagOk = true ∧ x.kept.find? (fun k => k.1 == m.seq) =
    some k) ∧
  (∃ (m : AdpMsg) (x : Session) (s : State), agentUp s = true ∧ m.linkLocal = true ∧ m.reserved = false ∧ m.version
    = 1 ∧ s.session m.session = some x ∧ m.tagOk = true ∧ x.kept.find? (fun k => k.1 == m.seq) = none ∧ m.seq ≤
    x.lastSeq) ∧
  (∃ (last : Bool) (n off : Nat) (s : State), s.lania.up = false) ∧
  (∃ (last : Bool) (n off : Nat) (u s : State), s.lania.up = true ∧ s.dict.mbDone = true ∧ agentUp s = false ∧ (u =
    regAck St.ok (s.onDict fun d => { d with mbDone := false, mbResult := 0, mbLast := false, mbLen := 0 }))) ∧
  (∃ (last : Bool) (n off : Nat) (u s : State), s.lania.up = true ∧ s.dict.mbDone = true ∧ agentUp s = true ∧ 4096
    < n ∧ (u = regAck St.ok (s.onDict fun d =>
    { d with mbDone := false, mbResult := 0, mbLast := false, mbLen := 0 }))) :=
  ⟨⟨msgA 0x1200 2 [], sessA, managed sessA, (by decide +kernel), (by decide +kernel), (by decide +kernel),
      (by decide +kernel), (by decide +kernel), (by decide +kernel), (by decide +kernel), (by decide +kernel)⟩,
   ⟨msgA 0x1200 2 [1], sessA, managed sessA, (by decide +kernel), (by decide +kernel), (by decide +kernel),
      (by decide +kernel), (by decide +kernel), (by decide +kernel), (by decide +kernel), (by decide +kernel)⟩,
   ⟨msgA 0x1200 2 [], sessA, managed sessA, (by decide +kernel), (by decide +kernel), (by decide +kernel),
      (by decide +kernel), (by decide +kernel), (by decide +kernel), (by decide +kernel), (by decide +kernel)⟩,
   ⟨msgA 0x1200 2 [], sessA, managed sessA, (by decide +kernel), (by decide +kernel), (by decide +kernel),
      (by decide +kernel), (by decide +kernel), (by decide +kernel), (by decide +kernel), (by decide +kernel),
      (by decide +kernel)⟩,
   ⟨msgA 0x1200 2 [], sessA, managed sessA, (by decide +kernel), (by decide +kernel), (by decide +kernel),
      (by decide +kernel), (by decide +kernel), (by decide +kernel), (by decide +kernel), (by decide +kernel),
      (by decide +kernel), (by decide +kernel), (by decide +kernel)⟩,
   ⟨msgA 0x1200 2 (natLe 4 500), 500, sessA, managed sessA, (by decide +kernel), (by decide +kernel),
      (by decide +kernel), (by decide +kernel), (by decide +kernel), (by decide +kernel), (by decide +kernel),
      (by decide +kernel), (by decide +kernel), (by decide +kernel), (by decide +kernel), (by decide +kernel),
      (by decide +kernel), (by decide +kernel)⟩,
   ⟨msgA 0x1200 2 [1], (5, { typ := 2, session := 1, seq := 5 }),
      { sessA with kept := [(5, { typ := 2, session := 1, seq := 5 })] }, managed
      { sessA with kept := [(5, { typ := 2, session := 1, seq := 5 })] }, (by decide +kernel), (by decide +kernel),
      (by decide +kernel), (by decide +kernel), (by decide +kernel), (by decide +kernel), (by decide +kernel)⟩,
   ⟨{ msgA 0x1200 2 [] with tagOk := false }, 9999999999, sessA,
      { managed sessA with dict := { (managed sessA).dict with authRaised := some 9999999999 } },
      (by decide +kernel), (by decide +kernel), (by decide +kernel), (by decide +kernel), (by decide +kernel),
      (by decide +kernel), (by decide +kernel), (by decide +kernel)⟩,
   ⟨{ hub with dict := { hub.dict with mbIndex := 0x021200 } }, (by decide +kernel), (by decide +kernel),
      (by decide +kernel)⟩,
   ⟨4, { hub with dict := { hub.dict with mbIndex := 0x021200 } }, (by decide +kernel), (by decide +kernel),
      (by decide +kernel), (by decide +kernel)⟩,
   ⟨4096, 0, { hub with dict := { hub.dict with mbIndex := 0x021200 } }, (by decide +kernel),
      (by decide +kernel), (by decide +kernel), (by decide +kernel)⟩,
   ⟨true, 4096, 0, { hub with dict := { hub.dict with mbIndex := 0x021200 } }, (by decide +kernel),
      (by decide +kernel), (by decide +kernel), (by decide +kernel)⟩,
   ⟨true, 4, 0, { hub with dict := { hub.dict with mbDone := false } }, (by decide +kernel), (by decide +kernel)⟩,
   ⟨{ msgA 0x1200 2 [] with linkLocal := false }, hub, Or.inr rfl⟩,
   ⟨{ msgA 0x1200 2 [] with version := 2 }, _, managed sessA, (by decide +kernel), (by decide +kernel),
      Or.inr (by decide), rfl⟩,
   ⟨{ msgA 0x1200 2 [] with session := 9 }, managed sessA, (by decide +kernel), (by decide +kernel),
      (by decide +kernel), (by decide +kernel), Or.inl rfl⟩,
   ⟨msgA 0x1200 2 [1], (5, { typ := 2, session := 1, seq := 5 }),
      { sessA with kept := [(5, { typ := 2, session := 1, seq := 5 })] }, managed
      { sessA with kept := [(5, { typ := 2, session := 1, seq := 5 })] }, (by decide +kernel), (by decide +kernel),
      (by decide +kernel), (by decide +kernel), (by decide +kernel), (by decide +kernel), (by decide +kernel)⟩,
   ⟨msgA 0x1200 2 [1], { sessA with lastSeq := 5 }, managed { sessA with lastSeq := 5 }, (by decide +kernel),
      (by decide +kernel), (by decide +kernel), (by decide +kernel), (by decide +kernel), (by decide +kernel),
      (by decide +kernel), (by decide +kernel)⟩,
   ⟨true, 4, 0, { hub with lania := { hub.lania with up := false } }, (by decide +kernel)⟩,
   ⟨true, 4, 0, _, { hub with boot := { hub.boot with mgmtDown := true } }, (by decide +kernel),
      (by decide +kernel), (by decide +kernel), rfl⟩,
   ⟨true, 4097, 0, _, hub, (by decide +kernel), (by decide +kernel), (by decide +kernel), (by decide +kernel),
      rfl⟩⟩

/-- The hypotheses of SessionsLiveAndEnd can be met. -/
theorem test_sessionsLiveAndEnd_witness :
  (∃ (n q a b d : Nat) (x : Session) (s : State), agentUp s = true ∧ s.session n = some x ∧ x.event = some (q, a,
    b, d)) ∧
  (∃ (n q a b d : Nat) (x : Session) (s : State), agentUp s = true ∧ s.session n = some x ∧ x.event = some (q, a,
    b, d) ∧ d + 100000000 ≤ s.now) ∧
  (∃ (m : AdpMsg) (x : Session) (s : State), agentUp s = true ∧ m.linkLocal = true ∧ m.reserved = false ∧ m.version
    = 1 ∧ s.session m.session = some x ∧ m.tagOk = true ∧ x.kept.find? (fun k => k.1 == m.seq) = none ∧ x.lastSeq <
    m.seq) ∧
  (∃ (m : AdpMsg) (s : State), agentUp s = true ∧ m.linkLocal = true ∧ m.reserved = false ∧ m.version = 1 ∧
    s.dict.keptOpens.find? (fun k => k.nonce == slice m.body 4 32 && k.seq == m.seq) = none ∧ fieldAt m.body 0 1 ≠ 1
    ∧ fieldAt m.body 0 1 ≠ 2) ∧
  (∃ (m : AdpMsg) (good : Bool) (s : State), agentUp s = true ∧ m.linkLocal = true ∧ m.reserved = false ∧ m.version
    = 1 ∧ s.dict.keptOpens.find? (fun k => k.nonce == slice m.body 4 32 && k.seq == m.seq) = none ∧ fieldAt m.body 0
    1 = 1 ∧ m.body.length = 263 ∧ (slice m.body 92 57 ∈ (List.range 4).map fun i => s.dict.odBytes.getD (0x121001 +
    i) []) ∧ ((s.dict.sessions.filter fun x => x.tenant.isNone).length < 4) ∧ good = Config.ed448Verify (slice
    m.body 92 57) (m.body.take 149 ++ takePad 16 Config.serialNumber) (m.body.drop 149)) ∧
  (∃ (m : AdpMsg) (x : Session) (s : State), agentUp s = true ∧ s.session m.session = some x) ∧
  (∃ (m : AdpMsg) (x : Session) (s : State), agentUp s = true ∧ m.linkLocal = true ∧ m.reserved = false ∧ m.version
    = 1 ∧ s.session m.session = some x ∧ m.tagOk = true ∧ x.kept.find? (fun k => k.1 == m.seq) = none ∧ x.lastSeq <
    m.seq) ∧
  (∃ (n : Nat) (x : Session) (s : State), s.session n = some x ∧ x.heard + 1000000 * cfg 0x120003 3000 s ≤ s.now) ∧
  (∃ (s : State), agentUp s = true ∧ managerOpen s = false ∧ s.dict.preBeat + 1000000000 ≤ s.now) ∧
  (∃ (n : Nat) (x : Session) (s : State), agentUp s = true ∧ s.session n = some x ∧ x.beat + 1000000 * cfg 0x120002
    1000 s ≤ s.now) ∧
  (∃ (n : Nat) (x : Session) (s : State), s.session n = some x) ∧
  (∃ (nonce : List Byte) (q : Nat) (k : KeptOpen) (s : State), s.dict.keptOpens = [k] ∧ k.nonce = nonce ∧ k.seq = q
    ∧ k.since + 10000000000 ≤ s.now) ∧
  (∃ (s : State), s.dict.beacon = true ∧ s.dict.beaconTime + 100000000 ≤ s.now) ∧
  (∃ (s : State), fromIsland s.boot.st = true) ∧
  (∃ (a : List Byte) (dad : Bool) (s : State), agentUp s = true ∧ a = linkLocalAddr) ∧
  (∃ (m : AdpMsg) (s : State), (agentUp s = false ∨ m.linkLocal = false)) ∧
  (∃ (m : AdpMsg) (tagged : Bool) (s : State), agentUp s = true ∧ m.linkLocal = true ∧ (m.reserved = true ∨
    m.version ≠ 1) ∧ tagged = ((s.session m.session).isSome && m.tagOk)) ∧
  (∃ (m : AdpMsg) (s : State), agentUp s = true ∧ m.linkLocal = true ∧ m.reserved = false ∧ m.version = 1 ∧
    ((s.session m.session).isNone = true ∨ m.tagOk = false)) ∧
  (∃ (m : AdpMsg) (k : Nat × AdpResp) (x : Session) (s : State), agentUp s = true ∧ m.linkLocal = true ∧ m.reserved
    = false ∧ m.version = 1 ∧ s.session m.session = some x ∧ m.tagOk = true ∧ x.kept.find? (fun k => k.1 == m.seq) =
    some k) ∧
  (∃ (m : AdpMsg) (x : Session) (s : State), agentUp s = true ∧ m.linkLocal = true ∧ m.reserved = false ∧ m.version
    = 1 ∧ s.session m.session = some x ∧ m.tagOk = true ∧ x.kept.find? (fun k => k.1 == m.seq) = none ∧ m.seq ≤
    x.lastSeq) ∧
  (∃ (a : List Byte) (n q : Nat) (ok dad : Bool) (m : AdpMsg) (s : State), agentUp s = false) ∧
  (∃ (n : Nat) (m : AdpMsg) (s : State), (s.session n).isNone = true ∧ m.session = n) ∧
  (∃ (n : Nat) (x : Session) (s : State), s.session n = some x ∧ s.now < x.beat + 1000000 * cfg 0x120002 1000 s ∧
    s.now < x.heard + 1000000 * cfg 0x120003 3000 s ∧ (x.event.isNone = true ∨ s.now < (x.event.map fun e =>
    e.2.2.2).getD 0 + 100000000)) ∧
  (∃ (s : State), (managerOpen s = true ∨ s.now < s.dict.preBeat + 1000000000)) ∧
  (∃ (s : State), (s.dict.beacon = false ∨ s.now < s.dict.beaconTime + 100000000)) ∧
  (∃ (s : State), fromIsland s.boot.st = false) ∧
  (∃ (a : List Byte) (dad : Bool) (s : State), a ≠ linkLocalAddr) ∧
  (∃ (n q : Nat) (ok : Bool) (s : State), agentUp s = true ∧ ((s.session n).isNone = true ∨ ok = false)) ∧
  (∃ (n q : Nat) (x : Session) (s : State), agentUp s = true ∧ s.session n = some x ∧ x.event.map Prod.fst ≠ some q) ∧
  (∃ (n q a b d : Nat) (x : Session) (s : State), agentUp s = true ∧ s.session n = some x ∧ x.event = some (q, a,
    b, d)) ∧
  (∃ (m : AdpMsg) (s : State), m.linkLocal = false) ∧
  (∃ (m : AdpMsg) (s : State), agentUp s = true ∧ m.linkLocal = true ∧ (m.reserved = true ∨ m.version ≠ 1)) ∧
  (∃ (m : AdpMsg) (k : KeptOpen) (s : State), agentUp s = true ∧ m.linkLocal = true ∧ m.reserved = false ∧
    m.version = 1 ∧ s.dict.keptOpens.find? (fun k => k.nonce == slice m.body 4 32 && k.seq == m.seq) = some k) ∧
  (∃ (m : AdpMsg) (anchors : List (List Byte)) (s : State), agentUp s = true ∧ m.linkLocal = true ∧ m.reserved =
    false ∧ m.version = 1 ∧ s.dict.keptOpens.find? (fun k => k.nonce == slice m.body 4 32 && k.seq == m.seq) = none
    ∧ fieldAt m.body 0 1 = 1 ∧ (anchors = ((List.range 4).map fun i => s.dict.odBytes.getD (0x121001 + i) []).filter
    fun a => !a.isEmpty) ∧ (m.body.length ≠ 263 ∨ anchors.contains (slice m.body 92 57) = false)) ∧
  (∃ (m : AdpMsg) (good : Bool) (s : State), agentUp s = true ∧ m.linkLocal = true ∧ m.reserved = false ∧ m.version
    = 1 ∧ s.dict.keptOpens.find? (fun k => k.nonce == slice m.body 4 32 && k.seq == m.seq) = none ∧ fieldAt m.body 0
    1 = 1 ∧ m.body.length = 263 ∧ (slice m.body 92 57 ∈ (List.range 4).map fun i => s.dict.odBytes.getD (0x121001 +
    i) []) ∧ (4 ≤ (s.dict.sessions.filter fun x => x.tenant.isNone).length) ∧ good = Config.ed448Verify (slice
    m.body 92 57) (m.body.take 149 ++ takePad 16 Config.serialNumber) (m.body.drop 149)) ∧
  (∃ (m : AdpMsg) (k : TenantKey) (good : Bool) (s : State), agentUp s = true ∧ m.linkLocal = true ∧ m.reserved =
    false ∧ m.version = 1 ∧ s.dict.keptOpens.find? (fun k => k.nonce == slice m.body 4 32 && k.seq == m.seq) = none
    ∧ fieldAt m.body 0 1 = 2 ∧ s.key.tenants = [k] ∧ k.nonce = slice m.body 36 64 ∧ m.body.length = 181 ∧
    ((s.dict.sessions.filter fun x => x.tenant.isSome).length < 16) ∧ good = (takePad 32 (Config.kmac k.key
    (m.body.take 149)) == m.body.drop 149)) ∧
  (∃ (m : AdpMsg) (k : TenantKey) (good : Bool) (s : State), agentUp s = true ∧ m.linkLocal = true ∧ m.reserved =
    false ∧ m.version = 1 ∧ s.dict.keptOpens.find? (fun k => k.nonce == slice m.body 4 32 && k.seq == m.seq) = none
    ∧ fieldAt m.body 0 1 = 2 ∧ s.key.tenants = [k] ∧ k.nonce = slice m.body 36 64 ∧ m.body.length = 181 ∧ (16 ≤
    (s.dict.sessions.filter fun x => x.tenant.isSome).length) ∧ good = (takePad 32 (Config.kmac k.key (m.body.take
    149)) == m.body.drop 149)) ∧
  (∃ (m : AdpMsg) (s : State), agentUp s = true ∧ m.linkLocal = true ∧ m.reserved = false ∧ m.version = 1 ∧
    s.dict.keptOpens.find? (fun k => k.nonce == slice m.body 4 32 && k.seq == m.seq) = none ∧ fieldAt m.body 0 1 = 2
    ∧ (s.key.tenants.all (fun k => k.nonce != slice m.body 36 64) = true ∨ m.body.length ≠ 181)) :=
  ⟨⟨1, 3, 1, 2, 5, { sessA with event := some (3, 1, 2, 5) }, managed { sessA with event := some (3, 1, 2, 5) },
      (by decide +kernel), (by decide +kernel), (by decide +kernel)⟩,
   ⟨1, 3, 1, 2, 5, { sessA with event := some (3, 1, 2, 5) }, managed { sessA with event := some (3, 1, 2, 5) },
      (by decide +kernel), (by decide +kernel), (by decide +kernel), (by decide +kernel)⟩,
   ⟨msgA 0 0 [], sessA, managed sessA, (by decide +kernel), (by decide +kernel), (by decide +kernel),
      (by decide +kernel), (by decide +kernel), (by decide +kernel), (by decide +kernel), (by decide +kernel)⟩,
   ⟨msgA 0 0 [3], hub, (by decide +kernel), (by decide +kernel), (by decide +kernel), (by decide +kernel),
      (by decide +kernel), (by decide +kernel), (by decide +kernel)⟩,
   ⟨{ msgA 0 0 (1 :: List.replicate 262 0) with session := 0 }, _,
      { hub with dict := { hub.dict with odBytes := [(0x121001, List.replicate 57 0)] } }, (by decide +kernel),
      (by decide +kernel), (by decide +kernel), (by decide +kernel), (by decide +kernel), (by decide +kernel),
      (by decide +kernel), by decide +kernel, (by decide +kernel), rfl⟩,
   ⟨msgA 0 0 [], sessA, managed sessA, (by decide +kernel), (by decide +kernel)⟩,
   ⟨msgA 0 0 [], sessA, managed sessA, (by decide +kernel), (by decide +kernel), (by decide +kernel),
      (by decide +kernel), (by decide +kernel), (by decide +kernel), (by decide +kernel), (by decide +kernel)⟩,
   ⟨1, sessA, managed sessA, (by decide +kernel), (by decide +kernel)⟩,
   ⟨hub, (by decide +kernel), (by decide +kernel), (by decide +kernel)⟩,
   ⟨1, sessA, managed sessA, (by decide +kernel), (by decide +kernel), (by decide +kernel)⟩,
   ⟨1, sessA, managed sessA, (by decide +kernel)⟩,
   ⟨[7], 5, { nonce := [7], seq := 5, parts := [], since := 0 },
      { hub with dict := { hub.dict with keptOpens := [{ nonce := [7], seq := 5, parts := [], since := 0 }] } },
      (by decide +kernel), (by decide +kernel), (by decide +kernel), (by decide +kernel)⟩,
   ⟨{ hub with dict := { hub.dict with beacon := true } }, (by decide +kernel), (by decide +kernel)⟩,
   ⟨hub, (by decide +kernel)⟩,
   ⟨_, false, hub, (by decide +kernel), rfl⟩,
   ⟨{ msgA 0x1200 2 [] with linkLocal := false }, hub, Or.inr rfl⟩,
   ⟨{ msgA 0x1200 2 [] with version := 2 }, _, managed sessA, (by decide +kernel), (by decide +kernel),
      Or.inr (by decide), rfl⟩,
   ⟨{ msgA 0x1200 2 [] with session := 9 }, managed sessA, (by decide +kernel), (by decide +kernel),
      (by decide +kernel), (by decide +kernel), Or.inl rfl⟩,
   ⟨msgA 0x1200 2 [1], (5, { typ := 2, session := 1, seq := 5 }),
      { sessA with kept := [(5, { typ := 2, session := 1, seq := 5 })] }, managed
      { sessA with kept := [(5, { typ := 2, session := 1, seq := 5 })] }, (by decide +kernel), (by decide +kernel),
      (by decide +kernel), (by decide +kernel), (by decide +kernel), (by decide +kernel), (by decide +kernel)⟩,
   ⟨msgA 0x1200 2 [1], { sessA with lastSeq := 5 }, managed { sessA with lastSeq := 5 }, (by decide +kernel),
      (by decide +kernel), (by decide +kernel), (by decide +kernel), (by decide +kernel), (by decide +kernel),
      (by decide +kernel), (by decide +kernel)⟩,
   ⟨[], 1, 3, true, false, msgA 0 0 [], { managed sessA with boot := { hub.boot with mgmtDown := true } },
      (by decide +kernel)⟩,
   ⟨9, { msgA 0 0 [] with session := 9 }, managed sessA, (by decide +kernel), (by decide +kernel)⟩,
   ⟨1, { sessA with beat := 10000000000, heard := 10000000000 }, managed
      { sessA with beat := 10000000000, heard := 10000000000 }, (by decide +kernel), (by decide +kernel),
      (by decide +kernel), Or.inl rfl⟩,
   ⟨managed sessA, Or.inl rfl⟩,
   ⟨hub, Or.inl rfl⟩,
   ⟨{ hub with boot := { hub.boot with st := .starting } }, (by decide +kernel)⟩,
   ⟨[], true, hub, fun h => absurd (congrArg List.length h) (by rw [linkLocalAddr]; simp)⟩,
   ⟨1, 3, false, managed sessA, (by decide +kernel), Or.inr rfl⟩,
   ⟨1, 4, { sessA with event := some (3, 1, 2, 5) }, managed { sessA with event := some (3, 1, 2, 5) },
      (by decide +kernel), (by decide +kernel), (by decide +kernel)⟩,
   ⟨1, 3, 1, 2, 5, { sessA with event := some (3, 1, 2, 5) }, managed { sessA with event := some (3, 1, 2, 5) },
      (by decide +kernel), (by decide +kernel), (by decide +kernel)⟩,
   ⟨{ msgA 0 0 [1] with linkLocal := false }, hub, (by decide +kernel)⟩,
   ⟨{ msgA 0 0 [1] with reserved := true }, hub, (by decide +kernel), (by decide +kernel), Or.inl rfl⟩,
   ⟨msgA 0 0 (List.replicate 36 7),
      { nonce := List.replicate 32 7, seq := 5, parts := [{ typ := 7, session := 1, seq := 5 }], since := 0 },
      { hub with dict := { hub.dict with keptOpens := [{ nonce := List.replicate 32 7, seq := 5, parts := [{ typ := 7, session := 1, seq := 5 }], since := 0 }] } },
      (by decide +kernel), (by decide +kernel), (by decide +kernel), (by decide +kernel), (by decide +kernel)⟩,
   ⟨msgA 0 0 [1], _, hub, (by decide +kernel), (by decide +kernel), (by decide +kernel), (by decide +kernel),
      (by decide +kernel), (by decide +kernel), rfl, Or.inl (by decide)⟩,
   ⟨{ msgA 0 0 (1 :: List.replicate 262 0) with session := 0 }, _,
      { hub with dict := { hub.dict with odBytes := [(0x121001, List.replicate 57 0)], sessions := List.replicate 4 sessA } },
      (by decide +kernel), (by decide +kernel), (by decide +kernel), (by decide +kernel), (by decide +kernel),
      (by decide +kernel), (by decide +kernel), by decide +kernel, (by decide +kernel), rfl⟩,
   ⟨{ msgA 0 0 (2 :: List.replicate 180 0) with session := 0 },
      { num := 3, plot := 2, nonce := List.replicate 64 0, key := [], since := 0 }, _,
      { hub with key := { hub.key with tenants := [{ num := 3, plot := 2, nonce := List.replicate 64 0, key := [], since := 0 }] } },
      (by decide +kernel), (by decide +kernel), (by decide +kernel), (by decide +kernel), (by decide +kernel),
      (by decide +kernel), (by decide +kernel), (by decide +kernel), (by decide +kernel), (by decide +kernel), rfl⟩,
   ⟨{ msgA 0 0 (2 :: List.replicate 180 0) with session := 0 },
      { num := 3, plot := 2, nonce := List.replicate 64 0, key := [], since := 0 }, _,
      { hub with key := { hub.key with tenants := [{ num := 3, plot := 2, nonce := List.replicate 64 0, key := [], since := 0 }] }, dict := { hub.dict with sessions := List.replicate 16 { sessA with tenant := some (2, 3) } } },
      (by decide +kernel), (by decide +kernel), (by decide +kernel), (by decide +kernel), (by decide +kernel),
      (by decide +kernel), (by decide +kernel), (by decide +kernel), (by decide +kernel), (by decide +kernel), rfl⟩,
   ⟨msgA 0 0 [2], hub, (by decide +kernel), (by decide +kernel), (by decide +kernel), (by decide +kernel),
      (by decide +kernel), (by decide +kernel), Or.inl rfl⟩⟩

/-- The hypotheses of StartsAndBootCommands can be met. -/
theorem test_startsAndBootCommands_witness :
  (∃ (s : State), s.boot.st = .off ∧ s.boot.resetN = true) ∧
  (∃ (s : State), s.boot.pwrGood = true) ∧
  (∃ (s : State), s.boot.resetN = true ∧ s.boot.pwrGood = true ∧ s.boot.st ≠ .off) ∧
  (∃ (s : State), s.boot.st = .off ∧ s.boot.pwrGood = true) ∧
  (∃ (s : State), s.boot.st = .starting ∧ s.boot.pwrGood = true ∧ s.boot.resetN = true ∧ s.boot.fault = false) ∧
  (∃ (s : State), s.boot.st = .starting ∧ s.boot.pwrGood = true ∧ s.boot.pll = false) ∧
  (∃ (s : State), fromIsland s.boot.st = true ∧ s.boot.st ≠ .faulted ∧ s.boot.pll = true) ∧
  (∃ (s : State), s.boot.st = .starting ∧ s.boot.pwrGood = true ∧ s.boot.pll = true ∧ s.boot.resetN = true) ∧
  (∃ (s : State), s.boot.st = .starting ∧ s.boot.pwrGood = true ∧ s.boot.pll = true ∧ s.boot.resetN = true) ∧
  (∃ (s : State), s.lania.up = true ∧ s.boot.run = none ∧ s.boot.st = .island ∧ 194 ≤ s.boot.imgLen ∧ s.boot.imgLen
    ≤ 67108864) ∧
  (∃ (s : State), s.lania.up = true ∧ s.boot.run = none ∧ s.boot.st = .island ∧ (s.boot.imgLen < 194 ∨ 67108864 <
    s.boot.imgLen)) ∧
  (∃ (s : State), s.lania.up = true ∧ s.boot.run = none ∧ s.boot.st = .loaded) ∧
  (∃ (s : State), s.lania.up = true ∧ s.boot.run = none ∧ s.boot.st = .measured) ∧
  (∃ (l : List (Option CxlDev)) (s : State), s.lania.up = true ∧ s.boot.run = none ∧ s.boot.st = .clocked ∧
    s.boot.tray = true ∧ maskReason s.boot.mask = none) ∧
  (∃ (l : List (Option CxlDev)) (s : State), s.lania.up = true ∧ s.boot.run = none ∧ s.boot.st = .clocked ∧
    s.boot.tray = false) ∧
  (∃ (d : Nat) (r : BootRun) (s : State), s.boot.run = some r ∧ r.cmd = 4 ∧ domainOn s d = true ∧
    s.boot.retried.contains d = false) ∧
  (∃ (d : Nat) (r : BootRun) (s : State), s.boot.run = some r ∧ r.cmd = 4 ∧ domainOn s d = true ∧
    s.boot.retried.contains d = true ∧ stageOf d ≠ 1 ∧ stageOf d ≠ 3 ∧ d ≠ 34 ∧ d ≠ 16 ∧ d ≠ 17) ∧
  (∃ (d : Nat) (r : BootRun) (s : State), s.boot.run = some r ∧ r.cmd = 4 ∧ domainOn s d = true ∧
    s.boot.retried.contains d = true ∧ (stageOf d = 1 ∨ stageOf d = 3) ∧ s.boot.st ≠ .faulted) ∧
  (∃ (s : State), s.lania.up = true ∧ s.boot.run = none ∧ s.boot.st = .powered ∧ csOn s = true ∧ s.pool.retiredPcs
    = [] ∧ (∀ k ∈ List.range 8, pcMask s k = 0)) ∧
  (∃ (s : State), s.lania.up = true ∧ s.boot.run = none ∧ s.boot.st = .trained) ∧
  (∃ (s : State), s.lania.up = true ∧ s.boot.run = none ∧ s.boot.st = .trained ∧ csOn s = true) ∧
  (∃ (s : State), s.lania.up = true ∧ s.boot.run = none ∧ s.boot.st = .verified) ∧
  (∃ (s : State), s.lania.up = true ∧ s.boot.run = none ∧ fromIsland s.boot.st = true ∧ s.boot.mgmtDown = false) ∧
  (∃ (r : BootRun) (s : State), s.boot.run = some r ∧ r.next ≠ .faulted) ∧
  (∃ (r : BootRun) (s : State), s.boot.run = some r ∧ r.next = .faulted ∧ s.boot.st ≠ .faulted) ∧
  (∃ (s : State), s.boot.pwrGood = false ∧ s.boot.resetN = false) ∧
  (∃ (s : State), s.boot.st ≠ .off) ∧
  (∃ (s : State), s.boot.resetN = true ∧ (s.boot.pwrGood = false ∨ s.boot.st = .off)) ∧
  (∃ (ok : Bool) (s : State), (s.boot.st ≠ .starting ∨ s.boot.pwrGood = false)) ∧
  (∃ (ok : Bool) (s : State), s.boot.resetN = false) ∧
  (∃ (s : State), s.boot.fault = true) ∧
  (∃ (s : State), s.boot.pll = true) ∧
  (∃ (ok : Bool) (s : State), s.boot.pll = false) ∧
  (∃ (s : State), fromIsland s.boot.st = false) ∧
  (∃ (s : State), fromIsland s.boot.st = true ∧ s.boot.pll = true) ∧
  (∃ (cxl : List (Option CxlDev)) (pcs dead : List Nat) (fails : List KatFail) (s : State), s.lania.up = false) ∧
  (∃ (cxl : List (Option CxlDev)) (pcs dead : List Nat) (fails : List KatFail) (s : State), s.lania.up = true ∧
    s.boot.run.isSome = true) ∧
  (∃ (s : State), s.lania.up = true ∧ s.boot.run = none ∧ s.boot.st ≠ .island) ∧
  (∃ (s : State), s.lania.up = true ∧ s.boot.run = none ∧ s.boot.st ≠ .loaded) ∧
  (∃ (s : State), s.lania.up = true ∧ s.boot.run = none ∧ s.boot.st ≠ .measured) ∧
  (∃ (cxl : List (Option CxlDev)) (s : State), s.lania.up = true ∧ s.boot.run = none ∧ s.boot.st ≠ .clocked) ∧
  (∃ (pcs : List Nat) (dead : List Nat) (s : State), s.lania.up = true ∧ s.boot.run = none ∧ s.boot.st ≠ .powered) ∧
  (∃ (fails : List KatFail) (s : State), s.lania.up = true ∧ s.boot.run = none ∧ s.boot.st ≠ .trained) ∧
  (∃ (s : State), s.lania.up = true ∧ s.boot.run = none ∧ s.boot.st ≠ .verified) ∧
  (∃ (s : State), s.lania.up = true ∧ s.boot.run = none ∧ fromIsland s.boot.st = false) ∧
  (∃ (cxl : List (Option CxlDev)) (r : Nat) (s : State), s.lania.up = true ∧ s.boot.run = none ∧ s.boot.st =
    .clocked ∧ s.boot.tray = true ∧ maskReason s.boot.mask = some r) ∧
  (∃ (cxl : List (Option CxlDev)) (u s : State), s.lania.up = true ∧ s.boot.run = none ∧ s.boot.st = .clocked ∧
    s.boot.tray = true ∧ maskReason s.boot.mask = none ∧ (u = s.onBoot fun b =>
    { b with powered := b.mask, retried := [], failedDomains := [] })) ∧
  (∃ (pcs dead : List Nat) (s : State), s.lania.up = true ∧ s.boot.run = none ∧ s.boot.st = .powered ∧ csOn s =
    false) ∧
  (∃ (pcs dead : List Nat) (s : State), s.lania.up = true ∧ s.boot.run = none ∧ s.boot.st = .powered ∧ csOn s =
    true ∧ dead ≠ []) ∧
  (∃ (pcs dead : List Nat) (s : State), s.lania.up = true ∧ s.boot.run = none ∧ s.boot.st = .powered) ∧
  (∃ (fails : List KatFail) (s : State), s.lania.up = true ∧ s.boot.run = none ∧ s.boot.st = .trained) ∧
  (∃ (s : State), s.lania.up = true ∧ s.boot.run = none ∧ fromIsland s.boot.st = true) ∧
  (∃ (d : Nat) (s : State), (s.boot.run.all (fun r => r.cmd != 4) = true ∨ domainOn s d = false)) ∧
  (∃ (r : BootRun) (s : State), s.boot.run = some r ∧ r.cmd = 4 ∧ domainOn s 34 = true ∧ s.boot.retried.contains 34
    = true) ∧
  (∃ (d : Nat) (r : BootRun) (s : State), s.boot.run = some r ∧ r.cmd = 4 ∧ domainOn s d = true ∧
    s.boot.retried.contains d = true ∧ (d = 16 ∨ d = 17)) ∧
  (∃ (s : State), s.boot.run = none) ∧
  (∃ (r : BootRun) (s : State), s.boot.run = some r ∧ r.next = .faulted) :=
  ⟨⟨{ hub with boot := { hub.boot with st := .off, pwrGood := false } }, (by decide +kernel),
      (by decide +kernel)⟩,
   ⟨hub, (by decide +kernel)⟩,
   ⟨hub, (by decide +kernel), (by decide +kernel), (by decide +kernel)⟩,
   ⟨{ hub with boot := { hub.boot with st := .off, resetN := false } }, (by decide +kernel), (by decide +kernel)⟩,
   ⟨{ hub with boot := { hub.boot with st := .starting, pll := false } }, (by decide +kernel),
      (by decide +kernel), (by decide +kernel), (by decide +kernel)⟩,
   ⟨{ hub with boot := { hub.boot with st := .starting, pll := false } }, (by decide +kernel),
      (by decide +kernel), (by decide +kernel)⟩,
   ⟨{ hub with boot := { hub.boot with powered := 2 ^ 35 } }, (by decide +kernel), (by decide +kernel),
      (by decide +kernel)⟩,
   ⟨{ hub with boot := { hub.boot with st := .starting, pll := true } }, (by decide +kernel),
      (by decide +kernel), (by decide +kernel), (by decide +kernel)⟩,
   ⟨{ hub with boot := { hub.boot with st := .starting, pll := true, powered := 0 } }, (by decide +kernel),
      (by decide +kernel), (by decide +kernel), (by decide +kernel)⟩,
   ⟨{ hub with boot := { hub.boot with st := .island, imgLen := 194 } }, (by decide +kernel),
      (by decide +kernel), (by decide +kernel), (by decide +kernel), (by decide +kernel)⟩,
   ⟨{ hub with boot := { hub.boot with st := .island, imgLen := 193 } }, (by decide +kernel),
      (by decide +kernel), (by decide +kernel), Or.inl (by decide)⟩,
   ⟨{ hub with boot := { hub.boot with st := .loaded, imgBytes := 194 } }, (by decide +kernel),
      (by decide +kernel), (by decide +kernel)⟩,
   ⟨{ hub with boot := { hub.boot with st := .measured } }, (by decide +kernel), (by decide +kernel),
      (by decide +kernel)⟩,
   ⟨[some { serial := [1], capacity := 2 ^ 40, powerLoss := false }],
      { hub with boot := { hub.boot with st := .clocked, tray := true, powered := 0, mask := 2 ^ 36 - 1 } },
      (by decide +kernel), (by decide +kernel), (by decide +kernel), (by decide +kernel), (by decide +kernel)⟩,
   ⟨[], { hub with boot := { hub.boot with st := .clocked } }, (by decide +kernel), (by decide +kernel),
      (by decide +kernel), (by decide +kernel)⟩,
   ⟨20, { cmd := 4, next := .powered },
      { hub with boot := { hub.boot with st := .clocked, run := some { cmd := 4, next := .powered } } },
      (by decide +kernel), (by decide +kernel), (by decide +kernel), (by decide +kernel)⟩,
   ⟨20, { cmd := 4, next := .powered },
      { hub with boot := { hub.boot with st := .clocked, retried := [20], run := some { cmd := 4, next := .powered } } },
      (by decide +kernel), (by decide +kernel), (by decide +kernel), (by decide +kernel), (by decide +kernel),
      (by decide +kernel), (by decide +kernel), (by decide +kernel), (by decide +kernel)⟩,
   ⟨35, { cmd := 4, next := .powered },
      { hub with boot := { hub.boot with st := .clocked, powered := 2 ^ 35, retried := [35], run := some { cmd := 4, next := .powered } } },
      (by decide +kernel), (by decide +kernel), (by decide +kernel), (by decide +kernel),
      Or.inl (by decide +kernel), (by decide +kernel)⟩,
   ⟨{ hub with boot := { hub.boot with st := .powered }, mem := [(5, 1)] }, (by decide +kernel),
      (by decide +kernel), (by decide +kernel), (by decide +kernel), (by decide +kernel), (by decide +kernel)⟩,
   ⟨{ hub with boot := { hub.boot with st := .trained } }, (by decide +kernel), (by decide +kernel),
      (by decide +kernel)⟩,
   ⟨{ hub with boot := { hub.boot with st := .trained } }, (by decide +kernel), (by decide +kernel),
      (by decide +kernel), (by decide +kernel)⟩,
   ⟨{ hub with boot := { hub.boot with st := .verified } }, (by decide +kernel), (by decide +kernel),
      (by decide +kernel)⟩,
   ⟨hub, (by decide +kernel), (by decide +kernel), (by decide +kernel), (by decide +kernel)⟩,
   ⟨{ cmd := 1, next := .loaded },
      { hub with boot := { hub.boot with st := .island, run := some { cmd := 1, next := .loaded } } },
      (by decide +kernel), (by decide +kernel)⟩,
   ⟨{ cmd := 6, next := .faulted, status := 0, detail := 5 },
      { hub with boot := { hub.boot with st := .trained, powered := 2 ^ 35, run := some { cmd := 6, next := .faulted, status := 0, detail := 5 } } },
      (by decide +kernel), (by decide +kernel), (by decide +kernel)⟩,
   ⟨{ hub with boot := { hub.boot with pwrGood := false, resetN := false, st := .off } }, (by decide +kernel),
      (by decide +kernel)⟩,
   ⟨hub, (by decide +kernel)⟩,
   ⟨{ hub with boot := { hub.boot with pwrGood := false, st := .off } }, (by decide +kernel), Or.inl rfl⟩,
   ⟨true, hub, Or.inl (by decide)⟩,
   ⟨true, { hub with boot := { hub.boot with st := .starting, resetN := false } }, (by decide +kernel)⟩,
   ⟨{ hub with boot := { hub.boot with st := .starting, pll := false, fault := true } }, (by decide +kernel)⟩,
   ⟨{ hub with boot := { hub.boot with st := .starting, pll := true } }, (by decide +kernel)⟩,
   ⟨true, { hub with boot := { hub.boot with st := .starting, pll := false } }, (by decide +kernel)⟩,
   ⟨{ hub with boot := { hub.boot with st := .starting } }, (by decide +kernel)⟩,
   ⟨{ hub with boot := { hub.boot with st := .faulted } }, (by decide +kernel), (by decide +kernel)⟩,
   ⟨[], [], [], [], { hub with lania := { hub.lania with up := false } }, (by decide +kernel)⟩,
   ⟨[], [], [], [], { hub with boot := { hub.boot with run := some { cmd := 1, next := .loaded } } },
      (by decide +kernel), (by decide +kernel)⟩,
   ⟨hub, (by decide +kernel), (by decide +kernel), (by decide +kernel)⟩,
   ⟨hub, (by decide +kernel), (by decide +kernel), (by decide +kernel)⟩,
   ⟨hub, (by decide +kernel), (by decide +kernel), (by decide +kernel)⟩,
   ⟨[], hub, (by decide +kernel), (by decide +kernel), (by decide +kernel)⟩,
   ⟨[], [], hub, (by decide +kernel), (by decide +kernel), (by decide +kernel)⟩,
   ⟨[], hub, (by decide +kernel), (by decide +kernel), (by decide +kernel)⟩,
   ⟨hub, (by decide +kernel), (by decide +kernel), (by decide +kernel)⟩,
   ⟨{ hub with boot := { hub.boot with st := .starting } }, (by decide +kernel), (by decide +kernel),
      (by decide +kernel)⟩,
   ⟨[], 0x12, { hub with boot := { hub.boot with st := .clocked, tray := true, mask := 2 ^ 34 } },
      (by decide +kernel), (by decide +kernel), (by decide +kernel), (by decide +kernel), (by decide +kernel)⟩,
   ⟨[], _, { hub with boot := { hub.boot with st := .clocked, tray := true, mask := 2 ^ 36 - 1 } },
      (by decide +kernel), (by decide +kernel), (by decide +kernel), (by decide +kernel), (by decide +kernel), rfl⟩,
   ⟨[], [], { hub with boot := { hub.boot with st := .powered, powered := 0 } }, (by decide +kernel),
      (by decide +kernel), (by decide +kernel), (by decide +kernel)⟩,
   ⟨[33], [2], { hub with boot := { hub.boot with st := .powered } }, (by decide +kernel), (by decide +kernel),
      (by decide +kernel), (by decide +kernel), (by decide +kernel)⟩,
   ⟨[33], [], { hub with boot := { hub.boot with st := .powered } }, (by decide +kernel), (by decide +kernel),
      (by decide +kernel)⟩,
   ⟨[.te 3 1, .spare 2], { hub with boot := { hub.boot with st := .trained } }, (by decide +kernel),
      (by decide +kernel), (by decide +kernel)⟩,
   ⟨hub, (by decide +kernel), (by decide +kernel), (by decide +kernel)⟩,
   ⟨20, hub, Or.inl rfl⟩,
   ⟨{ cmd := 4, next := .powered },
      { hub with boot := { hub.boot with st := .clocked, retried := [34], run := some { cmd := 4, next := .powered } } },
      (by decide +kernel), (by decide +kernel), (by decide +kernel), (by decide +kernel)⟩,
   ⟨17, { cmd := 4, next := .powered },
      { hub with boot := { hub.boot with st := .clocked, retried := [17], run := some { cmd := 4, next := .powered } } },
      (by decide +kernel), (by decide +kernel), (by decide +kernel), (by decide +kernel), Or.inr rfl⟩,
   ⟨hub, (by decide +kernel)⟩,
   ⟨{ cmd := 6, next := .faulted, status := 0, detail := 5 },
      { hub with boot := { hub.boot with st := .faulted, run := some { cmd := 6, next := .faulted, status := 0, detail := 5 } } },
      (by decide +kernel), (by decide +kernel)⟩⟩

/-- The hypotheses of ResetsAndRetraining can be met. -/
theorem test_resetsAndRetraining_witness :
  (∃ (dict : Bool) (c : Nat) (s : State), (dict = false → s.lania.up = true) ∧ inService s = true ∧ s.boot.rst =
    none ∧ c < 64) ∧
  (∃ (c : Nat) (own : Bool) (s : State), (s.core c).resetting = true ∧ nodeQuiet s (nodeOf s (0x80 + c)) = true ∧
    s.boot.rst = some (.core c own false) ∧ s.boot.rstQueue = []) ∧
  (∃ (dict : Bool) (k : Nat) (s : State), (dict = false → s.lania.up = true) ∧ inService s = true ∧ s.boot.rst =
    none ∧ k < 8 ∧ domainOn s (18 + k) = true) ∧
  (∃ (dict : Bool) (k : Nat) (s : State), (dict = false → s.lania.up = true) ∧ inService s = true ∧ s.boot.rst =
    none ∧ k < 8 ∧ domainOn s (18 + k) = false) ∧
  (∃ (k : Nat) (s : State), s.boot.rst = some (.cluster k) ∧ s.boot.rstQueue = [] ∧ (∀ c ∈ clusterCores k,
    nodeQuiet s (nodeOf s (0x80 + c)) = true)) ∧
  (∃ (dict : Bool) (n : Nat) (s : State), (dict = false → s.lania.up = true) ∧ inService s = true ∧ s.boot.rst =
    none ∧ 1 ≤ n ∧ n ≤ 8 ∧ ((s.plot n).st = .active ∨ (s.plot n).st = .hedged) ∧ coresOf s n ≠ []) ∧
  (∃ (dict : Bool) (n : Nat) (s : State), (dict = false → s.lania.up = true) ∧ inService s = true ∧ s.boot.rst =
    none ∧ 1 ≤ n ∧ n ≤ 8 ∧ ((s.plot n).st = .active ∨ (s.plot n).st = .hedged) ∧ coresOf s n = [] ∧ (∀ kv ∈
    s.coll.groups, kv.2.plot = n → kv.2.seqs.filter CSeq.underWay = [])) ∧
  (∃ (dict : Bool) (s : State), (dict = false → s.lania.up = true) ∧ fromIsland s.boot.st = true ∧ s.boot.rst ≠
    some .device ∧ cached3 s = []) ∧
  (∃ (s : State), s.lania.up = true ∧ fromIsland s.boot.st = true ∧ s.boot.rst ≠ some .device ∧ s.coll.groups = []) ∧
  (∃ (i k : Nat) (s : State), i < 8 ∧ k < 32 ∧ trainedUp s = true ∧ domainOn s (26 + i) = true ∧ firmwareDown s =
    false ∧ s.pool.lostStacks.contains i = false ∧ s.pool.retiredPcs.contains (8 * k + i) = false ∧
    s.boot.retrain.find i = none ∧ retrainDue s i k = true) ∧
  (∃ (i k n : Nat) (again : Bool) (s : State), s.boot.retrain.find i = some (k, n, again) ∧ n < 9) ∧
  (∃ (i k n : Nat) (again : Bool) (s : State), s.boot.retrain.find i = some (k, n, again) ∧ 9 ≤ n) ∧
  (∃ (i k n : Nat) (again : Bool) (s : State), s.boot.retrain.find i = some (k, n, again) ∧ again = false) ∧
  (∃ (i k n : Nat) (again : Bool) (s : State), s.boot.retrain.find i = some (k, n, again) ∧ again = true ∧
    (s.pool.retiredPcs.filter (fun c => c % 8 == i)).length < 2) ∧
  (∃ (i cause : Nat) (s : State), i < 8 ∧ trainedUp s = true ∧ domainOn s (26 + i) = true ∧
    s.pool.lostStacks.contains i = false ∧ s.coll.groups = []) ∧
  (∃ (s : State), s.boot.mgmtSect ≠ none ∧ firmwareDown s = false) ∧
  (∃ (sound : Bool) (s : State), s.boot.mgmtDown = true ∧ s.dict.mbHeld = none ∧ sound = (Config.shake256
    (mgmtBytes s) 64 == s.boot.mgmtDigest)) ∧
  (∃ (c : Nat) (s : State), s.lania.up = false) ∧
  (∃ (c : Nat) (s : State), s.lania.up = true ∧ (inService s = false ∨ s.boot.rst.isSome = true)) ∧
  (∃ (c : Nat) (s : State), s.lania.up = true ∧ 64 ≤ c) ∧
  (∃ (c : Nat) (s : State), s.lania.up = true ∧ 8 ≤ c) ∧
  (∃ (n : Nat) (s : State), s.lania.up = true ∧ (n = 0 ∨ 8 < n ∨ ((s.plot n).st ≠ .active ∧ (s.plot n).st ≠
    .hedged))) ∧
  (∃ (n : Nat) (s : State), s.lania.up = true) ∧
  (∃ (target : Nat) (s : State), s.lania.up = true ∧ (fromIsland s.boot.st = false ∨ target ≠ 0xD5 ∨ s.boot.rst =
    some .device)) ∧
  (∃ (s : State), s.lania.up = true ∧ fromIsland s.boot.st = true ∧ s.boot.rst ≠ some .device) ∧
  (∃ (c : Nat) (s : State), ((s.core c).resetting = false ∨ nodeQuiet s (nodeOf s (0x80 + c)) = false)) ∧
  (∃ (c : Nat) (own failed : Bool) (u s : State), (s.core c).resetting = true ∧ nodeQuiet s (nodeOf s (0x80 + c)) =
    true ∧ s.boot.rst = some (.core c own failed) ∧ u = bump 0xC40F01 1 (coreClear c s)) ∧
  (∃ (c n : Nat) (u s : State), (s.core c).resetting = true ∧ nodeQuiet s (nodeOf s (0x80 + c)) = true ∧ s.boot.rst
    = some (.plot n) ∧ u = bump 0xC40F01 1 (coreClear c s)) ∧
  (∃ (k : Nat) (fails : List KatFail) (s : State), (s.boot.rst ≠ some (.cluster k) ∨ (clusterCores k).any (fun c =>
    !nodeQuiet s (nodeOf s (0x80 + c))) = true)) ∧
  (∃ (k : Nat) (fails : List KatFail) (s : State), s.boot.rst = some (.cluster k) ∧ (∀ c ∈ clusterCores k,
    nodeQuiet s (nodeOf s (0x80 + c)) = true)) ∧
  (∃ (i k : Nat) (s : State), (8 ≤ i ∨ 32 ≤ k ∨ trainedUp s = false ∨ domainOn s (26 + i) = false ∨ firmwareDown s
    = true ∨ s.pool.lostStacks.contains i = true ∨ s.pool.retiredPcs.contains (8 * k + i) = true ∨
    (s.boot.retrain.find i).isSome = true ∨ retrainDue s i k = false)) ∧
  (∃ (i : Nat) (fails : Bool) (s : State), s.boot.retrain.find i = none) ∧
  (∃ (i k n : Nat) (s : State), s.boot.retrain.find i = some (k, n, true)) ∧
  (∃ (i cause : Nat) (s : State), (8 ≤ i ∨ trainedUp s = false ∨ domainOn s (26 + i) = false ∨
    s.pool.lostStacks.contains i = true)) ∧
  (∃ (i cause : Nat) (l : List (Nat × Nat)) (s : State), i < 8 ∧ trainedUp s = true ∧ domainOn s (26 + i) = true ∧
    s.pool.lostStacks.contains i = false ∧ (l = s.coll.groups.flatMap fun kv => (kv.2.seqs.filter fun q => q.exec &&
    q.cause.isNone).map fun q => (kv.1, q.seq))) ∧
  (∃ (s : State), (s.boot.mgmtSect.isNone = true ∨ firmwareDown s = true)) ∧
  (∃ (s : State), s.boot.mgmtDown = false) ∧
  (∃ (op len off : Nat) (last : Bool) (u s : State), s.boot.mgmtDown = true ∧ s.dict.mbHeld = some (op, last, len,
    off) ∧ u = mgmtReturns s) :=
  ⟨⟨false, 3, hub, (by decide +kernel), (by decide +kernel), (by decide +kernel), (by decide +kernel)⟩,
   ⟨3, false,
      { loaded with fur := { cores := [(3, { resetting := true })] }, boot := { hub.boot with rst := some (.core 3 false false), rstDone := false } },
      (by decide +kernel), (by decide +kernel), (by decide +kernel), (by decide +kernel)⟩,
   ⟨false, 2, hub, (by decide +kernel), (by decide +kernel), (by decide +kernel), (by decide +kernel),
      (by decide +kernel)⟩,
   ⟨false, 2, { hub with boot := { hub.boot with powered := 2 ^ 35 } }, (by decide +kernel), (by decide +kernel),
      (by decide +kernel), (by decide +kernel), (by decide +kernel)⟩,
   ⟨2, { hub with boot := { hub.boot with rst := some (.cluster 2) } }, (by decide +kernel), (by decide +kernel),
      (by decide +kernel)⟩,
   ⟨false, 1,
      { plotted { st := .active, rot := 1 } with dict := { hub.dict with od := [(0x200101, 1), (0x911002, 8)] } },
      (by decide +kernel), (by decide +kernel), (by decide +kernel), (by decide +kernel), (by decide +kernel),
      Or.inl rfl, by decide +kernel⟩,
   ⟨false, 1, plotted { st := .active, rot := 1 }, (by decide +kernel), (by decide +kernel), (by decide +kernel),
      (by decide +kernel), (by decide +kernel), Or.inl rfl, (by decide +kernel), (by decide +kernel)⟩,
   ⟨false, hub, (by decide +kernel), (by decide +kernel), (by decide +kernel), (by decide +kernel)⟩,
   ⟨ported, (by decide +kernel), (by decide +kernel), (by decide +kernel), (by decide +kernel)⟩,
   ⟨7, 31, { hub with time := { hub.time with now := 3600000000000 } }, (by decide +kernel), (by decide +kernel),
      (by decide +kernel), (by decide +kernel), (by decide +kernel), (by decide +kernel), (by decide +kernel),
      (by decide +kernel), (by decide +kernel)⟩,
   ⟨3, 5, 8, false, { hub with boot := { hub.boot with retrain := [(3, (5, 8, false))] } }, (by decide +kernel),
      (by decide +kernel)⟩,
   ⟨3, 5, 9, false, { hub with boot := { hub.boot with retrain := [(3, (5, 9, false))] } }, (by decide +kernel),
      (by decide +kernel)⟩,
   ⟨3, 5, 4, false, { hub with boot := { hub.boot with retrain := [(3, (5, 4, false))] } }, (by decide +kernel),
      (by decide +kernel)⟩,
   ⟨3, 5, 4, true, { hub with boot := { hub.boot with retrain := [(3, (5, 4, true))] } }, (by decide +kernel),
      (by decide +kernel), (by decide +kernel)⟩,
   ⟨3, 1, hub, (by decide +kernel), (by decide +kernel), (by decide +kernel), (by decide +kernel),
      (by decide +kernel)⟩,
   ⟨{ managed sessA with boot := { hub.boot with mgmtSect := some (64, 128) } }, (by decide +kernel),
      (by decide +kernel)⟩,
   ⟨_, { hub with boot := { hub.boot with mgmtDown := true, mgmtSince := 5 } }, (by decide +kernel),
      (by decide +kernel), rfl⟩,
   ⟨3, { hub with lania := { hub.lania with up := false } }, (by decide +kernel)⟩,
   ⟨3, { hub with boot := { hub.boot with st := .verified } }, (by decide +kernel), Or.inl (by decide +kernel)⟩,
   ⟨64, hub, (by decide +kernel), (by decide +kernel)⟩,
   ⟨8, hub, (by decide +kernel), (by decide +kernel)⟩,
   ⟨0, hub, (by decide +kernel), Or.inl rfl⟩,
   ⟨1, plotted { st := .active, rot := 1 }, (by decide +kernel)⟩,
   ⟨0xD4, hub, (by decide +kernel), Or.inr (Or.inl (by decide))⟩,
   ⟨hub, (by decide +kernel), (by decide +kernel), (by decide +kernel)⟩,
   ⟨3, hub, Or.inl rfl⟩,
   ⟨3, true, true, _,
      { loaded with fur := { cores := [(3, { resetting := true })] }, boot := { hub.boot with rst := some (.core 3 true true), rstQueue := [(4, false)] } },
      (by decide +kernel), (by decide +kernel), (by decide +kernel), rfl⟩,
   ⟨3, 1, _,
      { loaded with fur := { cores := [(3, { resetting := true })] }, boot := { hub.boot with rst := some (.plot 1) } },
      (by decide +kernel), (by decide +kernel), (by decide +kernel), rfl⟩,
   ⟨2, [], hub, Or.inl (by decide)⟩,
   ⟨2, [.te 17 1], { hub with boot := { hub.boot with rst := some (.cluster 2) } }, (by decide +kernel),
      (by decide +kernel)⟩,
   ⟨8, 31, hub, Or.inl (by decide)⟩,
   ⟨3, true, hub, (by decide +kernel)⟩,
   ⟨3, 5, 4, { hub with boot := { hub.boot with retrain := [(3, (5, 4, true))] } }, (by decide +kernel)⟩,
   ⟨8, 1, hub, Or.inl (by decide)⟩,
   ⟨3, 1, _, hub, (by decide +kernel), (by decide +kernel), (by decide +kernel), (by decide +kernel), rfl⟩,
   ⟨hub, Or.inl rfl⟩,
   ⟨hub, (by decide +kernel)⟩,
   ⟨1, 0, 0, false, _,
      { hub with boot := { hub.boot with mgmtDown := true, mgmtSince := 5 }, dict := { hub.dict with mbHeld := some (1, false, 0, 0) } },
      (by decide +kernel), (by decide +kernel), rfl⟩⟩

/-- The hypotheses of PowerTemperatureAndTime can be met. -/
theorem test_powerTemperatureAndTime_witness :
  (∃ (s : State), s.boot.capAlert = false ∧ capsAct s = true) ∧
  (∃ (s : State), s.boot.capAlert = false ∧ capsAct s = false) ∧
  (∃ (s : State), s.boot.capAlert = true ∧ capsAct s = true) ∧
  (∃ (l : List Nat) (island n : Nat) (s : State), s.power.raiseTo = none ∧ (n = ((List.range 36).map fun d => if
    domainOn s d then l.getD d 0 % 65536 else 0).sum + island)) ∧
  (∃ (pair : Nat × Nat) (s : State), s.power.planSince ≠ none ∧ firmwareDown s = false ∧ capsAct s = true ∧
    s.power.shed = [] ∧ pair = choosePair ((effectiveCap s : Int) - ((s.power.measured - clusterPower s : Nat) :
    Int)) ∧ pairBefore pair (s.power.div, s.power.duty) = false ∧ s.power.measured - clusterPower s + 40 ≤
    effectiveCap s) ∧
  (∃ (pair : Nat × Nat) (s : State), s.power.planSince ≠ none ∧ firmwareDown s = false ∧ capsAct s = true ∧
    s.power.shed = [] ∧ pair = choosePair ((effectiveCap s : Int) - ((s.power.measured - clusterPower s : Nat) :
    Int)) ∧ pairBefore pair (s.power.div, s.power.duty) = true ∧ ¬ (s.power.div = 8 ∧ s.power.duty = 1)) ∧
  (∃ (c : Nat) (s : State), s.power.thermalCap = some c ∧ throttleTemp s < (hottest s).2 ∧ s.power.thermalStep +
    10000000 ≤ s.now) ∧
  (∃ (c : Nat) (s : State), s.power.thermalCap = some c ∧ (hottest s).2 + 200 ≤ throttleTemp s ∧
    s.power.thermalStep + 100000000 ≤ s.now ∧ c + 50 < cfg 0xB10001 2000 s) ∧
  (∃ (k d : Nat) (s : State), s.power.hotSince.find k = some d ∧ d + 20000 ≤ s.now ∧ s.boot.st ≠ .faulted) ∧
  (∃ (k : Nat) (s : State), s.power.testing.contains k = true ∧ (∀ c ∈ clusterCores k, retireMask s c = 0)) ∧
  (∃ (k d : Nat) (s : State), s.power.idleSince.find k = some d ∧ inService s = true ∧ clusterUsed s k = false ∧
    domainOn s (18 + k) = true ∧ d + 1000000 ≤ s.now) ∧
  (∃ (p : Nat) (s : State), p = upstreamPort s ∧ p < 128 ∧ timeSource s = false ∧ (∀ d ∈ s.time.last, d + 1000000 ≤
    s.now) ∧ s.time.exch = none) ∧
  (∃ (q d : Nat) (b : List Byte) (f : Int) (s : State), s.time.exch = some (q, d) ∧ fieldAt b 4 4 = q ∧ fieldAt b 0
    4 % 16 = 2 ∧ f = (((fieldAt b 8 8 : Nat) : Int) - (d : Int) - ((s.now : Int) - ((fieldAt b 16 8 : Nat) : Int)))
    / 2 ∧ f.natAbs ≤ 10) ∧
  (∃ (q d : Nat) (b : List Byte) (f : Int) (s : State), s.time.exch = some (q, d) ∧ fieldAt b 4 4 = q ∧ fieldAt b 0
    4 % 16 = 2 ∧ f = (((fieldAt b 8 8 : Nat) : Int) - (d : Int) - ((s.now : Int) - ((fieldAt b 16 8 : Nat) : Int)))
    / 2 ∧ 10000 < f) ∧
  (∃ (v : U64) (s : State), timeSource s = true ∧ s.now ≤ v.toNat) ∧
  (∃ (s : State), s.boot.tray = true ∧ inService s = true) ∧
  (∃ (s : State), s.boot.tray = true ∧ inService s = false) ∧
  (∃ (s : State), inService s = true) ∧
  (∃ (rail mv us : Nat) (s : State), s.boot.pwrGood = true ∧ 10 < us ∧ railOfStacks rail = false) ∧
  (∃ (rail mv us : Nat) (u s : State), s.boot.pwrGood = true ∧ 10 < us ∧ railOfStacks rail = true ∧ (u = forAll
    (List.range 8) (fun k => stackLost k 0) (raise 0xB10C [rail, mv, us] (s.onBoot fun b =>
    { b with rails := b.rails.set rail mv })))) ∧
  (∃ (s : State), s.boot.capAlert = true) ∧
  (∃ (s : State), s.boot.capAlert = false) ∧
  (∃ (s : State), s.boot.capAlert = true ∧ capsAct s = false) ∧
  (∃ (l : List Nat) (island n : Nat) (s : State), (n = ((List.range 36).map fun d => if domainOn s d then l.getD d
    0 % 65536 else 0).sum + island)) ∧
  (∃ (s : State), (s.power.planSince.isNone = true ∨ firmwareDown s = true ∨ capsAct s = false)) ∧
  (∃ (cap draw : Nat) (u v s : State), s.power.planSince ≠ none ∧ firmwareDown s = false ∧ capsAct s = true ∧
    s.power.shed = [] ∧ cap = effectiveCap s ∧ draw = s.power.measured - clusterPower s + 40 ∧ cap < draw ∧
    pairBefore (8, 1) (s.power.div, s.power.duty) = false ∧ (u = setThrottle 8 1 (s.onPower fun x =>
    { x with planSince := none, clampAlert := false, raiseTo := none })) ∧ v = shedDown cap ((List.range 16).map
    (shedAt u)) draw u) ∧
  (∃ (cap draw : Nat) (pair : Nat × Nat) (up : Bool) (u v w s : State), s.power.planSince ≠ none ∧ firmwareDown s =
    false ∧ capsAct s = true ∧ s.power.shed ≠ [] ∧ cap = effectiveCap s ∧ draw = s.power.measured - clusterPower s +
    40 ∧ draw ≤ cap ∧ pair = choosePair ((cap : Int) - ((s.power.measured - clusterPower s : Nat) : Int)) ∧ up =
    pairBefore pair (s.power.div, s.power.duty) ∧ (u = s.onPower fun x =>
    { x with planSince := none, clampAlert := false, raiseTo := none }) ∧ v = wakeUp cap s.power.shed.reverse draw
    (if up then u.onPower (fun x => { x with raiseTo := some pair }) else setThrottle pair.1 pair.2 u) ∧ w = (if
    v.power.shed.isEmpty then raise 0xB103 [cap, v.power.div, v.power.duty] v else v)) ∧
  (∃ (s : State), (s.power.thermalCap = none ∨ (throttleTemp s < (hottest s).2 ∧ s.now < s.power.thermalStep +
    10000000) ∨ ((hottest s).2 ≤ throttleTemp s ∧ throttleTemp s < (hottest s).2 + 200) ∨ ((hottest s).2 ≤
    throttleTemp s ∧ s.now < s.power.thermalStep + 100000000))) ∧
  (∃ (c : Nat) (s : State), s.power.thermalCap = some c ∧ (hottest s).2 + 200 ≤ throttleTemp s ∧
    s.power.thermalStep + 100000000 ≤ s.now ∧ cfg 0xB10001 2000 s ≤ c + 50) ∧
  (∃ (k : Nat) (s : State), (s.power.hotSince.find k = none ∨ s.now < (s.power.hotSince.find k).getD 0 + 20000 ∨
    s.boot.st = .faulted)) ∧
  (∃ (k : Nat) (fails : List KatFail) (s : State), s.power.testing.contains k = false) ∧
  (∃ (k : Nat) (fails : List KatFail) (u s : State), s.power.testing.contains k = true ∧ (u = (s.onBoot fun b =>
    { b with powered := b.powered ||| 2 ^ (18 + k) }).onPower fun x =>
    { x with testing := x.testing.filter fun j => j != k })) ∧
  (∃ (k : Nat) (s : State), (s.power.idleSince.find k = none ∨ inService s = false ∨ clusterUsed s k = true ∨
    domainOn s (18 + k) = false ∨ s.now < (s.power.idleSince.find k).getD 0 + 1000000)) ∧
  (∃ (s : State), (timeSource s = true ∨ 128 ≤ upstreamPort s ∨ (s.time.last.isSome = true ∧ s.now <
    s.time.last.getD 0 + 1000000))) ∧
  (∃ (p : Nat) (u s : State), p = upstreamPort s ∧ p < 128 ∧ timeSource s = false ∧ (∀ d ∈ s.time.last, d + 1000000
    ≤ s.now) ∧ (u = timeStart (s.onTime fun x => { x with last := some x.now }))) ∧
  (∃ (b : List Byte) (s : State), (s.time.exch = none ∨ s.time.exch.map Prod.fst ≠ some (fieldAt b 4 4) ∨ fieldAt b
    0 4 % 16 ≠ 2)) ∧
  (∃ (q d : Nat) (b : List Byte) (f : Int) (s : State), s.time.exch = some (q, d) ∧ fieldAt b 4 4 = q ∧ fieldAt b 0
    4 % 16 = 2 ∧ f = (((fieldAt b 8 8 : Nat) : Int) - (d : Int) - ((s.now : Int) - ((fieldAt b 16 8 : Nat) : Int)))
    / 2) ∧
  (∃ (v : U64) (s : State), (timeSource s = false ∨ v.toNat < s.now)) ∧
  (∃ (s : State), s.boot.tray = false) ∧
  (∃ (s : State), inService s = false) ∧
  (∃ (rail mv us : Nat) (s : State), (s.boot.pwrGood = false ∨ us ≤ 10)) :=
  ⟨⟨hub, (by decide +kernel), (by decide +kernel)⟩,
   ⟨{ hub with boot := { hub.boot with st := .island } }, (by decide +kernel), (by decide +kernel)⟩,
   ⟨{ hub with boot := { hub.boot with capAlert := true } }, (by decide +kernel), (by decide +kernel)⟩,
   ⟨[70000, 2000], 100, _, hub, (by decide +kernel), rfl⟩,
   ⟨_,
      { hub with power := { hub.power with planSince := some 5, measured := 1900, domain := [(18, 300)], paused := true } },
      (by decide +kernel), (by decide +kernel), (by decide +kernel), (by decide +kernel), rfl, (by decide +kernel),
      (by decide +kernel)⟩,
   ⟨_, { hub with power := { hub.power with planSince := some 5, div := 4, duty := 16 } }, (by decide +kernel),
      (by decide +kernel), (by decide +kernel), (by decide +kernel), rfl, (by decide +kernel), (by decide +kernel)⟩,
   ⟨1500, { hub with power := { hub.power with thermalCap := some 1500, temps := [(3, 10001)] } },
      (by decide +kernel), (by decide +kernel), (by decide +kernel)⟩,
   ⟨1500, { hub with power := { hub.power with thermalCap := some 1500 } }, (by decide +kernel),
      (by decide +kernel), (by decide +kernel), (by decide +kernel)⟩,
   ⟨3, 5,
      { hub with boot := { hub.boot with powered := 2 ^ 35 }, power := { hub.power with hotSince := [(3, 5)] } },
      (by decide +kernel), (by decide +kernel), (by decide +kernel)⟩,
   ⟨2, { hub with boot := { hub.boot with powered := 2 ^ 35 }, power := { hub.power with testing := [2] } },
      (by decide +kernel), (by decide +kernel)⟩,
   ⟨2, 5,
      { hub with power := { hub.power with idleSince := [(2, 5)] }, dict := { hub.dict with od := [(0x200101, 1)] } },
      (by decide +kernel), (by decide +kernel), (by decide +kernel), (by decide +kernel), (by decide +kernel)⟩,
   ⟨3, { hub with dict := { hub.dict with od := wide ++ [(0xB12002, 3)] } }, (by decide +kernel),
      (by decide +kernel), (by decide +kernel), (by decide +kernel), (by decide +kernel)⟩,
   ⟨1, 9999999000, natLe 4 2 ++ natLe 4 1 ++ natLe 8 9999999505 ++ natLe 8 9999999505, _,
      { hub with time := { hub.time with exch := some (1, 9999999000), good := 7 } }, (by decide +kernel),
      (by decide +kernel), (by decide +kernel), rfl, (by decide +kernel)⟩,
   ⟨1, 9999999000, natLe 4 2 ++ natLe 4 1 ++ natLe 8 10000099505 ++ natLe 8 10000099505, _,
      { hub with time := { hub.time with exch := some (1, 9999999000), good := 7 } }, (by decide +kernel),
      (by decide +kernel), (by decide +kernel), rfl, (by decide +kernel)⟩,
   ⟨20000000000, { hub with dict := { hub.dict with od := wide ++ [(0xB12001, 1)] } }, (by decide +kernel),
      (by decide +kernel)⟩,
   ⟨{ hub with boot := { hub.boot with tray := true } }, (by decide +kernel), (by decide +kernel)⟩,
   ⟨{ hub with boot := { hub.boot with tray := true, st := .trained } }, (by decide +kernel),
      (by decide +kernel)⟩,
   ⟨prt { st := .dormant } [], (by decide +kernel)⟩,
   ⟨2, 700, 11, hub, (by decide +kernel), (by decide +kernel), (by decide +kernel)⟩,
   ⟨3, 700, 11, _, hub, (by decide +kernel), (by decide +kernel), (by decide +kernel), rfl⟩,
   ⟨{ hub with boot := { hub.boot with capAlert := true } }, (by decide +kernel)⟩,
   ⟨hub, (by decide +kernel)⟩,
   ⟨{ hub with boot := { hub.boot with capAlert := true, st := .island } }, (by decide +kernel),
      (by decide +kernel)⟩,
   ⟨[70000, 2000], 100, _, { hub with power := { hub.power with raiseTo := some (2, 16) } }, rfl⟩,
   ⟨hub, Or.inl rfl⟩,
   ⟨_, _, _, _,
      { hub with power := { hub.power with planSince := some 5, measured := 2500, domain := [(18, 300)], div := 4, duty := 16 } },
      (by decide +kernel), (by decide +kernel), (by decide +kernel), (by decide +kernel), rfl, rfl,
      (by decide +kernel), (by decide +kernel), rfl, rfl⟩,
   ⟨_, _, _, _, _, _, _,
      { hub with power := { hub.power with planSince := some 5, measured := 1000, domain := [(18, 300)], div := 4, duty := 16, shed := [(3, 20)] } },
      by decide +kernel, (by decide +kernel), (by decide +kernel), by decide +kernel, rfl, rfl, (by decide +kernel),
      rfl, rfl, rfl, rfl, rfl⟩,
   ⟨hub, Or.inl rfl⟩,
   ⟨1950, { hub with power := { hub.power with thermalCap := some 1950 } }, (by decide +kernel),
      (by decide +kernel), (by decide +kernel), (by decide +kernel)⟩,
   ⟨3, hub, Or.inl (by decide +kernel)⟩,
   ⟨2, [], hub, (by decide +kernel)⟩,
   ⟨2, [.te 17 1], _,
      { hub with boot := { hub.boot with powered := 2 ^ 35 }, power := { hub.power with testing := [2] } },
      (by decide +kernel), rfl⟩,
   ⟨2, hub, Or.inl (by decide +kernel)⟩,
   ⟨hub, Or.inr (Or.inl (by decide +kernel))⟩,
   ⟨_, _,
      { hub with dict := { hub.dict with od := wide ++ [(0xB12002, 3)] }, time := { hub.time with exch := some (7, 5), missed := 1 } },
      rfl, (by decide +kernel), (by decide +kernel), (by decide +kernel), rfl⟩,
   ⟨[], hub, Or.inl rfl⟩,
   ⟨1, 9999999000, natLe 4 2 ++ natLe 4 1 ++ natLe 8 9999999555 ++ natLe 8 9999999555, _,
      { hub with time := { hub.time with exch := some (1, 9999999000), good := 7, locked := true } },
      (by decide +kernel), (by decide +kernel), (by decide +kernel), rfl⟩,
   ⟨20000000000, hub, Or.inl (by decide +kernel)⟩,
   ⟨hub, (by decide +kernel)⟩,
   ⟨{ hub with boot := { hub.boot with st := .trained } }, (by decide +kernel)⟩,
   ⟨2, 700, 10, hub, Or.inr (by decide)⟩⟩

end
end

