-- ==== Sys2Proof/Proofs/LateReply.lean ====
section
/-! SUPPORT. Late replies (R48): what counters show after a counter is bumped, what a reply command runs, and what an arriving reply
does where the port has no forward record for it. -/

namespace Sys2Proof

open Machine

@[simp] theorem counter_bump_self (k n : Nat) (s : State) : counter (bump k n s) k = counter s k + n :=
  FMap.getD_set_self _ _ _ _

theorem counter_bump_ne {j k : Nat} (n : Nat) (s : State) (h : j ≠ k) : counter (bump k n s) j = counter s j :=
  FMap.getD_set_ne _ _ _ _ _ h

@[simp] theorem bump_records (k n : Nat) (s : State) (p : Nat) : (bump k n s).records p = s.records p := rfl

/-- RD_DATA, ATOM_DATA, ACK and SOW_ACK run one operation, the arrival of their reply on their port (R47). -/
theorem exec_of_replyOf {i : Instr} {p : Nat} {r : Reply} (h : replyOf i = some (p, r)) (s : State) :
    exec i s = .next (settle (replyArrives p r s)) := by
  cases i with
  | rdData | atomData | ack => cases h; rfl
  | _ => cases h

/-- A reply whose record is gone adds its cells to the port's count and one to LateReplyDiscards, and does nothing else (R48). -/
theorem replyArrives_of_no_record {p : Nat} {r : Reply} {s : State} (hp : carriesReplies s p = true)
    (hf : ((s.records p).find? fun f => f.is r.dst r.tag && f.req.h.dst == r.src) = none) :
    replyArrives p r s = bump 0xC40101 1 (bump (0xC41200 + p + 1) (replyCells r) s) := by
  simp [replyArrives, hp, hf]

/-- The cell counters of the ports lie above LateReplyDiscards, so counting a reply's cells leaves it as it was. -/
theorem lateReplies_bump_portCells (p n : Nat) (s : State) :
    counter (bump (0xC41200 + p + 1) n s) 0xC40101 = counter s 0xC40101 :=
  counter_bump_ne n s (by omega)

/-- Settles O15: of the two counters that an unrecorded reply bumps, only the second is the count of late replies. -/
theorem lateReplyIsDiscarded : Obligations.LateReplyIsDiscarded := by
  intro i p r s hi hp hf
  refine ⟨replyArrives p r s, exec_of_replyOf hi s, ?_⟩
  rw [replyArrives_of_no_record hp hf]
  refine ⟨?count, rfl, (bump_frame _ _ s).trans (bump_frame _ _ _)⟩
  case count => rw [counter_bump_self, lateReplies_bump_portCells]

end Sys2Proof
end

section
/-! SUPPORT. Tilth tests (R295, R296): that an event stays recorded when others follow it, what retiring an engine and counting a
transient do, what placing a test and going on to the next one leave alone, and what a test that has ended does. -/

namespace Sys2Proof

open Machine

/-! Events (R382): raising one changes the log and what is sent, and the events just before it stay in the log. -/

section
variable (code : Nat) (pl : List Nat) (s : State)

@[simp] theorem raise_sw : (raise code pl s).sw = s.sw := raise_frame code pl s .sw (by decide)
@[simp] theorem raise_fur : (raise code pl s).fur = s.fur := raise_frame code pl s .fur (by decide)
@[simp] theorem raise_chk : (raise code pl s).chk = s.chk := raise_frame code pl s .chk (by decide)
@[simp] theorem raise_boot : (raise code pl s).boot = s.boot := raise_frame code pl s .boot (by decide)
@[simp] theorem raise_time : (raise code pl s).time = s.time := raise_frame code pl s .time (by decide)
@[simp] theorem raise_counters : (raise code pl s).dict.counters = s.dict.counters :=
  raise_frame code pl s .counters (by decide)

theorem now_raise : (raise code pl s).now = s.now := congrArg Time.now (raise_time code pl s)

theorem counter_raise (k : Nat) : counter (raise code pl s) k = counter s k := by
  rw [counter, raise_counters, counter]

theorem core_raise (c : Nat) : (raise code pl s).core c = s.core c := by rw [State.core, raise_fur, State.core]

end

theorem now_bump (k n : Nat) (s : State) : (bump k n s).now = s.now := rfl

theorem core_bump (k n : Nat) (s : State) (c : Nat) : (bump k n s).core c = s.core c := rfl

/-- An entry among the newest `n` of the log is among the newest `n + 1` once another is appended. -/
theorem mem_take_logAppend {n time code : Nat} {pl : List Nat} {s : State} {e : LogEntry} (hn : n < 65536)
    (he : e ∈ s.dict.log.take n) : e ∈ (logAppend time code pl s).dict.log.take (n + 1) := by
  simp [logAppend, List.take_take, Nat.min_eq_left (show n ≤ 65535 by omega), he]

/-- LOG_LOSS is at most one entry more (R383). -/
theorem mem_take_lossEvent {n : Nat} {s : State} {e : LogEntry} (hn : n < 65536) (he : e ∈ s.dict.log.take n) :
    e ∈ (lossEvent s).dict.log.take (n + 1) := by
  have stays : e ∈ s.dict.log.take (n + 1) := List.take_subset_take_left _ (Nat.le_succ n) he
  unfold lossEvent
  split_ifs
  · exact stays
  · exact mem_take_logAppend hn he
  · exact stays

/-- An event is recorded in `t` at the DeviceTime of `s`: held, or among the newest `n` entries of the log, where
later events cannot drop it at once. -/
def LoggedWithin (n code : Nat) (pl : List Nat) (s t : State) : Prop :=
  if s.boot.mgmtDown then (s.now, code, pl) ∈ t.dict.holding ∨ 1024 ≤ t.dict.holding.length
  else ∃ e ∈ t.dict.log.take n, e.code = code ∧ e.payload = pl ∧ e.time = s.now

namespace LoggedWithin

variable {n code : Nat} {pl : List Nat} {s t u : State}

theorem logged (h : LoggedWithin n code pl s t) : Logged code pl s t := by
  unfold LoggedWithin at h
  unfold Logged
  split at h <;> rename_i hm
  · rwa [if_pos hm]
  · obtain ⟨e, he, hc⟩ := h
    rw [if_neg hm]
    exact ⟨e, List.mem_of_mem_take he, hc⟩

/-- Only the log and the held events of the later state matter. -/
theorem of_log_eq (h : LoggedWithin n code pl s t) (hl : u.dict.log = t.dict.log)
    (hh : u.dict.holding = t.dict.holding) : LoggedWithin n code pl s u := by
  unfold LoggedWithin at h ⊢
  rwa [hl, hh]

/-- An event that is raised is recorded, LOG_LOSS behind it at most. -/
theorem of_raise (hb : t.boot = s.boot) (ht : t.time = s.time) : LoggedWithin 2 code pl s (raise code pl t) := by
  have hnow : t.now = s.now := congrArg Time.now ht
  unfold LoggedWithin raise
  rw [hb]
  split
  · simp only [State.onDict_dict, hnow]
    split
    · exact Or.inl (by simp)
    · exact Or.inr (Nat.not_lt.mp ‹_›)
  · refine ⟨{ seq := t.dict.logSeq + 1, time := t.now, code, payload := pl }, ?_, rfl, rfl, hnow⟩
    exact mem_take_lossEvent (n := 1) (by decide) (by simp [logAppend])

/-- A recorded event stays recorded when another is raised. -/
theorem raise (h : LoggedWithin n code pl s t) (hb : t.boot = s.boot) (hn : n + 2 ≤ 65536) (code' : Nat) (pl' : List Nat) :
    LoggedWithin (n + 2) code pl s (raise code' pl' t) := by
  unfold LoggedWithin at h ⊢
  unfold Machine.raise
  rw [hb]
  split at h
  · rename_i hm
    rw [if_pos hm, if_pos hm]
    simp only [State.onDict_dict]
    split
    · exact h.imp (List.mem_append_left _) fun hl => hl.trans (by simp)
    · exact h
  · rename_i hm
    rw [if_neg hm, if_neg hm]
    obtain ⟨e, he, hc⟩ := h
    exact ⟨e, mem_take_lossEvent (by omega) (mem_take_logAppend (by omega) he), hc⟩

end LoggedWithin

/-! The cores: an update of one, and the engines a core has left (R219). -/

theorem core_onCore_self (c : Nat) (f : Core → Core) (s : State) : (s.onCore c f).core c = f (s.core c) :=
  FMap.getD_set_self _ _ _ _

theorem core_onCore_ne {c d : Nat} (f : Core → Core) (s : State) (h : d ≠ c) : (s.onCore c f).core d = s.core d :=
  FMap.getD_set_ne _ _ _ _ _ h

/-- The tensor engines a core has lost, and whether its VE, its ME and its sequencer work. -/
def enginesOf (k : Core) : Nat × Bool × Bool × Bool := (k.teRetired, k.ve, k.me, k.seqOk)

/-- A core without its engine `e` (0-3 TE, 4 VE, 5 ME, 6 sequencer). -/
def withoutEngine (e : Nat) (k : Core) : Core :=
  if e < 4 then { k with teRetired := k.teRetired ||| 2 ^ e } else if e = 4 then { k with ve := false }
  else if e = 5 then { k with me := false } else { k with seqOk := false }

theorem enginesOf_withoutEngine (e : Nat) (k : Core) :
    enginesOf (withoutEngine e k) = (if e < 4 then k.teRetired ||| 2 ^ e else k.teRetired, if e = 4 then false else k.ve,
      if e = 5 then false else k.me, if e < 6 then k.seqOk else false) := by
  unfold withoutEngine enginesOf
  split
  · have h4 : e ≠ 4 := by omega
    have h5 : e ≠ 5 := by omega
    have h6 : e < 6 := by omega
    simp [h4, h5, h6]
  · split
    · simp_all
    · split
      · simp_all
      · have h6 : ¬ e < 6 := by omega
        simp_all

/-! Retiring an engine (R219, R287), apart from the core's reset that may follow (R220). -/

/-- The engine is lost, counted and reported. -/
def engineLost (c e cause : Nat) (s : State) : State :=
  raise 0x7103 [c, e, cause] (bump 0xC40807 1 (s.onCore c (withoutEngine e)))

theorem retireEngine_eq (c e cause : Nat) (s : State) :
    retireEngine c e cause s = engineLost c e cause s ∨ retireEngine c e cause s = orderReset c (engineLost c e cause s) := by
  unfold retireEngine
  dsimp only
  split
  · exact Or.inr rfl
  · exact Or.inl rfl

section
variable (c : Nat) (s : State)

theorem orderReset_dict : (orderReset c s).dict = s.dict := by unfold orderReset; split <;> rfl
theorem orderReset_fur : (orderReset c s).fur = s.fur := by unfold orderReset; split <;> rfl
theorem orderReset_chk : (orderReset c s).chk = s.chk := by unfold orderReset; split <;> rfl

end

section
variable (c e cause : Nat) (s : State)

theorem retireEngine_dict : (retireEngine c e cause s).dict = (engineLost c e cause s).dict := by
  obtain h | h := retireEngine_eq c e cause s <;> rw [h]
  exact orderReset_dict c _

theorem retireEngine_core : (retireEngine c e cause s).core c = withoutEngine e (s.core c) := by
  have hl : (engineLost c e cause s).core c = withoutEngine e (s.core c) := by
    simpa [engineLost, State.core] using core_onCore_self c (withoutEngine e) s
  obtain h | h := retireEngine_eq c e cause s <;> rw [h]
  · exact hl
  · rw [State.core, orderReset_fur]
    exact hl

theorem retireEngine_chk : (retireEngine c e cause s).chk = s.chk := by
  have hl : (engineLost c e cause s).chk = s.chk := by simp [engineLost, State.onCore]
  obtain h | h := retireEngine_eq c e cause s <;> rw [h]
  · exact hl
  · rw [orderReset_chk, hl]

/-- Of the counters, only that of lost engines moves. -/
theorem counter_retireEngine {k : Nat} (hk : k ≠ 0xC40807) : counter (retireEngine c e cause s) k = counter s k := by
  have hl : counter (engineLost c e cause s) k = counter (bump 0xC40807 1 (s.onCore c (withoutEngine e))) k := by
    simp [engineLost, counter]
  rw [counter, retireEngine_dict]
  exact hl.trans (counter_bump_ne 1 _ hk)

end

/-- The loss is recorded with the engine and the cause. -/
theorem retireEngine_logged (c e cause : Nat) {s t : State} (hb : t.boot = s.boot) (ht : t.time = s.time) :
    LoggedWithin 2 0x7103 [c, e, cause] s (retireEngine c e cause t) := by
  have h : LoggedWithin 2 0x7103 [c, e, cause] s (engineLost c e cause t) := .of_raise hb ht
  have hd := retireEngine_dict c e cause t
  exact h.of_log_eq (by rw [hd]) (by rw [hd])

/-- An event recorded before stays recorded. -/
theorem LoggedWithin.retireEngine {n code : Nat} {pl : List Nat} {s t : State} (h : LoggedWithin n code pl s t)
    (hb : t.boot = s.boot) (hn : n + 2 ≤ 65536) (c e cause : Nat) :
    LoggedWithin (n + 2) code pl s (retireEngine c e cause t) := by
  have hu : LoggedWithin n code pl s (bump 0xC40807 1 (t.onCore c (withoutEngine e))) := h.of_log_eq rfl rfl
  have hd := retireEngine_dict c e cause t
  exact (hu.raise hb hn _ _).of_log_eq (by rw [hd]; rfl) (by rw [hd]; rfl)

/-! Transients of an engine in its day of device time (R290). -/

/-- One transient more of an engine, in a day that may be new. -/
def transientCounted (c e : Nat) (s : State) : State :=
  let day := s.now / 86400000000000
  let u := s.onChk fun k => if k.day = day then k else { k with day, transients := [] }
  u.onChk fun k => { k with transients := k.transients.set (8 * c + e) (u.chk.transients.getD (8 * c + e) 0 + 1) }

/-- The engine is retired once its transients of the day pass the limit. -/
theorem countTransient_eq (c e : Nat) (s : State) :
    countTransient c e s = transientCounted c e s ∨ countTransient c e s = retireEngine c e 4 (transientCounted c e s) := by
  unfold countTransient
  dsimp only
  split
  · exact Or.inr rfl
  · exact Or.inl rfl

section
variable (c e : Nat) (s : State)

theorem transientCounted_day : (transientCounted c e s).chk.day = s.now / 86400000000000 := by
  simp only [transientCounted, State.onChk_chk]
  split
  · assumption
  · rfl

theorem transientCounted_transients : (transientCounted c e s).chk.transients.getD (8 * c + e) 0 =
    (if s.chk.day = s.now / 86400000000000 then s.chk.transients.getD (8 * c + e) 0 else 0) + 1 := by
  simp only [transientCounted, State.onChk_chk, FMap.getD_set_self]
  split <;> rfl

theorem countTransient_chk : (countTransient c e s).chk = (transientCounted c e s).chk := by
  obtain h | h := countTransient_eq c e s <;> rw [h]
  exact retireEngine_chk c e 4 _

theorem counter_countTransient {k : Nat} (hk : k ≠ 0xC40807) : counter (countTransient c e s) k = counter s k := by
  obtain h | h := countTransient_eq c e s <;> rw [h]
  · rfl
  · exact counter_retireEngine c e 4 _ hk

end

/-- An event recorded before stays recorded. -/
theorem LoggedWithin.countTransient {code : Nat} {pl : List Nat} {s t : State} (h : LoggedWithin 2 code pl s t)
    (hb : t.boot = s.boot) (c e : Nat) : Logged code pl s (countTransient c e t) := by
  have hu : LoggedWithin 2 code pl s (transientCounted c e t) := h.of_log_eq rfl rfl
  obtain hc | hc := countTransient_eq c e t <;> rw [hc]
  · exact hu.logged
  · exact (hu.retireEngine hb (by decide) c e 4).logged

/-! Reporting a tile (R86). -/

section
variable (tile : Nat) (s : State)

theorem tileSuspect_suspects : ((tileSuspect tile s).sw.suspectTiles.any fun x => x.2 == tile) = true := by
  simp only [tileSuspect, raise_sw, State.drawn_sw, State.onSw_sw]
  split
  · rename_i h
    exact List.any_eq_true.mpr ⟨_, List.contains_iff_mem.mp h, by simp⟩
  · simp

theorem counter_tileSuspect (k : Nat) : counter (tileSuspect tile s) k = counter s k := by
  simp [tileSuspect, counter]

end

/-- An event recorded before stays recorded. -/
theorem LoggedWithin.tileSuspect {code : Nat} {pl : List Nat} {s t : State} (h : LoggedWithin 2 code pl s t)
    (hb : t.boot = s.boot) (tile : Nat) : LoggedWithin 4 code pl s (tileSuspect tile t) := by
  unfold Machine.tileSuspect
  refine LoggedWithin.raise (n := 2) ?_ ?_ (by decide) _ _
  · exact h.of_log_eq rfl rfl
  · exact hb

/-! An event is recorded where it is raised last, and where one of these operations follows. -/

section
variable {s u : State} (hb : u.boot = s.boot) (ht : u.time = s.time) (code : Nat) (pl : List Nat)
include hb ht

theorem raise_logged : Logged code pl s (raise code pl u) := (LoggedWithin.of_raise hb ht).logged

theorem logged_countTransient_raise (c e : Nat) : Logged code pl s (countTransient c e (raise code pl u)) :=
  (LoggedWithin.of_raise hb ht).countTransient ((raise_boot code pl u).trans hb) c e

theorem logged_retireEngine_raise (c e cause : Nat) : Logged code pl s (retireEngine c e cause (raise code pl u)) :=
  ((LoggedWithin.of_raise hb ht).retireEngine ((raise_boot code pl u).trans hb) (by decide) c e cause).logged

theorem retireEngine_raise_logged (c e cause : Nat) :
    Logged 0x7103 [c, e, cause] s (retireEngine c e cause (raise code pl u)) :=
  (retireEngine_logged c e cause ((raise_boot code pl u).trans hb) ((raise_time code pl u).trans ht)).logged

theorem logged_tileSuspect_raise (tile : Nat) : Logged code pl s (tileSuspect tile (raise code pl u)) :=
  ((LoggedWithin.of_raise hb ht).tileSuspect ((raise_boot code pl u).trans hb) tile).logged

end

/-! Placing a test and going on to the next one (R295): they change the scratchpad, the programs and the runs. -/

/-- The log, the counters, the suspect tiles, the transients and the engines of every core are as they were. -/
structure TestKeeps (s t : State) : Prop where
  sw : t.sw = s.sw
  dict : t.dict = s.dict
  day : t.chk.day = s.chk.day
  transients : t.chk.transients = s.chk.transients
  engines : ∀ c, enginesOf (t.core c) = enginesOf (s.core c)

namespace TestKeeps

theorem refl (s : State) : TestKeeps s s := ⟨rfl, rfl, rfl, rfl, fun _ => rfl⟩

theorem trans {s t u : State} (h : TestKeeps s t) (k : TestKeeps t u) : TestKeeps s u :=
  ⟨k.sw.trans h.sw, k.dict.trans h.dict, k.day.trans h.day, k.transients.trans h.transients,
    fun c => (k.engines c).trans (h.engines c)⟩

theorem forAll {α : Type} {f : α → State → State} (hf : ∀ a s, TestKeeps s (f a s)) (l : List α) (s : State) :
    TestKeeps s (Sys2Proof.forAll l f s) := by
  unfold Sys2Proof.forAll
  induction l generalizing s with
  | nil => exact refl s
  | cons a l ih => exact (hf a s).trans (ih (f a s))

theorem onCore (c : Nat) (f : Core → Core) (s : State) (hf : ∀ k, enginesOf (f k) = enginesOf k := by exact fun _ => rfl) :
    TestKeeps s (s.onCore c f) where
  sw := rfl
  dict := rfl
  day := rfl
  transients := rfl
  engines d := by
    by_cases h : d = c
    · rw [h, core_onCore_self, hf]
    · rw [core_onCore_ne f s h]

theorem onChk (f : Chk → Chk) (s : State) (hd : (f s.chk).day = s.chk.day := by exact rfl)
    (ht : (f s.chk).transients = s.chk.transients := by exact rfl) :
    TestKeeps s (s.onChk f) := ⟨rfl, rfl, hd, ht, fun _ => rfl⟩

theorem spadStore (c off : Nat) (l : List Byte) (s : State) : TestKeeps s (Machine.spadStore c off l s) :=
  ⟨rfl, rfl, rfl, rfl, fun _ => rfl⟩

theorem spad (m : Mem) (s : State) : TestKeeps s { s with spad := m } := ⟨rfl, rfl, rfl, rfl, fun _ => rfl⟩

theorem tilthPlace (c test : Nat) (s : State) : TestKeeps s (tilthPlace c test s) := by
  unfold Machine.tilthPlace
  split
  · exact refl s
  · extract_lets x placed started
    have hplaced : TestKeeps s placed := ((spad _ s).trans (spadStore ..)).trans (spadStore ..)
    have hstarted : TestKeeps placed started := (spadStore ..).trans (onCore ..)
    exact (hplaced.trans hstarted).trans (forAll (fun _ _ => onCore ..) _ _)

theorem tilthEnds (c : Nat) (s : State) : TestKeeps s (tilthEnds c s) := by
  unfold Machine.tilthEnds
  split
  · exact ((onChk ..).trans (onCore ..)).trans (spad ..)
  · exact refl s

theorem tilthNext (r : TilthRun) (s : State) : TestKeeps s (tilthNext r s) := by
  unfold Machine.tilthNext
  dsimp only
  split
  · exact (onChk ..).trans (tilthPlace ..)
  · split
    · exact onChk ..
    · exact (tilthEnds ..).trans (onChk ..)

variable {s t u : State}

theorem counter (h : TestKeeps s t) (k : Nat) : counter t k = counter s k := by rw [Machine.counter, h.dict, Machine.counter]

theorem logged (h : TestKeeps t u) {code : Nat} {pl : List Nat} (hl : Logged code pl s t) : Logged code pl s u := by
  unfold Logged at hl ⊢
  rwa [h.dict]

end TestKeeps

/-! What a test that has ended does (R296). -/

theorem exec_tilthTestDone {k i : Nat} {p : Bool} {s t : State} (h : tilthTested k i p s = t) :
    exec (.tilthTestDone k i p) s = .next (settle t) := h ▸ rfl

/-- The run of test `i` of a loaded set on target `k` that the end of a test is about. -/
structure TestRuns (k i : Nat) (r : TilthRun) (b : List Byte) (y : TilthTest) (s : State) : Prop where
  run : s.chk.runs.find? (fun x => x.target == k && x.test == i) = some r
  test : tilthOf s i = some (b, y)

theorem tilthPasses_tile {r : TilthRun} {b : List Byte} {y : TilthTest} {s : State} (ht : tilthOf s r.test = some (b, y))
    (hk : 64 ≤ r.target) (p : Bool) : tilthPasses s r p = true ↔ s.now - r.since ≤ 1000 * y.maxTime ∧ p = true := by
  simp [tilthPasses, ht, hk]

theorem tilthPasses_core {r : TilthRun} {b : List Byte} {y : TilthTest} {s : State} (ht : tilthOf s r.test = some (b, y))
    (hk : r.target < 64) (p : Bool) : tilthPasses s r p = true ↔ s.now - r.since ≤ 1000 * y.maxTime ∧
      (∀ kt ∈ (s.core r.target).threads, kt.2.running = false) ∧ tilthMatches s r.target b y = true := by
  simp [tilthPasses, ht, Nat.not_le.mpr hk]

theorem tilthTested_of_no_run {k i : Nat} {s : State} (h : s.chk.runs.find? (fun x => x.target == k && x.test == i) = none)
    (p : Bool) : tilthTested k i p s = s := by
  simp only [tilthTested, h]

section
variable {k i : Nat} {p : Bool} {r : TilthRun} {b : List Byte} {y : TilthTest} {s : State}

/-- A first run that passes. -/
theorem tilthTested_pass (h : TestRuns k i r b y s) (ha : r.again = false) (hp : tilthPasses s r p = true) :
    tilthTested k i p s = tilthNext r (bump 0xC40B08 1 s) := by
  simp only [tilthTested, h.run, ha, hp, Bool.not_false, Bool.and_self, if_true]

/-- A first run that fails. -/
theorem tilthTested_fail (h : TestRuns k i r b y s) (ha : r.again = false) (hp : tilthPasses s r p = false) :
    tilthTested k i p s = tilthPlace k i ((bump 0xC40B08 1 s).onChk fun c => { c with
      runs := c.runs.map fun x => if x.target = k then { x with again := true, since := s.now } else x }) := by
  simp [tilthTested, h.run, ha, hp, now_bump]

/-- A second run that passes, on a core. -/
theorem tilthTested_core_repaired (h : TestRuns k i r b y s) (ha : r.again = true) (hp : tilthPasses s r p = true)
    (hk : k < 64) :
    tilthTested k i p s = tilthNext r (countTransient k (testEngine y.target r.te)
      (raise 0xA107 [k, testEngine y.target r.te, i, 0] (bump 0xC40B08 1 s))) := by
  simp [tilthTested, h.run, h.test, ha, hp, Nat.not_le.mpr hk]

/-- A second run that passes, on a tile. -/
theorem tilthTested_tile_repaired (h : TestRuns k i r b y s) (ha : r.again = true) (hp : tilthPasses s r p = true)
    (hk : 64 ≤ k) :
    tilthTested k i p s = tilthNext r (raise 0xA107 [k, 0xFF, i, 0] (bump 0xC40B08 1 s)) := by
  simp [tilthTested, h.run, ha, hp, hk]

/-- A second run that fails, on a core. -/
theorem tilthTested_core_broken (h : TestRuns k i r b y s) (ha : r.again = true) (hp : tilthPasses s r p = false)
    (hk : k < 64) :
    tilthTested k i p s = tilthNext r (retireEngine k (testEngine y.target r.te) 2
      (raise 0xA107 [k, testEngine y.target r.te, i, 1] (bump 0xC40B09 1 (bump 0xC40B08 1 s)))) := by
  simp [tilthTested, h.run, h.test, ha, hp, Nat.not_le.mpr hk]

/-- A second run that fails, on a tile. -/
theorem tilthTested_tile_broken (h : TestRuns k i r b y s) (ha : r.again = true) (hp : tilthPasses s r p = false)
    (hk : 64 ≤ k) :
    tilthTested k i p s = tilthNext r (tileSuspect (k - 64)
      (raise 0xA107 [k, 0xFF, i, 1] (bump 0xC40B09 1 (bump 0xC40B08 1 s)))) := by
  simp [tilthTested, h.run, ha, hp, hk]

end

theorem onChk_frame (f : Chk → Chk) (s : State) : OnlyChanges [.chk] s (s.onChk f) := by
  intro q hq; cases q <;> simp_all [samePart]

/-- Settles O49. Each outcome reports, counts and judges in the state before the run goes on, and going on to the next test keeps
all of that (`TestKeeps.tilthNext`). -/
theorem failingTestsAreRepeated : Obligations.FailingTestsAreRepeated := by
  refine ⟨?firstFails, ?coreRepaired, ?tileRepaired, ?coreBroken, ?tileBroken, ?firstPasses, ?passes, ?noRun⟩
  case firstFails =>
    intro k i e p r b y s hr ht _ ha hp
    refine ⟨_, exec_tilthTestDone (tilthTested_fail ⟨hr, ht⟩ ha hp), rfl, counter_bump_self _ _ _, ?_⟩
    exact ((bump_frame _ _ s).mono (by simp)).trans ((onChk_frame _ _).mono (by simp))
  case coreRepaired =>
    intro k i e p r b y s hr ht he ha hp hk
    subst he
    have keeps := TestKeeps.tilthNext r (countTransient k (testEngine y.target r.te)
      (raise 0xA107 [k, testEngine y.target r.te, i, 0] (bump 0xC40B08 1 s)))
    refine ⟨_, exec_tilthTestDone (tilthTested_core_repaired ⟨hr, ht⟩ ha hp hk), keeps.logged ?logged,
      ?day, ?transients, ?count⟩
    case logged => apply logged_countTransient_raise <;> rfl
    case day => rw [keeps.day, countTransient_chk, transientCounted_day, now_raise, now_bump]
    case transients =>
      rw [keeps.transients, countTransient_chk, transientCounted_transients, raise_chk, bump_chk, now_raise, now_bump]
    case count => rw [keeps.counter, counter_countTransient _ _ _ (by decide), counter_raise, counter_bump_self]
  case tileRepaired =>
    intro k i e p r b y s hr ht _ ha hp hk
    have keeps := TestKeeps.tilthNext r (raise 0xA107 [k, 0xFF, i, 0] (bump 0xC40B08 1 s))
    refine ⟨_, exec_tilthTestDone (tilthTested_tile_repaired ⟨hr, ht⟩ ha hp hk), keeps.logged ?logged, ?suspects, ?count⟩
    case logged => apply raise_logged <;> rfl
    case suspects => rw [keeps.sw, raise_sw, bump_sw]
    case count => rw [keeps.counter, counter_raise, counter_bump_self]
  case coreBroken =>
    intro k i e p r b y s hr ht he ha hp hk
    subst he
    have keeps := TestKeeps.tilthNext r (retireEngine k (testEngine y.target r.te) 2
      (raise 0xA107 [k, testEngine y.target r.te, i, 1] (bump 0xC40B09 1 (bump 0xC40B08 1 s))))
    have engines := keeps.engines k
    rw [retireEngine_core, core_raise, core_bump, core_bump, enginesOf_withoutEngine] at engines
    simp only [enginesOf, Prod.mk.injEq] at engines
    obtain ⟨hte, hve, hme, hseq⟩ := engines
    refine ⟨_, exec_tilthTestDone (tilthTested_core_broken ⟨hr, ht⟩ ha hp hk), keeps.logged ?logged, keeps.logged ?retired,
      hte, hve, hme, hseq, ?count⟩
    case logged => apply logged_retireEngine_raise <;> rfl
    case retired => apply retireEngine_raise_logged <;> rfl
    case count =>
      rw [keeps.counter, counter_retireEngine _ _ _ _ (by decide), counter_raise, counter_bump_self,
        counter_bump_ne _ _ (by decide)]
  case tileBroken =>
    intro k i e p r b y s hr ht _ ha hp hk
    have keeps := TestKeeps.tilthNext r (tileSuspect (k - 64)
      (raise 0xA107 [k, 0xFF, i, 1] (bump 0xC40B09 1 (bump 0xC40B08 1 s))))
    refine ⟨_, exec_tilthTestDone (tilthTested_tile_broken ⟨hr, ht⟩ ha hp hk), keeps.logged ?logged, ?suspects, ?count⟩
    case logged => apply logged_tileSuspect_raise <;> rfl
    case suspects => rw [keeps.sw, tileSuspect_suspects]
    case count =>
      rw [keeps.counter, counter_tileSuspect, counter_raise, counter_bump_self, counter_bump_ne _ _ (by decide)]
  case firstPasses =>
    intro k i e p r b y s hr ht _ ha hp
    exact exec_tilthTestDone (tilthTested_pass ⟨hr, ht⟩ ha hp)
  case passes =>
    intro p r b y s ht
    exact ⟨fun hk => tilthPasses_tile ht hk p, fun hk => tilthPasses_core ht hk p⟩
  case noRun =>
    intro k i p s hr
    exact exec_tilthTestDone (tilthTested_of_no_run hr p)

end Sys2Proof
end
